-- ==== Sys2Proof/Word.lean ====
section
/-! DEFINITION. The word types of the CXM-8017 and their plainest arithmetic (00_scope.md, R4). -/

namespace Sys2Proof

/-- One byte. -/
abbrev Byte := BitVec 8
/-- A 32-bit register, core word or register field group. -/
abbrev Word := BitVec 32
/-- A 64-bit quantity: host address, custody time, record number. -/
abbrev DWord := BitVec 64
/-- Object ID (00_scope.md, Identifiers). -/
abbrev Oid := BitVec 128
/-- A 128-bit value: serial, GCM tag, completion result bytes 12 to 27. -/
abbrev QWord := BitVec 128
/-- A 256-bit value: a key or a SHA3-256 digest. -/
abbrev Hash := BitVec 256

/-- Bit `k` of a word as a Bool. -/
def bitAt {n : Nat} (w : BitVec n) (k : Nat) : Bool := w.getLsbD k

/-- Field `[hi:lo]` of a word as a number. -/
def fieldAt {n : Nat} (w : BitVec n) (hi lo : Nat) : Nat := (w.toNat >>> lo) % 2 ^ (hi + 1 - lo)

/-- The 32-bit word with bit `k` set exactly when `b`. -/
def bit32 (k : Nat) (b : Bool) : Word := if b then BitVec.ofNat 32 (2 ^ k) else 0

/-- A number placed at bit `lo` of a 32-bit word. -/
def put32 (lo v : Nat) : Word := BitVec.ofNat 32 (v <<< lo)

/-- A saturating count of `bits` bits, one higher. -/
def satInc (bits v : Nat) : Nat := if v + 1 < 2 ^ bits then v + 1 else 2 ^ bits - 1

/-- `n` bytes of a number, lowest first (R4). -/
def leBytes : Nat → Nat → List Byte
  | 0, _ => []
  | n + 1, v => BitVec.ofNat 8 v :: leBytes n (v / 256)

/-- `n` bytes of a number, highest first (the exceptions to R4: R232, R325). -/
def beBytes (n v : Nat) : List Byte := (leBytes n v).reverse

/-- The number a little-endian byte string spells (R4). -/
def leNat : List Byte → Nat
  | [] => 0
  | b :: bs => b.toNat + 256 * leNat bs

/-- The number a big-endian byte string spells. -/
def beNat (bs : List Byte) : Nat := leNat bs.reverse

end Sys2Proof
end

