-- ==== Sys2Proof/Types.lean ====
section
/-! DEFINITION. Plain data types shared by the commands and the state: submission entries, journal records, key records, messages. -/

namespace Sys2Proof

/-- Where an entry comes from: R112, R128, R144, R146, R147. -/
inductive Source
  | queue (qid : Nat)
  | mgmt
  | tag
  /-- Code of a ring, with the address of the buffer it names for the completion. -/
  | internal (ring : Nat) (buffer : Word)
  deriving DecidableEq, Repr

/-- A submission entry without its opcode, which the command names (R112). -/
structure Entry where
  flags  : Byte
  byte3  : Byte
  tag    : BitVec 16
  handle : BitVec 16
  params : BitVec 256
  addr0  : DWord
  addr1  : DWord
  seq    : Word
  crc    : Word
  deriving DecidableEq, Repr

/-- A completion entry without its CRC and phase, which posting adds (R116). -/
structure Completion where
  tag        : BitVec 16
  status     : BitVec 16
  sqid       : BitVec 16
  sqhead     : BitVec 16
  durability : Nat
  untrusted  : Bool
  degraded   : Bool
  result     : QWord
  deriving DecidableEq, Repr

/-- Key states (R180). -/
inductive KeyState | empty | active | decryptOnly | retained | shredded
  deriving DecidableEq, Repr

/-- A key record in plaintext (R180), with the version its counter-tree leaf gives it (R182). -/
structure KeyRecord where
  oid         : Oid
  dek         : Hash
  invHwm      : Nat
  fixed       : Word
  state       : KeyState
  exhausted   : Bool
  pinned      : Bool
  retired     : Bool
  gen         : Nat
  retainUntil : DWord
  policy      : Word
  created     : DWord
  changed     : DWord
  prevKh      : Word
  version     : Nat
  /-- The record was created after the no-history hold or the freeze began (R209, R538). -/
  fresh       : Bool
  deriving DecidableEq, Repr

/-- A manifest segment entry (R263) with its chunk hashes. -/
structure Segment where
  index  : Word
  kh     : Word
  length : DWord
  iv     : DWord
  fixed  : Word
  tag    : QWord
  time   : DWord
  chunks : List Hash
  deriving DecidableEq, Repr

/-- CUSTODY delta data (R307). -/
structure CustodyDelta where
  subkind : Nat
  cls     : Nat
  grant   : BitVec 16
  old     : DWord
  new     : DWord
  ref     : Hash
  deriving DecidableEq, Repr

/-- Deltas of a COMPLETE record (R257). -/
inductive Delta
  | key (index : Nat) (r : KeyRecord)
  | stage (oid : Oid) (seg : Segment)
  | unstage (oid : Oid) (segIndex : Word)
  | manifest (oid : Oid) (version retain owner : DWord) (segs : List Word)
  | custody (d : CustodyDelta)
  | shelf (value : Word)
  deriving DecidableEq, Repr

/-- One queue slot of a queue checkpoint (R256). -/
structure QSlot where
  seq     : Word
  tag     : BitVec 16
  vExists : Bool
  qExists : Bool
  deriving DecidableEq, Repr

/-- Journal record bodies (R256, R257, R259, R543). -/
inductive JBody
  | genesis (serial : QWord) (pairTag : BitVec 21)
  | accept (seq : Word) (tag opcode : BitVec 16) (outcome ring : Nat)
  | complete (seq : Word) (tag opcode status : BitVec 16) (result : QWord) (deltas : List Delta)
  | posted (marks : List (Word × BitVec 16))
  | reserve (kh : Word) (newHwm : Nat)
  | checkpoint (chain : Hash) (prev : DWord) (serial : QWord) (pairTag : BitVec 21) (sigs : List Byte)
  | queueCkpt (kind : Nat) (tailNum : DWord) (slots : List QSlot)
  | image (number : DWord) (kind : Nat) (first last : DWord) (digest : Hash)
  | secured (number highest : DWord)
  | boundary (cause src : Nat) (seq : Word) (tag : BitVec 16)
  | recover (last joined : DWord) (outcome : Nat) (skip : Bool)
  | brk (lastGood : DWord) (chain : Hash) (lost : Nat)
  | role (epoch : DWord) (new old : QWord) (kind : Nat)
  deriving DecidableEq, Repr

/-- A journal record (R253); `number` and `time` of the header, `mirrored` its rflags bit 0. `handle` is the stream that a command named: no byte of the record holds it, and the reports of a castling need it (R140). DESIGN CHOICE (log 117) -/
structure JRecord where
  mirrored : Bool
  source   : BitVec 16
  number   : Nat
  time     : DWord
  body     : JBody
  handle   : BitVec 16
  deriving DecidableEq, Repr

/-- What KTAB's verification of what it reads finds, bottom-up: all well, or the k-th object read does not verify or is uncorrectable. For a fill, object 0 is the record and object l the node R(l) of its path; for a FIND, objects 0 to 6 are the first bucket and the nodes I1 to I6 above it, objects 7 to 13 those of the second (R191, R194, R211, R212). -/
inductive Verify
  | ok
  | mismatch (k : Nat)
  | uncorrectable (k : Nat)
  deriving DecidableEq, Repr

/-- A lane's turn at the end of a command: what a fill of the stream's key finds where the key cache lacks it (R211, R212), and whether a context brought back from DDR5 verifies (R242). -/
structure LaneTurn where
  lane    : Fin 4
  fill    : Verify
  context : Bool
  deriving DecidableEq, Repr

/-- A FIND: the OID, and what the verification of the buckets and their paths finds (R191, R211, R212). -/
structure FindOid where
  oid   : Oid
  found : Verify
  deriving DecidableEq, Repr

/-- Pair roles (R518). -/
inductive Role | electing | active | standby | syncing | solo
  deriving DecidableEq, Repr

/-- Power states (03_power_clocks_reset.md, R67). -/
inductive PowerMode | run | steep | lager | cell
  deriving DecidableEq, Repr

/-- Lifecycle states (R294). -/
inductive Lifecycle | blank | commissioned | field | keyless | retired
  deriving DecidableEq, Repr

/-- Fault classes (R496). -/
inductive FClass | memCe | memUe | lockstep | bus | protocol | powerClock | security | software
  deriving DecidableEq, Repr

/-- Fault levels (R497). -/
inductive Level | log | fence | check | mate | kiln
  deriving DecidableEq, Repr

/-- A reporting unit: class and number (R500). -/
structure FUnit where
  cls : Nat
  num : Nat
  deriving DecidableEq, Repr

/-- One report to the fault collector. -/
structure Report where
  source   : Nat
  unit     : FUnit
  syndrome : Word
  address  : DWord
  deriving DecidableEq, Repr

/-- The three logical Mbovor-32 cores (R374). -/
inductive CoreId | ccA | ccB | mgt
  deriving DecidableEq, Repr

/-- A 5-bit register field (R375). -/
abbrev RegF := BitVec 5

/-- Who makes an access, and how: a core's store; a host's write or read of a port's BAR0; a write that arrives poisoned; a write or read of the port's configuration space. -/
inductive Agent
  | core (c : CoreId)
  | host (port : Nat)
  | hostRead (port : Nat)
  | hostPoisoned (port : Nat)
  | config (port : Nat)
  | configRead (port : Nat)
  deriving DecidableEq, Repr

/-- How a DMA read of the module failed (R162). -/
inductive DmaFail | timeout | unsupported | abort | poisoned
  deriving DecidableEq, Repr

/-- The element a failed DMA read was for: its index, whether the scatter list itself was read or the data, how it failed (R162). -/
structure DmaElement where
  index : Word
  list  : Bool
  how   : DmaFail
  deriving DecidableEq, Repr

/-- What reaches the management port as one write: bytes, or, in I3C mode, a write that a protocol error cuts short (R144, R174). -/
inductive MgmtWrite | frame (bytes : List Byte) | broken
  deriving DecidableEq, Repr

/-- An IDE stream of a host port (R168). -/
structure IdeStream where
  port   : Fin 2
  stream : Fin 2
  deriving DecidableEq, Repr

/-- What a rise of VIN finds: the hold-up capacitance in microfarads (R56), the straps PREF and BAY_ID (R63). -/
structure RiseFound where
  uf   : Nat
  pref : Bool
  bay  : BitVec 6
  deriving DecidableEq, Repr

/-- The end of a power-fail hold: VIN in millivolts, and the hold-up capacitance the power-up measures (R55, R56). -/
structure HoldEnd where
  mv : Nat
  uf : Nat
  deriving DecidableEq, Repr

/-- Modes of a mailbox LOAD (R235). -/
inductive LoadMode | openSeal | openUnseal | reload
  deriving DecidableEq, Repr

/-- Operands of a vault engine command (R320, VAULT_ENG_SRC, _DST, _LEN). -/
structure EngCmd where
  kslot  : Nat
  kek    : Bool
  dslot  : Nat
  dsel   : Bool
  src    : Word
  dst    : Word
  inLen  : Nat
  outLen : Nat
  deriving DecidableEq, Repr

/-- How a public-key job's hardware fared (R334, R337, R339, R328). -/
inductive PkeHw | sound | releaseFail | opmUe | unitFault | wipeFail | roundCap
  deriving DecidableEq, Repr

/-- How a flash operation ended (R455, R456, R467). -/
inductive FlashEnd | ok | verifyFail | pumpFail
  deriving DecidableEq, Repr

/-- What a scrub or a demand read finds (R432, R433, R436). -/
inductive EccFind | clean | correctable (hard : Bool) | uncorrectable
  deriving DecidableEq, Repr

/-- A last-active record (R523). -/
structure LastActive where
  copySeq : Nat
  epoch   : Nat
  serial  : QWord
  pairTag : BitVec 21
  roleRec : Nat
  time    : DWord
  deriving DecidableEq, Repr

/-- The stored preferred record: the serial it names, and the epoch at which it was written (R547). -/
structure PrefRecord where
  serial : QWord
  epoch  : Nat
  deriving DecidableEq, Repr

/-- A HELLO message (R529). -/
structure Hello where
  serial     : QWord
  chain      : List Byte
  lastActive : Option LastActive
  role       : Role
  preferred  : Bool
  nonce      : Hash
  deriving DecidableEq, Repr

/-- CONTROL messages (R529). -/
inductive CtlMsg
  | castleRequest
  | castleGo
  | withdrawal
  | synced
  | preferred (r : Option PrefRecord)
  deriving DecidableEq, Repr

/-- A SYNC message: the resynchronisation image of the active with its later records (R540). -/
structure SyncImage where
  lastRec   : Nat
  chain     : Hash
  crCheck   : BitVec 64
  /-- The custody root for a partner that lacks it, as a capsule of 1,616 bytes (R541). -/
  crCapsule : Option (List Byte)
  pairTag   : BitVec 21
  held      : Bool
  records   : List (Nat × KeyRecord)
  manifests : List (Oid × DWord × DWord × DWord × List Segment)
  later     : List JRecord
  progress  : Nat
  deriving DecidableEq, Repr

/-- An entry handed over in a planned castling (R535). -/
structure Handed where
  source : Source
  opcode : BitVec 16
  entry  : Entry
  deriving DecidableEq, Repr

/-- Outcome of the known-answer tests (R92, R607): the four lanes, the two public-key units, the vault engine, the DRBG. -/
structure KatResults where
  lanes : List Bool
  pkes  : List Bool
  vault : Bool
  drbg  : Bool
  deriving DecidableEq, Repr

/-- What the boot checks find (R92, R95, R444, R460). -/
structure BootEnv where
  checkerOk   : Bool
  seedOk      : Bool
  /-- The known-answer tests of the lanes, the PKE units, the vault engine and the DRBG (the 176 ms row). -/
  kats        : KatResults
  /-- The four derived public keys equal the device certificate's (R341). -/
  pairsOk     : Bool
  /-- The two decisions on the selected image, and on the other one. -/
  first       : Bool × Bool
  second      : Bool × Bool
  ddrOk       : Bool
  refclk      : Bool × Bool
  deriving DecidableEq, Repr

/-- Sources of the wake table (R76): a doorbell write or a TLP that causes an L1.2 exit (`host`), PERST_N rising (`perst`), and the others; and what is recorded only: SHELF_IN (R75) and a card taken out (R26). -/
inductive WakeSource | host | perst | capSlot | field | card | timer | heartbeat | lever | shelfIn | cardOut
  deriving DecidableEq, Repr

/-- Heartbeat paths (R530). -/
inductive HbPath | a | b
  deriving DecidableEq, Repr

/-- How a host-port reset arrives (R160). -/
inductive FlrCause | flr | hotReset | perst
  deriving DecidableEq, Repr

/-- Blocking failures of the entropy source (R354). -/
inductive RngFail
  /-- Consecutive bits of one cell, in the repetition count test. -/
  | rct (bits : List Bool)
  /-- A window of one cell's bits, in the adaptive proportion test. -/
  | apt (window : List Bool)
  /-- A cell delivers no sample for so many microseconds (R353). -/
  | starve (us : Nat)
  deriving DecidableEq, Repr

/-- A store the host made to its own memory before ringing a doorbell. -/
structure HostStore where
  addr : Nat
  bytes : List Byte
  deriving DecidableEq, Repr

end Sys2Proof
end

