-- ==== Sys2Proof/Syntax.lean ====
section
/-! DEFINITION. The commands of the module: one constructor for each row of the opcode table, with its operands. -/

namespace Sys2Proof

/-- A command given to the module. The first 61 carry a Yomir entry (R112) and where it came from; the rest are register writes, bus and pin events, messages, timer expiries and the Mbovor-32 instructions a core issues. -/
inductive Instr
  /-- IDENTIFY (R606). -/
  | identify (src : Source) (e : Entry)
  /-- QUEUE_CREATE (R106). -/
  | queueCreate (src : Source) (e : Entry)
  /-- QUEUE_DELETE (R108). -/
  | queueDelete (src : Source) (e : Entry)
  /-- SET_TIME (R608). -/
  | setTime (src : Source) (e : Entry)
  /-- GET_LOG (R512). -/
  | getLog (src : Source) (e : Entry)
  /-- ABORT (R134). -/
  | abort (src : Source) (e : Entry)
  /-- FW_STAGE (R609). -/
  | fwStage (src : Source) (e : Entry)
  /-- FW_ACTIVATE (R610). -/
  | fwActivate (src : Source) (e : Entry)
  /-- KEY_CREATE (R184). -/
  | keyCreate (src : Source) (e : Entry)
  /-- KEY_LOOKUP (R187). -/
  | keyLookup (src : Source) (e : Entry)
  /-- KEY_ROTATE (R184). -/
  | keyRotate (src : Source) (e : Entry)
  /-- KEY_SET_STATE (R184). -/
  | keySetState (src : Source) (e : Entry)
  /-- KEY_SHRED (R186). -/
  | keyShred (src : Source) (e : Entry)
  /-- KEY_EXPORT_WRAPPED (R308). -/
  | keyExportWrapped (src : Source) (e : Entry)
  /-- KEY_IMPORT_WRAPPED (R309). -/
  | keyImportWrapped (src : Source) (e : Entry)
  /-- KEY_PIN (R197). -/
  | keyPin (src : Source) (e : Entry)
  /-- SEAL_OPEN (R224). -/
  | sealOpen (src : Source) (e : Entry)
  /-- SEAL_DATA (R226). -/
  | sealData (src : Source) (e : Entry)
  /-- SEAL_CLOSE (R231). -/
  | sealClose (src : Source) (e : Entry)
  /-- UNSEAL_OPEN (R224). -/
  | unsealOpen (src : Source) (e : Entry)
  /-- UNSEAL_DATA (R226). -/
  | unsealData (src : Source) (e : Entry)
  /-- UNSEAL_CLOSE (R239). -/
  | unsealClose (src : Source) (e : Entry)
  /-- STREAM_ABORT (R231). -/
  | streamAbort (src : Source) (e : Entry)
  /-- STREAM_QUERY (R231). -/
  | streamQuery (src : Source) (e : Entry)
  /-- MANIFEST_COMMIT (R266). -/
  | manifestCommit (src : Source) (e : Entry)
  /-- MANIFEST_READ (R267). -/
  | manifestRead (src : Source) (e : Entry)
  /-- JOURNAL_READ (R285). -/
  | journalRead (src : Source) (e : Entry)
  /-- JOURNAL_CHECKPOINT (R260). -/
  | journalCheckpoint (src : Source) (e : Entry)
  /-- VAULT_EXPORT (R277). -/
  | vaultExport (src : Source) (e : Entry)
  /-- VAULT_IMPORT (R280). -/
  | vaultImport (src : Source) (e : Entry)
  /-- PK_SIGN (R325). -/
  | pkSign (src : Source) (e : Entry)
  /-- PK_VERIFY (R327). -/
  | pkVerify (src : Source) (e : Entry)
  /-- PK_KEM_ENCAP (R325). -/
  | pkKemEncap (src : Source) (e : Entry)
  /-- PK_KEM_DECAP (R325). -/
  | pkKemDecap (src : Source) (e : Entry)
  /-- PK_ECDH (R325). -/
  | pkEcdh (src : Source) (e : Entry)
  /-- PK_KEYGEN (R340). -/
  | pkKeygen (src : Source) (e : Entry)
  /-- ATTEST (R344). -/
  | attest (src : Source) (e : Entry)
  /-- PK_MODEXP (R325). -/
  | pkModexp (src : Source) (e : Entry)
  /-- RNG_READ (R363). -/
  | rngRead (src : Source) (e : Entry)
  /-- RNG_STATUS (R364). -/
  | rngStatus (src : Source) (e : Entry)
  /-- QUORUM_BEGIN (R300). -/
  | quorumBegin (src : Source) (e : Entry)
  /-- QUORUM_APPROVE (R303). -/
  | quorumApprove (src : Source) (e : Entry)
  /-- QUORUM_END (R305). -/
  | quorumEnd (src : Source) (e : Entry)
  /-- CUSTODIAN_ENROLL (R298). -/
  | custodianEnroll (src : Source) (e : Entry)
  /-- PAIR_STATUS (R545). -/
  | pairStatus (src : Source) (e : Entry)
  /-- CASTLE (R546). -/
  | castle (src : Source) (e : Entry)
  /-- PAIR_SET_PREFERRED (R547). -/
  | pairSetPreferred (src : Source) (e : Entry)
  /-- POWER_STATE (R69). -/
  | powerState (src : Source) (e : Entry)
  /-- WAKE_POLICY (R78). -/
  | wakePolicy (src : Source) (e : Entry)
  /-- SLOT_SCAN (R562). -/
  | slotScan (src : Source) (e : Entry)
  /-- TAG_READ (R563). -/
  | tagRead (src : Source) (e : Entry)
  /-- TAG_WRITE (R564). -/
  | tagWrite (src : Source) (e : Entry)
  /-- PLACARD_WRITE (R577). -/
  | placardWrite (src : Source) (e : Entry)
  /-- SLOT_EVENTS (R566). -/
  | slotEvents (src : Source) (e : Entry)
  /-- CARD_STATUS (R598). -/
  | cardStatus (src : Source) (e : Entry)
  /-- CARD_APDU (R599). -/
  | cardApdu (src : Source) (e : Entry)
  /-- TOKEN_OP (R600). -/
  | tokenOp (src : Source) (e : Entry)
  /-- SELFTEST (R607). -/
  | selftest (src : Source) (e : Entry)
  /-- FAULT_FORCE (R507). -/
  | faultForce (src : Source) (e : Entry)
  /-- TAMPER_TEST (R486). -/
  | tamperTest (src : Source) (e : Entry)
  /-- LATCH_FIELD_READ (R368). -/
  | latchFieldRead (src : Source) (e : Entry)
  /-- UNDEFINED_OPCODE (R14). -/
  | undefinedOpcode (op : BitVec 16) (src : Source) (e : Entry)
  /-- SQ_TAIL_DOORBELL (R109). -/
  | sqTailDoorbell (port : Fin 2) (q : Fin 64) (v : Word) (stores : List HostStore) (bad : List Nat)
  /-- CQ_HEAD_DOORBELL (R110). -/
  | cqHeadDoorbell (port : Fin 2) (q : Fin 64) (v : Word)
  /-- PORT_CTL_ENABLE (R158). -/
  | portCtlEnable (port : Fin 2) (v : Word)
  /-- ACCEPT_MIRROR_TIMEOUT (R124). -/
  | acceptMirrorTimeout (record : Nat)
  /-- MGMT_FRAME_WRITE (R145). -/
  | mgmtFrameWrite (bytes : MgmtWrite)
  /-- MGMT_FRAME_READ (R173). -/
  | mgmtFrameRead (len : Nat)
  /-- MGMT_SCL_TIMEOUT (R174). -/
  | mgmtSclTimeout
  /-- ENTDAA (R172). -/
  | entdaa (addr : BitVec 7)
  /-- SETDASA (R172). -/
  | setdasa (addr : BitVec 7)
  /-- SETAASA (R172). -/
  | setaasa
  /-- RSTDAA (R172). -/
  | rstdaa
  /-- ENEC (R172). -/
  | enec (events : Byte)
  /-- DISEC (R172). -/
  | disec (events : Byte)
  /-- GETPID (R172). -/
  | getpid
  /-- GETBCR (R172). -/
  | getbcr
  /-- GETDCR (R172). -/
  | getdcr
  /-- GETSTATUS (R175). -/
  | getstatus
  /-- GETMWL (R172). -/
  | getmwl
  /-- GETMRL (R172). -/
  | getmrl
  /-- RSTACT (R172). -/
  | rstact (action : Byte)
  /-- GET_VERSION (R167). -/
  | getVersion (port : Fin 2) (req : List Byte)
  /-- GET_CAPABILITIES (R167). -/
  | getCapabilities (port : Fin 2) (req : List Byte)
  /-- NEGOTIATE_ALGORITHMS (R167). -/
  | negotiateAlgorithms (port : Fin 2) (req : List Byte)
  /-- GET_DIGESTS (R167). -/
  | getDigests (port : Fin 2) (req : List Byte)
  /-- GET_CERTIFICATE (R167). -/
  | getCertificate (port : Fin 2) (slot offset length : Nat)
  /-- CHALLENGE (R167). -/
  | challenge (port : Fin 2) (req : List Byte)
  /-- GET_MEASUREMENTS (R167). -/
  | getMeasurements (port : Fin 2) (req : List Byte)
  /-- KEY_EXCHANGE (R167). -/
  | keyExchange (port : Fin 2) (req : List Byte)
  /-- FINISH (R167). -/
  | finish (port : Fin 2) (req : List Byte)
  /-- SPDM_HEARTBEAT (R167). -/
  | spdmHeartbeat (port : Fin 2)
  /-- KEY_UPDATE (R167). -/
  | keyUpdate (port : Fin 2)
  /-- END_SESSION (R168). -/
  | endSession (port : Fin 2)
  /-- IDE_KM_QUERY (R168). -/
  | ideKmQuery (port : Fin 2)
  /-- KEY_PROG (R168). -/
  | keyProg (port : Fin 2) (inSession : Bool) (stream : Nat) (keySet : Bool) (sub : Nat) (tx : Bool) (key : Hash) (iv : DWord)
  /-- K_SET_GO (R168). -/
  | kSetGo (port : Fin 2) (stream : Nat) (keySet : Bool) (sub : Nat) (tx : Bool)
  /-- K_SET_STOP (R168). -/
  | kSetStop (port : Fin 2) (stream : Nat) (keySet : Bool) (sub : Nat) (tx : Bool)
  /-- HOST_FLR (R160). -/
  | hostFlr (port : Fin 2) (cause : FlrCause)
  /-- BUS_MASTER_DISABLE (R160). -/
  | busMasterDisable (port : Fin 2)
  /-- D3HOT_ENTRY (R160). -/
  | d3hotEntry (port : Fin 2)
  /-- SURPRISE_DOWN (R164). -/
  | surpriseDown (port : Fin 2)
  /-- IDE_CHECK_FAIL (R160). -/
  | ideCheckFail (port : IdeStream)
  /-- ASPM_L1_ENTRY (R165). -/
  | aspmL1Entry (port : Fin 2) (substate : Bool)
  /-- DMA_READ_ERROR (R162). -/
  | dmaReadError (src : Source) (tag : BitVec 16) (element : DmaElement)
  /-- LANE_COMMAND_COMPLETE (R218). -/
  | laneCommandComplete (lane : LaneTurn)
  /-- LANE_WATCHDOG (R248). -/
  | laneWatchdog (lane : Fin 4)
  /-- STREAM_PARK1 (R240). -/
  | streamPark1 (handle : BitVec 16)
  /-- STREAM_PARK2 (R240). -/
  | streamPark2 (handle : BitVec 16)
  /-- STREAM_EXPIRY (R245). -/
  | streamExpiry (handle : BitVec 16)
  /-- LOAD (R21). -/
  | load (lane : Nat) (slot : Nat) (mode : LoadMode) (entry : Nat) (kh : Word)
  /-- CLEAR (R23). -/
  | clear (lane : Nat) (slot : Nat) (release : Bool) (entry : Nat) (kh : Word)
  /-- MAILBOX_DONE (R252). -/
  | mailboxDone (lane : Fin 4)
  /-- FILL (R194). -/
  | fill (kh : Word) (v : Verify)
  /-- INVALIDATE (R216). -/
  | invalidate (kh : Word)
  /-- PIN (R197). -/
  | pin (kh : Word)
  /-- UNPIN (R216). -/
  | unpin (kh : Word)
  /-- FIND (R191). -/
  | find (oid : FindOid)
  /-- DRAW (R203). -/
  | draw (kh : Word)
  /-- KTAB_OP_DONE (R217). -/
  | ktabOpDone
  /-- WRAP (R291). -/
  | wrap (cmd : EngCmd)
  /-- UNWRAP (R291). -/
  | unwrap (cmd : EngCmd)
  /-- KDF (R292). -/
  | kdf (cmd : EngCmd)
  /-- CMAC (R291). -/
  | cmac (cmd : EngCmd)
  /-- CLEAR_SLOT (R291). -/
  | clearSlot (slot : Fin 32)
  /-- VAULT_ENG_DONE (R321). -/
  | vaultEngDone
  /-- VAULT_KILN (R310). -/
  | vaultKiln (v : Word)
  /-- KILN_TIER2_DONE (R311). -/
  | kilnTier2Done
  /-- KILN_INDUCED_RESET (R85). -/
  | kilnInducedReset
  /-- KILN_TIER3_DONE (R311). -/
  | kilnTier3Done
  /-- KILN_RESERVOIR_LOW (R313). -/
  | kilnReservoirLow (mv : Nat)
  /-- RESERVOIR_KILN_TRIGGER (R313). -/
  | reservoirKilnTrigger (mv : Nat)
  /-- QUORUM_SESSION_EXPIRY (R301). -/
  | quorumSessionExpiry (grant : BitVec 16)
  /-- PKE_RING_TAIL (R330). -/
  | pkeRingTail (v : Word)
  /-- PKE_DISPATCH (R330). -/
  | pkeDispatch
  /-- PKE_JOB_DONE (R337). -/
  | pkeJobDone (unit : Fin 2) (hw : PkeHw)
  /-- PKE_KEYGEN_TIMEOUT (R340). -/
  | pkeKeygenTimeout (unit : Fin 2)
  /-- RNG_REQ (R359). -/
  | rngReq (v : Word)
  /-- RNG_DONE_READ (R373). -/
  | rngDoneRead
  /-- RNG_REQUEST_DONE (R359). -/
  | rngRequestDone
  /-- RNG_REQUEST_TIMEOUT (R360). -/
  | rngRequestTimeout (id : Nat)
  /-- RNG_BLOCKING_FAIL (R354). -/
  | rngBlockingFail (kind : RngFail)
  /-- RNG_SEEDED (R358). -/
  | rngSeeded
  /-- RNG_OSC_HEALTH (R351). -/
  | rngOscHealth (windows : List (Nat × Nat)) (ratios : List Nat)
  /-- SEED_TIMEOUT (R94). -/
  | seedTimeout
  /-- RETIRE (R440). -/
  | retire (page : Word) (slot : Nat) (bad : DWord)
  /-- REPAIR (R442). -/
  | repair (array : Nat) (row : Nat)
  /-- RMAP_DONE (R441). -/
  | rmapDone
  /-- SPARE_DONE (R442). -/
  | spareDone
  /-- DRAMC_LOG_NEXT (R438). -/
  | dramcLogNext (v : Word)
  /-- SPARGE_SCRUB (R435). -/
  | spargeScrub (sram : Bool) (die : Nat) (syndrome : Nat) (find : EccFind)
  /-- LAP_OVERRUN (R437). -/
  | lapOverrun (sram : Bool)
  /-- PROGRAM (R454). -/
  | program (bank : Fin 4) (addr : Nat) (data : DWord)
  /-- ERASE (R456). -/
  | erase (bank : Fin 4) (sector : Nat)
  /-- SUSPEND (R459). -/
  | suspend (bank : Fin 4)
  /-- RESUME (R458). -/
  | resume (bank : Fin 4)
  /-- FLASH_QUERY (R457). -/
  | flashQuery (bank : Fin 4) (sector : Nat)
  /-- PROTECT (R463). -/
  | protect (group : Nat)
  /-- UNPROTECT (R463). -/
  | unprotect (group : Nat)
  /-- FLASH_OP_DONE (R471). -/
  | flashOpDone (bank : Fin 4) (res : FlashEnd)
  /-- SUSPEND_HONOURED (R459). -/
  | suspendHonoured (bank : Fin 4)
  /-- UNLOCK (R464). -/
  | unlock (password : QWord)
  /-- LOCK (R464). -/
  | lock
  /-- SET_PASSWORD (R464). -/
  | setPassword (password : QWord)
  /-- TORN_SCAN_DONE (R460). -/
  | tornScanDone
  /-- TAMPER_MONITOR_ASSERT (R474). -/
  | tamperMonitorAssert (source : Nat) (stays : Bool) (detail : Word)
  /-- CELL_TAMPER_ALARM (R478). -/
  | cellTamperAlarm (source : Nat) (stays : Bool)
  /-- TAMPER_BIST (R484). -/
  | tamperBist (v : Word)
  /-- BIST_WINDOW_END (R485). -/
  | bistWindowEnd (asserted : Bool) (still : Bool)
  /-- TAMPER_CALIBRATE (R492). -/
  | tamperCalibrate (readings : List Word)
  /-- TAMPER_STICKY_CLEAR (R481). -/
  | tamperStickyClear (v : Word)
  /-- FAULT_RAISE (R498). -/
  | faultRaise (reports : List Report)
  /-- CHECK_TIMER_EXPIRY (R503). -/
  | checkTimerExpiry (seq : Nat)
  /-- FAULT_ACK (R502). -/
  | faultAck (v : Word)
  /-- FAULT_FORCE_REG (R516). -/
  | faultForceReg (v : Word)
  /-- FAULT_SWRAISE (R496). -/
  | faultSwraise (v : Word)
  /-- ALARM_RELEASE (R508). -/
  | alarmRelease (v : Word)
  /-- LOCKSTEP_MISMATCH (R401). -/
  | lockstepMismatch (ccb : Bool)
  /-- PLL_UNLOCK (R83). -/
  | pllUnlock (pll : Fin 8)
  /-- LEVER_RISE (R48). -/
  | leverRise
  /-- LEVER_CLOSED (R45). -/
  | leverClosed
  /-- WITHDRAWAL_DRAIN_TIMEOUT (R48). -/
  | withdrawalDrainTimeout
  /-- VIN_RISE (R46). -/
  | vinRise (mv : Nat) (uf : RiseFound)
  /-- BUS_CLASS_FIX (R53). -/
  | busClassFix
  /-- BOOT_START (R92). -/
  | bootStart (env : BootEnv)
  /-- HOLDUP_CHARGED (R56). -/
  | holdupCharged
  /-- POWER_FAIL (R272). -/
  | powerFail (mv : Nat)
  /-- POWER_FAIL_HOLD_RELEASE (R55). -/
  | powerFailHoldRelease (mv : HoldEnd)
  /-- VIN_LOSS (R68). -/
  | vinLoss (mv : Nat)
  /-- VCELL_LOW (R58). -/
  | vcellLow (mv : Nat)
  /-- POWER_STATE_ENTRY (R71). -/
  | powerStateEntry
  /-- SYSCTL_PWR_TARGET (R102). -/
  | sysctlPwrTarget (v : Word)
  /-- WAKE_EVENT (R76). -/
  | wakeEvent (source : WakeSource) (obj : Nat)
  /-- WARM_RESET (R88). -/
  | warmReset
  /-- WARM_RESET_REQ (R85). -/
  | warmResetReq (v : Word)
  /-- MGMT_RESET_REQ (R85). -/
  | mgmtResetReq (v : Word)
  /-- MGMT_PLANE_RESET (R91). -/
  | mgmtPlaneReset
  /-- MGMT_WATCHDOG_EXPIRY (R85). -/
  | mgmtWatchdogExpiry
  /-- SHELF_IN_CHANGE (R75). -/
  | shelfInChange (v : BitVec 16)
  /-- CCB_RELEASE (R404). -/
  | ccbRelease (v : Word)
  /-- IXREQ_ASSERT (R429). -/
  | ixreqAssert (ccb : Bool)
  /-- IXREQ_DEASSERT (R429). -/
  | ixreqDeassert (ccb : Bool)
  /-- CUSTODY_TIME_TICK (R428). -/
  | custodyTimeTick (periods : Nat)
  /-- REGISTER_WRITE (R5). -/
  | registerWrite (who : Agent) (addr : Nat) (v : DWord) (width : Nat)
  /-- INTERRUPT (R427). -/
  | interrupt (c : CoreId)
  /-- UNDEFINED_INSTRUCTION (R391). -/
  | undefinedInstruction (c : CoreId) (w : Word)
  /-- ADD (R390). -/
  | add (c : CoreId) (rd rs rt : RegF)
  /-- SUB (R390). -/
  | sub (c : CoreId) (rd rs rt : RegF)
  /-- ADDV (R396). -/
  | addv (c : CoreId) (rd rs rt : RegF)
  /-- SUBV (R396). -/
  | subv (c : CoreId) (rd rs rt : RegF)
  /-- AND (R390). -/
  | and (c : CoreId) (rd rs rt : RegF)
  /-- OR (R390). -/
  | or (c : CoreId) (rd rs rt : RegF)
  /-- XOR (R390). -/
  | xor (c : CoreId) (rd rs rt : RegF)
  /-- ANDN (R390). -/
  | andn (c : CoreId) (rd rs rt : RegF)
  /-- SLL (R390). -/
  | sll (c : CoreId) (rd rs rt : RegF)
  /-- SRL (R390). -/
  | srl (c : CoreId) (rd rs rt : RegF)
  /-- SRA (R390). -/
  | sra (c : CoreId) (rd rs rt : RegF)
  /-- ROR (R390). -/
  | ror (c : CoreId) (rd rs rt : RegF)
  /-- SLT (R390). -/
  | slt (c : CoreId) (rd rs rt : RegF)
  /-- SLTU (R390). -/
  | sltu (c : CoreId) (rd rs rt : RegF)
  /-- MUL (R390). -/
  | mul (c : CoreId) (rd rs rt : RegF)
  /-- MULHU (R390). -/
  | mulhu (c : CoreId) (rd rs rt : RegF)
  /-- MULHS (R390). -/
  | mulhs (c : CoreId) (rd rs rt : RegF)
  /-- DIVU (R396). -/
  | divu (c : CoreId) (rd rs rt : RegF)
  /-- DIVS (R396). -/
  | divs (c : CoreId) (rd rs rt : RegF)
  /-- REMU (R396). -/
  | remu (c : CoreId) (rd rs rt : RegF)
  /-- REMS (R396). -/
  | rems (c : CoreId) (rd rs rt : RegF)
  /-- CLZ (R390). -/
  | clz (c : CoreId) (rd rs : RegF)
  /-- SLLI (R389). -/
  | slli (c : CoreId) (rd rs : RegF) (sh : BitVec 5)
  /-- SRLI (R389). -/
  | srli (c : CoreId) (rd rs : RegF) (sh : BitVec 5)
  /-- SRAI (R389). -/
  | srai (c : CoreId) (rd rs : RegF) (sh : BitVec 5)
  /-- RORI (R389). -/
  | rori (c : CoreId) (rd rs : RegF) (sh : BitVec 5)
  /-- ADDI (R389). -/
  | addi (c : CoreId) (rd rs : RegF) (imm : BitVec 16)
  /-- ADDIV (R396). -/
  | addiv (c : CoreId) (rd rs : RegF) (imm : BitVec 16)
  /-- ANDI (R389). -/
  | andi (c : CoreId) (rd rs : RegF) (imm : BitVec 16)
  /-- ORI (R389). -/
  | ori (c : CoreId) (rd rs : RegF) (imm : BitVec 16)
  /-- XORI (R389). -/
  | xori (c : CoreId) (rd rs : RegF) (imm : BitVec 16)
  /-- SLTI (R389). -/
  | slti (c : CoreId) (rd rs : RegF) (imm : BitVec 16)
  /-- SLTIU (R389). -/
  | sltiu (c : CoreId) (rd rs : RegF) (imm : BitVec 16)
  /-- LUI (R389). -/
  | lui (c : CoreId) (rd : RegF) (imm : BitVec 16)
  /-- LDW (R393). -/
  | ldw (c : CoreId) (rd rs : RegF) (imm : BitVec 16)
  /-- LDH (R389). -/
  | ldh (c : CoreId) (rd rs : RegF) (imm : BitVec 16)
  /-- LDHU (R389). -/
  | ldhu (c : CoreId) (rd rs : RegF) (imm : BitVec 16)
  /-- LDB (R389). -/
  | ldb (c : CoreId) (rd rs : RegF) (imm : BitVec 16)
  /-- LDBU (R389). -/
  | ldbu (c : CoreId) (rd rs : RegF) (imm : BitVec 16)
  /-- LDX (R393). -/
  | ldx (c : CoreId) (rd rs : RegF) (imm : BitVec 16)
  /-- STW (R389). -/
  | stw (c : CoreId) (rd rs : RegF) (imm : BitVec 16)
  /-- STH (R389). -/
  | sth (c : CoreId) (rd rs : RegF) (imm : BitVec 16)
  /-- STB (R389). -/
  | stb (c : CoreId) (rd rs : RegF) (imm : BitVec 16)
  /-- STX (R393). -/
  | stx (c : CoreId) (rd rs rt : RegF)
  /-- BEQ (R389). -/
  | beq (c : CoreId) (ra rb : RegF) (disp : BitVec 16)
  /-- BNE (R389). -/
  | bne (c : CoreId) (ra rb : RegF) (disp : BitVec 16)
  /-- BLT (R389). -/
  | blt (c : CoreId) (ra rb : RegF) (disp : BitVec 16)
  /-- BGE (R389). -/
  | bge (c : CoreId) (ra rb : RegF) (disp : BitVec 16)
  /-- BLTU (R389). -/
  | bltu (c : CoreId) (ra rb : RegF) (disp : BitVec 16)
  /-- BGEU (R389). -/
  | bgeu (c : CoreId) (ra rb : RegF) (disp : BitVec 16)
  /-- JMP (R389). -/
  | jmp (c : CoreId) (disp : BitVec 26)
  /-- CALL (R377). -/
  | call (c : CoreId) (disp : BitVec 26)
  /-- JMPR (R389). -/
  | jmpr (c : CoreId) (rs : RegF)
  /-- CALLR (R377). -/
  | callr (c : CoreId) (rs : RegF)
  /-- RET (R377). -/
  | ret (c : CoreId)
  /-- BPERM (R395). -/
  | bperm (c : CoreId) (rd rs : RegF) (sel : BitVec 16)
  /-- BFI (R394). -/
  | bfi (c : CoreId) (rd rs : RegF) (lsb wm1 : BitVec 5)
  /-- BFXU (R394). -/
  | bfxu (c : CoreId) (rd rs : RegF) (lsb wm1 : BitVec 5)
  /-- BFXS (R394). -/
  | bfxs (c : CoreId) (rd rs : RegF) (lsb wm1 : BitVec 5)
  /-- MFS (R387). -/
  | mfs (c : CoreId) (rd : RegF) (sel : BitVec 12)
  /-- MTS (R387). -/
  | mts (c : CoreId) (rs : RegF) (sel : BitVec 12)
  /-- ERET (R417). -/
  | eret (c : CoreId)
  /-- TRAPCHK (R389). -/
  | trapchk (c : CoreId)
  /-- BRK (R389). -/
  | brk (c : CoreId)
  /-- FENCE_INSTRUCTION (R393). -/
  | fenceInstruction (c : CoreId)
  /-- IFENCE (R392). -/
  | ifence (c : CoreId)
  /-- WFI (R389). -/
  | wfi (c : CoreId)
  /-- SPILLF (R379). -/
  | spillf (c : CoreId)
  /-- FILLF (R379). -/
  | fillf (c : CoreId)
  /-- GATE (R407). -/
  | gate (c : CoreId) (n : Byte)
  /-- HELLO (R529). -/
  | hello (m : Hello)
  /-- HELLO_PROOF (R529). -/
  | helloProof (ecdsa mldsa ciphertext : List Byte)
  /-- JOURNAL (R525). -/
  | journal (recs : List JRecord) (tagOk : Bool)
  /-- ACK (R123). -/
  | ack (n : Nat) (tagOk : Bool)
  /-- HEARTBEAT (R531). -/
  | heartbeat (path : HbPath) (w : DWord) (crcOk : Bool)
  /-- CONTROL (R529). -/
  | control (msg : CtlMsg) (tagOk : Bool)
  /-- SYNC (R540). -/
  | sync (img : SyncImage) (tagOk : Bool)
  /-- REPAIR_MESSAGE (R213). -/
  | repairMessage (index : Nat) (rec : KeyRecord) (tagOk : Bool)
  /-- HANDOVER (R535). -/
  | handover (entries : List Handed) (tagOk : Bool)
  /-- FLIT_NAK (R528). -/
  | flitNak (flit : List Byte)
  /-- PAIR_REPLAY_TIMEOUT (R528). -/
  | pairReplayTimeout
  /-- HEARTBEAT_TICK (R530). -/
  | heartbeatTick
  /-- PATH_SILENT (R532). -/
  | pathSilent (path : HbPath)
  /-- ELECTION (R522). -/
  | election
  /-- PLANNED_CASTLING_DRAINED (R535). -/
  | plannedCastlingDrained
  /-- CASTLE_DRAIN_TIMEOUT (R546). -/
  | castleDrainTimeout
  /-- REVERTIVE_RETURN (R542). -/
  | revertiveReturn
  /-- PAIR_PRSNT_HIGH (R539). -/
  | pairPrsntHigh
  /-- CAP_SENSE_SAMPLE (R554). -/
  | capSenseSample (samples : List Nat)
  /-- LABEL_RESPONSE (R557). -/
  | labelResponse (fe : Fin 6) (bytes : List Byte)
  /-- LABEL_RESPONSE_TIMEOUT (R551). -/
  | labelResponseTimeout (fe : Fin 6)
  /-- REQA (R567). -/
  | reqa
  /-- WUPA (R567). -/
  | wupa
  /-- HLTA (R567). -/
  | hlta
  /-- ANTICOLLISION_SELECT (R567). -/
  | anticollisionSelect (uid : List Byte)
  /-- READ_BLOCK (R558). -/
  | readBlock (block count : Nat) (mac : Option DWord)
  /-- WRITE_BLOCK (R572). -/
  | writeBlock (block count : Nat) (data : List Byte) (mac : Option DWord) (supply : List Nat)
  /-- COUNTER_INC (R574). -/
  | counterInc (counter inc : Nat) (mac : Option DWord) (supply : List Nat)
  /-- QUIET (R568). -/
  | quiet (mac : Option DWord)
  /-- GET_STATUS (R558). -/
  | getStatus (supply : Nat) (mac : Option DWord)
  /-- AUTH_1 (R560). -/
  | auth1 (slot : Nat)
  /-- AUTH_2 (R560). -/
  | auth2 (token : List Byte)
  /-- COUNTER_READ (R574). -/
  | counterRead (counter : Nat) (mac : Option DWord)
  /-- RATE (R558). -/
  | rate (code : Nat) (mac : Option DWord)
  /-- YOMIR_SUBMIT (R578). -/
  | yomirSubmit (frame : List Byte) (mac : Option DWord)
  /-- YOMIR_FETCH (R578). -/
  | yomirFetch (mac : Option DWord)
  /-- YOMIR_OUT (R578). -/
  | yomirOut (offset count : Nat) (mac : Option DWord)
  /-- TAG_FIELD_LOST (R567). -/
  | tagFieldLost
  /-- QUIET_EXPIRY (R568). -/
  | quietExpiry
  /-- TAG_COPY_BACK (R572). -/
  | tagCopyBack (supply : List Nat)
  /-- TAG_AUTH_LOCKOUT_END (R560). -/
  | tagAuthLockoutEnd
  /-- TAGIF_READ_PAGE (R584). -/
  | tagifReadPage (page : Nat)
  /-- TAGIF_WRITE_PLACARD_PAGE (R575). -/
  | tagifWritePlacardPage (page : Nat)
  /-- TAGIF_WRITE_CONFIG (R584). -/
  | tagifWriteConfig
  /-- TAGIF_WRITE_KEY_SLOT (R570). -/
  | tagifWriteKeySlot (slot : Nat)
  /-- TAGIF_OP_DONE (R585). -/
  | tagifOpDone
  /-- TAGIF_TIMEOUT (R576). -/
  | tagifTimeout
  /-- CARD_INSERT (R587). -/
  | cardInsert (slot : Fin 4)
  /-- CARD_DETECT_STABLE (R587). -/
  | cardDetectStable (slot : Fin 4)
  /-- CARD_REMOVAL (R595). -/
  | cardRemoval (slot : Fin 4)
  /-- ATR_RECEIVED (R588). -/
  | atrReceived (slot : Fin 4) (bytes : List Byte)
  /-- ATR_TIMEOUT (R588). -/
  | atrTimeout (slot : Fin 4)
  /-- PPS_RESPONSE (R589). -/
  | ppsResponse (slot : Fin 4) (bytes : List Byte)
  /-- CARD_I_BLOCK (R590). -/
  | cardIBlock (slot : Fin 4) (pcb : Byte) (inf : List Byte) (edcOk : Bool)
  /-- CARD_R_BLOCK (R590). -/
  | cardRBlock (slot : Fin 4) (pcb : Byte) (edcOk : Bool)
  /-- S_RESYNCH (R590). -/
  | sResynch (slot : Fin 4) (response : Bool)
  /-- S_IFS (R590). -/
  | sIfs (slot : Fin 4) (response : Bool) (size : Byte)
  /-- S_ABORT (R590). -/
  | sAbort (slot : Fin 4) (response : Bool)
  /-- S_WTX (R591). -/
  | sWtx (slot : Fin 4) (mult : Byte)
  /-- S_SLEEP (R594). -/
  | sSleep (slot : Fin 4)
  /-- S_WAKE (R594). -/
  | sWake (slot : Fin 4)
  /-- CARD_BWT_TIMEOUT (R591). -/
  | cardBwtTimeout (slot : Fin 4)
  /-- TOKEN_BUSY_END (R592). -/
  | tokenBusyEnd (slot : Fin 4)
  /-- TOKEN_BUSY_TIMEOUT (R592). -/
  | tokenBusyTimeout (slot : Fin 4)
  /-- CARD_OVERCURRENT (R597). -/
  | cardOvercurrent (slot : Fin 4)
  /-- TOKEN_SLEEP_TIMER (R594). -/
  | tokenSleepTimer (slot : Fin 4)
  /-- CARD_IDLE_DEACT (R593). -/
  | cardIdleDeact (slot : Fin 4)
  /-- CARD_ACTIVATE (R587). -/
  | cardActivate (slot : Fin 4) (cls : Nat)
  /-- CARD_DEACTIVATE (R596). -/
  | cardDeactivate (slot : Fin 4)
  /-- CARD_WARM_RESET (R605). -/
  | cardWarmReset (slot : Fin 4)
  /-- CARD_STOP_CLOCK (R593). -/
  | cardStopClock (slot : Fin 4)
  /-- CARD_START_CLOCK (R593). -/
  | cardStartClock (slot : Fin 4)
  /-- HOST_LINK_UP (R164). -/
  | hostLinkUp (port : Fin 2) (speed width : Nat)
  /-- ASPM_L1_EXIT (R165). -/
  | aspmL1Exit (port : Fin 2)
  /-- D3HOT_EXIT (R161). -/
  | d3hotExit (port : Fin 2)
  /-- DOE_DISCOVERY (R167). -/
  | doeDiscovery (port : Fin 2) (index : Nat)
  /-- PASSWORD_OP_DONE (R473). -/
  | passwordOpDone
  /-- PARTNER_LINK_DOWN (R532). -/
  | partnerLinkDown
  /-- PARTNER_LINK_UP (R529). -/
  | partnerLinkUp
  /-- TAG_FIELD_ON (R572). -/
  | tagFieldOn (mv : Nat)
  /-- CARD_CWT_TIMEOUT (R591). -/
  | cardCwtTimeout (slot : Fin 4)
  deriving DecidableEq, Repr

end Sys2Proof
end

