-- ==== Sys2Proof/Decode.lean ====
section
/-! DEFINITION. The command a table word spells. The module takes commands, not words: no row of the opcode table gives bits. -/

namespace Sys2Proof

/-- The command that a word spells by the table's bits: none, as no row has any. -/
def decodeTableWord (_nbits _w : Nat) : Option Instr := none

end Sys2Proof
end

