-- ==== Sys2Proof/Config.lean ====
section
/-! DEFINITION. What one implementation fixes, the standard cryptographic functions as uninterpreted functions, and the free values. None has a body: no proof can see what they are. -/

namespace Sys2Proof.Config

/-- The bank that holds the password row, which the spec does not name (R453, R464). -/
opaque passwordBank : Nat

/-- The free value drawn n-th (the DRBG's output, an unspecified flash word): nothing constrains it. -/
opaque freeValue : Nat → BitVec 256
/-- The free bytes of the n-th unspecified or random byte string. -/
opaque freeBytes : Nat → Nat → BitVec 8

/-- Core clock cycles an instruction takes beyond R400: memory time and stalls. -/
opaque stallCycles : Nat → Nat

/-- The module's 16-byte serial (R606). -/
opaque serial : BitVec 128
/-- Contents of the boot ROM, 128 KiB (01_system_view.md, address map). -/
opaque bootRom : Nat → BitVec 8
/-- SHA3-256 of the policy firmware, which the custodian's signed image carries (R344, measurement 3). -/
opaque policyDigest : BitVec 256
/-- Vilsy manufacturer ID, bits 47:33 of the provisional ID (R172). -/
opaque manufacturerId : BitVec 15
/-- First byte of the tag UID (R567). -/
opaque tagManufacturerByte : BitVec 8
/-- Fused baseline DAC code of a latch cell (R368). -/
opaque lfBaseline : Nat → BitVec 10
/-- The device root key, fused at manufacture (R288). -/
opaque drk : BitVec 256
/-- SHA3-256 of the root certificate's keys and transport field, fused into the die (R343). -/
opaque rootDigest : BitVec 256
/-- What the certificates carry that the maker chose (R342): the root's serial and public keys, and by kind of certificate the validity times and the issuer's signatures. -/
opaque rootSerial : BitVec 128
opaque rootKeys : List (BitVec 8)
opaque certNotBefore : Nat → BitVec 64
opaque certNotAfter : Nat → BitVec 64
opaque certSignature : Nat → List (BitVec 8)
/-- Owner of a DDR5 byte address (R35): 0 control plane, 1 parked contexts (data plane), 2 control-plane regions whose content the model holds as records (key table, counter tree, journal ring, manifest store). -/
opaque ddrOwner : Nat → Nat
/-- DDR5 addresses at which the key table region (256 MiB) and the counter-tree region (40 MiB) begin (01_system_view.md; 06_object_key_table.md, R193). -/
opaque keyTableBase : Nat
opaque treeBase : Nat
/-- DDR5 address at which the 16 GiB journal ring begins (01_system_view.md). -/
opaque journalBase : Nat
/-- Bytes of a tail sector header that its fields do not give, in a sector in which no record starts (R268). -/
opaque tailFill : Nat → Nat → BitVec 8
/-- Flash words of bank 3 in which the module keeps its records, which the model holds as data (R1). -/
opaque flashHeld : Nat → Bool
/-- What reads at an address of SHELFIO, for which the spec gives no register map. -/
opaque shelfIo : Nat → Nat → BitVec 32
/-- SRAM address at which the kernel's start vector lies: the placement of kernel data is the firmware's own. -/
opaque kernelHeap : Nat
/-- Capacity of the manifest store in bytes left after the given bytes are in use, 96 GiB (01_system_view.md). -/
opaque manifestRoom : Nat → Bool

/-- The fused key of the grist conditioner (R355). -/
opaque gristKey : BitVec 256
/-- CTR_DRBG with AES-256 and the derivation function (SP 800-90A): its state, Key ‖ V, after instantiation from entropy input, nonce and personalisation string; after a reseed; after a request of so many bytes. -/
opaque drbgInstantiate : List (BitVec 8) → List (BitVec 8) → List (BitVec 8) → BitVec 384
opaque drbgReseed : BitVec 384 → List (BitVec 8) → BitVec 384
opaque drbgGenerate : BitVec 384 → Nat → BitVec 384

/-- SHA3-256 (FIPS 202). -/
opaque gmac : BitVec 256 → List (BitVec 8) → List (BitVec 8) → List (BitVec 8)
opaque sha3 : List (BitVec 8) → BitVec 256
/-- SHA-384 (FIPS 180-4), 48 bytes. -/
opaque sha384 : List (BitVec 8) → List (BitVec 8)
/-- AES-256-CMAC (SP 800-38B), 16 bytes. -/
opaque cmac : BitVec 256 → List (BitVec 8) → BitVec 128
/-- AES-KW wrap of a byte string (SP 800-38F). -/
opaque kwWrap : BitVec 256 → List (BitVec 8) → List (BitVec 8)
/-- AES-KW unwrap; none on ICV failure. -/
opaque kwUnwrap : BitVec 256 → List (BitVec 8) → Option (List (BitVec 8))
/-- GCM keystream byte at a segment offset for a key and a 96-bit IV (R232). -/
opaque gcmStream : BitVec 256 → BitVec 96 → Nat → BitVec 8
/-- AES-256-CTR keystream byte at an offset for a key and an initial counter block (R275). -/
opaque ctrStream : BitVec 256 → BitVec 128 → Nat → BitVec 8
/-- GHASH accumulator after one 16-byte block under the hash subkey of a key. -/
opaque ghashBlock : BitVec 256 → BitVec 128 → List (BitVec 8) → BitVec 128
/-- The block E(K, J0) that masks the GCM tag of a key and IV. -/
opaque gcmMask : BitVec 256 → BitVec 96 → BitVec 128
/-- The 64-bit OID hash h of R189. -/
opaque oidHash : BitVec 256 → BitVec 128 → BitVec 64
/-- AES-128 of one block under a tag key (R560). -/
opaque aes128 : BitVec 128 → BitVec 128 → BitVec 128
/-- Inverse AES-128 of one block. -/
opaque aes128Inv : BitVec 128 → BitVec 128 → BitVec 128
/-- AES-128-CMAC over a byte string (R560). -/
opaque cmac128 : BitVec 128 → List (BitVec 8) → BitVec 128
/-- Does the pair of signatures (ECDSA P-384, ML-DSA-87) over a message verify under a public-key pair? -/
opaque sigOk : List (BitVec 8) → List (BitVec 8) → List (BitVec 8) → Bool
/-- Public key x ‖ y of a P-384 private key. -/
opaque p384Public : BitVec 384 → List (BitVec 8)
/-- Public key of ML-DSA-87 from its seed (FIPS 204). -/
opaque mldsaPublic : List (BitVec 8) → List (BitVec 8)
/-- Encapsulation key of ML-KEM-1024 from d ‖ z (FIPS 203). -/
opaque mlkemPublic : List (BitVec 8) → List (BitVec 8)
/-- ECDSA P-384 signature with SHA-384 under a private key, with randomness: r ‖ s. -/
opaque ecdsaSign : BitVec 384 → List (BitVec 8) → Nat → List (BitVec 8)
/-- ML-DSA-87 signature under a seed's key, empty context, with hedging randomness. -/
opaque mldsaSign : List (BitVec 8) → List (BitVec 8) → Nat → List (BitVec 8)
/-- ML-KEM-1024: the ciphertext and the shared secret of an encapsulation to a key with randomness, and the shared secret of a decapsulation under d ‖ z (implicit rejection, FIPS 203). -/
opaque kemEncap : List (BitVec 8) → Nat → List (BitVec 8)
opaque kemSecret : List (BitVec 8) → Nat → BitVec 256
opaque kemDecap : List (BitVec 8) → List (BitVec 8) → BitVec 256
/-- Shared x-coordinate of a P-384 private key and a point, 48 bytes. -/
opaque ecdhX : BitVec 384 → List (BitVec 8) → List (BitVec 8)
/-- Public-key job result: alg, op, scheme, hash, bits, exp_bits, ctx_len, randomness index, input. -/
opaque pkeOutput : List Nat → List (BitVec 8) → List (BitVec 8)
/-- What R336 leaves to the standards' own algorithms: does OAEP decode (RSA), is the public key decodable (EdDSA), is the shared secret nonzero (X25519), is the key consistent (ML-DSA)? -/
opaque pkeSound : List Nat → List (BitVec 8) → Bool
/-- The verdict of a verification: 0 valid, 1 the equation fails, 2 a component out of range (R327). -/
opaque pkeVerdict : List Nat → List (BitVec 8) → Nat
/-- Digest that an image bank's content carries (R95, R609). -/
opaque imageDigest : List (BitVec 8) → BitVec 256
/-- Security version of a firmware image (R609). -/
opaque imageVersion : List (BitVec 8) → BitVec 32
/-- Digest, signatures and security version of a firmware image pass R95. -/
opaque imageOk : List (BitVec 8) → Bool
/-- SPDM bytes that the spec leaves to SPDM 1.2 and to the session: nonces, signatures, key exchange data, sizes; by request code and port transcript. -/
opaque spdmResponse : Nat → List (BitVec 8) → List (BitVec 8)
/-- Does the FINISH message authenticate the session (SPDM 1.2)? -/
opaque spdmFinishOk : List (BitVec 8) → List (BitVec 8) → Bool

end Sys2Proof.Config
end

