-- ==== Sys2Proof/Machine/Blocks.lean ====
section
/-! DEFINITION. The state of each block of the module as plain data: cores, collector, tamper monitors, supply and reset, command queue engine. -/

namespace Sys2Proof

/-- Frames of the register file (R374). -/
def CoreId.frames : CoreId → Nat
  | .mgt => 4
  | _ => 12

/-- CORE_ID[3:0] (R374). -/
def CoreId.num : CoreId → Nat
  | .ccA => 0
  | .ccB => 1
  | .mgt => 8

end Sys2Proof

namespace Sys2Proof.Machine

/-! ### Mbovor-32 cores (12_mbovor_core_isa.md, 13_rings_exceptions.md) -/

/-- One logical Mbovor-32 core. -/
structure Core where
  /-- CC-B is held in reset until released (R401). -/
  released  : Bool
  pc        : Word
  /-- Physical register file, 16N entries (R376). -/
  rf        : List Word
  /-- g1 to g7 (R375). -/
  g         : List Word
  status    : Word
  estatus   : Word
  epc       : Word
  ecause    : Word
  eaddr     : Word
  vbase     : Word
  wstate    : Word
  spillp    : Word
  spilllim  : Word
  xsp       : Word
  ctrl      : Word
  gtbase    : Word
  /-- Core clock cycles since reset; CYCLE_HI holds the latched upper half (R382). -/
  cycle     : DWord
  cycleHi   : Word
  /-- The reserved 64-byte granule of memory, by its place (R393). -/
  resv      : Option Nat
  /-- Recorded address of the first deferred arithmetic fault (R397). -/
  afAddr    : Word
  /-- Hidden shadow stack, newest first (R413). -/
  shadow    : List (BitVec 2)
  /-- Halted by a lockstep mismatch (R401). -/
  halted    : Bool
  /-- Stopped by a second escalation (R424). -/
  stopped   : Bool
  /-- Waiting in WFI (R389). -/
  waiting   : Bool
  /-- Doorbell line 22 (R429). -/
  line22    : Bool
  deriving DecidableEq, Repr

/-- A core right after reset (R381, R382). -/
def Core.reset (c : CoreId) : Core where
  released := match c with | .ccB => false | _ => true
  pc := 0
  rf := List.replicate (16 * CoreId.frames c) 0
  g := List.replicate 7 0
  status := 0
  estatus := 0
  epc := 0
  ecause := 0
  eaddr := 0
  vbase := 0x0001FF00
  wstate := 0x00010000
  spillp := 0
  spilllim := 0
  xsp := 0xF0004000
  ctrl := 0
  gtbase := 0
  cycle := 0
  cycleHi := 0
  resv := none
  afAddr := 0
  shadow := []
  halted := false
  stopped := false
  waiting := false
  line22 := false

/-- The three logical cores. -/
structure Cores where
  ccA : Core
  ccB : Core
  mgt : Core
  deriving DecidableEq, Repr

/-! ### Fault collector (17_fault_collector.md) -/

/-- A fault record (R510). -/
structure FRecord where
  seq        : Nat
  source     : Nat
  cls        : FClass
  configured : Level
  applied    : Level
  forced     : Bool
  escalated  : Bool
  combined   : Bool
  masked     : Bool
  acked      : Bool
  rebuilt    : Bool
  withheld   : Bool
  testMark   : Bool
  unit       : FUnit
  syndrome   : Word
  address    : DWord
  time       : DWord
  deriving DecidableEq, Repr

/-- An unacknowledged record applied at FENCE or CHECK (R502); `timer` while its CHECK timer runs. -/
structure Unacked where
  seq     : Nat
  source  : Nat
  cls     : FClass
  applied : Level
  timer   : Bool
  deriving DecidableEq, Repr

/-- Qualifiers of a report: forced through R507, rebuilt from a CELL mark (R482), kiln withheld (R483), tested source. -/
structure FaultIn where
  report   : Report
  forced   : Bool
  rebuilt  : Bool
  withheld : Bool
  testMark : Bool
  deriving DecidableEq, Repr

/-- The fault collector. `inputs` holds the evaluations waiting to be made, each a set of sources raised together (R498, R505). -/
structure FaultBlk where
  log      : List FRecord
  next     : Nat
  ovf      : Nat
  overflow : Bool
  seen     : List Nat
  unacked  : List Unacked
  fenced   : List FUnit
  alarm    : Bool
  inputs   : List (List FaultIn)
  /-- A MATE that waits for a castling to end (R505). -/
  mateAfterCastling : Bool
  deriving DecidableEq, Repr

/-- The collector at power-on (R88, R511). -/
def FaultBlk.reset : FaultBlk where
  log := []
  next := 0
  ovf := 0
  overflow := false
  seen := []
  unacked := []
  fenced := []
  alarm := false
  inputs := []
  mateAfterCastling := false

/-! ### Tamper monitors and the backup domain's flags (16_tamper_monitors.md) -/

/-- The tamper block. Bit k stands for source 128 + k. -/
structure Tamper where
  raw      : BitVec 17
  sticky   : BitVec 17
  testMark : BitVec 17
  cellMark : BitVec 17
  armed    : BitVec 17
  cellTime : DWord
  bkpLost  : Bool
  /-- The source − 128 under test (R484), and the TAMPER_TEST command served by the test. -/
  bist     : Option Nat
  bistDone : Bool
  bistRes  : Nat
  bistTime : Nat
  meshNet  : Nat
  meshPct  : Nat
  ddSplits : Nat
  ddLast   : Nat
  deriving DecidableEq, Repr

/-- The tamper block with no flag set and nothing armed. -/
def Tamper.reset : Tamper where
  raw := 0
  sticky := 0
  testMark := 0
  cellMark := 0
  armed := 0
  cellTime := 0
  bkpLost := false
  bist := none
  bistDone := false
  bistRes := 0
  bistTime := 0
  meshNet := 0
  meshPct := 0
  ddSplits := 0
  ddLast := 0

/-! ### Supply, power states and reset (02_module_contacts_supply.md, 03_power_clocks_reset.md) -/

/-- Where the supply stands: dark (CELL, or no supply at all), starting after VIN rose, running, or held after a power-fail declaration (R46, R55, R68). -/
inductive Supply | dark | starting | running | failHold
  deriving DecidableEq, Repr

/-- A cellarman wake-record entry (R77); `posted`: the management core has posted it to the event ring in STEEP (R80). -/
structure WakeRec where
  source : WakeSource
  obj    : Nat
  time   : DWord
  count  : Nat
  posted : Bool
  deriving DecidableEq, Repr

/-- Supply, power controller, cellarman, straps and pins. -/
structure Power where
  supply      : Supply
  mode        : PowerMode
  prev        : PowerMode
  vin         : Nat
  vcell       : Nat
  /-- Bus class HIGH, fixed 100 ms after power-up (R53). -/
  classHigh   : Bool
  classFixed  : Bool
  holdupUf    : Nat
  holdupOk    : Bool
  leverOpen   : Bool
  /-- LEVER_N rose at a moment at which R48 lets the module act later: during a castling, in LAGER, while a castling was barred. -/
  leverDue    : Bool
  /-- Solo withdrawal: new commands are refused (R48). -/
  withdrawing : Bool
  drainDone   : Bool
  /-- The start-up sequence has run to the kernel (R92). -/
  booted      : Bool
  /-- The boot selector's image, by bank 0 or 1, that runs. -/
  runningBank : Nat
  safe        : Bool
  /-- A warm reset to be booted must enter SAFE (R96). -/
  safeNext    : Bool
  rstCause    : Word
  /-- A POWER_STATE entry in progress: the target and the serving command (R71). -/
  entering    : Option (PowerMode × Nat)
  wakeLog     : List WakeRec
  wakeCause   : Word
  /-- Lock of the core, lane, DDR, host 0, host 1, partner, management PLLs and REF100. -/
  pllLock     : Byte
  /-- Those of them that lost lock since they last started: their clock is stopped (R83). -/
  pllLost     : Byte
  /-- The wake timer has fired for the time that SYSCTL_WAKE_TIME holds (R78). -/
  timerFired  : Bool
  /-- Levels at the strap contacts: PREF at GND, BAY_ID (R63). -/
  pinPref     : Bool
  pinBay      : BitVec 6
  /-- The PREF strap as read at power-on; BAY_ID as read at power-on and at the last wake (R63). -/
  pref        : Bool
  bayId       : BitVec 6
  shelfIn     : BitVec 16
  shelfCtl    : Word
  shelfDriven : Bool
  testPins    : BitVec 10
  deriving DecidableEq, Repr

/-- Custody time and the backup domain (R82). -/
structure Clock where
  time      : DWord
  valid     : Bool
  /-- LFCLK periods since first supply: quorum sessions and timers run on it. -/
  lfclk     : Nat
  /-- LFCLK periods since the last queue checkpoint, since the last CHECKPOINT, and since a CHECKPOINT was last tried. -/
  ckptAge   : Nat
  signAge   : Nat
  tryAge    : Nat
  deriving DecidableEq, Repr

/-! ### Command queue engine (04_yomir_command_protocol.md) -/

/-- A host queue pair (R104 to R111). -/
structure Queue where
  qid        : Nat
  sqBase     : DWord
  cqBase     : DWord
  sqEntries  : Nat
  cqEntries  : Nat
  vector     : Nat
  priority   : Nat
  events     : Bool
  intr       : Bool
  firstSeq   : Word
  expSeq     : Word
  sqHead     : Nat
  sqTail     : Nat
  /-- Next CQ slot to be written, and the host's head doorbell. -/
  cqTail     : Nat
  cqHead     : Nat
  /-- Entries posted and not yet released (R110). -/
  unreleased : Nat
  phase      : Bool
  deleting   : Bool
  /-- Number of the first journal record after its creation: entries of an earlier queue of the same qid lie below it. -/
  since      : Nat
  /-- Created while the module was KEYLESS: the reports of a kiln do not go on it (R141). -/
  keyless    : Bool
  deriving DecidableEq, Repr

/-- What an accepted command waits for. -/
inductive Wait
  | start
  | running
  | queueDrain (qid : Nat)
  | lane (lane : Nat)
  | entropy (id : Nat)
  | pke (job : Nat)
  | flash
  | card (slot : Nat)
  | label (fe : Nat)
  | castle
  | power
  | tamperTest (source : Nat)
  | reserve (record : Nat)
  /-- A place among the four reserved blocks of a key that may be missing from the flash tail (R206). -/
  | room (kh : Word)
  | slot (lane : Nat)
  /-- Its management-plane request stands in the request ring, or waits in the kernel for a place there (R27). -/
  | request
  /-- What it waited for has come: its work goes on. -/
  | ready
  /-- A signing job of it ended with a fault (R334). -/
  | signFault
  deriving DecidableEq, Repr

/-- An accepted, uncompleted command, under a key of its own. -/
structure Inflight where
  key     : Nat
  /-- Number of its acceptance record; none before the GENESIS record exists (R254). -/
  accRec  : Option Nat
  src     : Source
  op      : BitVec 16
  entry   : Entry
  sqhead  : BitVec 16
  wait    : Wait
  /-- Past its point of no return (R135). -/
  past    : Bool
  /-- Key of the entry that must be posted first (R114, order after previous). -/
  after   : Option Nat
  /-- LFCLK count at its acceptance: a CARD_APDU's own timeout runs from there (R27, R599). -/
  began   : Nat
  /-- Signing jobs of it that ended SIGN_FAULT (R260). -/
  faults  : Nat
  deriving DecidableEq, Repr

/-- Kinds of a held completion. -/
inductive HeldKind | final | interim | unsolicited | event (port : Nat)
  deriving DecidableEq, Repr

/-- A completion waiting to be posted (R110, R114, R123, R132). -/
structure Held where
  comp    : Completion
  src     : Source
  kind    : HeldKind
  seq     : Word
  /-- Acceptance and completion records it waits on. -/
  accRec  : Option Nat
  compRec : Option Nat
  durable : Bool
  /-- A standby's or syncing module's completion waits until its record comes back mirrored (R521). -/
  remote  : Bool
  /-- The command it completes. -/
  key     : Nat
  /-- Reported of a kiln: it waits until the module has left KEYLESS (R141). -/
  kiln    : Bool
  /-- The stream whose idle time begins as this is posted, 0 for none (R222). -/
  idles   : Nat
  deriving DecidableEq, Repr

/-- An event held for a port without an events queue (R133). -/
structure HeldEvent where
  code  : Nat
  data  : BitVec 56
  count : Nat
  deriving DecidableEq, Repr

/-- The command queue engine. -/
structure Cqe where
  queues    : List Queue
  /-- Expected sequence numbers of the management port, tag interface and rings 0 to 3 (R145, R147). -/
  mgmtSeq   : Word
  tagSeq    : Word
  ringSeq   : List Word
  inflight  : List Inflight
  nextKey   : Nat
  held      : List Held
  events0   : List HeldEvent
  events1   : List HeldEvent
  crcFails  : Nat
  seqFails  : Nat
  mirrorMax : Nat
  fetching  : Bool
  /-- Acceptance records whose 100 µs acknowledgement bound has passed (R124). -/
  lateAcks  : List Nat
  /-- Completions returned to callers on the internal transport, each also written into the caller's buffer (R147). -/
  internalOut : List Completion
  /-- Key of the last entry of each source (R114). -/
  lastKeys  : List (Source × Nat)
  /-- Slots of submission queues whose fetch returns a poisoned or unsupported-request completion (R120 step 1): queue and slot. -/
  poison    : List (Nat × Nat)
  deriving DecidableEq, Repr

/-- The CQE with no queue. -/
def Cqe.reset : Cqe where
  queues := []
  mgmtSeq := 0
  tagSeq := 0
  ringSeq := [0, 0, 0, 0]
  inflight := []
  nextKey := 0
  held := []
  events0 := []
  events1 := []
  crcFails := 0
  seqFails := 0
  mirrorMax := 0
  fetching := false
  lateAcks := []
  internalOut := []
  lastKeys := []
  poison := []

/-! ### Custody journal, manifests, images (08_manifests_and_custody_journal.md) -/

/-- A committed manifest (R263). -/
structure Manifest where
  oid         : Oid
  version     : Nat
  retainUntil : DWord
  owner       : DWord
  first       : DWord
  last        : DWord
  /-- Number of the COMPLETE record of the last commit. -/
  record      : Nat
  segs        : List Segment
  deriving DecidableEq, Repr

/-- A vault image this pair has exported, as the EXPORT record names it (R256, R277). -/
structure Image where
  number : Nat
  kind   : Nat
  base   : Nat
  first  : Nat
  last   : Nat
  digest : Hash
  acked  : Bool
  deriving DecidableEq, Repr

/-- An export whose image waits for its signatures: the command, the image, its header and payload (R277, R278). -/
structure Exporting where
  key   : Nat
  image : Image
  bytes : List Byte
  deriving DecidableEq, Repr

/-- A POWER-FAIL checkpoint area: the queue slots and the power-on count they carry (R272, R273). -/
structure PfArea where
  count : Nat
  slots : List QSlot
  deriving DecidableEq, Repr

/-- The custody journal with its DDR5 ring, flash tail, manifests and staging area. Counts are "records below this number". -/
structure Journal where
  /-- The records held in the DDR5 ring, newest first. -/
  recs       : List JRecord
  /-- Chain value before the oldest record held (R255). -/
  baseChain  : Hash
  chain      : Hash
  next       : Nat
  acked      : Nat
  flushed    : Nat
  secured    : Nat
  /-- Records made COMMITTED, never falling (R126). -/
  committed  : Nat
  /-- Record bytes flushed to the tail since it was empty. -/
  tailBytes  : Nat
  breaks     : Nat
  broke      : Bool
  pfUsed     : Bool
  pf         : Option PfArea
  recovery   : Bool
  /-- L of the last image applied, and its number (R280). -/
  lastL      : Nat
  lastImage  : Nat
  /-- The last loss of power found the module in pair mode: reservations may be missing from its flash (R207). -/
  lossPaired : Bool
  /-- Recovered tail after a power loss, oldest first, with the chain value before it (R274). -/
  tail       : List JRecord
  tailChain  : Hash
  manifests  : List Manifest
  staged     : List (Oid × Segment)
  /-- Staging entries reserved by open seal streams (R264). -/
  reserved   : Nat
  images     : List Image
  exporting  : Option Exporting
  lastCkpt   : Option Nat
  /-- Number of the record before which CHECKPOINT and queue checkpoint were last written. -/
  sinceCkpt  : Nat
  /-- Slots and kind of the last queue checkpoint, and the slots of the last periodic one (R138, R141, R271). -/
  qckptSlots : List QSlot
  qckptKind  : Nat
  periodSlots : List QSlot
  event75    : Bool
  eventFull  : Bool
  eventRing  : Bool
  /-- Records whose copy in the DDR5 ring reads uncorrectable, and tail sectors by sequence number that a flash command has erased (R274, R283). -/
  spoilt     : List Nat
  tailErased : List Nat
  /-- The scan of the tail ends before a record that a sector header names (R274). -/
  scanBroke  : Bool
  deriving DecidableEq, Repr

/-- An empty journal, as before commissioning. -/
def Journal.reset : Journal where
  recs := []
  baseChain := 0
  chain := 0
  next := 0
  acked := 0
  flushed := 0
  secured := 0
  committed := 0
  tailBytes := 0
  breaks := 0
  broke := false
  pfUsed := false
  pf := none
  recovery := false
  lastL := 0
  lastImage := 0
  lossPaired := false
  tail := []
  tailChain := 0
  manifests := []
  staged := []
  reserved := 0
  images := []
  exporting := none
  lastCkpt := none
  sinceCkpt := 0
  qckptSlots := []
  qckptKind := 0
  periodSlots := []
  event75 := false
  eventFull := false
  eventRing := false
  spoilt := []
  tailErased := []
  scanBroke := false

/-! ### Key table and key cache (06_object_key_table.md) -/

/-- A key cache entry (R195). Every other field of the entry equals the record's (R198). -/
structure CacheEntry where
  index  : Nat
  gen    : Nat
  next   : Nat
  pinned : Bool
  stamp  : Nat
  /-- Named by a mailbox LOAD that has not completed: held against replacement (R196). -/
  held   : Bool
  deriving DecidableEq, Repr

/-- KTAB operations (R216). -/
inductive KtabOp | fill | invalidate | pin | unpin | find | draw
  deriving DecidableEq, Repr

/-- The key table unit. Records not listed are EMPTY at generation 0. -/
structure Ktab where
  present    : Bool
  hold       : Bool
  /-- A rejoined module's keys freeze (R538). -/
  records    : List (Nat × KeyRecord)
  /-- OID index buckets: bucket number, then the occupied slots as (slot, fingerprint, record index) (R189). -/
  buckets    : List (Nat × List (Nat × Nat × Nat))
  stash      : List (Oid × Nat)
  cache      : List CacheEntry
  lru        : Nat
  quarantine : List Nat
  /-- Values drawn and not yet bound to a seal context (R235). -/
  unbound    : List (Word × Nat)
  /-- Counter-tree root versions: record subtree and index subtree (R192). -/
  root       : Nat × Nat
  /-- Versions of the tree nodes below the root's children and of the index buckets, by code; an unlisted one is 0 (R192, R193). A record's version stands in the record. -/
  nodes      : List (Nat × Nat)
  /-- Codes of the verified nodes held on the die, newest first, at most 2,048 (R194). -/
  nodeCache  : List Nat
  /-- Codes of records, buckets and nodes whose DDR5 lines a scrub found uncorrectable and nothing has rewritten (R212, R434). -/
  spoilt     : List Nat
  busy       : Bool
  done       : Bool
  hit        : Bool
  result     : Nat
  respKh     : Word
  draw       : Nat
  overrun    : Bool
  hits       : Nat
  misses     : Nat
  fillMax    : Nat
  /-- RESERVE records not yet durable: record number, key handle, new high-water mark (R204). -/
  reserves   : List (Nat × Word × Nat)
  /-- Blocks never to be used, by record index: the high-water mark of a reservation that no partner had acknowledged when a freeze began (R538). -/
  lostBlocks : List (Nat × Nat)
  deriving DecidableEq, Repr

/-- KTAB with no table. -/
def Ktab.reset : Ktab where
  present := false
  hold := false
  records := []
  buckets := []
  stash := []
  cache := []
  lru := 0
  quarantine := []
  unbound := []
  root := (0, 0)
  nodes := []
  nodeCache := []
  spoilt := []
  busy := false
  done := false
  hit := false
  result := 0
  respKh := 0
  draw := 0
  overrun := false
  hits := 0
  misses := 0
  fillMax := 0
  reserves := []
  lostBlocks := []

/-! ### Sealing lanes and streams (07_sealing_lanes.md) -/

/-- Stream states (R222). -/
inductive StreamState | run | idle | park1 | park2
  deriving DecidableEq, Repr

/-- An open stream with its context (R220 to R244). -/
structure Stream where
  handle   : Nat
  isSeal   : Bool
  lane     : Nat
  /-- Context entry; none while parked in DDR5. -/
  entry    : Option Nat
  kh       : Word
  queue    : Nat
  openTag  : BitVec 16
  openSeq  : Word
  oid      : Oid
  segIdx   : Word
  segLen   : Nat
  done     : Nat
  chunks   : List Hash
  /-- Ciphertext of the chunk in progress (the Keccak state's content). -/
  tail     : List Byte
  /-- GHASH accumulator over whole blocks, and the partial block (R232, R240). -/
  ghash    : QWord
  part     : List Byte
  iv       : DWord
  fixed    : Word
  lifetime : Nat
  /-- Custody time at which the idle time began (R222). -/
  idleFrom : DWord
  state    : StreamState
  /-- Its context comes back from DDR5 for the command in the FIFO (R242). -/
  restoring : Bool
  deriving DecidableEq, Repr

/-- A lane key slot's content. -/
structure SlotKey where
  kh     : Word
  dek    : Hash
  handle : Nat
  deriving DecidableEq, Repr

/-- One sealing lane. -/
structure Lane where
  /-- Keys of the lane's commands, oldest first: the one in progress, then the 32 of the FIFO, then those the CQE holds (R218, R243). -/
  queue    : List Nat
  slot0    : Option SlotKey
  slot1    : Option SlotKey
  parkKey  : Option Hash
  parkCnt  : Nat
  mbBusy   : Bool
  /-- The mailbox: a message being carried out, done, result (R252). -/
  mbRun    : Bool
  mbDone   : Bool
  mbResult : Nat
  /-- The key cache index that the LOAD in progress names (R196). -/
  mbIndex  : Option Nat
  bytes    : Nat
  authFail : Nat
  deriving DecidableEq, Repr

/-- An idle, empty lane. -/
def Lane.reset : Lane where
  queue := []
  slot0 := none
  slot1 := none
  parkKey := none
  parkCnt := 0
  mbBusy := false
  mbRun := false
  mbDone := false
  mbResult := 0
  mbIndex := none
  bytes := 0
  authFail := 0

/-- A member of the ended-handle record (R246). -/
structure Ended where
  handle : Nat
  status : BitVec 16
  seq    : Word
  lane   : Nat
  deriving DecidableEq, Repr

/-- What the CQE passes to the kernel at a close: the stream's handle, chunk hashes, tag, invocation value (R29). -/
structure Closing where
  handle : Nat
  chunks : List Hash
  tag    : QWord
  iv     : DWord
  deriving DecidableEq, Repr

/-- The lanes with the stream table and the ended-handle record, newest first. -/
structure Lanes where
  lanes      : List Lane
  streams    : List Stream
  ended      : List Ended
  lastHandle : Nat
  /-- The reserved key cache entry of the park key (R241). -/
  parkKey    : Option Hash
  parkCounts : List Nat
  /-- The last close passed to the kernel (R29). -/
  closing    : Option Closing
  deriving DecidableEq, Repr

/-- Four idle lanes. -/
def Lanes.reset : Lanes where
  lanes := List.replicate 4 Lane.reset
  streams := []
  ended := []
  lastHandle := 0
  parkKey := none
  parkCounts := [0, 0, 0, 0]
  closing := none

/-! ### Vault, kiln, lifecycle, quorum (09_vault_kiln_lifecycle.md) -/

/-- A custodian record (R297). -/
structure Custodian where
  id     : Nat
  kind   : Nat
  serial : QWord
  keys   : List Byte
  deriving DecidableEq, Repr

/-- A quorum session (R300 to R306). -/
structure Session where
  grant     : BitVec 16
  cls       : Nat
  target    : DWord
  m         : Nat
  n         : Nat
  statement : List Byte
  /-- LFCLK count at begin and the lifetime in LFCLK periods (R301). -/
  begin     : Nat
  lifetime  : Nat
  /-- Seed of the ephemeral ML-KEM-1024 key of class 5, empty otherwise (R300). -/
  eph       : List Byte
  approved  : List Nat
  shares    : List (Nat × Hash)
  granted   : Bool
  /-- The command that reserved the grant (R305). -/
  reserved  : Option Nat
  used      : Bool
  deriving DecidableEq, Repr

/-- Vault engine operation in progress, with the output it will write. -/
structure EngRun where
  result : Nat
  /-- Output bytes to control SRAM at an address, or a key to a slot. -/
  toMem  : Option (Nat × List Byte)
  toSlot : Option (Nat × Option Hash)
  deriving DecidableEq, Repr

/-- The four key pairs of R341 by their private halves: P-384 scalars, the ML-DSA seed, the ML-KEM seed d ‖ z. -/
structure KeyPairs where
  attestEc     : BitVec 384
  attestDsa    : List Byte
  transportKem : List Byte
  transportEc  : BitVec 384
  deriving DecidableEq, Repr

/-- The vault: KEK store, slots, engine and quorum sessions. -/
structure Vault where
  /-- Private halves of the module's key pairs, derived at each boot (R341). -/
  pairs    : Option KeyPairs
  kek      : Option Hash
  slots    : List (Option Hash)
  run      : Option EngRun
  engDone  : Bool
  engRes   : Nat
  sessions : List Session
  lastGrant : Nat
  /-- KEYLESS as found at boot or entered by a kiln (R290, R294). -/
  keyless  : Bool
  deriving DecidableEq, Repr

/-- An empty vault. -/
def Vault.reset : Vault where
  pairs := none
  kek := none
  slots := List.replicate 32 none
  run := none
  engDone := false
  engRes := 0
  sessions := []
  lastGrant := 0
  keyless := false

/-- Stages of a kiln in progress (R311): tier 1 done, tier 2 done, kiln-induced reset taken with tier 3 running. -/
inductive KilnStage | idle | tier1 | tier2 | reset
  deriving DecidableEq, Repr

/-- The kiln, in the backup domain. -/
structure Kiln where
  latch     : Bool
  stage     : KilnStage
  /-- Tiers 3, 2, 1 completed, of the last kiln. -/
  tiers     : BitVec 3
  count     : Nat
  trigger   : Nat
  time      : DWord
  reservoir : Nat
  /-- Tier 2 or 3 still to be done (R87). -/
  incomplete : Bool
  deriving DecidableEq, Repr

/-- No kiln has run; the reservoir is full. -/
def Kiln.reset : Kiln where
  latch := false
  stage := .idle
  tiers := 0
  count := 0
  trigger := 0
  time := 0
  reservoir := 3300
  incomplete := false

/-- What flash bank 3 holds (R1, R181, R288, R290, R294, R297, R513, R523, R547): no byte layout is given for it. -/
structure Nvm where
  /-- The lifecycle record: the newer copy's state and sequence number, the other copy's state, and the fuse that RETIRED blows (R294). -/
  lifecycle  : Lifecycle
  lifeSeq    : Nat
  lifeOld    : Lifecycle
  retireFuse : Bool
  pairTag    : Option (BitVec 21)
  kekCheck   : DWord
  crCheck    : DWord
  wrappedCr  : List Byte
  m          : Nat
  n          : Nat
  custodians : List Custodian
  capsules   : List (Nat × List Byte)
  /-- The enrolled partner's identity: its serial. -/
  partner    : Option QWord
  partnerRec : List Byte
  active0    : Option LastActive
  active1    : Option LastActive
  preferred  : Option PrefRecord
  powerOns   : Nat
  /-- The boot selector: bank 0 or 1 (R95). -/
  selector   : Nat
  meshRefs   : List (BitVec 16)
  /-- Firmware's lists of retired pages (slot and page) and of repaired rows (array and row), in order (R443). -/
  remaps     : List (Nat × Nat)
  repairs    : List (Nat × Nat)
  deriving DecidableEq, Repr

/-- Flash bank 3 of an AE module at shipment (R1, R2). -/
def Nvm.shipment : Nvm where
  lifecycle := .blank
  lifeSeq := 0
  lifeOld := .blank
  retireFuse := false
  pairTag := none
  kekCheck := 0
  crCheck := 0
  wrappedCr := []
  m := 0
  n := 0
  custodians := []
  capsules := []
  partner := none
  partnerRec := []
  active0 := none
  active1 := none
  preferred := none
  powerOns := 1
  selector := 0
  meshRefs := [0, 0, 0, 0]
  remaps := []
  repairs := []

/-- Flash bank 3 of an AP module at shipment: as an AE module's, with the module it was paired with at the factory enrolled as its partner under that module's serial and public keys (R1). -/
def Nvm.shipmentAP (kit : QWord) (keys : List Byte) : Nvm :=
  { Nvm.shipment with partner := some kit, partnerRec := leBytes 16 kit.toNat ++ keys }

/-! ### Public-key engine (10_public_key_engine.md) -/

/-- Parameters of a public-key job (R323, R346). -/
structure PkeParams where
  alg     : Nat
  op      : Nat
  scheme  : Nat
  hash    : Nat
  keysrc  : Nat
  prio    : Nat
  bits    : Nat
  expBits : Nat
  ctxLen  : Nat
  deriving DecidableEq, Repr

/-- A job in the ring or on a unit. `desc` is the control SRAM address of a descriptor written by software; a job of an accepted command carries that command's key. -/
structure PkeJob where
  id     : Nat
  slot   : Nat
  p      : PkeParams
  input  : List Byte
  outLen : Nat
  outAddr : Nat
  desc   : Option Nat
  key    : Option Nat
  /-- Randomness released to the job: the free value's number (R332). -/
  rnd    : Option Nat
  /-- The job has asked the entropy source. -/
  asked  : Bool
  /-- Run once more on the other unit (R339). -/
  rerun  : Bool
  deriving DecidableEq, Repr

/-- The kernel's own signing of a periodic checkpoint (R259, R260): none; the first or the second pair of jobs in the engine; both signatures ready; both pairs ended SIGN_FAULT. -/
inductive OwnSign | idle | first | second | ready | failed
  deriving DecidableEq, Repr

/-- The public-key engine. -/
structure Pke where
  jobs      : List PkeJob
  unit0     : Option PkeJob
  unit1     : Option PkeJob
  /-- Jobs the kernel holds back: the ring is full (R330), an RSA key generation runs (R331). -/
  held      : List PkeJob
  tail      : Nat
  doneHead  : Nat
  nextId    : Nat
  lastTime  : Word
  jobCnt    : Nat
  checkFail : Nat
  wiped     : Bool
  ownSign   : OwnSign
  deriving DecidableEq, Repr

/-- The engine with both units idle and wiped. -/
def Pke.reset : Pke where
  jobs := []
  unit0 := none
  unit1 := none
  held := []
  tail := 0
  doneHead := 0
  nextId := 1
  lastTime := 0
  jobCnt := 0
  checkFail := 0
  wiped := true
  ownSign := .idle

/-! ### Entropy source (11_entropy_source.md) -/

/-- Who waits for a request: the kernel through RNG_REQ, an accepted command, a public-key job. -/
inductive RngUser
  | ticket (t : Nat) (addr : Nat)
  | command (key : Nat)
  | job (id : Nat)
  deriving DecidableEq, Repr

/-- A request for random bytes (R359, R360). -/
structure RngReq where
  id      : Nat
  user    : RngUser
  mode    : Nat
  len     : Nat
  timeout : Nat
  deriving DecidableEq, Repr

/-- RNG_STATUS.state (R370). -/
inductive RngState | starting | seeded | blocked
  deriving DecidableEq, Repr

/-- The entropy source and DRBG. -/
structure Rng where
  state      : RngState
  /-- Source 119: blocked until domain 32 next powers up (R369). -/
  faulted    : Bool
  /-- The hardware queue of 32, then the requests the kernel holds (R359). -/
  queue      : List RngReq
  waiting    : List RngReq
  /-- Finished requests: result and ticket, oldest first (R373). -/
  finished   : List (Nat × Nat)
  nextId     : Nat
  overrun    : Bool
  oscFault   : Bool
  armed      : Bool
  startFails : Nat
  alive      : Nat
  notLocked  : Nat
  rctFails   : Nat
  aptFails   : Nat
  reseeds    : Nat
  /-- LFCLK count and requests served since the last reseed (R357). -/
  lastReseed : Nat
  served     : Nat
  /-- Backup domain: cells that reached the threshold, largest step and its cell (R366). -/
  lfCause    : BitVec 16
  /-- Conditioned blocks not yet used, at most four (R355), and the DRBG's Key ‖ V (R356). -/
  pool       : List QWord
  drbg       : BitVec 384
  /-- DAC codes of the 16 cells at the latest sample; lowest and highest code and largest step since the records were restarted; samples since domain 32 powered up, and the custody time of the latest (R365, R368). -/
  lfCodes    : List Nat
  lfLow      : List Nat
  lfHigh     : List Nat
  lfBig      : List Nat
  lfCount    : Nat
  lfTime     : DWord
  lfCell     : Nat
  lfStep     : Nat
  deriving DecidableEq, Repr

/-- The source at power-up of domain 32. -/
def Rng.reset : Rng where
  state := .starting
  faulted := false
  queue := []
  waiting := []
  finished := []
  nextId := 0
  overrun := false
  oscFault := false
  armed := false
  startFails := 0
  alive := 0
  notLocked := 0
  rctFails := 0
  aptFails := 0
  reseeds := 0
  lastReseed := 0
  served := 0
  lfCause := 0
  pool := []
  drbg := 0
  lfCodes := List.replicate 16 512
  lfLow := List.replicate 16 512
  lfHigh := List.replicate 16 512
  lfBig := List.replicate 16 0
  lfCount := 0
  lfTime := 0
  lfCell := 0
  lfStep := 0

/-! ### DDR5 controllers, checker and sparge (14_memory_ecc_scrubbing.md) -/

/-- An error log entry (R438, DRAMC_LOG_INFO). -/
structure EccEntry where
  addr     : Nat
  sram     : Bool
  /-- Die 0 to 19, or SRAM array 0 to 22. -/
  unit     : Nat
  syndrome : Nat
  unc      : Bool
  hard     : Bool
  found    : Nat
  time     : Word
  deriving DecidableEq, Repr

/-- The memory controller. Scrub positions count code words; SRAM words run through arrays 0 to 22 in order. -/
structure Dramc where
  log        : List EccEntry
  overflowed : Bool
  ceDdr      : Nat
  ceSram     : Nat
  ueDdr      : Nat
  ueSram     : Nat
  /-- Correctable DDR5 errors of the last second: die and LFCLK count (R439). -/
  ceTimes    : List (Nat × Nat)
  /-- Remap entries in force: slot and source page. -/
  rmap       : List (Nat × Nat)
  /-- Slots ever taken (R441). -/
  used       : List Nat
  rmapRun    : Option (Nat × Nat × Nat)
  rmapDone   : Bool
  rmapRes    : Nat
  rmapBad    : Nat
  /-- Spare rows in force: array and row. -/
  spares     : List (Nat × Nat)
  spareRun   : Option (Nat × Nat)
  spareDone  : Bool
  spareRes   : Nat
  spareArray : Nat
  dpos       : Nat
  spos       : Nat
  /-- LFCLK counts at the start of the laps in progress, and whether each has overrun. -/
  dstart     : Nat
  sstart     : Nat
  dover      : Bool
  sover      : Bool
  dlapTime   : Word
  slapTime   : Word
  dlaps      : Nat
  slaps      : Nat
  /-- DDR5 lines, and SRAM words by array and byte offset, that read uncorrectable until they are written whole (R433, R434). -/
  badLines   : List Nat
  badWords   : List (Nat × Nat)
  deriving DecidableEq, Repr

/-- The controller at power-on. -/
def Dramc.reset : Dramc where
  log := []
  overflowed := false
  ceDdr := 0
  ceSram := 0
  ueDdr := 0
  ueSram := 0
  ceTimes := []
  rmap := []
  used := []
  rmapRun := none
  rmapDone := false
  rmapRes := 0
  rmapBad := 0
  spares := []
  spareRun := none
  spareDone := false
  spareRes := 0
  spareArray := 0
  dpos := 0
  spos := 0
  dstart := 0
  sstart := 0
  dover := false
  sover := false
  dlapTime := 0xFFFFFFFF
  slapTime := 0xFFFFFFFF
  dlaps := 0
  slaps := 0
  badLines := []
  badWords := []

/-! ### Embedded flash (15_embedded_flash.md) -/

/-- A flash operation that runs. -/
inductive FlashRun
  | program (word : Nat) (data : DWord)
  | erase (sector : Nat)
  | protect (group : Nat) (on : Bool)
  | query (sector : Nat)
  deriving DecidableEq, Repr

/-- One flash bank with its controller state. -/
structure FlashBank where
  run       : Option FlashRun
  suspended : Option Nat
  pendingSuspend : Bool
  done      : Bool
  overrun   : Bool
  op        : Nat
  result    : Nat
  sector    : Nat
  ecnt      : Nat
  /-- Sectors whose info word holds START without DONE, and the bits the scan has set (R460). -/
  started   : List Nat
  torn      : List Nat
  prot      : BitVec 16
  /-- Erase counts by sector; 0 where unlisted. -/
  counts    : List (Nat × Nat)
  /-- Words programmed with all ones: they read as erased, and are not (R454). -/
  ones      : List Nat
  /-- Words that hold an unspecified value (R455, R462). -/
  unspec    : List Nat
  deriving DecidableEq, Repr

/-- A bank at rest with a protection row. -/
def FlashBank.reset (prot : BitVec 16) : FlashBank where
  run := none
  suspended := none
  pendingSuspend := false
  done := false
  overrun := false
  op := 0
  result := 0
  sector := 0
  ecnt := 0
  started := []
  torn := []
  prot := prot
  counts := []
  ones := []
  unspec := []

/-- The embedded flash. -/
structure Flash where
  banks    : List FlashBank
  password : QWord
  unlocked : Bool
  tries    : Nat
  lockout  : Bool
  scanDone : Bool
  /-- SET_PASSWORD in progress with its value. -/
  pwRun    : Option QWord
  pwDone   : Bool
  pwResult : Nat
  pumpOk   : Bool
  deriving DecidableEq, Repr

/-- The flash at shipment: banks 0 and 1 protected, password zero (R449, R464). -/
def Flash.shipment : Flash where
  banks := [FlashBank.reset 0xFFFF, FlashBank.reset 0xFFFF, FlashBank.reset 0, FlashBank.reset 0]
  password := 0
  unlocked := false
  tries := 0
  lockout := false
  scanDone := false
  pwRun := none
  pwDone := false
  pwResult := 0
  pumpOk := false

/-! ### Reader, tag (19_contactless_reader_and_tag.md) -/

/-- A capacitive port: baseline in 2,400ths of 10 fF (a sample moves it by one 2,400th of its distance, R555), last sample in units of 10 fF, and how the last samples lay (R554 to R556). A port never sampled has baseline 0 and takes its first sample as its baseline. DESIGN CHOICE -/
structure CapPort where
  base : Nat
  last : Nat
  occ  : Bool
  /-- Consecutive samples above the threshold, below half of it, outside the range. -/
  high : Nat
  low  : Nat
  out  : Nat
  dead : Bool
  deriving DecidableEq, Repr

/-- Phases of a label exchange (R562 to R564). -/
inductive LabelPhase | select | auth1 | auth2 | status | read | write | judge | readback
  deriving DecidableEq, Repr

/-- Kinds of a label job. -/
inductive LabelKind | scan | read | write
  deriving DecidableEq, Repr

/-- A label job of one port, for an accepted command. -/
structure LabelJob where
  key     : Nat
  kind    : LabelKind
  port    : Nat
  phase   : LabelPhase
  /-- Key slot; none for no AUTH. -/
  slot    : Option Nat
  uid     : BitVec 56
  block   : Nat
  count   : Nat
  /-- Expected commit sequence to check, if asked. -/
  expect  : Option Nat
  data    : List Byte
  /-- Frames sent without a valid response; status frames sent while judging; write misses. -/
  tries   : Nat
  misses  : Nat
  /-- The commit sequence before the write. -/
  seq     : Nat
  rndT    : QWord
  rndR    : QWord
  session : Option (QWord × Nat)
  power   : Nat
  boosted : Bool
  others  : Nat
  deriving DecidableEq, Repr

/-- A reader front end: jobs oldest first, the first one running. -/
structure FrontEnd where
  jobs   : List LabelJob
  result : Nat
  frames : Nat
  deriving DecidableEq, Repr

/-- What an event of the event ring tells: a slot, tag or card event by its code of R566, or one of the supply, of SHELF_IN, of the wake timer, the lever, the partner heartbeat, a host link (R26, R48, R77). -/
inductive EventKind
  | slot (code : Nat)
  | supply
  | shelfIn
  | timer
  | lever
  | heartbeat
  | host
  deriving DecidableEq, Repr

/-- An event that the management plane has posted (R25, R566). -/
structure RingEvent where
  kind  : EventKind
  obj   : Nat
  count : Nat
  time  : DWord
  deriving DecidableEq, Repr

/-- A resynchronisation event: the ports' occupancy, the cards and front ends present and at work, the tag's field, the supply (R91). -/
structure Resync where
  ports  : List Bool
  cards  : List Bool
  fes    : List Nat
  field  : Bool
  vin    : Nat
  vcell  : Nat
  deriving DecidableEq, Repr

/-- The reader. -/
structure Reader where
  ports  : List CapPort
  fes    : List FrontEnd
  keys   : List (Option QWord)
  /-- Events posted and not yet taken, oldest first: the first 1,024 stand in the event ring, the rest in the management plane's own memory (R25, R26). -/
  events : List RingEvent
  /-- Has the event ring been full since the last reset of the management plane? (R26) -/
  filled : Bool
  /-- The request ring: keys of the commands whose management-plane request stands in it, oldest first, at most 256 (R25, R27). -/
  requests : List Nat
  /-- Has the request ring been full since the last reset of the management plane? (R27) -/
  requestsFilled : Bool
  /-- Records gathered by scans in progress: command key, port, record. -/
  scans  : List (Nat × Nat × List Byte)
  /-- The last resynchronisation event posted (R91). -/
  resync : Option Resync
  deriving DecidableEq, Repr

/-- The reader with no port sampled and no key loaded. -/
def Reader.reset : Reader where
  ports := List.replicate 48 ⟨0, 0, false, 0, 0, 0, false⟩
  fes := List.replicate 6 ⟨[], 0, 0⟩
  keys := List.replicate 16 none
  events := []
  filled := false
  requests := []
  requestsFilled := false
  scans := []
  resync := none

/-- Tag states (R567). -/
inductive TagMode | idle | ready | active | halt
  deriving DecidableEq, Repr

/-- A wired tag operation in progress (R584). -/
structure WiredOp where
  op   : Nat
  page : Nat
  slot : Nat
  data : List Byte
  /-- The command it serves. -/
  key  : Option Nat
  deriving DecidableEq, Repr

/-- The module's tag. Its flash is memory space 6. -/
structure Tag where
  mode      : TagMode
  /-- READY or ACTIVE was entered from HALT. -/
  fromHalt  : Bool
  quiet     : Bool
  field     : Bool
  supply    : Nat
  /-- AUTH_1 answered: key slot and RndT. -/
  pendingT  : Option (Nat × QWord)
  session   : Option (QWord × Nat)
  authFails : Nat
  lockout   : Bool
  rate      : Nat
  /-- The last response frame without its CRC_A; empty when the tag stayed silent. -/
  response  : List Byte
  frames    : Nat
  weak      : Nat
  wrote     : Bool
  /-- The outstanding Yomir entry: submitted under a session, and its key; its completion once posted. -/
  yEntry    : Option (Bool × Nat)
  yDone     : Option (List Byte)
  yOut      : List Byte
  wired     : Option WiredOp
  wiredQ    : List WiredOp
  wiredDone : Bool
  wiredRes  : Nat
  deriving DecidableEq, Repr

/-- The tag with no field. -/
def Tag.reset : Tag where
  mode := .idle
  fromHalt := false
  quiet := false
  field := false
  supply := 0
  pendingT := none
  session := none
  authFails := 0
  lockout := false
  rate := 0
  response := []
  frames := 0
  weak := 0
  wrote := false
  yEntry := none
  yDone := none
  yOut := []
  wired := none
  wiredQ := []
  wiredDone := false
  wiredRes := 0

/-! ### Custodian card slots (20_custodian_card_slots.md) -/

/-- Where a card stands. -/
inductive CardPhase | empty | present | atr | pps | ifs | ready | stopped | asleep | waking | unusable
  deriving DecidableEq, Repr

/-- What a card command does. -/
inductive CardWork
  | apdu (bytes : List Byte) (room : Nat)
  | token (fn target len : Nat) (bytes : List Byte)
  | approve (bytes : List Byte)
  deriving DecidableEq, Repr

/-- A card command with its progress. -/
structure CardJob where
  key   : Nat
  work  : CardWork
  /-- Information fields still to be sent, and the ones received. -/
  out   : List (List Byte)
  got   : List Byte
  /-- A character of it was sent; its W chain is fully sent; the token's commit ended. -/
  begun : Bool
  sent  : Bool
  done  : Bool
  deriving DecidableEq, Repr

/-- One card slot. -/
structure CardSlot where
  phase   : CardPhase
  /-- DET_N low after filtering. -/
  det     : Bool
  /-- Class being tried or in use: 1 A, 2 B, 3 C; whether it was chosen alone. -/
  cls     : Nat
  fixed   : Bool
  mode    : Nat
  atr     : List Byte
  badAtr  : Bool
  serial  : QWord
  commits : Word
  ns      : Bool
  nr      : Bool
  retries : Nat
  wtx     : Nat
  ifsc    : Nat
  crc     : Bool
  /-- Clock-stop indicator of the ATR: 0 none, 1 low, 2 high, 3 either. -/
  stopInd : Nat
  busy    : Bool
  opDone  : Bool
  result  : Nat
  overCur : Bool
  /-- Over-current: not activated before a new insertion; a PPS was refused: none is proposed again. -/
  blocked : Bool
  noPps   : Bool
  blockRetries : Nat
  failures : Nat
  wakes   : Nat
  /-- Blocks sent, newest last: NAD, PCB, INF. -/
  tx      : List (List Byte)
  jobs    : List CardJob
  /-- Approval blobs received, under their commands' keys. -/
  blobs   : List (Nat × List Byte)
  deriving DecidableEq, Repr

/-- An empty slot. -/
def CardSlot.reset : CardSlot where
  phase := .empty
  det := false
  cls := 0
  fixed := false
  mode := 0
  atr := []
  badAtr := false
  serial := 0
  commits := 0
  ns := false
  nr := false
  retries := 0
  wtx := 0
  ifsc := 32
  crc := false
  stopInd := 0
  busy := false
  opDone := false
  result := 0
  overCur := false
  blocked := false
  noPps := false
  blockRetries := 0
  failures := 0
  wakes := 0
  tx := []
  jobs := []
  blobs := []

/-! ### Host ports and management port (05_host_and_management_ports.md) -/

/-- An MSI-X vector: its table entry and pending bit (R159). -/
structure MsixVector where
  addr    : DWord
  data    : Word
  masked  : Bool
  pending : Bool
  deriving DecidableEq, Repr

/-- Link power states of a host port (HOSTP_LINK[13:12]). -/
inductive LinkState | l0 | l1 | l11 | l12
  deriving DecidableEq, Repr

/-- Stages of the port's one SPDM session (R167). -/
inductive Spdm | none | versioned | capable | negotiated | exchanged | secured
  deriving DecidableEq, Repr

/-- One programmed key of an IDE stream: key set, sub-stream, direction, key and IV, and whether K_SET_GO made it active (R168). -/
structure IdeKey where
  stream : Nat
  keySet : Bool
  sub    : Nat
  tx     : Bool
  key    : Hash
  iv     : DWord
  active : Bool
  deriving DecidableEq, Repr

/-- What the last read by a host was answered with: nothing yet, data, or Request Retry Status (R155, R164). -/
inductive HostReply | none | data (v : DWord) | retry
  deriving DecidableEq, Repr

/-- One PCIe host port. -/
structure HostPort where
  linkUp   : Bool
  speed    : Nat
  width    : Nat
  lstate   : LinkState
  d3hot    : Bool
  /-- The REFCLK pair was driven at the 2 ms step: common-clock mode (R152). -/
  common   : Bool
  enabled  : Bool
  cfgError : Bool
  admSq    : DWord
  admCq    : DWord
  admSize  : Word
  msix     : List MsixVector
  /-- MSI-X messages sent and not yet taken by the host, oldest first. -/
  sent     : List (DWord × Word)
  spdm     : Spdm
  transcript : List Byte
  /-- The last DOE response, read back by the host. -/
  response : List Byte
  ide      : List IdeKey
  aerCorr  : Nat
  aerUncorr : Nat
  /-- Writable registers of the configuration space by offset; one not listed holds its reset value (R150, R151). -/
  cfg      : List (Nat × Word)
  /-- The answer to the host's last read. -/
  reply    : HostReply
  deriving DecidableEq, Repr

/-- A port after reset: link down, BAR0 at its reset values (R612). -/
def HostPort.reset : HostPort where
  linkUp := false
  speed := 0
  width := 0
  lstate := .l0
  d3hot := false
  common := false
  enabled := false
  cfgError := false
  admSq := 0
  admCq := 0
  admSize := 0
  msix := List.replicate 128 ⟨0, 0, true, false⟩
  sent := []
  spdm := .none
  transcript := []
  response := []
  ide := []
  aerCorr := 0
  aerUncorr := 0
  cfg := []
  reply := .none

/-- The management port. -/
structure MgmtPort where
  dynAddr   : Option (BitVec 7)
  ibi       : Bool
  /-- Response frames waiting, oldest first, each a completion entry of 32 bytes. -/
  responses : List (List Byte)
  /-- Bytes of the last private read or CCC read. -/
  readBytes : List Byte
  ibis      : List Byte
  /-- Command frames that passed the port's checks and wait for the CQE: the 64 bytes of their entries, oldest first (R145). -/
  frames    : List (List Byte)
  crcFails  : Nat
  lenFails  : Nat
  deriving DecidableEq, Repr

/-- The management port in I²C mode with nothing waiting. -/
def MgmtPort.reset : MgmtPort where
  dynAddr := none
  ibi := false
  responses := []
  readBytes := []
  ibis := []
  frames := []
  crcFails := 0
  lenFails := 0

/-! ### Pair operation (18_castling_pair_operation.md) -/

/-- How far the partner session stands: nothing, the partner's HELLO checked, the session key derived (R529). -/
inductive PairSession | none | hello | keyed
  deriving DecidableEq, Repr

/-- The partner link: down, training, up (PAIR_LINK). -/
inductive LinkPhase | down | training | up
  deriving DecidableEq, Repr

/-- A castling or withdrawal of this module in progress (R533 to R535, R546). -/
inductive Castling
  | none
  /-- Mode 2: waiting until no stream is open, for the command with this key. -/
  | draining (key : Option Nat)
  /-- Planned: fetch stopped, running commands complete; the ROLE kind is 2; `key` serves a CASTLE, `leaving` a withdrawal. -/
  | planned (key : Option Nat) (leaving : Bool)
  /-- A MATE asked the partner to take over; a warm reset into SAFE follows. -/
  | fault
  /-- A standby asked the active for a planned castling. -/
  | requested (key : Option Nat)
  deriving DecidableEq, Repr

/-- Messages and notices this module has sent its partner (R529), oldest first. -/
inductive PairOut
  | hello (m : Hello)
  | helloProof (ecdsa mldsa ciphertext : List Byte)
  | journal (rs : List JRecord)
  | ack (n : Nat)
  | heartbeat (path : HbPath) (w : Word)
  | control (msg : CtlMsg)
  | sync (img : SyncImage)
  | handover (es : List Handed)
  | repair (index : Nat) (rec : KeyRecord)
  /-- A NAK flit, and a replay of the flits not acknowledged (R528). -/
  | nak
  | replay
  deriving DecidableEq, Repr

/-- A flit that waits to be sent or acknowledged: a part of a message, with the message's count for its tag (R528, R529). -/
structure Piece where
  msg   : PairOut
  count : Nat
  part  : Nat
  deriving DecidableEq, Repr

/-- Pair state. -/
structure Pair where
  role      : Role
  epoch     : Nat
  session   : PairSession
  sessionKey : Hash
  /-- Number of the random string of this module's encapsulation to the partner's transport key (R529). -/
  encapNo   : Nat
  link      : LinkPhase
  /-- Message counts of the GMAC tags, sent and received. -/
  txCount   : Nat
  rxCount   : Nat
  nonce     : Hash
  peer      : Option Hello
  /-- Last valid partner heartbeat word, by path; paths alive; milliseconds since. -/
  word      : Option Word
  countA    : Option Nat
  countB    : Option Nat
  pathA     : Bool
  pathB     : Bool
  ageA      : Nat
  ageB      : Nat
  txHb      : Nat
  leaving   : Bool
  frozen    : Bool
  /-- The first record number not acknowledged when a freeze began (R538). -/
  freezeAck : Nat
  /-- The keys that existed when it began: index and generation (R538). -/
  freezeKeys : List (Nat × Nat)
  /-- The frame last sent on path B (R531). -/
  frameB    : List Byte
  castling  : Castling
  /-- Entries stopped for hand-over, in acceptance order (R535). -/
  handing   : List Handed
  prsntHigh : Bool
  progress  : Nat
  /-- Image records received while SYNCING, before the synced notice. -/
  syncing   : Bool
  /-- LFCLK count at which the revertive hold-off began, while its conditions hold (R542). -/
  holdFrom  : Option Nat
  /-- Sequence number of the last flit queued; the flits not yet acknowledged, oldest first: the first 512 are sent (R528). -/
  txSeq     : BitVec 16
  flits     : List Piece
  /-- A NAK is out for the present gap; the bytes received of a message in progress (R528). -/
  nakSent   : Bool
  rxBuf     : List Byte
  rxNext    : BitVec 16
  txAck     : BitVec 16
  replays   : Nat
  sameReplays : Nat
  crcErr    : Nat
  /-- The records mirrored to the partner that wait for a SHELF pin change (R526): record number and value. -/
  shelfWait : List (Nat × Word)
  /-- An FW_ACTIVATE's castling runs: a warm reset follows it (R610). -/
  activating : Bool
  /-- Messages sent and not yet taken by the link. -/
  out       : List PairOut
  deriving DecidableEq, Repr

/-- A module before its first election. -/
def Pair.reset : Pair where
  role := .electing
  epoch := 0
  session := .none
  sessionKey := 0
  encapNo := 0
  link := .down
  txCount := 0
  rxCount := 0
  nonce := 0
  peer := none
  word := none
  countA := none
  countB := none
  pathA := false
  pathB := false
  ageA := 0
  ageB := 0
  txHb := 0
  leaving := false
  frozen := false
  freezeAck := 0
  freezeKeys := []
  frameB := []
  castling := .none
  handing := []
  prsntHigh := true
  progress := 0
  syncing := false
  holdFrom := none
  txSeq := 0
  flits := []
  nakSent := false
  rxBuf := []
  rxNext := 0
  txAck := 0
  replays := 0
  sameReplays := 0
  crcErr := 0
  shelfWait := []
  activating := false
  out := []

end Sys2Proof.Machine
end

