-- ==== Sys2Proof/Machine/State.lean ====
section
/-! DEFINITION. The machine state, the state right after a power-on reset, and the reasons a step can stop. -/

namespace Sys2Proof.Machine

/-- Faults of the model. It has none: the spec answers every access and every command of the module with a completion, an exception, a fault record or a reset, so that no rule leaves it stuck. -/
inductive Fault
  deriving DecidableEq, Repr

/-- Refusals of the model. -/
inductive Refusal
  /-- The command has no meaning in the model yet; `exec` alone raises it. Safe: the machine stops where the hardware goes on. -/
  | notModelled (mnemonic : String)
  /-- An UNDEFINED_INSTRUCTION whose word is a legal instruction: such a term spells no command of the table (WellFormed), since the instruction has a row of its own. Raised by that row's meaning alone. Safe: the machine stops where the hardware goes on. -/
  | illFormed (mnemonic : String)
  deriving DecidableEq, Repr

/-- The whole state of the module. -/
structure State where
  power   : Power
  clock   : Clock
  cores   : Cores
  /-- Custody-core interrupt lines 0 to 21 now asserted, and the management core's lines (R428, R580). -/
  lines   : Word
  mlines  : Word
  fault   : FaultBlk
  tamper  : Tamper
  cqe     : Cqe
  port0   : HostPort
  port1   : HostPort
  mgmtp   : MgmtPort
  pair    : Pair
  journal : Journal
  ktab    : Ktab
  lanes   : Lanes
  vault   : Vault
  kiln    : Kiln
  pke     : Pke
  rng     : Rng
  dramc   : Dramc
  flash   : Flash
  reader  : Reader
  tag     : Tag
  cards   : List CardSlot
  nvm     : Nvm
  /-- Registers written away from their reset value, by address, in rising order. -/
  regs    : List (Nat × Word)
  /-- Memory in canonical form (Memory.wf). -/
  mem     : List Host.Cell
  /-- The model's own counter of free values drawn. -/
  freeCtr : Nat
  /-- Commands waiting, first in, first out. -/
  pending : List Instr
  deriving DecidableEq, Repr

/-- The module at shipment right after a power-on reset: supply just above the rising threshold, lever open, bus class not yet fixed, custody cores in reset state, memory and registers at their reset values (R2, R46, R85, R88, R103). -/
def State.reset : State where
  power := {
    supply := .starting
    mode := .run
    prev := .run
    vin := 8600
    vcell := 3000
    classHigh := false
    classFixed := false
    holdupUf := 200
    holdupOk := false
    leverOpen := true
    leverDue := false
    withdrawing := false
    drainDone := false
    booted := false
    runningBank := 0
    safe := false
    safeNext := false
    rstCause := 1
    entering := none
    wakeLog := []
    wakeCause := 0
    pllLock := 0
    pllLost := 0
    timerFired := false
    pinPref := false
    pinBay := 0
    pref := false
    bayId := 0
    shelfIn := 0
    shelfCtl := 0
    shelfDriven := false
    testPins := 0 }
  clock := { time := 0, valid := false, lfclk := 0, ckptAge := 0, signAge := 0, tryAge := 0 }
  cores := ⟨Core.reset .ccA, Core.reset .ccB, Core.reset .mgt⟩
  lines := 0
  mlines := 0
  fault := FaultBlk.reset
  tamper := Tamper.reset
  cqe := Cqe.reset
  port0 := HostPort.reset
  port1 := HostPort.reset
  mgmtp := MgmtPort.reset
  pair := Pair.reset
  journal := Journal.reset
  ktab := Ktab.reset
  lanes := Lanes.reset
  vault := Vault.reset
  kiln := Kiln.reset
  pke := Pke.reset
  rng := Rng.reset
  dramc := Dramc.reset
  flash := Flash.shipment
  reader := Reader.reset
  tag := Tag.reset
  cards := List.replicate 4 CardSlot.reset
  nvm := Nvm.shipment
  regs := []
  mem := []
  freeCtr := 0
  pending := []

/-- A module of code CXM-8017-AP at shipment, packed with the module of that serial and those public keys (R1). -/
def State.resetAP (kit : QWord) (keys : List Byte) : State := { State.reset with nvm := Nvm.shipmentAP kit keys }

end Sys2Proof.Machine
end

