-- ==== Sys2Proof/Machine/Ops.lean ====
section
/-! DEFINITION. The named operations over memory, registers, free values, interrupt lines and fault reports that every family shares. -/

namespace Sys2Proof.Machine

/-! ### Lists -/

/-- Insert or replace a key in a list sorted by rising key. -/
def assocSet {α : Type} (k : Nat) (v : α) : List (Nat × α) → List (Nat × α)
  | [] => [(k, v)]
  | (a, b) :: t => if k < a then (k, v) :: (a, b) :: t else if a = k then (k, v) :: t else (a, b) :: assocSet k v t

/-- Remove a key. -/
def assocErase {α : Type} (k : Nat) (l : List (Nat × α)) : List (Nat × α) := l.filter (fun p => p.1 != k)

/-- Look a key up. -/
def assocGet {α : Type} (k : Nat) : List (Nat × α) → Option α
  | [] => none
  | (a, b) :: t => if a = k then some b else assocGet k t

/-! ### Memory (01_system_view.md, address map): key = space · 2^64 + address -/

/-- Memory spaces: 0 custody control SRAM and escalation SRAM, 1 embedded flash, 2 DDR5, 3 management-core memory, 4 and 5 memory behind host port 0 and 1, 6 tag flash. -/
def memKey (space addr : Nat) : Nat := space * 2 ^ 64 + addr

/-- What an unlisted byte reads as: erased flash reads all ones (R453), an erased tag word too (R569), the tag's unused pages 199 to 255 read zero (R569), every other memory reads zero. DESIGN CHOICE for memory after power-on. -/
def memDefault (k : Nat) : Byte := if k / 2 ^ 64 = 1 ∨ (k / 2 ^ 64 = 6 ∧ k % 2 ^ 64 < 12736) then 0xFF else 0

/-- One byte of memory. -/
def memGet : List Host.Cell → Nat → Byte
  | [], k => memDefault k
  | (a, b) :: t, k => if a = k then b else memGet t k

/-- Drop the cell of a key. -/
def memDrop (k : Nat) : List Host.Cell → List Host.Cell
  | [] => []
  | (a, b) :: t => if a = k then t else if k < a then (a, b) :: t else (a, b) :: memDrop k t

/-- Put a cell in its place. -/
def memPut (k : Nat) (v : Byte) : List Host.Cell → List Host.Cell
  | [] => [(k, v)]
  | (a, b) :: t => if a = k then (k, v) :: t else if k < a then (k, v) :: (a, b) :: t else (a, b) :: memPut k v t

/-- Write one byte, keeping the canonical form. -/
def memSet (m : List Host.Cell) (k : Nat) (v : Byte) : List Host.Cell :=
  if v = memDefault k then memDrop k m else memPut k v m

/-- The canonical form: keys strictly rising, no cell equal to what an unlisted byte reads as. -/
def Memory.wf : List Host.Cell → Bool
  | [] => true
  | (a, v) :: t => v != memDefault a && (match t with | [] => true | (b, _) :: _ => decide (a < b)) && Memory.wf t

/-- Write consecutive bytes. -/
def memSetBytes (m : List Host.Cell) (k : Nat) : List Byte → List Host.Cell
  | [] => m
  | b :: bs => memSetBytes (memSet m k b) (k + 1) bs

/-- Read consecutive bytes. -/
def memBytes (m : List Host.Cell) (k : Nat) : Nat → List Byte
  | 0 => []
  | n + 1 => memGet m k :: memBytes m (k + 1) n

/-- Remove every cell whose key lies in a range. -/
def memClear (m : List Host.Cell) (lo hi : Nat) : List Host.Cell := m.filter (fun c => !(decide (lo ≤ c.1) && decide (c.1 < hi)))

namespace State

/-- One byte of a space. -/
def readByte (s : State) (space addr : Nat) : Byte := memGet s.mem (memKey space addr)
/-- `n` bytes of a space from an address. -/
def readBytes (s : State) (space addr n : Nat) : List Byte := memBytes s.mem (memKey space addr) n
/-- A little-endian number in a space (R4). -/
def readNat (s : State) (space addr n : Nat) : Nat := leNat (s.readBytes space addr n)
/-- Store bytes in a space. -/
def writeBytes (s : State) (space addr : Nat) (bs : List Byte) : State :=
  { s with mem := memSetBytes s.mem (memKey space addr) bs }
/-- Store a little-endian number of `n` bytes. -/
def writeNat (s : State) (space addr n v : Nat) : State := s.writeBytes space addr (leBytes n v)
/-- Clear a range of a space to what unlisted bytes read as. -/
def clearMem (s : State) (space lo hi : Nat) : State :=
  { s with mem := memClear s.mem (memKey space lo) (memKey space hi) }

/-- Free values: the next one, nothing known of it. -/
def fresh (s : State) : BitVec 256 := Config.freeValue s.freeCtr
/-- Advance past the free value just drawn. -/
def drew (s : State) : State := { s with freeCtr := s.freeCtr + 1 }
/-- `n` free bytes under the present count. -/
def freshBytes (s : State) (n : Nat) : List Byte := (List.range n).map (Config.freeBytes s.freeCtr)

/-- A stored register, or its reset value while no write has moved it. -/
def reg (s : State) (addr : Nat) (rst : Word) : Word := (assocGet addr s.regs).getD rst
/-- Store a register. -/
def setReg (s : State) (addr : Nat) (v : Word) : State := { s with regs := assocSet addr v s.regs }

/-- The logical core. -/
def core (s : State) : CoreId → Core
  | .ccA => s.cores.ccA
  | .ccB => s.cores.ccB
  | .mgt => s.cores.mgt
/-- Replace a logical core. -/
def setCore (s : State) (c : CoreId) (k : Core) : State :=
  match c with
  | .ccA => { s with cores := { s.cores with ccA := k } }
  | .ccB => { s with cores := { s.cores with ccB := k } }
  | .mgt => { s with cores := { s.cores with mgt := k } }

/-- A core's reservation after another's write of `n` bytes at a place of memory (R393). -/
def coreWritten (k : Core) (place n : Nat) : Core :=
  match k.resv with
  | some g => if 0 < n ∧ place / 64 ≤ g ∧ g ≤ (place + n - 1) / 64 then { k with resv := none } else k
  | none => k
/-- A write by a core, or by DMA, ends every other core's reservation of the granules it touches (R393). -/
def dropResv (s : State) (writer : Option CoreId) (space addr n : Nat) : State :=
  let hit (c : CoreId) (k : Core) : Core := if writer = some c then k else coreWritten k (memKey space addr) n
  { s with cores := { ccA := hit .ccA s.cores.ccA, ccB := hit .ccB s.cores.ccB, mgt := hit .mgt s.cores.mgt } }
/-- Store bytes by DMA. -/
def dmaBytes (s : State) (space addr : Nat) (bs : List Byte) : State := (s.writeBytes space addr bs).dropResv none space addr bs.length

/-- Assert a custody-core interrupt line (R428). -/
def line (s : State) (l : Nat) : State := { s with lines := s.lines ||| bit32 l true }
/-- Quieten a custody-core line at its source. -/
def unline (s : State) (l : Nat) : State := { s with lines := s.lines &&& ~~~ bit32 l true }
/-- Assert a management-core line (R580). -/
def mline (s : State) (l : Nat) : State := { s with mlines := s.mlines ||| bit32 l true }

/-- Put one evaluation's reports before the fault collector (R498). -/
def report (s : State) (rs : List FaultIn) : State :=
  { s with fault := { s.fault with inputs := s.fault.inputs ++ [rs] } }
/-- One unit raises one source. -/
def raiseAt (s : State) (source : Nat) (unit : FUnit) (syndrome : Word) (address : DWord) : State :=
  s.report [⟨⟨source, unit, syndrome, address⟩, false, false, false, false⟩]
/-- One source of the module as a whole, with no syndrome or address. -/
def raise (s : State) (source : Nat) : State := s.raiseAt source ⟨0, 0⟩ 0 0

/-- Fence a unit outright. -/
def addFence (s : State) (u : FUnit) : State :=
  if s.fault.fenced.contains u then s else { s with fault := { s.fault with fenced := s.fault.fenced ++ [u] } }
/-- Is a unit fenced (R500)? -/
def isFenced (s : State) (cls num : Nat) : Bool :=
  s.fault.fenced.any (fun u => u.cls == cls && (u.num == num || u.num == 0xFF))

end State

end Sys2Proof.Machine

namespace Sys2Proof

/-- Unit classes of R500. -/
abbrev FUnit.module : FUnit := ⟨0, 0⟩
/-- Lane `n` as a unit. -/
abbrev FUnit.lane (n : Nat) : FUnit := ⟨1, n⟩
/-- Public-key unit `n`. -/
abbrev FUnit.pke (n : Nat) : FUnit := ⟨2, n⟩
/-- Host port `n`. -/
abbrev FUnit.port (n : Nat) : FUnit := ⟨3, n⟩
/-- The partner link. -/
abbrev FUnit.link : FUnit := ⟨4, 0⟩
/-- KTAB. -/
abbrev FUnit.ktab : FUnit := ⟨5, 0⟩
/-- Front end `n`. -/
abbrev FUnit.fe (n : Nat) : FUnit := ⟨6, n⟩
/-- Card slot `n`. -/
abbrev FUnit.card (n : Nat) : FUnit := ⟨7, n⟩

end Sys2Proof

namespace Sys2Proof.Machine

/-! ### Completions: result bytes 12 to 27 as a 128-bit number, byte 12 lowest -/

/-- Result fields: (byte offset, value) pairs placed little-endian. -/
def resultOf (fields : List (Nat × Nat)) : QWord :=
  BitVec.ofNat 128 (fields.foldl (fun a f => a + f.2 * 2 ^ (8 * (f.1 - 12))) 0)

/-! ### Checks of entries (R118) -/

/-- One bit step of the reflected CRC-32C. -/
def crc32cBit (c : BitVec 32) : BitVec 32 := if c.getLsbD 0 then (c >>> 1) ^^^ 0x82F63B78 else c >>> 1
/-- Eight bit steps. -/
def crc32cByte (c : BitVec 32) (b : Byte) : BitVec 32 :=
  crc32cBit (crc32cBit (crc32cBit (crc32cBit (crc32cBit (crc32cBit (crc32cBit (crc32cBit (c ^^^ b.setWidth 32))))))))
/-- CRC-32C (R118). -/
def crc32c (bs : List Byte) : BitVec 32 := ~~~ (bs.foldl crc32cByte 0xFFFFFFFF)

/-- One bit step of CRC-16/CCITT, not reflected. -/
def crc16Bit (c : BitVec 16) : BitVec 16 := if c.getLsbD 15 then (c <<< 1) ^^^ 0x1021 else c <<< 1
/-- One byte of CRC-16/CCITT. -/
def crc16Byte (c : BitVec 16) (b : Byte) : BitVec 16 :=
  crc16Bit (crc16Bit (crc16Bit (crc16Bit (crc16Bit (crc16Bit (crc16Bit (crc16Bit (c ^^^ (b.setWidth 16 <<< 8)))))))))
/-- CRC-16/CCITT with initial value 0xFFFF (R144). -/
def crc16 (bs : List Byte) : BitVec 16 := bs.foldl crc16Byte 0xFFFF

/-- The 64 bytes of an entry with its opcode (R112). -/
def entryBytes (op : BitVec 16) (e : Entry) : List Byte :=
  leBytes 2 op.toNat ++ [e.flags, e.byte3] ++ leBytes 2 e.tag.toNat ++ leBytes 2 e.handle.toNat ++ leBytes 32 e.params.toNat
    ++ leBytes 8 e.addr0.toNat ++ leBytes 8 e.addr1.toNat ++ leBytes 4 e.seq.toNat ++ leBytes 4 e.crc.toNat

/-- The entry that 64 bytes hold, with its opcode. -/
def entryOf (bs : List Byte) : BitVec 16 × Entry :=
  let f (off n : Nat) : Nat := leNat ((bs.drop off).take n)
  (BitVec.ofNat 16 (f 0 2),
   { flags := BitVec.ofNat 8 (f 2 1), byte3 := BitVec.ofNat 8 (f 3 1), tag := BitVec.ofNat 16 (f 4 2), handle := BitVec.ofNat 16 (f 6 2),
     params := BitVec.ofNat 256 (f 8 32), addr0 := BitVec.ofNat 64 (f 0x28 8), addr1 := BitVec.ofNat 64 (f 0x30 8),
     seq := BitVec.ofNat 32 (f 0x38 4), crc := BitVec.ofNat 32 (f 0x3C 4) })

/-- Set latched bits of a block's status register (R9, R10). -/
def setStatusBits (base : Nat) (bits : Word) (s : State) : State := s.setReg (base + 4) (s.reg (base + 4) 0 ||| bits)

end Sys2Proof.Machine

namespace Sys2Proof

/-- Parameter field of `n` bytes at entry offset `off` (+0x08 to +0x27). -/
def Entry.param (e : Entry) (off n : Nat) : Nat := (e.params.toNat >>> (8 * (off - 8))) % 2 ^ (8 * n)
/-- Flag bit 0, durable (R112). -/
def Entry.durable (e : Entry) : Bool := e.flags.getLsbD 0
/-- Flag bit 1, interim notify. -/
def Entry.interim (e : Entry) : Bool := e.flags.getLsbD 1
/-- Flag bit 2, order after previous. -/
def Entry.order (e : Entry) : Bool := e.flags.getLsbD 2

/-- The source field of journal records and completions (R116, R253). -/
def Source.code : Source → BitVec 16
  | .queue q => BitVec.ofNat 16 q
  | .mgmt => 0xFFFE
  | .tag => 0xFFFD
  | .internal _ _ => 0xFFFC

/-- The issuer a source stands for, whatever buffer a ring names for one completion. -/
def Source.issuer : Source → Source
  | .internal n _ => .internal n 0
  | x => x

/-- Is the issuer the kernel itself, ring 0? -/
def Source.kernel : Source → Bool
  | .internal n _ => n == 0
  | _ => false

/-- Host port of a source: 0 or 1 for queues (R112). -/
def Source.port : Source → Option Nat
  | .queue q => some (q / 64)
  | _ => none

/-- The 32 bytes of a completion as it is posted (R116). -/
def Completion.bytes (c : Completion) (phase : Bool) : List Byte :=
  let b : List Byte := leBytes 2 c.tag.toNat ++ leBytes 2 c.status.toNat ++ leBytes 2 c.sqid.toNat ++ leBytes 2 c.sqhead.toNat
    ++ [BitVec.ofNat 8 c.durability,
        (if c.untrusted then 1 else 0) ||| (if c.degraded then 2 else 0) ||| (if phase then 0x80 else 0)]
    ++ [0, 0] ++ leBytes 16 c.result.toNat
  b ++ leBytes 4 (Machine.crc32c b).toNat

end Sys2Proof
end

