-- ==== Sys2Proof/Machine/Dramc.lean ====
section
/-! DEFINITION. Memory integrity: the error log, page retirement, spare rows, sparge (14_memory_ecc_scrubbing.md). -/

namespace Sys2Proof.Machine

/-- DRAMC base address. -/
def dramcBase : Nat := 0x40100000

/-- Rows of an SRAM array (R431). -/
def arrayRows (a : Nat) : Nat := if a ≤ 15 then 512 else if a = 16 then 16 else if a ≤ 20 then 1024 else 2048
/-- 64-bit words of an SRAM array. -/
def arrayWords (a : Nat) : Nat := arrayRows a * 128
/-- Array and byte offset of the k-th word of an SRAM lap (R435). -/
def sramAt : Nat → Nat → Nat → Nat × Nat
  | 0, a, k => (a, 8 * k)
  | fuel + 1, a, k => if k < arrayWords a then (a, 8 * k) else sramAt fuel (a + 1) (k - arrayWords a)
/-- Words of an SRAM lap, arrays 0 to 22. -/
def sramLap : Nat := (List.range 23).foldl (fun n a => n + arrayWords a) 0
/-- Lines of a DDR5 lap (R435). -/
def ddrLap : Nat := 2 ^ 31

/-- Note a correctable error of a DDR5 die; the one that makes a die exceed DRAMC_CE_THRESH within a second raises source 20 (R439). The second is the one that ends with the error. DESIGN CHOICE (log 70) -/
def noteRate (die : Nat) (s : State) : State :=
  let l := s.dramc.ceTimes.filter (fun p => decide (s.clock.lfclk < p.2 + 32768)) ++ [(die, s.clock.lfclk)]
  let s := { s with dramc := { s.dramc with ceTimes := l } }
  if (l.filter (fun p => p.1 == die)).length = (fieldAt (s.reg (dramcBase + 0x68) 100) 15 0) + 1 then s.raise 20 else s

/-- Count an error, and log it when there is room: a correctable one at an address that already has an unread entry is counted only (R438). -/
def logEcc (sram : Bool) (unit addr syn : Nat) (unc hard : Bool) (found : Nat) (s : State) : State :=
  let s := if sram = false ∧ unc = false then noteRate unit s else s
  let d := s.dramc
  let d :=
    if unc then if sram then { d with ueSram := satInc 16 d.ueSram } else { d with ueDdr := satInc 16 d.ueDdr }
    else if sram then { d with ceSram := satInc 16 d.ceSram } else { d with ceDdr := satInc 16 d.ceDdr }
  let s := { s with dramc := d }
  if unc = false ∧ d.log.any (fun e => e.sram == sram && e.addr == addr && (!sram || e.unit == unit)) = true then s
  else if 64 ≤ d.log.length then
    if d.overflowed then s else State.raise { s with dramc := { d with overflowed := true } } 21
  else
    let e : EccEntry := ⟨addr, sram, unit, syn, unc, hard, found, s.clock.time.setWidth 32⟩
    State.line { s with dramc := { d with log := d.log ++ [e] } } 16

/-- Discard the oldest log entry; line 16 falls with the last one (R438). -/
def logNext (v : Word) (s : State) : State :=
  let s := if fieldAt v 31 1 ≠ 0 then setStatusBits dramcBase 1 s else s
  if bitAt v 0 = false then s
  else
    let l := s.dramc.log.drop 1
    let s := { s with dramc := { s.dramc with log := l, overflowed := s.dramc.overflowed && !l.isEmpty } }
    if l.isEmpty then s.unline 16 else s

/-! ### Retirement and repair (R440 to R443) -/

/-- Reserve base in bytes. -/
def reserveBase (s : State) : Nat := fieldAt (s.reg (dramcBase + 0x80) 0) 11 0 * 2 ^ 24

/-- The DDR5 byte that answers at an address: in the slot of a retired page (R440). -/
def ddrPlace (s : State) (a : Nat) : Nat :=
  match s.dramc.rmap.find? (fun p => p.2 == a / 4096) with | some p => reserveBase s + 4096 * p.1 + a % 4096 | none => a
/-- The address that a DDR5 byte answers to: that of the retired page when it lies in the page's slot. -/
def ddrLogical (s : State) (a : Nat) : Nat :=
  match s.dramc.rmap.find? (fun p => decide (reserveBase s + 4096 * p.1 ≤ a ∧ a < reserveBase s + 4096 * p.1 + 4096)) with
  | some p => 4096 * p.2 + a % 4096
  | none => a
/-- Move the bytes of a DDR5 page. -/
def copyPage (src dst : Nat) (s : State) : State :=
  let at_ (a : Nat) : Nat := memKey 2 a
  let cells := s.mem.filter (fun c => decide (at_ src ≤ c.1 ∧ c.1 < at_ src + 4096))
  let s := s.clearMem 2 dst (dst + 4096)
  { s with mem := cells.foldl (fun m c => memSet m (c.1 - at_ src + at_ dst) c.2) s.mem }
/-- Lines of a page at a physical address that read uncorrectable, as a mask of 64. -/
def badMask (s : State) (page : Nat) : Nat := (List.range 64).foldl (fun m i => if s.dramc.badLines.contains (page / 64 + i) then m + 2 ^ i else m) 0
/-- Lines set in a mask. -/
def maskLines (m : Nat) : List Nat := (List.range 64).filter (fun i => m.testBit i)
/-- An error that the spec leaves without a die and a syndrome: both are free values. -/
def logFree (sram : Bool) (unit addr found : Nat) (s : State) : State :=
  logEcc sram (if sram then unit else s.fresh.toNat % 20) addr (s.fresh.toNat / 32 % 65536) true false found s.drew

/-- RETIRE of the page in DRAMC_RMAP_SRC into a slot: refused with its result code, or the copy starts (R440, R441). `bad` is the mask of the lines that the copy finds uncorrectable, beside those known to be. The lanes' region is not the control plane's to move (R36). -/
def retire (slot bad : Nat) (s : State) : State :=
  let page := fieldAt (s.reg (dramcBase + 0x70) 0) 24 0
  let d := s.dramc
  let fail (r : Nat) : State := { s with dramc := { d with rmapDone := true, rmapRes := r } }
  if d.rmapRun.isSome then fail 3
  else if d.used.contains slot then fail 1
  else if 2 ^ 37 ≤ page * 4096 ∨ (reserveBase s ≤ page * 4096 ∧ page * 4096 < reserveBase s + 2 ^ 24) then fail 2
  else if Config.ddrOwner (page * 4096) = 1 then (fail 2).raiseAt 67 ⟨0, 0⟩ 0 (BitVec.ofNat 64 (page * 4096))
  else
    let d := { d with used := d.used ++ [slot], rmapRun := some (slot, page, bad % 2 ^ 64), rmapDone := false }
    let s := { s with dramc := d }
    if d.used.length = 4096 then s.raise 22 else s

/-- The page copy ends and its entry takes effect; lines that read uncorrectable are counted and logged, and read so in the slot too (R440, R441). Firmware adds the pair to its list in flash bank 3 (R443). -/
def rmapDone (s : State) : State :=
  if s.power.mode ≠ .run then s else match s.dramc.rmapRun with
  | none => s
  | some (slot, page, bad) =>
    let src := ddrPlace s (page * 4096)
    let dst := reserveBase s + 4096 * slot
    let lines := maskLines (bad ||| badMask s src)
    let s := lines.foldl (fun s i => logFree false 0 (page * 4096 + 64 * i) 3 s) (copyPage src dst s)
    { s with
      dramc := { s.dramc with
        rmapRun := none, rmapDone := true, rmapRes := 0, rmapBad := lines.length
        rmap := s.dramc.rmap.filter (fun p => p.2 != page) ++ [(slot, page)]
        badLines := s.dramc.badLines.filter (fun l => !(decide (dst / 64 ≤ l ∧ l < dst / 64 + 64))) ++ lines.map (dst / 64 + ·) }
      nvm := { s.nvm with remaps := s.nvm.remaps ++ [(slot, page)] } }

/-- REPAIR of a row: the next free spare of the array, or a refusal (R442). -/
def repairRow (array row : Nat) (s : State) : State :=
  let d := s.dramc
  let fail (r : Nat) : State := { s with dramc := { d with spareDone := true, spareRes := r, spareArray := array } }
  if d.spareRun.isSome then fail 3
  else if 22 < array ∨ arrayRows array ≤ row then fail 2
  else if 4 ≤ (d.spares.filter (fun p => p.1 == array)).length then (fail 1).raise 36
  else { s with dramc := { d with spareRun := some (array, row), spareDone := false, spareArray := array } }

/-- The row copy ends and the row is redirected (R442). -/
def spareDone (s : State) : State :=
  if s.power.mode ≠ .run then s else match s.dramc.spareRun with
  | none => s
  | some p =>
    { s with
      dramc := { s.dramc with spareRun := none, spareDone := true, spareRes := 0, spares := s.dramc.spares ++ [p] }
      nvm := { s.nvm with repairs := s.nvm.repairs ++ [p] } }

/-- A start-up applies the lists of flash bank 3 again: the boot ROM the spare rows, firmware the retired pages (R443). -/
def reapplyRepairs (s : State) : State :=
  { s with dramc := { s.dramc with
      spares := s.nvm.repairs, used := s.nvm.remaps.map (·.1)
      rmap := s.nvm.remaps.foldl (fun l p => l.filter (fun q => q.2 != p.2) ++ [p]) [] } }

/-! ### Uncorrectable data (R433, R434) -/

/-- Array and byte offset of the 64-bit word at an address of custody SRAM: control SRAM, then escalation SRAM (R431). -/
def sramWord (a : Nat) : Nat × Nat :=
  if a < 0xF0000000 then ((a - 0x10000000) / 524288, (a - 0x10000000) % 524288 / 8 * 8) else (16, (a - 0xF0000000) / 8 * 8)
/-- Does the word at an address of custody SRAM read uncorrectable? -/
def sramBad (s : State) (a : Nat) : Bool := s.dramc.badWords.contains (sramWord a)
/-- Does the line of a DDR5 byte read uncorrectable? -/
def ddrBad (s : State) (a : Nat) : Bool := s.dramc.badLines.contains (a / 64)
/-- A unit's access meets an uncorrectable code word: it is logged, and the source of demand accesses follows. `found`: 0 a read, 1 the read of a narrow write. -/
def demandUe (sram : Bool) (unit addr found : Nat) (s : State) : State :=
  (logFree sram unit addr found s).raiseAt (if sram then 34 else 18) ⟨0, 0⟩ (put32 0 (s.fresh.toNat / 32 % 65536)) (BitVec.ofNat 64 addr)
/-- A line or word is found uncorrectable: every read of it fails until it is written whole. -/
def markBad (sram : Bool) (unit addr : Nat) (s : State) : State :=
  if sram then { s with dramc := { s.dramc with badWords := (unit, addr / 8 * 8) :: s.dramc.badWords.filter (· != (unit, addr / 8 * 8)) } }
  else { s with dramc := { s.dramc with badLines := addr / 64 :: s.dramc.badLines.filter (· != addr / 64) } }
/-- Bytes written to custody SRAM make the words that they cover whole good again. -/
def mendWords (a n : Nat) (s : State) : State :=
  { s with dramc := { s.dramc with badWords := s.dramc.badWords.filter (fun w =>
      !((List.range (n / 8 + 1)).any (fun i => decide (8 * ((a + 7) / 8 + i) + 8 ≤ a + n) && sramWord (8 * ((a + 7) / 8 + i)) == w))) } }

/-! ### Sparge (R435 to R437) -/

/-- Does sparge run? -/
def scrubbing (s : State) : Bool := bitAt (s.reg (dramcBase + 8) 0) 1 && s.power.mode == .run && s.power.supply == .running

/-- One scrub access of the lap in progress: what it finds is logged; the last code word ends the lap. -/
def scrub (sram : Bool) (die syn : Nat) (find : EccFind) (s : State) : State :=
  if scrubbing s = false then s
  else
    let d := s.dramc
    let place := if sram then sramAt 23 0 d.spos else (die, 64 * d.dpos)
    let s :=
      if sram then
        if d.spos + 1 = sramLap then
          { s with dramc := { d with spos := 0, sstart := s.clock.lfclk, sover := false, slaps := satInc 32 d.slaps
                                     slapTime := BitVec.ofNat 32 ((s.clock.lfclk - d.sstart) * 1000000 / 32768) } }
        else { s with dramc := { d with spos := d.spos + 1 } }
      else if d.dpos + 1 = ddrLap then
        { s with dramc := { d with dpos := 0, dstart := s.clock.lfclk, dover := false, dlaps := satInc 32 d.dlaps
                                   dlapTime := BitVec.ofNat 32 ((s.clock.lfclk - d.dstart) / 32768) } }
      else { s with dramc := { d with dpos := d.dpos + 1 } }
    match find with
    | .clean => s
    | .correctable hard => (logEcc sram place.1 place.2 syn false hard 2 s).raiseAt (if sram then (if hard then 33 else 32) else (if hard then 17 else 16)) ⟨0, 0⟩ (put32 0 syn) (BitVec.ofNat 64 place.2)
    | .uncorrectable => (markBad sram place.1 place.2 (logEcc sram place.1 place.2 syn true false 2 s)).raiseAt (if sram then 35 else 19) ⟨0, 0⟩ (put32 0 syn) (BitVec.ofNat 64 place.2)

/-- A lap reaches its programmed maximum: its source, once per lap (R437). -/
def lapOverrun (sram : Bool) (s : State) : State :=
  if scrubbing s = false then s
  else if sram then if s.dramc.sover then s else ({ s with dramc := { s.dramc with sover := true } }).raise 37
  else if s.dramc.dover then s else ({ s with dramc := { s.dramc with dover := true } }).raise 24

/-- The laps in progress are abandoned (R437). -/
def abandonLaps (s : State) : State :=
  { s with dramc := { s.dramc with dpos := 0, spos := 0, dstart := s.clock.lfclk, sstart := s.clock.lfclk, dover := false, sover := false } }

/-- A warm reset or a stronger one: lap times and counters clear (R437); the copies in progress end. -/
def dramcReset (s : State) : State :=
  let s := abandonLaps s
  { s with dramc := { s.dramc with
      dlapTime := 0xFFFFFFFF, slapTime := 0xFFFFFFFF, dlaps := 0, slaps := 0, rmapRun := none, spareRun := none
      rmapDone := false, spareDone := false, rmapRes := 0, spareRes := 0, badWords := [] } }

end Sys2Proof.Machine
end

