-- ==== Sys2Proof/Machine/Codec.lean ====
section
/-! DEFINITION. Byte layouts of key records, deltas, journal records, manifests, and the readers of the same layouts (06_object_key_table.md, R180; 08_manifests_and_custody_journal.md, R253 to R263; 09_vault_kiln_lifecycle.md, R307). -/

namespace Sys2Proof.Machine

/-- A byte list padded with zeros to a length. -/
def padTo (n : Nat) (l : List Byte) : List Byte := l ++ List.replicate (n - l.length) 0
/-- A byte list padded with zeros to a multiple of 8. -/
def pad8 (l : List Byte) : List Byte := padTo ((l.length + 7) / 8 * 8) l
/-- `n` bytes at an offset. -/
def slice (l : List Byte) (off n : Nat) : List Byte := (l.drop off).take n
/-- A little-endian field. -/
def fieldOf (l : List Byte) (off n : Nat) : Nat := leNat (slice l off n)

/-- One bit step of the CRC-8 of R272: polynomial 0x2F, not reflected. -/
def crc8Bit (c : Byte) : Byte := if c.getLsbD 7 then (c <<< 1) ^^^ 0x2F else c <<< 1
/-- One byte. -/
def crc8Byte (c b : Byte) : Byte := crc8Bit (crc8Bit (crc8Bit (crc8Bit (crc8Bit (crc8Bit (crc8Bit (crc8Bit (c ^^^ b))))))))
/-- CRC-8 with initial value and final XOR 0xFF. -/
def crc8 (bs : List Byte) : Byte := bs.foldl crc8Byte 0xFF ^^^ 0xFF
/-- Key state codes (R180). -/
def KeyState.toNat : KeyState → Nat
  | .empty => 0
  | .active => 1
  | .decryptOnly => 2
  | .retained => 3
  | .shredded => 4
/-- The state a code names. -/
def keyStateOf : Nat → KeyState
  | 1 => .active
  | 2 => .decryptOnly
  | 3 => .retained
  | 4 => .shredded
  | _ => .empty

/-- An EMPTY record at a generation. -/
def emptyRecord (gen : Nat) : KeyRecord where
  oid := 0
  dek := 0
  invHwm := 0
  fixed := 0
  state := .empty
  exhausted := false
  pinned := false
  retired := false
  gen := gen
  retainUntil := 0
  policy := 0
  created := 0
  changed := 0
  prevKh := 0
  version := 0
  fresh := false

/-- A record's 128 bytes with the mac field zero (R180). -/
def recordBytes (r : KeyRecord) (dek : Hash) : List Byte :=
  padTo 128 (leBytes 16 r.oid.toNat ++ leBytes 32 dek.toNat ++ leBytes 8 r.invHwm ++ leBytes 4 r.fixed.toNat
    ++ [BitVec.ofNat 8 (KeyState.toNat r.state),
        (if r.exhausted then 1 else 0) ||| (if r.pinned then 2 else 0) ||| (if r.retired then 4 else 0)]
    ++ leBytes 2 r.gen ++ leBytes 8 r.retainUntil.toNat ++ leBytes 4 r.policy.toNat ++ leBytes 4 0
    ++ leBytes 8 r.created.toNat ++ leBytes 8 r.changed.toNat ++ leBytes 4 r.prevKh.toNat)

/-- The record 128 bytes hold. -/
def recordOf (l : List Byte) (dek : Hash) : KeyRecord where
  oid := BitVec.ofNat 128 (fieldOf l 0 16)
  dek := dek
  invHwm := fieldOf l 0x30 8
  fixed := BitVec.ofNat 32 (fieldOf l 0x38 4)
  state := keyStateOf (fieldOf l 0x3C 1)
  exhausted := bitAt (l.getD 0x3D 0) 0
  pinned := bitAt (l.getD 0x3D 0) 1
  retired := bitAt (l.getD 0x3D 0) 2
  gen := fieldOf l 0x3E 2 % 2048
  retainUntil := BitVec.ofNat 64 (fieldOf l 0x40 8)
  policy := BitVec.ofNat 32 (fieldOf l 0x48 4)
  created := BitVec.ofNat 64 (fieldOf l 0x50 8)
  changed := BitVec.ofNat 64 (fieldOf l 0x58 8)
  prevKh := BitVec.ofNat 32 (fieldOf l 0x60 4)
  version := 0
  fresh := false

/-- A 64-byte segment entry (R263). -/
def segmentBytes (g : Segment) (firstChunk : Nat) : List Byte :=
  padTo 64 (leBytes 4 g.index.toNat ++ leBytes 4 g.kh.toNat ++ leBytes 8 g.length.toNat ++ leBytes 8 g.iv.toNat ++ leBytes 4 g.fixed.toNat
    ++ leBytes 4 firstChunk ++ leBytes 16 g.tag.toNat ++ leBytes 8 g.time.toNat ++ leBytes 2 g.chunks.length)
/-- Chunk hashes, 32 bytes each. -/
def chunkBytes (cs : List Hash) : List Byte := cs.flatMap (fun h => leBytes 32 h.toNat)
/-- The hashes a byte string holds. -/
def chunksOf (l : List Byte) : Nat → List Hash
  | 0 => []
  | n + 1 => BitVec.ofNat 256 (fieldOf l 0 32) :: chunksOf (l.drop 32) n
/-- The segment 64 bytes and its hashes hold. -/
def segmentOf (l : List Byte) (hashes : List Byte) : Segment where
  index := BitVec.ofNat 32 (fieldOf l 0 4)
  kh := BitVec.ofNat 32 (fieldOf l 4 4)
  length := BitVec.ofNat 64 (fieldOf l 8 8)
  iv := BitVec.ofNat 64 (fieldOf l 0x10 8)
  fixed := BitVec.ofNat 32 (fieldOf l 0x18 4)
  tag := BitVec.ofNat 128 (fieldOf l 0x20 16)
  time := BitVec.ofNat 64 (fieldOf l 0x30 8)
  chunks := chunksOf hashes (fieldOf l 0x38 2)

/-- The 56 data bytes of a CUSTODY delta (R307). -/
def custodyBytes (d : CustodyDelta) : List Byte :=
  leBytes 2 d.subkind ++ leBytes 1 d.cls ++ [0] ++ leBytes 2 d.grant.toNat ++ leBytes 2 0 ++ leBytes 8 d.old.toNat ++ leBytes 8 d.new.toNat
    ++ leBytes 32 d.ref.toNat
/-- The CUSTODY delta 56 bytes hold. -/
def custodyOf (l : List Byte) : CustodyDelta :=
  ⟨fieldOf l 0 2, fieldOf l 2 1, BitVec.ofNat 16 (fieldOf l 4 2), BitVec.ofNat 64 (fieldOf l 8 8), BitVec.ofNat 64 (fieldOf l 0x10 8),
   BitVec.ofNat 256 (fieldOf l 0x18 32)⟩

/-- A DEK wrapped by AES-KW under the journal key, 40 bytes (R257). -/
def wrappedDek (jk dek : Hash) : List Byte := padTo 40 ((Config.kwWrap jk (leBytes 32 dek.toNat)).take 40)

/-- Kind, target and data of a delta (R257). DEKs travel wrapped under the journal key. -/
def deltaParts (jk : Hash) : Delta → Nat × Nat × List Byte
  | .key i r => (1, i, recordBytes r 0 ++ wrappedDek jk r.dek)
  | .stage oid g => (2, 0, leBytes 16 oid.toNat ++ segmentBytes g 0 ++ chunkBytes g.chunks)
  | .unstage oid i => (3, 0, leBytes 16 oid.toNat ++ leBytes 4 i.toNat ++ leBytes 4 0)
  | .manifest oid v r o segs => (4, 0, leBytes 16 oid.toNat ++ leBytes 8 v.toNat ++ leBytes 8 r.toNat ++ leBytes 8 o.toNat
      ++ leBytes 4 segs.length ++ leBytes 4 0 ++ segs.flatMap (fun w => leBytes 4 w.toNat))
  | .custody d => (5, 0, custodyBytes d)
  | .shelf v => (6, 0, leBytes 4 v.toNat ++ leBytes 4 0)
/-- A delta's bytes. -/
def deltaBytes (jk : Hash) (d : Delta) : List Byte :=
  let p := deltaParts jk d
  let data := pad8 p.2.2
  leBytes 2 p.1 ++ leBytes 2 (data.length + 8) ++ leBytes 4 p.2.1 ++ data

/-- Four-byte numbers of a byte string. -/
def wordsOf (l : List Byte) : Nat → List Word
  | 0 => []
  | n + 1 => BitVec.ofNat 32 (fieldOf l 0 4) :: wordsOf (l.drop 4) n

/-- The delta whose kind, target and data are given; none for an unknown kind or a DEK that does not unwrap. -/
def deltaOf (jk : Hash) (kind target : Nat) (l : List Byte) : Option Delta :=
  match kind with
  | 1 => (Config.kwUnwrap jk (slice l 128 40)).map (fun dek => .key target (recordOf l (BitVec.ofNat 256 (leNat dek))))
  | 2 => some (.stage (BitVec.ofNat 128 (fieldOf l 0 16)) (segmentOf (l.drop 16) (l.drop 80)))
  | 3 => some (.unstage (BitVec.ofNat 128 (fieldOf l 0 16)) (BitVec.ofNat 32 (fieldOf l 16 4)))
  | 4 => some (.manifest (BitVec.ofNat 128 (fieldOf l 0 16)) (BitVec.ofNat 64 (fieldOf l 16 8)) (BitVec.ofNat 64 (fieldOf l 24 8))
      (BitVec.ofNat 64 (fieldOf l 32 8)) (wordsOf (l.drop 48) (fieldOf l 40 4)))
  | 5 => some (.custody (custodyOf l))
  | 6 => some (.shelf (BitVec.ofNat 32 (fieldOf l 0 4)))
  | _ => none

/-- The deltas a byte string holds, at most `n`. -/
def deltasOf (jk : Hash) : Nat → List Byte → Option (List Delta)
  | 0, _ => some []
  | n + 1, l =>
    match deltaOf jk (fieldOf l 0 2) (fieldOf l 4 4) (slice l 8 (fieldOf l 2 2 - 8)), deltasOf jk n (l.drop (fieldOf l 2 2)) with
    | some d, some ds => some (d :: ds)
    | _, _ => none

/-- A queue slot word of a queue checkpoint (R256). -/
def slotNat (q : QSlot) : Nat :=
  q.seq.toNat + q.tag.toNat * 2 ^ 32 + (if q.vExists then 2 ^ 48 else 0) + (if q.qExists then 2 ^ 49 else 0)
/-- The slot a word holds. -/
def slotOf (n : Nat) : QSlot := ⟨BitVec.ofNat 32 n, BitVec.ofNat 16 (n / 2 ^ 32), n / 2 ^ 48 % 2 == 1, n / 2 ^ 49 % 2 == 1⟩

/-- Type code and body bytes of a record (R256, R257, R259, R543). -/
def bodyBytes (jk : Hash) : JBody → Nat × List Byte
  | .genesis ser tag => (1, leBytes 16 ser.toNat ++ leBytes 4 tag.toNat ++ leBytes 4 0)
  | .accept seq tag op o ring => (2, leBytes 4 seq.toNat ++ leBytes 2 tag.toNat ++ leBytes 2 op.toNat ++ leBytes 1 o ++ leBytes 1 ring ++ leBytes 6 0)
  | .complete seq tag op st res ds => (3, leBytes 4 seq.toNat ++ leBytes 2 tag.toNat ++ leBytes 2 op.toNat ++ leBytes 2 st.toNat
      ++ leBytes 2 ds.length ++ leBytes 4 0 ++ leBytes 16 res.toNat ++ ds.flatMap (deltaBytes jk))
  | .posted ms => (4, leBytes 2 ms.length ++ leBytes 6 0 ++ ms.flatMap (fun m => leBytes 4 m.1.toNat ++ leBytes 2 m.2.toNat ++ leBytes 2 0))
  | .reserve kh h => (5, leBytes 4 kh.toNat ++ leBytes 4 0 ++ leBytes 8 h)
  | .checkpoint ch pr ser tag sg => (6, leBytes 8 0 ++ leBytes 32 ch.toNat ++ leBytes 8 pr.toNat ++ leBytes 16 ser.toNat ++ leBytes 4 tag.toNat
      ++ leBytes 2 96 ++ leBytes 2 4627 ++ padTo 4728 sg)
  | .queueCkpt k t sl => (7, leBytes 1 k ++ leBytes 7 0 ++ leBytes 8 t.toNat ++ sl.flatMap (fun q => leBytes 8 (slotNat q)))
  | .image n k f l d => (8, leBytes 8 n.toNat ++ leBytes 1 k ++ leBytes 7 0 ++ leBytes 8 f.toNat ++ leBytes 8 l.toNat ++ leBytes 32 d.toNat)
  | .secured n h => (9, leBytes 8 n.toNat ++ leBytes 8 h.toNat)
  | .boundary c sr seq tag => (10, leBytes 1 c ++ leBytes 1 sr ++ leBytes 2 0 ++ leBytes 4 seq.toNat ++ leBytes 2 tag.toNat ++ leBytes 6 0)
  | .recover l j o sk => (11, leBytes 8 l.toNat ++ leBytes 8 j.toNat ++ leBytes 1 o ++ leBytes 1 (if sk then 1 else 0) ++ leBytes 6 0)
  | .brk g ch n => (12, leBytes 8 g.toNat ++ leBytes 32 ch.toNat ++ leBytes 8 n)
  | .role e n o k => (13, leBytes 8 e.toNat ++ leBytes 16 n.toNat ++ leBytes 16 o.toNat ++ leBytes 1 k ++ leBytes 7 0)

/-- The body a type code and bytes hold. -/
def bodyOf (jk : Hash) (ty : Nat) (l : List Byte) : Option JBody :=
  let f := fieldOf l
  match ty with
  | 1 => some (.genesis (BitVec.ofNat 128 (f 0 16)) (BitVec.ofNat 21 (f 16 4)))
  | 2 => some (.accept (BitVec.ofNat 32 (f 0 4)) (BitVec.ofNat 16 (f 4 2)) (BitVec.ofNat 16 (f 6 2)) (f 8 1) (f 9 1))
  | 3 => (deltasOf jk (f 10 2) (l.drop 32)).map (fun ds =>
      .complete (BitVec.ofNat 32 (f 0 4)) (BitVec.ofNat 16 (f 4 2)) (BitVec.ofNat 16 (f 6 2)) (BitVec.ofNat 16 (f 8 2)) (BitVec.ofNat 128 (f 16 16)) ds)
  | 4 => some (.posted ((List.range (f 0 2)).map (fun i => (BitVec.ofNat 32 (f (8 + 8 * i) 4), BitVec.ofNat 16 (f (12 + 8 * i) 2)))))
  | 5 => some (.reserve (BitVec.ofNat 32 (f 0 4)) (f 8 8))
  | 6 => some (.checkpoint (BitVec.ofNat 256 (f 8 32)) (BitVec.ofNat 64 (f 40 8)) (BitVec.ofNat 128 (f 48 16)) (BitVec.ofNat 21 (f 64 4)) (slice l 72 4723))
  | 7 => some (.queueCkpt (f 0 1) (BitVec.ofNat 64 (f 8 8)) ((List.range 128).map (fun i => slotOf (f (16 + 8 * i) 8))))
  | 8 => some (.image (BitVec.ofNat 64 (f 0 8)) (f 8 1) (BitVec.ofNat 64 (f 16 8)) (BitVec.ofNat 64 (f 24 8)) (BitVec.ofNat 256 (f 32 32)))
  | 9 => some (.secured (BitVec.ofNat 64 (f 0 8)) (BitVec.ofNat 64 (f 8 8)))
  | 10 => some (.boundary (f 0 1) (f 1 1) (BitVec.ofNat 32 (f 4 4)) (BitVec.ofNat 16 (f 8 2)))
  | 11 => some (.recover (BitVec.ofNat 64 (f 0 8)) (BitVec.ofNat 64 (f 8 8)) (f 16 1) (f 17 1 == 1))
  | 12 => some (.brk (BitVec.ofNat 64 (f 0 8)) (BitVec.ofNat 256 (f 8 32)) (f 40 8))
  | 13 => some (.role (BitVec.ofNat 64 (f 0 8)) (BitVec.ofNat 128 (f 8 16)) (BitVec.ofNat 128 (f 24 16)) (f 40 1))
  | _ => none

/-- A whole record with rflags bit 0 as given (R253). CHECKPOINT's covered record is the one before it (R259). -/
def recordBytesOf (jk : Hash) (mirrored : Bool) (r : JRecord) : List Byte :=
  let b := bodyBytes jk r.body
  let body := match r.body with
    | .checkpoint .. => leBytes 8 (r.number - 1) ++ b.2.drop 8
    | _ => b.2
  let body := pad8 body
  leBytes 4 (24 + body.length) ++ [BitVec.ofNat 8 b.1, if mirrored then 1 else 0] ++ leBytes 2 r.source.toNat ++ leBytes 8 r.number
    ++ leBytes 8 r.time.toNat ++ body

/-- The record a byte string starts with, and its length. -/
def jrecordOf (jk : Hash) (l : List Byte) : Option (JRecord × Nat) :=
  let len := fieldOf l 0 4
  if len % 8 ≠ 0 ∨ len < 32 ∨ 65536 < len ∨ l.length < len then none
  else (bodyOf jk (fieldOf l 4 1) (slice l 24 (len - 24))).map (fun b =>
    (⟨bitAt (l.getD 5 0) 0, BitVec.ofNat 16 (fieldOf l 6 2), fieldOf l 8 8, BitVec.ofNat 64 (fieldOf l 16 8), b, 0⟩, len))

/-- Whole records read one after another, at most `fuel`. -/
def jrecordsOf (jk : Hash) : Nat → List Byte → Option (List JRecord)
  | 0, l => if l.isEmpty then some [] else none
  | fuel + 1, l =>
    if l.isEmpty then some []
    else match jrecordOf jk l with
      | none => none
      | some (r, n) => (jrecordsOf jk fuel (l.drop n)).map (r :: ·)

/-- Length of a record in bytes: the header and the body its type gives (R253, R256). -/
def recordLen (r : JRecord) : Nat := (recordBytesOf 0 false r).length

/-! ### Manifests (R263) -/

/-- Segment entries with running first-chunk numbers. -/
def segmentEntries : Nat → List Segment → List Byte
  | _, [] => []
  | n, g :: gs => segmentBytes g n ++ segmentEntries (n + g.chunks.length) gs
/-- Object length: the sum of segment lengths. -/
def objectLength (gs : List Segment) : Nat := gs.foldl (fun a g => a + g.length.toNat) 0
/-- A stored manifest, header, entries and hashes (R263). -/
def manifestBytes (m : Manifest) : List Byte :=
  let entries := segmentEntries 0 m.segs
  let hashes := m.segs.flatMap (fun g => chunkBytes g.chunks)
  padTo 128 (leBytes 16 m.oid.toNat ++ leBytes 8 m.version ++ leBytes 8 (objectLength m.segs) ++ leBytes 4 m.segs.length
    ++ leBytes 4 (m.segs.foldl (fun a g => a + g.chunks.length) 0) ++ leBytes 8 m.retainUntil.toNat ++ leBytes 8 m.owner.toNat
    ++ leBytes 8 m.first.toNat ++ leBytes 8 m.last.toNat ++ leBytes 8 m.record ++ leBytes 32 (Config.sha3 (entries ++ hashes)).toNat)
    ++ entries ++ hashes

/-- Segments read from `n` entries and the hashes after them. -/
def segmentsOf (entries hashes : List Byte) : Nat → List Segment
  | 0 => []
  | n + 1 =>
    let g := segmentOf entries hashes
    g :: segmentsOf (entries.drop 64) (hashes.drop (32 * g.chunks.length)) n
/-- The manifest a byte string starts with, and its length. -/
def manifestOf (l : List Byte) : Manifest × Nat :=
  let n := fieldOf l 0x20 4
  ({ oid := BitVec.ofNat 128 (fieldOf l 0 16), version := fieldOf l 0x10 8, retainUntil := BitVec.ofNat 64 (fieldOf l 0x28 8),
     owner := BitVec.ofNat 64 (fieldOf l 0x30 8), first := BitVec.ofNat 64 (fieldOf l 0x38 8), last := BitVec.ofNat 64 (fieldOf l 0x40 8),
     record := fieldOf l 0x48 8, segs := segmentsOf (l.drop 128) (l.drop (128 + 64 * n)) n },
   128 + 64 * n + 32 * fieldOf l 0x24 4)

/-- Insert or replace a segment by index, ascending (R263, R266). -/
def putSegment (g : Segment) : List Segment → List Segment
  | [] => [g]
  | h :: t => if g.index.toNat < h.index.toNat then g :: h :: t else if g.index = h.index then g :: t else h :: putSegment g t

end Sys2Proof.Machine
end

