-- ==== Sys2Proof/Machine/Ktab.lean ====
section
/-! DEFINITION. The key table unit: records, the OID index, the key cache, draws and allocation (06_object_key_table.md). -/

namespace Sys2Proof.Machine

/-- Index of a key handle, KH[20:0]. -/
def khIndex (kh : Word) : Nat := fieldAt kh 20 0
/-- Generation of a key handle, KH[31:21]. -/
def khGen (kh : Word) : Nat := fieldAt kh 31 21
/-- The key handle of an index and generation (R178). -/
def khOf (index gen : Nat) : Word := put32 0 (index + gen * 2 ^ 21)

/-- Offset of a level in the counter-tree region (R193). -/
def levelOffset : Nat → Nat
  | 1 => 0
  | 2 => 0x1000000
  | 3 => 0x1200000
  | 4 => 0x1240000
  | 5 => 0x1248000
  | 6 => 0x1249000
  | 7 => 0x1249200
  | 9 => 0x1250000
  | 10 => 0x1450000
  | 11 => 0x1490000
  | 12 => 0x1498000
  | 13 => 0x1499000
  | _ => 0x1499200

namespace Ktab

/-- The record at an index; an unlisted one is EMPTY at generation 0 (R210). -/
def record (k : Ktab) (i : Nat) : KeyRecord := (assocGet i k.records).getD (emptyRecord 0)

/-- KTAB result 0, 1 or 4 for a key handle: usable, stale or EMPTY (R179), quarantined (R211). -/
def khResult (k : Ktab) (kh : Word) : Nat :=
  let r := k.record (khIndex kh)
  if k.quarantine.contains (khIndex kh) then 4
  else if khGen kh = 0 ∨ khGen kh ≠ r.gen ∨ r.state = .empty then 1
  else 0

/-! ### The counter tree (R192 to R194) -/

/-- Code of an index bucket, as R211 reports it. -/
def bucketCode (b : Nat) : Nat := 2 ^ 31 + b
/-- Code of a tree node: levels 1 to 7 are R1 to R7, levels 9 to 14 are I1 to I6. -/
def nodeCode (level n : Nat) : Nat := level * 2 ^ 32 + n
/-- The nodes above a record, R1 to R7 (R193). -/
def recordPath (i : Nat) : List Nat := (List.range 7).map (fun l => nodeCode (l + 1) (i / 8 ^ (l + 1)))
/-- The nodes above a bucket, I1 to I6 (R193). -/
def bucketPath (b : Nat) : List Nat := (List.range 6).map (fun l => nodeCode (l + 9) (b / 8 ^ (l + 1)))
/-- The version of a node or bucket: the counter its parent holds of it (R192). -/
def versionOf (k : Ktab) (c : Nat) : Nat :=
  if c = nodeCode 7 0 then k.root.1 else if c = nodeCode 14 0 then k.root.2 else (assocGet c k.nodes).getD 0
/-- Each of a path's objects is written anew: its version rises by one, and what its lines held is replaced (R183, R434). -/
def writePath (k : Ktab) (cs : List Nat) : Ktab :=
  { k with
    nodes := cs.foldl (fun l c => if c = nodeCode 7 0 ∨ c = nodeCode 14 0 then l else assocSet c ((assocGet c l).getD 0 + 1) l) k.nodes
    spoilt := k.spoilt.filter (fun c => !cs.contains c) }

/-- Write a record: its version and those of the nodes on its path up to the root counter rise (R182, R183); an entry of a record without a key leaves the cache (R186, R198). -/
def putRecord (k : Ktab) (i : Nat) (r : KeyRecord) : Ktab :=
  let k := k.writePath (recordPath i)
  { k with
    records := assocSet i { r with version := (k.record i).version + 1 } k.records
    root := (k.root.1 + 1, k.root.2)
    spoilt := k.spoilt.filter (· != i)
    cache := if r.state = .shredded ∨ r.state = .empty then k.cache.filter (fun e => e.index != i) else k.cache }

/-! ### OID index (R189 to R191) -/

/-- First bucket, second bucket and fingerprint of an OID under the index key. -/
def oidPlace (ik : Hash) (oid : Oid) : Nat × Nat × Nat :=
  let h := Config.oidHash ik oid
  let fp := fieldAt h 46 36
  (fieldAt h 17 0, fieldAt h 35 18, if fp = 0x7FF then 0x7FE else fp)

/-- Occupied slots of a bucket, by rising slot number. -/
def bucket (k : Ktab) (b : Nat) : List (Nat × Nat × Nat) := (assocGet b k.buckets).getD []

/-- FIND: matching fingerprints in b1 then b2 whose record holds the OID, then the stash (R191). -/
def find (k : Ktab) (ik : Hash) (oid : Oid) : Option Nat :=
  let (b1, b2, fp) := oidPlace ik oid
  match (k.bucket b1 ++ k.bucket b2).find? (fun t => t.2.1 == fp && (k.record t.2.2).oid == oid) with
  | some t => some t.2.2
  | none => (k.stash.find? (fun p => p.1 == oid)).map (·.2)

/-- The lowest free slot of a bucket. -/
def freeSlot (l : List (Nat × Nat × Nat)) : Nat := ((List.range 14).find? (fun i => !(l.any (fun t => t.1 == i)))).getD 14

/-- Is there room for a new OID in either bucket or the stash (R190)? -/
def indexRoom (k : Ktab) (ik : Hash) (oid : Oid) : Bool :=
  let (b1, b2, _) := oidPlace ik oid
  decide ((k.bucket b1).length < 14) || decide ((k.bucket b2).length < 14) || decide (k.stash.length < 256)

/-- Write buckets: each with the nodes on its path up to the root counter (R189, R192). -/
def touchBuckets (k : Ktab) (bs : List Nat) : Ktab :=
  bs.foldl (fun k b => { k.writePath (bucketCode b :: bucketPath b) with root := (k.root.1, k.root.2 + 1) }) k
/-- The buckets that name a record. -/
def bucketsOf (k : Ktab) (i : Nat) : List Nat := (k.buckets.filter (fun b => b.2.any (fun t => t.2.2 == i))).map (·.1)

/-- Insert an OID: the emptier bucket, b1 on a tie, else the stash (R190). -/
def indexInsert (k : Ktab) (ik : Hash) (oid : Oid) (i : Nat) : Ktab :=
  let (b1, b2, fp) := oidPlace ik oid
  let put (b : Nat) : Ktab :=
    let l := k.bucket b
    { k.touchBuckets [b] with buckets := assocSet b (assocSet (freeSlot l) (fp, i) l) k.buckets }
  if (k.bucket b1).length < 14 ∧ (k.bucket b1).length ≤ (k.bucket b2).length then put b1
  else if (k.bucket b2).length < 14 then put b2
  else { k with stash := k.stash ++ [(oid, i)] }

/-- Move the index entry that names one record to another. -/
def indexMove (k : Ktab) (src dst : Nat) : Ktab :=
  { k.touchBuckets (k.bucketsOf src) with
    buckets := k.buckets.map (fun b => (b.1, b.2.map (fun t => if t.2.2 = src then (t.1, t.2.1, dst) else t)))
    stash := k.stash.map (fun p => if p.2 = src then (p.1, dst) else p) }

/-- Remove the index entry that names a record. -/
def indexRemove (k : Ktab) (i : Nat) : Ktab :=
  { k.touchBuckets (k.bucketsOf i) with
    buckets := (k.buckets.map (fun b => (b.1, b.2.filter (fun t => t.2.2 != i)))).filter (fun b => !b.2.isEmpty)
    stash := k.stash.filter (fun p => p.2 != i) }

/-- Carry a KEY delta out: the record first, then the index entry it implies (R184, R198). -/
def applyKey (k : Ktab) (ik : Hash) (i : Nat) (r : KeyRecord) : Ktab :=
  let old := k.record i
  let k' := k.putRecord i r
  if r.state = .empty then k'.indexRemove i
  else if old.state = .empty ∨ old.gen ≠ r.gen then
    match k.find ik r.oid with
    | some j => if r.prevKh ≠ 0 ∧ khIndex r.prevKh = j then k'.indexMove j i else k'
    | none => k'.indexInsert ik r.oid i
  else k'

/-! ### Key cache (R195 to R197) -/

/-- Entries in the set and bank of an index. -/
def setOf (k : Ktab) (i : Nat) : List CacheEntry := k.cache.filter (fun e => e.index % 4096 == i % 4096)
/-- The cache entry of an index. -/
def entry (k : Ktab) (i : Nat) : Option CacheEntry := k.cache.find? (fun e => e.index == i && e.gen == (k.record i).gen)
/-- Change the entry of an index. -/
def mapEntry (k : Ktab) (i : Nat) (f : CacheEntry → CacheEntry) : Ktab :=
  { k with cache := k.cache.map (fun e => if e.index = i then f e else e) }
/-- The least recently used entry of a set that is neither pinned nor named by a LOAD in progress (R196, R197). -/
def victim (l : List CacheEntry) : Option CacheEntry :=
  l.foldl (fun a e => if e.pinned || e.held then a else match a with | none => some e | some b => if e.stamp < b.stamp then some e else a) none

/-- Fill the entry of an index: a hit refreshes its LRU stamp; a miss replaces the least recently used way that may go, with next at inv_hwm and the record's pin flag (R196, R198, R205). -/
def fill (k : Ktab) (i : Nat) : Ktab :=
  let k := { k with lru := k.lru + 1 }
  match k.entry i with
  | some _ => { k.mapEntry i (fun e => { e with stamp := k.lru }) with hit := true, hits := satInc 32 k.hits }
  | none =>
    let ways := (k.setOf i).filter (fun e => e.index != i)
    let rest := k.cache.filter (fun e => e.index != i)
    let k := { k with hit := false, misses := satInc 32 k.misses }
    let new : CacheEntry := ⟨i, (k.record i).gen, (k.record i).invHwm, (k.record i).pinned, k.lru, false⟩
    if ways.length < 8 then { k with cache := new :: rest }
    else match victim ways with
      | some v => { k with cache := new :: rest.filter (fun e => e.index != v.index) }
      | none => k

/-- Pinned entries in use. -/
def pins (k : Ktab) : Nat := (k.cache.filter (·.pinned)).length
/-- Would a pin of an index pass a limit (R197)? -/
def pinRoom (k : Ktab) (i : Nat) : Bool :=
  match k.entry i with
  | some e => e.pinned || (decide (k.pins < 4096) && decide (((k.setOf i).filter (·.pinned)).length < 6))
  | none => decide (k.pins < 4096) && decide (((k.setOf i).filter (·.pinned)).length < 6)

/-- Set or clear a pin: rflags.pinned and the entry (R197, R198). -/
def setPin (k : Ktab) (i : Nat) (p : Bool) : Ktab :=
  (k.putRecord i { k.record i with pinned := p }).mapEntry i (fun e => { e with pinned := p })

/-- The key cache emptied (R201): every next value is lost. The node cache goes with it. DESIGN CHOICE (log 124) -/
def emptyCache (k : Ktab) : Ktab := { k with cache := [], unbound := [], nodeCache := [] }
/-- Refill the pinned entries in index order (R197). -/
def refillPins (k : Ktab) : Ktab := k.records.foldl (fun k p => if p.2.pinned then k.fill p.1 else k) k
/-- Draws begin again in blocks reserved from now on: every next value moves to its record's inv_hwm (R207). -/
def skipBlocks (k : Ktab) : Ktab := { k with unbound := [], cache := k.cache.map (fun e => { e with next := max e.next (k.record e.index).invHwm }) }
/-- An entry that a LOAD names is held against replacement, and freed when no LOAD in progress names it (R196). -/
def holdEntries (k : Ktab) (named : List Nat) : Ktab := { k with cache := k.cache.map (fun e => { e with held := named.contains e.index }) }

/-! ### Draws (R203 to R209) -/

/-- Is a record held under the no-history rule, or frozen out of new blocks (R208, R209)? -/
def held (k : Ktab) (r : KeyRecord) : Bool := k.hold && !r.fresh

/-- A key whose last value has gone: DECRYPT_ONLY with rflags.exhausted (R184, R203, R207). -/
def exhaust (r : KeyRecord) (now : DWord) : KeyRecord :=
  { r with state := if r.state = .active then .decryptOnly else r.state, exhausted := true, changed := if r.state = .active then now else r.changed }

/-- The draw itself, on a record that has been fetched: the KTAB result, and the table after it. A drawn 2^48 − 2 exhausts the key (R203, R215). -/
def drawNext (k : Ktab) (enabled : Bool) (now : DWord) (kh : Word) : Nat × Ktab :=
  let i := khIndex kh
  if enabled = false then (9, k)
  else if k.khResult kh ≠ 0 then (k.khResult kh, k)
  else
    let r := k.record i
    if r.state ≠ .active then (if r.exhausted then 7 else 10, k)
    else if k.held r then (9, k)
    else match k.entry i with
      | none => (8, k)
      | some e =>
        if r.invHwm ≤ e.next then (8, k)
        else
          let k := { k.mapEntry i (fun e => { e with next := e.next + 1 }) with
            draw := e.next, unbound := k.unbound ++ [(kh, e.next)] }
          (0, if e.next = 2 ^ 48 - 2 then k.putRecord i (exhaust r now) else k)

/-- Raise a record's high-water mark to what a RESERVE record states (R204). -/
def raiseHwm (k : Ktab) (i h : Nat) : Ktab :=
  let r := k.record i
  if h ≤ r.invHwm then k else k.putRecord i { r with invHwm := h }
/-- A reserved block becomes usable; past a lost one, draws go on in the new block. -/
def openBlock (k : Ktab) (i h : Nat) : Ktab :=
  let k := k.raiseHwm i h
  match assocGet i k.lostBlocks with
  | none => k
  | some l => { k.mapEntry i (fun e => { e with next := max e.next l }) with lostBlocks := k.lostBlocks.filter (fun p => p.1 != i) }
/-- Skip a record's high-water mark ahead; carried past 2^48 − 1 it leaves the key exhausted (R207). -/
def skipHwm (k : Ktab) (now : DWord) (i n : Nat) : Ktab :=
  let r := k.record i
  let h := r.invHwm + n
  if 2 ^ 48 ≤ h then k.putRecord i { exhaust r now with invHwm := 2 ^ 48 } else k.putRecord i { r with invHwm := h }

/-! ### Verification (R191, R194, R211, R212) -/

/-- What a fill reads, bottom-up: the record, then the nodes of its path below the first one in the node cache (R194). -/
def fillReads (k : Ktab) (i : Nat) : List Nat := i :: (recordPath i).takeWhile (fun c => !k.nodeCache.contains c)
/-- The objects a FIND reads for a bucket. -/
def bucketReads (k : Ktab) (b : Nat) : List Nat := bucketCode b :: (bucketPath b).takeWhile (fun c => !k.nodeCache.contains c)
/-- The first object of a list that fails, and whether as uncorrectable; `v` numbers the objects from `off`. -/
def failing (k : Ktab) (reads : List Nat) (v : Verify) (off : Nat) : Option (Nat × Bool) :=
  match reads.find? k.spoilt.contains with
  | some c => some (c, true)
  | none => match v with
    | .ok => none
    | .mismatch j => if j < off then none else (reads[j - off]?).map (fun c => (c, false))
    | .uncorrectable j => if j < off then none else (reads[j - off]?).map (fun c => (c, true))
/-- Verified nodes enter the node cache of 2,048; the newest stay. DESIGN CHOICE (log 124) -/
def keepNodes (k : Ktab) (reads : List Nat) : Ktab := { k with nodeCache := (reads.drop 1 ++ k.nodeCache).take 2048 }
/-- The records under a failing object: the record itself, or all below a node of the record subtree, one more than the quarantine list holds at most (R211). An object of the index has none (log 125). -/
def recordsUnder (c : Nat) : List Nat :=
  if c < 2 ^ 31 then [c]
  else if c < 2 ^ 32 ∨ 8 * 2 ^ 32 ≤ c then []
  else
    let size := 8 ^ (c / 2 ^ 32)
    (List.range (min size 65)).map (fun j => c % 2 ^ 32 * size + j)

/-! ### Allocation (R210) -/

/-- The lowest index with no listed record. -/
def firstUnlisted : Nat → List (Nat × KeyRecord) → Nat
  | n, [] => n
  | n, (i, _) :: t => if n < i then n else firstUnlisted (i + 1) t

/-- Of two candidates, the one EMPTY longer, ties to the lower index. -/
def olderEmpty (a b : Nat × KeyRecord) : Bool :=
  decide (a.2.changed.toNat < b.2.changed.toNat) || (a.2.changed == b.2.changed && decide (a.1 < b.1))

/-- The record allocated next: longest EMPTY first, then never-allocated ones by index; `want` fixes the next generation (R309). -/
def allocate (k : Ktab) (want : Option Nat) : Option (Nat × Nat) :=
  let ok (g : Nat) : Bool := match want with | none => true | some w => g + 1 == w
  let cands := k.records.filter (fun p => p.2.state == .empty && !p.2.retired && decide (p.2.gen < 2047) && ok p.2.gen)
  match cands.foldl (fun a p => match a with | none => some p | some b => if olderEmpty p b then some p else a) none with
  | some p => some (p.1, p.2.gen + 1)
  | none => if ok 0 && decide (firstUnlisted 0 k.records < 2097152) then some (firstUnlisted 0 k.records, 1) else none

/-- Allocatable EMPTY records (KTAB_FREE). -/
def freeCount (k : Ktab) : Nat :=
  2097152 - (k.records.filter (fun p => !(p.2.state == .empty && !p.2.retired))).length
/-- Retired records (KTAB_RETIRED). -/
def retiredCount (k : Ktab) : Nat := (k.records.filter (·.2.retired)).length

/-- The record as it becomes EMPTY, retired at generation 2,047 (R184, R210). -/
def emptied (r : KeyRecord) (now : DWord) : KeyRecord :=
  { emptyRecord r.gen with version := r.version, changed := now, retired := decide (r.gen = 2047) }

end Ktab

/-- The index key in vault slot 6 (R288). -/
def State.indexKey (s : State) : Hash := (s.vault.slots.getD 6 none).getD 0
/-- The journal key in vault slot 2 (R288). -/
def State.journalKey (s : State) : Hash := (s.vault.slots.getD 2 none).getD 0
/-- The record encryption key in vault slot 4 and the record MAC key in slot 5 (R182, R288). -/
def State.recordKey (s : State) : Hash := (s.vault.slots.getD 4 none).getD 0
/-- The record MAC key in vault slot 5. -/
def State.macKey (s : State) : Hash := (s.vault.slots.getD 5 none).getD 0

/-- Put records into the quarantine list of 64; what finds it full raises source 126 (R211, R213). -/
def quarantine (is : List Nat) (s : State) : State :=
  let new := is.filter (fun i => !s.ktab.quarantine.contains i)
  let all := s.ktab.quarantine ++ new
  let s := { s with ktab := { s.ktab with quarantine := all.take 64 } }
  if 64 < all.length then s.raiseAt 126 .ktab 0 0 else s

/-- DDR5 address of an object of the key table or the counter tree. -/
def tableAddress (c : Nat) : Nat :=
  if c < 2 ^ 31 then Config.keyTableBase + 128 * c
  else if c < 2 ^ 32 then Config.treeBase + 0x1800000 + 64 * (c - 2 ^ 31)
  else Config.treeBase + levelOffset (c / 2 ^ 32) + 64 * (c % 2 ^ 32)

/-- An object read by KTAB fails: quarantine, and source 124, or the memory's own source and log (R211, R212, R433). -/
def integrityFailure (c : Nat) (unc : Bool) (s : State) : State :=
  let s := quarantine (Ktab.recordsUnder c) s
  if unc then (logEcc false 0 (tableAddress c) 0 true false 0 s).raiseAt 18 ⟨0, 0⟩ 0 (BitVec.ofNat 64 (tableAddress c))
  else s.raiseAt 124 .ktab (put32 0 c) 0

/-- Fetch the record of a key handle through the key cache: KTAB's result, 0 for a usable handle (R179, R194, R211, R212, R217). -/
def cacheFill (kh : Word) (v : Verify) (s : State) : Nat × State :=
  let i := khIndex kh
  let k := s.ktab
  if k.quarantine.contains i then (4, s)
  else
    let reads := if (k.entry i).isSome then [] else k.fillReads i
    match k.failing reads v 0 with
    | some (c, unc) => (if unc then 3 else 2, integrityFailure c unc s)
    | none =>
      let k := k.keepNodes reads
      let r := k.khResult kh
      (r, { s with ktab := if r = 0 then k.fill i else k })

/-- Fill the records whose fingerprints match, in slot order, until one holds the OID: KTAB's result and the index (R191). -/
def findAmong (oid : Oid) : List Nat → State → (Nat × Nat) × State
  | [], s => ((5, 0), s)
  | j :: t, s =>
    let f := cacheFill (khOf j (s.ktab.record j).gen) .ok s
    if f.1 = 0 then if (f.2.ktab.record j).oid = oid then ((0, j), f.2) else findAmong oid t f.2
    else if f.1 = 1 then findAmong oid t f.2
    else ((f.1, j), f.2)

/-- FIND: both buckets are read and verified, then the matching slots, then the stash (R191, R211): KTAB's result, with the record index, or the code of the bucket that R211 reports. -/
def findOid (oid : Oid) (v : Verify) (s : State) : (Nat × Nat) × State :=
  let k := s.ktab
  let (b1, b2, fp) := Ktab.oidPlace s.indexKey oid
  let r1 := k.bucketReads b1
  let r2 := k.bucketReads b2
  match k.failing r1 v 0 with
  | some (c, unc) => ((if unc then 3 else 2, Ktab.bucketCode b1), integrityFailure c unc s)
  | none => match k.failing r2 v 7 with
    | some (c, unc) => ((if unc then 3 else 2, Ktab.bucketCode b2), integrityFailure c unc s)
    | none =>
      let s := { s with ktab := (k.keepNodes r1).keepNodes r2 }
      let f := findAmong oid (((k.bucket b1 ++ k.bucket b2).filter (fun t => t.2.1 == fp)).map (·.2.2)) s
      if f.1.1 = 5 then match k.stash.find? (fun p => p.1 == oid) with
        | some p => ((0, p.2), f.2)
        | none => f
      else f

end Sys2Proof.Machine
end

