-- ==== Sys2Proof/Machine/KtabStore.lean ====
section
/-! DEFINITION. What DDR5 holds of the key table and of the counter tree: encrypted records, index buckets, tree nodes, each with its MAC (06_object_key_table.md, R180, R182, R189, R192, R193). No command reads these bytes: KTAB alone does. -/

namespace Sys2Proof.Machine

/-- A record MAC, bucket MAC or node MAC: the first 64 bits of AES-256-CMAC. -/
def mac64 (key : Hash) (bs : List Byte) : List Byte := leBytes 8 ((Config.cmac key bs).setWidth 64).toNat

/-- Counter block of a 16-byte block of a record: index, version, 0x4B, block number (R182). -/
def recordCounter (i v b : Nat) : QWord := BitVec.ofNat 128 (leNat (leBytes 4 i ++ leBytes 7 v ++ leBytes 1 0x4B ++ leBytes 4 b))
/-- Bytes +0x00 to +0x77 encrypted by AES-256 in counter mode (R182). -/
def recordCipher (ek : Hash) (i v : Nat) (plain : List Byte) : List Byte :=
  ((plain.take 120).zipIdx).map (fun p => p.1 ^^^ Config.ctrStream ek (recordCounter i v (p.2 / 16)) (p.2 % 16))
/-- A record as it is stored: 120 bytes of ciphertext, then its MAC over index, version and ciphertext (R180, R182). -/
def recordStored (ek mk : Hash) (i : Nat) (r : KeyRecord) : List Byte :=
  let ct := recordCipher ek i r.version (recordBytes r r.dek)
  ct ++ mac64 mk (leBytes 4 i ++ leBytes 7 r.version ++ ct)

/-- The 14 slots of a bucket: record index and fingerprint, 0xFFFF_FFFF where empty (R189). -/
def bucketSlots (l : List (Nat × Nat × Nat)) : List Byte :=
  (List.range 14).flatMap (fun j => match l.find? (fun t => t.1 == j) with
    | some t => leBytes 4 (t.2.2 + t.2.1 * 2 ^ 21)
    | none => leBytes 4 0xFFFFFFFF)
/-- A bucket as it is stored: its slots, then its MAC over bucket number, version and slots (R189). Widths of number and version in the MAC's input: as R182 has them. DESIGN CHOICE (log 123) -/
def bucketStored (mk : Hash) (k : Ktab) (b : Nat) : List Byte :=
  let slots := bucketSlots (k.bucket b)
  slots ++ mac64 mk (leBytes 4 b ++ leBytes 7 (k.versionOf (Ktab.bucketCode b)) ++ slots)

/-- Version of child `j` of a node: a record's, a bucket's, or that of a node of the level below (R192, R193). -/
def childVersion (k : Ktab) (level n j : Nat) : Nat :=
  if level = 1 then (k.record (8 * n + j)).version
  else if level = 9 then k.versionOf (Ktab.bucketCode (8 * n + j))
  else k.versionOf (Ktab.nodeCode (level - 1) (8 * n + j))
/-- A tree node as it is stored: eight 56-bit counters, then its MAC over level, number, counters and its own version (R192). DESIGN CHOICE for the widths of level, number and version (log 123) -/
def nodeStored (mk : Hash) (k : Ktab) (level n : Nat) : List Byte :=
  let counters := (List.range 8).flatMap (fun j => leBytes 7 (childVersion k level n j))
  counters ++ mac64 mk (leBytes 1 level ++ leBytes 4 n ++ counters ++ leBytes 7 (k.versionOf (Ktab.nodeCode level n)))

/-- The 64-byte root: eight 64-bit counters, of which two are in use (R192). -/
def rootBytes (k : Ktab) : List Byte := padTo 64 (leBytes 8 k.root.1 ++ leBytes 8 k.root.2)

/-- Nodes of a level (R193). -/
def levelNodes (level : Nat) : Nat := if level < 8 then 8 ^ (7 - level) else 8 ^ (14 - level)
/-- The level and node that lie at an offset of the counter-tree region (R193). -/
def nodeAt (off : Nat) : Option (Nat × Nat) :=
  match [1, 2, 3, 4, 5, 6, 7, 9, 10, 11, 12, 13, 14].find? (fun l => decide (levelOffset l ≤ off ∧ off < levelOffset l + 64 * levelNodes l)) with
  | some l => some (l, (off - levelOffset l) / 64)
  | none => none

/-- A byte of the 256 MiB key table region. -/
def keyTableByte (s : State) (off : Nat) : Byte :=
  (recordStored s.recordKey s.macKey (off / 128) (s.ktab.record (off / 128))).getD (off % 128) 0
/-- A byte of the 40 MiB counter-tree region: nodes, then the index buckets (R193). -/
def treeByte (s : State) (off : Nat) : Byte :=
  if 0x1800000 ≤ off then (bucketStored s.macKey s.ktab ((off - 0x1800000) / 64)).getD (off % 64) 0
  else match nodeAt off with
    | some (l, n) => (nodeStored s.macKey s.ktab l n).getD (off % 64) 0
    | none => 0

/-- The object of the key table or the counter tree whose line lies at a DDR5 address. -/
def tableObject (a : Nat) : Option Nat :=
  if Config.keyTableBase ≤ a ∧ a < Config.keyTableBase + 2 ^ 28 then some ((a - Config.keyTableBase) / 128)
  else if Config.treeBase ≤ a ∧ a < Config.treeBase + 0x2800000 then
    let off := a - Config.treeBase
    if 0x1800000 ≤ off then some (Ktab.bucketCode ((off - 0x1800000) / 64))
    else (nodeAt off).map (fun p => Ktab.nodeCode p.1 p.2)
  else none
/-- A scrub finds a DDR5 line uncorrectable: KTAB's next read of the object there fails (R212, R433). -/
def spoilLine (a : Nat) (s : State) : State :=
  match tableObject a with
  | some c => { s with ktab := { s.ktab with spoilt := c :: s.ktab.spoilt.filter (· != c) } }
  | none => s

end Sys2Proof.Machine
end

