-- ==== Sys2Proof/Machine/PcieConfig.lean ====
section
/-! DEFINITION. The configuration space of a host port: header, capabilities, their fields (05_host_and_management_ports.md, R150, R151, R153, R159, R165, R168). The spec names the capabilities and what they report; the offsets of the header and the layout of each capability are those of PCIe Base 5.0 (PRESUMED), the place of each capability is this model's (DESIGN CHOICE; log 134). -/

namespace Sys2Proof.Machine

/-! ### Registers: what may be written, and the values before anything is -/

/-- Bits of the AER uncorrectable registers that exist: data link, surprise down, bits 12 to 20, internal error, IDE check. -/
def aerUncorrBits : Word := 0x105FF030
/-- Bits of the AER correctable registers that exist. -/
def aerCorrBits : Word := 0x000071C1

/-- Bits of a configuration register that a write stores. -/
def cfgRw (off : Nat) : Word :=
  match off with
  | 0x04 => 0x00000146
  | 0x0C => 0x000000FF
  | 0x10 => 0xFFFC0000
  | 0x14 => 0xFFFFFFFF
  | 0x3C => 0x000000FF
  | 0x78 => 0x000079FF
  | 0x80 => 0x000001CB
  | 0x98 => 0x0000141F
  | 0xB0 => 0xC0000000
  | 0x108 => aerUncorrBits
  | 0x10C => aerUncorrBits
  | 0x114 => aerCorrBits
  | 0x118 => 0x00000140
  | 0x244 => 0x1FFF1FFF
  | 0x258 => 0xE3FF000F
  | 0x25C => 0x000000FB
  | 0x2AC => 0xFF000001
  | 0x2B8 => 0xFF000001
  | _ => if 0x1D8 ≤ off ∧ off < 0x1F8 then 0x0000FFFF else 0
/-- Bits of a configuration register that a write of 1 clears. -/
def cfgW1c (off : Nat) : Word :=
  match off with
  | 0x04 => 0xF9000000
  | 0x78 => 0x000F0000
  | 0x104 => aerUncorrBits
  | 0x110 => aerCorrBits
  | _ => 0
/-- Reset value of the stored bits: Relaxed Ordering, No Snoop and 512-byte read requests enabled; AER severity and mask. PRESUMED (PCIe Base 5.0) -/
def cfgReset (off : Nat) : Word :=
  match off with
  | 0x78 => 0x00002810
  | 0x10C => 0x00462030
  | 0x114 => 0x00002000
  | _ => 0

/-- The stored bits of a configuration register. -/
def HostPort.cfgWord (h : HostPort) (off : Nat) : Word := (assocGet off h.cfg).getD (cfgReset off)
/-- Replace them. -/
def HostPort.setCfg (h : HostPort) (off : Nat) (v : Word) : HostPort := { h with cfg := assocSet off v h.cfg }

/-! ### Fields that the module acts on -/

/-- Memory Space Enable and Bus Master Enable of the Command register. -/
def HostPort.memEnable (h : HostPort) : Bool := bitAt (h.cfgWord 0x04) 1
/-- Bus Master Enable: without it the port issues no DMA and no message (R160). -/
def HostPort.busMaster (h : HostPort) : Bool := bitAt (h.cfgWord 0x04) 2
/-- MSI-X Enable. -/
def HostPort.msixEnable (h : HostPort) : Bool := bitAt (h.cfgWord 0xB0) 31
/-- MSI-X Function Mask (R105, R159). -/
def HostPort.functionMask (h : HostPort) : Bool := bitAt (h.cfgWord 0xB0) 30
/-- Has the host enabled ASPM L1 in Link Control (R165)? -/
def HostPort.aspmL1 (h : HostPort) : Bool := bitAt (h.cfgWord 0x80) 1
/-- Has the host enabled ASPM L1.2, and L1.1, in the L1 PM Substates capability (R165)? -/
def HostPort.substates (h : HostPort) : Bool × Bool := (bitAt (h.cfgWord 0x258) 2, bitAt (h.cfgWord 0x258) 3)
/-- LTR Mechanism Enable. -/
def HostPort.ltrEnable (h : HostPort) : Bool := bitAt (h.cfgWord 0x98) 10
/-- Enable bit and stream ID of an IDE stream: 0 the link stream, 1 the selective stream (R168). -/
def HostPort.ideControl (h : HostPort) (k : Nat) : Word := h.cfgWord (if k = 0 then 0x2AC else 0x2B8)
/-- The stream ID of an IDE stream. -/
def HostPort.streamId (h : HostPort) (k : Nat) : Nat := fieldAt (h.ideControl k) 31 24

/-- An error seen by a port goes into AER's uncorrectable status and count. -/
def HostPort.aerError (h : HostPort) (bits : Word) : HostPort := { h.setCfg 0x104 (h.cfgWord 0x104 ||| bits) with aerUncorr := satInc 16 h.aerUncorr }

/-! ### Reading -/

/-- An extended capability's header: ID, version 1 or 2, next. -/
def extHeader (id ver next : Nat) : Word := put32 0 id ||| put32 16 ver ||| put32 20 next
/-- Device Serial Number: bits 63:0 of the module's serial; the same on both ports (R151). DEDUCED -/
def deviceSerial (hi : Bool) : Word := if hi then (Config.serial >>> 32).setWidth 32 else Config.serial.setWidth 32

/-- What the header and the capabilities in the first 256 bytes read beside the stored bits (R150, R151). -/
def cfgHeader (p off : Nat) (h : HostPort) (maxSpeed : Nat) (pendingReq : Bool) : Word :=
  match off with
  | 0x00 => 0x80171F4C
  | 0x04 => 0x00100000
  | 0x08 => 0x10800001
  | 0x10 => 0x00000004
  | 0x2C => 0x00001F4C ||| put32 16 p
  | 0x34 => 0x00000040
  | 0x40 => 0x00037001
  | 0x44 => if h.d3hot then 3 else 0
  | 0x70 => 0x0002B010
  | 0x74 => 0x10008022
  | 0x78 => bit32 21 pendingReq
  | 0x7C => put32 0 maxSpeed ||| 0x00000080 ||| 0x00000800 ||| 0x00030000
  | 0x80 => put32 16 (if h.linkUp then h.speed else 0) ||| put32 20 (if h.linkUp then h.width else 0) ||| bit32 28 h.common
  | 0x94 => 0x00030817
  | 0xB0 => 0x007F0011
  | 0xB4 => 0x00002000
  | 0xB8 => 0x00002800
  | _ => 0
/-- What the extended capabilities read beside the stored bits (R150, R151, R165, R168). `secure` tells which IDE streams are Secure. -/
def cfgExtended (off : Nat) (secure : Nat → Bool) : Word :=
  match off with
  | 0x100 => extHeader 0x0001 2 0x150
  | 0x118 => 0x000000A0
  | 0x150 => extHeader 0x0003 1 0x160
  | 0x154 => deviceSerial false
  | 0x158 => deviceSerial true
  | 0x160 => extHeader 0x0019 1 0x190
  | 0x190 => extHeader 0x0025 1 0x1A0
  | 0x1A0 => extHeader 0x0026 1 0x1D0
  | 0x1D0 => extHeader 0x0027 1 0x200
  | 0x200 => extHeader 0x002A 1 0x240
  | 0x240 => extHeader 0x0018 1 0x250
  | 0x250 => extHeader 0x001E 1 0x260
  | 0x254 => 0x0039001F
  | 0x260 => extHeader 0x002E 1 0x2A0
  | 0x2A0 => extHeader 0x0030 1 0
  | 0x2A4 => 0x00000003
  | 0x2B0 => if secure 0 then 2 else 0
  | 0x2BC => if secure 1 then 2 else 0
  | _ => 0

/-! ### Resets (R160, R161, R612) -/

/-- AER's own registers: sticky, not cleared by a function-level or hot reset. PRESUMED (PCIe Base 5.0) -/
def stickyCfg (off : Nat) : Bool := decide (0x104 ≤ off ∧ off ≤ 0x118)
/-- What a function-level reset keeps besides: Max_Payload_Size, Link Control, LTR and the L1 PM Substates. PRESUMED (PCIe Base 5.0) -/
def flrKeeps (off : Nat) : Bool := stickyCfg off || off == 0x80 || off == 0x244 || off == 0x258 || off == 0x25C
/-- The configuration space after a function-level reset. -/
def cfgAfterFlr (h : HostPort) : HostPort :=
  let mps := h.cfgWord 0x78 &&& 0xE0
  { h with cfg := assocSet 0x78 ((cfgReset 0x78 &&& ~~~ 0xE0) ||| mps) (h.cfg.filter (fun r => flrKeeps r.1)) }
/-- The configuration space after a hot reset, or after the link went down. -/
def cfgAfterHot (h : HostPort) : HostPort := { h with cfg := h.cfg.filter (fun r => stickyCfg r.1) }

end Sys2Proof.Machine
end

