-- ==== Sys2Proof/Machine/Flit.lean ====
section
/-! DEFINITION. The partner link's messages as flits: message lengths, the flits that wait for an acknowledgement, the 64-byte form with its CRC-32 (18_castling_pair_operation.md, R523, R527 to R529). -/

namespace Sys2Proof.Machine

/-! ### CRC-32 and the last-active record (R523, R527) -/

/-- One bit step of the CRC-32 of R527: polynomial 0x04C11DB7, reflected. -/
def crc32Bit (c : Word) : Word := if c.getLsbD 0 then (c >>> 1) ^^^ 0xEDB88320 else c >>> 1
/-- One byte. -/
def crc32Byte (c : Word) (b : Byte) : Word :=
  crc32Bit (crc32Bit (crc32Bit (crc32Bit (crc32Bit (crc32Bit (crc32Bit (crc32Bit (c ^^^ b.setWidth 32))))))))
/-- CRC-32 with initial value and final XOR 0xFFFFFFFF (R527). -/
def crc32 (bs : List Byte) : Word := ~~~ (bs.foldl crc32Byte 0xFFFFFFFF)

/-- Role codes (R518). -/
def Role.code : Role → Nat
  | .electing => 0
  | .active => 1
  | .standby => 2
  | .syncing => 3
  | .solo => 4

/-- The 64 bytes of a last-active record, erased flash where there is none (R523). -/
def lastActiveBytes : Option LastActive → List Byte
  | none => List.replicate 64 0xFF
  | some r =>
    let b := leBytes 4 0x4C414354 ++ leBytes 4 r.copySeq ++ leBytes 8 r.epoch ++ leBytes 16 r.serial.toNat ++ leBytes 4 r.pairTag.toNat ++ leBytes 4 0
      ++ leBytes 8 r.roleRec ++ leBytes 8 r.time.toNat ++ leBytes 4 0
    b ++ leBytes 4 (crc32 b).toNat

/-! ### Messages (R529) -/

/-- Type of a message; none for what is no message. -/
def PairOut.type : PairOut → Option Nat
  | .hello _ => some 1
  | .journal _ => some 2
  | .ack _ => some 3
  | .heartbeat .a _ => some 4
  | .heartbeat .b _ => none
  | .control _ => some 5
  | .sync _ => some 6
  | .repair _ _ => some 7
  | .handover _ => some 8
  | .helloProof _ _ _ => some 9
  | .nak => none
  | .replay => none
/-- Does a message end in a tag: types 2 to 8? -/
def PairOut.tagged (m : PairOut) : Bool := match m.type with | some t => decide (2 ≤ t ∧ t ≤ 8) | none => false
/-- Does a message go out at the next flit boundary, ahead of any message not yet begun? -/
def PairOut.urgent (m : PairOut) : Bool := m.type == some 3 || m.type == some 4

/-- The manifest a SYNC message carries. -/
def syncManifest (m : Oid × DWord × DWord × DWord × List Segment) : Manifest := ⟨m.1, m.2.1.toNat, m.2.2.1, m.2.2.2.1, 0, 0, 0, m.2.2.2.2⟩

/-- Bytes of a message's body. The bodies of CONTROL, SYNC and REPAIR are not laid out. PRESUMED (log 144) -/
def PairOut.bodyLen : PairOut → Nat
  | .hello m => 16 + m.chain.length + 64 + 34
  | .journal rs => rs.foldl (fun a r => a + recordLen r) 0
  | .ack _ => 8
  | .heartbeat _ _ => 4
  | .control _ => 32
  | .sync img => 64 + (img.crCapsule.getD []).length + 136 * img.records.length
      + img.manifests.foldl (fun a m => a + (manifestBytes (syncManifest m)).length) 0 + img.later.foldl (fun a r => a + recordLen r) 0
  | .repair _ _ => 136
  | .handover es => 64 * es.length
  | .helloProof a b c => a.length + b.length + c.length
  | .nak => 0
  | .replay => 0

/-- Flits of a message: its header, body and tag, 52 bytes to a flit; a NAK is one flit of its own (R527). -/
def PairOut.flits (m : PairOut) : Nat :=
  match m with
  | .nak => 1
  | .replay => 0
  | .heartbeat .b _ => 0
  | m => (8 + m.bodyLen + (if m.tagged then 16 else 0) + 51) / 52

/-- Does a message, or a NAK, travel as flits? -/
def PairOut.onLink (m : PairOut) : Bool := match m with | .heartbeat .b _ => false | .replay => false | _ => true

/-- Insert the flits of a message behind those already sent and, where it may not overtake, behind those that wait (R528, R529). -/
def queueFlits (urgent : Bool) (new fs : List Piece) : List Piece :=
  if urgent then
    let rest := fs.drop 512
    fs.take 512 ++ rest.takeWhile (fun p => p.part != 0) ++ new ++ rest.dropWhile (fun p => p.part != 0)
  else fs ++ new

/-- Send the partner a message: while the link is up its flits are queued, the first 512 of the queue being on their way (R527 to R529). -/
def Pair.send (p : Pair) (m : PairOut) : Pair :=
  let p := { p with out := p.out ++ [m] }
  if p.link ≠ .up ∨ m.onLink = false then p
  else { p with
    flits := queueFlits m.urgent ((List.range m.flits).map (fun i => ⟨m, p.txCount, i⟩)) p.flits
    txSeq := p.txSeq + BitVec.ofNat 16 m.flits, txCount := if m.tagged then p.txCount + 1 else p.txCount }

/-! ### Flits (R527, R528) -/

/-- The acknowledgement a flit carries: every flit up to its number has arrived. -/
def takeFlitAck (a : BitVec 16) (p : Pair) : Pair :=
  let n := (a - p.txAck).toNat
  if n = 0 ∨ min 512 p.flits.length < n then p else { p with flits := p.flits.drop n, txAck := a, sameReplays := 0 }

/-- A whole message has arrived, flit by flit, in order. Its last flit acknowledges every flit sent before it: a round trip takes 1 µs at most. DESIGN CHOICE (log 145) -/
def linkTake (m : PairOut) (p : Pair) : Pair :=
  { p with rxNext := p.rxNext + BitVec.ofNat 16 m.flits, nakSent := false, rxBuf := [], flits := [], txAck := p.txSeq, sameReplays := 0 }

/-- A received flit that is discarded: one NAK for the gap (R528). -/
def linkGap (p : Pair) : Pair := if p.nakSent then p else { p with nakSent := true }.send .nak

/-- The 64 bytes of a flit. -/
def flitBytes (seq ack : BitVec 16) (kind flags used : Nat) (payload : List Byte) : List Byte :=
  let b := leBytes 2 seq.toNat ++ leBytes 2 ack.toNat ++ leBytes 1 kind ++ leBytes 1 flags ++ leBytes 1 used ++ [0] ++ padTo 52 (payload.take 52)
  b ++ leBytes 4 (crc32 b).toNat

/-- Are the reserved fields of a flit as R527 gives them? -/
def flitFormed (f : List Byte) : Bool :=
  let kind := fieldOf f 4 1
  let used := fieldOf f 6 1
  decide (kind ≤ 2) && fieldOf f 5 1 / 4 == 0 && fieldOf f 7 1 == 0 && (if kind = 1 then decide (1 ≤ used ∧ used ≤ 52) else used == 0)

end Sys2Proof.Machine
end

