-- ==== Sys2Proof/Machine/Journal.lean ====
section
/-! DEFINITION. The custody journal: appending, durability, the flash tail, deltas, queue checkpoints; and the completions, events and continuity boundaries that wait to be posted (08_manifests_and_custody_journal.md; 04_yomir_command_protocol.md, R116 to R126, R132, R133, R136 to R139). -/

namespace Sys2Proof.Machine

/-- Pair mode: an ACTIVE module whose partner is STANDBY (R519). -/
def State.pairMode (s : State) : Bool :=
  s.pair.role == .active && s.pair.session == .keyed && s.pair.link == .up && !s.isFenced 4 0 &&
    (match s.pair.word with | some w => fieldAt w 31 28 == 2 | none => false)

/-- Does this module number journal records itself? A STANDBY or SYNCING module sends its records to the active (R521). -/
def State.journals (s : State) : Bool :=
  match s.pair.role with
  | .standby => false
  | .syncing => false
  | _ => true

/-- The pair tag, zero before commissioning. -/
def State.pairTag (s : State) : BitVec 21 := s.nvm.pairTag.getD 0

/-! ### Events (R133) -/

/-- Keep an event for a port without an events queue, merging once 57 are held. -/
def holdEvent (code : Nat) (data : BitVec 56) (l : List HeldEvent) : List HeldEvent :=
  if l.length < 57 then l ++ [⟨code, data, 0⟩]
  else
    let r := l.reverse
    match r.findIdx? (fun e => e.code == code) with
    | some i => (r.modify i (fun e => ⟨code, data, satInc 16 e.count⟩)).reverse
    | none => l ++ [⟨code, data, 0⟩]

/-- The completion an event makes. -/
def eventCompletion (qid : Nat) (e : HeldEvent) : Completion where
  tag := 0xFFFF
  status := 0
  sqid := BitVec.ofNat 16 qid
  sqhead := 0xFFFF
  durability := 0
  untrusted := false
  degraded := false
  result := resultOf [(12, e.code), (13, e.data.toNat), (20, e.count)]

/-- The lowest-numbered events queue of a port. -/
def eventsQueue (s : State) (port : Nat) : Option Nat :=
  (s.cqe.queues.filter (fun q => q.events && q.qid / 64 == port)).foldl
    (fun a q => match a with | none => some q.qid | some b => if q.qid < b then some q.qid else a) none

/-- An event's completion among the held ones. -/
def heldEvent (port qid : Nat) (e : HeldEvent) : Held where
  comp := eventCompletion qid e
  src := .queue qid
  kind := .event port
  seq := 0
  accRec := none
  compRec := none
  durable := false
  remote := false
  key := 0
  kiln := false
  idles := 0

/-- Post an event on one port, or keep it. -/
def postEventOn (port code : Nat) (data : BitVec 56) (s : State) : State :=
  match eventsQueue s port with
  | some q => { s with cqe := { s.cqe with held := s.cqe.held ++ [heldEvent port q ⟨code, data, 0⟩] } }
  | none =>
    if port = 0 then { s with cqe := { s.cqe with events0 := holdEvent code data s.cqe.events0 } }
    else { s with cqe := { s.cqe with events1 := holdEvent code data s.cqe.events1 } }

/-- Post an event on both ports. -/
def postEvent (code : Nat) (data : BitVec 56) (s : State) : State := postEventOn 1 code data (postEventOn 0 code data s)

/-! ### Appending and durability (R253 to R262, R269 to R271) -/

/-- Append a record of a command that named a stream, under the next number; before the GENESIS record exists nothing is journaled (R254). -/
def appendAs (handle source : BitVec 16) (body : JBody) (s : State) : State :=
  let j := s.journal
  let first := match body with | .genesis .. => true | _ => false
  if j.next = 0 ∧ first = false then s
  else
    let r : JRecord := ⟨false, source, j.next, s.clock.time, body, handle⟩
    let before : Hash := match body with | .brk .. => 0 | _ => j.chain
    { s with
      journal := { j with
        recs := r :: j.recs
        chain := Config.sha3 (leBytes 32 before.toNat ++ recordBytesOf s.journalKey false r)
        next := j.next + 1 }
      pair := if s.pairMode then s.pair.send (.journal [r]) else s.pair }
/-- Append a record that names no stream. -/
def append (source : BitVec 16) (body : JBody) (s : State) : State := appendAs 0 source body s

/-- A STANDBY or SYNCING module sends its acceptance and completion records to the active, which numbers them (R521). -/
def forwardAs (handle source : BitVec 16) (body : JBody) (s : State) : State :=
  if s.journals = true ∨ s.journal.next = 0 then s
  else { s with pair := s.pair.send (.journal [⟨false, source, 0, s.clock.time, body, handle⟩]) }
/-- Send a record that names no stream. -/
def forward (source : BitVec 16) (body : JBody) (s : State) : State := forwardAs 0 source body s

/-- Records made COMMITTED: acknowledged by the partner in pair mode, in the flash tail otherwise; never fewer than before (R126, R261). -/
def commit (s : State) : State :=
  let n := if s.pairMode then s.journal.acked else s.journal.flushed
  { s with journal := { s.journal with committed := max s.journal.committed n } }

/-- Bytes of the held records with numbers from `lo` up to `hi`. -/
def bytesBetween (rs : List JRecord) (lo hi : Nat) : Nat :=
  rs.foldl (fun a r => if lo ≤ r.number ∧ r.number < hi then a + recordLen r else a) 0

/-- Tail sectors in use: from the sector of the first record not SECURED to the write point (R269). -/
def sectorsUsed (j : Journal) : Nat :=
  if j.flushed ≤ j.secured then 0
  else (j.tailBytes + 4039) / 4040 - (j.tailBytes - bytesBetween j.recs j.secured j.flushed) / 4040

/-- Bytes of the next record for the tail: the oldest that waits; where none waits, the shortest there is (R253). -/
def nextLen (j : Journal) : Nat := match j.recs.find? (fun r => r.number == j.flushed) with | some r => recordLen r | none => 32
/-- Is the tail full: the next record needs a new sector, and none is left beside the reserve of two (R269)? -/
def tailFull (j : Journal) : Bool := decide (4093 ≤ sectorsUsed j) && decide ((4040 - j.tailBytes % 4040) % 4040 < nextLen j)
/-- Fill as a percentage (IDENTIFY, JRNL_TAIL_USED). -/
def tailPercent (j : Journal) : Nat := sectorsUsed j * 100 / 4095

/-- Flush one record to the tail while it has room. -/
def flushOne (j : Journal) : Journal :=
  if j.next ≤ j.flushed then j
  else
    let j' := { j with flushed := j.flushed + 1, tailBytes := j.tailBytes + bytesBetween j.recs j.flushed (j.flushed + 1) }
    if 4093 < sectorsUsed j' then j else j'
/-- Flush up to `n` records. -/
def flushRun : Nat → Journal → Journal
  | 0, j => j
  | n + 1, j => flushRun n (flushOne j)

/-- Events 1 and 2 as the tail passes 75 % and fills, event 7 as the DDR5 ring runs close to full (R127, R262, R269). -/
def journalEvents (s : State) : State :=
  let j := s.journal
  let at75 := decide (3072 ≤ sectorsUsed j)
  let full := tailFull j
  let ring := decide (15 * 2 ^ 30 < bytesBetween j.recs j.secured j.next)
  let s := if at75 && !j.event75 then postEvent 1 0 s else s
  let s := if full && !j.eventFull then postEvent 2 0 s else s
  let s := if ring && !j.eventRing then postEvent 7 0 s else s
  { s with journal := { s.journal with event75 := at75, eventFull := full, eventRing := ring } }

/-- JRNL_CTL.flush_enable: records flow to the flash tail (R287). -/
def flushEnabled (s : State) : Bool := bitAt (s.reg 0x400B0008 0) 1
/-- Write every waiting record to the flash tail, as far as it has room (R126, R269, R270, R287). A STANDBY's records stay in its ring (R261). -/
def flush (s : State) : State :=
  if s.journals && flushEnabled s then
    journalEvents (commit { s with journal := flushRun (s.journal.next - s.journal.flushed) s.journal })
  else s

/-! ### Custody deltas (R125, R257) -/

/-- Carry out one delta as its completion record is written. -/
def applyDelta (recNo : Nat) (now : DWord) (s : State) : Delta → State
  | .key i r => { s with ktab := s.ktab.applyKey s.indexKey i r }
  | .stage oid g =>
    { s with journal := { s.journal with
        staged := s.journal.staged.filter (fun p => !(p.1 == oid && p.2.index == g.index)) ++ [(oid, g)] } }
  | .unstage oid i => { s with journal := { s.journal with staged := s.journal.staged.filter (fun p => !(p.1 == oid && p.2.index == i)) } }
  | .manifest oid ver ret owner segs =>
    let moved := (s.journal.staged.filter (fun p => p.1 == oid && segs.contains p.2.index)).map (·.2)
    let rest := s.journal.staged.filter (fun p => !(p.1 == oid && segs.contains p.2.index))
    let old := s.journal.manifests.find? (fun m => m.oid == oid)
    let new : Manifest := {
      oid := oid, version := ver.toNat, retainUntil := ret, owner := owner, first := (old.map (·.first)).getD now, last := now,
      record := recNo, segs := moved.foldl (fun l g => putSegment g l) ((old.map (·.segs)).getD []) }
    { s with journal := { s.journal with staged := rest, manifests := s.journal.manifests.filter (fun m => m.oid != oid) ++ [new] } }
  | .custody d =>
    if d.subkind = 3 then { s with clock := { s.clock with time := d.new, valid := true } } else s
  | .shelf v => { s with pair := { s.pair with shelfWait := s.pair.shelfWait ++ [(recNo, v)] } }

/-- Carry out deltas in order. -/
def applyDeltas (recNo : Nat) (now : DWord) (s : State) (ds : List Delta) : State := ds.foldl (applyDelta recNo now) s

/-! ### Completing (R116, R123 to R126) -/

/-- What a command answers: status, result bytes 12 to 27, completion flags, custody deltas. -/
structure Result where
  status    : BitVec 16
  result    : QWord
  untrusted : Bool
  degraded  : Bool
  deltas    : List Delta
  deriving DecidableEq, Repr

/-- A result of a status and result fields (byte offset, value). -/
def answer (status : Nat) (fields : List (Nat × Nat)) : Result := ⟨BitVec.ofNat 16 status, resultOf fields, false, false, []⟩
/-- OK with result fields. -/
def okay (fields : List (Nat × Nat)) : Result := answer 0 fields
/-- OK with result fields and deltas. -/
def okayWith (fields : List (Nat × Nat)) (ds : List Delta) : Result := { answer 0 fields with deltas := ds }
/-- INVALID_FIELD at an offset (R15). -/
def invalidField (off : Nat) : Result := answer 0x2002 [(12, off)]
/-- INVALID_HANDLE at an offset. -/
def invalidHandle (off : Nat) : Result := answer 0x2004 [(12, off)]
/-- STATE_CONFLICT with a reason. -/
def conflict (reason : Nat) : Result := answer 0x2005 [(12, reason)]
/-- LENGTH_ERROR with a limit. -/
def lengthError (limit : Nat) : Result := answer 0x2006 [(12, limit % 2 ^ 32)]
/-- INPUT_RANGE at an offset. -/
def inputRange (off : Nat) : Result := answer 0x2008 [(12, off)]
/-- NOT_AUTHORIZED with a reason. -/
def notAuthorized (reason : Nat) : Result := answer 0x4001 [(12, reason)]
/-- UNIT_FENCED naming a unit (R500). -/
def unitFenced (cls num : Nat) : Result := answer 0x3006 [(12, cls), (13, num)]

/-- The accepted command of a key. -/
def State.command (s : State) (key : Nat) : Option Inflight := s.cqe.inflight.find? (fun c => c.key == key)

/-- Change an accepted command. -/
def State.setCommand (s : State) (key : Nat) (f : Inflight → Inflight) : State :=
  { s with cqe := { s.cqe with inflight := s.cqe.inflight.map (fun c => if c.key = key then f c else c) } }

/-- Set what a command waits for. -/
def State.waitOn (s : State) (key : Nat) (w : Wait) : State := s.setCommand key (fun c => { c with wait := w })
/-- A command has passed its point of no return (R135). -/
def State.passPoint (s : State) (key : Nat) : State := s.setCommand key (fun c => { c with past := true })

/-- Hold a completion until it may be posted. -/
def hold (h : Held) (s : State) : State := { s with cqe := { s.cqe with held := s.cqe.held ++ [h] } }

/-- Consume or release the grant a command reserved, as it completes (R305). -/
def settleGrant (key : Nat) (ok : Bool) (s : State) : State :=
  { s with vault := { s.vault with sessions := s.vault.sessions.map (fun x =>
      if x.reserved = some key then { x with used := x.used || ok, reserved := none } else x) } }
/-- Opcodes that name a stream handle (R115). -/
def streamOp (op : BitVec 16) : Bool := op == 0x0202 || op == 0x0203 || op == 0x0205 || op == 0x0206 || op == 0x0207 || op == 0x0208
/-- The stream a command names, as its journal records remember it. -/
def namedStream (op : BitVec 16) (e : Entry) : BitVec 16 := if streamOp op then e.handle else 0
/-- The stream whose idle time begins with a completion: that of a data command, or of an open that succeeded, not cancelled by ABORT (R222). -/
def idleStream (op : BitVec 16) (e : Entry) (r : Result) : Nat :=
  if r.status = 0x2005 then 0
  else if op = 0x0202 ∨ op = 0x0205 then e.handle.toNat
  else if (op = 0x0201 ∨ op = 0x0204) ∧ (r.status = 0 ∨ r.status = 1) then fieldAt r.result 15 0
  else 0
/-- Is a completion's output untrusted: every completion of an UNSEAL_DATA, whatever its status (R227)? An entry whose integrity fails is of no opcode (R120). -/
def outputUntrusted (op status : BitVec 16) : Bool := op == 0x0205 && status != 0x6004
/-- Complete a command: carry out its deltas, write its COMPLETE record, hold its completion (R125). A durable completion in solo mode flushes its record at once. DESIGN CHOICE -/
def complete (key : Nat) (r : Result) (s : State) : State :=
  match s.command key with
  | none => s
  | some c =>
    let live := decide (0 < s.journal.next) && s.journals
    let n := s.journal.next
    let s := settleGrant key (r.status == 0) s
    let s := applyDeltas n s.clock.time s r.deltas
    let body : JBody := .complete c.entry.seq c.entry.tag c.op r.status r.result r.deltas
    let h := namedStream c.op c.entry
    let s := if live then appendAs h c.src.code body s else forwardAs h c.src.code body s
    let s := if s.journal.recovery && !r.deltas.isEmpty && c.op != 0x0306 then
        append 0xFFFF (.recover (BitVec.ofNat 64 s.journal.lastL) (BitVec.ofNat 64 (2 ^ 64 - 1)) 1 false) { s with journal := { s.journal with recovery := false } }
      else s
    let s := if c.entry.durable && live && !s.pairMode then flush s else s
    let s := { s with cqe := { s.cqe with inflight := s.cqe.inflight.filter (fun d => d.key != key) } }
    hold {
      comp := { tag := c.entry.tag, status := r.status, sqid := c.src.code, sqhead := c.sqhead, durability := 0,
                untrusted := r.untrusted || outputUntrusted c.op r.status, degraded := r.degraded || r.status == 1, result := r.result }
      src := c.src, kind := .final, seq := c.entry.seq, accRec := c.accRec,
      compRec := if live then some n else none, durable := c.entry.durable,
      remote := !s.journals && decide (0 < s.journal.next), key := key, kiln := false, idles := idleStream c.op c.entry r } s

/-- An unsolicited completion (R132), not tied to an accepted command. -/
def unsolicited (src : Source) (tag status : BitVec 16) (seq : Word) (fields : List (Nat × Nat)) (s : State) : State :=
  hold {
    comp := { tag := tag, status := status, sqid := src.code, sqhead := 0xFFFF, durability := 0, untrusted := false, degraded := false,
              result := resultOf fields }
    src := src, kind := .unsolicited, seq := seq, accRec := none, compRec := none, durable := false, remote := false, key := 0, kiln := false, idles := 0 } s

/-! ### Posting (R109, R110, R116, R117, R159) -/

/-- Host port record. -/
def State.port (s : State) (p : Nat) : HostPort := if p = 0 then s.port0 else s.port1
/-- Replace a host port record. -/
def State.setPort (s : State) (p : Nat) (h : HostPort) : State := if p = 0 then { s with port0 := h } else { s with port1 := h }

/-- Signal an MSI-X vector: a message, or a pending bit while the vector or the function is masked; nothing while MSI-X is not enabled (R105, R159). -/
def signal (port v : Nat) (s : State) : State :=
  let h := s.port port
  match h.msix[v]? with
  | none => s
  | some e =>
    if h.msixEnable = false then s
    else if e.masked || h.functionMask then s.setPort port { h with msix := h.msix.set v { e with pending := true } }
    else s.setPort port { h with sent := h.sent ++ [(e.addr, e.data)] }

/-- The queue of a qid. -/
def State.queue (s : State) (q : Nat) : Option Queue := s.cqe.queues.find? (fun x => x.qid == q)
/-- Change a queue. -/
def State.setQueue (s : State) (q : Nat) (f : Queue → Queue) : State :=
  { s with cqe := { s.cqe with queues := s.cqe.queues.map (fun x => if x.qid = q then f x else x) } }

/-- Does a host port's clock run: its PLL has not lost lock (R83)? -/
def portClock (s : State) (p : Nat) : Bool := !bitAt (s.power.pllLost.setWidth 32) (3 + p)
/-- May a held completion be posted now? A module that numbers records itself waits for no other (R521); the reports of a kiln wait until the module has left KEYLESS, and then for a queue created after that (R141); unsolicited ones of the tag interface wait for YOMIR_FETCH; a port without Bus Master Enable writes nothing (R160). -/
def postable (s : State) (h : Held) : Bool :=
  !(h.remote && !s.journals)
  && !(h.kiln && s.vault.keyless)
  && (match h.accRec with | none => true | some n => !s.pairMode || decide (n < s.journal.acked))
  && (!h.durable || match h.compRec with | none => true | some n => decide (n < s.journal.committed))
  && (match h.src with
      | .queue q => match s.queue q with | none => false | some x => decide (x.unreleased < x.cqEntries) && !(h.kiln && x.keyless) && portClock s (q / 64) && (s.port (q / 64)).busMaster
      | .tag => h.kind != .unsolicited
      | _ => true)

/-- Durability class a completion has now (R126). -/
def classNow (s : State) (h : Held) : Nat :=
  match h.compRec with
  | none => 0
  | some n => if n < s.journal.secured then 2 else if n < s.journal.committed then 1 else 0

/-- Write a completion entry to a CQ in host memory and signal its vector. -/
def postToQueue (q : Nat) (c : Completion) (s : State) : State :=
  match s.queue q with
  | none => s
  | some x =>
    let s := s.writeBytes (4 + q / 64) (x.cqBase.toNat + 32 * x.cqTail) (c.bytes x.phase)
    let wrap := decide (x.cqTail + 1 = x.cqEntries)
    let s := s.setQueue q (fun x => { x with
      cqTail := if wrap then 0 else x.cqTail + 1, phase := x.phase != wrap, unreleased := x.unreleased + 1 })
    if x.intr then signal (q / 64) x.vector s else s

/-- The journal mark of a posting: POSTED, or BOUNDARY for a continuity boundary (R136, R256). -/
def postMark (h : Held) (s : State) : State :=
  match h.kind with
  | .final => if s.journals then append h.src.code (.posted [(h.seq, h.comp.tag)]) s else s
  | .unsolicited =>
    if s.journals = false then s
    else if h.comp.status = 0x8002 then
      append h.src.code (.boundary (fieldAt h.comp.result 39 32) (fieldAt h.comp.result 47 40) (BitVec.ofNat 32 (fieldAt h.comp.result 31 0)) h.comp.tag) s
    else append h.src.code (.posted [(h.seq, h.comp.tag)]) s
  | _ => s

/-- Write a completion into the buffer a caller names, in control SRAM (R147). A buffer that lies elsewhere takes nothing. DESIGN CHOICE (log 118) -/
def intoBuffer (a : Nat) (bs : List Byte) (s : State) : State :=
  if 0x10000000 ≤ a ∧ a + 32 ≤ 0x10800000 then mendWords a 32 (s.dmaBytes 0 a bs) else s
/-- The idle time of a stream begins (R222). -/
def beginIdle (h : Nat) (s : State) : State :=
  if h = 0 then s
  else { s with lanes := { s.lanes with streams := s.lanes.streams.map (fun (x : Stream) => if x.handle = h then { x with idleFrom := s.clock.time } else x) } }

/-- Deliver a completion on its transport: a CQ, a response frame, the tag interface, or the caller's buffer (R144 to R147). The tag keeps its completion for YOMIR_FETCH; after a field loss it is discarded (R578). Outside a CQ there is no pass, and the phase bit is 1. DESIGN CHOICE (log 119) -/
def post (h : Held) (s : State) : State :=
  let c := { h.comp with durability := if h.comp.status = 0x8002 then 0 else classNow s h }
  let s := match h.src with
    | .queue q => postToQueue q c s
    | .mgmt => { s with mgmtp := { s.mgmtp with
        responses := s.mgmtp.responses ++ [c.bytes true], ibis := if s.mgmtp.ibi && s.mgmtp.dynAddr.isSome then s.mgmtp.ibis ++ [1] else s.mgmtp.ibis } }
    | .tag => match s.tag.yEntry with
      | some (_, k) => if k = h.key then { s with tag := { s.tag with yDone := some (c.bytes true) } } else s
      | none => s
    | .internal _ a => intoBuffer a.toNat (c.bytes true) { s with cqe := { s.cqe with internalOut := s.cqe.internalOut ++ [c] } }
  postMark h (beginIdle h.idles s)

/-- Post every held completion that may be posted, oldest first. -/
def postHeld : List Held → State → State
  | [], s => s
  | h :: hs, s =>
    if postable s h then postHeld hs (post h { s with cqe := { s.cqe with held := s.cqe.held.erase h } }) else postHeld hs s
/-- Post all that may be posted. -/
def postAll (s : State) : State := postHeld s.cqe.held s

/-! ### Queue checkpoints and vouched entries (R138, R271 to R273) -/

/-- ACCEPT entries of a source among records, oldest first: (number, seq, tag). -/
def acceptsOf (src : BitVec 16) (rs : List JRecord) : List (Nat × Word × BitVec 16) :=
  rs.foldl (fun a r => match r.body with
    | .accept seq tag _ _ _ => if r.source = src then (r.number, seq, tag) :: a else a
    | _ => a) []

/-- An entry of a source as the journal shows it: its ACCEPT record with seq, tag, opcode and ring, and the number of its COMPLETE record. -/
structure EntryMark where
  number : Nat
  seq    : Word
  tag    : BitVec 16
  op     : BitVec 16
  ring   : Nat
  done   : Option Nat
  deriving DecidableEq, Repr

/-- A COMPLETE record ends the newest uncompleted entry of its seq and tag (entries newest first). -/
def endEntry (seq : Word) (tag : BitVec 16) (n : Nat) : List EntryMark → List EntryMark
  | [] => []
  | e :: t => if e.seq = seq ∧ e.tag = tag ∧ e.done = none then { e with done := some n } :: t else e :: endEntry seq tag n t

/-- Follow one record of a source; a continuity boundary ends what was before it (entries newest first). -/
def entryStep (src : BitVec 16) (l : List EntryMark) (r : JRecord) : List EntryMark :=
  if r.source ≠ src then l
  else match r.body with
    | .accept seq tag op _ ring => ⟨r.number, seq, tag, op, ring, none⟩ :: l
    | .complete seq tag _ _ _ _ => endEntry seq tag r.number l
    | .boundary _ _ _ _ => []
    | _ => l

/-- The entries of a source since its last continuity boundary, oldest first: each completion is its own entry's, however often a sequence number came again (R138, R140). -/
def entriesSince (src : BitVec 16) (rs : List JRecord) : List EntryMark := (rs.reverse.foldl (entryStep src) []).reverse

/-- V among entries, oldest first: the last whose COMPLETE record, with those of all earlier ones, lies below a number (R138). -/
def vouchedFrom (n : Nat) : List EntryMark → Option (Word × BitVec 16) → Option (Word × BitVec 16)
  | [], v => v
  | e :: t, v => match e.done with
    | some m => if m < n then vouchedFrom n t (some (e.seq, e.tag)) else v
    | none => v
/-- V of a source with respect to the flash tail; an existing queue's entries are those since its creation. -/
def vouched (s : State) (src : BitVec 16) (n : Nat) : Option (Word × BitVec 16) :=
  let from_ := match s.queue src.toNat with | some q => q.since | none => 0
  vouchedFrom n ((entriesSince src s.journal.recs).filter (fun e => decide (from_ ≤ e.number))) none

/-- The 128 queue slots of a checkpoint (R256, R272). -/
def queueSlots (s : State) (n : Nat) : List QSlot :=
  (List.range 128).map (fun q => match vouched s (BitVec.ofNat 16 q) n with
    | some (seq, tag) => ⟨seq, tag, true, (s.queue q).isSome⟩
    | none => ⟨0, 0, false, (s.queue q).isSome⟩)

/-- Write a QUEUE_CKPT of a kind after the flush (R271). -/
def queueCheckpoint (kind : Nat) (s : State) : State :=
  let slots := queueSlots s s.journal.flushed
  let s := append 0xFFFF (.queueCkpt kind (BitVec.ofNat 64 (s.journal.flushed - 1)) slots) s
  flush { s with journal := { s.journal with qckptSlots := slots, qckptKind := kind, periodSlots := if kind = 0 then slots else s.journal.periodSlots }, clock := { s.clock with ckptAge := 0 } }

/-- A CONTINUITY_BOUNDARY on a queue (R139). -/
def boundary (src : Source) (v : Option (Word × BitVec 16)) (firstSeq : Word) (cause from_ count : Nat) (time : DWord) (s : State) : State :=
  let seq := match v with | some p => p.1 | none => firstSeq - 1
  unsolicited src (match v with | some p => p.2 | none => 0xFFFF) 0x8002 seq
    [(12, seq.toNat), (16, cause), (17, from_), (18, count % 65536), (20, time.toNat)] s

/-- Fault-facing statuses of an aborted command: its seq in result bytes 12 to 15 (R130). -/
def reportLost (status : BitVec 16) (c : Inflight) (s : State) : State :=
  let res := resultOf [(12, c.entry.seq.toNat)]
  let live := decide (0 < s.journal.next) && s.journals
  let n := s.journal.next
  let s := if live then appendAs (namedStream c.op c.entry) c.src.code (.complete c.entry.seq c.entry.tag c.op status res []) s else s
  hold {
    comp := { tag := c.entry.tag, status := status, sqid := c.src.code, sqhead := 0xFFFF, durability := 0, untrusted := outputUntrusted c.op status, degraded := false,
              result := res }
    src := c.src, kind := .unsolicited, seq := c.entry.seq, accRec := none, compRec := if live then some n else none, durable := false, remote := false
    key := c.key, kiln := false, idles := 0 } s

/-- Report every accepted command of a selection with a status, and drop it. -/
def abortCommands (status : BitVec 16) (sel : Inflight → Bool) (s : State) : State :=
  let lost := s.cqe.inflight.filter sel
  let s := { s with cqe := { s.cqe with inflight := s.cqe.inflight.filter (fun c => !sel c) } }
  lost.foldl (fun s c => reportLost status c s) s

end Sys2Proof.Machine
end

