-- ==== Sys2Proof/Machine/JournalTail.lean ====
section
/-! DEFINITION. Where the journal lies: the flash journal tail and the power-fail area as flash bytes, the records of the DDR5 ring, and what happens when a record does not verify (08_manifests_and_custody_journal.md, R268, R272, R274, R283, R284). -/

namespace Sys2Proof.Machine

/-- Chain value after the records of a list, oldest first (R255). -/
def chainOver (jk : Hash) (c : Hash) (rs : List JRecord) : Hash :=
  rs.foldl (fun c r => Config.sha3 (leBytes 32 (match r.body with | .brk .. => (0 : Hash) | _ => c).toNat ++ recordBytesOf jk false r)) c

/-! ### The tail's sectors (R268, R269) -/

/-- Byte of the tail's record stream at which a record begins. -/
def tailOffset (j : Journal) (n : Nat) : Nat := j.tailBytes - bytesBetween j.recs n j.flushed
/-- Records in the tail, oldest first. -/
def tailRecords (j : Journal) : List JRecord := (j.recs.filter (fun r => decide (r.number < j.flushed))).reverse
/-- Sequence number of the oldest sector not released, and of the first not yet begun; the first ever has 0. DESIGN CHOICE (log 138) -/
def liveSectors (j : Journal) : Nat × Nat := ((j.tailBytes - bytesBetween j.recs j.secured j.flushed) / 4040, (j.tailBytes + 4039) / 4040)
/-- The sequence number of the live sector in a place of the ring of 4,095. -/
def sectorAt (j : Journal) (place : Nat) : Option Nat :=
  let l := liveSectors j
  let k := l.1 + (place + 4095 - l.1 % 4095) % 4095
  if k < l.2 then some k else none
/-- Do bytes of a record lie in a sector? -/
def inSector (j : Journal) (k : Nat) (r : JRecord) : Bool :=
  let o := tailOffset j r.number
  decide (o < 4040 * (k + 1)) && decide (4040 * k < o + recordLen r)
/-- A ring sector: its header, the record bytes, erased flash after them (R268). -/
def sectorBytes (s : State) (k : Nat) : List Byte :=
  let j := s.journal
  let rs := tailRecords j
  let head := match rs.find? (fun r => tailOffset j r.number / 4040 == k) with
    | some r => leBytes 2 (0x38 + tailOffset j r.number % 4040) ++ [0, 0] ++ leBytes 8 k ++ leBytes 8 r.number
        ++ leBytes 32 (chainOver s.journalKey j.baseChain ((tailRecords j).filter (fun x => decide (x.number < r.number)))).toNat
    | none => [0xFF, 0xFF, 0, 0] ++ leBytes 8 k ++ (List.range 40).map (fun i => Config.tailFill k i)
  let body := match rs.filter (inSector j k) with
    | [] => []
    | r :: t =>
      let o := tailOffset j r.number
      List.replicate (o - 4040 * k) (0xFF : Byte) ++ ((r :: t).flatMap (fun (x : JRecord) => recordBytesOf s.journalKey x.mirrored x)).drop (4040 * k - o)
  let b := leBytes 4 0x4A524E54 ++ head ++ body.take 4040
  b ++ List.replicate (4096 - b.length) 0xFF

/-! ### The power-fail area (R272, R273) -/

/-- A word of the power-fail checkpoint: the slot of a queue, the power-on count's low bits, the CRC-8 over queue number and both. -/
def pfWord (count q : Nat) (x : QSlot) : Nat :=
  let v := slotNat x + count % 64 * 2 ^ 50
  v + (crc8 (leBytes 1 q ++ leBytes 7 v)).toNat * 2 ^ 56
/-- Can the area be programmed: sector 4,095 of every bank whole and erased (R272, R273, R466)? -/
def pfWritable (s : State) : Bool :=
  (List.range 4).all (fun b =>
    let k := s.flash.banks.getD b (FlashBank.reset 0)
    !k.torn.contains 4095 && !k.started.contains 4095 && !(k.ones ++ k.unspec).any (fun w => decide (w / 512 = 4095))
      && !s.mem.any (fun c => decide (memKey 1 (b * 0x1000000 + 16773120) ≤ c.1 ∧ c.1 < memKey 1 ((b + 1) * 0x1000000))))

/-- A byte of a flash bank: the live tail sectors of bank 2, the power-fail area, else what commands have programmed. -/
def flashByte (s : State) (b off : Nat) : Byte :=
  let plain := s.readByte 1 (b * 0x1000000 + off)
  if 16773120 ≤ off then match s.journal.pf with
    | some a =>
      let w := (off - 16773120) / 8
      if w < 32 then (leBytes 8 (pfWord a.count (32 * b + w) (a.slots.getD (32 * b + w) ⟨0, 0, false, false⟩))).getD (off % 8) 0 else plain
    | none => plain
  else if b = 2 then match sectorAt s.journal (off / 4096) with
    | some k => (sectorBytes s k).getD (off % 4096) 0xFF
    | none => plain
  else plain
/-- A little-endian number in a flash bank. -/
def flashNat (s : State) (b off n : Nat) : Nat := leNat ((List.range n).map (fun i => flashByte s b (off + i)))

/-! ### The scan of the tail (R274, R461) -/

/-- Does a live sector of the tail hold no records any more: erased by a flash command, torn, or with a word that a power loss cut? -/
def sectorGone (s : State) (k : Nat) : Bool :=
  let b := s.flash.banks.getD 2 (FlashBank.reset 0)
  s.journal.tailErased.contains k || b.started.contains (k % 4095) || b.torn.contains (k % 4095) || b.unspec.any (fun w => w / 512 == k % 4095)
/-- Live sectors that hold no records. -/
def goneSectors (s : State) : List Nat :=
  let l := liveSectors s.journal
  ((List.range (l.2 - l.1)).map (l.1 + ·)).filter (sectorGone s)
/-- The number after the last record that the scan accepts: every one in the tail, or those before the first that lies in a sector without records. -/
def tailEnd (s : State) : Nat :=
  let j := s.journal
  match (tailRecords j).find? (fun r => (goneSectors s).any (fun k => inSector j k r)) with
  | some r => r.number
  | none => j.flushed
/-- Does the header of a whole sector name a record beyond the end of the scan? -/
def headerBeyond (s : State) (end_ : Nat) : Bool :=
  let j := s.journal
  (tailRecords j).any (fun r => decide (end_ ≤ r.number) && !(goneSectors s).contains (tailOffset j r.number / 4040))

/-! ### Breaks (R283, R284, R433) -/

/-- Chain value before a record number. -/
def chainBefore (s : State) (n : Nat) : Hash :=
  chainOver s.journalKey s.journal.baseChain (s.journal.recs.reverse.filter (fun r => decide (r.number < n)))
/-- Place of a record in the 16 GiB ring: records lie back to back from the oldest one held. DESIGN CHOICE for where the oldest lies (log 138) -/
def ringOffset (j : Journal) (n : Nat) : Nat := bytesBetween j.recs 0 n % 2 ^ 34
/-- The records whose ring copy has bytes in the line at a DDR5 address. -/
def recordsAt (j : Journal) (a : Nat) : List Nat :=
  if Config.journalBase ≤ a ∧ a < Config.journalBase + 2 ^ 34 then
    let o := (a - Config.journalBase) / 64 * 64
    (j.recs.filter (fun r => decide (ringOffset j r.number < o + 64) && decide (o < ringOffset j r.number + recordLen r))).map (·.number)
  else []
/-- A DDR5 line, named by its physical address, is found uncorrectable: what KTAB or the journal hash unit holds there no longer verifies (R212, R283, R433). -/
def spoilDdr (a : Nat) (s : State) : State :=
  let a := ddrLogical s a
  let s := spoilLine a s
  { s with journal := { s.journal with spoilt := s.journal.spoilt ++ (recordsAt s.journal a).filter (fun n => !s.journal.spoilt.contains n) } }
/-- The first record of a range that does not verify. -/
def brokenIn (s : State) (lo hi : Nat) : Option Nat :=
  (s.journal.spoilt.filter (fun n => decide (lo ≤ n ∧ n < hi))).foldl (fun a n => match a with | some m => some (min m n) | none => some n) none
/-- Has the tail a copy of a record: flushed, its sectors neither released nor gone? -/
def tailCopy (s : State) (n : Nat) : Bool :=
  decide (s.journal.secured ≤ n ∧ n < s.journal.flushed) && decide (n < tailEnd s)
/-- A break is counted, with source 232 (R283). -/
def breakFound (s : State) : State :=
  ({ s with journal := { s.journal with breaks := satInc 16 s.journal.breaks, broke := true } }).raise 232
/-- A break in the ring: repaired from the partner's copy in pair mode, from the tail's in solo mode, else ended by a BREAK record; the records it covers count as lost, and are not checked again. DEDUCED (log 139) -/
def ringBreak (n : Nat) (s : State) : State :=
  let t := breakFound s
  if s.pairMode = true ∨ s.journals = false ∨ tailCopy s n = true then
    { t with journal := { t.journal with spoilt := t.journal.spoilt.filter (· != n) } }
  else
    append 0xFFFF (.brk (BitVec.ofNat 64 n - 1) (chainBefore s n) (s.journal.next - n)) { t with journal := { t.journal with spoilt := [] } }

end Sys2Proof.Machine
end

