-- ==== Sys2Proof/Machine/Streams.lean ====
section
/-! DEFINITION. Sealing lanes, streams, scatter lists, the key handoff mailbox and the stream commands (07_sealing_lanes.md; 01_system_view.md, R21 to R24, R37). -/

namespace Sys2Proof.Machine

/-! ### Scatter lists (R226 to R229) -/

/-- Walk a scatter list in host memory: data elements as (address, length), or the index of the offending element (R228). `want` is the byte count the elements must sum to. -/
def walkList (s : State) (space want : Nat) : Nat → Nat → Nat → Nat → Except Nat (List (Nat × Nat))
  | 0, idx, _, _ => .error idx
  | fuel + 1, idx, addr, sum =>
    let e := s.readBytes space addr 16
    let a := leNat (e.take 8)
    let len := leNat ((e.drop 8).take 4)
    let ctl := leNat (e.drop 12)
    if 4 ≤ ctl ∨ ctl = 3 then .error idx
    else if ctl = 2 then
      if a % 16 ≠ 0 then .error idx else walkList s space want fuel (idx + 1) a sum
    else if len = 0 ∨ 16777216 < len ∨ 2 ^ 64 < a + len then .error idx
    else if want < sum + len then .error idx
    else if ctl = 1 then
      if sum + len < want then .error idx else .ok [(a, len)]
    else match walkList s space want fuel (idx + 1) (addr + 16) (sum + len) with
      | .error i => .error i
      | .ok l => .ok ((a, len) :: l)

/-- The whole list of a command, at most 4,096 elements. -/
def scatterList (s : State) (space want : Nat) (addr : DWord) : Except Nat (List (Nat × Nat)) :=
  if addr.toNat % 16 ≠ 0 then .error 0 else walkList s space want 4096 0 addr.toNat 0

/-- The byte count a well-formed list sums to. -/
def listTotal (s : State) (space : Nat) : Nat → Nat → Nat → Option Nat
  | 0, _, _ => none
  | fuel + 1, addr, sum =>
    let e := s.readBytes space addr 16
    let a := leNat (e.take 8)
    let len := leNat ((e.drop 8).take 4)
    match leNat (e.drop 12) with
    | 0 => listTotal s space fuel (addr + 16) (sum + len)
    | 1 => some (sum + len)
    | 2 => listTotal s space fuel a sum
    | _ => none

/-- Gather the bytes of a list. -/
def gather (s : State) (space : Nat) (l : List (Nat × Nat)) : List Byte := l.flatMap (fun p => s.readBytes space p.1 p.2)
/-- Scatter bytes over a list. -/
def scatter (space : Nat) : List (Nat × Nat) → List Byte → State → State
  | [], _, s => s
  | (a, n) :: t, bs, s => scatter space t (bs.drop n) (s.dmaBytes space a (bs.take n))

/-- SCATTER_LIST_ERROR at an element, bit 31 for the output list. -/
def listError (idx : Nat) (output : Bool) : Result := answer 0x2007 [(12, idx + (if output then 2 ^ 31 else 0))]

/-- The memory in which a command's buffers lie: the issuing port's host memory, control SRAM for the internal transport, port 0's host memory for the management port. DESIGN CHOICE for the last two -/
def bufferSpace : Source → Nat
  | .queue q => 4 + q / 64
  | .internal _ _ => 0
  | _ => 4

/-- Write output bytes through a command's output list of a given total length, or answer the list error. The tag interface has its own buffer (R578). -/
def writeOutput (src : Source) (total : Nat) (addr : DWord) (bs : List Byte) (s : State) : Except Result State :=
  match src with
  | .tag => .ok { s with tag := { s.tag with yOut := bs } }
  | _ => match scatterList s (bufferSpace src) total addr with
    | .error i => .error (listError i true)
    | .ok l => .ok (scatter (bufferSpace src) l bs s)

/-- Read an input buffer through a command's input list. -/
def readInput (s : State) (src : Source) (total : Nat) (addr : DWord) : Except Result (List Byte) :=
  if total = 0 then .ok []
  else match scatterList s (bufferSpace src) total addr with
    | .error i => .error (listError i false)
    | .ok l => .ok (gather s (bufferSpace src) l)

/-- A status for a KTAB result that ends a command (R217); `off` is the offset of the KH. -/
def ktabAnswer (kh : Word) (off res : Nat) : Result :=
  match res with
  | 2 => answer 0x5002 [(12, khIndex kh)]
  | 3 => answer 0x5004 []
  | 4 => answer 0x5002 [(12, khIndex kh)]
  | 6 => conflict 0
  | 7 => answer 0x3004 []
  | 9 => answer 0x4006 []
  | 10 => conflict 0
  | _ => invalidHandle off
/-- Run a command's work on the record it names, fetched through the key cache; a handle that is not usable, or a record that does not verify, ends the command (R179, R194, R211, R212, R217). -/
def withKey (key : Nat) (kh : Word) (off : Nat) (body : State → State) (s : State) : State :=
  let f := cacheFill kh .ok s
  if f.1 = 0 then body f.2 else complete key (ktabAnswer kh off f.1) f.2
/-- Run a command's work on what the OID index holds of an OID; a failed read ends the command (R191, R211, R212). -/
def withOid (key : Nat) (oid : Oid) (body : Option Nat → State → State) (s : State) : State :=
  let f := findOid oid .ok s
  match f.1.1 with
  | 0 => body (some f.1.2) f.2
  | 5 => body none f.2
  | r => complete key (answer (if r = 3 then 0x5004 else 0x5002) [(12, f.1.2)]) f.2

/-- Write a command's output and complete it, or complete it with the list error. -/
def completeOutput (key : Nat) (src : Source) (total : Nat) (addr : DWord) (bs : List Byte) (r : Result) (s : State) : State :=
  match writeOutput src total addr bs s with
  | .error e => complete key e s
  | .ok s => complete key r s

/-! ### Lanes and streams -/

/-- A lane. -/
def State.lane (s : State) (n : Nat) : Lane := s.lanes.lanes.getD n Lane.reset
/-- Change a lane. -/
def State.setLane (s : State) (n : Nat) (f : Lane → Lane) : State := { s with lanes := { s.lanes with lanes := s.lanes.lanes.modify n f } }
/-- The open stream of a handle. -/
def State.stream (s : State) (h : Nat) : Option Stream := s.lanes.streams.find? (fun x => x.handle == h)
/-- Change the stream of a handle. -/
def State.setStream (s : State) (h : Nat) (f : Stream → Stream) : State :=
  { s with lanes := { s.lanes with streams := s.lanes.streams.map (fun x => if x.handle = h then f x else x) } }
/-- Is any lane fenced (R37)? -/
def anyLaneFenced (s : State) : Bool := (List.range 4).any (s.isFenced 1)
/-- Base address of a lane's registers. -/
def laneBase (n : Nat) : Nat := 0x40070000 + 0x10000 * n

/-- Clear the key slots of a lane that hold a stream's key (R223). -/
def clearSlotsOf (h : Nat) (l : Lane) : Lane :=
  let keep (x : Option SlotKey) : Option SlotKey := match x with | some k => if k.handle = h then none else some k | none => none
  { l with slot0 := keep l.slot0, slot1 := keep l.slot1 }

/-- Contexts parked in DDR5. -/
def parkedCount (s : State) : Nat := (s.lanes.streams.filter (fun x => x.state == .park2)).length
/-- LFCLK periods of custody time a stream has been idle. -/
def idleTime (s : State) (x : Stream) : Nat := s.clock.time.toNat - x.idleFrom.toNat
/-- Of two streams, the one idle for longer. -/
def longerIdle (a : Option Stream) (x : Stream) : Option Stream :=
  match a with | none => some x | some y => if x.idleFrom.toNat < y.idleFrom.toNat then some x else a

/-- Encrypt a context into a parked slot: the entry is freed and the lane's park count rises (R240, R241). -/
def park2 (h : Nat) (s : State) : State :=
  match s.stream h with
  | none => s
  | some x =>
    let s := s.setLane x.lane (fun l => { clearSlotsOf h l with parkCnt := l.parkCnt + 1 })
    s.setStream h (fun x => { x with state := .park2, entry := none })

/-- A parked slot freed goes to the longest-idle stream that waits for one in its entry, idle for 1 s (R240). -/
def parkWaiting (s : State) : State :=
  let waits := s.lanes.streams.filter (fun x => x.state == .park1 && decide (32768 ≤ idleTime s x))
  match waits.foldl longerIdle none with
  | some x => if parkedCount s < 4096 then park2 x.handle s else s
  | none => s

/-- End a stream: slot, GHASH and Keccak state, context and staging reservation go (R223, R264). -/
def endStream (h : Nat) (s : State) : State :=
  match s.stream h with
  | none => s
  | some x =>
    let full := decide (4096 ≤ parkedCount s) && x.state == .park2
    let s := s.setLane x.lane (clearSlotsOf h)
    (if full then parkWaiting else id) { s with
      lanes := { s.lanes with streams := s.lanes.streams.filter (fun y => y.handle != h) }
      journal := { s.journal with reserved := if x.isSeal then s.journal.reserved - 1 else s.journal.reserved } }

/-- Keep a stream's end in the ended-handle record of the last 1,024 (R246). -/
def recordEnded (x : Stream) (status : BitVec 16) (s : State) : State :=
  { s with lanes := { s.lanes with ended := (⟨x.handle, status, x.openSeq, x.lane⟩ :: s.lanes.ended).take 1024 } }

/-- The report of a stream's end, under the tag of its open (R132, R247). -/
def reportStream (x : Stream) (status : BitVec 16) (s : State) : State :=
  if x.handle = 0 then s
  else unsolicited (.queue x.queue) x.openTag status x.openSeq
    (if status = 0x3006 then [(12, 1), (13, x.lane)] else [(12, x.openSeq.toNat)]) s

/-- End every stream of a selection, reporting each with a status. -/
def endStreams (status : BitVec 16) (sel : Stream → Bool) (s : State) : State :=
  (s.lanes.streams.filter sel).foldl (fun s x => reportStream x status (endStream x.handle s)) s

/-- Answer for a command on a handle that is not open (R246). -/
def endedAnswer (s : State) (h : Nat) : Result :=
  match s.lanes.ended.find? (fun e => e.handle == h) with
  | some e =>
    if e.status = 0x3006 then unitFenced 1 e.lane else ⟨e.status, resultOf [(12, e.seq.toNat)], false, false, []⟩
  | none => invalidHandle 6

/-- Mark a stream command's success: OK_DEGRADED while any lane is fenced (R37). -/
def degradeStream (s : State) (r : Result) : Result :=
  if r.status = 0 ∧ anyLaneFenced s = true then { r with status := 1, degraded := true } else r

/-! ### GCM (R232, R233) -/

/-- The 96-bit IV: fixed field then invocation value, most significant first. -/
def ivOf (fixed : Word) (iv : DWord) : BitVec 96 := fixed ++ iv
/-- The 32 bytes of additional data. -/
def aadOf (oid : Oid) (seg : Word) (len : Nat) : List Byte :=
  leBytes 16 oid.toNat ++ leBytes 4 seg.toNat ++ leBytes 8 len ++ [1, 0, 0, 0]
/-- GHASH after the additional data. -/
def ghashStart (dek : Hash) (oid : Oid) (seg : Word) (len : Nat) : QWord :=
  Config.ghashBlock dek (Config.ghashBlock dek 0 ((aadOf oid seg len).take 16)) ((aadOf oid seg len).drop 16)
/-- One more ciphertext byte into GHASH: (accumulator, partial block). -/
def ghashByte (dek : Hash) (a : QWord × List Byte) (b : Byte) : QWord × List Byte :=
  let p := a.2 ++ [b]
  if p.length = 16 then (Config.ghashBlock dek a.1 p, []) else (a.1, p)
/-- The tag: the partial block padded, the lengths, the mask. -/
def gcmTagOf (dek : Hash) (x : Stream) : QWord :=
  let g := if x.part.isEmpty then x.ghash else Config.ghashBlock dek x.ghash (padTo 16 x.part)
  Config.ghashBlock dek g (beBytes 8 256 ++ beBytes 8 (8 * x.segLen)) ^^^ Config.gcmMask dek (ivOf x.fixed x.iv)
/-- One more ciphertext byte into the chunk hash: (hashes, chunk in progress) (R238). -/
def chunkByte (a : List Hash × List Byte) (b : Byte) : List Hash × List Byte :=
  let t := a.2 ++ [b]
  if t.length = 1048576 then (a.1 ++ [Config.sha3 t], []) else (a.1, t)
/-- Encrypt or decrypt bytes from a segment offset. -/
def gcmCrypt (dek : Hash) (iv : BitVec 96) (off : Nat) (bs : List Byte) : List Byte :=
  (bs.zipIdx off).map (fun p => p.1 ^^^ Config.gcmStream dek iv p.2)

/-! ### Key slots and the mailbox (R21 to R24, R234 to R237, R252) -/

/-- Handles with a command in a lane (R237): the one in progress and the 32 of its FIFO (R218, R243). -/
def busyHandles (s : State) (n : Nat) : List Nat :=
  ((s.lane n).queue.take 33).filterMap (fun k => (s.command k).map (fun c => c.entry.handle.toNat))
/-- Is a slot idle: empty, or holding a key of no command in the FIFO? -/
def slotIdle (s : State) (n : Nat) (x : Option SlotKey) : Bool :=
  match x with | none => true | some k => !(busyHandles s n).contains k.handle
/-- The slot of a lane. -/
def Lane.slot (l : Lane) (i : Nat) : Option SlotKey := if i = 0 then l.slot0 else l.slot1
/-- Replace a slot of a lane. -/
def Lane.setSlot (l : Lane) (i : Nat) (k : Option SlotKey) : Lane := if i = 0 then { l with slot0 := k } else { l with slot1 := k }
/-- The slot a LOAD for a stream takes: one that holds its key already, an empty one, an idle one. -/
def slotFor (s : State) (n h : Nat) : Option Nat :=
  let l := s.lane n
  if (l.slot0.map (·.handle)) = some h then some 0
  else if (l.slot1.map (·.handle)) = some h then some 1
  else if l.slot0.isNone then some 0
  else if l.slot1.isNone then some 1
  else if slotIdle s n l.slot0 then some 0
  else if slotIdle s n l.slot1 then some 1
  else none
/-- The kernel's LOAD finds both slots in use: the mailbox answers busy, and the open is tried again at the lane's next command boundary (R22, R237, R252). -/
def loadBusy (lane : Nat) (s : State) : State :=
  s.setLane lane (fun l => { l with mbBusy := true, mbRun := false, mbDone := true, mbResult := 1 })
/-- Copy a DEK from the key cache into a slot (R21). -/
def loadSlot (n slot h : Nat) (kh : Word) (s : State) : State :=
  let s := { s with ktab := s.ktab.fill (khIndex kh) }
  s.setLane n (fun l => l.setSlot slot (some ⟨kh, (s.ktab.record (khIndex kh)).dek, h⟩))

/-- Take the most recent unbound drawn value of a key (R235). -/
def takeUnbound (kh : Word) (s : State) : Option Nat × State :=
  match (s.ktab.unbound.filter (fun p => p.1 == kh)).getLast? with
  | none => (none, s)
  | some p => (some p.2, { s with ktab := { s.ktab with unbound := s.ktab.unbound.erase p } })

/-- A lane context as a LOAD in an OPEN mode makes it, with no stream handle yet. -/
def rawContext (n entry : Nat) (isSeal : Bool) (kh : Word) (iv : DWord) (fixed : Word) : Stream where
  handle := 0
  isSeal := isSeal
  lane := n
  entry := some entry
  kh := kh
  queue := 0
  openTag := 0
  openSeq := 0
  oid := 0
  segIdx := 0
  segLen := 0
  done := 0
  chunks := []
  tail := []
  ghash := 0
  part := []
  iv := iv
  fixed := fixed
  lifetime := 0
  idleFrom := 0
  state := .idle
  restoring := false

/-- The context in an entry of a lane. -/
def contextAt (s : State) (n entry : Nat) : Option Stream := s.lanes.streams.find? (fun x => x.lane == n && x.entry == some entry)

/-- Set a mailbox result; MAILBOX_DONE reports it. -/
def mbResult (n r : Nat) (s : State) : State :=
  s.setLane n (fun l => { l with mbRun := true, mbDone := false, mbResult := r, mbBusy := l.mbBusy || decide (r = 1) })
/-- The key cache entries that LOADs in progress name are held against replacement (R196). -/
def holdLoads (s : State) : State := { s with ktab := s.ktab.holdEntries (s.lanes.lanes.filterMap (fun (l : Lane) => l.mbIndex)) }
/-- A LOAD of a key that the cache holds goes on: its entry is held until the message ends. -/
def mbLoad (n : Nat) (kh : Word) (s : State) : State := holdLoads ((mbResult n 0 s).setLane n (fun l => { l with mbIndex := some (khIndex kh) }))

/-- A mailbox LOAD (R21 to R23, R235, R241, R252). -/
def mailboxLoad (n slot : Nat) (mode : LoadMode) (entry : Nat) (kh : Word) (s : State) : State :=
  if 4 ≤ n ∨ 2 ≤ slot then s.raise 64
  else if entry = 63 ∧ kh = 0 ∧ mode = .reload then
    let key := s.lanes.parkKey
    let cnt := s.lanes.parkCounts.getD n 0
    mbResult n 0 (s.setLane n (fun l => { l with parkKey := key, parkCnt := cnt }))
  else match s.ktab.cache.find? (fun e => e.index == khIndex kh) with
    | none => mbResult n 2 s
    | some e =>
      if e.gen ≠ khGen kh then mbResult n 3 (s.raise 64)
      else if slotIdle s n ((s.lane n).slot slot) = false then mbResult n 1 s
      else match mode with
        | .reload => match contextAt s n entry with
          | none => mbResult n 4 s
          | some x => if x.kh ≠ kh then mbResult n 4 s else mbLoad n kh (loadSlot n slot x.handle kh s)
        | .openUnseal =>
          let iv := (s.reg (laneBase n + 0x18) 0).toNat + (s.reg (laneBase n + 0x1C) 0).toNat * 2 ^ 32
          if (contextAt s n entry).isSome then mbResult n 4 s
          else if 2 ^ 48 - 1 ≤ iv then mbResult n 6 (s.raiseAt (83 + 8 * n) (.lane n) 0 0)
          else
            let x := rawContext n entry false kh (BitVec.ofNat 64 iv) (s.reg (laneBase n + 0x20) 0)
            mbLoad n kh (loadSlot n slot 0 kh { s with lanes := { s.lanes with streams := s.lanes.streams ++ [x] } })
        | .openSeal =>
          if (contextAt s n entry).isSome then mbResult n 4 s
          else match takeUnbound kh s with
            | (none, s) => mbResult n 5 s
            | (some v, s) =>
              if 2 ^ 48 - 1 ≤ v then mbResult n 6 (s.raiseAt (83 + 8 * n) (.lane n) 0 0)
              else
                let x := rawContext n entry true kh (BitVec.ofNat 64 v) (s.ktab.record (khIndex kh)).fixed
                mbLoad n kh (loadSlot n slot 0 kh { s with lanes := { s.lanes with streams := s.lanes.streams ++ [x] } })

/-- Does a key handle's generation differ from that of its key cache entry (R23)? -/
def wrongGeneration (s : State) (kh : Word) : Bool :=
  match s.ktab.cache.find? (fun e => e.index == khIndex kh) with | some e => e.gen != khGen kh | none => false

/-- A mailbox CLEAR: the slot, with the GHASH state of its key if in use; `release` also ends the entry's stream; a key handle of another generation than the cached entry's changes nothing and raises source 64 (R23, R251). -/
def mailboxClear (n slot : Nat) (release : Bool) (entry : Nat) (kh : Word) (s : State) : State :=
  if 4 ≤ n ∨ 2 ≤ slot then s.raise 64
  else if wrongGeneration s kh then mbResult n 3 (s.raise 64)
  else
    let s := match (s.lane n).slot slot with
      | some k => { s with lanes := { s.lanes with streams := s.lanes.streams.map (fun (x : Stream) =>
          if x.lane = n ∧ x.handle = k.handle ∧ x.state = StreamState.run then { x with ghash := 0, part := [] } else x) } }
      | none => s
    let s := s.setLane n (fun l => l.setSlot slot none)
    let s := if release then match contextAt s n entry with
      | some x => if x.handle = 0 then { s with lanes := { s.lanes with streams := s.lanes.streams.erase x } } else endStream x.handle s
      | none => s else s
    mbResult n 0 s

/-- A mailbox message finishes: done, and line 6 + n (R252, R428). -/
def mailboxDone (n : Nat) (s : State) : State :=
  if (s.lane n).mbRun then (holdLoads (s.setLane n (fun l => { l with mbRun := false, mbDone := true, mbIndex := none }))).line (6 + n) else s

/-! ### Binding lanes and entries (R220, R240 to R244) -/

/-- Context entries in use on a lane; entry 63 is reserved for the park key (R241). -/
def entriesOf (s : State) (n : Nat) : List Nat := (s.lanes.streams.filter (fun x => x.lane == n)).filterMap (·.entry)
/-- The lowest free entry of a lane. -/
def freeEntry (s : State) (n : Nat) : Option Nat := (List.range 64).find? (fun i => !(entriesOf s n).contains i)
/-- Bytes queued on a lane: the lengths of the DATA commands steered to it. -/
def bytesQueued (s : State) (n : Nat) : Nat :=
  (s.lane n).queue.foldl (fun a k => match s.command k with | some c => a + (if c.op = 0x0202 ∨ c.op = 0x0205 then c.entry.param 8 4 else 0) | none => a) 0
/-- The longest-idle stream of a lane that is not in RUN and holds an entry (R243, R244). -/
def longestIdle (s : State) (n : Nat) : Option Stream :=
  (s.lanes.streams.filter (fun x => x.lane == n && x.entry.isSome && x.state != .run && x.handle != 0)).foldl longerIdle none
/-- Of two lanes, the one with fewer bytes queued, the lower number on a tie. -/
def fewest (s : State) (l : List Nat) : Option Nat :=
  l.foldl (fun a n => match a with | none => some n | some m => if bytesQueued s n < bytesQueued s m then some n else a) none
/-- Unfenced lanes. -/
def openLanes (s : State) : List Nat := (List.range 4).filter (fun n => !s.isFenced 1 n)

/-- Park into the entry: the slot is cleared (R240). -/
def park1 (h : Nat) (s : State) : State :=
  match s.stream h with
  | none => s
  | some x => (s.setLane x.lane (clearSlotsOf h)).setStream h (fun x => { x with state := .park1 })

/-- Where an open is bound: a lane with a free entry, else a lane whose longest-idle stream can be pushed out (R220, R244). -/
def bindLane (s : State) : Option (Nat × State) :=
  match fewest s ((openLanes s).filter (fun n => (freeEntry s n).isSome)) with
  | some n => some (n, s)
  | none =>
    if 4096 ≤ parkedCount s then none
    else match fewest s ((openLanes s).filter (fun n => (longestIdle s n).isSome)) with
      | none => none
      | some n => match longestIdle s n with
        | none => none
        | some x => some (n, park2 x.handle s)

/-- The next stream handle in rotation (R221). -/
def nextHandle (s : State) : Nat → Nat → Nat
  | 0, h => h
  | fuel + 1, h =>
    let h := if h = 0xFFFE then 1 else h + 1
    if (s.stream h).isSome ∨ s.lanes.ended.any (fun e => e.handle == h) then nextHandle s fuel h else h

/-! ### Reservations (R204 to R206) -/

/-- RESERVE records of a key not yet in the flash tail. -/
def unflushedReserves (s : State) (kh : Word) : Nat :=
  (s.journal.recs.filter (fun r => decide (s.journal.flushed ≤ r.number) && (match r.body with | .reserve k _ => k == kh | _ => false))).length

/-- Reserve the next block of a key: journal the RESERVE record, and in solo mode flush it; in pair mode a fifth block outside the flash tail waits until an earlier one is there (R204, R206). -/
def reserveBlock (kh : Word) (s : State) : State :=
  if s.ktab.reserves.any (fun r => r.2.1 == kh) then s
  else
    let s := if 4 ≤ unflushedReserves s kh then flush s else s
    if s.pairMode = true ∧ 4 ≤ unflushedReserves s kh then s
    else
      let h := max (s.ktab.record (khIndex kh)).invHwm ((assocGet (khIndex kh) s.ktab.lostBlocks).getD 0) + 65536
      let n := s.journal.next
      let s := append 0xFFFF (.reserve kh h) s
      let s := { s with ktab := { s.ktab with reserves := s.ktab.reserves ++ [(n, kh, h)] } }
      if s.pairMode then s else flush s

/-- Raise the high-water marks whose RESERVE records have become COMMITTED; a block lost to a freeze is skipped (R204, R538). -/
def settleReserves (s : State) : State :=
  let ready := s.ktab.reserves.filter (fun r => decide (r.1 < s.journal.committed))
  let k := ready.foldl (fun k r => k.openBlock (khIndex r.2.1) r.2.2) s.ktab
  { s with ktab := { k with reserves := k.reserves.filter (fun r => !decide (r.1 < s.journal.committed)) } }

/-- Values left at which the next block is reserved ahead (KTAB_CTL.reserve_ahead, R215). -/
def reserveAhead (s : State) : Nat :=
  match fieldAt (s.reg 0x40060008 0) 3 2 with | 0 => 16384 | 1 => 4096 | _ => 0

/-- Is DRAW enabled (KTAB_CTL.draw_enable)? -/
def drawEnabled (s : State) : Bool := bitAt (s.reg 0x40060008 0) 1

/-! ### Opens (R224, R225, R234) -/

/-- Create the stream, load its key and answer the open. -/
def bindStream (key lane : Nat) (isSeal : Bool) (kh : Word) (seg : Word) (len life : Nat) (iv : Nat) (fixed : Word) (s : State) : State :=
  match s.command key, freeEntry s lane with
  | some c, some entry =>
    let h := nextHandle s 0xFFFE s.lanes.lastHandle
    let r := s.ktab.record (khIndex kh)
    let q := match c.src with | .queue q => q | _ => 0
    let x : Stream := {
      handle := h, isSeal := isSeal, lane := lane, entry := some entry, kh := kh, queue := q, openTag := c.entry.tag, openSeq := c.entry.seq,
      oid := r.oid, segIdx := seg, segLen := len, done := 0, chunks := [], tail := [], ghash := ghashStart r.dek r.oid seg len, part := [],
      iv := BitVec.ofNat 64 iv, fixed := fixed, lifetime := if life = 0 then 86400 else life, idleFrom := s.clock.time, state := .idle, restoring := false }
    let s := { s with
      lanes := { s.lanes with streams := s.lanes.streams ++ [x], lastHandle := h }
      journal := { s.journal with reserved := if isSeal then s.journal.reserved + 1 else s.journal.reserved } }
    let s := match slotFor s lane h with | some i => loadSlot lane i h kh s | none => s
    let ds := if isSeal && decide (iv = 2 ^ 48 - 2) then [Delta.key (khIndex kh) (s.ktab.record (khIndex kh))] else []
    complete key (degradeStream s { okay ([(12, h), (14, lane)] ++ if isSeal then [(16, iv), (24, fixed.toNat)] else []) with deltas := ds }) s
  | _, _ => complete key (answer 0x3003 []) s

/-- Is a key frozen out of new blocks: one that existed before the silence (R538)? -/
def frozenOut (s : State) (i : Nat) (r : KeyRecord) : Bool := s.pair.frozen && s.pair.freezeKeys.contains (i, r.gen)

/-- SEAL_OPEN on a key the record of which is at hand: its state, the hold, the room for staging, a lane, the draw with its reservation, the LOAD (R185, R204, R234, R237, R244, R264). A key whose last block was lost with the cache has no value left and no block to reserve: it is exhausted. DESIGN CHOICE (log 126) -/
def sealDraw (key : Nat) (e : Entry) (s : State) : State :=
  let kh := BitVec.ofNat 32 (e.param 8 4)
  let i := khIndex kh
  let r := s.ktab.record i
  if r.state = .decryptOnly ∧ r.exhausted = true then complete key (answer 0x3004 []) s
  else if r.state ≠ .active then complete key (conflict 0) s
  else if s.ktab.held r then complete key (answer 0x4006 []) s
  else if 1048576 ≤ s.journal.reserved + s.journal.staged.length then complete key (answer 0x3003 []) s
  else match bindLane s with
    | none => complete key (answer 0x3003 []) s
    | some (lane, sb) =>
      if (slotFor sb lane 0).isNone then (loadBusy lane s).waitOn key (.slot lane)
      else match s.ktab.drawNext (drawEnabled s) s.clock.time kh with
        | (0, k) =>
          let s := { sb with ktab := k }
          let left := (k.record i).invHwm - ((k.entry i).map (·.next)).getD 0
          let s := if left < reserveAhead s ∧ r.invHwm < 2 ^ 48 ∧ frozenOut s i r = false then reserveBlock kh s else s
          match takeUnbound kh s with
          | (some v, s) => bindStream key lane true kh (BitVec.ofNat 32 (e.param 0xC 4)) (e.param 0x10 8) (e.param 0x18 4) v r.fixed s
          | (none, s) => complete key (answer 0x6001 []) s
        | (8, k) =>
          if frozenOut s i r then complete key (answer 0x4006 []) { s with ktab := k }
          else if 2 ^ 48 ≤ r.invHwm then complete key { answer 0x3004 [] with deltas := [.key i (Ktab.exhaust r s.clock.time)] } s
          else
            let s := reserveBlock kh { s with ktab := k }
            s.waitOn key (match s.ktab.reserves.find? (fun x => x.2.1 == kh) with | some x => .reserve x.1 | none => .room kh)
        | (res, k) => complete key (ktabAnswer kh 8 res) { s with ktab := k }

/-- SEAL_OPEN's body (R185, R224, R225). -/
def sealOpen (key : Nat) (e : Entry) (s : State) : State :=
  if (openLanes s).isEmpty then complete key (unitFenced 1 0xFF) s
  else if s.isFenced 5 0 then complete key (unitFenced 5 0) s
  else if 67108864 < e.param 0x10 8 then complete key (lengthError 67108864) s
  else if 2592000 < e.param 0x18 4 then complete key (inputRange 0x18) s
  else withKey key (BitVec.ofNat 32 (e.param 8 4)) 8 (sealDraw key e) s

/-- UNSEAL_OPEN on a key the record of which is at hand (R185). -/
def unsealBind (key : Nat) (e : Entry) (s : State) : State :=
  let kh := BitVec.ofNat 32 (e.param 8 4)
  if (s.ktab.record (khIndex kh)).state = .shredded then complete key (conflict 0) s
  else match bindLane s with
    | none => complete key (answer 0x3003 []) s
    | some (lane, sb) =>
      if (slotFor sb lane 0).isNone then (loadBusy lane s).waitOn key (.slot lane)
      else bindStream key lane false kh (BitVec.ofNat 32 (e.param 0xC 4)) (e.param 0x10 8) (e.param 0x24 4) (e.param 0x18 8) (BitVec.ofNat 32 (e.param 0x20 4)) sb

/-- UNSEAL_OPEN's body (R224, R225). -/
def unsealOpen (key : Nat) (e : Entry) (s : State) : State :=
  let kh := BitVec.ofNat 32 (e.param 8 4)
  if (openLanes s).isEmpty then complete key (unitFenced 1 0xFF) s
  else if s.isFenced 5 0 then complete key (unitFenced 5 0) s
  else if 67108864 < e.param 0x10 8 then complete key (lengthError 67108864) s
  else if 2592000 < e.param 0x24 4 then complete key (inputRange 0x24) s
  else if 2 ^ 48 - 1 ≤ e.param 0x18 8 then complete key (inputRange 0x18) s
  else if fieldAt (BitVec.ofNat 32 (e.param 0x20 4)) 10 0 ≠ khGen kh then complete key (inputRange 0x20) s
  else withKey key kh 8 (unsealBind key e) s

/-! ### Data, close, abort, query (R226 to R231, R236, R239) -/

/-- Bring a stream back to an entry of its lane (R242, R243). -/
def resume (h : Nat) (s : State) : State :=
  match s.stream h with
  | none => s
  | some x =>
    let back (i : Nat) (x : Stream) : Stream := { x with entry := some i, state := .park1, restoring := true }
    if x.entry.isSome then s
    else match freeEntry s x.lane with
      | some i => s.setStream h (back i)
      | none =>
        let s := match longestIdle s x.lane with | some y => park2 y.handle s | none => s
        match freeEntry s x.lane with
        | some i => s.setStream h (back i)
        | none => s

/-- LANE_CTL.enable: the lane takes commands from the CQE; while it is clear the lane starts none (R250). DESIGN CHOICE (log 137) -/
def laneEnabled (s : State) (n : Nat) : Bool := bitAt (s.reg (laneBase n + 8) 0) 0
/-- The command in progress on a lane and those of its FIFO put their streams in RUN (R218, R222). -/
def enterFifo (n : Nat) (s : State) : State :=
  if laneEnabled s n = false then s else (busyHandles s n).foldl (fun s h => (resume h s).setStream h (fun x => { x with state := .run })) s

/-- Steer a stream command to its lane. -/
def steer (key n : Nat) (s : State) : State := enterFifo n ((s.setLane n (fun l => { l with queue := l.queue ++ [key] })).waitOn key (.lane n))

/-- Body of SEAL_DATA, SEAL_CLOSE, UNSEAL_DATA, UNSEAL_CLOSE: steered to the lane that owns the stream. A command of the other kind than the stream completes STATE_CONFLICT and leaves the stream as it is. DESIGN CHOICE -/
def streamCommand (key : Nat) (e : Entry) (s : State) : State :=
  match s.stream e.handle.toNat with
  | none => complete key (endedAnswer s e.handle.toNat) s
  | some x =>
    let sealing := match s.command key with | some c => decide (c.op = 0x0202 ∨ c.op = 0x0203) | none => x.isSeal
    if sealing != x.isSeal then complete key (conflict 0) s else steer key x.lane s

/-- Body of STREAM_ABORT: at once when the stream has no earlier command on its lane, else in its turn (R231). -/
def streamAbort (key : Nat) (e : Entry) (s : State) : State :=
  match s.stream e.handle.toNat with
  | none => complete key (endedAnswer s e.handle.toNat) s
  | some x =>
    if (s.lane x.lane).queue.any (fun k => match s.command k with | some c => c.entry.handle == e.handle | none => false) then steer key x.lane s
    else complete key (degradeStream s (okay [])) (endStream x.handle s)

/-- Stream state codes of STREAM_QUERY. -/
def StreamState.code : StreamState → Nat
  | .run => 1
  | .idle => 2
  | .park1 => 3
  | .park2 => 4

/-- Body of STREAM_QUERY (R231). -/
def streamQuery (key : Nat) (src : Source) (e : Entry) (s : State) : State :=
  let fromRing : Bool := match src with | .internal _ _ => true | _ => false
  let h := if fromRing then e.param 8 2 else e.handle.toNat
  match s.stream h with
  | none => complete key (if fromRing = true ∧ (s.lanes.ended.any (fun x => x.handle == h)) = false then invalidHandle 8 else endedAnswer s h) s
  | some x =>
    if fromRing = true ∧ x.queue ≠ e.param 0xA 2 then complete key (invalidHandle 8) s
    else
      let idle := if x.state = .run then 0 else (s.clock.time - x.idleFrom).toNat / 32768
      complete key (degradeStream s (okay [(12, StreamState.code x.state), (13, x.lane), (14, if x.isSeal then 0 else 1), (16, x.done),
        (24, x.lifetime - idle)])) s

/-- Drop the head of a lane's queue and let the next commands into the FIFO. -/
def popLane (n : Nat) (s : State) : State := enterFifo n (s.setLane n (fun l => { l with queue := l.queue.drop 1 }))

/-- After a command of a stream: idle again when no further command of it is queued (R222). -/
def restStream (n h : Nat) (s : State) : State :=
  if (busyHandles s n).contains h then s else s.setStream h (fun x => { x with state := .idle, idleFrom := s.clock.time, restoring := false })

/-- After a command that is no activity: IDLE or PARK1 as the unchanged idle time gives, once no further command of the stream is queued (R222). -/
def resumeIdle (n h : Nat) (s : State) : State :=
  match s.stream h with
  | none => s
  | some x =>
    if (busyHandles s n).contains h ∨ x.state ≠ .run then s
    else if idleTime s x < 328 then s.setStream h (fun x => { x with state := .idle, restoring := false })
    else (park1 h s).setStream h (fun x => { x with restoring := false })

/-- A DATA command on the lane (R219, R226 to R230, R238). -/
def laneData (key : Nat) (e : Entry) (x : Stream) (dek : Hash) (s : State) : State :=
  let len := e.param 8 4
  let port := 4 + x.queue / 64
  if len = 0 then complete key (lengthError 1) s
  else if 16777216 < len then complete key (lengthError 16777216) s
  else if x.segLen - x.done < len then complete key (lengthError (x.segLen - x.done)) s
  else match scatterList s port len e.addr0, scatterList s port len e.addr1 with
    | .error i, _ => complete key (listError i false) s
    | _, .error i => complete key (listError i true) s
    | .ok ins, .ok outs =>
      let inp := gather s port ins
      let out := gcmCrypt dek (ivOf x.fixed x.iv) x.done inp
      let ct := if x.isSeal then out else inp
      let g := ct.foldl (ghashByte dek) (x.ghash, x.part)
      let ch := ct.foldl chunkByte (x.chunks, x.tail)
      let s := scatter port outs out s
      let s := s.setStream x.handle (fun y => { y with done := x.done + len, ghash := g.1, part := g.2, chunks := ch.1, tail := ch.2 })
      let s := s.setLane x.lane (fun l => { l with bytes := (l.bytes + len) % 2 ^ 64 })
      complete key (degradeStream s (okay [(12, x.done + len), (20, ch.1.length)])) s

/-- The CQE passes a close's chunk hashes, tag and invocation value to the kernel, with line 1, before the completion is posted (R29, R428). -/
def passClose (x : Stream) (chunks : List Hash) (tag : QWord) (s : State) : State :=
  ({ s with lanes := { s.lanes with closing := some ⟨x.handle, chunks, tag, x.iv⟩ } }).line 1

/-- A CLOSE command on the lane (R231, R239, R264). -/
def laneClose (key : Nat) (e : Entry) (x : Stream) (dek : Hash) (s : State) : State :=
  if x.done ≠ x.segLen then complete key (lengthError x.segLen) s
  else
    let chunks := if x.tail.isEmpty then x.chunks else x.chunks ++ [Config.sha3 x.tail]
    let tag := gcmTagOf dek x
    let s := if e.addr1 = 0 then s else s.writeBytes (4 + x.queue / 64) e.addr1.toNat (chunkBytes chunks)
    if x.isSeal then
      let g : Segment := ⟨x.segIdx, x.kh, BitVec.ofNat 64 x.segLen, x.iv, x.fixed, tag, s.clock.time, chunks⟩
      let s := endStream x.handle (passClose x chunks tag s)
      complete key (degradeStream s ⟨0, tag, false, false, [.stage x.oid g]⟩) s
    else
      let s := endStream x.handle (passClose x chunks tag s)
      if tag.toNat = e.param 8 16 then complete key (degradeStream s (okay [(12, chunks.length)])) s
      else
        let s := s.setLane x.lane (fun l => { l with authFail := satInc 16 l.authFail })
        complete key { answer 0x5001 [] with untrusted := true } (s.raiseAt (85 + 8 * x.lane) (.lane x.lane) 0 0)

/-- The stream's context in DDR5 fails its check: DEVICE_FAULT, the stream ends, source 86 + 8n (R242). -/
def contextLost (key n : Nat) (x : Stream) (s : State) : State :=
  let s := complete key (answer 0x6001 []) (endStream x.handle s)
  s.raiseAt (86 + 8 * n) (.lane n) 0 0

/-- Carry out the command at the head of a lane's queue: restore its context, RELOAD its key, then its work (R218, R236, R242). `fill` is what a fill of the key finds where the cache lacks it, `context` whether the context from DDR5 verifies. -/
def laneRun (n : Nat) (fill : Verify) (context : Bool) (s : State) : State :=
  match (s.lane n).queue.head? with
  | none => s
  | some key =>
    match s.command key with
    | none => popLane n s
    | some c =>
      let h := c.entry.handle.toNat
      match s.stream h with
      | none => popLane n (complete key (endedAnswer s h) s)
      | some x =>
        if c.op = 0x0207 then popLane n (complete key (degradeStream s (okay [])) (endStream h s))
        else if x.restoring = true ∧ context = false then popLane n (contextLost key n x s)
        else
          let f := cacheFill x.kh fill s
          let s := f.2
          if f.1 ≠ 0 then
            (if c.op = 0x0202 ∨ c.op = 0x0205 then restStream n h else resumeIdle n h) (popLane n (complete key (ktabAnswer x.kh 6 f.1) s))
          else
            let s := match slotFor s n h with | some i => loadSlot n i h x.kh s | none => s
            let dek := (s.ktab.record (khIndex x.kh)).dek
            if c.op = 0x0202 ∨ c.op = 0x0205 then restStream n h (popLane n (laneData key c.entry x dek s))
            else resumeIdle n h (popLane n (laneClose key c.entry x dek s))

/-- The lanes flash-cleared: slots, park keys, GHASH and contexts (R88, R311). -/
def clearLanes (l : Lanes) : Lanes :=
  { l with lanes := l.lanes.map (fun x => { x with slot0 := none, slot1 := none, parkKey := none, parkCnt := 0, queue := [], mbRun := false, mbIndex := none }),
           streams := [], parkKey := none, parkCounts := [0, 0, 0, 0], closing := none }

/-- The kernel draws a park key and gives it to every lane with its park count (R241). -/
def drawParkKey (s : State) : State :=
  let k : Hash := s.fresh
  let s := s.drew
  { s with lanes := { s.lanes with parkKey := some k, parkCounts := [0, 0, 0, 0], lanes := s.lanes.lanes.map (fun (l : Lane) => { l with parkKey := some k, parkCnt := 0 }) } }
/-- STEEP: each lane writes its park count back into the reserved entry, and powers down with its slots (R73, R241). -/
def parkKeyBack (l : Lanes) : Lanes :=
  { l with parkCounts := l.lanes.map (fun (x : Lane) => x.parkCnt)
           lanes := l.lanes.map (fun (x : Lane) => { x with slot0 := none, slot1 := none, parkKey := none, parkCnt := 0, mbRun := false, mbDone := false, mbBusy := false, mbResult := 0, mbIndex := none }) }
/-- The wake from STEEP: the kernel reloads park key and counts into every lane (R241). -/
def parkKeyReload (l : Lanes) : Lanes :=
  { l with lanes := l.lanes.zipIdx.map (fun p => { p.1 with parkKey := l.parkKey, parkCnt := l.parkCounts.getD p.2 0 }) }

end Sys2Proof.Machine
end

