-- ==== Sys2Proof/Machine/Vault.lean ====
section
/-! DEFINITION. The vault: key derivation, check values, the wrap and derivation engine, lifecycle, kiln tiers, quorum grants (09_vault_kiln_lifecycle.md). -/

namespace Sys2Proof.Machine

/-! ### Key hierarchy (R288, R290, R292) -/

/-- The bytes of an ASCII label. -/
def ascii (s : String) : List Byte := s.toList.map (fun c => BitVec.ofNat 8 c.toNat)
/-- The KDF's fixed input: label, zero, context, output bits, padded to a multiple of 8 (R292). -/
def fixedInput (label : String) (ctx : List Byte) (outBytes : Nat) : List Byte :=
  pad8 (ascii label ++ [0] ++ ctx ++ beBytes 4 (8 * outBytes))
/-- The KDF: output block i is the CMAC of the 32-bit big-endian counter i, from 1, before the padded fixed input (R292). -/
def kdf (key : Hash) (fixed : List Byte) (n : Nat) : List Byte :=
  ((List.range ((n + 15) / 16)).flatMap (fun i => leBytes 16 (Config.cmac key (beBytes 4 (i + 1) ++ fixed)).toNat)).take n
/-- A 256-bit key derived from another (R292). -/
def kdf32 (key : Hash) (label : String) (ctx : List Byte) : Hash := BitVec.ofNat 256 (leNat (kdf key (fixedInput label ctx 32) 32))
/-- The check value of a key: the first 64 bits of its CMAC over 16 zero bytes (R290). -/
def checkValue (k : Hash) : DWord := (Config.cmac k (List.replicate 16 0)).setWidth 64
/-- The pair tag as 4 bytes. -/
def pairTagBytes (s : State) : List Byte := leBytes 4 s.pairTag.toNat

/-- Slot content. -/
def State.vslot (s : State) (n : Nat) : Option Hash := s.vault.slots.getD n none
/-- Replace a slot. -/
def State.setVslot (s : State) (n : Nat) (k : Option Hash) : State := { s with vault := { s.vault with slots := s.vault.slots.set n k } }

/-- Does the KEK store pass its check (VAULT_STATUS.kek_present)? -/
def kekPresent (s : State) : Bool := match s.vault.kek with | some k => checkValue k == s.nvm.kekCheck | none => false
/-- Does slot 0 hold a checked custody root? -/
def crPresent (s : State) : Bool := match s.vslot 0 with | some k => checkValue k == s.nvm.crCheck | none => false

/-- Put a custody root in slot 0 and derive slots 1 to 6 from it (R288, R292). -/
def deriveKeys (cr : Hash) (s : State) : State :=
  let tag := pairTagBytes s
  let tk := kdf32 cr "CXM TK" tag
  let slots := s.vault.slots
  let slots := slots.set 0 (some cr)
  let slots := slots.set 1 (some tk)
  let slots := slots.set 2 (some (kdf32 cr "CXM JK" tag))
  let slots := slots.set 3 (some (kdf32 cr "CXM XK" tag))
  let slots := slots.set 4 (some (kdf32 tk "CXM RE" []))
  let slots := slots.set 5 (some (kdf32 tk "CXM RM" []))
  let slots := slots.set 6 (some (kdf32 tk "CXM IX" []))
  { s with vault := { s.vault with slots := slots } }

/-- The stored lifecycle state; a blown fuse is RETIRED whatever the record says (R294). -/
def State.stored (s : State) : Lifecycle := if s.nvm.retireFuse then .retired else s.nvm.lifecycle
/-- Program the older copy of the lifecycle record with a new state under the next sequence number; RETIRED blows its fuse (R294). -/
def State.storeLifecycle (s : State) (l : Lifecycle) : State :=
  { s with nvm := { s.nvm with
      lifecycle := l, lifeSeq := s.nvm.lifeSeq + 1, lifeOld := s.nvm.lifecycle, retireFuse := s.nvm.retireFuse || l == .retired } }
/-- Current lifecycle state (R294): KEYLESS hides COMMISSIONED and FIELD alone. -/
def State.lifecycle (s : State) : Lifecycle :=
  match s.stored with
  | .commissioned => if s.vault.keyless then .keyless else .commissioned
  | .field => if s.vault.keyless then .keyless else .field
  | l => l
/-- Lifecycle codes (VAULT_LIFECYCLE). -/
def Lifecycle.code : Lifecycle → Nat
  | .blank => 0
  | .commissioned => 1
  | .field => 2
  | .keyless => 3
  | .retired => 4

/-- The boot ROM's judgement of the key store: KEYLESS, or the custody root unwrapped and the slots derived (R290). -/
def bootKeys (s : State) : State :=
  let stored := s.stored
  if stored = .blank ∨ stored = .retired then { s with vault := { s.vault with keyless := false } }
  else
    let lost := { s with vault := { s.vault with keyless := true } }
    match s.vault.kek.filter (· != 0) with
    | none => { lost with power := { lost.power with rstCause := lost.power.rstCause ||| bit32 9 true } }
    | some kek =>
      if checkValue kek ≠ s.nvm.kekCheck then lost
      else match Config.kwUnwrap kek s.nvm.wrappedCr with
        | none => lost.raise 121
        | some b =>
          let cr : Hash := BitVec.ofNat 256 (leNat b)
          if checkValue cr ≠ s.nvm.crCheck then lost.raise 121
          else deriveKeys cr { s with vault := { s.vault with keyless := false } }

/-- Generate a KEK, wrap the custody root under it and write both check values (R298, R316). -/
def adoptCr (kek cr : Hash) (s : State) : State :=
  let s := { s with
    vault := { s.vault with kek := some kek, keyless := false }
    nvm := { s.nvm with kekCheck := checkValue kek, crCheck := checkValue cr, wrappedCr := Config.kwWrap kek (leBytes 32 cr.toNat) } }
  deriveKeys cr s

/-! ### Engine (R291 to R293, R320, R321) -/

/-- VAULT base address. -/
def vaultBase : Nat := 0x40050000
/-- Base and size of control SRAM. -/
def sramBase : Nat := 0x10000000
/-- Size of control SRAM. -/
def sramSize : Nat := 0x800000

/-- Is the SRAM page of an address tagged secret in VAULT_STAG? -/
def pageTagged (s : State) (page : Nat) : Bool := bitAt (s.reg (vaultBase + 0x100 + 4 * (page / 32)) 0) (page % 32)
/-- Do `n` bytes at an address lie inside secret-tagged control SRAM pages? -/
def secretRange (s : State) (addr n : Nat) : Bool :=
  decide (sramBase ≤ addr) && decide (addr + n ≤ sramBase + sramSize) &&
    (List.range ((addr + n - 1) / 4096 - addr / 4096 + 1)).all (fun i => pageTagged s (addr / 4096 - sramBase / 4096 + i))

/-- Length check of an operation (R291). -/
def engLengthOk (op inLen outLen : Nat) : Bool :=
  match op with
  | 1 => decide (16 ≤ inLen ∧ inLen ≤ 1024 ∧ inLen % 8 = 0)
  | 2 => decide (24 ≤ inLen ∧ inLen ≤ 1032 ∧ inLen % 8 = 0)
  | 3 => decide (8 ≤ inLen ∧ inLen ≤ 256 ∧ inLen % 8 = 0 ∧ 16 ≤ outLen ∧ outLen ≤ 128 ∧ outLen % 16 = 0)
  | 4 => decide (8 ≤ inLen ∧ inLen ≤ 1024 ∧ inLen % 8 = 0)
  | _ => true

/-- A key slot's bytes as engine input. -/
def slotBytes (k : Option Hash) : List Byte := match k with | some h => leBytes 32 h.toNat | none => []

/-- Run an operation to its result and its output. Of several refusals the length is judged first, then the output's place, the slot lock, the key slot. DESIGN CHOICE -/
def engRun (op kslot : Nat) (kek : Bool) (dslot : Nat) (dsel : Bool) (s : State) : EngRun × Bool :=
  let src := (s.reg (vaultBase + 0x14) 0).toNat
  let dst := (s.reg (vaultBase + 0x18) 0).toNat
  let len := s.reg (vaultBase + 0x1C) 0
  let inLen := if op = 1 ∧ dsel = true then 32 else fieldAt len 10 0
  let outLen := fieldAt len 26 16
  let locked := bitAt (s.reg (vaultBase + 8) 0) 1
  let key := if kek then s.vault.kek else s.vslot kslot
  let input := if op = 1 ∧ dsel = true then slotBytes (s.vslot dslot) else s.readBytes 0 src inLen
  let fail (r : Nat) : EngRun := ⟨r, none, none⟩
  let toSlot := (decide (op = 2) || decide (op = 3)) && dsel
  let writes := toSlot || (decide (op = 5) && dsel)
  let produced := match op with | 2 => inLen - 8 | 3 => outLen | _ => 0
  if op ≠ 5 ∧ engLengthOk op inLen outLen = false then (fail 1, false)
  else if (op = 2 ∨ op = 3) ∧ toSlot = false ∧ secretRange s dst produced = false then (fail 6, false)
  else if writes = true ∧ locked = true ∧ dslot < 8 then (fail 4, true)
  else match op with
    | 5 => (⟨0, none, if dsel then some (dslot, none) else none⟩, false)
    | _ => match key with
      | none => (fail 3, false)
      | some k =>
        match op with
        | 1 => (⟨0, some (dst, Config.kwWrap k input), none⟩, false)
        | 2 => match Config.kwUnwrap k input with
          | none => (fail 2, false)
          | some o => (if toSlot then ⟨0, none, some (dslot, some (BitVec.ofNat 256 (leNat o)))⟩ else ⟨0, some (dst, o), none⟩, false)
        | 3 =>
          let o := kdf k input outLen
          (if toSlot then ⟨0, none, some (dslot, some (BitVec.ofNat 256 (leNat o)))⟩ else ⟨0, some (dst, o), none⟩, false)
        | _ => (⟨0, some (dst, leBytes 16 (Config.cmac k input).toNat), none⟩, false)

/-- Start an engine operation: ignored while the engine is disabled or busy. -/
def engStart (op kslot : Nat) (kek : Bool) (dslot : Nat) (dsel : Bool) (s : State) : State :=
  if bitAt (s.reg (vaultBase + 8) 0) 0 = false ∨ s.vault.run.isSome = true then s
  else
    let r := engRun op kslot kek dslot dsel s
    let s := { s with vault := { s.vault with run := some r.1, engDone := false } }
    if r.2 then s.raise 123 else s

/-- A write of VAULT_ENG_SRC, _DST, _LEN and then _CMD with an operation code, as one command (R320). -/
def engCommand (op : Nat) (c : EngCmd) (s : State) : State :=
  let s := s.setReg (vaultBase + 0x14) (c.src &&& 0xFFFFFFF8)
  let s := s.setReg (vaultBase + 0x18) (c.dst &&& 0xFFFFFFF8)
  let s := s.setReg (vaultBase + 0x1C) (put32 0 (c.inLen % 2048) ||| put32 16 (c.outLen % 2048))
  engStart op (c.kslot % 32) c.kek (c.dslot % 32) c.dsel s

/-- The running operation finishes: output, result, done, line 12 (R321, R428). -/
def engDone (s : State) : State :=
  match s.vault.run with
  | none => s
  | some r =>
    let s := { s with vault := { s.vault with run := none, engDone := true, engRes := r.result } }
    let s := match r.toMem with | some (a, bs) => s.dmaBytes 0 a bs | none => s
    let s := match r.toSlot with | some (n, k) => s.setVslot n k | none => s
    s.line 12

/-! ### Kiln (R310 to R316) -/

/-- Is a kiln in progress? -/
def State.kilning (s : State) : Bool := s.kiln.latch

/-- Tier 1: KEK store, vault slots and registers, tree root, lane slots with park keys, key cache (R311). The engine's output is discarded with result 5 (R315). -/
def tier1 (s : State) : State :=
  let clearLane (x : Lane) : Lane := { x with slot0 := none, slot1 := none, parkKey := none, parkCnt := 0, mbRun := false }
  { s with
    vault := { s.vault with
      kek := none, slots := List.replicate 32 none, pairs := none, run := none, keyless := true
      engDone := s.vault.engDone || s.vault.run.isSome, engRes := if s.vault.run.isSome then 5 else s.vault.engRes }
    ktab := { s.ktab.emptyCache with root := (0, 0), present := false }
    lanes := { s.lanes with
      lanes := s.lanes.lanes.map clearLane, parkKey := none, parkCounts := [0, 0, 0, 0]
      streams := s.lanes.streams.map (fun (x : Stream) => { x with ghash := 0, part := [] }) } }

/-- Set the kiln latch and clear tier 1; a trigger during a kiln is recorded only (R310, R311). -/
def fireKiln (trigger : Nat) (s : State) : State :=
  if s.kiln.latch then s
  else
    let s := tier1 s
    { s with kiln := { s.kiln with
        latch := true, stage := .tier1, tiers := 1, count := satInc 16 s.kiln.count, trigger := trigger, time := s.clock.time, incomplete := true } }

/-- Tier 1 alone, on the backup cell: the KEK store (R312, R478). -/
def cellKiln (trigger : Nat) (s : State) : State :=
  { s with
    vault := { s.vault with kek := none }
    kiln := { s.kiln with tiers := 1, count := satInc 16 s.kiln.count, trigger := trigger, time := s.clock.time } }

/-- Tier 2: operand memory, DRBG state, tagged SRAM pages, label keys, quorum sessions (R311). -/
def tier2 (s : State) : State :=
  let pages := (List.range 2048).filter (pageTagged s)
  let s := pages.foldl (fun s p => s.clearMem 0 (sramBase + 4096 * p) (sramBase + 4096 * (p + 1))) s
  { s with
    vault := { s.vault with sessions := [] }
    reader := { s.reader with keys := List.replicate 16 none }
    rng := { s.rng with state := .starting, drbg := 0 }
    pke := { s.pke with wiped := true } }

/-! ### Quorum grants (R300 to R306) -/

/-- Sessions not yet expired or ended. -/
def openSessions (s : State) : List Session := s.vault.sessions
/-- The session of a grant id. -/
def State.session (s : State) (g : BitVec 16) : Option Session := s.vault.sessions.find? (fun x => x.grant == g)
/-- Change a session. -/
def State.setSession (s : State) (g : BitVec 16) (f : Session → Session) : State :=
  { s with vault := { s.vault with sessions := s.vault.sessions.map (fun x => if x.grant = g then f x else x) } }
/-- End a session. -/
def State.endSession (s : State) (g : BitVec 16) : State := { s with vault := { s.vault with sessions := s.vault.sessions.filter (fun x => x.grant != g) } }
/-- Has a session's lifetime passed on LFCLK (R301)? -/
def expired (s : State) (x : Session) : Bool := decide (x.begin + x.lifetime * 32768 ≤ s.clock.lfclk)
/-- May a command of a class and target use this grant now (R305)? -/
def grantUsable (s : State) (g : BitVec 16) (cls : Nat) (target : DWord) : Bool :=
  match s.session g with
  | some x => x.granted && !x.used && x.reserved.isNone && !expired s x && x.cls == cls && x.target == target
  | none => false
/-- Reserve a grant for a command. -/
def reserveGrant (g : BitVec 16) (key : Nat) (s : State) : State := s.setSession g (fun x => { x with reserved := some key })
/-- The grant a command has reserved, if any. -/
def grantOf (s : State) (key : Nat) : Option Session := s.vault.sessions.find? (fun x => x.reserved == some key)
/-- The CUSTODY delta of a command, under its grant if it has one; where it refers to nothing else it refers to the grant's statement (R307). -/
def custodyDelta (s : State) (key subkind : Nat) (old new : DWord) (ref : Hash) : Delta :=
  match grantOf s key with
  | some x => .custody ⟨subkind, x.cls, x.grant, old, new, if ref = 0 then Config.sha3 x.statement else ref⟩
  | none => .custody ⟨subkind, 0, 0, old, new, ref⟩

/-- Erase the DDR5 key table (tier 3). -/
def tier3 (s : State) : State := { s with ktab := { s.ktab with records := [], buckets := [], stash := [], present := false } }

end Sys2Proof.Machine
end

