-- ==== Sys2Proof/Machine/Identity.lean ====
section
/-! DEFINITION. Who the module is: the four key pairs derived from the device root key, the certificate chain written at manufacture, the checks of a chain (10_public_key_engine.md, R341 to R343). -/

namespace Sys2Proof.Machine

/-- The order of the group of P-384 (FIPS 186-5). -/
def orderP384 : Nat := 0xffffffffffffffffffffffffffffffffffffffffffffffffc7634d81f4372ddf581a0db248b0a77aecec196accc52973

/-- A seed derived from the device root key: label, algorithm byte, length (R292, R341). -/
def rootSeed (label : String) (alg : Byte) (n : Nat) : List Byte := kdf Config.drk (fixedInput label [alg] n) n
/-- A P-384 private key from a 64-byte seed (R341, FIPS 186-5 A.2.1). -/
def privateP384 (seed : List Byte) : Nat := beNat seed % (orderP384 - 1) + 1
/-- The key pairs as the boot ROM derives them from the device root key (R341). -/
def rootPairs : KeyPairs where
  attestEc := privateP384 (rootSeed "CXM AT" 1 64)
  attestDsa := rootSeed "CXM AT" 2 32
  transportKem := rootSeed "CXM TR" 3 64
  transportEc := privateP384 (rootSeed "CXM TR" 1 64)
/-- Attestation public keys: ECDSA P-384 x ‖ y, then ML-DSA-87 (R342). -/
def KeyPairs.attestPublic (k : KeyPairs) : List Byte :=
  padTo 96 ((Config.p384Public k.attestEc).take 96) ++ padTo 2592 ((Config.mldsaPublic k.attestDsa).take 2592)
/-- Transport record: the ML-KEM-1024 encapsulation key, then P-384 x ‖ y (R342). -/
def KeyPairs.transportPublic (k : KeyPairs) : List Byte :=
  padTo 1568 ((Config.mlkemPublic k.transportKem).take 1568) ++ padTo 96 ((Config.p384Public k.transportEc).take 96)
/-- The pairs the vault holds; it derives the same at every boot. -/
def State.pairs (s : State) : KeyPairs := s.vault.pairs.getD rootPairs

/-- A certificate (R342): `kind` 1 root, 2 device; the issuer is the root. -/
def certificateBytes (kind : Nat) (subject : QWord) (keys transport : List Byte) : List Byte :=
  leBytes 4 0x58435254 ++ leBytes 2 1 ++ leBytes 1 kind ++ [0] ++ leBytes 16 subject.toNat ++ leBytes 16 Config.rootSerial.toNat
    ++ leBytes 8 (Config.certNotBefore kind).toNat ++ leBytes 8 (Config.certNotAfter kind).toNat ++ keys ++ transport
    ++ padTo 4728 ((Config.certSignature kind).take 4723)
/-- The Vilsy root certificate. -/
def rootCertificate : List Byte := certificateBytes 1 Config.rootSerial (padTo 2688 (Config.rootKeys.take 2688)) (List.replicate 1664 0)
/-- The device certificate, written at manufacture over the module's own public keys. -/
def deviceCertificate : List Byte := certificateBytes 2 Config.serial rootPairs.attestPublic rootPairs.transportPublic
/-- The chain: root certificate, then device certificate, 18,272 bytes. -/
def certificateChain : List Byte := rootCertificate ++ deviceCertificate

/-- Bytes of a certificate. -/
def certLen : Nat := 9136
/-- Attestation keys of a chain's device certificate. -/
def chainKeys (chain : List Byte) : List Byte := slice (chain.drop certLen) 0x38 2688
/-- Transport record of a chain's device certificate. -/
def chainTransport (chain : List Byte) : List Byte := slice (chain.drop certLen) 0xAB8 1664
/-- Do the issuer's two signatures of a certificate verify? -/
def certSigned (rootKeys cert : List Byte) : Bool := Config.sigOk rootKeys (cert.take 0x1138) (slice cert 0x1138 4723)
/-- Is a chain accepted for an object of a serial: the fused root digest, the root's signatures, the subject serial (R343)? -/
def chainOk (chain : List Byte) (serial : QWord) : Bool :=
  let root := chain.take certLen
  let keys := slice root 0x38 2688
  Config.sha3 (slice root 0x38 0xA80) == Config.rootDigest && certSigned keys root && certSigned keys (chain.drop certLen)
    && fieldOf (chain.drop certLen) 8 16 == serial.toNat

/-- Attestation keys of a HELLO's checked chain (R544). -/
def helloKeys (m : Hello) : List Byte := chainKeys m.chain

/-- At each boot the boot ROM derives the pairs and the kernel compares their public halves with the device certificate; a difference is source 121 (R341). -/
def bootPairs (agree : Bool) (s : State) : State :=
  let s := { s with vault := { s.vault with pairs := some rootPairs } }
  if agree then s else s.raise 121

/-- A signature pair over a message under the attestation keys, 96 + 4,627 bytes. -/
def State.attestSign (s : State) (msg : List Byte) (rnd : Nat) : List Byte :=
  padTo 96 ((Config.ecdsaSign s.pairs.attestEc msg rnd).take 96) ++ padTo 4627 ((Config.mldsaSign s.pairs.attestDsa msg rnd).take 4627)

/-- An ML-KEM-1024 ciphertext to a key. -/
def kemCiphertext (ek : List Byte) (rnd : Nat) : List Byte := padTo 1568 ((Config.kemEncap ek rnd).take 1568)
/-- Decapsulation under a seed d ‖ z: nothing from a string that is no ciphertext by its length. -/
def kemOpen (seed ct : List Byte) : Option Hash := if ct.length = 1568 then some (Config.kemDecap seed ct) else none

end Sys2Proof.Machine
end

