-- ==== Sys2Proof/Machine/Rng.lean ====
section
/-! DEFINITION. The entropy source: its request queue, health failures, seeding, and what waits for it (11_entropy_source.md). -/

namespace Sys2Proof.Machine

/-- RNG base address. -/
def rngBase : Nat := 0x40030000

/-- Is the DRBG able to generate? -/
def rngReady (s : State) : Bool := s.rng.state == .seeded && !s.rng.faulted
/-- Default timeout in milliseconds (RNG_TIMEOUT). -/
def rngTimeout (s : State) : Nat := fieldAt (s.reg (rngBase + 0xC) 20) 9 0
/-- Does RNG_CTL permit raw mode? -/
def rawTap (s : State) : Bool := bitAt (s.reg (rngBase + 8) 0) 0

/-- Move requests the kernel holds into free queue entries, in order (R359). -/
def rngRefill (r : Rng) : Rng :=
  let n := 32 - r.queue.length
  { r with queue := r.queue ++ r.waiting.take n, waiting := r.waiting.drop n }

/-- The kernel asks for random bytes; the request waits in the kernel while the queue is full. Returns its id. -/
def rngAsk (user : RngUser) (mode len timeout : Nat) (s : State) : Nat × State :=
  let r : RngReq := ⟨s.rng.nextId, user, mode, len, if timeout = 0 then rngTimeout s else timeout⟩
  (r.id, { s with rng := rngRefill { s.rng with waiting := s.rng.waiting ++ [r], nextId := s.rng.nextId + 1 } })

/-- A write of RNG_REQ: one push, or the queue overrun flag (R372). -/
def rngReqWrite (v : Word) (s : State) : State :=
  let rsv := decide (fieldAt v 29 28 ≠ 0)
  let s := if rsv then setStatusBits rngBase 1 s else s
  if fieldAt v 31 30 = 3 then setStatusBits rngBase 2 s
  else if 32 ≤ s.rng.queue.length then { s with rng := { s.rng with overrun := true } }
  else
    let tmo := fieldAt (s.reg (rngBase + 0x14) 0) 9 0
    let r : RngReq := ⟨s.rng.nextId, .ticket (fieldAt v 15 0) (s.reg (rngBase + 0x10) 0).toNat, fieldAt v 31 30, 16 * (fieldAt v 27 16 + 1),
      if tmo = 0 then rngTimeout s else tmo⟩
    { s with rng := { s.rng with queue := s.rng.queue ++ [r], nextId := s.rng.nextId + 1 } }

/-- A finished hardware request waits in RNG_DONE, with line 11 (R373, R428). -/
def rngFinish (result ticket : Nat) (s : State) : State :=
  ({ s with rng := { s.rng with finished := s.rng.finished ++ [(result, ticket)] } }).line 11

/-- LFCLK periods of the reseed period (R371). -/
def reseedPeriod (s : State) : Nat := match fieldAt (s.reg (rngBase + 8) 0) 5 4 with | 0 => 3277 | 1 => 328 | _ => 32768

/-! ### Conditioning and the DRBG (R355 to R357) -/

/-- One conditioned block: CMAC under the fused key of 2,560 grist bits, credited with 128 bits (R355). -/
def conditioned (n : Nat) : QWord := Config.cmac Config.gristKey ((List.range 320).map (Config.freeBytes n))
/-- The pool refills to four blocks while the source is not blocked (R355). -/
def fillPool (s : State) : State :=
  { s with freeCtr := s.freeCtr + 4, rng := { s.rng with pool := (s.rng.pool ++ (List.range 4).map (fun i => conditioned (s.freeCtr + i))).take 4 } }
/-- The pool's 512 bits. -/
def poolBytes (r : Rng) : List Byte := r.pool.flatMap (fun b => leBytes 16 b.toNat)
/-- A reseed from the whole pool. -/
def reseed (s : State) : State :=
  let s := fillPool s
  { s with rng := { s.rng with
      drbg := Config.drbgReseed s.rng.drbg (poolBytes s.rng), pool := [], reseeds := satInc 32 s.rng.reseeds, lastReseed := s.clock.lfclk } }
/-- An instantiation: 384 bits of entropy input and 128 of nonce from the pool, serial and power-on count. -/
def instantiate (s : State) : State :=
  let s := fillPool s
  let b := poolBytes s.rng
  { s with rng := { s.rng with
      drbg := Config.drbgInstantiate (b.take 48) (b.drop 48) (leBytes 16 Config.serial.toNat ++ leBytes 4 s.nvm.powerOns), pool := [], lastReseed := s.clock.lfclk } }

/-- A generate request reseeds first when the period or the count has passed, or on prediction resistance (R357). -/
def generateReseed (mode len : Nat) (s : State) : State :=
  let r := s.rng
  if mode = 2 then s
  else
    let due := decide (mode = 1) || bitAt (s.reg (rngBase + 8) 0) 1 || decide (reseedPeriod s ≤ s.clock.lfclk - r.lastReseed) || decide (2 ^ 20 ≤ r.served)
    let s := if due then reseed s else s
    { s with rng := { s.rng with served := if due then 1 else r.served + 1, drbg := Config.drbgGenerate s.rng.drbg len } }

/-- Release a request's output to its consumer. -/
def rngRelease (r : RngReq) (s : State) : State :=
  match r.user with
  | .ticket t addr =>
    if r.mode = 2 ∧ rawTap s = false then rngFinish 2 t s
    else rngFinish 0 t ((s.dmaBytes 0 addr (s.freshBytes r.len)).drew)
  | .command key => s.waitOn key .ready
  | .job id =>
    let n := s.freeCtr
    { s.drew with pke := { s.pke with jobs := s.pke.jobs.map (fun j => if j.id = id then { j with rnd := some n } else j) } }

/-- The oldest request is generated whole and released; while the DRBG is not seeded only raw grist is (R359, R361). -/
def rngServe (s : State) : State :=
  match s.rng.queue with
  | [] => s
  | r :: t =>
    if r.mode ≠ 2 ∧ rngReady s = false then s
    else rngRelease r (generateReseed r.mode r.len { s with rng := rngRefill { s.rng with queue := t } })

/-- Take a request out of the queue or the kernel's hands. -/
def rngWithdraw (id : Nat) (s : State) : Option RngReq × State :=
  match (s.rng.queue ++ s.rng.waiting).find? (fun r => r.id == id) with
  | none => (none, s)
  | some r => (some r, { s with rng := rngRefill { s.rng with
      queue := s.rng.queue.filter (fun x => x.id != id), waiting := s.rng.waiting.filter (fun x => x.id != id) } })

/-- The longest run of one value. -/
def longestRun : Option Bool → Nat → List Bool → Nat
  | _, n, [] => n
  | v, n, b :: t => if v = some b then longestRun v (n + 1) t else max n (longestRun (some b) 1 t)
/-- Does a test fail on what it saw: 51 identical consecutive bits; 700 or more of the first bit's value in a window of 1,024; no sample for 10 µs (R352, R353)? -/
def rngFailed (k : RngFail) : Bool :=
  match k with
  | .rct bits => decide (51 ≤ longestRun none 0 bits)
  | .apt w => w.length == 1024 && decide (700 ≤ w.count (w.headD false))
  | .starve us => decide (10 ≤ us)

/-- A failed RCT, APT or starvation check (R354, R358): the pool goes; the DRBG keeps its state and is blocked. During start-up it restarts the test; four in a row raise source 118. -/
def rngBlock (kind : RngFail) (s : State) : State :=
  let r := { s.rng with pool := [] }
  let r := match kind with
    | .apt _ => { r with aptFails := satInc 16 r.aptFails }
    | _ => { r with rctFails := satInc 16 r.rctFails }
  if r.state = .seeded then ({ s with rng := { r with state := .blocked, startFails := 0 } }).raise 116
  else if r.startFails = 3 then ({ s with rng := { r with startFails := 0 } }).raise 118
  else { s with rng := { r with startFails := r.startFails + 1 } }

/-- Start-up ends: instantiated, or reseeded after a blocking failure; latch-field sensing arms (R358, R365). -/
def rngSeed (s : State) : State :=
  if s.rng.faulted then s
  else match s.rng.state with
    | .seeded => s
    | .starting =>
      let s := instantiate s
      { s with
        rng := { s.rng with state := .seeded, armed := true, startFails := 0, served := 0 }
        tamper := { s.tamper with armed := s.tamper.armed ||| 0x2000 } }
    | .blocked =>
      let s := reseed s
      { s with rng := { s.rng with state := .seeded, startFails := 0, served := 0 } }

/-- Windows in which an oscillator counts outside its range (R351). -/
def aliveFailures (ws : List (Nat × Nat)) : Nat :=
  (ws.filter (fun w => decide (w.1 < 300 ∨ 500 < w.1 ∨ w.2 < 330 ∨ 530 < w.2))).length
/-- Not-locked failures in measurements of A edges per 4,096 B edges: one for 16 identical ones in a row; `run` of them with the value `v` stand before (R351). -/
def lockFailures (v run : Nat) : List Nat → Nat
  | [] => 0
  | x :: t =>
    let n := if x = v then run + 1 else 1
    if n = 16 then 1 + lockFailures x 0 t else lockFailures x n t

/-! ### Latch-field samples (R365, R366, R368) -/

/-- Is domain 32 powered? -/
def rngPowered (s : State) : Bool := s.power.mode == .run && (s.power.supply == .starting || s.power.supply == .running)
/-- The distance of two codes. -/
def codeStep (a b : Nat) : Nat := (a - b) + (b - a)
/-- A sample of the 16 codes. A code is a free value; a step that reaches the threshold is not among them: it is source 141's, whose monitor asserts it. DESIGN CHOICE (log 141) -/
def latchSample (s : State) : State :=
  let r := s.rng
  let th := fieldAt (s.reg (rngBase + 0x40) 32) 7 0
  let f := s.freshBytes 32
  let first : Bool := r.lfCount == 0
  let now := r.lfCodes.mapIdx (fun i c => let x := leNat ((f.drop (2 * i)).take 2) % 1024; if first || decide (codeStep x c < th) then x else c)
  { s.drew with rng := { r with
      lfCodes := now
      lfLow := if first then now else List.zipWith min r.lfLow now
      lfHigh := if first then now else List.zipWith max r.lfHigh now
      lfBig := if first then List.replicate 16 0 else List.zipWith max r.lfBig (List.zipWith codeStep now r.lfCodes)
      lfCount := r.lfCount + 1, lfTime := s.clock.time } }
/-- What several samples before the latest leave: codes anywhere, steps below the threshold. -/
def latchDrift (n : Nat) (s : State) : State :=
  let r := s.rng
  let th := fieldAt (s.reg (rngBase + 0x40) 32) 7 0
  let f := s.freshBytes 128
  let at_ (i : Nat) : Nat := leNat ((f.drop (2 * i)).take 2) % 1024
  let now := (List.range 16).map at_
  { s.drew with rng := { r with
      lfCodes := now
      lfLow := (List.range 16).map (fun i => min (now.getD i 0) (at_ (16 + i)))
      lfHigh := (List.range 16).map (fun i => max (now.getD i 0) (at_ (32 + i)))
      lfBig := List.zipWith max r.lfBig ((List.range 16).map (fun i => at_ (48 + i) % th))
      lfCount := r.lfCount + n, lfTime := s.clock.time } }
/-- The samples of a span of LFCLK that ends now: one each millisecond (R365). -/
def latchTick (n : Nat) (s : State) : State :=
  let m := s.clock.lfclk * 1000 / 32768 - (s.clock.lfclk - n) * 1000 / 32768
  if rngPowered s = false ∨ m = 0 then s else latchSample (if m = 1 then s else latchDrift (m - 1) s)
/-- Restart the records of lowest and highest code and largest step (R368). -/
def latchRestart (s : State) : State :=
  { s with rng := { s.rng with lfLow := s.rng.lfCodes, lfHigh := s.rng.lfCodes, lfBig := List.replicate 16 0 } }
/-- Does a cell stand at a DAC rail? -/
def cellRail (s : State) : Bool := s.rng.lfCodes.any (fun c => c == 0 || c == 1023)

/-- Oscillator health failures fall in one window: counted, and source 117 at the programmed count (R351). -/
def rngHealth (alive notLocked : Nat) (s : State) : State :=
  let r := s.rng
  let s := { s with rng := { r with alive := min 65535 (r.alive + alive), notLocked := min 65535 (r.notLocked + notLocked) } }
  if fieldAt (s.reg (rngBase + 0x24) 0x000403E8) 23 16 ≤ alive + notLocked then
    ({ s with rng := { s.rng with oscFault := true } }).raise 117
  else s

/-- RNG_DONE: the oldest finished request, removed (R373). -/
def rngTakeDone (s : State) : Word × State :=
  match s.rng.finished with
  | [] => (0, s)
  | (r, t) :: l =>
    let s := { s with rng := { s.rng with finished := l } }
    (bit32 31 true ||| put32 16 r ||| put32 0 (t % 65536), if l.isEmpty then s.unline 11 else s)

/-- Every waiting kernel request ends with result 3 (R373). -/
def rngEndAll (s : State) : State :=
  let ts := (s.rng.queue ++ s.rng.waiting).filterMap (fun r => match r.user with | .ticket t _ => some (3, t) | _ => none)
  let s := { s with rng := { s.rng with queue := [], waiting := [], finished := s.rng.finished ++ ts } }
  if ts.isEmpty then s else s.line 11

/-- The source as domain 32 powers off or resets: the DRBG's state goes and the waiting requests end; counters are the power-on's own (R358, R362). -/
def rngRestart (s : State) : State :=
  let s := rngEndAll s
  { s with
    rng := { s.rng with
      state := .starting, faulted := false, armed := false, startFails := 0, pool := [], drbg := 0
      lfCodes := Rng.reset.lfCodes, lfLow := Rng.reset.lfLow, lfHigh := Rng.reset.lfHigh, lfBig := Rng.reset.lfBig, lfCount := 0 }
    tamper := { s.tamper with armed := s.tamper.armed &&& 0x1DFFF } }

/-- A failed known-answer test or parity check of the DRBG: source 119, and the DRBG is blocked until domain 32 next powers up (R369). -/
def drbgFault (s : State) : State := ({ s with rng := { s.rng with faulted := true, state := .blocked } }).raise 119

end Sys2Proof.Machine
end

