-- ==== Sys2Proof/Machine/Pke.lean ====
section
/-! DEFINITION. The public-key engine: parameter checks, operand layouts, the job ring, dispatch, job ends (10_public_key_engine.md). -/

namespace Sys2Proof.Machine

/-- PKE base address. -/
def pkeBase : Nat := 0x40040000

/-! ### Layouts (R325) -/

/-- Hash output bytes. -/
def hashLen : Nat → Nat
  | 1 => 32 | 2 => 48 | 3 => 64 | 4 => 32 | 5 => 48 | 6 => 64 | _ => 0
/-- Field bytes of a P-curve. -/
def curveLen : Nat → Nat
  | 2 => 32 | 3 => 48 | 4 => 66 | _ => 0
/-- Private or public key bytes of an Edwards curve. -/
def edLen (alg : Nat) : Nat := if alg = 5 then 32 else 57
/-- Signature bytes of an Edwards curve. -/
def edSig (alg : Nat) : Nat := if alg = 5 then 64 else 114
/-- ML-KEM sizes: ek, dk, c. -/
def kemLen (alg : Nat) : Nat × Nat × Nat := if alg = 8 then (1184, 2400, 1088) else (1568, 3168, 1568)
/-- ML-DSA sizes: pk, sk, signature. -/
def dsaLen (alg : Nat) : Nat × Nat × Nat := if alg = 10 then (1952, 4032, 3309) else (2592, 4896, 4627)

/-- The schemes an operation takes with an algorithm (R325); operations: 1 sign, 2 verify, 3 encapsulate, 4 decapsulate, 5 agree, 6 keygen, 7 modexp. -/
def schemesOf (alg op : Nat) : List Nat :=
  match alg with
  | 1 => match op with | 1 => [1] | 2 => [1] | 3 => [2] | 4 => [2] | 6 => [3] | 7 => [3] | _ => []
  | 2 | 3 | 4 => match op with | 1 => [1] | 2 => [1] | 6 => [1] | 5 => [2] | _ => []
  | 5 | 6 => if op = 1 ∨ op = 2 ∨ op = 6 then [0] else []
  | 7 => if op = 5 ∨ op = 6 then [0] else []
  | 8 | 9 => if op = 3 ∨ op = 4 ∨ op = 6 then [0] else []
  | 10 | 11 => if op = 1 ∨ op = 2 ∨ op = 6 then [0] else []
  | _ => []

/-- Does the job use a digest? -/
def usesDigest (p : PkeParams) : Bool :=
  (p.alg == 1 && (p.scheme == 1 || p.scheme == 2)) || (decide (2 ≤ p.alg ∧ p.alg ≤ 4) && (p.op == 1 || p.op == 2))

/-- Is the private key in the input? -/
def keyHere (p : PkeParams) (n : Nat) : Nat := if p.keysrc = 0 then n else 0

/-- Least and greatest input length (R325). -/
def inputLen (p : PkeParams) : Nat × Nat :=
  let k := p.bits / 8
  let h := hashLen p.hash
  let c := curveLen p.alg
  let rsaKey := k + 4 + 5 * (k / 2)
  let one (n : Nat) : Nat × Nat := (n, n)
  let upto (n : Nat) : Nat × Nat := (n, n + 16384)
  match p.alg with
  | 1 => match p.op with
    | 1 => one (rsaKey + h)
    | 2 => one (k + 4 + h + k)
    | 3 => (k + 4 + 1, k + 4 + (k - 2 * h - 2))
    | 4 => one (rsaKey + k)
    | 7 => one (k + (p.expBits + 7) / 8 + k)
    | _ => one 0
  | 2 | 3 | 4 => match p.op with
    | 1 => one (keyHere p c + h)
    | 2 => one (2 * c + h + 2 * c)
    | 5 => one (keyHere p c + 2 * c)
    | _ => one 0
  | 5 | 6 => match p.op with
    | 1 => upto (edLen p.alg + p.ctxLen)
    | 2 => upto (edLen p.alg + p.ctxLen + edSig p.alg)
    | _ => one 0
  | 7 => if p.op = 5 then one 64 else one 0
  | 8 | 9 => match p.op with
    | 3 => one (kemLen p.alg).1
    | 4 => one (keyHere p (kemLen p.alg).2.1 + (kemLen p.alg).2.2)
    | _ => one 0
  | _ => match p.op with
    | 1 => upto (keyHere p (dsaLen p.alg).2.1 + p.ctxLen)
    | 2 => upto ((dsaLen p.alg).1 + p.ctxLen + (dsaLen p.alg).2.2)
    | _ => one 0

/-- Output length (R325). -/
def outputLen (p : PkeParams) : Nat :=
  let k := p.bits / 8
  let c := curveLen p.alg
  match p.alg with
  | 1 => match p.op with
    | 2 => 0
    | 4 => k - 2 * hashLen p.hash - 2
    | 6 => k + 4 + 5 * (k / 2)
    | _ => k
  | 2 | 3 | 4 => match p.op with | 1 => 2 * c | 5 => c | 6 => 3 * c | _ => 0
  | 5 | 6 => match p.op with | 1 => edSig p.alg | 6 => 2 * edLen p.alg | _ => 0
  | 7 => if p.op = 5 then 32 else 64
  | 8 | 9 => match p.op with
    | 3 => (kemLen p.alg).2.2 + 32
    | 4 => 32
    | _ => (kemLen p.alg).1 + (kemLen p.alg).2.1
  | _ => match p.op with | 1 => (dsaLen p.alg).2.2 | 6 => (dsaLen p.alg).1 + (dsaLen p.alg).2.1 | _ => 0

/-- The operations that may name keysrc 1 or 2 (R326). -/
def keysrcSuits (p : PkeParams) : Bool :=
  match p.keysrc with
  | 0 => true
  | 1 => p.op == 1 && ((p.alg == 3 && p.scheme == 1) || p.alg == 11)
  | 2 => (p.op == 4 && p.alg == 9) || (p.op == 5 && p.alg == 3)
  | _ => false

/-- The checks of R324 in order, on the parameters, input and output lengths of an entry from a source. -/
def pkeCheck (p : PkeParams) (inLen outLen : Nat) (ring0 : Bool) : Option Result :=
  let range := inputLen p
  if schemesOf p.alg p.op = [] then some (inputRange 8)
  else if (schemesOf p.alg p.op).contains p.scheme = false then some (inputRange 9)
  else if usesDigest p ≠ (p.hash != 0) then some (inputRange 0xA)
  else if (if p.alg = 1 then decide (2048 ≤ p.bits ∧ p.bits ≤ 8192 ∧ p.bits % 64 = 0) else p.bits == 0) = false then some (inputRange 0xC)
  else if (if p.op = 7 then decide (1 ≤ p.expBits ∧ p.expBits ≤ 8192) else p.expBits == 0) = false then some (inputRange 0xE)
  else if p.ctxLen ≠ 0 ∧ p.alg ≠ 6 ∧ p.alg ≠ 10 ∧ p.alg ≠ 11 then some (inputRange 0x18)
  else if keysrcSuits p = false then some (inputRange 0xB)
  else if p.keysrc ≠ 0 ∧ ring0 = false then some (notAuthorized 7)
  else if inLen < range.1 ∨ range.2 < inLen then some (lengthError range.2)
  else if outLen < outputLen p then some (lengthError (outputLen p))
  else none

/-! ### Values (R336) -/

/-- b^e mod n by repeated squaring over `fuel` exponent bits. -/
def modPow (n : Nat) : Nat → Nat → Nat → Nat
  | 0, _, _ => 1 % n
  | fuel + 1, b, e =>
    let r := modPow n fuel (b * b % n) (e / 2)
    if e % 2 = 1 then r * b % n else r

/-- The big-endian field of an input at an offset. -/
def beField (l : List Byte) (off n : Nat) : Nat := beNat (slice l off n)

/-- Is an RSA private key well formed and consistent (R336)? -/
def rsaKeyOk (l : List Byte) (k : Nat) : Bool :=
  let f (i : Nat) : Nat := beField l (k + 4 + i * (k / 2)) (k / 2)
  let n := beField l 0 k
  let e := beField l k 4
  e % 2 == 1 && decide (3 ≤ e) && f 0 * f 1 == n && decide (e * f 2 % (f 0 - 1) = 1 ∧ e * f 3 % (f 1 - 1) = 1 ∧ f 1 * f 4 % f 0 = 1)

/-- The number list by which the uninterpreted functions know a job. -/
def PkeParams.code (p : PkeParams) (rnd : Nat) : List Nat := [p.alg, p.op, p.scheme, p.hash, p.keysrc, p.bits, p.expBits, p.ctxLen, rnd]

/-- The judgement of an RSA job's operands: 0 sound, 1 out of range (R336). -/
def rsaJudgement (p : PkeParams) (l : List Byte) : Nat :=
  let k := p.bits / 8
  let n := beField l 0 k
  if n % 2 = 0 ∨ n < 2 ^ (p.bits - 1) then 1
  else match p.op with
    | 7 =>
      let el := (p.expBits + 7) / 8
      if n ≤ beField l (k + el) k ∨ 2 ^ p.expBits ≤ beField l k el then 1 else 0
    | 1 => if rsaKeyOk l k then 0 else 1
    | 4 =>
      let c := beField l (k + 4 + 5 * (k / 2)) k
      if rsaKeyOk l k = false ∨ n ≤ c ∨ c = 0 ∨ Config.pkeSound (p.code 0) l = false then 1 else 0
    | _ => if beField l k 4 % 2 = 0 ∨ beField l k 4 < 3 then 1 else 0

/-- Field prime, group order and coefficient b of a P-curve, y² = x³ - 3x + b (FIPS 186-5, SP 800-186). -/
def curveOf : Nat → Nat × Nat × Nat
  | 2 => (2 ^ 256 - 2 ^ 224 + 2 ^ 192 + 2 ^ 96 - 1, 0xffffffff00000000ffffffffffffffffbce6faada7179e84f3b9cac2fc632551,
      0x5ac635d8aa3a93e7b3ebbd55769886bc651d06b0cc53b0f63bce3c3e27d2604b)
  | 3 => (2 ^ 384 - 2 ^ 128 - 2 ^ 96 + 2 ^ 32 - 1, orderP384,
      0xb3312fa7e23ee7e4988e056be3f82d19181d9c6efe8141120314088f5013875ac656398d8a2ed19d2a85c8edd3ec2aef)
  | _ => (2 ^ 521 - 1, 2 ^ 521 - 2 ^ 260 + 0xA51868783BF2F966B7FCC0148F709A5D03BB5C9B8899C47AEBB6FB71E91386409,
      0x0051953eb9618e1c9a1f929a21a0b68540eea2da725b99b315f3b8b489918ef109e156193951ec7e937b1652c0bd3bb1bf073573df883d2c34f1ef451fd46b503f00)
/-- Is a point off its curve, a coordinate not below the prime, or infinity as all zeros? -/
def offCurve (alg x y : Nat) : Bool :=
  let (q, _, b) := curveOf alg
  decide (q ≤ x ∨ q ≤ y) || (x == 0 && y == 0) || y * y % q != (x * x * x + (q - 3) * x + b) % q
/-- The judgement of a P-curve job's operands: 1 scalar out of range, 2 point not on the curve; the scalar first. DESIGN CHOICE (log 140) -/
def curveJudgement (p : PkeParams) (l : List Byte) : Nat :=
  let c := curveLen p.alg
  let at_ := keyHere p c
  let d := beField l 0 c
  if p.op ≠ 2 ∧ p.keysrc = 0 ∧ (d = 0 ∨ (curveOf p.alg).2.1 ≤ d) then 1
  else if p.op = 2 then (if offCurve p.alg (beField l 0 c) (beField l c c) then 2 else 0)
  else if p.op = 5 then (if offCurve p.alg (beField l at_ c) (beField l (at_ + c) c) then 2 else 0)
  else 0

/-- Field prime and group order of an Edwards curve (RFC 8032). -/
def edwardsOf (alg : Nat) : Nat × Nat :=
  if alg = 5 then (2 ^ 255 - 19, 2 ^ 252 + 27742317777372353535851937790883648493)
  else (2 ^ 448 - 2 ^ 224 - 1, 2 ^ 446 - 13818066809895115352007386748515426880336692474882178609894547503885)
/-- The y of an encoded Edwards point, its sign bit dropped. -/
def edwardsY (alg : Nat) (l : List Byte) : Nat := leNat (l.take (edLen alg)) % 2 ^ (8 * edLen alg - 1)

/-- The 12-bit coefficients of a byte string (FIPS 203, ByteDecode). -/
def coefficients : List Byte → List Nat
  | a :: b :: c :: t => (a.toNat + 256 * (b.toNat % 16)) :: (b.toNat / 16 + 16 * c.toNat) :: coefficients t
  | _ => []
/-- The modulus check of an encapsulation key. -/
def kemKeyOk (alg : Nat) (ek : List Byte) : Bool := (coefficients (ek.take ((kemLen alg).1 - 32))).all (fun x => decide (x < 3329))
/-- The hash check of a decapsulation key: it holds the SHA3-256 of its encapsulation key. -/
def kemDkOk (alg : Nat) (dk : List Byte) : Bool :=
  let n := (kemLen alg).1
  leNat (slice dk (2 * n - 32) 32) == (Config.sha3 (slice dk (n - 32) n)).toNat

/-- The judgement of a job's operands: 0 sound, 1 out of range, 2 not on the curve (R336). -/
def pkeJudgement (p : PkeParams) (l : List Byte) : Nat :=
  match p.alg with
  | 1 => rsaJudgement p l
  | 2 | 3 | 4 => curveJudgement p l
  | 5 | 6 => if p.op = 2 ∧ ((edwardsOf p.alg).1 ≤ edwardsY p.alg l ∨ Config.pkeSound (p.code 0) l = false) then 2 else 0
  | 7 => if Config.pkeSound (p.code 0) l then 0 else 1
  | 8 | 9 => match p.op with
    | 3 => if kemKeyOk p.alg l then 0 else 1
    | _ => if p.keysrc ≠ 0 ∨ kemDkOk p.alg l = true then 0 else 1
  | _ => if p.op = 1 ∧ p.keysrc = 0 ∧ Config.pkeSound (p.code 0) l = false then 1 else 0

/-- The output bytes of a sound job. -/
def pkeResult (p : PkeParams) (l : List Byte) (rnd : Nat) : List Byte :=
  let k := p.bits / 8
  if p.op = 7 then
    let el := (p.expBits + 7) / 8
    let base := beField l (k + el) k
    if base = 0 then List.replicate k 0 else beBytes k (modPow (beField l 0 k) p.expBits base (beField l k el))
  else padTo (outputLen p) ((Config.pkeOutput (p.code rnd) l).take (outputLen p))

/-- Is a component of a signature out of range: RSA s not below n; ECDSA r or s zero or not below the order; EdDSA S not below the order (R336)? -/
def signatureOut (p : PkeParams) (l : List Byte) : Bool :=
  let k := p.bits / 8
  let c := curveLen p.alg
  let at_ := 2 * c + hashLen p.hash
  let bad (v : Nat) : Bool := v == 0 || decide ((curveOf p.alg).2.1 ≤ v)
  match p.alg with
  | 1 => decide (beField l 0 k ≤ beField l (k + 4 + hashLen p.hash) k)
  | 2 | 3 | 4 => bad (beField l at_ c) || bad (beField l (at_ + c) c)
  | 5 | 6 => decide ((edwardsOf p.alg).2 ≤ leNat (l.drop (l.length - edSig p.alg / 2)))
  | _ => false
/-- Verdict and reason of a verification: (1, 0) valid, (0, 1) equation fails, (0, 2) component out of range (R327, R336). -/
def pkeVerdictOf (p : PkeParams) (l : List Byte) : Nat × Nat :=
  let k := p.bits / 8
  if signatureOut p l then (0, 2)
  else if p.alg = 1 ∧ beField l (k + 4 + hashLen p.hash) k = 0 then (0, 1)
  else match Config.pkeVerdict (p.code 0) l with | 0 => (1, 0) | 1 => (0, 1) | _ => (0, 2)

/-- Does the job need randomness (R332)? -/
def needsRandom (p : PkeParams) : Bool :=
  match p.op with
  | 2 => false
  | 7 => false
  | 3 => decide (8 ≤ p.alg)
  | _ => true

/-- Does the engine check the result before release (R334)? -/
def releaseChecked (p : PkeParams) : Bool := p.op == 1 || (p.op == 4 && p.alg == 1) || p.op == 5 || p.op == 6

/-- RSA key generation (R331, R340). -/
def PkeJob.rsaKeygen (j : PkeJob) : Bool := j.p.alg == 1 && j.p.op == 6

/-- Time of an RSA private operation in units of 10 ns, for the sizes R322 names. -/
def rsaTime (bits : Nat) : Option Nat :=
  match bits with
  | 2048 => some 40000
  | 3072 => some 100000
  | 4096 => some 222000
  | 8192 => some 3330000
  | _ => none
/-- Time of an RSA public operation with an exponent of so many bits. -/
def rsaPublicTime (bits e : Nat) : Nat := 200 + (2 * e + 4) * 100 * bits ^ 2 / 4096 ^ 2
/-- What a message of more than 64 bytes adds: 0.2 µs per KiB, in proportion. DEDUCED -/
def messageTime (p : PkeParams) (l : List Byte) : Nat :=
  let n := l.length - (inputLen p).1
  if n ≤ 64 then 0 else 20 * n / 1024
/-- The time field of a job in units of 10 ns, for the rows of R322 whose time its public values fix; none elsewhere. -/
def jobTime (p : PkeParams) (l : List Byte) : Option Nat :=
  match p.alg, p.op with
  | 1, 6 => none
  | 1, 1 => rsaTime p.bits
  | 1, 4 => rsaTime p.bits
  | 1, 7 => some (rsaPublicTime p.bits p.expBits)
  | 1, _ => if beField l (p.bits / 8) 4 = 65537 then some (rsaPublicTime p.bits 17) else none
  | 2, 2 => some 6250
  | 2, _ => some 2500
  | 3, 2 => some 16670
  | 3, 5 => some 6250
  | 3, _ => some 6670
  | 4, 2 => some 40000
  | 4, _ => some 16000
  | 5, 2 => some (8000 + messageTime p l)
  | 5, 6 => some 3330
  | 5, _ => some (3330 + messageTime p l)
  | 6, 2 => some (25000 + messageTime p l)
  | 6, 6 => some 10000
  | 6, _ => some (10000 + messageTime p l)
  | 7, 5 => some 2500
  | 8, 3 => some 2220
  | 8, 4 => some 2500
  | 8, _ => some 2000
  | 9, 3 => some 3330
  | 9, 4 => some 4000
  | 9, _ => some 3000
  | 10, 2 => some (5000 + messageTime p l)
  | 10, 6 => some 10000
  | 11, 2 => some (8000 + messageTime p l)
  | 11, 6 => some 16000
  | _, _ => none

/-! ### The ring and the scheduler (R330 to R332) -/

/-- A unit's running job. -/
def State.pkeUnit (s : State) (u : Nat) : Option PkeJob := if u = 0 then s.pke.unit0 else s.pke.unit1
/-- Replace a unit's job. -/
def State.setPkeUnit (s : State) (u : Nat) (j : Option PkeJob) : State :=
  { s with pke := if u = 0 then { s.pke with unit0 := j } else { s.pke with unit1 := j } }
/-- Descriptors of the ring (PKE_RING_SIZE). -/
def ringSize (s : State) : Nat := fieldAt (s.reg (pkeBase + 0x14) 0) 9 0 + 1
/-- PKE_RING_HEAD: the slot of the oldest job not yet dispatched, the tail when there is none. -/
def ringHead (s : State) : Nat := match s.pke.jobs with | j :: _ => j.slot | [] => s.pke.tail
/-- Are both units fenced? -/
def pkeFenced (s : State) : Bool := s.isFenced 2 0 && s.isFenced 2 1
/-- Is a unit fenced? -/
def anyPkeFenced (s : State) : Bool := s.isFenced 2 0 || s.isFenced 2 1
/-- Does an RSA key generation run or wait in the ring? -/
def keygenBusy (s : State) : Bool :=
  s.pke.jobs.any (·.rsaKeygen) || (match s.pke.unit0 with | some j => j.rsaKeygen | none => false)
    || (match s.pke.unit1 with | some j => j.rsaKeygen | none => false)

/-- A PK command that succeeds while a unit is fenced completes OK_DEGRADED (R331). -/
def degradePke (s : State) (r : Result) : Result :=
  if r.status = 0 ∧ anyPkeFenced s = true then { r with status := 1, degraded := true } else r

/-- Must the kernel hold a job back: the ring is full (R330), or it is a second RSA key generation (R331)? -/
def jobHeld (s : State) (j : PkeJob) : Bool := decide (ringSize s ≤ s.pke.jobs.length) || (j.rsaKeygen && keygenBusy s)
/-- The kernel writes a job at the tail of the ring. -/
def enterRing (s : State) (j : PkeJob) : State :=
  { s with pke := { s.pke with jobs := s.pke.jobs ++ [{ j with slot := s.pke.tail }], tail := (s.pke.tail + 1) % ringSize s } }
/-- Put a job in the ring, or behind those the kernel holds back. -/
def pushJob (p : PkeParams) (input : List Byte) (outLen : Nat) (key : Option Nat) (s : State) : Nat × State :=
  let n := s.pke.nextId
  let j : PkeJob := ⟨n, s.pke.tail, p, input, outLen, 0, none, key, none, false, false⟩
  let s := { s with pke := { s.pke with nextId := n + 1 } }
  (n, if jobHeld s j then { s with pke := { s.pke with held := s.pke.held ++ [j] } } else enterRing s j)

/-- A held-back job enters the ring when nothing holds it any more. -/
def releaseOne (s : State) (j : PkeJob) : State :=
  if jobHeld s j then s else enterRing { s with pke := { s.pke with held := s.pke.held.filter (fun x => x.id != j.id) } } j
/-- The held-back jobs that may enter the ring, in order. -/
def releaseHeld (s : State) : State := s.pke.held.foldl releaseOne s

/-- A signing job of the kernel's own at priority 1: 3 ECDSA P-384, 11 ML-DSA-87, under the attestation keys. -/
def pushSign (alg key : Nat) (message : List Byte) (s : State) : State :=
  let p : PkeParams := ⟨alg, 1, if alg = 3 then 1 else 0, if alg = 3 then 2 else 0, 1, 1, 0, 0, 0⟩
  let (n, s) := pushJob p message 0 (some key) s
  s.waitOn key (.pke n)

/-- The kernel's own signing job, ECDSA P-384 then ML-DSA-87, for a periodic checkpoint: a job without a command and without a descriptor (R259). -/
def pushOwn (alg : Nat) (message : List Byte) (stage : OwnSign) (s : State) : State :=
  let p : PkeParams := ⟨alg, 1, if alg = 3 then 1 else 0, if alg = 3 then 2 else 0, 1, 1, 0, 0, 0⟩
  let s := (pushJob p message 0 none s).2
  { s with pke := { s.pke with ownSign := stage } }
/-- Is a job the kernel's own? -/
def PkeJob.own (j : PkeJob) : Bool := j.desc.isNone && j.key.isNone
/-- Is a job of the kernel's own in the engine? -/
def ownSigning (s : State) : Bool :=
  s.pke.jobs.any (·.own) || (s.pke.unit0.filter (·.own)).isSome || (s.pke.unit1.filter (·.own)).isSome
/-- A job of the kernel's own ends (R260): a SIGN_FAULT runs the pair once more, another failure waits for the next trigger. -/
def ownEnd (j : PkeJob) (status : Nat) (s : State) : State :=
  let mark (x : OwnSign) : State := { s with pke := { s.pke with ownSign := x } }
  if status = 3 then if s.pke.ownSign = .first then pushOwn 3 j.input .second s else mark .failed
  else if status ≠ 0 then { mark .idle with clock := { s.clock with tryAge := 0 } }
  else if j.p.alg = 3 then pushOwn 11 j.input s.pke.ownSign s
  else mark .ready

/-- Is a descriptor well formed: no reserved value, addresses inside control SRAM (R346)? -/
def descOk (b : List Byte) : Bool :=
  let f := fieldOf b
  let inside (a n : Nat) : Bool := decide (sramBase ≤ a ∧ a + n ≤ sramBase + sramSize)
  decide (1 ≤ f 0 1 ∧ f 0 1 ≤ 11) && decide (1 ≤ f 1 1 ∧ f 1 1 ≤ 7) && decide (f 2 1 ≤ 3) && decide (f 3 1 ≤ 6) && decide (f 4 1 ≤ 2)
    && decide (f 5 1 ≤ 1) && f 0xB 1 == 0 && f 0x2C 20 == 0 && f 0xC 4 != 0 && inside (f 0x10 4) (f 0x14 4) && inside (f 0x18 4) (f 0x1C 4)

/-- Write bytes +0x20 to +0x2F of a descriptor, with line 10 (R346, R428). -/
def writeBack (addr status unit verdict reason done time : Nat) (s : State) : State :=
  (s.dmaBytes 0 (addr + 0x20) ([BitVec.ofNat 8 status, BitVec.ofNat 8 unit, BitVec.ofNat 8 (verdict + 16 * reason), 0]
    ++ leBytes 4 done ++ leBytes 4 time ++ leBytes 4 0)).line 10

/-- Take one descriptor from a ring slot. -/
def takeDescriptor (i : Nat) (s : State) : State :=
  let addr := (s.reg (pkeBase + 0x10) 0).toNat + 64 * i
  let b := s.readBytes 0 addr 64
  let f := fieldOf b
  if descOk b = false then writeBack addr 9 0 0 0 0 0 { s with pke := { s.pke with doneHead := (i + 1) % ringSize s } }
  else
    let p : PkeParams := ⟨f 0 1, f 1 1, f 2 1, f 3 1, f 4 1, f 5 1, f 6 2, f 8 2, f 0xA 1⟩
    let j : PkeJob := ⟨f 0xC 4, i, p, s.readBytes 0 (f 0x10 4) (f 0x14 4), f 0x1C 4, f 0x18 4, some addr, none, none, false, false⟩
    { s with pke := { s.pke with jobs := s.pke.jobs ++ [j] } }

/-- Take descriptors up to a new tail. -/
def takeDescriptors : Nat → Nat → State → State
  | 0, _, s => s
  | n + 1, i, s => takeDescriptors n ((i + 1) % ringSize s) (takeDescriptor (i % ringSize s) s)

/-- A write of PKE_RING_TAIL: its descriptors are queued; a disabled engine takes none of them. -/
def ringTailWrite (v : Word) (s : State) : State :=
  let n := ringSize s
  let t := fieldAt v 9 0 % n
  let s := if fieldAt v 31 10 ≠ 0 then setStatusBits pkeBase 1 s else s
  if bitAt (s.reg (pkeBase + 8) 0) 0 = false then { s with pke := { s.pke with tail := t } }
  else takeDescriptors ((t + n - s.pke.tail % n) % n) s.pke.tail { s with pke := { s.pke with tail := t } }

/-- Jobs waiting for randomness ask the entropy source, once each (R332, R359). -/
def askRandom (s : State) : State :=
  let ask (s : State) (j : PkeJob) : State :=
    if needsRandom j.p && j.rnd.isNone && !j.asked then
      let s := (rngAsk (.job j.id) 0 64 0 s).2
      { s with pke := { s.pke with jobs := s.pke.jobs.map (fun x => if x.id = j.id then { x with asked := true } else x) } }
    else s
  s.pke.jobs.foldl ask s

/-- Is a job ready to dispatch? -/
def jobReady (j : PkeJob) : Bool := !needsRandom j.p || j.rnd.isSome

/-- The oldest ready job of the highest priority. -/
def nextJob (l : List PkeJob) : Option PkeJob :=
  match (l.filter jobReady).find? (fun j => j.p.prio == 1) with
  | some j => some j
  | none => (l.filter jobReady).head?

/-- An idle, unfenced unit, unit 0 first. -/
def idleUnit (s : State) : Option Nat :=
  if s.pke.unit0.isNone ∧ s.isFenced 2 0 = false then some 0
  else if s.pke.unit1.isNone ∧ s.isFenced 2 1 = false then some 1
  else none

/-- Dispatch one job (R330): the command passes its point of no return (R338). -/
def dispatch (s : State) : State :=
  if bitAt (s.reg (pkeBase + 8) 0) 0 = false ∨ bitAt (s.reg (pkeBase + 8) 0) 1 = true then s
  else
    let s := askRandom s
    match idleUnit s, nextJob s.pke.jobs with
    | some u, some j =>
      let s := releaseHeld { s with pke := { s.pke with jobs := s.pke.jobs.filter (fun x => x.id != j.id) } }
      let s := match j.key with | some k => s.passPoint k | none => s
      s.setPkeUnit u (some j)
    | _, _ => s

/-- Commands the kernel serves with a pair of attestation signatures. -/
def signsFor (op : BitVec 16) : Bool := op == 0x0407 || op == 0x0304 || op == 0x0305 || op == 0x0106

/-- Report a job's end to its descriptor or its command. Status codes as R346. -/
def reportJob (j : PkeJob) (unit status : Nat) (s : State) : State :=
  let time := match jobTime j.p j.input with | some t => t | none => (s.fresh.toNat % 2 ^ 32)
  let s := if (jobTime j.p j.input).isNone then s.drew else s
  let s := { s with pke := { s.pke with
    jobCnt := satInc 32 s.pke.jobCnt, lastTime := BitVec.ofNat 32 time, doneHead := (j.slot + 1) % ringSize s } }
  let zeros := List.replicate (outputLen j.p) 0
  let out := match status with | 0 => pkeResult j.p j.input (j.rnd.getD 0) | 1 => zeros | 2 => zeros | _ => []
  let v := if j.p.op = 2 ∧ status = 0 then pkeVerdictOf j.p j.input else (0, 0)
  match j.desc, j.key with
  | some addr, _ => writeBack addr status unit v.1 v.2 out.length time (s.dmaBytes 0 j.outAddr out)
  | none, none => ownEnd j status s
  | none, some key =>
    match s.command key with
    | none => s
    | some c =>
      if signsFor c.op then
        if status ≠ 0 then s.waitOn key .signFault
        else if j.p.alg = 3 then pushSign 11 key j.input s
        else s.waitOn key .ready
      else
        let r : Result := match status with
          | 0 => degradePke s (okay [(12, out.length), (16, v.1), (17, v.2)])
          | 1 => inputRange 0x28
          | 2 => answer 0x2009 []
          | 3 => answer 0x5003 []
          | 5 => answer 0x3005 []
          | 6 => answer 0x6002 [(12, c.entry.seq.toNat)]
          | 7 => answer 0x6003 [(12, c.entry.seq.toNat)]
          | 8 => unitFenced 2 (if pkeFenced s then 0xFF else unit)
          | 10 => answer 0x7005 []
          | _ => answer 0x6001 []
        if out.isEmpty then complete key r s
        else completeOutput key c.src j.outLen c.entry.addr1 out r s

/-- Run a job once more on the other unit, or end it UNIT_FENCED (R339). -/
def rerunOrFence (u : Nat) (s : State) : State :=
  match s.pkeUnit u with
  | none => s
  | some j =>
    let s := s.setPkeUnit u none
    if j.rerun ∨ s.isFenced 2 (1 - u) = true then reportJob j u 8 s
    else { s with pke := { s.pke with jobs := { j with rerun := true } :: s.pke.jobs } }

/-- A unit's job ends (R334, R337, R339, R328). -/
def jobDone (u : Nat) (hw : PkeHw) (s : State) : State :=
  match s.pkeUnit u with
  | none => s
  | some j =>
    let idle := s.setPkeUnit u none
    let judge := if j.p.op = 6 then 0 else pkeJudgement j.p j.input
    let fin (status : Nat) (s : State) : State := releaseHeld (reportJob j u status s)
    match hw with
    | .sound => fin judge idle
    | .releaseFail =>
      if judge ≠ 0 ∨ releaseChecked j.p = false then fin judge idle
      else
        let s := { idle with pke := { idle.pke with checkFail := satInc 16 idle.pke.checkFail } }
        fin (if j.p.op = 1 then 3 else 4) (s.raiseAt 112 (.pke u) 0 0)
    | .opmUe => releaseHeld (rerunOrFence u ((s.addFence (.pke u)).raiseAt 113 (.pke u) 0 0))
    | .unitFault => releaseHeld (rerunOrFence u ((s.addFence (.pke u)).raiseAt 114 (.pke u) 0 0))
    | .wipeFail =>
      fin judge ({ (idle.addFence (.pke u)) with pke := { idle.pke with wiped := false } }.raiseAt 115 (.pke u) 0 0)
    | .roundCap => if j.p.op = 1 ∧ 10 ≤ j.p.alg then fin 11 idle else fin judge idle

/-- An RSA key search reaches its bound (R340). -/
def keygenTimeout (u : Nat) (s : State) : State :=
  match s.pkeUnit u with
  | some j => if j.rsaKeygen then releaseHeld (reportJob j u 10 (s.setPkeUnit u none)) else s
  | none => s

/-- A request of the entropy queue times out (R360): its ticket, its job or its command. -/
def rngTimeoutOf (id : Nat) (s : State) : State :=
  match rngWithdraw id s with
  | (none, s) => s
  | (some r, s) => match r.user with
    | .ticket t _ => rngFinish 1 t s
    | .command key => complete key (answer 0x3005 []) s
    | .job n => match s.pke.jobs.find? (fun j => j.id == n) with
      | some j => releaseHeld (reportJob j 0 5 { s with pke := { s.pke with jobs := s.pke.jobs.filter (fun x => x.id != n) } })
      | none => s

/-- Every job of a selection ends without a report: its command is reported by what ended it; a descriptor gets a status. -/
def stopJobs (sel : PkeJob → Bool) (status : Nat) (s : State) : State :=
  let all := (s.pke.jobs ++ s.pke.held ++ s.pke.unit0.toList ++ s.pke.unit1.toList).filter sel
  let keep (o : Option PkeJob) : Option PkeJob := o.filter (fun j => !sel j)
  let s := { s with pke := { s.pke with
    jobs := s.pke.jobs.filter (fun j => !sel j), held := s.pke.held.filter (fun j => !sel j)
    unit0 := keep s.pke.unit0, unit1 := keep s.pke.unit1 } }
  releaseHeld (all.foldl (fun s j => match j.desc with | some a => writeBack a status 0 0 0 0 0 s | none => s) s)

end Sys2Proof.Machine
end

