-- ==== Sys2Proof/Machine/Flash.lean ====
section
/-! DEFINITION. The embedded flash controller (15_embedded_flash.md). Bank bytes are memory space 1, bank b at b · 16 MiB. -/

namespace Sys2Proof.Machine

/-- FLASHC base address. -/
def flashBase : Nat := 0x40110000
/-- First byte of a bank. -/
def bankAt (b : Nat) : Nat := b * 0x1000000
/-- Content of sectors 0 to 4,094 of a bank. -/
def bankImage (s : State) (b : Nat) : List Byte := s.readBytes 1 (bankAt b) 16773120
/-- SHA3-256 of the boot ROM: measurement 1 (R167, R344). -/
def romDigest : Hash := Config.sha3 ((List.range 131072).map Config.bootRom)
/-- SHA3-256 of the running kernel image: measurement 2. -/
def imageMeasurement (s : State) : Hash := Config.sha3 (bankImage s s.power.runningBank)

/-- A bank. -/
def State.bank (s : State) (b : Nat) : FlashBank := s.flash.banks.getD b (FlashBank.reset 0)
/-- Change a bank. -/
def State.setBank (s : State) (b : Nat) (f : FlashBank → FlashBank) : State := { s with flash := { s.flash with banks := s.flash.banks.modify b f } }

/-- FLASHC_CTL.write_enable. -/
def flashWrites (s : State) : Bool := bitAt (s.reg (flashBase + 8) 1) 0
/-- Is a sector's group protected? Sector 4,095 never is (R463). -/
def sectorProtected (k : FlashBank) (sector : Nat) : Bool := k.prot.getLsbD (sector / 256) && sector != 4095
/-- Is a word of a bank erased, check bits included (R452, R454)? -/
def wordErased (s : State) (b word : Nat) : Bool :=
  let k := s.bank b
  !k.ones.contains word && !k.unspec.contains word && flashNat s b (8 * word) 8 == 2 ^ 64 - 1

/-- The refusal of a command, if any; operations: 1 PROGRAM, 2 ERASE, 4 RESUME, 5 QUERY, 6 PROTECT, 7 UNPROTECT (R454, R458). A sector whose erase was cut is torn before the next scan shows it (R460). Of several reasons this order is the model's: busy, writes disabled, torn, suspended, protected, not erased, not unlocked. DESIGN CHOICE (log 73) -/
def flashRefusal (s : State) (b op word : Nat) : Option Nat :=
  let k := s.bank b
  let sector := word / 512
  if k.run.isSome then some 1
  else if (op = 1 ∨ op = 2 ∨ op = 6 ∨ op = 7) ∧ flashWrites s = false then some 12
  else if op = 1 ∧ (k.torn.contains sector = true ∨ (k.started.contains sector = true ∧ k.suspended ≠ some sector)) then some 4
  else if op = 1 ∧ k.suspended = some sector then some 8
  else if (op = 2 ∨ op = 6 ∨ op = 7) ∧ k.suspended.isSome = true then some 8
  else if (op = 1 ∨ op = 2) ∧ sectorProtected k sector = true then some 3
  else if op = 1 ∧ wordErased s b word = false then some 2
  else if op = 7 ∧ s.flash.unlocked = false then some 10
  else none

/-- A command ends: done, its result, line 17. -/
def flashEndOp (b result : Nat) (s : State) : State := (s.setBank b (fun k => { k with run := none, done := true, result := result })).line 17

/-- A command on a bank: SUSPEND and RESUME act on the erase; the others are refused or run (R454 to R459). -/
def flashCommand (b op word : Nat) (data : DWord) (s : State) : State :=
  let k := s.bank b
  let erasing : Bool := match k.run with | some (.erase _) => true | _ => false
  let s0 := s.setBank b (fun k => { k with op := op, done := false })
  match op with
  | 3 =>
    if erasing = true ∧ k.pendingSuspend = true then s
    else if erasing = true then s0.setBank b (fun k => { k with pendingSuspend := true, result := 0 })
    else (s0.setBank b (fun k => { k with result := 7, done := true })).line 17
  | 4 =>
    if erasing = true ∧ k.pendingSuspend = true then (s0.setBank b (fun k => { k with pendingSuspend := false, result := 0, done := true })).line 17
    else match k.suspended with
      | some sec => (s0.setBank b (fun k => { k with suspended := none, run := some (.erase sec), sector := sec, result := 0 }))
      | none => (s0.setBank b (fun k => { k with result := 7, done := true })).line 17
  | _ =>
    match flashRefusal s b op word with
    | some r => (s.setBank b (fun k => { k with op := op, done := true, result := r })).line 17
    | none =>
      let sec := word / 512
      match op with
      | 1 => s0.setBank b (fun k => { k with run := some (.program word data) })
      | 2 =>
        let n := (assocGet sec k.counts).getD 0
        let s := s0.setBank b (fun k => { k with
          run := some (.erase sec), sector := sec, counts := assocSet sec (satInc 24 n) k.counts
          started := if k.started.contains sec then k.started else k.started ++ [sec] })
        if n + 1 = 100000 then s.raiseAt 166 ⟨0, 0⟩ 0 (BitVec.ofNat 64 (0x20000000 + bankAt b + 4096 * sec)) else s
      | 5 => s0.setBank b (fun k => { k with run := some (.query sec) })
      | 6 => s0.setBank b (fun k => { k with run := some (.protect (word / 131072) true) })
      | _ => s0.setBank b (fun k => { k with run := some (.protect (word / 131072) false) })

/-- Is a command held off by a busy bank? SUSPEND never is, and a RESUME that cancels a pending suspend is not (R459; FLASHC registers). DEDUCED -/
def flashHeld (k : FlashBank) (op : Nat) : Bool := k.run.isSome && op != 3 && !(op == 4 && k.pendingSuspend)

/-- A FLASHC_CMDb write through its row: the address and data registers, then the command; without effect while it is held off (FLASHC registers). -/
def flashRow (b op word : Nat) (data : DWord) (s : State) : State :=
  if flashHeld (s.bank b) op then s.setBank b (fun k => { k with overrun := true })
  else
    let a := flashBase + 0x100 + 0x40 * b
    let s := if op = 3 ∨ op = 4 then s else s.setReg a (put32 3 (word % 2097152))
    let s := if op = 1 then (s.setReg (a + 4) (data.setWidth 32)).setReg (a + 8) ((data >>> 32).setWidth 32) else s
    flashCommand b op word data s

/-- Sector state after an erase that has verified; a live sector of the journal tail holds no records then, and the power-fail area no checkpoint. -/
def eraseSector (b sec : Nat) (s : State) : State :=
  let out (l : List Nat) : List Nat := l.filter (fun w => w / 512 != sec)
  let s := match (if b = 2 ∧ sec < 4095 then sectorAt s.journal sec else none) with
    | some k => { s with journal := { s.journal with tailErased := s.journal.tailErased ++ [k] } }
    | none => if sec = 4095 then { s with journal := { s.journal with pf := none } } else s
  (s.clearMem 1 (bankAt b + 4096 * sec) (bankAt b + 4096 * (sec + 1))).setBank b (fun k => { k with
    started := k.started.filter (· != sec), torn := k.torn.filter (· != sec), ones := out k.ones, unspec := out k.unspec })

/-- The running operation ends (R455, R456, R457, R463, R467). -/
def flashDone (b : Nat) (res : FlashEnd) (s : State) : State :=
  let where_ (sec : Nat) : DWord := BitVec.ofNat 64 (0x20000000 + bankAt b + 4096 * sec)
  match (s.bank b).run with
  | none => s
  | some (.program w d) =>
    (match res with
     | .ok =>
       let s := s.writeNat 1 (bankAt b + 8 * w) 8 d.toNat
       flashEndOp b 0 (s.setBank b (fun k => { k with ones := if d.toNat = 2 ^ 64 - 1 then k.ones ++ [w] else k.ones }))
     | .verifyFail => flashEndOp b 6 ((s.setBank b (fun k => { k with unspec := k.unspec ++ [w] })).raiseAt 165 ⟨0, 0⟩ 0 (where_ (w / 512)))
     | .pumpFail => flashEndOp b 11 ((s.setBank b (fun k => { k with unspec := k.unspec ++ [w] })).raise 170))
  | some (.erase sec) =>
    let s := s.setBank b (fun k => { k with pendingSuspend := false })
    (match res with
     | .ok => flashEndOp b 0 (eraseSector b sec s)
     | .verifyFail => flashEndOp b 5 ((s.setBank b (fun k => { k with torn := if k.torn.contains sec then k.torn else k.torn ++ [sec] })).raiseAt 164 ⟨0, 0⟩ 0 (where_ sec))
     | .pumpFail => flashEndOp b 11 ((s.setBank b (fun k => { k with torn := if k.torn.contains sec then k.torn else k.torn ++ [sec] })).raise 170))
  | some (.protect g on) =>
    (match res with
     | .pumpFail => flashEndOp b 11 (s.raise 170)
     | _ => flashEndOp b 0 (s.setBank b (fun k => { k with prot := if on then k.prot ||| BitVec.ofNat 16 (2 ^ g) else k.prot &&& ~~~ BitVec.ofNat 16 (2 ^ g) })))
  | some (.query sec) => flashEndOp b 0 (s.setBank b (fun k => { k with ecnt := (assocGet sec k.counts).getD 0 }))

/-- A pending suspend is honoured (R459). -/
def suspendHonoured (b : Nat) (s : State) : State :=
  match (s.bank b).run with
  | some (.erase sec) =>
    if (s.bank b).pendingSuspend then (s.setBank b (fun k => { k with run := none, suspended := some sec, pendingSuspend := false, done := true })).line 17 else s
  | _ => s

/-! ### Password (R464, R465) -/

/-- A password command ends with a result. -/
def pwEnd (result : Nat) (s : State) : State := { s with flash := { s.flash with pwDone := true, pwResult := result } }
/-- Clear FLASHC_PW0 to _PW3. -/
def pwClear (s : State) : State := { s with regs := s.regs.filter (fun p => !(decide (flashBase + 0x200 ≤ p.1) && decide (p.1 ≤ flashBase + 0x20C))) }

/-- UNLOCK with a password. -/
def flashUnlock (pw : QWord) (s : State) : State :=
  let s := pwClear s
  let f := s.flash
  if f.pwRun.isSome then pwEnd 4 s
  else if f.lockout then pwEnd 2 s
  else if pw = f.password then pwEnd 0 { s with flash := { f with unlocked := true, tries := 0 } }
  else
    let s := pwEnd 1 (({ s with flash := { f with tries := f.tries + 1 } }).raise 168)
    if f.tries + 1 = 8 then ({ s with flash := { s.flash with lockout := true } }).raise 169 else s

/-- LOCK. -/
def flashLock (s : State) : State :=
  let s := pwClear s
  if s.flash.pwRun.isSome then pwEnd 4 s else pwEnd 0 { s with flash := { s.flash with unlocked := false } }

/-- SET_PASSWORD: only while unlocked; PASSWORD_OP_DONE ends it. -/
def flashSetPassword (pw : QWord) (s : State) : State :=
  let s := pwClear s
  if s.flash.pwRun.isSome then pwEnd 4 s
  else if s.flash.unlocked = false then pwEnd 3 s
  else { s with flash := { s.flash with pwRun := some pw, pwDone := false } }

/-- SET_PASSWORD ends. -/
def passwordDone (s : State) : State :=
  match s.flash.pwRun with
  | none => s
  | some pw => pwEnd 0 { s with flash := { s.flash with pwRun := none, password := pw } }

/-! ### Scan and interruptions (R460, R466) -/

/-- The torn-erase scan ends (R460). -/
def tornScan (s : State) : State :=
  let s := { s with flash := { s.flash with scanDone := true, pumpOk := true, banks := s.flash.banks.map (fun (k : FlashBank) => { k with torn := k.started }) } }
  if s.flash.banks.any (fun (k : FlashBank) => !k.torn.isEmpty) then s.raise 167 else s

/-- What a reset does to the running operations of a bank: programs and updates complete, erases are abandoned (R466). -/
def bankInterrupt (b : Nat) (s : State) : State :=
  let s := match (s.bank b).run with
    | some (.erase _) => s.setBank b (fun k => { k with run := none, pendingSuspend := false })
    | some _ => flashDone b .ok s
    | none => s
  s.setBank b (fun k => { k with suspended := none })
/-- Every bank. -/
def flashInterrupt (s : State) : State := (List.range 4).foldl (fun s b => bankInterrupt b s) (passwordDone s)

/-- A power loss without declaration: erases stay torn, and the one cut may be counted or not; a word being programmed is unspecified; a protection or password update may have happened or not, by a free value (R457, R462 to R464). -/
def bankPowerLoss (b : Nat) (s : State) : State :=
  let coin := s.fresh.toNat % 2 = 0
  let s := match (s.bank b).run with
    | some (.program w _) => s.setBank b (fun k => { k with run := none, unspec := k.unspec ++ [w] })
    | some (.protect g on) =>
      let s := s.drew
      s.setBank b (fun k => { k with run := none, prot := if coin then k.prot else if on then k.prot ||| BitVec.ofNat 16 (2 ^ g) else k.prot &&& ~~~ BitVec.ofNat 16 (2 ^ g) })
    | some (.erase sec) =>
      let s := s.drew
      s.setBank b (fun k => { k with run := none, counts := if coin then k.counts else assocSet sec ((assocGet sec k.counts).getD 0 - 1) k.counts })
    | _ => s.setBank b (fun k => { k with run := none })
  s.setBank b (fun k => { k with suspended := none, pendingSuspend := false, torn := [] })
/-- Every bank, and the password row. -/
def flashPowerLoss (s : State) : State :=
  let s := (List.range 4).foldl (fun s b => bankPowerLoss b s) s
  match s.flash.pwRun with
  | none => s
  | some pw =>
    let old := s.fresh.toNat % 2 = 0
    let s := s.drew
    { s with flash := { s.flash with pwRun := none, password := if old then s.flash.password else pw } }

/-- Registers of FLASHC after a warm reset or a stronger one: unlocked ends; the tries and the lockout only at power-on (R464, R465). -/
def flashReset (powerOn : Bool) (s : State) : State :=
  { s with flash := { s.flash with
      unlocked := false, scanDone := false, pumpOk := false, pwDone := false, pwResult := 0
      tries := if powerOn then 0 else s.flash.tries, lockout := if powerOn then false else s.flash.lockout
      banks := s.flash.banks.map (fun (k : FlashBank) => { k with done := false, overrun := false, op := 0, result := 0, sector := 0, ecnt := 0, torn := [] }) } }

end Sys2Proof.Machine
end

