-- ==== Sys2Proof/Machine/Tamper.lean ====
section
/-! DEFINITION. Tamper monitors: assertions, arming, the backup cell, sticky flags, built-in test, double decisions (16_tamper_monitors.md). -/

namespace Sys2Proof.Machine

/-- TAMPER base address. -/
def tamperBase : Nat := 0x40020000
/-- Bit k as a 17-bit mask. -/
def bit17 (k : Nat) : BitVec 17 := BitVec.ofNat 17 (2 ^ k)
/-- Is TAMPER_LOCK set? -/
def tamperLocked (s : State) : Bool := bitAt (s.reg (tamperBase + 0xFC) 0) 0

/-- A monitor's report with its qualifiers. -/
def tamperReport (k : Nat) (rebuilt withheld : Bool) (syn : Word) : FaultIn :=
  ⟨⟨128 + k, ⟨0, 0⟩, syn, 0⟩, false, rebuilt, withheld, false⟩

/-- Does source 128 + k find its kiln withheld: the flag already set and the KEK store all zero (R483)? -/
def kilnWithheld (s : State) (k : Nat) : Bool := s.tamper.sticky.getLsbD k && s.vault.kek.isNone

/-- Sources a running module arms besides LATCH_FIELD, which arms itself (R365, R474): 144 in lifecycle FIELD only. -/
def poweredArmed (s : State) : BitVec 17 := if s.lifecycle = .field then 0x15FFF else 0x05FFF

/-- Arm a set of monitors: one already asserted triggers its response (R475, R483). -/
def armTamper (m : BitVec 17) (s : State) : State :=
  let new := m &&& ~~~ s.tamper.armed
  let ins := ((List.range 17).filter (fun k => new.getLsbD k && s.tamper.raw.getLsbD k)).map (fun k => tamperReport k false (kilnWithheld s k) 0)
  let s := { s with tamper := { s.tamper with armed := s.tamper.armed ||| m, sticky := s.tamper.sticky ||| (new &&& s.tamper.raw) } }
  if ins.isEmpty then s else s.report ins

/-- FIELD arms source 144 as well (R42, R295). -/
def armField (s : State) : State := if s.power.booted then armTamper (poweredArmed s) s else s

/-- A monitor of source 128 + k asserts in a powered state: its flag, its record (R474, R480, R484, R489); LATCH_FIELD at a step that reaches its threshold (R366); source 144, powered but not armed outside FIELD, sets its flag and nothing more (R480). -/
def monitorAssert (k : Nat) (stays : Bool) (detail : Word) (s : State) : State :=
  let t := s.tamper
  if k = 16 ∧ t.armed.getLsbD 16 = false then
    { s with tamper := { t with raw := if stays then t.raw ||| bit17 16 else t.raw, sticky := t.sticky ||| bit17 16 } }
  else if 16 < k ∨ t.armed.getLsbD k = false ∨ (k = 13 ∧ t.bist ≠ some 13 ∧ fieldAt detail 29 20 < fieldAt (s.reg 0x40030040 32) 7 0) then s
  else
    let raw := if stays then t.raw ||| bit17 k else t.raw
    let t := if k = 4 then { t with meshNet := fieldAt detail 25 24, meshPct := fieldAt detail 7 0 } else t
    let s :=
      if k = 13 then { s with rng := { s.rng with
        lfCause := BitVec.ofNat 16 (fieldAt detail 15 0), lfCell := fieldAt detail 19 16, lfStep := fieldAt detail 29 20 } } else s
    if t.bist = some k then { s with tamper := { t with raw := raw, sticky := t.sticky ||| bit17 k } }
    else
      ({ s with tamper := { t with raw := raw, sticky := t.sticky ||| bit17 k, testMark := t.testMark &&& ~~~ bit17 k } }).report
        [tamperReport k false false detail]

/-- Monitors that run on the backup cell (R477): mesh, drift, light, hot, cold, cell voltage. -/
def cellMonitors : BitVec 17 := 0x0983F

/-- A monitor asserts in CELL, or before the powered monitors arm (R478, R479): the first assertion since the flags were last cleared dates the alarm and clears the KEK store; so does a later one that finds a key there, imported since. -/
def cellAlarm (k : Nat) (stays : Bool) (s : State) : State :=
  let t := s.tamper
  if cellMonitors.getLsbD k = false then s
  else
    let s := { s with tamper := { t with
      raw := if stays then t.raw ||| bit17 k else t.raw
      sticky := t.sticky ||| bit17 k
      cellMark := t.cellMark ||| bit17 k
      cellTime := if t.cellMark = 0 then s.clock.time else t.cellTime } }
    if t.cellMark = 0 ∨ s.vault.kek.isSome = true then cellKiln (128 + k) s else s

/-- Clear sticky flags: not those whose output is still asserted (R481). -/
def stickyClear (v : BitVec 17) (s : State) : State :=
  let t := s.tamper
  let go := v &&& ~~~ t.raw
  let cell := t.cellMark &&& ~~~ go
  { s with tamper := { t with
      sticky := t.sticky &&& ~~~ go, testMark := t.testMark &&& ~~~ go, cellMark := cell
      cellTime := if cell = 0 then 0 else t.cellTime } }

/-- A write of TAMPER_STICKY (R481). -/
def stickyWrite (v : Word) (s : State) : State :=
  let s := if fieldAt v 31 17 ≠ 0 then setStatusBits tamperBase 1 s else s
  stickyClear (v.setWidth 17) s

/-- At boot, firmware rebuilds the events that carry a CELL mark, each a record of its own, and clears their flags (R482). -/
def rebuildCell (s : State) : State :=
  let marks := s.tamper.cellMark
  let ks := (List.range 17).filter (fun k => marks.getLsbD k)
  stickyClear marks (ks.foldl (fun s k => s.report [tamperReport k true true 0]) s)

/-! ### Built-in test (R484 to R486) -/

/-- Why a test of source 128 + k does not start: 2 asserted already, 3 not armed, 4 another test runs. -/
def bistRefusal (s : State) (k : Nat) : Option Nat :=
  let t := s.tamper
  if t.armed.getLsbD k = false then some 3
  else if t.bist.isSome then some 4
  else if t.raw.getLsbD k then some 2
  else none

/-- The stimulus goes on (R484). -/
def bistBegin (k : Nat) (s : State) : State := { s with tamper := { s.tamper with bist := some k, bistDone := false } }

/-- A write of TAMPER_BIST (R493, R494). -/
def bistWrite (v : Word) (s : State) : State :=
  let s := if fieldAt v 30 5 ≠ 0 then setStatusBits tamperBase 1 s else s
  let k := fieldAt v 4 0
  if 16 < k then setStatusBits tamperBase 2 s
  else if bitAt v 31 = false then s
  else match bistRefusal s k with
    | some r => { s with tamper := { s.tamper with bistDone := true, bistRes := r } }
    | none => bistBegin k s

/-- The test window ends: its result, the flag with its test mark, source 235 on a failure, the response of an output that stays asserted, and the command it served (R484 to R486). The detection time is a free value. -/
def bistEnd (asserted still : Bool) (s : State) : State :=
  match s.tamper.bist with
  | none => s
  | some k =>
    let time := s.fresh.toNat % 2 ^ 24
    let s := s.drew
    let t := s.tamper
    let raw := if still then t.raw ||| bit17 k else t.raw &&& ~~~ bit17 k
    let seen := asserted || still
    let byTest := seen && !t.sticky.getLsbD k && !still
    let t := { t with
      bist := none, bistDone := true, bistRes := if asserted then 0 else 1, bistTime := time, raw := raw
      sticky := if seen then t.sticky ||| bit17 k else t.sticky
      testMark := if byTest then t.testMark ||| bit17 k else if still then t.testMark &&& ~~~ bit17 k else t.testMark }
    let s := { s with tamper := t }
    let s := if asserted then s else s.raise 235
    let s := if still then s.report [tamperReport k false false 0] else s
    match s.cqe.inflight.find? (fun c => c.wait == Wait.tamperTest (128 + k)) with
    | none => s
    | some c => complete c.key (okay [(12, if asserted then 0 else 1), (16, time)]) s

/-- A write of 1 to TAMPER_CTL.calibrate: the references take the nets' present resistances, only in COMMISSIONED and unlocked; firmware keeps them in flash bank 3 (R476, R492). -/
def calibrate (readings : List Word) (s : State) : State :=
  if s.lifecycle ≠ .commissioned ∨ tamperLocked s = true then s
  else
    let refs := (List.range 4).map (fun k => (readings.getD k 0).setWidth 16)
    (List.range 4).foldl (fun s k => s.setReg (tamperBase + 0x40 + 4 * k) ((refs.getD k 0).setWidth 32)) { s with nvm := { s.nvm with meshRefs := refs } }

/-! ### Double decisions (R487) -/

/-- A split is counted, and which decision split last; a split quorum grant ends the sessions that are not granted yet. Decisions: 1 key release, 2 boot, 3 gate, 4 lifecycle, 5 quorum. A decision no row brings a split of reads the same inputs twice; FAULT_RAISE of source 127 stands for a split, whose action is then the one nothing commands. DESIGN CHOICE (log 142) -/
def countSplit (d : Nat) (s : State) : State :=
  let s := { s with tamper := { s.tamper with ddSplits := satInc 8 s.tamper.ddSplits, ddLast := d } }
  if d = 5 then { s with vault := { s.vault with sessions := s.vault.sessions.filter (fun x => x.granted || x.used || expired s x) } } else s
/-- A split of a decision: counted, and source 127. -/
def decisionSplit (d : Nat) (s : State) : State := (countSplit d s).raise 127

/-- The backup domain loses all supply: flags, cell time, KEK store, splits, kiln record (R480). -/
def backupLost (s : State) : State :=
  { s with
    tamper := { s.tamper with sticky := 0, testMark := 0, cellMark := 0, cellTime := 0, ddSplits := 0, ddLast := 0, bkpLost := true }
    vault := { s.vault with kek := none }
    rng := { s.rng with lfCause := 0, lfCell := 0, lfStep := 0 } }

end Sys2Proof.Machine
end

