-- ==== Sys2Proof/Machine/Restart.lean ====
section
/-! DEFINITION. Accounting across reset, power loss, kiln and castling: re-posts, individual failures, continuity boundaries (04_yomir_command_protocol.md, R136 to R143; 03_power_clocks_reset.md, R88, R89). -/

namespace Sys2Proof.Machine

/-- Keep a held completion over a reset: interim ones go, events return to the port's store, the rest become re-posts, which are unsolicited (R132, R136). -/
def keepHeld (s : State) (h : Held) : State :=
  match h.kind with
  | .interim => s
  | .event p =>
    let e : HeldEvent := ⟨fieldAt h.comp.result 7 0, BitVec.ofNat 56 (fieldAt h.comp.result 63 8), fieldAt h.comp.result 79 64⟩
    let add (l : List HeldEvent) : List HeldEvent := if l.length < 57 then l ++ [e] else holdEvent e.code e.data l
    if p = 0 then { s with cqe := { s.cqe with events0 := add s.cqe.events0 } } else { s with cqe := { s.cqe with events1 := add s.cqe.events1 } }
  | _ => hold { h with kind := .unsolicited, comp := { h.comp with sqhead := 0xFFFF }, accRec := none, remote := false, durable := false, idles := 0 } s

/-- Turn the held completions of a selection of sources into what survives a reset. -/
def resetHeld (sel : Source → Bool) (s : State) : State :=
  let hit := s.cqe.held.filter (fun h => sel h.src)
  hit.foldl keepHeld { s with cqe := { s.cqe with held := s.cqe.held.filter (fun h => !sel h.src) } }

/-- A posted mark is that of the oldest completion record of its seq and tag without one (records oldest first). -/
def markOne (m : Word × BitVec 16) : List JRecord → List JRecord
  | [] => []
  | r :: t => match r.body with
    | .complete seq tag _ _ _ _ => if seq = m.1 ∧ tag = m.2 then t else r :: markOne m t
    | _ => r :: markOne m t

/-- Follow one record: completion records of a source without their posted mark, oldest first. -/
def unmarkedStep (src : BitVec 16) (l : List JRecord) (r : JRecord) : List JRecord :=
  if r.source ≠ src then l
  else match r.body with
    | .complete .. => l ++ [r]
    | .posted ms => ms.foldl (fun l m => markOne m l) l
    | _ => l

/-- The completion records of a source that have no posted mark (R136). -/
def unmarked (src : BitVec 16) (rs : List JRecord) : List JRecord := rs.reverse.foldl (unmarkedStep src) []

/-- The 131 sources: the queues, then the three other transports. -/
def allSources : List (BitVec 16) := (List.range 128).map (BitVec.ofNat 16) ++ [0xFFFE, 0xFFFD, 0xFFFC]

/-- The transport a source field names (R116). -/
def sourceOf (c : BitVec 16) : Source :=
  if c = 0xFFFE then .mgmt else if c = 0xFFFD then .tag else if c = 0xFFFC then .internal 0 0 else .queue c.toNat

/-- The re-post of one completion record: output-untrusted is known by the status or opcode, degraded by the status. -/
def repost (r : JRecord) : Option Held :=
  match r.body with
  | .complete seq tag op st res _ => some {
      comp := { tag := tag, status := st, sqid := r.source, sqhead := 0xFFFF, durability := 0
                untrusted := st == 0x5001 || outputUntrusted op st, degraded := st == 1, result := res }
      src := sourceOf r.source, kind := .unsolicited, seq := seq, accRec := none, compRec := some r.number, durable := false, remote := false
      key := 0, kiln := false, idles := 0 }
  | _ => none

/-- Re-post every completion whose record survives and whose posted mark does not (R136). -/
def repostAll (s : State) : State :=
  let rs := s.journal.recs
  let go (s : State) (r : JRecord) : State := match repost r with | none => s | some h => hold h s
  (allSources.flatMap (fun src => unmarked src rs)).foldl go s

/-- Held completions of a source. -/
def heldFor (s : State) (src : BitVec 16) : Nat := (s.cqe.held.filter (fun h => h.src.code == src)).length

/-- A CONTINUITY_BOUNDARY after what is already held for the source (R139). With no entry vouched it names the seq before the first of the queue at the loss, and before the re-created queue's once there is one. DESIGN CHOICE (log 120) -/
def boundaryOf (src : BitVec 16) (v : Option (Word × BitVec 16)) (cause from_ : Nat) (time : DWord) (s : State) : State :=
  let first := match s.queue src.toNat with | some q => q.firstSeq | none => 0
  boundary (sourceOf src) v first cause from_ (heldFor s src) time s

/-- The vouched entry of a queue slot. -/
def slotEntry (q : QSlot) : Option (Word × BitVec 16) := if q.vExists then some (q.seq, q.tag) else none

/-- Has a source any record among those given? -/
def sourceSeen (rs : List JRecord) (src : BitVec 16) : Bool := rs.any (fun r => r.source == src)

/-- Boundaries of the queues from checkpoint slots, and of the three transports from the journal (R138, R141, R143): a queue has one when it existed at the loss, when the checkpoint knows it, or when a record names it, so that no loss is silent (R142). A transport's V comes from the recovered journal, which no code of R139 names: the queues' code stands in its boundary too. DESIGN CHOICE (log 121) -/
def boundaries (slots : List QSlot) (cause from_ : Nat) (time : DWord) (s : State) : State :=
  let rs := s.journal.recs
  let one (s : State) (q : Nat) : State :=
    let slot := slots.getD q ⟨0, 0, false, false⟩
    if slot.vExists ∨ slot.qExists ∨ (s.queue q).isSome = true ∨ sourceSeen rs (BitVec.ofNat 16 q) = true then
      boundaryOf (BitVec.ofNat 16 q) (slotEntry slot) cause from_ time s
    else s
  let s := (List.range 128).foldl one s
  let other (s : State) (c : BitVec 16) : State :=
    if (entriesSince c rs).isEmpty then s else boundaryOf c (vouched s c s.journal.flushed) cause from_ time s
  [(0xFFFE : BitVec 16), 0xFFFD, 0xFFFC].foldl other s

/-- The journal as the flash tail gives it back at power-on, up to what the scan finds whole: DDR5 contents are gone (R274). -/
def recoverJournal (s : State) : Journal :=
  let end_ := tailEnd s
  let j := s.journal
  let recs := j.recs.filter (fun r => decide (r.number < end_))
  { j with
    recs := recs, next := end_, chain := chainOver s.journalKey j.baseChain recs.reverse, acked := min j.acked end_
    flushed := end_, tailBytes := if end_ < j.flushed then tailOffset j end_ else j.tailBytes
    committed := min j.committed end_, secured := min j.secured end_, tail := recs.reverse, tailChain := j.baseChain
    manifests := [], staged := [], reserved := 0, recovery := false, event75 := false, eventFull := false, eventRing := false
    spoilt := [], tailErased := [], scanBroke := j.scanBroke || headerBeyond s end_ }

/-! ### Castling (R140, R534) -/

/-- Entries of a source without a completion record, up to the last acceptance held: (seq, tag). -/
def unfinished (rs : List JRecord) (src : BitVec 16) : List (Word × BitVec 16) :=
  ((entriesSince src rs).filter (fun e => e.done.isNone)).map (fun e => (e.seq, e.tag))

/-- FAILED_CASTLING for one entry (R140). -/
def failCastling (src : BitVec 16) (e : Word × BitVec 16) (s : State) : State :=
  let s := append src (.complete e.1 e.2 0 0x8001 (resultOf [(12, e.1.toNat)]) []) s
  unsolicited (sourceOf src) e.2 0x8001 e.1 [(12, e.1.toNat)] s

/-- An open stream as the journal shows it: source, seq and tag of the open, handle, and whether the open's own completion is marked as posted. -/
structure OpenMark where
  src    : BitVec 16
  seq    : Word
  tag    : BitVec 16
  handle : BitVec 16
  posted : Bool
  deriving DecidableEq, Repr

/-- A posted mark with the seq and tag of an open is the open's completion first, and the report of the stream's end after that (R132, R140). -/
def markOpen (src : BitVec 16) (m : Word × BitVec 16) : List OpenMark → List OpenMark
  | [] => []
  | x :: t => if x.src = src ∧ x.seq = m.1 ∧ x.tag = m.2 then (if x.posted then t else { x with posted := true } :: t) else x :: markOpen src m t

/-- Follow one record: opens add a stream; closes, aborts and reports of an end take theirs away (R140). -/
def trackOpen (l : List OpenMark) (r : JRecord) : List OpenMark :=
  match r.body with
  | .complete seq tag op st res _ =>
    if st ≠ 0 ∧ st ≠ 1 ∧ ¬ (op = 0x0206 ∧ st = 0x5001) then l
    else if op = 0x0201 ∨ op = 0x0204 then l ++ [⟨r.source, seq, tag, BitVec.ofNat 16 (fieldAt res 15 0), false⟩]
    else if op = 0x0203 ∨ op = 0x0206 ∨ op = 0x0207 then l.filter (fun m => m.handle != r.handle)
    else l
  | .posted ms => ms.foldl (fun l m => markOpen r.source m l) l
  | _ => l

/-- The streams open by the mirrored journal. -/
def openMarks (rs : List JRecord) : List OpenMark := rs.reverse.foldl trackOpen []

/-- STREAM_LOST for a stream of the former active, kept in the ended-handle record (R140, R246). -/
def loseStream (s : State) (m : OpenMark) : State :=
  let s := unsolicited (sourceOf m.src) m.tag 0x7002 m.seq [(12, m.seq.toNat)] s
  { s with lanes := { s.lanes with ended := (⟨m.handle.toNat, 0x7002, m.seq, 0⟩ :: s.lanes.ended).take 1024 } }

/-- V of a source at a castling: a queue's last acceptance held; a transport's last entry completed with all before it (R140, R143). -/
def castlingV (rs : List JRecord) (src : BitVec 16) : Option (Word × BitVec 16) :=
  let es := entriesSince src rs
  if src.toNat < 128 then es.getLast?.map (fun e => (e.seq, e.tag)) else vouchedFrom (2 ^ 64) es none

/-- The reports of a castling on the new active: re-posts, failures, lost streams, then the boundaries (R136, R140, R143). `skip` names entries handed over. -/
def castlingReports (skip : List (BitVec 16 × Word)) (s : State) : State :=
  let rs := s.journal.recs
  let s := repostAll s
  let fail (s : State) (src : BitVec 16) : State :=
    (unfinished rs src).foldl (fun s e => if skip.contains (src, e.1) then s else failCastling src e s) s
  let s := ((List.range 128).map (BitVec.ofNat 16)).foldl fail s
  let s := (openMarks rs).foldl loseStream s
  let bound (s : State) (src : BitVec 16) : State :=
    if (entriesSince src rs).isEmpty then s else boundaryOf src (castlingV rs src) 2 3 s.clock.time s
  allSources.foldl bound s

end Sys2Proof.Machine
end

