-- ==== Sys2Proof/Machine/Reader.lean ====
section
/-! DEFINITION. The contactless reader: slot events, front ends and label exchanges (19_contactless_reader_and_tag.md, R551 to R566). -/

namespace Sys2Proof.Machine

/-- READER's register block. -/
def readerBase : Nat := 0x40120000

/-- The object an event is about besides its number, for coalescing: inserted and removed are states of one slot or card (R26). -/
def EventKind.about : EventKind → EventKind
  | .slot 2 => .slot 1
  | .slot 8 => .slot 7
  | k => k
/-- Add an event to those held outside the full ring: a held event of the same object takes the latest state, counts the one it replaces and what either had merged before, and goes to the end (R26). -/
def coalesce (e : RingEvent) (l : List RingEvent) : List RingEvent :=
  match l.find? (fun x => x.kind.about == e.kind.about && x.obj == e.obj) with
  | some x => l.filter (fun y => y != x) ++ [{ e with count := min (x.count + e.count + 1) 0xFFFF }]
  | none => l ++ [e]
/-- The management plane posts an event: it stands in the event ring while that has room, behind it events of one object coalesce; the first time the ring fills it raises source 65 (R25, R26). -/
def ringEvent (e : RingEvent) (s : State) : State :=
  let l := s.reader.events
  let fills := decide (1023 ≤ l.length) && !s.reader.filled
  let s := { s with reader := { s.reader with events := if l.length < 1024 then l ++ [e] else l.take 1024 ++ coalesce e (l.drop 1024), filled := s.reader.filled || fills } }
  (if fills then s.raise 65 else s).line 2
/-- Event of kind `k` about object `obj` at the present moment. -/
def ringNote (k : EventKind) (obj : Nat) (s : State) : State := ringEvent ⟨k, obj, 0, s.clock.time⟩ s
/-- In I3C mode with IBIs enabled an event of the management plane goes to the shelf controller as an IBI with payload 0x02 (R175). DEDUCED: its events are those SLOT_EVENTS delivers (log 136) -/
def shelfIbi (s : State) : State :=
  if s.mgmtp.ibi = true ∧ s.mgmtp.dynAddr.isSome = true then { s with mgmtp := { s.mgmtp with ibis := s.mgmtp.ibis ++ [2] } } else s
/-- A slot, tag or card event of time `time`: it also announces itself to the hosts as event 6 (R133, R566). The spec does not say when an event leaves the ring. DESIGN CHOICE: when SLOT_EVENTS moves it (log 38). -/
def slotEventAt (code obj count : Nat) (time : DWord) (s : State) : State := postEvent 6 0 (shelfIbi (ringEvent ⟨.slot code, obj, count, time⟩ s))
/-- The management plane posts a slot, tag or card event of the present moment. -/
def slotEvent (code obj count : Nat) (s : State) : State := slotEventAt code obj count s.clock.time s
/-- Is an event one that SLOT_EVENTS delivers (R566)? -/
def RingEvent.isSlot (e : RingEvent) : Bool := match e.kind with | .slot _ => true | _ => false
/-- The kernel takes the events of other kinds as soon as it runs: no command reads them. DESIGN CHOICE (log 38) -/
def takeEvents (s : State) : State := { s with reader := { s.reader with events := s.reader.events.filter RingEvent.isSlot } }

/-! ### AES authentication shared by labels and the tag (R560) -/

/-- AES-128 of 16 bytes. -/
def aesBytes (k : QWord) (b : List Byte) : List Byte := leBytes 16 (Config.aes128 k (BitVec.ofNat 128 (leNat b))).toNat
/-- Inverse AES-128 of 16 bytes. -/
def aesInvBytes (k : QWord) (b : List Byte) : List Byte := leBytes 16 (Config.aes128Inv k (BitVec.ofNat 128 (leNat b))).toNat
/-- rot(): left by one byte. -/
def rotLeft (b : List Byte) : List Byte := b.drop 1 ++ b.take 1
/-- A block as a number. -/
def blockNat (b : List Byte) : QWord := BitVec.ofNat 128 (leNat b)
/-- The session key: E(K, RndR bytes 0 to 7, RndT bytes 0 to 7). -/
def sessionKey (k rndR rndT : QWord) : QWord := blockNat (aesBytes k ((leBytes 16 rndR.toNat).take 8 ++ (leBytes 16 rndT.toNat).take 8))
/-- The MAC of a frame: 8 bytes of the CMAC over the counter and the frame bytes before it. -/
def frameMac (sk : QWord) (ctr : Nat) (frame : List Byte) : List Byte := (leBytes 16 (Config.cmac128 sk (leBytes 2 ctr ++ frame)).toNat).take 8

/-! ### Front ends and their jobs -/

/-- A front end. -/
def State.fe (s : State) (n : Nat) : FrontEnd := s.reader.fes.getD n ⟨[], 0, 0⟩
/-- Change a front end. -/
def State.setFe (s : State) (n : Nat) (f : FrontEnd → FrontEnd) : State :=
  { s with reader := { s.reader with fes := s.reader.fes.modify n f } }
/-- One frame sent. -/
def sendFrame (n : Nat) (s : State) : State := s.setFe n (fun x => { x with frames := satInc 16 x.frames })
/-- Change the running job of a front end. -/
def setJob (n : Nat) (f : LabelJob → LabelJob) (s : State) : State :=
  s.setFe n (fun x => { x with jobs := match x.jobs with | j :: t => f j :: t | [] => [] })
/-- Change the running job and send its next frame. -/
def goOn (n : Nat) (f : LabelJob → LabelJob) (s : State) : State := sendFrame n (setJob n f s)

/-- The management core selects the running job's port and turns its field on there; with no job left the field is off (R553; READER_SEL, READER_FIELD). -/
def drivePort (n : Nat) (s : State) : State :=
  let sel := s.reg (readerBase + 0x10) 0
  let field := s.reg (readerBase + 0x14) 0
  match (s.fe n).jobs with
  | j :: _ => (s.setReg (readerBase + 0x10) ((sel &&& ~~~((7 : Word) <<< (4 * n))) ||| (BitVec.ofNat 32 (j.port % 8) <<< (4 * n)))).setReg
      (readerBase + 0x14) (field ||| ((1 : Word) <<< n))
  | [] => s.setReg (readerBase + 0x14) (field &&& ~~~((1 : Word) <<< n))
/-- The job now at the front of a front end starts: its port, and its first frame. -/
def startLabel (n : Nat) (s : State) : State := sendFrame n (drivePort n s)

/-- Queue a job; an idle front end starts it. -/
def pushLabel (j : LabelJob) (s : State) : State :=
  let n := j.port / 8
  let s1 := s.setFe n (fun x => { x with jobs := x.jobs ++ [j] })
  if (s.fe n).jobs.isEmpty then startLabel n s1 else s1

/-- The running job is over: line n, and the next job starts (R580). -/
def popJob (n : Nat) (s : State) : State :=
  let s := (s.setFe n (fun x => { x with jobs := x.jobs.drop 1 })).mline n
  if (s.fe n).jobs.isEmpty then drivePort n s else startLabel n s

/-- Has the write frame of a job started (R564)? -/
def LabelJob.written (j : LabelJob) : Bool := j.phase == .write || j.phase == .judge || j.phase == .readback

/-! ### SLOT_SCAN records (R562) -/

/-- A scan record: status bits, further UIDs, UID, commit sequence, capabilities, supply, time. -/
def scanRecord (port bits others : Nat) (uid : BitVec 56) (seq caps supply : Nat) (time : DWord) : List Byte :=
  leBytes 4 (port + bits * 2 ^ 8 + others * 2 ^ 16) ++ leBytes 7 uid.toNat ++ leBytes 3 seq ++ leBytes 1 caps ++ leBytes 1 supply
    ++ leBytes 8 time.toNat ++ List.replicate 8 0

/-- Is a port occupied (R554)? -/
def occupied (s : State) (port : Nat) : Bool := match s.reader.ports[port]? with | some p => p.occ && !p.dead | none => false

/-- The ports a mask names, in order. -/
def maskPorts (m : Nat) : List Nat := (List.range 48).filter (fun p => m / 2 ^ p % 2 == 1)

/-- The records of a scan so far, in port order. -/
def scanOf (s : State) (key : Nat) : List (Nat × List Byte) :=
  let l := (s.reader.scans.filter (fun r => r.1 == key)).map (·.2)
  (List.range 48).filterMap (fun p => l.find? (fun r => r.1 == p))

/-- A scan with every port recorded completes (R562). -/
def scanFinish (key : Nat) (s : State) : State :=
  match s.command key with
  | none => s
  | some c =>
    let ports := maskPorts (c.entry.param 8 8)
    let l := scanOf s key
    if l.length < ports.length then s
    else
      let bytes := l.flatMap (·.2)
      let stat (r : Nat × List Byte) : Byte := r.2.getD 1 0
      let fenced := l.any (fun r => s.isFenced 6 (r.1 / 8) && bitAt (stat r) 3)
      let r := answer (if fenced then 1 else 0)
        [(12, (l.filter (fun r => !bitAt (stat r) 3)).length), (14, (l.filter (fun r => bitAt (stat r) 1)).length)]
      completeOutput key c.src bytes.length c.entry.addr0 bytes r
        { s with reader := { s.reader with scans := s.reader.scans.filter (fun x => x.1 != key) } }

/-- Record one port of a scan. -/
def scanPut (key port : Nat) (bytes : List Byte) (s : State) : State :=
  scanFinish key { s with reader := { s.reader with scans := s.reader.scans ++ [(key, port, bytes)] } }

/-- Record a port that gave no label, or that was skipped. -/
def scanNone (key port : Nat) (skipped : Bool) (s : State) : State :=
  scanPut key port (scanRecord port ((if occupied s port then 1 else 0) + (if skipped then 8 else 0)) 0 0 0 0 0 s.clock.time) s

/-! ### Ending jobs (R565) -/

/-- End one job from outside: a scan records its port, a write past its frame is indeterminate, the rest get `early`. -/
def endJob (early : Result) (skipped : Bool) (s : State) (j : LabelJob) : State :=
  match j.kind with
  | .scan => scanNone j.key j.port skipped s
  | _ => complete j.key (if j.written then answer 0x7004 [] else early) s

/-- Take jobs out of their front ends; a front end whose running job went starts the next. -/
def takeJobs (sel : LabelJob → Bool) (s : State) : List LabelJob × State :=
  let out := s.reader.fes.flatMap (fun (x : FrontEnd) => x.jobs.filter sel)
  let s1 := { s with reader := { s.reader with fes := s.reader.fes.map (fun (x : FrontEnd) => { x with jobs := x.jobs.filter (fun j => !sel j) }) } }
  let cut := (List.range 6).filter (fun n => match (s.fe n).jobs with | j :: _ => sel j | [] => false)
  (out, cut.foldl (fun s n => if (s.fe n).jobs.isEmpty then drivePort n s else startLabel n s) s1)

/-- End every job of a selection. -/
def endJobs (early : Result) (skipped : Bool) (sel : LabelJob → Bool) (s : State) : State :=
  let (out, s) := takeJobs sel s
  out.foldl (endJob early skipped) s

/-- Front end `n` is fenced: source 192 (R565). -/
def frontEndFenced (n : Nat) (s : State) : State := endJobs (unitFenced 6 n) true (fun j => j.port / 8 == n) s

/-- Drop the jobs of a command that ended elsewhere. -/
def dropLabelJob (key : Nat) (s : State) : State :=
  let s := (takeJobs (fun j => j.key == key) s).2
  { s with reader := { s.reader with scans := s.reader.scans.filter (fun x => x.1 != key) } }

/-- Forget every job, its command reported already. -/
def dropLabelJobs (s : State) : State :=
  let s := (takeJobs (fun _ => true) s).2
  { s with reader := { s.reader with scans := [], keys := List.replicate 16 none } }

/-- Complete every command that awaits the reader or the tag at a management-plane reset (R93, R565); the label keys go (R561). -/
def readerReset (s : State) : State :=
  let jobs := s.reader.fes.flatMap (·.jobs)
  let keys := s.cqe.inflight.filter (fun c => match c.wait with | .label _ => true | _ => false)
  let s := dropLabelJobs s
  keys.foldl (fun s c => complete c.key
    (if jobs.any (fun j => j.key == c.key && j.written) then answer 0x7004 [] else answer 0x6002 [(12, c.entry.seq.toNat)]) s) s

/-! ### Label frames (R557 to R564) -/

/-- Open a job of a port for a command. -/
def labelJob (key : Nat) (kind : LabelKind) (port : Nat) (power : Nat) : LabelJob where
  key := key
  kind := kind
  port := port
  phase := .select
  slot := none
  uid := 0
  block := 0
  count := 0
  expect := none
  data := []
  tries := 0
  misses := 0
  seq := 0
  rndT := 0
  rndR := 0
  session := none
  power := power
  boosted := false
  others := 0

/-- End the running job of a front end with an answer. -/
def finishJob (n : Nat) (r : Result) (s : State) : State :=
  match (s.fe n).jobs with
  | [] => s
  | j :: _ => complete j.key r (popJob n s)

/-- The answer of a failed job; a scan records its port instead. -/
def failJob (n : Nat) (r : Result) (s : State) : State :=
  match (s.fe n).jobs with
  | [] => s
  | j :: _ => match j.kind with
    | .scan => scanNone j.key j.port false (popJob n s)
    | _ => finishJob n r s

/-- The command's answer to a label result other than OK (R563). The spec names RANGE, READ_ONLY, NOT_AUTH and MAC_FAIL. DESIGN CHOICE for the others -/
def labelRefusal (res : Nat) : Result :=
  match res with
  | 2 | 6 => notAuthorized 4
  | 3 | 4 => inputRange 0xA
  | _ => answer 0x6001 []

/-- Blocks the next READ_BLOCK asks for. -/
def LabelJob.left (j : LabelJob) : Nat := min 4 (j.count - j.data.length / 16)

/-- A judged write went wrong once: written again, or indeterminate (R564). -/
def writeMissed (n : Nat) (j : LabelJob) (s : State) : State :=
  if j.misses = 0 then goOn n (fun j => { j with phase := .write, misses := 1, tries := 0 }) s else finishJob n (answer 0x7004 []) s

/-- A label answers a write, or the status that judges it, FIELD_WEAK: one try at the next power step, then TIMEOUT with nothing written (R564). -/
def writeWeak (n : Nat) (j : LabelJob) (s : State) : State :=
  if j.boosted = false ∧ j.power < 200 then goOn n (fun j => { j with phase := .write, boosted := true, power := j.power + 1, tries := 0 }) s
  else finishJob n (answer 0x7005 []) s

/-- After GET_STATUS: UID, commit sequence, supply, quiet time, capabilities in `d`. -/
def labelStatus (n : Nat) (j : LabelJob) (d : List Byte) (s : State) : State :=
  let seq := fieldOf d 7 3
  match j.kind with
  | .scan =>
    let bits := (if occupied s j.port then 1 else 0) + 2 + (if j.others = 0 then 0 else 4)
    scanPut j.key j.port (scanRecord j.port bits j.others (BitVec.ofNat 56 (fieldOf d 0 7)) seq (fieldOf d 12 1) (fieldOf d 10 1) s.clock.time)
      (popJob n s)
  | .read => goOn n (fun j => { j with phase := .read, tries := 0, seq := seq }) s
  | .write =>
    if (match j.expect with | some x => x != seq | none => false) = true then finishJob n (conflict 0) s
    else (goOn n (fun j => { j with phase := .write, tries := 0, seq := seq }) s).passPoint j.key

/-- A frame with result `res` and data `d` for the running job `j` of front end `n`, its MAC found good. -/
def labelStep (n : Nat) (j : LabelJob) (res : Nat) (d : List Byte) (s : State) : State :=
  let key := match j.slot with | some k => (s.reader.keys.getD k none).getD 0 | none => 0
  match j.phase with
  | .select => s
  | .auth1 =>
    if res ≠ 0 then failJob n (notAuthorized 4) s
    else
      let r := s.fresh.setWidth 128
      goOn n (fun j => { j with phase := .auth2, tries := 0, rndT := blockNat (aesInvBytes key d), rndR := r }) s.drew
  | .auth2 =>
    if res ≠ 0 ∨ d ≠ aesBytes key (rotLeft (leBytes 16 j.rndR.toNat)) then failJob n (notAuthorized 4) (s.raise 199)
    else goOn n (fun j => { j with phase := .status, tries := 0, session := some (sessionKey key j.rndR j.rndT, 0) }) s
  | .status => if res ≠ 0 then failJob n (labelRefusal res) s else labelStatus n j d s
  | .read =>
    if res ≠ 0 then failJob n (labelRefusal res) s
    else
      let data := j.data ++ d
      if data.length / 16 < j.count then goOn n (fun j => { j with data := data, tries := 0 }) s
      else match s.command j.key with
        | none => popJob n s
        | some c => completeOutput j.key c.src (16 * j.count) c.entry.addr0 data (okay [(12, j.seq)]) (popJob n s)
  | .write =>
    match res with
    | 0 => finishJob n (okay [(12, fieldOf d 0 3)]) s
    | 1 => writeWeak n j s
    | _ => finishJob n (labelRefusal res) s
  | .judge =>
    let seq := fieldOf d 7 3
    if res = 1 then writeWeak n j s
    else if res ≠ 0 then finishJob n (answer 0x7004 []) s
    else if seq = (j.seq + 1) % 2 ^ 24 then goOn n (fun j => { j with phase := .readback, tries := 0 }) s
    else if seq = j.seq then writeMissed n j s
    else finishJob n (answer 0x7004 []) s
  | .readback =>
    if res = 0 ∧ d = j.data then finishJob n (okay [(12, (j.seq + 1) % 2 ^ 24)]) s else finishJob n (answer 0x7004 []) s

/-- No valid response to the running job's frame: up to two retries; a write is judged by GET_STATUS, up to three of them (R551, R564). -/
def labelSilent (n : Nat) (s : State) : State :=
  match (s.fe n).jobs with
  | [] => s
  | j :: _ =>
    match j.phase with
    | .write => goOn n (fun j => { j with phase := .judge, tries := 0 }) s
    | .judge | .readback => if j.tries < 2 then goOn n (fun j => { j with tries := j.tries + 1 }) s else finishJob n (answer 0x7004 []) s
    | _ => if j.tries < 2 then goOn n (fun j => { j with tries := j.tries + 1 }) s else failJob n (answer 0x7005 []) s

/-- The UIDs that anticollision finds on a port, 7 bytes each. -/
def uidsOf : Nat → List Byte → List (List Byte)
  | 0, _ => []
  | n + 1, b => if b.length < 7 then [] else b.take 7 :: uidsOf n (b.drop 7)
/-- A UID as its bits go over the air, each byte's least significant first, earlier bits weighing more. -/
def uidRank (u : List Byte) : Nat := u.foldl (fun a x => a * 256 + (x.reverse).toNat) 0
/-- The UID that collision resolution with bit value 1 first reaches first (R553). -/
def firstUid (l : List (List Byte)) : List Byte := l.foldl (fun a u => if uidRank a ≤ uidRank u then u else a) []
/-- The labels that answer anticollision: the one named is selected, a scan's is the first one reached, each other one is sent QUIET (R553, R563). -/
def labelSelected (n : Nat) (j : LabelJob) (l : List (List Byte)) (s : State) : State :=
  let known := l.any (fun u => BitVec.ofNat 56 (leNat u) == j.uid)
  let uid : BitVec 56 := if j.kind = .scan then BitVec.ofNat 56 (leNat (firstUid l)) else j.uid
  if (j.kind != .scan && !known) = true then finishJob n (invalidHandle 0x10) s
  else goOn n (fun j => { j with uid := uid, others := min 255 (l.length - 1), tries := 0, phase := if j.slot.isSome then .auth1 else .status }) s

/-- A front end receives a label response frame, without its CRC_A. In the select phase the bytes are the UIDs found on the port, 7 bytes each; none is no answer. -/
def labelResponse (n : Nat) (b : List Byte) (s : State) : State :=
  match (s.fe n).jobs with
  | [] => s
  | j :: _ =>
    if j.phase = .select then
      match uidsOf b.length b with
      | [] => labelSilent n s
      | u :: l => labelSelected n j (u :: l) s
    else
      let s := s.setFe n (fun x => { x with result := fieldOf b 0 1 })
      match j.session with
      | none => labelStep n j (fieldOf b 0 1) (b.drop 1) s
      | some (sk, ctr) =>
        let body := b.take (b.length - 8)
        let s := setJob n (fun j => { j with session := some (sk, (ctr + 1) % 65536) }) s
        if b.drop (b.length - 8) = frameMac sk ctr body then labelStep n j (fieldOf body 0 1) (body.drop 1) s
        else if j.written then labelSilent n (s.raise 199)
        else failJob n (notAuthorized 4) (s.raise 199)

/-! ### Command bodies (R562 to R566) -/

/-- Output power now set (R582). -/
def readerPower (s : State) : Nat := fieldAt (s.reg (readerBase + 8) 0x2C8) 7 0

/-- Body of SLOT_SCAN. -/
def slotScan (key : Nat) (src : Source) (e : Entry) (s : State) : State :=
  let ports := maskPorts (e.param 8 8)
  let occ := decide (e.param 0x10 1 % 2 = 1)
  let want := 32 * ports.length
  if ports = [] then complete key (okay []) s
  else if (match listTotal s (bufferSpace src) 4096 e.addr0.toNat 0 with | some n => decide (n < want) | none => false) = true then
    complete key (lengthError want) s
  else
    let skip (p : Nat) : Bool := s.isFenced 6 (p / 8) || (occ && !occupied s p)
    let s := s.waitOn key (.label (ports.headD 0 / 8))
    let s := (ports.filter (fun p => !skip p)).foldl (fun s p => pushLabel (labelJob key .scan p (readerPower s)) s) s
    (ports.filter skip).foldl (fun s p => scanNone key p true s) s

/-- Range checks of TAG_READ and TAG_WRITE (R563). -/
def labelRange (e : Entry) (write : Bool) : Option Nat :=
  let slot := e.param 9 1
  let count := e.param 0xC 2
  let block := e.param 0xA 2
  if 48 ≤ e.param 8 1 then some 8
  else if 16 ≤ slot ∧ slot ≠ 0xFF then some 9
  else if count = 0 ∨ (if write then 4 else 64) < count then some 0xC
  else if write = true ∧ block / 4 ≠ (block + count - 1) / 4 then some 0xC
  else none

/-- Body of TAG_READ and TAG_WRITE (R563, R564). -/
def labelCommand (write : Bool) (key : Nat) (src : Source) (e : Entry) (s : State) : State :=
  let port := e.param 8 1
  let slot := e.param 9 1
  let count := e.param 0xC 2
  let word := e.param 0x18 4
  let keyed : Option Nat := if slot = 0xFF then none else some slot
  match labelRange e write with
  | some off => complete key (inputRange off) s
  | none =>
    if s.isFenced 6 (port / 8) then complete key (unitFenced 6 (port / 8)) s
    else if slot ≠ 0xFF ∧ s.reader.keys.getD slot none = none then complete key (notAuthorized 4) s
    else match (if write then readInput s src (16 * count) e.addr0 else .ok []) with
      | .error r => complete key r s
      | .ok data =>
        let j := labelJob key (if write then .write else .read) port (readerPower s)
        let expect : Option Nat := if write = true ∧ 2 ^ 31 ≤ word then some (word % 2 ^ 24) else none
        pushLabel { j with slot := keyed, uid := BitVec.ofNat 56 (e.param 0x10 7), block := e.param 0xA 2, count := count, data := data, expect := expect }
          (s.waitOn key (.label (port / 8)))

/-- The 16 bytes of a slot event (R566). -/
def slotEventBytes (x : RingEvent) : List Byte := leBytes 1 (match x.kind with | .slot c => c | _ => 0) ++ leBytes 1 x.obj ++ leBytes 2 x.count ++ [0, 0, 0, 0] ++ leBytes 8 x.time.toNat

/-- Body of SLOT_EVENTS (R566). The spec names no status for a length out of range. DESIGN CHOICE: LENGTH_ERROR -/
def slotEvents (key : Nat) (src : Source) (e : Entry) (s : State) : State :=
  let len := e.param 8 4
  if len = 0 ∨ len % 16 ≠ 0 ∨ 16384 < len then complete key (lengthError (if len = 0 then 16 else 16384)) s
  else
    let slots := s.reader.events.filter RingEvent.isSlot
    let evs := slots.take (len / 16)
    let bytes := evs.flatMap slotEventBytes
    match writeOutput src len e.addr0 bytes s with
    | .error r => complete key r s
    | .ok s => complete key (okay [(12, bytes.length), (16, slots.length - evs.length)])
        { s with reader := { s.reader with events := s.reader.events.filter (fun x => !x.isSlot) ++ slots.drop (len / 16) } }

/-! ### The request ring (R27) -/

/-- Opcodes whose work the management plane does on a request: power states and wake policy, readers and tag, cards (R27). -/
def needsRequest (op : BitVec 16) : Bool :=
  op == 0x0801 || op == 0x0802 || op == 0x0901 || op == 0x0902 || op == 0x0903 || op == 0x0904 || op == 0x0A01 || op == 0x0A02 || op == 0x0A03
/-- Does the management plane take requests off the ring: its core runs and has its clock? -/
def mgmtTakes (s : State) : Bool := !s.cores.mgt.halted && !s.cores.mgt.stopped && s.power.pllLost &&& 0x40 == 0
/-- Post a request that the management plane does not take at once: it stands in the ring while that has room, and waits in the kernel otherwise; the first time the ring fills it raises source 66 (R27). -/
def postRequest (key : Nat) (s : State) : State :=
  let l := s.reader.requests
  let fills := l.length == 255 && !s.reader.requestsFilled
  let s := { s with reader := { s.reader with requests := if l.length < 256 then l ++ [key] else l, requestsFilled := s.reader.requestsFilled || fills } }
  (if fills then s.raise 66 else s).waitOn key .request
/-- A command's request leaves the ring, and one that waited in the kernel takes its place. -/
def dropRequest (key : Nat) (s : State) : State :=
  let l := s.reader.requests.filter (· != key)
  let next := (s.cqe.inflight.filter (fun c => c.wait == .request && c.key != key && !l.contains c.key)).map (·.key)
  { s with reader := { s.reader with requests := (l ++ next).take 256 } }

end Sys2Proof.Machine
end

