-- ==== Sys2Proof/Machine/Tag.lean ====
section
/-! DEFINITION. The module's tag: frames, sessions, shadow and commit writes, counters, wired access (19_contactless_reader_and_tag.md, R567 to R578). Its flash is memory space 6. -/

namespace Sys2Proof.Machine

/-- TAGIF's register block. -/
def tagifBase : Nat := 0x40130000

/-- Change the tag. -/
def State.setTag (s : State) (f : Tag → Tag) : State := { s with tag := f s.tag }

/-- Does the module power the tag and hear it: RUN? -/
def tagRun (s : State) : Bool := s.power.mode == .run && s.power.supply == .running

/-! ### Flash words (R569, R572, R574) -/

/-- A 64-bit word with its CRC-8 over bits 55:0 in bits 63:56. -/
def withCrc8 (v : Nat) : Nat := v % 2 ^ 56 + (crc8 (leBytes 7 v)).toNat * 2 ^ 56

/-- The 64 bytes of a page as its flash words hold them. -/
def tagPage (s : State) (p : Nat) : List Byte := s.readBytes 6 (64 * p) 64
/-- One 64-bit word of a page. -/
def tagWord (s : State) (p w : Nat) : Nat := s.readNat 6 (64 * p + 8 * w) 8

/-- A commit slot's word when it is valid: both CRCs pass (R572). -/
def commitAt (s : State) (slot : Nat) : Option Nat :=
  let v := tagWord s 194 slot
  if v = withCrc8 v ∧ v / 2 ^ 40 % 2 ^ 16 = (crc16 (tagPage s (196 + v / 2 ^ 8 % 2))).toNat then some v else none
/-- Commit sequence of a word. -/
def commitSeq (v : Nat) : Nat := v / 2 ^ 16 % 2 ^ 24
/-- The latest commit: slot and word, the higher sequence counted modulo 2^24. -/
def latestCommit (s : State) : Option (Nat × Nat) :=
  match commitAt s 0, commitAt s 1 with
  | some a, some b => if (commitSeq a + 2 ^ 24 - commitSeq b) % 2 ^ 24 < 2 ^ 23 then some (0, a) else some (1, b)
  | some a, none => some (0, a)
  | none, some b => some (1, b)
  | none, none => none
/-- Present commit sequence; 0 before the first commit. DESIGN CHOICE -/
def tagSeq (s : State) : Nat := match latestCommit s with | some (_, v) => commitSeq v | none => 0
/-- The page whose copy-back is incomplete, with its shadow's number. -/
def copyPending (s : State) : Option (Nat × Nat) :=
  match latestCommit s with
  | some (_, v) =>
    let p := v % 2 ^ 8
    let sh := v / 2 ^ 8 % 2
    if tagPage s p = tagPage s (196 + sh) then none else some (p, sh)
  | none => none
/-- A page as reads see it: from the shadow while its copy-back is incomplete. -/
def tagRead (s : State) (p : Nat) : List Byte :=
  match copyPending s with
  | some (q, sh) => if q = p then tagPage s (196 + sh) else tagPage s p
  | none => tagPage s p
/-- A 16-byte block as reads see it. -/
def tagBlock (s : State) (b : Nat) : List Byte := slice (tagRead s (b / 4)) (16 * (b % 4)) 16

/-- Configuration word (R569). -/
def tagConfig (s : State) : Nat := tagWord s 195 0
/-- Quiet time in units of 100 ms: configuration bits 15:8, default 20 when outside 5 to 200. DESIGN CHOICE for the place -/
def quietTime (s : State) : Nat := let q := tagConfig s / 2 ^ 8 % 2 ^ 8; if 5 ≤ q ∧ q ≤ 200 then q else 20
/-- A tag key slot. -/
def tagKey (s : State) (k : Nat) : QWord := BitVec.ofNat 128 (s.readNat 6 (64 * 198 + 16 * k) 16)
/-- The tag's UID (R567). -/
def tagUid : List Byte := Config.tagManufacturerByte :: leBytes 6 Config.serial.toNat

/-! ### The dying field (R571): supply readings in mV, one before each word -/

/-- How a run of words fared: all written, weak before word `n`, or the field collapsed before it. -/
inductive Writing | full | weak (n : Nat) | lost (n : Nat)
  deriving DecidableEq, Repr

/-- The first of `n` readings that stops a run of words; a reading not given is `dflt`. -/
def supplyRun (dflt : Nat) : Nat → Nat → List Nat → Writing
  | 0, _, _ => .full
  | n + 1, i, l =>
    let mv := l.headD dflt
    if mv < 1800 then .lost i else if mv < 2400 then .weak i else supplyRun dflt n (i + 1) (l.drop 1)

/-- A reading that a command does not give: the last one known, 2.4 V when none is. -/
def supplyDefault (s : State) : Nat := if 0 < s.tag.supply then s.tag.supply else 2400

/-- Write the first words of a page image. -/
def writeWords (page : Nat) (bs : List Byte) (n : Nat) (s : State) : State := s.writeBytes 6 (64 * page) (bs.take (8 * n))

/-! ### Sessions, field loss, quiet (R560, R567, R568) -/

/-- End the session (R560). -/
def Tag.endSession (t : Tag) : Tag := { t with session := none, pendingT := none }

/-- IDLE, or HALT when the tag was selected from HALT (R557, R567). -/
def Tag.fallBack (t : Tag) : Tag := { t.endSession with mode := if t.fromHalt then .halt else .idle, response := [] }

/-- The field is lost: the state, the session, the Yomir completion and its buffer go; the quiet flag stays (R567, R568, R578). -/
def Tag.fieldLost (t : Tag) : Tag :=
  { t.endSession with mode := .idle, fromHalt := false, field := false, supply := 0, response := [], rate := 0, authFails := 0, yEntry := none, yDone := none, yOut := [] }

/-- Count a field frame (TAGIF_COUNTS). -/
def Tag.frame (t : Tag) : Tag := { t with frames := satInc 16 t.frames, response := [] }

/-- REQA or WUPA (R567): ATQA 0x0044. -/
def tagReqa (wake : Bool) (s : State) : State :=
  if s.tag.field = false then s
  else s.setTag (fun t =>
    let t := t.frame
    match t.mode with
    | .idle => if t.quiet then t else { t with mode := .ready, fromHalt := false, response := [0x44, 0x00] }
    | .halt => if wake then { t with mode := .ready, fromHalt := true, response := [0x44, 0x00] } else t
    | .ready => t.fallBack
    | .active => t.fallBack)

/-- HLTA (R567). -/
def tagHlta (s : State) : State :=
  if s.tag.field = false then s
  else s.setTag (fun t =>
    let t := t.frame
    match t.mode with
    | .active => { t.endSession with mode := .halt }
    | .ready => t.fallBack
    | _ => t)

/-- Anticollision and SELECT at both cascade levels (R567); the Yomir sequence restarts (R578). -/
def tagSelect (uid : List Byte) (s : State) : State :=
  if s.tag.field = false then s
  else match s.tag.mode with
    | .ready =>
      if uid = tagUid then { s.setTag (fun t => { t.frame with mode := .active, response := [0x00] }) with cqe := { s.cqe with tagSeq := 0 } }
      else s.setTag (fun t => t.frame.fallBack)
    | .active => s.setTag (fun t => t.frame.fallBack)
    | _ => s.setTag Tag.frame

/-! ### Frames in ACTIVE (R557 to R559) -/

/-- A response frame: result and data, with the session's MAC. -/
def tagAnswer (sess : Option (QWord × Nat)) (res : Nat) (d : List Byte) : List Byte :=
  let f := BitVec.ofNat 8 res :: d
  match sess with
  | some (sk, ctr) => f ++ frameMac sk ctr f
  | none => f

/-- Respond, and count the pair in the session. -/
def tagRespond (res : Nat) (d : List Byte) (s : State) : State :=
  s.setTag (fun t => { t with
    response := tagAnswer t.session res d, weak := if res = 1 then satInc 16 t.weak else t.weak
    session := t.session.map (fun x => (x.1, (x.2 + 1) % 65536)) })

/-- A command frame in ACTIVE: its length, then its MAC while a session is open, then its meaning. `own`: the frame has the length of its code. -/
def tagFrame (code : Nat) (params : List Byte) (own : Bool) (mac : Option DWord) (body : State → State) (s : State) : State :=
  if s.tag.field = false then s
  else match s.tag.mode with
    | .ready => s.setTag (fun t => t.frame.fallBack)
    | .active =>
      if (own && mac.isSome == s.tag.session.isSome) = false then s.setTag (fun t => t.frame.fallBack)
      else
        let s := s.setTag Tag.frame
        match s.tag.session, mac with
        | some (sk, ctr), some m =>
          if leBytes 8 m.toNat = frameMac sk ctr (BitVec.ofNat 8 code :: params) then body s
          else tagRespond 6 [] (s.setTag Tag.endSession)
        | _, _ => body s
    | _ => s.setTag Tag.frame

/-- Line 7 and, in RUN, an event for a change made from the field (R566, R580, R583). -/
def fieldChange (code obj : Nat) (s : State) : State :=
  let s := s.setTag (fun t => { t with wrote := true })
  if tagRun s then slotEvent code obj 0 (s.mline 7) else s

/-- READ_BLOCK (R558, R569, R570). -/
def tagReadBlock (block count : Nat) (s : State) : State :=
  if count = 0 ∨ 4 < count ∨ 0x2FF < block + count - 1 then tagRespond 3 [] s
  else if 0x100 ≤ block + count - 1 ∧ tagConfig s % 2 = 1 ∧ s.tag.session = none then tagRespond 2 [] s
  else tagRespond 0 ((List.range count).flatMap (fun i => tagBlock s (block + i))) s

/-- Copy the latest commit's shadow into its page as far as the supply carries (R572 step 5). -/
def copyBack (supply : List Nat) (s : State) : State × Writing :=
  match copyPending s with
  | none => (s, .full)
  | some (p, sh) =>
    let img := tagPage s (196 + sh)
    match supplyRun (supplyDefault s) 8 0 supply with
    | .full => (writeWords p img 8 s, .full)
    | .weak n => (writeWords p img n s, .weak n)
    | .lost n => (writeWords p img n s, .lost n)

/-- Program a shadow with a page image and commit it: readings for 8 shadow words and the commit word (R572 steps 3 and 4). -/
def shadowCommit (page : Nat) (img : List Byte) (supply : List Nat) (s : State) : State × Writing :=
  let last := latestCommit s
  let sh := match last with | some (_, v) => 1 - v / 2 ^ 8 % 2 | none => 0
  let slot := match last with | some (k, _) => 1 - k | none => 0
  let seq := (tagSeq s + 1) % 2 ^ 24
  match supplyRun (supplyDefault s) 9 0 supply with
  | .full =>
    let w := withCrc8 (page + sh * 2 ^ 8 + seq * 2 ^ 16 + (crc16 img).toNat * 2 ^ 40)
    ((writeWords (196 + sh) img 8 s).writeNat 6 (64 * 194 + 8 * slot) 8 w, .full)
  | .weak n => (writeWords (196 + sh) img n s, .weak n)
  | .lost n => (writeWords (196 + sh) img n s, .lost n)

/-- The page image with new blocks merged in. -/
def mergeBlocks (old : List Byte) (block : Nat) (data : List Byte) : List Byte :=
  old.take (16 * (block % 4)) ++ data ++ old.drop (16 * (block % 4) + data.length)

/-- FIELD_WEAK with its step, 1 in the check and 2 in shadow programming, or silence when the field is gone (R571 to R573). -/
def weakAnswer (checking : Bool) (w : Writing) (s : State) : State :=
  match w with
  | .full => s
  | .weak n => tagRespond 1 [if checking ∨ n = 0 then 1 else 2] s
  | .lost _ => s.setTag Tag.fieldLost

/-- WRITE_BLOCK (R572): checks, an outstanding copy-back, shadow, commit, response. The copy-back follows the response (TAG_COPY_BACK). -/
def tagWriteBlock (block count : Nat) (data : List Byte) (supply : List Nat) (s : State) : State :=
  if s.tag.session = none then tagRespond 2 [] s
  else if count = 0 ∨ 4 < count ∨ block / 4 ≠ (block + count - 1) / 4 ∨ 0x2FF < block then tagRespond 3 [] s
  else if block < 0x100 then tagRespond 4 [] s
  else
    let pend := copyPending s
    match copyBack supply s with
    | (s, .full) =>
      let page := block / 4
      let rest := if pend.isSome then supply.drop 8 else supply
      match shadowCommit page (mergeBlocks (tagRead s page) block data) rest s with
      | (s, .full) =>
        let t := tagRespond 0 (leBytes 3 (tagSeq s)) s
        let t := if (rest.drop 9).headD 2400 < 1800 then t.setTag Tag.fieldLost else t
        fieldChange 4 page t
      | (s, w) => weakAnswer false w s
    | (s, w) => weakAnswer true w s

/-- A counter copy: its value when valid (R574). -/
def counterCopy (s : State) (page c : Nat) : Option Nat :=
  let v := tagWord s page c
  if v = withCrc8 v ∧ v / 2 ^ 48 % 2 ^ 8 = 0 ∧ v / 2 ^ 24 % 2 ^ 24 = 2 ^ 24 - 1 - v % 2 ^ 24 then some (v % 2 ^ 24) else none
/-- A copy that holds a value. -/
def counterWord (v : Nat) : Nat := withCrc8 (v + (2 ^ 24 - 1 - v) * 2 ^ 24)
/-- A counter's value: the higher of its valid copies. -/
def counterValue (s : State) (c : Nat) : Option Nat :=
  match counterCopy s 192 c, counterCopy s 193 c with
  | some a, some b => some (max a b)
  | some a, none => some a
  | none, b => b
/-- Words a repair of a counter takes: one while a copy is invalid or below the other (R574). -/
def repairWords (s : State) (c : Nat) : Nat :=
  match counterValue s c with
  | none => 0
  | some v => if counterCopy s 192 c = some v ∧ counterCopy s 193 c = some v then 0 else 1
/-- Rewrite a counter's invalid or lower copy from the other; source 200 when the module powers the tag (R574). -/
def counterRepair (c : Nat) (s : State) : State :=
  match counterValue s c with
  | none => s
  | some v =>
    if repairWords s c = 0 then s
    else
      let s := (s.writeNat 6 (64 * 192 + 8 * c) 8 (counterWord v)).writeNat 6 (64 * 193 + 8 * c) 8 (counterWord v)
      if tagRun s then s.raise 200 else s

/-- COUNTER_READ (R558, R574): copies that differ are repaired after the response, if the supply carries a word (R571). -/
def tagCounterRead (c : Nat) (s : State) : State :=
  if 7 < c then tagRespond 3 [] s
  else match counterValue s c with
    | some v =>
      let s := tagRespond 0 (leBytes 3 v) s
      if 2400 ≤ supplyDefault s then counterRepair c s else s
    | none => tagRespond 9 [] s

/-- COUNTER_INC (R574): a repair still due, then backup, then primary, each word under the supply check. -/
def tagCounterInc (c inc : Nat) (supply : List Nat) (s : State) : State :=
  if s.tag.session = none then tagRespond 2 [] s
  else if 7 < c ∨ inc = 0 ∨ 255 < inc then tagRespond 3 [] s
  else match counterValue s c with
    | none => tagRespond 9 [] s
    | some v =>
      if 2 ^ 24 ≤ v + inc then tagRespond 5 [] s
      else
        let w := counterWord (v + inc)
        let fixes := repairWords s c
        let backup (s : State) : State := (counterRepair c s).writeNat 6 (64 * 193 + 8 * c) 8 w
        match supplyRun (supplyDefault s) (fixes + 2) 0 supply with
        | .full => fieldChange 5 c (tagRespond 0 (leBytes 3 (v + inc)) ((backup s).writeNat 6 (64 * 192 + 8 * c) 8 w))
        | .weak n =>
          if n ≤ fixes then tagRespond 1 [1] (if 0 < n then counterRepair c s else s) else fieldChange 5 c (backup s)
        | .lost n =>
          if n ≤ fixes then (if 0 < n then counterRepair c s else s).setTag Tag.fieldLost
          else fieldChange 5 c ((backup s).setTag Tag.fieldLost)

/-- QUIET (R568): the flag follows the response. -/
def tagQuiet (s : State) : State := (tagRespond 0 [] s).setTag (fun t => { t.endSession with mode := .idle, quiet := true })

/-- GET_STATUS (R558). -/
def tagStatus (supply : Nat) (s : State) : State :=
  tagRespond 0 (tagUid ++ leBytes 3 (tagSeq s) ++ leBytes 1 (supply / 10) ++ leBytes 1 (quietTime s) ++ [7]) (s.setTag (fun t => { t with supply := supply }))

/-- AUTH_1 (R560): a new one ends the session; after three failures the tag refuses. -/
def tagAuth1 (slot : Nat) (s : State) : State :=
  let s := s.setTag Tag.endSession
  if s.tag.lockout then tagRespond 2 [] s
  else if 3 < slot then tagRespond 3 [] s
  else
    let r : QWord := s.fresh.setWidth 128
    tagRespond 0 (aesBytes (tagKey s slot) (leBytes 16 r.toNat)) (s.drew.setTag (fun t => { t with pendingT := some (slot, r) }))

/-- A failed AUTH_2: counted, reported, source 198 (R560, R566, R579). -/
def tagAuthFail (slot : Nat) (s : State) : State :=
  let s := s.setTag (fun t => { t with pendingT := none, authFails := t.authFails + 1, lockout := t.lockout || decide (2 ≤ t.authFails) })
  tagRespond 2 [] (if tagRun s then (slotEvent 6 slot 0 s).raise 198 else s)

/-- AUTH_2 (R560): E(K, RndR, rot(RndT)). -/
def tagAuth2 (token : List Byte) (s : State) : State :=
  match s.tag.pendingT with
  | none => tagRespond 2 [] s
  | some (slot, rndT) =>
    let k := tagKey s slot
    let rndR := aesInvBytes k (token.take 16)
    if token.drop 16 = aesBytes k (rotLeft (leBytes 16 rndT.toNat)) then
      (tagRespond 0 (aesBytes k (rotLeft rndR)) s).setTag (fun t => { t with
        pendingT := none, session := some (sessionKey k (blockNat rndR) rndT, 0) })
    else tagAuthFail slot s

/-- RATE (R558): both sides switch after the response. -/
def tagRate (code : Nat) (s : State) : State :=
  if 2 < code then tagRespond 3 [] s else (tagRespond 0 [] s).setTag (fun t => { t with rate := code })

/-- The oldest report held for the tag interface: a re-post or a boundary (R143). -/
def tagReport (s : State) : Option Held := s.cqe.held.find? (fun h => h.src == .tag && h.kind == .unsolicited && !(h.kiln && s.vault.keyless))
/-- YOMIR_FETCH (R578). With no entry outstanding it returns the oldest report of R143, to an open session. DESIGN CHOICE (log 122) -/
def tagFetch (s : State) : State :=
  match s.tag.yEntry with
  | some (auth, _) =>
    if auth = true ∧ s.tag.session = none then tagRespond 2 [] s
    else match s.tag.yDone with
      | some b => (tagRespond 0 b s).setTag (fun t => { t with yEntry := none, yDone := none })
      | none => tagRespond 0 [] s
  | none => match tagReport s with
    | none => tagRespond 0 [] s
    | some h =>
      if s.tag.session = none then tagRespond 0 [] s
      else
        let c := { h.comp with durability := if h.comp.status = 0x8002 then 0 else classNow s h }
        postMark h (tagRespond 0 (c.bytes true) { s with cqe := { s.cqe with held := s.cqe.held.erase h } })

/-- YOMIR_OUT (R578). A length outside 1 to 48 or a range beyond the buffer answers RANGE. DESIGN CHOICE -/
def tagOut (off n : Nat) (s : State) : State :=
  if (match s.tag.yEntry with | some (auth, _) => auth | none => false) = true ∧ s.tag.session = none then tagRespond 2 [] s
  else if n = 0 ∨ 48 < n ∨ 8192 < off + n then tagRespond 3 [] s
  else tagRespond 0 (padTo n (slice s.tag.yOut off n)) s

/-- The field is off for 1 s: the lockout ends (R560). -/
def tagLockoutEnd (s : State) : State := if s.tag.field then s else s.setTag (fun t => { t with lockout := false })

/-- A copy-back between frames; source 197 follows the roll-forward at a power-up alone. -/
def tagCopyBack (supply : List Nat) (s : State) : State :=
  match copyBack supply s with
  | (s, .lost _) => s.setTag Tag.fieldLost
  | (s, _) => s

/-! ### Wired access (R575 to R577, R583 to R585) -/

/-- Request a wired operation; one runs at a time, in RUN alone. -/
def wiredStart (w : WiredOp) (s : State) : State :=
  if tagRun s = false then s
  else s.setTag (fun t => match t.wired with
    | none => { t with wired := some w, wiredDone := false }
    | some _ => { t with wiredQ := t.wiredQ ++ [w] })

/-- The 64 bytes of the TAGIF_DATA registers. -/
def tagifData (s : State) : List Byte := (List.range 16).flatMap (fun i => leBytes 4 (s.reg (tagifBase + 0x40 + 4 * i) 0).toNat)
/-- Load the TAGIF_DATA registers. -/
def setTagifData (bs : List Byte) (s : State) : State :=
  (List.range 16).foldl (fun s i => s.setReg (tagifBase + 0x40 + 4 * i) (BitVec.ofNat 32 (fieldOf bs (4 * i) 4))) s

/-- Does a wired operation's page suit it (R584)? -/
def WiredOp.pageOk (w : WiredOp) : Bool := match w.op with | 1 => decide (w.page ≤ 191) | 2 => decide (w.page ≤ 63) | _ => true
/-- Is a wired operation locked (TAGIF_LOCK)? -/
def WiredOp.locked (s : State) (w : WiredOp) : Bool := decide (3 ≤ w.op) && bitAt (s.reg (tagifBase + 0xFC) 0) 0

/-- What a finished wired operation did, and its result. A wired write carries its own supply. -/
def wiredEffect (w : WiredOp) (s : State) : State × Nat :=
  if w.locked s then (if w.op = 4 then setTagifData [] s else s, 4)
  else if w.pageOk = false then (s, 2)
  else match w.op with
    | 1 => (setTagifData (tagRead s w.page) s, 0)
    | 2 =>
      let s := (copyBack (List.replicate 8 2400) s).1
      let s := (shadowCommit w.page w.data (List.replicate 9 2400) s).1
      ((copyBack (List.replicate 8 2400) s).1, 0)
    | 3 => (s.writeBytes 6 (64 * 195) (w.data.take 8), 0)
    | _ => (setTagifData [] (s.writeBytes 6 (64 * 198 + 16 * w.slot) (w.data.take 16)), 0)

/-- The running wired operation ends with a result: line 8, and the next starts. -/
def wiredEnd (res : Nat) (s : State) : State :=
  (s.setTag (fun t => { t with wiredDone := true, wiredRes := res, wired := t.wiredQ.head?, wiredQ := t.wiredQ.drop 1 })).mline 8

/-- PLACARD_WRITE ends: all its pages are committed, or one ended TAG_BUSY (R577). -/
def placardEnd (key res : Nat) (s : State) : State :=
  if res ≠ 0 then
    let keep (w : WiredOp) : Bool := w.key != some key
    complete key (answer 0x7005 []) (s.setTag (fun t =>
      let l := (t.wired.toList ++ t.wiredQ).filter keep
      { t with wired := l.head?, wiredQ := l.drop 1 }))
  else if (s.tag.wired.toList ++ s.tag.wiredQ).any (fun w => w.key == some key) then s
  else match s.command key with
    | none => s
    | some c => complete key (okay [(12, c.entry.param 0xC 2 / 64)]) s

/-- A wired operation finishes: the row TAGIF_OP_DONE. -/
def tagifDone (s : State) : State :=
  match s.tag.wired with
  | none => s
  | some w =>
    let (s, res) := wiredEffect w s
    let s := wiredEnd res s
    match w.key with
    | some k => placardEnd k res (if res = 0 then s.passPoint k else s)
    | none => s

/-- A wired operation's 5 ms pass: TAG_BUSY, memory unchanged (R576). -/
def tagifTimeout (s : State) : State :=
  match s.tag.wired with
  | none => s
  | some w =>
    let s := wiredEnd 1 s
    match w.key with
    | some k => placardEnd k 1 s
    | none => s

/-- Body of PLACARD_WRITE (R577). -/
def placardWrite (key : Nat) (src : Source) (e : Entry) (s : State) : State :=
  let off := e.param 8 2
  let len := e.param 0xC 2
  if off % 64 ≠ 0 ∨ 4096 ≤ off then complete key (inputRange 8) s
  else if len = 0 ∨ len % 64 ≠ 0 ∨ 4096 - off < len then complete key (inputRange 0xC) s
  else match readInput s src len e.addr0 with
    | .error r => complete key r s
    | .ok data =>
      let ops := (List.range (len / 64)).map (fun i => ({ op := 2, page := off / 64 + i, slot := 0, data := slice data (64 * i) 64, key := some key } : WiredOp))
      ops.foldl (fun s w => wiredStart w s) (s.waitOn key (.label 6))

/-- Forget the wired operations of a command. -/
def dropWired (key : Nat) (s : State) : State :=
  s.setTag (fun t =>
    let l := (t.wired.toList ++ t.wiredQ).filter (fun (w : WiredOp) => w.key != some key)
    { t with wired := l.head?, wiredQ := l.drop 1 })

/-- The tag's power-up under the module: an incomplete copy-back is rolled forward, source 197 (R572). -/
def tagPowerUp (s : State) : State :=
  if (copyPending s).isSome then (copyBack (List.replicate 8 2400) s).1.raise 197 else s

/-- A management-plane reset forgets the wired operations (R100). -/
def tagReset (s : State) : State := s.setTag (fun t => { t with wired := none, wiredQ := [] })

/-- The switched supplies go: the field alone powers the tag on (R73). -/
def tagUnpowered (t : Tag) : Tag := { t with wired := none, wiredQ := [], wiredDone := false, wiredRes := 0, frames := 0, weak := 0, wrote := false, yEntry := none, yDone := none, yOut := [] }

end Sys2Proof.Machine
end

