-- ==== Sys2Proof/Machine/Cards.lean ====
section
/-! DEFINITION. The custodian card slots: activation, T=1 and token blocks, sleep, removal, the card commands (20_custodian_card_slots.md). -/

namespace Sys2Proof.Machine

/-- CARD's register block. -/
def cardBase : Nat := 0x40140000

/-- A slot. -/
def State.slot (s : State) (n : Nat) : CardSlot := s.cards.getD n CardSlot.reset
/-- Change a slot. -/
def State.setSlot (s : State) (n : Nat) (f : CardSlot → CardSlot) : State := { s with cards := s.cards.modify n f }

/-- State code of a slot (R598). -/
def slotCode (s : State) (n : Nat) : Nat :=
  if s.isFenced 7 n then 5
  else match (s.slot n).phase with
    | .empty => 0
    | .present | .atr | .pps | .ifs => if (s.slot n).phase = .present then 1 else 2
    | .ready | .waking => 2
    | .stopped | .asleep => 3
    | .unusable => 4

/-- Is the card under power? -/
def CardSlot.active (k : CardSlot) : Bool :=
  match k.phase with
  | .empty | .present | .unusable => false
  | _ => true

/-! ### ATR (R588, R589) -/

/-- One group of interface bytes: the protocol it belongs to, TA, TB, TC. -/
structure AtrGroup where
  proto : Nat
  ta : Option Byte
  tb : Option Byte
  tc : Option Byte
  deriving DecidableEq, Repr

/-- Take one interface byte when it is announced. -/
def atrTake (have_ : Bool) (l : List Byte) : Option (Option Byte × List Byte) :=
  if have_ then match l with | b :: t => some (some b, t) | [] => none else some (none, l)

/-- The groups of interface bytes, the protocols offered, and the bytes that follow. -/
def atrGroups : Nat → Nat → Nat → List Byte → Option (List AtrGroup × List Nat × List Byte)
  | 0, _, _, _ => none
  | fuel + 1, y, proto, l =>
    match atrTake (y % 2 == 1) l with
    | none => none
    | some (ta, l) =>
    match atrTake (y / 2 % 2 == 1) l with
    | none => none
    | some (tb, l) =>
    match atrTake (y / 4 % 2 == 1) l with
    | none => none
    | some (tc, l) =>
    match atrTake (y / 8 % 2 == 1) l with
    | none => none
    | some (none, l) => some ([⟨proto, ta, tb, tc⟩], [], l)
    | some (some td, l) =>
      match atrGroups fuel (td.toNat / 16) (td.toNat % 16) l with
      | none => none
      | some (gs, ps, l) => some (⟨proto, ta, tb, tc⟩ :: gs, td.toNat % 16 :: ps, l)

/-- What an ATR says: groups, protocols (T=0 when none is named), historical bytes. -/
structure Atr where
  groups : List AtrGroup
  protos : List Nat
  hist   : List Byte
  deriving DecidableEq, Repr

/-- Read an ATR; none when its length or its TCK is wrong. -/
def atrOf (b : List Byte) : Option Atr :=
  match b with
  | _ :: t0 :: rest =>
    match atrGroups 33 (t0.toNat / 16) 0 rest with
    | none => none
    | some (gs, ps, l) =>
      let k := t0.toNat % 16
      let ps := if ps.isEmpty then [0] else ps
      let tck := ps.any (fun p => p != 0)
      if l.length ≠ k + (if tck then 1 else 0) then none
      else if tck = true ∧ (b.drop 1).foldl (fun a x => a ^^^ x) (0 : Byte) ≠ 0 then none
      else some ⟨gs, ps, l.take k⟩
  | _ => none

/-- TA after the first T=15: class indicator in bits 5:0, clock-stop indicator in bits 7:6. -/
def Atr.classByte (a : Atr) : Option Byte :=
  match (a.groups.drop 2).find? (fun g => g.proto == 15) with | some g => g.ta | none => none
/-- Does the ATR permit a class (1 A, 2 B, 3 C)? -/
def Atr.permits (a : Atr) (cls : Nat) : Bool := match a.classByte with | some b => bitAt b (cls - 1) | none => true
/-- A Cloxo T token: its historical bytes and an offer of T=14 (R589). -/
def Atr.token (a : Atr) : Bool := decide (a.hist.length = 6) && decide (a.hist.take 5 = [0x80, 0x64, 0x43, 0x4C, 0x54]) && a.protos.contains 14
/-- Fi of a TA1 whose fmax is at least 4 MHz, as ISO/IEC 7816-3 codes it (R586). PRESUMED: the standard's table (log 148) -/
def fiOf : Nat → Option Nat
  | 0 => some 372 | 1 => some 372 | 2 => some 558 | 3 => some 744 | 4 => some 1116 | 5 => some 1488 | 6 => some 1860
  | 9 => some 512 | 10 => some 768 | 11 => some 1024 | 12 => some 1536 | 13 => some 2048
  | _ => none
/-- Di of 1 to 32, as ISO/IEC 7816-3 codes it (R586). PRESUMED (log 148) -/
def diOf : Nat → Option Nat
  | 1 => some 1 | 2 => some 2 | 3 => some 4 | 4 => some 8 | 5 => some 16 | 6 => some 32 | 8 => some 12 | 9 => some 20
  | _ => none
/-- Clock cycles per etu of a TA1 the slot supports. -/
def etuOf (ta1 : Byte) : Option Nat :=
  match fiOf (ta1.toNat / 16), diOf (ta1.toNat % 16) with
  | some f, some d => some (f / d)
  | _, _ => none
/-- TA1. -/
def Atr.ta1 (a : Atr) : Option Byte := match a.groups with | g :: _ => g.ta | [] => none
/-- TA2: specific mode. -/
def Atr.ta2 (a : Atr) : Option Byte := match a.groups with | _ :: g :: _ => g.ta | _ => none
/-- The first group of T=1 beyond the second. -/
def Atr.t1 (a : Atr) : Option AtrGroup := (a.groups.drop 2).find? (fun g => g.proto == 1)

/-- CWI and BWI of T=1: its first TB beyond the second group, else 13 and 4 (R590). -/
def Atr.waits (a : Atr) : Nat × Nat :=
  match a.t1 with
  | some g => match g.tb with | some x => (x.toNat % 16, x.toNat / 16) | none => (13, 4)
  | none => (13, 4)

/-! ### Blocks sent -/

/-- NAD of the slot's mode (R586, R590). -/
def CardSlot.nad (k : CardSlot) : Byte := if k.mode = 2 then 0x7C else 0
/-- Send a block: its bytes without LEN and EDC. -/
def sendBlock (n : Nat) (pcb : Nat) (inf : List Byte) (s : State) : State :=
  s.setSlot n (fun k => { k with tx := k.tx ++ [k.nad :: BitVec.ofNat 8 pcb :: inf], busy := true })

/-- An operation or an exchange of a slot has finished: done, its result, line 9 + n (R604). -/
def slotDone (n res : Nat) (s : State) : State :=
  (s.setSlot n (fun k => { k with busy := false, opDone := true, result := res })).mline (9 + n)

/-! ### Activation and deactivation (R587, R588, R596) -/

/-- The management core sets a slot's etu and character waiting time (CARD_Ss_ETU, CARD_Ss_CWT). -/
def setEtu (n etu cwt : Nat) (s : State) : State :=
  (s.setReg (cardBase + 0x108 + 0x20 * n) (BitVec.ofNat 32 etu)).setReg (cardBase + 0x10C + 0x20 * n) (BitVec.ofNat 32 cwt)
/-- And the block waiting time in microseconds (CARD_Ss_BWT). -/
def setBwt (n us : Nat) (s : State) : State := s.setReg (cardBase + 0x110 + 0x20 * n) (BitVec.ofNat 32 (min us 0xFFFFFF))
/-- The times of an ATR: 372 cycles per etu, at most 9,600 etu between characters (R588). -/
def atrTiming (n : Nat) (s : State) : State := setEtu n 372 9600 s
/-- The times of T=1 at 4 MHz with an etu of `etu` cycles, as ISO/IEC 7816-3 gives them for CWI and BWI (R590). PRESUMED: the standard's formulas (log 148) -/
def isoTiming (n etu : Nat) (a : Atr) (s : State) : State :=
  setBwt n (11 * etu / 4 + 2 ^ a.waits.2 * 89280) (setEtu n etu (11 + 2 ^ a.waits.1) s)
/-- The times of token mode: 8 cycles per etu, 16 etu, 20 ms (R589, R590). -/
def tokenTiming (n : Nat) (s : State) : State := setBwt n 20000 (setEtu n 8 16 s)

/-- Start an activation at a class, alone or first of the order C, B, A. -/
def activate (n cls : Nat) (s : State) : State :=
  let k := s.slot n
  if k.det = false ∨ k.blocked = true ∨ s.isFenced 7 n = true then s
  else (atrTiming n s).setSlot n (fun k => { k with
    phase := .atr, cls := if cls = 0 then 3 else cls, fixed := cls != 0, mode := 0, atr := [], badAtr := false, noPps := false
    ns := false, nr := false, retries := 0, wtx := 0, tx := [], busy := true, opDone := false })

/-- Deactivate: contacts off, the card present or gone (R596). -/
def deactivate (n : Nat) (s : State) : State :=
  s.setSlot n (fun k => { k with
    phase := if k.det then .present else .empty, cls := 0, mode := 0, busy := false, ns := false, nr := false, retries := 0, wtx := 0
    wakes := 0, tx := [], commits := 0, serial := 0 })

/-! ### The commands' jobs -/

/-- Does a job write to the token (its chain carries W)? -/
def CardWork.writes : CardWork → Bool
  | .apdu _ _ => false
  | .token fn _ _ _ => fn == 3
  | .approve _ => true

/-- The running command of a slot. -/
def slotJob (s : State) (n : Nat) : Option CardJob := (s.slot n).jobs.head?
/-- Change the running command. -/
def setCardJob (n : Nat) (f : CardJob → CardJob) (s : State) : State :=
  s.setSlot n (fun k => { k with jobs := match k.jobs with | j :: t => f j :: t | [] => [] })

/-- The answer a finished write gives (R595, R600): an approval goes on in the kernel. -/
def cardCommitted (n : Nat) (j : CardJob) (s : State) : State :=
  match j.work with
  | .token _ _ len _ => complete j.key (okay [(12, len), (16, (s.slot n).commits.toNat)]) s
  | _ => s.waitOn j.key .ready

/-- Has a character of an ISO command, or all of a write chain, been sent with its outcome open (R595)? -/
def openOutcome (mode : Nat) (j : CardJob) : Bool :=
  if mode = 1 then j.begun else j.work.writes && j.sent

/-- End a command as a removal in its phase ends it; `early` where nothing took effect (R595, R93). -/
def removeJob (n mode : Nat) (early : Result) (s : State) (j : CardJob) : State :=
  if j.begun = true ∧ mode = 2 ∧ j.work.writes = true ∧ j.done = true then cardCommitted n j s
  else complete j.key (if j.begun && openOutcome mode j then answer 0x7003 [] else early) s

/-- Take a slot's commands and end them as at a removal. -/
def endCardJobs (n : Nat) (early : Result) (s : State) : State :=
  let k := s.slot n
  k.jobs.foldl (removeJob n k.mode early) (s.setSlot n (fun k => { k with jobs := [] }))

/-- Split information fields of at most `n` bytes; an empty message is one empty field. -/
def splitInf (n : Nat) : Nat → List Byte → List (List Byte)
  | 0, _ => []
  | fuel + 1, l => if l.length ≤ n then [l] else l.take n :: splitInf n fuel (l.drop n)

/-- The message a command sends. A token's function, target and length precede its data. DESIGN CHOICE: the spec does not give the information field of a token command -/
def CardWork.message : CardWork → List Byte
  | .apdu b _ => b
  | .token fn target len b => BitVec.ofNat 8 fn :: leBytes 2 target ++ leBytes 4 len ++ b
  | .approve b => b

/-- Send the block at the front of the running command's chain. -/
def sendChain (n : Nat) (s : State) : State :=
  match slotJob s n with
  | none => s
  | some j =>
    let k := s.slot n
    let pcb := (if k.ns then 0x40 else 0) + (if 1 < j.out.length then 0x20 else 0) + (if k.mode = 2 ∧ j.work.writes = true then 0x10 else 0)
    sendBlock n pcb (j.out.headD []) (setCardJob n (fun j => { j with begun := true, sent := decide (j.out.length ≤ 1) }) s)

/-- Start the running command on a card that is ready: asleep it is woken, its clock restarted, its kind checked (R594, R599, R600). `fuel` bounds the commands refused in a row. -/
def startCardJob (n : Nat) : Nat → State → State
  | 0, s => s
  | fuel + 1, s =>
    match slotJob s n with
    | none => s
    | some j =>
      let k := s.slot n
      if j.begun then s
      else match k.phase with
        | .present => activate n 0 s
        | .asleep => sendBlock n 0xC9 [] (s.setSlot n (fun k => { k with phase := .waking, wakes := 0 }))
        | .ready | .stopped =>
          let isApdu : Bool := match j.work with | .apdu _ _ => true | _ => false
          if isApdu = decide (k.mode = 2) then
            startCardJob n fuel (complete j.key (conflict 0) (s.setSlot n (fun k => { k with jobs := k.jobs.drop 1 })))
          else match j.work with
            | .token 6 _ _ _ => sendBlock n 0xC8 [] (setCardJob n (fun j => { j with begun := true }) (s.setSlot n (fun k => { k with phase := .ready })))
            | _ =>
              let size := if k.mode = 2 then 254 else max 1 k.ifsc
              sendChain n (setCardJob n (fun j => { j with out := splitInf size 65545 j.work.message })
                (s.setSlot n (fun k => { k with phase := .ready, retries := 0, wtx := 0 })))
        | _ => s
/-- Let the slot's next command start. -/
def goCard (n : Nat) (s : State) : State := startCardJob n ((s.slot n).jobs.length + 1) s

/-- The running command ends with an answer; the next starts. -/
def finishCard (n : Nat) (r : Result) (s : State) : State :=
  match slotJob s n with
  | none => s
  | some j => goCard n (complete j.key r (slotDone n 0 (s.setSlot n (fun k => { k with jobs := k.jobs.drop 1 }))))

/-- A card is UNUSABLE: source 210; its commands end STATE_CONFLICT, or TIMEOUT after a failed wake (R588, R594, R599). -/
def unusable (n res : Nat) (s : State) : State :=
  let early := if (s.slot n).wakes = 2 then answer 0x7005 [] else conflict 0
  let s := endCardJobs n early s
  (slotDone n res (s.setSlot n (fun k => { k with phase := .unusable, cls := 0, mode := 0, wakes := 0 }))).raiseAt 210 (.card n) 0 0

/-- The class fails: the next of C, B, A, or UNUSABLE (R588). -/
def nextClass (n res : Nat) (s : State) : State :=
  let k := s.slot n
  if k.fixed = true ∨ k.cls ≤ 1 then unusable n res s
  else s.setSlot n (fun k => { k with cls := k.cls - 1, atr := [], badAtr := false })

/-- A bad ATR: one warm reset, then UNUSABLE (R588). -/
def atrBad (n : Nat) (s : State) : State :=
  if (s.slot n).badAtr then unusable n 5 s else s.setSlot n (fun k => { k with badAtr := true, atr := [] })

/-- The card is in its protocol, an etu in T=1 taking `etu` cycles: T=1 begins with S(IFS request), a token is ready (R589). -/
def enterProtocol (n mode etu : Nat) (s : State) : State :=
  let s := if mode = 2 then tokenTiming n s else match atrOf (s.slot n).atr with | some a => isoTiming n etu a s | none => s
  let s := s.setSlot n (fun k => { k with mode := mode, ns := false, nr := false, retries := 0 })
  if mode = 1 then sendBlock n 0xC1 [0xFE] (s.setSlot n (fun k => { k with phase := .ifs }))
  else goCard n (slotDone n 0 (s.setSlot n (fun k => { k with phase := .ready, wakes := 0 })))

/-- An accepted ATR: PPS for a token, T=1 with TA2, PPS of TA1, or the defaults (R589). Parameters outside R586 are not proposed, and with TA2 they make the card UNUSABLE. DESIGN CHOICE (log 148) -/
def atrGood (n : Nat) (b : List Byte) (a : Atr) (s : State) : State :=
  let t1 := a.t1
  let s := s.setSlot n (fun k => { k with
    atr := b
    ifsc := match t1 with | some g => (match g.ta with | some x => x.toNat | none => 32) | none => 32
    crc := match t1 with | some g => (match g.tc with | some x => bitAt x 0 | none => false) | none => false
    stopInd := match a.classByte with | some x => x.toNat / 64 | none => 0 })
  let noPps := (s.slot n).noPps
  if a.token = true ∧ noPps = false then
    s.setSlot n (fun k => { k with phase := .pps, tx := k.tx ++ [[0xFF, 0x1E, 0x97, 0x76]] })
  else if a.protos.contains 1 = false then unusable n 5 s
  else
    let ta1 := a.ta1.getD 0x11
    match a.ta2 with
    | some x => match etuOf ta1 with
      | some etu => if x.toNat % 16 = 1 then enterProtocol n 1 etu s else unusable n 5 s
      | none => unusable n 5 s
    | none =>
      if ta1 = 0x11 ∨ noPps = true ∨ etuOf ta1 = none then enterProtocol n 1 372 s
      else s.setSlot n (fun k => { k with phase := .pps, tx := k.tx ++ [[0xFF, 0x11, ta1, 0xFF ^^^ 0x11 ^^^ ta1]] })

/-- An ATR arrives (R588, R589). -/
def atrReceived (n : Nat) (b : List Byte) (s : State) : State :=
  if (s.slot n).phase ≠ .atr then s
  else match atrOf b with
    | none => atrBad n s
    | some a => if a.permits (s.slot n).cls then atrGood n b a s else nextClass n 5 s

/-- No ATR character in time: the next class (R588). -/
def atrTimeout (n : Nat) (s : State) : State := if (s.slot n).phase = .atr then nextClass n 4 s else s

/-- A PPS refused or unanswered: a warm reset, no PPS after it (R589). -/
def ppsRefused (n : Nat) (s : State) : State := (atrTiming n s).setSlot n (fun k => { k with phase := .atr, noPps := true, atr := [], result := 6 })

/-- The card answers PPS (R589). -/
def ppsResponse (n : Nat) (b : List Byte) (s : State) : State :=
  let k := s.slot n
  if k.phase ≠ .pps then s
  else if k.tx.getLast? = some b then
    enterProtocol n (if b = [0xFF, 0x1E, 0x97, 0x76] then 2 else 1) ((etuOf (b.getD 2 0x11)).getD 372) s
  else ppsRefused n s

/-! ### Exchanges (R590 to R592) -/

/-- An R-block that names the block expected, with its error bits. -/
def sendR (n err : Nat) (s : State) : State := sendBlock n (0x80 + (if (s.slot n).nr then 0x10 else 0) + err) [] s

/-- Is a block awaited? -/
def awaiting (s : State) (n : Nat) : Bool :=
  match (s.slot n).phase with
  | .ifs => true
  | .ready => (match slotJob s n with | some j => j.begun | none => false)
  | _ => false

/-- A fourth failure: deactivation, source 209, TIMEOUT (R591). -/
def blockDead (n src res : Nat) (s : State) : State :=
  let jobs := (s.slot n).jobs
  let s := s.setSlot n (fun k => { k with jobs := k.jobs.drop 1, failures := satInc 16 k.failures })
  let s := slotDone n res (deactivate n s)
  let s := match jobs with | j :: _ => complete j.key (answer 0x7005 []) s | [] => s
  goCard n (s.raiseAt src (.card n) 0 0)

/-- A block is discarded or does not come: an R-block, at most 3 times (R591). -/
def blockFailure (n err : Nat) (s : State) : State :=
  if awaiting s n = false then s
  else if 3 ≤ (s.slot n).retries then blockDead n 209 2 s
  else sendR n err (s.setSlot n (fun k => { k with retries := k.retries + 1, blockRetries := satInc 16 k.blockRetries }))

/-- Keys a token returns for functions 4 and 5 are free values: only the management core sees them. -/
def freeKeys (s : State) (n : Nat) : List QWord := (List.range n).map (fun i => (Config.freeValue (s.freeCtr + i)).setWidth 128)

/-- The whole response of a command has arrived (R599, R600). A token that answers WRITE_DATA and has committed nothing refused its range. DESIGN CHOICE (log 149) -/
def cardAnswer (n : Nat) (j : CardJob) (got : List Byte) (s : State) : State :=
  match s.command j.key with
  | none => finishCard n (okay []) s
  | some c =>
    let commits (s : State) : Nat := (s.slot n).commits.toNat
    let after (s : State) : State := slotDone n 0 (s.setSlot n (fun k => { k with jobs := k.jobs.drop 1 }))
    match j.work with
    | .apdu _ room =>
      if room < got.length then finishCard n (lengthError got.length) s
      else
        let sw := got.drop (got.length - 2)
        goCard n (completeOutput j.key c.src room c.entry.addr1 got (okay [(12, got.length), (16, leNat sw)]) (after s))
    | .token fn target len _ =>
      match fn with
      | 1 =>
        let s := s.setSlot n (fun k => { k with serial := BitVec.ofNat 128 (fieldOf got 0 16), commits := BitVec.ofNat 32 (fieldOf got 16 4) })
        goCard n (completeOutput j.key c.src 72 c.entry.addr0 (padTo 72 (got.take 72)) (okay [(12, 72), (16, commits s)]) (after s))
      | 2 =>
        if got.length < len then finishCard n (inputRange 0xA) s
        else goCard n (completeOutput j.key c.src len c.entry.addr0 (got.take len) (okay [(12, len), (16, commits s)]) (after s))
      | 4 =>
        let ks := freeKeys s len
        let s := { s with
          freeCtr := s.freeCtr + len
          reader := { s.reader with keys := (List.range 16).map (fun i =>
            if target ≤ i ∧ i < target + len then some (ks.getD (i - target) 0) else s.reader.keys.getD i none) } }
        finishCard n (okay [(12, 16 * len), (16, commits s)]) s
      | 5 =>
        let ks := freeKeys s 4
        let s := { s with freeCtr := s.freeCtr + 4 }
        let s := (List.range 4).foldl (fun s i =>
          wiredStart { op := 4, page := 0, slot := i, data := leBytes 16 (ks.getD i 0).toNat, key := none } s) s
        finishCard n (okay [(12, 64), (16, commits s)]) s
      | 3 => finishCard n (if j.done then okay [(12, len), (16, commits s)] else inputRange 0xA) s
      | _ => finishCard n (okay [(12, len), (16, commits s)]) s
    | .approve _ => goCard n (((after s).setSlot n (fun k => { k with blobs := k.blobs ++ [(j.key, got)] })).waitOn j.key .ready)

/-- An I-block from the card (R590, R591). -/
def cardI (n : Nat) (pcb : Byte) (inf : List Byte) (edcOk : Bool) (s : State) : State :=
  let k := s.slot n
  match slotJob s n with
  | none => s
  | some j =>
    if (k.phase == .ready && j.begun) = false then s
    else if edcOk = false then blockFailure n 1 s
    else if bitAt pcb 6 != k.nr || bitAt pcb 7 || !j.sent then blockFailure n 2 s
    else
      let s := s.setSlot n (fun k => { k with nr := !k.nr, retries := 0, wtx := 0 })
      if bitAt pcb 5 then sendR n 0 (setCardJob n (fun j => { j with got := j.got ++ inf }) s)
      else cardAnswer n j (j.got ++ inf) (s.setSlot n (fun k => { k with ns := !k.ns }))

/-- An R-block from the card: the next block of the chain, or the last one again (R590, R591). -/
def cardR (n : Nat) (pcb : Byte) (edcOk : Bool) (s : State) : State :=
  let k := s.slot n
  match slotJob s n with
  | none => s
  | some j =>
    if (k.phase == .ready && j.begun) = false then s
    else if edcOk = false then blockFailure n 1 s
    else if bitAt pcb 4 != k.ns then
      if 1 < j.out.length then
        sendChain n (setCardJob n (fun j => { j with out := j.out.drop 1 }) (s.setSlot n (fun k => { k with ns := !k.ns, retries := 0, wtx := 0 })))
      else s
    else if 3 ≤ k.retries then blockDead n 209 2 s
    else sendChain n (s.setSlot n (fun k => { k with retries := k.retries + 1, blockRetries := satInc 16 k.blockRetries }))

/-- S(RESYNCH): both sequence numbers restart; a chain under way starts again. -/
def cardResynch (n : Nat) (response : Bool) (s : State) : State :=
  if (s.slot n).mode = 0 then s
  else
    let s := if response then s else sendBlock n 0xE0 [] s
    let s := s.setSlot n (fun k => { k with ns := false, nr := false })
    match slotJob s n with
    | some j =>
      if j.begun = true ∧ j.done = false then
        goCard n (setCardJob n (fun j => { j with begun := false, sent := false, got := [] }) s)
      else s
    | none => s

/-- S(IFS): the card's own size is taken and answered; its answer to ours lets commands start (R589, R590). -/
def cardIfs (n : Nat) (response : Bool) (size : Byte) (s : State) : State :=
  let k := s.slot n
  if k.mode = 0 then s
  else if response then
    if k.phase = .ifs then goCard n (slotDone n 0 (s.setSlot n (fun k => { k with phase := .ready, retries := 0, wakes := 0 }))) else s
  else sendBlock n 0xE1 [size] (s.setSlot n (fun k => { k with ifsc := size.toNat }))

/-- S(ABORT) from the card: answered, the chain's command ends. DESIGN CHOICE: DEVICE_FAULT -/
def cardAbort (n : Nat) (response : Bool) (s : State) : State :=
  if (s.slot n).mode = 0 ∨ response = true then s
  else
    let s := sendBlock n 0xE2 [] s
    match slotJob s n with
    | some j => if j.begun then finishCard n (answer 0x6001 []) s else s
    | none => s

/-- S(WTX): honoured up to 10 s of waiting for one block, then a failure of that block (R591). -/
def cardWtx (n : Nat) (mult : Byte) (s : State) : State :=
  let k := s.slot n
  if awaiting s n = false then s
  else
    let bwt := fieldAt (s.reg (cardBase + 0x110 + 0x20 * n) 20000) 23 0
    let total := k.wtx + mult.toNat * bwt
    if 10000000 < total then blockFailure n 2 s
    else sendBlock n 0xE3 [mult] (s.setSlot n (fun k => { k with wtx := total }))

/-- S(SLEEP response): the token sleeps, its clock stopped low (R594). -/
def cardSleep (n : Nat) (s : State) : State :=
  let k := s.slot n
  if k.mode ≠ 2 ∨ k.phase ≠ .ready then s
  else match slotJob s n with
    | none => slotDone n 0 (s.setSlot n (fun k => { k with phase := .asleep }))
    | some j =>
      match j.work with
      | .token 6 _ _ _ => if j.begun then finishCard n (okay [(16, k.commits.toNat)]) (s.setSlot n (fun k => { k with phase := .asleep })) else s
      | _ => if j.begun then s else goCard n (s.setSlot n (fun k => { k with phase := .asleep }))

/-- S(WAKE response): the command proceeds (R594). -/
def cardWake (n : Nat) (s : State) : State :=
  if (s.slot n).phase = .waking then goCard n (slotDone n 0 (s.setSlot n (fun k => { k with phase := .ready, wakes := 0 }))) else s

/-- The block waiting time passes: a block failure; a PPS unanswered; a wake repeated once, then a new activation (R589, R591, R594). -/
def cardBwt (n : Nat) (s : State) : State :=
  let k := s.slot n
  match k.phase with
  | .pps => ppsRefused n s
  | .waking =>
    if k.wakes = 0 then sendBlock n 0xC9 [] (s.setSlot n (fun k => { k with wakes := 1 }))
    else (activate n 0 (deactivate n s)).setSlot n (fun k => { k with wakes := 2 })
  | _ => blockFailure n 2 s

/-- The character waiting time passes: a bad ATR, or a discarded block (R588, R591). -/
def cardCwt (n : Nat) (s : State) : State :=
  match (s.slot n).phase with
  | .atr => atrBad n s
  | .pps => ppsRefused n s
  | _ => blockFailure n 1 s

/-- Does the running command wait for the token's commit (R592)? -/
def tokenBusy (s : State) (n : Nat) : Bool :=
  match slotJob s n with
  | some j => (s.slot n).mode == 2 && (s.slot n).phase == .ready && j.begun && j.work.writes && j.sent && !j.done
  | none => false

/-- The token releases I/O: the write is committed (R592). -/
def busyEnd (n : Nat) (s : State) : State :=
  if tokenBusy s n then (setCardJob n (fun j => { j with done := true }) s).setSlot n (fun k => { k with commits := k.commits + 1 }) else s
/-- Busy beyond 50 ms: source 212, deactivation, TIMEOUT (R592). -/
def busyTimeout (n : Nat) (s : State) : State := if tokenBusy s n then blockDead n 212 3 s else s

/-! ### Insertion, removal, over-current, sleep, idle (R587, R593 to R597) -/

/-- DET_N low for 100 ms: activation where CARD_CTL.auto_act asks for it, or a command waits. -/
def detectStable (n : Nat) (s : State) : State :=
  let k := s.slot n
  if k.phase = .present ∧ (bitAt (s.reg (cardBase + 8) 0x3C320F) n = true ∨ k.jobs ≠ []) then activate n 0 s else s

/-- Over-current: deactivation, source 208; commands end as at a removal (R597). -/
def overcurrent (n : Nat) (s : State) : State :=
  if (s.slot n).active = false then s
  else
    let s := endCardJobs n (conflict 0) s
    (slotDone n 7 (deactivate n (s.setSlot n (fun k => { k with overCur := true, blocked := true, failures := satInc 16 k.failures })))).raiseAt 208 (.card n) 0 0

/-- The token's idle time passes: S(SLEEP request) (R594). -/
def sleepTimer (n : Nat) (s : State) : State :=
  let k := s.slot n
  if k.mode = 2 ∧ k.phase = .ready ∧ k.jobs = [] then (sendBlock n 0xC8 [] s) else s
/-- The idle time of a card without clock stop passes: deactivation (R593). -/
def idleDeact (n : Nat) (s : State) : State :=
  let k := s.slot n
  if k.mode = 1 ∧ k.phase = .ready ∧ k.jobs = [] ∧ k.stopInd = 0 then deactivate n s else s

/-! ### CARD_Ss_CMD (R605) -/

/-- Activate. -/
def cmdActivate (n cls : Nat) (s : State) : State :=
  let k := s.slot n
  if (k.phase == .present || k.phase == .unusable) then activate n cls s else s
/-- Deactivate: commands end as at a removal. DESIGN CHOICE -/
def cmdDeactivate (n : Nat) (s : State) : State :=
  if (s.slot n).active then slotDone n 0 (deactivate n (endCardJobs n (conflict 0) s)) else s
/-- Warm reset: the ATR is awaited again; commands end as at a removal. DESIGN CHOICE -/
def cmdWarmReset (n : Nat) (s : State) : State :=
  if (s.slot n).active then
    (atrTiming n (endCardJobs n (conflict 0) s)).setSlot n (fun k => { k with
      phase := .atr, mode := 0, atr := [], badAtr := false, noPps := false, ns := false, nr := false, retries := 0, busy := true, opDone := false })
  else s
/-- Stop the clock: between commands, in ISO mode where the ATR permits it (R593). -/
def cmdStopClock (n : Nat) (s : State) : State :=
  let k := s.slot n
  if k.phase = .ready ∧ k.jobs = [] ∧ (k.mode = 2 ∨ k.stopInd ≠ 0) then slotDone n 0 (s.setSlot n (fun k => { k with phase := .stopped })) else s
/-- Start the clock. -/
def cmdStartClock (n : Nat) (s : State) : State :=
  if (s.slot n).phase = .stopped then goCard n (slotDone n 0 (s.setSlot n (fun k => { k with phase := .ready }))) else s

/-- After a reset of the management plane or a wake every card still present is activated again under R587 (R596). -/
def cardsAgain (s : State) : State := (List.range 4).foldl (fun s n => detectStable n s) s

/-! ### Fences and resets (R596) -/

/-- A slot is fenced: its commands end UNIT_FENCED, the card is deactivated. -/
def slotFenced (n : Nat) (s : State) : State := deactivate n (endCardJobs n (unitFenced 7 n) s)

/-- A management-plane reset counts as a removal of every slot; what did not take effect is ABORTED_BY_RESET (R93, R595). -/
def cardsReset (s : State) : State :=
  (List.range 4).foldl (fun s n =>
    let k := s.slot n
    let s := s.setSlot n (fun k => { k with jobs := [] })
    let s := k.jobs.foldl (fun s j => removeJob n k.mode
      (answer 0x6002 [(12, match s.command j.key with | some c => c.entry.seq.toNat | none => 0)]) s j) s
    (deactivate n s).setSlot n (fun k => { k with overCur := false, opDone := false, result := 0 })) s
/-- STEEP and LAGER entry. -/
def cardsOff (s : State) : State := (List.range 4).foldl (fun s n => deactivate n s) s
/-- A reset of the custody planes that reported the commands already: cards stay active (R88), but for one left in the middle of an exchange. DESIGN CHOICE -/
def dropCardJobs (s : State) : State :=
  (List.range 4).foldl (fun s n =>
    let cut := (s.slot n).jobs.any (·.begun)
    let s := s.setSlot n (fun k => { k with jobs := [], busy := false })
    if cut then deactivate n s else s) s
/-- Drop a command of a key that has sent nothing yet. -/
def dropCardJob (key : Nat) (s : State) : State :=
  { s with cards := s.cards.map (fun (k : CardSlot) => { k with jobs := k.jobs.filter (fun j => j.key != key || j.begun) }) }

/-! ### Command bodies (R598 to R600) -/

/-- Queue a card command. -/
def pushCard (n : Nat) (key : Nat) (w : CardWork) (s : State) : State :=
  goCard n ((s.setSlot n (fun k => { k with jobs := k.jobs ++ [{ key := key, work := w, out := [], got := [], begun := false, sent := false, done := false }] })).waitOn key (.card n))

/-- Body of CARD_STATUS (R598). -/
def cardStatus (key : Nat) (src : Source) (e : Entry) (s : State) : State :=
  let n := e.param 8 1
  let len := e.param 0xC 4
  if 4 ≤ n then complete key (inputRange 8) s
  else
    let k := s.slot n
    let r := okay [(12, slotCode s n), (13, if k.active then k.cls else 0), (14, k.mode), (16, k.commits.toNat), (20, k.serial.toNat % 2 ^ 64)]
    if e.addr0 = 0 then complete key r s
    else if len < 50 then complete key (lengthError 50) s
    else completeOutput key src len e.addr0 (BitVec.ofNat 8 k.atr.length :: padTo 33 (k.atr.take 33) ++ leBytes 16 k.serial.toNat) r s

/-- Can a slot serve a command at all (R599, R600)? -/
def slotRefusal (s : State) (n : Nat) (token : Bool) : Option Result :=
  let k := s.slot n
  if 4 ≤ n then some (inputRange 8)
  else if s.isFenced 7 n then some (unitFenced 7 n)
  else match k.phase with
    | .empty | .unusable => some (conflict 0)
    | .present => if k.blocked then some (conflict 0) else none
    | .atr | .pps => none
    | _ => if (k.mode == 2) == token then none else some (conflict 0)

/-- Body of CARD_APDU (R599). Lengths outside their ranges. DESIGN CHOICE: LENGTH_ERROR with the bound -/
def cardApdu (key : Nat) (src : Source) (e : Entry) (s : State) : State :=
  let len := e.param 0xC 4
  let room := e.param 0x10 4
  match slotRefusal s (e.param 8 1) false with
  | some r => complete key r s
  | none =>
    if len < 4 then complete key (lengthError 4) s
    else if 65544 < len then complete key (lengthError 65544) s
    else if room < 2 then complete key (lengthError 2) s
    else if 65538 < room then complete key (lengthError 65538) s
    else match readInput s src len e.addr0 with
      | .error r => complete key r s
      | .ok b => pushCard (e.param 8 1) key (.apdu b room) s

/-- Has a CARD_APDU's own timeout expired: the milliseconds it names since its acceptance, 5,000 for 0 (R27, R599)? -/
def apduLate (s : State) (c : Inflight) : Bool :=
  let ms := c.entry.param 0x14 2
  c.op == 0x0A02 && (match c.wait with | .request | .card _ => true | _ => false)
    && decide ((if ms = 0 then 5000 else ms) * 32768 ≤ (s.clock.lfclk - c.began) * 1000)
/-- A late CARD_APDU completes TIMEOUT; a card it was talking to is deactivated (R599). DESIGN CHOICE for the card (log 149) -/
def apduExpire (s : State) (c : Inflight) : State :=
  match c.wait with
  | .card n =>
    let cut := (s.slot n).jobs.any (fun j => j.key == c.key && j.begun)
    let s := s.setSlot n (fun k => { k with jobs := k.jobs.filter (fun j => j.key != c.key) })
    goCard n (complete c.key (answer 0x7005 []) (if cut then deactivate n s else s))
  | _ => complete c.key (answer 0x7005 []) (dropRequest c.key s)
/-- Every CARD_APDU whose timeout has expired. -/
def apduTimeouts (s : State) : State := (s.cqe.inflight.filter (apduLate s)).foldl apduExpire s

/-- Body of TOKEN_OP (R600). -/
def tokenOp (key : Nat) (src : Source) (e : Entry) (s : State) : State :=
  let fn := e.param 9 1
  let target := e.param 0xA 2
  let len := e.param 0xC 4
  match slotRefusal s (e.param 8 1) true with
  | some r => complete key r s
  | none =>
    if fn = 0 ∨ 6 < fn then complete key (invalidField 9) s
    else if fn = 4 ∧ (len = 0 ∨ 16 < len ∨ 16 < target + len) then complete key (inputRange (if len = 0 ∨ 16 < len then 0xC else 0xA)) s
    else if fn = 5 ∧ bitAt (s.reg (tagifBase + 0xFC) 0) 0 = true then complete key (conflict 0) s
    else match (if fn = 3 then readInput s src len e.addr0 else .ok []) with
      | .error r => complete key r s
      | .ok b => pushCard (e.param 8 1) key (.token fn target len b) s

end Sys2Proof.Machine
end

