-- ==== Sys2Proof/Machine/Spdm.lean ====
section
/-! DEFINITION. The SPDM 1.2 responder behind a port's DOE mailbox, and IDE_KM inside its session (05_host_and_management_ports.md, R167, R168). The choices R167 makes are its table's; message layouts and codes are those of SPDM 1.2 and of PCIe Base 5.0's IDE_KM (PRESUMED; log 135). -/

namespace Sys2Proof.Machine

/-- An SPDM 1.2 message: version, code, two parameters, body. -/
def spdmMessage (code p1 p2 : Byte) (body : List Byte) : List Byte := [0x12, code, p1, p2] ++ body
/-- The ERROR response to an unexpected request, code 0x04. -/
def spdmError : List Byte := spdmMessage 0x7F 0x04 0x00 []
/-- The ERROR response to an invalid request, code 0x01. -/
def spdmInvalid : List Byte := spdmMessage 0x7F 0x01 0x00 []

/-- VERSION: one version, 1.2. -/
def spdmVersion : List Byte := [0x10, 0x04, 0x00, 0x00, 0x00, 0x01, 0x00, 0x12]
/-- CAPABILITIES: certificates, CHALLENGE, measurements with signatures, encryption and MAC, key exchange, HEARTBEAT, KEY_UPDATE; timing and sizes are not the spec's. -/
def spdmCapabilities (fill : List Byte) : List Byte :=
  spdmMessage 0x61 0x00 0x00 ([0x00] ++ slice fill 0 1 ++ [0x00, 0x00] ++ leBytes 4 0x000062D6 ++ slice fill 1 8)
/-- ALGORITHMS: measurement digests SHA3-256 (R344), ECDSA P-384, SHA-384; then ECDHE on secp384r1, AES-256-GCM, the SPDM key schedule. -/
def spdmAlgorithms : List Byte :=
  spdmMessage 0x63 0x03 0x00 (leBytes 2 48 ++ [0x01, 0x00] ++ leBytes 4 0x10 ++ leBytes 4 0x80 ++ leBytes 4 0x02 ++ leBytes 16 0
    ++ [0x02, 0x20] ++ leBytes 2 0x10 ++ [0x03, 0x20] ++ leBytes 2 0x02 ++ [0x05, 0x20] ++ leBytes 2 0x01)
/-- DIGESTS: slot 0 alone. -/
def spdmDigests : List Byte := spdmMessage 0x01 0x00 0x01 (Config.sha384 certificateChain)
/-- CERTIFICATE: a part of the chain of slot 0; the other slots are empty. -/
def certificatePart (slot off len : Nat) : List Byte :=
  if slot ≠ 0 then spdmInvalid
  else
    let n := min len (18272 - off)
    spdmMessage 0x02 0x00 0x00 (leBytes 2 n ++ leBytes 2 (18272 - off - n) ++ slice certificateChain off n)

/-- A measurement block: index, DMTF, the kind of value and the value. -/
def measurementBlock (index kind : Byte) (v : List Byte) : List Byte :=
  [index, 0x01] ++ leBytes 2 (3 + v.length) ++ [kind] ++ leBytes 2 v.length ++ v
/-- The four measurements: boot ROM, running kernel image, policy firmware, lifecycle state. -/
def measurementBlocks (s : State) : List (List Byte) :=
  [measurementBlock 1 0x00 (leBytes 32 romDigest.toNat), measurementBlock 2 0x01 (leBytes 32 (imageMeasurement s).toNat),
   measurementBlock 3 0x01 (leBytes 32 Config.policyDigest.toNat), measurementBlock 4 0x85 [BitVec.ofNat 8 (Lifecycle.code s.lifecycle)]]
/-- MEASUREMENTS: parameter 2 of the request asks for their number (0), for all (0xFF) or for one; parameter 1 bit 0 asks for a signature. -/
def spdmMeasurements (req fill : List Byte) (s : State) : List Byte :=
  let what := fieldOf req 3 1
  let blocks := if what = 0xFF then measurementBlocks s else if what = 0 then [] else ((measurementBlocks s).drop (what - 1)).take 1
  if what ≠ 0 ∧ blocks = [] then spdmInvalid
  else
    let sig := if fieldOf req 2 1 % 2 = 1 then slice fill 32 96 else []
    spdmMessage 0x60 (if what = 0 then 0x04 else 0x00) 0x00
      (leBytes 1 blocks.length ++ leBytes 3 blocks.flatten.length ++ blocks.flatten ++ slice fill 0 32 ++ [0x00, 0x00] ++ sig)

/-- IDE_KM QUERY_RESP: the port's IDE registers. -/
def ideQueryResponse (h : HostPort) (secure : Nat → Bool) (fill : List Byte) : List Byte :=
  [0x00, 0x01, 0x00, 0x00, 0x00] ++ slice fill 0 1 ++ [0x00, 0x00]
    ++ [0x2A4, 0x2A8, 0x2AC, 0x2B0, 0x2B4, 0x2B8, 0x2BC].flatMap (fun o => leBytes 4 (h.cfgWord o ||| cfgExtended o secure).toNat)
/-- The byte that names key set, direction and sub-stream in IDE_KM. -/
def ideSubByte (keySet : Bool) (sub : Nat) (tx : Bool) : Byte := BitVec.ofNat 8 (16 * sub + (if tx then 2 else 0) + (if keySet then 1 else 0))
/-- IDE_KM KP_ACK: status 0, or 3 for a value not supported. -/
def ideKeyAck (id status : Nat) (keySet : Bool) (sub : Nat) (tx : Bool) : List Byte :=
  [0x00, 0x03, 0x00, 0x00, BitVec.ofNat 8 id, BitVec.ofNat 8 status, ideSubByte keySet sub tx, 0x00]
/-- IDE_KM K_GOSTOP_ACK. -/
def ideGoStopAck (id : Nat) (keySet : Bool) (sub : Nat) (tx : Bool) : List Byte :=
  [0x00, 0x06, 0x00, 0x00, BitVec.ofNat 8 id, 0x00, ideSubByte keySet sub tx, 0x00]

/-- The answer to a request that the stage of the connection allows. Key exchange, FINISH and CHALLENGE are bytes of SPDM 1.2 and the session. -/
def spdmAnswer (code : Nat) (req : List Byte) (h : HostPort) (secure : Nat → Bool) (s : State) : List Byte :=
  let fill := Config.spdmResponse code (h.transcript ++ req)
  match code with
  | 0xE1 => spdmCapabilities fill
  | 0xE3 => spdmAlgorithms
  | 0x81 => spdmDigests
  | 0xE0 => spdmMeasurements req fill s
  | 0xE8 => spdmMessage 0x68 0x00 0x00 []
  | 0xE9 => [0x12, 0x69] ++ slice fill 0 2
  | 0xEC => spdmMessage 0x6C 0x00 0x00 []
  | 0x100 => ideQueryResponse h secure fill
  | _ => fill

end Sys2Proof.Machine
end

