-- ==== Sys2Proof/Machine/Ports.lean ====
section
/-! DEFINITION. Host ports: bring-up, events handled as a function-level reset, link, IDE, SPDM session; the management port (05_host_and_management_ports.md; 04_yomir_command_protocol.md, R104 to R111). -/

namespace Sys2Proof.Machine

/-- HOSTP base address of a port. -/
def hostpBase (p : Nat) : Nat := 0x400D0000 + 0x10000 * p
/-- CQE base address. -/
def cqeBase : Nat := 0x400C0000
/-- Key under which the latched bits of a port's BAR0 registers are stored. -/
def barBase (p : Nat) : Nat := 0x100000000 + 0x100000 * p

/-- CQE_CTL.enable. -/
def cqeEnabled (s : State) : Bool := bitAt (s.reg (cqeBase + 8) 0) 0
/-- PORT_STATUS.ready: the start-up sequence has ended and the CQE is enabled (R156). -/
def portReady (s : State) : Bool := s.power.booted && cqeEnabled s && (s.power.safe || s.pair.role != .electing)
/-- HOSTP_CTL.ide_required (R169, R171). -/
def ideRequired (s : State) (p : Nat) : Bool := bitAt (s.reg (hostpBase p + 8) 2) 0
/-- Is an IDE stream Secure: enabled in the configuration space, all three sub-streams active in both directions (R168)? -/
def streamSecure (h : HostPort) (k : Nat) : Bool :=
  bitAt (h.ideControl k) 0 && [0, 1, 2].all (fun sub => [true, false].all (fun tx => h.ide.any (fun e => e.stream == k && e.sub == sub && e.tx == tx && e.active)))
/-- PORT_STATUS.ide_secure. -/
def ideSecure (h : HostPort) : Bool := streamSecure h 0 || streamSecure h 1
/-- Is the port's link below 32 GT/s by eight lanes (R153)? -/
def linkDegraded (h : HostPort) : Bool := h.linkUp && (decide (h.speed < 5) || decide (h.width < 8))

/-! ### Queues (R104 to R109) -/

/-- Put a queue in its place by rising qid. -/
def insertQueue (q : Queue) : List Queue → List Queue
  | [] => [q]
  | x :: t => if q.qid < x.qid then q :: x :: t else x :: insertQueue q t

/-- A queue as it is created. -/
def freshQueue (qid : Nat) (sq cq : DWord) (sqn cqn vector prio : Nat) (events intr : Bool) (first : Word) : Queue where
  qid := qid
  sqBase := sq
  cqBase := cq
  sqEntries := sqn
  cqEntries := cqn
  vector := vector
  priority := prio
  events := events
  intr := intr
  firstSeq := first
  expSeq := first
  sqHead := 0
  sqTail := 0
  cqTail := 0
  cqHead := 0
  unreleased := 0
  phase := true
  deleting := false
  since := 0
  keyless := false

/-- A boundary with no vouched entry takes the seq before the first of the queue as it is created again (R139). DESIGN CHOICE (log 120) -/
def boundarySeq (q : Queue) (h : Held) : Held :=
  if h.src = .queue q.qid ∧ h.comp.status = 0x8002 ∧ h.comp.tag = 0xFFFF then
    { h with seq := q.firstSeq - 1, comp := { h.comp with result := (h.comp.result >>> 32 <<< 32) ||| (q.firstSeq - 1).setWidth 128 } }
  else h

/-- Create a queue pair: what was held for it can be posted; an events queue takes the port's held events (R107, R132, R133). -/
def openQueue (q : Queue) (s : State) : State :=
  let q := { q with since := s.journal.next, keyless := s.vault.keyless }
  let s := { s with cqe := { s.cqe with queues := insertQueue q s.cqe.queues, held := s.cqe.held.map (boundarySeq q) } }
  if q.events then
    let p := q.qid / 64
    let evs := if p = 0 then s.cqe.events0 else s.cqe.events1
    let s := { s with cqe := { s.cqe with held := s.cqe.held ++ evs.map (heldEvent p q.qid) } }
    if p = 0 then { s with cqe := { s.cqe with events0 := [] } } else { s with cqe := { s.cqe with events1 := [] } }
  else s

/-- Remove a queue pair. -/
def closeQueue (qid : Nat) (s : State) : State := { s with cqe := { s.cqe with queues := s.cqe.queues.filter (fun x => x.qid != qid) } }

/-! ### Events handled as an FLR (R88, R89, R160, R161, R612) -/

/-- Drop aborted commands from the lanes' queues. -/
def dropLaneKeys (keys : List Nat) (s : State) : State :=
  { s with lanes := { s.lanes with lanes := s.lanes.lanes.map (fun (l : Lane) => { l with queue := l.queue.filter (fun k => !keys.contains k) }) } }

/-- Abort the commands of a selection with a status: reports, jobs, lane entries, reserved grants (R89, R305, R339). -/
def abandon (status : BitVec 16) (sel : Inflight → Bool) (s : State) : State :=
  let keys := (s.cqe.inflight.filter sel).map (·.key)
  let s := abortCommands status sel s
  let s := keys.foldl (fun s k => settleGrant k false s) s
  let s := dropLaneKeys keys s
  let s := stopJobs (fun j => match j.key with | some k => keys.contains k | none => false) 0 s
  let s := keys.foldl (fun s k => dropCardJob k (dropWired k (dropLabelJob k s))) s
  match s.power.entering with
  | some (_, k) => if keys.contains k then { s with power := { s.power with entering := none } } else s
  | none => s

/-- BAR0 at its reset values, the link and what it reports as they are (R612). -/
def barReset (h : HostPort) : HostPort :=
  { h with enabled := false, cfgError := false, admSq := 0, admCq := 0, admSize := 0, msix := HostPort.reset.msix }

/-- SYSCTL_RST_CAUSE bits set. -/
def rstCause (bits : Word) (s : State) : State := { s with power := { s.power with rstCause := s.power.rstCause ||| bits } }

/-- An event handled as an FLR of port `p` (R88, R160). -/
def flrPort (p : Nat) (s : State) : State :=
  let s := abandon 0x6002 (fun c => c.src.port == some p) s
  let s := endStreams 0x6002 (fun x => x.queue / 64 == p) s
  let s := resetHeld (fun src => src.port == some p) s
  let s := { s with
    cqe := { s.cqe with queues := s.cqe.queues.filter (fun q => q.qid / 64 != p) }
    regs := s.regs.filter (fun r => r.1 != barBase p + 4) }
  rstCause (bit32 (5 + p) true) (s.setPort p (barReset (s.port p)))

/-- A port whose data link goes down: no IDE stream, its configuration space as after a hot reset. The SPDM session, whose keys ran over the link, ends with it. DESIGN CHOICE (log 131) -/
def linkGone (p : Nat) (s : State) : State :=
  s.setPort p { cfgAfterHot (s.port p) with linkUp := false, speed := 0, width := 0, lstate := .l0, ide := [], spdm := .none, transcript := [] }

/-- Surprise down: its source, then as an FLR (R160, R164). -/
def surpriseDown (p : Nat) (s : State) : State :=
  if (s.port p).linkUp = false then s else (flrPort p (linkGone p s)).raiseAt (176 + p) (.port p) 0 0

/-- FLR, hot reset or PERST_N (R160, R612): the function is in D0 uninitialised; the last two also take the link down, and PERST_N resets the whole configuration space. -/
def hostFlr (p : Nat) (c : FlrCause) (s : State) : State :=
  let s := s.setPort p { s.port p with d3hot := false }
  match c with
  | .flr => let s := flrPort p s; s.setPort p (cfgAfterFlr (s.port p))
  | .hotReset => flrPort p (linkGone p s)
  | .perst => let s := flrPort p (linkGone p s); s.setPort p { s.port p with cfg := [] }

/-- Bus Master Enable cleared: as an FLR while the port is enabled (R160). -/
def busMasterOff (p : Nat) (s : State) : State :=
  let h := s.port p
  let s := s.setPort p (h.setCfg 0x04 (h.cfgWord 0x04 &&& ~~~ 4))
  if h.enabled then flrPort p s else s
/-- Entry to D3hot (R160). -/
def enterD3 (p : Nat) (s : State) : State := flrPort p (s.setPort p { s.port p with d3hot := true })
/-- Return from D3hot to D0, uninitialised: the configuration space as after a function-level reset (R161). -/
def leaveD3 (p : Nat) (s : State) : State := s.setPort p { cfgAfterFlr (barReset (s.port p)) with d3hot := false }

/-- An IDE check failure on a stream: it leaves the Secure state and is counted, by PCIe alone while IDE is optional; else its source and an FLR follow (R160, R169). -/
def ideFail (p k : Nat) (s : State) : State :=
  let h := (s.port p).aerError 0x10000000
  let s := s.setPort p { h with ide := h.ide.map (fun (e : IdeKey) => if e.stream = k then { e with active := false } else e) }
  if ideRequired s p then (flrPort p s).raiseAt 179 (.port p) 0 0 else s

/-- A link finishes training, at most at HOSTP_CTL.max_speed; below full rate it is recorded (R153, R164, R171). A fenced port's link is held down; before the start-up releases the pins there is none (R46), nor without the port's clock (R83). -/
def linkUp (p speed width : Nat) (s : State) : State :=
  if s.isFenced 3 p ∨ (s.port p).linkUp = true ∨ s.power.supply ≠ .running ∨ s.power.mode ≠ .run ∨ portClock s p = false then s
  else
    let top := 5 - fieldAt (s.reg (hostpBase p + 8) 2) 3 2
    let sp := max 1 (min speed top)
    let s := s.setPort p { s.port p with linkUp := true, speed := sp, width := min width 8, lstate := .l0 }
    if linkDegraded (s.port p) then s.raiseAt 184 (.port p) 0 0 else s

/-- Does a port have nothing to carry: no completion held, no command and no stream of its own (R165)? -/
def portIdle (s : State) (p : Nat) : Bool :=
  !(s.cqe.inflight.any (fun c => c.src.port == some p)) && !(s.cqe.held.any (fun h => h.src.port == some p && postable s h))

/-- The port initiates ASPM L1, or the substate the host has enabled: while enabled in Link Control and HOSTP_CTL, and idle (R165). -/
def enterL1 (p : Nat) (sub : Bool) (s : State) : State :=
  let h := s.port p
  if h.linkUp = true ∧ h.aspmL1 = true ∧ bitAt (s.reg (hostpBase p + 8) 2) 1 = true ∧ portIdle s p = true then
    s.setPort p { h with lstate := if sub = true ∧ h.substates.1 = true then .l12 else if sub = true ∧ h.substates.2 = true then .l11 else .l1 }
  else s
/-- The latency that a port's LTR message last named, in microseconds: none while the host has not enabled LTR (R165). -/
def ltrLatency (s : State) (p : Nat) : Option Nat :=
  if (s.port p).ltrEnable = false then none
  else if s.power.mode = .steep then some 3000
  else if s.lanes.streams.any (fun x => x.queue / 64 == p && x.state == .run) then some 10
  else some 1000

/-- A write of PORT_CTL: 1 brings up the admin queue or is refused, 0 is an FLR (R105, R157, R158). -/
def portControl (p : Nat) (v : Word) (s : State) : State :=
  let s := if fieldAt v 31 1 ≠ 0 then setStatusBits (barBase p) 1 s else s
  let h := s.port p
  if bitAt v 0 = false then flrPort p s
  else if h.enabled then s
  else
    let cq := fieldAt h.admSize 27 16
    let sq := fieldAt h.admSize 11 0
    if portReady s = false ∨ cq = 0 ∨ sq = 0 ∨ h.admSq.toNat % 4096 ≠ 0 ∨ h.admCq.toNat % 4096 ≠ 0 then s.setPort p { h with cfgError := true }
    else openQueue (freshQueue (64 * p) h.admSq h.admCq (sq + 1) (cq + 1) 0 0 false true 0) (s.setPort p { h with enabled := true })

/-! ### SPDM sessions and IDE keys (R167, R168) -/

/-- A response the module returns through the DOE mailbox; the transcript grows by request and response. -/
def doeRespond (p : Nat) (req resp : List Byte) (st : Spdm) (s : State) : State :=
  s.setPort p { s.port p with spdm := st, transcript := (s.port p).transcript ++ req ++ resp, response := resp }

/-- A request answered only in a given set of stages. -/
def spdmStep (p code : Nat) (req : List Byte) (ok : Spdm → Bool) (next : Spdm → Spdm) (s : State) : State :=
  let h := s.port p
  if ok h.spdm then doeRespond p req (spdmAnswer code req h (streamSecure h) s) (next h.spdm) s
  else s.setPort p { h with response := spdmError }

/-- Has the connection been negotiated? -/
def spdmReady (x : Spdm) : Bool := x == .negotiated || x == .exchanged || x == .secured

/-- Both streams of a port stop (R168). -/
def ideStop (p : Nat) (s : State) : State := s.setPort p { s.port p with ide := [] }

/-- KEY_PROG: outside a session both streams stop; inside, the key is stored, not yet active, and acknowledged (R168). -/
def keyProg (p : Nat) (inSession : Bool) (k : IdeKey) (s : State) : State :=
  let h := s.port p
  if inSession = false ∨ h.spdm ≠ .secured then (ideStop p s).setPort p { (ideStop p s).port p with response := spdmError }
  else if 2 ≤ k.stream ∨ 3 ≤ k.sub then s.setPort p { h with response := ideKeyAck (h.streamId k.stream) 3 k.keySet k.sub k.tx }
  else s.setPort p { h with response := ideKeyAck (h.streamId k.stream) 0 k.keySet k.sub k.tx, ide := h.ide.filter (fun e => !(e.stream == k.stream && e.keySet == k.keySet && e.sub == k.sub && e.tx == k.tx)) ++ [{ k with active := false }] }

/-- K_SET_GO: the named key becomes active in place of the other key set, and is acknowledged; inside the session only. -/
def keyGo (p stream : Nat) (ks : Bool) (sub : Nat) (tx : Bool) (s : State) : State :=
  let h := s.port p
  let mine (e : IdeKey) : Bool := e.stream == stream && e.sub == sub && e.tx == tx
  let h' := { h with response := ideGoStopAck (h.streamId stream) ks sub tx }
  if h.spdm ≠ .secured then s.setPort p { h with response := spdmError }
  else if h.ide.any (fun e => mine e && e.keySet == ks) then
    s.setPort p { h' with ide := h.ide.map (fun (e : IdeKey) => if mine e then { e with active := e.keySet == ks } else e) }
  else s.setPort p h'

/-- K_SET_STOP: the named key stops being active, and is acknowledged. -/
def keyStop (p stream : Nat) (ks : Bool) (sub : Nat) (tx : Bool) (s : State) : State :=
  let h := s.port p
  if h.spdm = .secured then
    s.setPort p { h with response := ideGoStopAck (h.streamId stream) ks sub tx, ide := h.ide.map (fun (e : IdeKey) =>
      if e.stream = stream ∧ e.sub = sub ∧ e.tx = tx ∧ e.keySet = ks then { e with active := false } else e) }
  else s.setPort p { h with response := spdmError }

/-! ### Management port (R144, R145, R172 to R177) -/

/-- MGMTP base address. -/
def mgmtpBase : Nat := 0x40150000
/-- Does the port answer its address: enabled, powered, its clock running (R83, R175, R177)? -/
def mgmtUp (s : State) : Bool :=
  bitAt (s.reg (mgmtpBase + 8) 0) 0 && s.power.mode != .lager && s.power.supply == .running && !bitAt (s.power.pllLost.setWidth 32) 6
/-- MGMTP_CTL.i2c_only. -/
def i2cOnly (s : State) : Bool := bitAt (s.reg (mgmtpBase + 8) 0) 1
/-- Static address 0x48 + BAY_ID[2:0] (R172). -/
def staticAddr (s : State) : BitVec 7 := 0x48 + (s.power.bayId.setWidth 7 &&& 7)
/-- Management-port commands not completed, those that the CQE has not yet taken among them. -/
def mgmtPending (s : State) : Nat := (s.cqe.inflight.filter (fun c => c.src == .mgmt)).length + s.mgmtp.frames.length
/-- Change the management port. -/
def State.setMgmt (s : State) (f : MgmtPort → MgmtPort) : State := { s with mgmtp := f s.mgmtp }

/-- A dropped frame: its counter and source 186 (R145, R174). -/
def frameError (crc : Bool) (s : State) : State :=
  (s.setMgmt (fun m => if crc then { m with crcFails := satInc 16 m.crcFails } else { m with lenFails := satInc 16 m.lenFails })).raise 186

/-- A private read: the oldest waiting response as a 36-byte frame, or the empty 4-byte frame; in I²C bytes past it read zero, in I3C the module ends the read after it (R144, R173). A read that the master ends earlier takes the response too. DESIGN CHOICE (log 130) -/
def frameRead (len : Nat) (s : State) : State :=
  if mgmtUp s = false then s
  else
    let frame (b : List Byte) : List Byte := let p := leBytes 2 b.length ++ b; p ++ leBytes 2 (crc16 p).toNat
    let cut (b : List Byte) : List Byte := (if s.mgmtp.dynAddr.isSome then b else padTo len b).take len
    match s.mgmtp.responses with
    | [] => s.setMgmt (fun m => { m with readBytes := cut (frame []) })
    | r :: t => s.setMgmt (fun m => { m with responses := t, readBytes := cut (frame r) })

/-- The port interface resets: a frame in progress is dropped (R172, R174); the dynamic address and the IBI enable go, the waiting responses stay. DESIGN CHOICE (log 129) -/
def mgmtInterfaceReset (s : State) : State := s.setMgmt (fun m => { m with dynAddr := none, ibi := false })

/-- A CCC that reads bytes. -/
def cccRead (bs : List Byte) (s : State) : State := if mgmtUp s then s.setMgmt (fun m => { m with readBytes := bs }) else s
/-- The provisional ID, most significant byte first (R172). -/
def provisionalId : List Byte :=
  beBytes 6 (Config.manufacturerId.toNat * 2 ^ 33 + 0x8017 * 2 ^ 16 + Config.serial.toNat % 65536)

end Sys2Proof.Machine
end

