-- ==== Sys2Proof/Machine/Reset.lean ====
section
/-! DEFINITION. Supply, power states, resets, kiln stages and the start-up sequence (02_module_contacts_supply.md, R46 to R60; 03_power_clocks_reset.md; 09_vault_kiln_lifecycle.md, R310 to R316). -/

namespace Sys2Proof.Machine

/-! ### What a reset clears (R88) -/

/-- Is a register in a management-plane block or in SYSCTL: SYSCTL, READER, TAGIF, CARD, MGMTP? -/
def mgmtRegister (a : Nat) : Bool :=
  decide (0x40000000 ≤ a ∧ a < 0x40010000) || decide (0x40120000 ≤ a ∧ a < 0x40160000)
/-- Is a register a block's LOCK? -/
def lockRegister (a : Nat) : Bool := a % 0x10000 == 0xFC

/-- What a warm reset keeps of a register: the management plane's and SYSCTL's, the mismatch counts, the management core's own interrupt and MPU registers, without any lock (R11, R88, R402, R411). -/
def warmKept (r : Nat × Word) : Option (Nat × Word) :=
  if 9 * 2 ^ 40 ≤ r.1 ∧ lockRegister r.1 = true then none
  else if 9 * 2 ^ 40 ≤ r.1 then some (r.1, if 0x400 ≤ r.1 % 0x10000 ∧ r.1 % 32 = 8 then r.2 &&& 0xBFFFFFFF else r.2)
  else if r.1 = 0x40160010 then some r
  else if mgmtRegister r.1 = true ∧ lockRegister r.1 = false then some r
  else none

/-- The custody cores reset; CC-B waits for its release. -/
def resetCores (s : State) : State := { s with cores := { s.cores with ccA := Core.reset .ccA, ccB := Core.reset .ccB } }

/-- Clear the memory of a space. -/
def wipeSpace (space : Nat) (s : State) : State := s.clearMem space 0 (2 ^ 64)

/-- The collector at a warm or stronger reset: pending state and timers go, fences end, the log stays (R501, R511). -/
def faultReset (f : FaultBlk) : FaultBlk := { f with unacked := [], fenced := [], mateAfterCastling := false }

/-- Everything a warm reset clears of the custody planes (R88, R89, R100). Reports are made before. -/
def clearCustody (s : State) : State :=
  let s := wipeSpace 0 (resetCores (flashReset false (flashInterrupt (dramcReset (rngRestart s)))))
  { s with
    lines := 0
    fault := faultReset s.fault
    tamper := { s.tamper with bist := none }
    cqe := { s.cqe with queues := [], inflight := [], ringSeq := [0, 0, 0, 0], crcFails := 0, seqFails := 0, mirrorMax := 0, lateAcks := [], internalOut := [] }
    port0 := barReset s.port0
    port1 := barReset s.port1
    pair := { Pair.reset with prsntHigh := s.pair.prsntHigh, out := s.pair.out, epoch := s.pair.epoch, crcErr := s.pair.crcErr }
    journal := { s.journal with reserved := 0 }
    ktab := { s.ktab.emptyCache with busy := false, done := false, hit := false, result := 0, respKh := 0, draw := 0, overrun := false, hits := 0, misses := 0, fillMax := 0 }
    lanes := { clearLanes s.lanes with ended := [] }
    vault := { s.vault with run := none, sessions := [], engDone := false }
    pke := { Pke.reset with jobCnt := s.pke.jobCnt, checkFail := s.pke.checkFail }
    regs := s.regs.filterMap warmKept
    power := { s.power with booted := false, withdrawing := false, drainDone := false, entering := none, shelfDriven := false, leverDue := s.power.leverOpen } }

/-- A reset of the custody planes leaves the management plane at work: its tag operation goes on, for no command (R88). -/
def tagDetach (s : State) : State :=
  s.setTag (fun t => { t with wired := t.wired.map (fun w => { w with key := none }), wiredQ := t.wiredQ.map (fun w => { w with key := none }) })

/-- A warm reset; `cause` is its SYSCTL_RST_CAUSE bit, `safe` whether the boot must enter SAFE (R85, R88, R96). -/
def warmReset (cause : Nat) (safe : Bool) (s : State) : State :=
  let s := abandon 0x6002 (fun _ => true) s
  let s := endStreams 0x6002 (fun _ => true) s
  let s := resetHeld (fun _ => true) s
  let s := clearCustody (dropCardJobs (tagDetach (dropLabelJobs s)))
  rstCause (bit32 cause true) { s with power := { s.power with safe := false, safeNext := safe, mode := .run } }

/-- The resynchronisation event: the present state of every port, card, front end, the tag and the supply (R91). -/
def postResync (s : State) : State :=
  let e : Resync := ⟨s.reader.ports.map (·.occ), s.cards.map (·.det), s.reader.fes.map (·.jobs.length), s.tag.field, s.power.vin, s.power.vcell⟩
  ({ s with reader := { s.reader with resync := some e } } : State).line 2

/-- What a reset of the management plane clears: every command that awaits it ends ABORTED_BY_RESET or indeterminate, cards deactivate, one resynchronisation event follows (R88, R91, R93, R145). -/
def clearMgmt (s : State) : State :=
  let waiting := (s.cqe.inflight.filter (fun c => c.wait == .request)).map (fun c => (c.key, c.entry.seq))
  let s := waiting.foldl (fun s c => complete c.1 (answer 0x6002 [(12, c.2.toNat)]) s) s
  let s := cardsReset (tagReset (readerReset s))
  let s := { s with
    mgmtp := { MgmtPort.reset with responses := [], ibis := [] }
    cqe := { s.cqe with mgmtSeq := 0 }
    mlines := 0
    reader := { s.reader with events := [], filled := false, requests := [], requestsFilled := false }
    cores := { s.cores with mgt := Core.reset .mgt } }
  postResync (wipeSpace 3 s)

/-- What a reset of the management plane does to flash: programs and updates complete, erases are abandoned; a staging that lost its erase ends with DEVICE_FAULT (R466, R609). -/
def mgmtFlash (s : State) : State :=
  let cut := s.cqe.inflight.find? (fun c => c.wait == .flash && c.past)
  let s := flashInterrupt s
  match cut with
  | some c => complete c.key (answer 0x6001 []) (flashLock s)
  | none => s
/-- A management-plane reset, with its cause (R85, R103); then the cards still present are activated again (R596). -/
def mgmtReset (s : State) : State :=
  let s := rstCause (bit32 4 true) (clearMgmt (mgmtFlash s))
  if s.power.supply = .running ∧ s.power.mode = .run then cardsAgain s else s

/-- What a loss of the switched supplies leaves: flash, backup domain, always-on domain, host memory, and the completions to be reported after the next start. -/
def dropVolatile (s : State) : State :=
  let s := wipeSpace 3 (wipeSpace 2 (wipeSpace 0 s))
  { s with
    cores := ⟨Core.reset .ccA, Core.reset .ccB, Core.reset .mgt⟩
    lines := 0
    mlines := 0
    cqe := { Cqe.reset with held := s.cqe.held, nextKey := s.cqe.nextKey }
    port0 := HostPort.reset
    port1 := HostPort.reset
    mgmtp := MgmtPort.reset
    pair := { Pair.reset with prsntHigh := s.pair.prsntHigh }
    ktab := Ktab.reset
    lanes := Lanes.reset
    vault := { s.vault with slots := List.replicate 32 none, run := none, engDone := false, engRes := 0, sessions := [] }
    pke := Pke.reset
    rng := { Rng.reset with lfCause := s.rng.lfCause, lfCell := s.rng.lfCell, lfStep := s.rng.lfStep }
    dramc := Dramc.reset
    reader := Reader.reset
    tag := tagUnpowered s.tag
    cards := s.cards.map (fun (k : CardSlot) => { CardSlot.reset with det := k.det })
    power := { s.power with booted := false, withdrawing := false, drainDone := false, entering := none, shelfDriven := false, safe := false } }

/-! ### Power loss (R53 to R55, R138, R272, R273) -/

/-- The power-fail checkpoint: the slots at the write point of that moment, where the area can be programmed; then as many further records as the energy allows, a free number (R272, R273). -/
def powerFailCheckpoint (s : State) : State :=
  let area : PfArea := ⟨s.nvm.powerOns % 64, queueSlots s s.journal.flushed⟩
  let more := s.fresh.toNat % (s.journal.next - s.journal.flushed + 1)
  let pf := if pfWritable s then some area else none
  let s := s.drew
  { s with journal := flushRun more { s.journal with pf := pf } }

/-- A power loss: the loss is remembered as one in pair mode where it was (R207; log 132); the journal is what the tail holds, every queue gets its re-posts and its boundary, the rest is lost (R138, R142, R143). `declared`: with a power-fail declaration. -/
def powerLoss (declared : Bool) (s : State) : State :=
  let steep := s.power.mode == .steep
  let kind := s.journal.qckptKind
  let paired := s.pairMode || !s.journals
  let s := if declared && s.power.classHigh && !steep && s.power.booted then powerFailCheckpoint s else s
  let slots := match s.journal.pf with | some a => a.slots | none => s.journal.qckptSlots
  let from_ := if s.journal.pf.isSome then 1 else if kind = 1 then 2 else 0
  let s := if declared then flashInterrupt s else flashPowerLoss s
  let s := { s with journal := { recoverJournal s with lossPaired := paired }, cqe := { s.cqe with held := [], inflight := [] } }
  let s := if s.journal.next = 0 then s else boundaries slots 1 from_ s.clock.time (repostAll s)
  let s := flashReset true (dropVolatile s)
  { s with
    fault := { FaultBlk.reset with inputs := [] }
    tamper := { s.tamper with armed := 0, bist := none, bistDone := false, bistRes := 0, bistTime := 0, meshNet := 0, meshPct := 0 }
    kiln := { s.kiln with latch := false, stage := .idle }
    regs := []
    power := { s.power with mode := .run, prev := .run, wakeLog := [], wakeCause := 0, rstCause := 0, shelfCtl := 0
                            holdupOk := false, safeNext := false, leverDue := false, pllLock := 0, pllLost := 0, timerFired := false } }

/-- The backup domain runs from VIN: VCELL's monitor sees a good supply, and VCELL below the warning threshold is recorded (R58). -/
def backupOnVin (s : State) : State :=
  let s := { s with tamper := { s.tamper with raw := s.tamper.raw &&& ~~~ 0x8000 } }
  if s.power.vcell < 2700 then s.raise 8 else s

/-- A power-on reset: the supply is back, the hold-up bank is measured, the straps are read (R56, R63, R85, R88, R103). Mode CELL is the stay on the backup cell that cell_exit records (R67). -/
def powerOnReset (mv uf : Nat) (s : State) : State :=
  let cell := s.power.mode == .cell
  let s := { s with power := { s.power with
    supply := .starting, mode := .run, vin := mv, holdupUf := uf, classFixed := false, classHigh := false, holdupOk := false
    rstCause := bit32 0 true ||| bit32 8 cell, pref := s.power.pinPref, bayId := s.power.pinBay } }
  backupOnVin (if uf < 200 then s.raise 9 else s)

/-- VIN rises, with the levels that the bay puts on the straps (R46, R56, R63, R85): from dark a power-on reset; elsewhere the voltage alone, a change of which the management plane posts as a supply event (R26). -/
def vinRise (mv uf : Nat) (pref : Bool) (bay : BitVec 6) (s : State) : State :=
  let s := { s with power := { s.power with pinPref := pref, pinBay := bay } }
  match s.power.supply with
  | .dark => if mv < 8600 then { s with power := { s.power with vin := mv } } else powerOnReset mv uf s
  | .starting => { s with power := { s.power with vin := mv, holdupUf := if s.power.classFixed then s.power.holdupUf else uf } }
  | .running => ringNote .supply 0 { s with power := { s.power with vin := mv } }
  | .failHold => { s with power := { s.power with vin := mv } }

/-- The bus class is fixed (R53, R56). -/
def busClassFix (s : State) : State :=
  if s.power.supply = .starting ∧ s.power.classFixed = false then
    { s with power := { s.power with classFixed := true, classHigh := decide (36000 ≤ s.power.vin) && decide (200 ≤ s.power.holdupUf) } }
  else s

/-- The hold-up bank is charged (R56). -/
def holdupCharged (s : State) : State :=
  if s.power.supply = .starting ∨ s.power.supply = .running then { s with power := { s.power with holdupOk := true } } else s

/-- A power-fail declaration: at or below the threshold of the bus class (R53, R55). -/
def powerFail (mv : Nat) (s : State) : State :=
  if s.power.supply ≠ .running ∧ s.power.supply ≠ .starting then s
  else
    let s := powerLoss true s
    { s with power := { s.power with supply := .failHold, vin := mv } }

/-- The hold ends: VIN has been above 36 V in class HIGH, above the rising under-voltage threshold in class LOW, for 100 ms; the class stays fixed until the power-on reset, which measures the hold-up bank anew (R53, R55, R56). -/
def failHoldRelease (mv uf : Nat) (s : State) : State :=
  if s.power.supply = .failHold ∧ (if s.power.classHigh then 36000 else 8600) < mv then powerOnReset mv uf s else s

/-- The backup domain loses all supply: custody time goes with what backupLost clears (R82, R480). -/
def allSupplyLost (s : State) : State :=
  backupLost { s with clock := { s.clock with valid := false, time := 0 }, power := { s.power with mode := .run } }

/-- VIN falls below the falling threshold: the module stands in CELL on the backup cell, or is without any supply (R57, R67, R68, R480). -/
def vinLoss (mv : Nat) (s : State) : State :=
  if s.power.supply = .dark ∨ 7800 ≤ mv then { s with power := { s.power with vin := mv } }
  else
    let s := if s.power.supply = .failHold then s else powerLoss false s
    let s := { s with power := { s.power with supply := .dark, vin := mv, mode := .cell } }
    if s.power.vcell = 0 then allSupplyLost s else s

/-- VCELL falls (R58, R59, R480): below the warning threshold while VIN is present it is recorded, and a supply event is posted; gone in the dark, the backup domain loses its supply. -/
def vcellLow (mv : Nat) (s : State) : State :=
  let s := { s with power := { s.power with vcell := mv } }
  match s.power.supply with
  | .dark => if mv = 0 then allSupplyLost s else s
  | .running => ringNote .supply 1 (if mv < 2700 then s.raise 8 else s)
  | _ => if mv < 2700 then s.raise 8 else s

/-! ### Power states (R67 to R80) -/

/-- Is a register in a block whose domain STEEP leaves unpowered: RNG, PKE, the lane units, JRNL, PAIR, the custody cores' own (R73)? DRAMC keeps its registers with the memory controllers (R437). -/
def offInSteep (a : Nat) : Bool :=
  decide (0x40030000 ≤ a ∧ a < 0x40050000) || decide (0x40070000 ≤ a ∧ a < 0x400C0000) || decide (0x400F0000 ≤ a ∧ a < 0x40100000)
    || decide (0x40160000 ≤ a ∧ a < 0x40170000) || decide (2 ^ 40 ≤ a ∧ a < 9 * 2 ^ 40)
/-- The partner link and its controller power off: session, path A and the flits in flight go; path B and the role stay (R73, R79). -/
def partnerOff (p : Pair) : Pair :=
  { p with link := .down, session := .none, sessionKey := 0, peer := none, pathA := false, countA := none, ageA := 0, txCount := 0, rxCount := 0
           txSeq := 0, rxNext := 0, txAck := 0, flits := [], nakSent := false, rxBuf := [], syncing := false }
/-- A host port with its link controller retained: a link that is up stands in L1.2 (R73, R166). -/
def linkSleeps (h : HostPort) : HostPort := if h.linkUp then { h with lstate := .l12 } else h
/-- What path B and the pair controller's always-on part hold through LAGER, where domain 47 HBB stays powered (R73). -/
def keepPathB (old p : Pair) : Pair :=
  { p with word := old.word, countB := old.countB, pathB := old.pathB, ageB := old.ageB, txHb := old.txHb }

/-- The PMC switches the domains for STEEP or LAGER (R71 step 7, R73, R74, R81, R90). What is Off loses its contents: in STEEP the cores, the RNG, the PKE units with their operand memory, the partner link, the readers, the cards. -/
def domainSwitch (m : PowerMode) (s : State) : State :=
  match m with
  | .steep =>
    let s := cardsOff (rngRestart (resetCores (flashInterrupt (abandonLaps s))))
    { s with
      power := { s.power with mode := .steep, entering := none, pllLock := 0, pllLost := 0 }
      lines := 0
      pke := { Pke.reset with jobCnt := s.pke.jobCnt, checkFail := s.pke.checkFail }
      lanes := parkKeyBack s.lanes
      pair := partnerOff s.pair
      port0 := linkSleeps s.port0
      port1 := linkSleeps s.port1
      reader := { s.reader with fes := s.reader.fes.map (fun (x : FrontEnd) => { x with jobs := [] }) }
      regs := s.regs.filter (fun r => !offInSteep r.1) }
  | .lager =>
    let s := flashInterrupt s
    let time := s.clock.time
    let slots := s.journal.qckptSlots
    let j : Journal := { recoverJournal s with lossPaired := false }
    let s := { s with journal := j }
    let s := if s.journal.next = 0 then s else boundaries slots 4 2 time s
    let ports := s.reader.ports
    let tag := s.tag
    let pair := s.pair
    let keep := s.regs.filter (fun r => decide (0x40000000 ≤ r.1 ∧ r.1 < 0x40030000))
    let s := dropVolatile s
    { s with
      regs := keep
      reader := { s.reader with ports := ports }
      tag := { tag with wired := none, wiredQ := [], wiredDone := false, wiredRes := 0 }
      pair := keepPathB pair s.pair
      flash := (flashReset true s).flash
      tamper := { s.tamper with bist := none, armed := s.tamper.armed &&& 0x1DFFF }
      power := { s.power with mode := .lager, pllLock := 0, pllLost := 0 } }
  | _ => s

/-- POWER_STATE entry: every accepted command has completed but the one that asked; streams park or are lost, slots clear, the checkpoint is written, the completion is held and the domains switch (R71). -/
def powerEntry (s : State) : State :=
  match s.power.entering with
  | none => s
  | some (m, key) =>
    if s.cqe.inflight.any (fun c => c.key != key) then s
    else
      let force := match s.command key with | some c => bitAt (BitVec.ofNat 8 (c.entry.param 9 1)) 0 | none => false
      let s :=
        if m = .lager ∧ force = true then endStreams 0x7002 (fun _ => true) s
        else (s.lanes.streams.filter (fun (x : Stream) => x.entry.isSome)).foldl (fun s x => park2 x.handle s) s
      let s := { s with lanes := { s.lanes with lanes := s.lanes.lanes.map (fun (l : Lane) => { l with slot0 := none, slot1 := none }) } }
      let s := complete key (okay []) s
      let s := queueCheckpoint 1 (flush s)
      domainSwitch m (postAll s)

/-- The effect of a write of SYSCTL_PWR.target in RUN: 1 or 2 starts the domain switch (R68, R102). -/
def pwrTarget (v : Word) (s : State) : State :=
  if s.power.mode ≠ .run then s
  else match fieldAt v 5 4 with
    | 1 => domainSwitch .steep s
    | 2 => domainSwitch .lager s
    | _ => s

/-- Enable bit of a wake source (R76). -/
def WakeSource.bit : WakeSource → Option Nat
  | .host => some 0
  | .perst => some 0
  | .capSlot => some 1
  | .field => some 2
  | .card => some 3
  | .timer => some 4
  | .heartbeat => some 5
  | .lever => some 6
  | .shelfIn => none
  | .cardOut => none

/-- Does a wake event wake the module from a state (R76)? In LAGER the host link wakes it on PERST_N rising only. -/
def wakes (s : State) (w : WakeSource) : Bool :=
  let en := s.reg 0x40000014 0x2B
  let on := match WakeSource.bit w with | some k => bitAt en k | none => false
  match s.power.mode, w with
  | _, .shelfIn => false
  | _, .cardOut => false
  | .steep, .host => true
  | .steep, .perst => true
  | .steep, .heartbeat => true
  | .steep, .lever => true
  | .steep, _ => on
  | .lager, .lever => false
  | .lager, .host => false
  | .lager, _ => on
  | _, _ => false

/-- Merge into one the oldest two entries of a wake record that have one source and object (R77). -/
def mergeWakes : List WakeRec → List WakeRec
  | [] => []
  | x :: t =>
    if t.any (fun y => y.source == x.source && y.obj == x.obj) then
      (t.takeWhile (fun y => !(y.source == x.source && y.obj == x.obj))) ++
        (match t.dropWhile (fun y => !(y.source == x.source && y.obj == x.obj)) with
        | [] => []
        | y :: r => { y with count := min (x.count + y.count + 1) 0xFFFF, posted := x.posted && y.posted } :: r)
    else x :: mergeWakes t
/-- One entry of the cellarman's wake record. A full record coalesces: an entry of the same source and object takes the latest state; an event of an object that has none takes the place that merging two entries of another frees (R77). -/
def recordWake (w : WakeSource) (obj : Nat) (s : State) : State :=
  let l := s.power.wakeLog
  let e : WakeRec := ⟨w, obj, s.clock.time, 0, s.power.mode == .steep⟩
  let l :=
    if l.length < 64 then l ++ [e]
    else match l.find? (fun x => x.source == w && x.obj == obj) with
      | some x => l.filter (fun y => y != x) ++ [{ e with count := satInc 16 x.count, posted := e.posted && x.posted }]
      | none => mergeWakes l ++ [e]
  { s with power := { s.power with wakeLog := l } }

/-- A wake-record entry as the management plane posts it to the event queue (R77, R566). -/
def postWake (s : State) (w : WakeRec) : State :=
  let other (k : EventKind) : State := ringEvent ⟨k, w.obj, w.count, w.time⟩ s
  match w.source with
  | .capSlot => slotEventAt (match s.reader.ports[w.obj]? with | some p => if p.occ then 1 else 2 | none => 2) w.obj w.count w.time s
  | .field => slotEventAt 3 0 w.count w.time s
  | .card => slotEventAt (match s.cards[w.obj]? with | some k => if k.det then 7 else 8 | none => 8) w.obj w.count w.time s
  | .cardOut => slotEventAt (match s.cards[w.obj]? with | some k => if k.det then 7 else 8 | none => 8) w.obj w.count w.time s
  | .host => other .host
  | .perst => other .host
  | .timer => other .timer
  | .heartbeat => other .heartbeat
  | .lever => other .lever
  | .shelfIn => other .shelfIn

/-- The wake record is posted and emptied in RUN; what the management core posted already in STEEP is not posted twice (R77, R80). DEDUCED (log 111) -/
def drainWakes (s : State) : State :=
  (s.power.wakeLog.filter (fun w => !w.posted)).foldl postWake { s with power := { s.power with wakeLog := [] } }

/-! ### Start-up registers (R92, R95, R100) -/

/-- Registers that firmware writes as it brings the module up, away from their reset values. DESIGN CHOICE where the spec names no value. -/
def firmwareRegs (s : State) : List (Nat × Word) :=
  [(0x400107A0, 0x602), (0x400107A4, 0x602), (0x400107A8, 0x600), (0x400107AC, 0x602),
   (0x40020040, (s.nvm.meshRefs.getD 0 0).setWidth 32), (0x40020044, (s.nvm.meshRefs.getD 1 0).setWidth 32),
   (0x40020048, (s.nvm.meshRefs.getD 2 0).setWidth 32), (0x4002004C, (s.nvm.meshRefs.getD 3 0).setWidth 32),
   (0x40040008, 1), (0x40040014, 0x3FF), (0x40050008, 1), (0x40060008, 3), (0x40070008, 1), (0x40080008, 1), (0x40090008, 1), (0x400A0008, 1),
   (0x400700FC, 1), (0x400800FC, 1), (0x400900FC, 1), (0x400A00FC, 1),
   (0x400B0008, 3), (0x400C0008, 0xD), (0x400F0008, 0x3C3), (0x40100008, 3), (0x40150008, 1)]

/-- Write a list of registers. -/
def writeRegs (l : List (Nat × Word)) (s : State) : State := l.foldl (fun s r => s.setReg r.1 r.2) s

/-- A wake from STEEP: the clocks start, the domains that were Off come back as firmware sets them up, SHELF_CTL and the links as they were; the lanes get park key and counts back (R241), and draws begin in blocks reserved from now on (R207); a STANDBY whose partner link was down has to synchronise anew (R68, R73, R81, R532). -/
def wakeSteep (bit : Nat) (s : State) : State :=
  let s := writeRegs ((firmwareRegs s).filter (fun r => offInSteep r.1)) s
  { s with
    power := { s.power with mode := .run, prev := .steep, wakeCause := bit32 bit true, pllLock := 0xFF, bayId := s.power.pinBay }
    port0 := { s.port0 with lstate := .l0 }
    port1 := { s.port1 with lstate := .l0 }
    lanes := parkKeyReload s.lanes
    ktab := s.ktab.skipBlocks
    pair := if s.pair.role = .standby ∧ s.pair.pathB = true then { s.pair with role := .syncing, progress := 0 } else s.pair }

/-- The module returns to RUN: from STEEP at once, from LAGER through the start-up sequence (R68, R90). BAY_ID is read again (R63). -/
def wakeUp (bit : Nat) (s : State) : State :=
  match s.power.mode with
  | .steep => drainWakes (wakeSteep bit s)
  | .lager =>
    { s with power := { s.power with
        mode := .run, prev := .lager, wakeCause := bit32 bit true, supply := .starting, bayId := s.power.pinBay
        rstCause := s.power.rstCause ||| bit32 0 true ||| bit32 10 true } }
  | _ => s

/-- The wake timer's moment: a time set, reached, and not yet fired for (R78). -/
def timerDue (s : State) : Bool :=
  let t := (s.reg 0x40000020 0 ++ s.reg 0x4000001C 0).toNat
  t != 0 && decide (t ≤ s.clock.time.toNat) && !s.power.timerFired

/-- An event in STEEP or LAGER: it goes into the wake record; it wakes the module, or in STEEP the management core posts it to the event ring (R76, R77, R80). -/
def dormantEvent (w : WakeSource) (obj : Nat) (s : State) : State :=
  let s := recordWake w obj s
  if wakes s w then
    let s := { s with power := { s.power with wakeLog := s.power.wakeLog.map (fun (r : WakeRec) => if r.source = w ∧ r.obj = obj then { r with posted := false } else r) } }
    wakeUp ((WakeSource.bit w).getD 0) s
  else if s.power.mode = .steep then postWake s ⟨w, obj, s.clock.time, 0, true⟩
  else s

/-- A wake source event (R76 to R78): in RUN the timer's is posted, the others' units act themselves. The timer has one only at its time. -/
def wakeEvent (w : WakeSource) (obj : Nat) (s : State) : State :=
  if s.power.supply = .dark ∨ s.power.supply = .failHold ∨ s.power.mode = .cell then s
  else if w = .timer then
    if timerDue s = false then s
    else
      let s := { s with power := { s.power with timerFired := true } }
      if s.power.mode = .run then ringNote .timer 0 s else dormantEvent .timer 0 s
  else if s.power.mode = .run then s
  else dormantEvent w obj s

/-- SHELF_IN changes: line 20 in RUN, the wake record otherwise (R75, R428). -/
def shelfInChange (v : BitVec 16) (s : State) : State :=
  let s := { s with power := { s.power with shelfIn := v } }
  if s.power.mode = .run ∧ s.power.supply = .running then s.line 20 else wakeEvent .shelfIn 0 s

/-! ### Kiln stages (R311, R315, R88) -/

/-- Tier 2 ends. -/
def kilnTier2 (s : State) : State :=
  if s.kiln.stage = .tier1 then
    let s := tier2 s
    { s with kiln := { s.kiln with stage := .tier2, tiers := s.kiln.tiers ||| 2 } }
  else s

/-- The kiln-induced reset: DDR5 is lost to the overwrite, commands and streams are reported ABORTED_BY_KILN, each queue gets a boundary of cause 3 (R88, R141). -/
def kilnReset (s : State) : State :=
  if s.kiln.stage ≠ .tier2 then s
  else
    let slots := s.journal.periodSlots
    let s := clearMgmt s
    let s := { s with journal := recoverJournal s, cqe := { s.cqe with held := s.cqe.held.filter (fun h => h.kind == .final && h.compRec.isNone) } }
    let s := repostAll s
    let s := endStreams 0x6003 (fun _ => true) (abandon 0x6003 (fun _ => true) s)
    let s := if s.journal.next = 0 then s else boundaries slots 3 0 s.kiln.time s
    let held := s.cqe.held.map (fun (h : Held) => { h with kiln := true })
    let s := wipeSpace 2 (clearCustody { s with dramc := { s.dramc with badLines := [] } })
    rstCause (bit32 3 true) { s with
      port0 := { HostPort.reset with common := s.port0.common, aerCorr := s.port0.aerCorr, aerUncorr := s.port0.aerUncorr }
      port1 := { HostPort.reset with common := s.port1.common, aerCorr := s.port1.aerCorr, aerUncorr := s.port1.aerUncorr }
      regs := s.regs.filter (fun r => decide (r.1 < 0x40120000))
      cqe := { s.cqe with held := held }
      ktab := Ktab.reset
      kiln := { s.kiln with stage := .reset }
      power := { s.power with safe := false, safeNext := false, mode := .run } }

/-- Tier 3 ends: kiln_incomplete clears (R311). -/
def kilnTier3 (s : State) : State :=
  if s.kiln.stage = .reset then
    let s := tier3 s
    { s with kiln := { s.kiln with stage := .idle, latch := false, tiers := s.kiln.tiers ||| 4, incomplete := false } }
  else s

/-- The tiers a reset interrupted are completed before any other step of the boot (R87). -/
def finishKiln (s : State) : State :=
  if s.kiln.incomplete then
    let s := tier3 (tier2 s)
    { s with kiln := { s.kiln with latch := false, stage := .idle, tiers := 7, incomplete := false } }
  else s

/-! ### Start-up (R92 to R99) -/

/-- Acceptance of the images, the selected one first: the image taken, or whether a split ended the search (R95). -/
def imageChoice (sel : Nat) (e : BootEnv) : Option Nat × Bool :=
  if e.first.1 != e.first.2 then (none, true)
  else if e.first.1 then (some sel, false)
  else if e.second.1 != e.second.2 then (none, true)
  else if e.second.1 then (some (1 - sel), false)
  else (none, false)

/-- A failed known-answer test raises the source that the same failure raises in operation: a lane its cipher check, a public-key unit its unit fault, the vault engine its self-check, the DRBG its own (R92, R248, R317, R338, R369, R607). DEDUCED for lanes and units (log 112) -/
def katFaults (k : KatResults) (s : State) : State :=
  let s := (List.range 4).foldl (fun s n => if k.lanes.getD n true then s else s.raiseAt (80 + 8 * n) (.lane n) 0 0) s
  let s := (List.range 2).foldl (fun s n => if k.pkes.getD n true then s else s.raiseAt 114 (.pke n) 0 0) s
  let s := if k.vault then s else s.raise 121
  if k.drbg then s else drbgFault s

/-- CC-B enters lockstep as the kernel starts: it leaves reset at CORECFG_CCB_PC (R92, R401). -/
def startCcb (s : State) : State :=
  if s.cores.ccB.released then s
  else { s with cores := { s.cores with ccB := { Core.reset .ccB with released := true, pc := s.reg 0x4016000C 0 } } }

/-- Does the start-up sequence begin now: from a power-on at tb, when the bus class is fixed and the lever closed; a wake from LAGER enters at tb; after a warm or kiln-induced reset at once (R92)? -/
def bootDue (p : Power) : Bool :=
  !p.booted && p.mode == .run &&
    (p.supply == .running || (p.supply == .starting && (p.prev == .lager || (p.classFixed && !p.leverOpen))))

/-- The scan of the tail ends: a break it met is reported (R274, R283). -/
def scanEnd (s : State) : State :=
  if s.journal.scanBroke then breakFound { s with journal := { s.journal with scanBroke := false } } else s

/-- The start-up sequence from tb to the CQE's enable; the kernel draws a park key and refills the pinned key cache entries of a table that is present (R87, R92 to R99, R152, R197, R241, R290, R356, R475, R482). -/
def bootStart (e : BootEnv) (s : State) : State :=
  let p := s.power
  let starting := p.supply == .starting
  if bootDue p = false then s
  else
    let s := finishKiln s
    let s := armTamper (poweredArmed s) s
    let s := if starting then { s with
        port0 := { s.port0 with common := e.refclk.1 }, port1 := { s.port1 with common := e.refclk.2 }
        journal := { s.journal with pfUsed := s.journal.pf.isSome, pf := none }
        nvm := { s.nvm with powerOns := s.nvm.powerOns + 1 } } else s
    let s := if starting then scanEnd (reapplyRepairs s) else s
    let s := tagPowerUp (tornScan s)
    let image := imageChoice s.nvm.selector e
    let s := if image.2 then decisionSplit 2 s else s
    let s := if e.seedOk then rngSeed s else s
    let safe := p.safeNext || !e.checkerOk || !e.seedOk || image.1.isNone
    let s := cardsAgain (writeRegs (firmwareRegs s) s)
    let s := { s with power := { s.power with
      supply := .running, booted := true, pllLock := 0xFF, pllLost := 0, safe := safe, safeNext := false, runningBank := image.1.getD s.power.runningBank
      rstCause := s.power.rstCause ||| bit32 7 safe } }
    let s := if e.checkerOk then s else s.raise 38
    let s := if e.ddrOk then s else s.raise 23
    let s := rebuildCell s
    let s := bootPairs (e.pairsOk || safe) s
    let s := if safe then s else drawParkKey (bootKeys (katFaults e.kats (startCcb s)))
    drainWakes { s with ktab := s.ktab.refillPins }

end Sys2Proof.Machine
end

