-- ==== Sys2Proof/Machine/Faults.lean ====
section
/-! DEFINITION. The fault collector: source table, records, escalation, combination, level actions, fences, acknowledgement, outputs (17_fault_collector.md). -/

namespace Sys2Proof.Machine

/-- FAULT base address. -/
def faultBase : Nat := 0x40010000

/-! ### Sources (R495 to R497) -/

/-- The eight sources of each lane: class and default level (R248). -/
def laneSource : Nat → FClass × Level
  | 0 => (.security, .fence)
  | 1 => (.security, .fence)
  | 2 => (.bus, .fence)
  | 3 => (.security, .check)
  | 4 => (.memUe, .fence)
  | 5 => (.protocol, .log)
  | 6 => (.security, .check)
  | _ => (.protocol, .fence)

/-- Class and default level of the sources below 64 (R84, R445; 12_mbovor_core_isa.md; 13_rings_exceptions.md). -/
def sourceLow : Nat → Option (FClass × Level)
  | 0 => some (.powerClock, .mate)
  | 1 => some (.powerClock, .fence)
  | 2 => some (.powerClock, .mate)
  | 3 => some (.powerClock, .fence)
  | 4 => some (.powerClock, .check)
  | 5 => some (.powerClock, .mate)
  | 6 => some (.powerClock, .check)
  | 7 => some (.powerClock, .log)
  | 8 => some (.powerClock, .log)
  | 9 => some (.powerClock, .check)
  | 10 => some (.powerClock, .log)
  | 11 => some (.powerClock, .mate)
  | 12 => some (.powerClock, .check)
  | 16 => some (.memCe, .log)
  | 17 => some (.memCe, .log)
  | 18 => some (.memUe, .check)
  | 19 => some (.memUe, .log)
  | 20 => some (.memCe, .check)
  | 21 => some (.memCe, .log)
  | 22 => some (.memCe, .check)
  | 23 => some (.memUe, .mate)
  | 24 => some (.memCe, .check)
  | 32 => some (.memCe, .log)
  | 33 => some (.memCe, .log)
  | 34 => some (.memUe, .check)
  | 35 => some (.memUe, .log)
  | 36 => some (.memCe, .check)
  | 37 => some (.memCe, .check)
  | 38 => some (.memUe, .mate)
  | 48 => some (.lockstep, .mate)
  | 49 => some (.lockstep, .mate)
  | 50 => some (.memCe, .log)
  | 51 => some (.memUe, .mate)
  | 52 => some (.lockstep, .check)
  | 56 => some (.protocol, .check)
  | 57 => some (.protocol, .check)
  | 58 => some (.protocol, .check)
  | 59 => some (.protocol, .mate)
  | 60 => some (.protocol, .mate)
  | 61 => some (.protocol, .mate)
  | _ => none

/-- Class and default level of the sources from 64 to 159 but the lanes' (R23, R26, R27, R36, R474, R490; the tables of 06, 09, 10 and 11). -/
def sourceMid : Nat → Option (FClass × Level)
  | 64 => some (.protocol, .check)
  | 65 => some (.protocol, .log)
  | 66 => some (.protocol, .log)
  | 67 => some (.bus, .check)
  | 112 => some (.security, .check)
  | 113 => some (.memUe, .fence)
  | 114 => some (.security, .fence)
  | 115 => some (.security, .mate)
  | 116 => some (.security, .log)
  | 117 => some (.security, .check)
  | 118 => some (.security, .check)
  | 119 => some (.security, .mate)
  | 120 => some (.security, .check)
  | 121 => some (.security, .mate)
  | 122 => some (.security, .log)
  | 123 => some (.security, .check)
  | 124 => some (.security, .check)
  | 125 => some (.protocol, .log)
  | 126 => some (.security, .mate)
  | 127 => some (.security, .mate)
  | 128 => some (.security, .kiln)
  | 129 => some (.security, .kiln)
  | 130 => some (.security, .kiln)
  | 131 => some (.security, .kiln)
  | 132 => some (.security, .check)
  | 133 => some (.security, .kiln)
  | 134 => some (.security, .mate)
  | 135 => some (.security, .kiln)
  | 136 => some (.security, .kiln)
  | 137 => some (.security, .kiln)
  | 138 => some (.security, .kiln)
  | 139 => some (.security, .kiln)
  | 140 => some (.security, .kiln)
  | 141 => some (.security, .kiln)
  | 142 => some (.security, .kiln)
  | 143 => some (.security, .kiln)
  | 144 => some (.security, .kiln)
  | _ => none

/-- Class and default level of the sources from 160 (R548; the tables of 04, 05, 13, 15, 16, 19, 20 and 08). Software-raised ones reset to class SOFTWARE. -/
def sourceHigh : Nat → Option (FClass × Level)
  | 160 => some (.memCe, .log)
  | 161 => some (.memUe, .check)
  | 162 => some (.bus, .log)
  | 163 => some (.bus, .log)
  | 164 => some (.memUe, .check)
  | 165 => some (.memUe, .check)
  | 166 => some (.memCe, .log)
  | 167 => some (.memCe, .log)
  | 168 => some (.security, .log)
  | 169 => some (.security, .check)
  | 170 => some (.powerClock, .check)
  | 176 => some (.protocol, .log)
  | 177 => some (.protocol, .log)
  | 178 => some (.protocol, .log)
  | 179 => some (.protocol, .check)
  | 180 => some (.protocol, .log)
  | 181 => some (.protocol, .log)
  | 182 => some (.protocol, .check)
  | 183 => some (.protocol, .log)
  | 184 => some (.protocol, .log)
  | 185 => some (.protocol, .log)
  | 186 => some (.protocol, .log)
  | 187 => some (.protocol, .log)
  | 188 => some (.protocol, .log)
  | 189 => some (.protocol, .check)
  | 190 => some (.protocol, .log)
  | 191 => some (.security, .check)
  | 192 => some (.protocol, .fence)
  | 193 => some (.protocol, .log)
  | 194 => some (.protocol, .log)
  | 195 => some (.memCe, .log)
  | 196 => some (.memUe, .check)
  | 197 => some (.protocol, .log)
  | 198 => some (.security, .log)
  | 199 => some (.security, .log)
  | 200 => some (.protocol, .log)
  | 208 => some (.protocol, .log)
  | 209 => some (.protocol, .log)
  | 210 => some (.protocol, .log)
  | 211 => some (.protocol, .log)
  | 212 => some (.protocol, .log)
  | 224 => some (.software, .check)
  | 232 => some (.software, .check)
  | 233 => some (.software, .check)
  | 234 => some (.software, .log)
  | 235 => some (.software, .check)
  | _ => none

/-- Class and default level of a source; none where no chapter names it (R495). -/
def sourceInfo (n : Nat) : Option (FClass × Level) :=
  if 80 ≤ n ∧ n ≤ 111 then some (laneSource (n % 8))
  else if n < 64 then sourceLow n
  else if n < 160 then sourceMid n
  else sourceHigh n

/-- Class codes (R496). -/
def FClass.code : FClass → Nat
  | .memCe => 0
  | .memUe => 1
  | .lockstep => 2
  | .bus => 3
  | .protocol => 4
  | .powerClock => 5
  | .security => 6
  | .software => 7
/-- The class of a code. -/
def classOf : Nat → FClass
  | 0 => .memCe
  | 1 => .memUe
  | 2 => .lockstep
  | 3 => .bus
  | 4 => .protocol
  | 5 => .powerClock
  | 6 => .security
  | _ => .software
/-- Level codes (R497). -/
def Level.code : Level → Nat
  | .log => 0
  | .fence => 1
  | .check => 2
  | .mate => 3
  | .kiln => 4
/-- The level of a code. -/
def levelOf : Nat → Level
  | 0 => .log
  | 1 => .fence
  | 2 => .check
  | 3 => .mate
  | _ => .kiln

/-- Address of FAULT_SRCs. -/
def srcAddr (n : Nat) : Nat := faultBase + 0x400 + 4 * n
/-- Reset value of the writable fields of FAULT_SRCs. -/
def srcReset (n : Nat) : Word :=
  match sourceInfo n with
  | some (c, l) => put32 8 (FClass.code c) ||| put32 0 (Level.code l)
  | none => 0
/-- FAULT_SRCs as it stands, without pending and seen. -/
def srcReg (s : State) (n : Nat) : Word := s.reg (srcAddr n) (srcReset n)
/-- Class of a source now. -/
def srcClass (s : State) (n : Nat) : FClass := classOf (fieldAt (srcReg s n) 10 8)
/-- Configured level of a source now. -/
def srcLevel (s : State) (n : Nat) : Level := levelOf (fieldAt (srcReg s n) 2 0)
/-- Is the source masked, where a mask has effect (R506)? -/
def srcMasked (s : State) (n : Nat) : Bool := bitAt (srcReg s n) 11 && srcLevel s n != .kiln && n != 127

/-- Can a unit be fenced (R500)? -/
def fenceable (u : FUnit) : Bool := decide (1 ≤ u.cls ∧ u.cls ≤ 7)

/-- The units that may report a source, by unit number (R500, R507): the unit, or none where the number is not allowed. -/
def unitFor (n k : Nat) : Option FUnit :=
  if n = 1 then if k = 0 then some ⟨1, 0xFF⟩ else none
  else if n = 3 then if k < 2 then some ⟨3, k⟩ else if k = 2 then some ⟨4, 0⟩ else none
  else if 80 ≤ n ∧ n ≤ 111 then if k = 0 then some ⟨1, (n - 80) / 8⟩ else none
  else if 112 ≤ n ∧ n ≤ 115 then if k < 2 then some ⟨2, k⟩ else none
  else if n = 176 ∨ n = 177 then if k = 0 then some ⟨3, n - 176⟩ else none
  else if 178 ≤ n ∧ n ≤ 185 then if k < 2 then some ⟨3, k⟩ else none
  else if 188 ≤ n ∧ n ≤ 191 then if k = 0 then some ⟨4, 0⟩ else none
  else if 124 ≤ n ∧ n ≤ 126 then if k = 0 then some ⟨5, 0⟩ else none
  else if n = 192 then if k < 6 then some ⟨6, k⟩ else none
  else if 208 ≤ n ∧ n ≤ 212 then if k < 4 then some ⟨7, k⟩ else none
  else if k = 0 then some ⟨0, 0⟩ else none

/-- The unit a record names: the one that reported, if it can report the source; else the source's own unit (R500). -/
def reportUnit (n : Nat) (u : FUnit) : FUnit :=
  if (List.range 6).any (fun k => unitFor n k == some u) then u else (unitFor n 0).getD ⟨0, 0⟩

/-! ### Records (R498, R502, R504, R506, R510, R511) -/

/-- One level above a level, for a class: no class but SECURITY rises above MATE (R504). -/
def raiseLevel (c : FClass) : Level → Level
  | .log => .log
  | .fence => .check
  | .check => .mate
  | .mate => if c = .security then .kiln else .mate
  | .kiln => .kiln

/-- Is there an unacknowledged record of a class applied at FENCE or CHECK? -/
def waitingClass (s : State) (c : FClass) : Bool := s.fault.unacked.any (fun u => u.cls == c)
/-- CHECK timers running. -/
def checkTimers (s : State) : Nat := (s.fault.unacked.filter (·.timer)).length

/-- Applied level of a source raised now, and whether it was escalated (R502, R504, R506). -/
def appliedLevel (s : State) (n : Nat) : Level × Bool :=
  let c := srcClass s n
  let l := srcLevel s n
  if srcMasked s n then (.log, false)
  else
    let e := waitingClass s c && (l == .fence || l == .check || l == .mate)
    let a := if e then raiseLevel c l else l
    let a := if a = .check ∧ 16 ≤ checkTimers s then .mate else a
    (a, e && raiseLevel c l != l)

/-- Store a record: a full log gives up its oldest acknowledged record below CHECK for one at CHECK or above, and counts the rest (R511). -/
def storeRecord (r : FRecord) (f : FaultBlk) : FaultBlk :=
  if f.log.length < 256 then { f with log := f.log ++ [r] }
  else if 2 ≤ Level.code r.applied then
    match f.log.find? (fun x => x.acked && decide (Level.code x.applied < 2)) with
    | some x => { f with log := f.log.filter (fun y => y.seq != x.seq) ++ [r] }
    | none => { f with ovf := satInc 16 f.ovf, overflow := true }
  else { f with ovf := satInc 16 f.ovf, overflow := true }

/-- Record one input: the record, its interrupt line, its unacknowledged entry, its event (R498, R502, R509). -/
def recordFault (combined : Bool) (i : FaultIn) (s : State) : FRecord × State :=
  let n := i.report.source
  let a := appliedLevel s n
  let now := i.rebuilt
  let r : FRecord := {
    seq := s.fault.next, source := n, cls := srcClass s n, configured := srcLevel s n, applied := a.1, forced := i.forced, escalated := a.2
    combined := combined, masked := srcMasked s n, acked := !(a.1 == .fence || a.1 == .check), rebuilt := i.rebuilt, withheld := i.withheld
    testMark := i.testMark || (decide (128 ≤ n ∧ n ≤ 144) && s.tamper.testMark.getLsbD (n - 128))
    unit := reportUnit n i.report.unit, syndrome := i.report.syndrome
    address := i.report.address, time := if now then s.tamper.cellTime else if s.clock.valid then s.clock.time else 0 }
  let waits := a.1 == .fence || a.1 == .check
  let f := storeRecord r { s.fault with
    next := s.fault.next + 1
    seen := if s.fault.seen.contains n then s.fault.seen else s.fault.seen ++ [n]
    unacked := if waits then s.fault.unacked ++ [⟨r.seq, n, r.cls, a.1, a.1 == .check⟩] else s.fault.unacked
    alarm := s.fault.alarm || a.1 == .kiln }
  let high := decide (2 ≤ Level.code a.1)
  let s := (({ s with fault := f }) : State).line (if high then 3 else 4)
  (r, if high then postEvent 5 (BitVec.ofNat 56 (n + Level.code a.1 * 2 ^ 8 + r.seq % 2 ^ 32 * 2 ^ 24)) s else s)

/-- Insert an input by rising source number. -/
def insertInput (i : FaultIn) : List FaultIn → List FaultIn
  | [] => [i]
  | x :: t => if i.report.source < x.report.source then i :: x :: t else x :: insertInput i t

/-- Record the inputs of one evaluation in increasing source number (R505 rule 1). -/
def recordAll (combined : Bool) : List FaultIn → State → List FRecord × State
  | [], s => ([], s)
  | i :: t, s =>
    let p := recordFault combined i s
    let q := recordAll combined t p.2
    (p.1 :: q.1, q.2)

/-! ### Fences (R500, R501) -/

/-- Fence a lane: its commands complete UNIT_FENCED, its other streams are reported, slots and contexts go (R37, R247). -/
def fenceLane (n : Nat) (s : State) : State :=
  let keys := (s.lane n).queue
  let busy := keys.filterMap (fun k => (s.command k).map (fun c => c.entry.handle.toNat))
  let mine := s.lanes.streams.filter (fun (x : Stream) => x.lane == n)
  let s := mine.foldl (fun s (x : Stream) =>
    let s := recordEnded x 0x3006 (endStream x.handle s)
    if busy.contains x.handle then s else reportStream x 0x3006 s) s
  let s := keys.foldl (fun s k => complete k (unitFenced 1 n) s) s
  let s := { s with lanes := { s.lanes with streams := s.lanes.streams.filter (fun (x : Stream) => x.lane != n) } }
  s.setLane n (fun l => { l with queue := [], slot0 := none, slot1 := none })

/-- The partner link carries nothing any more: the session and the flits on their way go; a STANDBY that hears path B becomes SYNCING, an ACTIVE continues in solo mode (R520, R532). -/
def linkFalls (s : State) : State :=
  let s := { s with pair := { s.pair with link := .down, session := .none, peer := none, syncing := false, flits := [], rxBuf := [], nakSent := false } }
  match s.pair.role with
  | .standby => if s.pair.pathB then postEvent 4 0 { s with pair := { s.pair with role := .syncing, progress := 0 } } else s
  | .active => flush s
  | _ => s
/-- The partner link is held down by its fence, path A with it (R500). -/
def fenceLink (s : State) : State := linkFalls { s with pair := { s.pair with pathA := false } }

/-- Fence a unit with its effect. -/
def fenceUnit (u : FUnit) (s : State) : State :=
  if fenceable u = false then s
  else
    let s := s.addFence u
    match u.cls with
    | 1 => if u.num = 0xFF then (List.range 4).foldl (fun s n => fenceLane n (s.addFence (.lane n))) s else fenceLane u.num s
    | 2 => releaseHeld (rerunOrFence u.num s)
    | 3 => surpriseDown u.num s
    | 4 => fenceLink s
    | 5 => { s with ktab := s.ktab.emptyCache }
    | 6 => frontEndFenced u.num s
    | _ => slotFenced u.num s

/-! ### Actions (R499, R505) -/

/-- Does this module ask its partner to take over: ACTIVE in pair mode with a healthy partner (R499, R533)? -/
def partnerReady (s : State) : Bool := s.pairMode && (match s.pair.word with | some w => bitAt w 24 | none => false)

/-- A castling of this module runs. -/
def castlingRuns (s : State) : Bool :=
  match s.pair.castling with
  | .planned _ _ => true
  | .fault => true
  | _ => false

/-- A fault wakes a dormant module (R505). -/
def wakeByFault (s : State) : State :=
  if s.power.mode = .steep ∨ s.power.mode = .lager then { wakeUp 0 s with power := { (wakeUp 0 s).power with wakeCause := 0 } } else s

/-- The action of MATE (R499, R505). -/
def mateAction (s : State) : State :=
  if s.kiln.latch = true ∨ s.power.supply = .failHold ∨ s.power.supply = .dark then s
  else if s.power.booted = true ∧ s.power.safe = true then s
  else if castlingRuns s then { s with fault := { s.fault with mateAfterCastling := true } }
  else match s.power.mode with
    | .lager => { wakeByFault s with power := { (wakeByFault s).power with safeNext := true, rstCause := (wakeByFault s).power.rstCause ||| 4 } }
    | .steep => warmReset 2 true (wakeByFault s)
    | _ =>
      if s.power.booted = false then { s with power := { s.power with safeNext := true, rstCause := s.power.rstCause ||| 4 } }
      else if partnerReady s then { s with pair := { s.pair.send (.control .castleGo) with castling := .fault } }
      else warmReset 2 true s

/-- The kiln as a level action: not twice, and in CELL by the backup rules alone (R310, R505). -/
def kilnAction (source : Nat) (s : State) : State :=
  if s.power.supply = .dark then s else fireKiln source { s with pair := { s.pair with castling := .none } }

/-- The reservoir's voltage falls: below 2.9 V source 120 (R313). -/
def reservoirAt (mv : Nat) (s : State) : State :=
  let s := { s with kiln := { s.kiln with reservoir := mv } }
  if mv < 2900 ∧ s.power.supply ≠ .dark then s.raise 120 else s
/-- It has stood below 2.6 V for 1 ms: with the supply present, the kiln with trigger source 120 (R313). -/
def reservoirFell (mv : Nat) (s : State) : State :=
  let s := { s with kiln := { s.kiln with reservoir := mv } }
  if mv < 2600 then kilnAction 120 s else s

/-- Has a MATE's warm reset started, and not ended (R505)? -/
def mateResetRuns (s : State) : Bool := !s.power.booted && s.power.supply == .running && s.power.mode == .run && bitAt s.power.rstCause 2
/-- Stop the CHECK timers of the records of one evaluation. -/
def stopTimers (rs : List FRecord) (s : State) : State :=
  { s with fault := { s.fault with unacked := s.fault.unacked.map (fun (u : Unacked) =>
      if rs.any (fun r => r.seq == u.seq) then { u with timer := false } else u) } }

/-- Act on the records of one evaluation: the highest level first, fences in any case but where the reset that has begun ends them (R499, R501, R505). -/
def actOn (rs : List FRecord) (s : State) : State :=
  let kiln := rs.find? (fun r => r.applied == .kiln && !r.withheld)
  let mate := rs.any (fun r => r.applied == .mate)
  let quiet := s.kiln.latch || s.power.supply == .failHold || mateResetRuns s
  let fences := if quiet then [] else rs.filter (fun r => !r.masked && (r.configured == .fence || r.applied == .fence))
  let wake := rs.any (fun r => r.applied == .fence || r.applied == .check) && !quiet
  let s := match kiln with
    | some r => kilnAction r.source s
    | none => if mate then mateAction s else if wake then wakeByFault s else s
  let s := if quiet || (mate && kiln.isNone) then stopTimers rs s else s
  if mateResetRuns s then s else fences.foldl (fun s r => fenceUnit r.unit s) s

/-- One evaluation (R498): unpowered, the collector makes none; sources that no chapter names are never raised. -/
def evaluate (ins : List FaultIn) (s : State) : State :=
  let ins := ins.filter (fun i => (sourceInfo i.report.source).isSome)
  if s.power.supply = .dark ∨ ins.isEmpty = true then s
  else
    let ins := ins.foldl (fun l i => insertInput i l) []
    let p := recordAll (decide (1 < ins.length)) ins s
    actOn p.1 p.2

/-- Make the waiting evaluations, at most `fuel`. -/
def settleFaults : Nat → State → State
  | 0, s => s
  | n + 1, s =>
    match s.fault.inputs with
    | [] => s
    | i :: t => settleFaults n (evaluate i { s with fault := { s.fault with inputs := t } })

/-! ### Acknowledgement, timers, force, outputs (R502, R503, R507, R508, R513 to R516) -/

/-- Acknowledge the unacknowledged records of a selection of sources (R502). -/
def ackSources (sel : Nat → Bool) (s : State) : State :=
  let seqs := (s.fault.unacked.filter (fun u => sel u.source)).map (·.seq)
  { s with fault := { s.fault with
      unacked := s.fault.unacked.filter (fun u => !sel u.source)
      log := s.fault.log.map (fun (r : FRecord) => if seqs.contains r.seq then { r with acked := true } else r) } }

/-- A write of FAULT_ACK (R515); it quietens lines 3 and 4. DESIGN CHOICE -/
def faultAck (v : Word) (s : State) : State :=
  let s := (if fieldAt v 31 9 ≠ 0 then setStatusBits faultBase 1 s else s).unline 3 |>.unline 4
  if bitAt v 8 then ackSources (fun _ => true) s else ackSources (fun n => n == fieldAt v 7 0) s

/-- Lockstep and bus faults of the management plane: its core's register file parity, or a source of class LOCKSTEP or BUS that the management core's unit raises (R85). -/
def mgmtSource (s : State) (n : Nat) : Bool := n == 52 || (decide (192 ≤ n ∧ n < 224) && (srcClass s n == .lockstep || srcClass s n == .bus))

/-- A CHECK timer expires: the record becomes a MATE and acts as one; a lockstep or bus fault of the management plane resets that plane in its place (R85, R503). DEDUCED (log 113) -/
def checkExpiry (seq : Nat) (s : State) : State :=
  match s.fault.unacked.find? (fun u => u.seq == seq && u.timer) with
  | none => s
  | some u =>
    let t := { s with fault := { s.fault with
      unacked := s.fault.unacked.filter (fun u => u.seq != seq)
      log := s.fault.log.map (fun (r : FRecord) => if r.seq = seq then { r with applied := .mate, escalated := true, acked := true } else r) } }
    if mgmtSource s u.source then mgmtReset t else mateAction t

/-- The forced report of a source, if the source and unit are allowed (R507). -/
def forcedInput (n k : Nat) : Option FaultIn :=
  match sourceInfo n, unitFor n k with
  | some _, some u => some ⟨⟨n, u, 0, 0⟩, true, false, false, false⟩
  | _, _ => none

/-- A write of FAULT_FORCE_REG (R516). -/
def forceWrite (v : Word) (s : State) : State :=
  let s := if fieldAt v 30 16 ≠ 0 then setStatusBits faultBase 1 s else s
  match forcedInput (fieldAt v 7 0) (fieldAt v 15 8) with
  | none => setStatusBits faultBase 2 s
  | some i => if bitAt v 31 then s.report [i] else s

/-- A write of FAULT_SWRAISE: a source of 224 to 255 with the programmed syndrome and address (R495, R496). -/
def swRaise (v : Word) (s : State) : State :=
  let s := if fieldAt v 31 8 ≠ 0 then setStatusBits faultBase 1 s else s
  let n := fieldAt v 7 0
  if n < 224 then setStatusBits faultBase 2 s
  else s.raiseAt n ⟨0, 0⟩ (s.reg (faultBase + 0x18) 0) ((s.reg (faultBase + 0x20) 0) ++ (s.reg (faultBase + 0x1C) 0))

/-- FAULT_N driven low: the cases of R508, and a MATE whose castling or reset runs (R499). -/
def faultOut (s : State) : Bool :=
  s.fault.alarm || s.fault.unacked.any (fun u => u.applied == .check) || (s.power.safe && bitAt s.power.rstCause 2)
    || s.pair.castling == .fault || s.fault.mateAfterCastling || mateResetRuns s

/-- FAULT_FENCED. -/
def fencedWord (s : State) : Word :=
  let b (cls n pos : Nat) : Word := bit32 pos (s.isFenced cls n)
  b 1 0 0 ||| b 1 1 1 ||| b 1 2 2 ||| b 1 3 3 ||| b 2 0 4 ||| b 2 1 5 ||| b 3 0 6 ||| b 3 1 7 ||| b 4 0 8 ||| b 5 0 9
    ||| b 6 0 10 ||| b 6 1 11 ||| b 6 2 12 ||| b 6 3 13 ||| b 6 4 14 ||| b 6 5 15 ||| b 7 0 16 ||| b 7 1 17 ||| b 7 2 18 ||| b 7 3 19

/-- FAULT_LOG_HEAD: the oldest record held, the next one while none is. -/
def logHead (s : State) : Nat := match s.fault.log with | r :: _ => r.seq | [] => s.fault.next

/-- FAULT_PENDj: sources with an unacknowledged record. -/
def pendWord (s : State) (j : Nat) : Word :=
  (List.range 32).foldl (fun w k => w ||| bit32 k (s.fault.unacked.any (fun u => u.source == 32 * j + k))) 0
/-- FAULT_SEENj. -/
def seenWord (s : State) (j : Nat) : Word := (List.range 32).foldl (fun w k => w ||| bit32 k (s.fault.seen.contains (32 * j + k))) 0

/-- FAULT_STATUS (R513). -/
def faultStatus (s : State) : Word :=
  let f := s.fault
  (s.reg (faultBase + 4) 0 &&& 0x207) ||| bit32 3 f.overflow ||| bit32 4 (fencedWord s != 0) ||| bit32 5 (decide (256 ≤ f.log.length))
    ||| bit32 6 (f.unacked.any (·.timer)) ||| bit32 7 (faultOut s) ||| bit32 8 f.alarm

/-- The 32 bytes of a record (R510). -/
def frecordBytes (r : FRecord) : List Byte :=
  let b (k : Nat) (x : Bool) : Nat := if x then 2 ^ k else 0
  leBytes 4 r.seq ++ leBytes 1 r.source ++ leBytes 1 (FClass.code r.cls) ++ leBytes 1 (Level.code r.configured) ++ leBytes 1 (Level.code r.applied)
    ++ leBytes 1 (b 0 r.forced + b 1 r.escalated + b 2 r.combined + b 3 r.masked + b 4 r.acked + b 5 r.rebuilt + b 6 r.withheld + b 7 r.testMark)
    ++ leBytes 1 r.unit.cls ++ leBytes 1 r.unit.num ++ [0] ++ leBytes 4 r.syndrome.toNat ++ leBytes 8 r.address.toNat ++ leBytes 8 r.time.toNat

/-- A PLL or REF100 loses lock; its clock stops until it is started again (R83, R84): 0 core, 1 lane, 2 DDR, 3 and 4 the host ports, 5 partner, 6 management, 7 REF100. -/
def pllUnlock (k : Nat) (s : State) : State :=
  let m := BitVec.ofNat 8 (2 ^ k)
  let s := { s with power := { s.power with pllLock := s.power.pllLock &&& ~~~ m, pllLost := s.power.pllLost ||| m } }
  match k with
  | 0 => s.raise 0
  | 1 => s.raiseAt 1 ⟨1, 0xFF⟩ 0 0
  | 2 => s.raise 2
  | 3 => s.raiseAt 3 (.port 0) 0 0
  | 4 => s.raiseAt 3 (.port 1) 0 0
  | 5 => s.raiseAt 3 .link 0 0
  | 6 => s.raise 4
  | _ => s.raise 5

end Sys2Proof.Machine
end

