-- ==== Sys2Proof/Machine/Pair.lean ====
section
/-! DEFINITION. Pair operation: roles, election, mirroring, heartbeats, castling, freeze, resynchronisation (18_castling_pair_operation.md; 02_module_contacts_supply.md, R48, R49). -/

namespace Sys2Proof.Machine

/-- PAIR base address. -/
def pairBase : Nat := 0x400F0000
/-- PAIR_CTL (R550). -/
def pairCtl (s : State) : Word := s.reg (pairBase + 8) 0x3C2

/-! ### Views (R518, R522, R530) -/

/-- Role field of a heartbeat word. -/
def wordRole (w : Word) : Nat := fieldAt w 31 28
/-- Power field of a heartbeat word. -/
def wordPower (w : Word) : Nat := fieldAt w 27 26
/-- This module healthy: not in SAFE, no MATE pending (R530). -/
def healthy (s : State) : Bool := !s.power.safe && !s.fault.mateAfterCastling && s.pair.castling != .fault && !s.kiln.latch
/-- This module preferred: by the stored record, else by the strap (R522). -/
def preferredUnit (s : State) : Bool := match s.nvm.preferred with | some r => r.serial == Config.serial | none => s.power.pref
/-- Power code of a heartbeat word. -/
def powerCode : PowerMode → Nat
  | .steep => 1
  | .lager => 2
  | _ => 0
/-- The heartbeat word this module sends (R530). -/
def heartbeatWord (s : State) : Word :=
  put32 28 (Role.code s.pair.role) ||| put32 26 (powerCode s.power.mode) ||| bit32 25 s.pair.leaving ||| bit32 24 (healthy s)
    ||| bit32 23 (preferredUnit s) ||| bit32 22 s.pair.frozen ||| put32 0 (s.pair.txHb % 65536)
/-- A property of the partner's last valid word. -/
def partnerWord (s : State) (f : Word → Bool) : Bool := match s.pair.word with | some w => f w | none => false
/-- Serial of the enrolled partner, zero if none. -/
def partnerSerial (s : State) : QWord := s.nvm.partner.getD 0
/-- Change the pair state. -/
def State.setPair (s : State) (f : Pair → Pair) : State := { s with pair := f s.pair }
/-- Send the partner a message. -/
def sendPair (m : PairOut) (s : State) : State := s.setPair (fun p => p.send m)
/-- Is the partner link usable? -/
def linkUsable (s : State) : Bool := s.pair.link == .up && !s.isFenced 4 0

/-! ### Last-active record (R523) -/

/-- Copy sequence number of a copy. -/
def copySeqOf (a : Option LastActive) : Nat := match a with | some r => r.copySeq + 1 | none => 0
/-- The valid copy that counts. -/
def lastActive (s : State) : Option LastActive := if copySeqOf s.nvm.active1 < copySeqOf s.nvm.active0 then s.nvm.active0 else s.nvm.active1
/-- Write a last-active record to the older copy. -/
def writeLastActive (recNo : Nat) (s : State) : State :=
  let r : LastActive := ⟨max (copySeqOf s.nvm.active0) (copySeqOf s.nvm.active1), s.pair.epoch, Config.serial, s.pairTag, recNo, s.clock.time⟩
  if copySeqOf s.nvm.active0 < copySeqOf s.nvm.active1 then { s with nvm := { s.nvm with active0 := some r } } else { s with nvm := { s.nvm with active1 := some r } }

/-- The HELLO of this module (R529). -/
def helloOf (s : State) : Hello := ⟨Config.serial, certificateChain, lastActive s, s.pair.role, preferredUnit s, s.pair.nonce⟩

/-- Become ACTIVE under a new epoch: the ROLE record, the last-active record, the SHELF_CTL pins, event 4 (R522, R534 steps 2 to 4). -/
def becomeActive (epoch kind : Nat) (former : QWord) (s : State) : State :=
  let s := s.setPair (fun p => { p with role := .active, epoch := epoch })
  let n := s.journal.next
  let s := append 0xFFFF (.role (BitVec.ofNat 64 epoch) Config.serial former kind) s
  let s := writeLastActive n s
  let v := match s.pair.shelfWait.getLast? with | some w => w.2 | none => s.power.shelfCtl
  postEvent 4 0 { s with power := { s.power with shelfCtl := v, shelfDriven := !s.pair.frozen }, pair := { s.pair with shelfWait := if s.pair.frozen then s.pair.shelfWait else [] } }

/-! ### Takeover (R534) -/

/-- May this STANDBY take over? -/
def takeoverOk (s : State) : Bool :=
  s.pair.role == .standby && healthy s && !s.power.leverOpen && (s.power.mode == .run || s.power.mode == .steep)
    && partnerWord s (fun w => wordRole w == 1 && decide (wordPower w < 2))

/-- Take control: the steps of R534; `skip` names entries handed over. -/
def takeOver (kind : Nat) (skip : List (BitVec 16 × Word)) (s : State) : State :=
  let s := if s.power.mode = .steep then wakeUp 5 s else s
  let s := s.setPair (fun p => { p with castling := .none, frozen := false, holdFrom := none })
  let s := { s with ktab := s.ktab.emptyCache }
  let s := becomeActive (s.pair.epoch + 1) kind (partnerSerial s) s
  let s := castlingReports skip s
  flush { s with ktab := s.ktab.refillPins }

/-- Take over for an unplanned or fault-requested castling: the partner link carries no pair mode after it, and a CASTLE that waited completes (R546). -/
def takeOverAlone (kind : Nat) (s : State) : State :=
  let was := s.pair.castling
  let s := takeOver kind [] (s.setPair (fun p => { p with session := .none }))
  match was with
  | .requested (some key) => complete key (okay [(12, s.pair.epoch), (20, Role.code s.pair.role)]) s
  | _ => s

/-! ### Planned castling (R535, R536, R546) -/

/-- The takeover conditions of R534 as the active sees them. -/
def castleReady (s : State) : Bool :=
  s.pair.role == .active && s.pairMode && partnerWord s (fun w => bitAt w 24 && !bitAt w 25 && decide (wordPower w < 2))

/-- Has a lane dispatched a command: is it the one in progress (R135)? -/
def dispatched (s : State) (n key : Nat) : Bool := (s.lane n).queue.head? == some key
/-- Is a command past its point of no return: begun, or dispatched to its lane (R135)? -/
def pastPoint (s : State) (c : Inflight) : Bool := c.past || (match c.wait with | .lane n => dispatched s n c.key | _ => false)

/-- Withdraw a command's entropy request. -/
def dropEntropy (c : Inflight) (s : State) : State := match c.wait with | .entropy id => (rngWithdraw id s).2 | _ => s
/-- Withdraw the entropy request of a public-key job. -/
def dropJobRandom (job : Nat) (s : State) : State :=
  match (s.rng.queue ++ s.rng.waiting).find? (fun r => r.user == .job job) with
  | some r => (rngWithdraw r.id s).2
  | none => s
/-- Take back what a command that has not begun waits for: its entropy request, its jobs, its place in a lane's queue, its management request. -/
def withdraw (c : Inflight) (s : State) : State :=
  let s := dropCardJob c.key (dropWired c.key (dropLabelJob c.key (dropEntropy c s)))
  match c.wait with
  | .lane n => resumeIdle n c.entry.handle.toNat (dropLaneKeys [c.key] s)
  | .pke id => dropJobRandom id (stopJobs (fun j => j.key == some c.key) 0 s)
  | .request => dropRequest c.key s
  | .flash => flashLock s
  | _ => s

/-- Is a command stopped and handed over: not past its point, a dispatched PKE job, an export, an import (R535)? -/
def handsOver (s : State) (c : Inflight) : Bool :=
  !pastPoint s c || c.op == 0x0305 || c.op == 0x0306
    || (match s.pke.unit0 with | some j => j.key == some c.key | none => false) || (match s.pke.unit1 with | some j => j.key == some c.key | none => false)

/-- Start a planned castling: fetch stops, the stopped commands are set aside for HANDOVER. -/
def beginPlanned (key : Option Nat) (leaving : Bool) (s : State) : State :=
  let goes (c : Inflight) : Bool := key != some c.key && handsOver s c
  let out := s.cqe.inflight.filter goes
  let keys := out.map (·.key)
  let s := out.foldl (fun s c => withdraw c s) (stopJobs (fun j => match j.key with | some k => keys.contains k | none => false) 0 s)
  { s with
    cqe := { s.cqe with inflight := s.cqe.inflight.filter (fun c => !keys.contains c.key) }
    pair := { s.pair with castling := .planned key leaving, handing := s.pair.handing ++ out.map (fun c => ⟨c.src, c.op, c.entry⟩) } }

/-- Begin a planned castling if its conditions hold. -/
def tryPlanned (key : Option Nat) (leaving : Bool) (s : State) : State :=
  if castleReady s = true ∧ (s.cqe.inflight.any (fun c => c.op == 0x0009 && key != some c.key)) = false then beginPlanned key leaving s
  else match key with
    | some k => complete k (conflict 1) { s with pair := { s.pair with castling := .none } }
    | none => { s with pair := { s.pair with castling := .none } }

/-- The last running command has completed: SHELF_CTL is released, the lanes cleared, HANDOVER sent; this module is STANDBY, or SOLO if leaving (R535, R536); FW_ACTIVATE's warm reset follows (R610). -/
def plannedDrained (s : State) : State :=
  match s.pair.castling with
  | .planned key leaving =>
    if s.cqe.inflight.any (fun c => key != some c.key) then s
    else
      let s := sendPair (.handover s.pair.handing) s
      let s := if leaving then sendPair (.control .withdrawal) s else s
      let s := { s with
        lanes := clearLanes s.lanes
        journal := { s.journal with reserved := 0 }
        ktab := s.ktab.emptyCache
        vault := { s.vault with sessions := [] }
        power := { s.power with shelfDriven := false, withdrawing := s.power.withdrawing || leaving, drainDone := s.power.drainDone || leaving }
        pair := { s.pair with
          role := if leaving then .solo else .standby, handing := [], leaving := s.pair.leaving || leaving
          castling := match key with | some k => .requested (some k) | none => .none
          word := s.pair.word.map (fun w => (w &&& 0x0FFFFFFF) ||| 0x10000000), holdFrom := none } }
      postEvent 4 0 (if s.fault.mateAfterCastling then warmReset 2 true { s with fault := { s.fault with mateAfterCastling := false } }
        else if s.pair.activating then warmReset 1 false s else s)
  | _ => s

/-- A CASTLE completes with the epoch and this module's role, posted once its record, and so the ROLE record before it, is COMMITTED (R546). -/
def completeCastle (s : State) : State :=
  match s.pair.castling with
  | .requested (some key) =>
    let s := s.setCommand key (fun c => { c with entry := { c.entry with flags := c.entry.flags ||| 1 } })
    complete key (okay [(12, s.pair.epoch), (20, Role.code s.pair.role)]) { s with pair := { s.pair with castling := .none } }
  | .requested none => { s with pair := { s.pair with castling := .none } }
  | _ => s

/-! ### Mirrored records (R525, R543) -/

/-- Everything up to a record number is SECURED: shreds now SECURED leave their records EMPTY (R184, R279). -/
def secureUpTo (n : Nat) (s : State) : State :=
  let s := { s with journal := { s.journal with secured := max s.journal.secured (min (n + 1) s.journal.next) } }
  let keyed (i : Nat) (r : JRecord) : Bool := match r.body with | .complete _ _ _ _ _ ds => ds.any (fun d => match d with | .key j _ => i == j | _ => false) | _ => false
  let done (i : Nat) : Bool := match s.journal.recs.find? (keyed i) with | some r => decide (r.number ≤ n) | none => true
  let gone := s.ktab.records.filter (fun p => p.2.state == .shredded && done p.1)
  { s with ktab := gone.foldl (fun k p => k.applyKey s.indexKey p.1 (Ktab.emptied p.2 s.clock.time)) s.ktab }

/-- What a mirrored record does beyond being stored. -/
def applyMirrored (r : JRecord) (s : State) : State :=
  match r.body with
  | .complete seq tag _ _ _ ds =>
    let s := applyDeltas r.number r.time s ds
    { s with cqe := { s.cqe with held := s.cqe.held.map (fun (h : Held) =>
        if h.src.code = r.source ∧ h.seq = seq ∧ h.comp.tag = tag then { h with remote := false, compRec := some r.number } else h) } }
  | .accept seq _ _ _ _ =>
    { s with cqe := { s.cqe with held := s.cqe.held.map (fun (h : Held) =>
        if h.kind = HeldKind.interim ∧ h.src.code = r.source ∧ h.seq = seq then { h with remote := false, accRec := none } else h) } }
  | .reserve kh h => { s with ktab := s.ktab.raiseHwm (khIndex kh) h }
  | .queueCkpt kind _ slots => { s with journal := { s.journal with qckptSlots := slots, qckptKind := kind, periodSlots := if kind = 0 then slots else s.journal.periodSlots } }
  | .image n k f l d => { s with journal := { s.journal with images := s.journal.images ++ [⟨n.toNat, k, f.toNat - 1, f.toNat, l.toNat, d, false⟩] } }
  | .secured n h =>
    secureUpTo h.toNat { s with journal := { s.journal with images := s.journal.images.map (fun (i : Image) => if i.number = n.toNat then { i with acked := true } else i) } }
  | .checkpoint .. => { s with journal := { s.journal with lastCkpt := some r.number } }
  | .role e new _ _ =>
    let s := s.setPair (fun p => { p with epoch := max p.epoch e.toNat })
    if new = Config.serial then s else completeCastle s
  | _ => s

/-- Store the next record of the active, with rflags bit 0, and apply it (R525): strictly in number order. Both modules hold it then: it is COMMITTED (R126, R261). -/
def storeMirrored (s : State) (r : JRecord) : State :=
  if r.number ≠ s.journal.next then s
  else
    let before : Hash := match r.body with | .brk .. => 0 | _ => s.journal.chain
    let s := { s with journal := { s.journal with
      recs := { r with mirrored := true } :: s.journal.recs
      chain := Config.sha3 (leBytes 32 before.toNat ++ recordBytesOf s.journalKey false r)
      next := s.journal.next + 1
      committed := max s.journal.committed (s.journal.next + 1) } }
    applyMirrored r s

/-- A message of types 2 to 8 with a bad tag: discarded, source 191 (R529). -/
def badMessage (s : State) : State := s.raiseAt 191 .link 0 0
/-- May a tagged message be taken: session keyed, link usable? -/
def pairHears (s : State) : Bool := s.pair.session == .keyed && linkUsable s && !s.power.safe && s.power.booted && !bitAt (s.power.pllLost.setWidth 32) 5

/-- JOURNAL: a standby stores and acknowledges; an active journals the standby's own records under its numbering (R521, R525). -/
def journalMessage (recs : List JRecord) (tagOk : Bool) (s : State) : State :=
  if pairHears s = false then s
  else if tagOk = false then badMessage s
  else
    let s := s.setPair (fun p => { p with rxCount := p.rxCount + 1 })
    match s.pair.role with
    | .standby => let s := recs.foldl storeMirrored s; sendPair (.ack (s.journal.next - 1)) s
    | .active => recs.foldl (fun s r => appendAs r.handle r.source r.body s) s
    | _ => s

/-- ACK: records below the number are held by the partner (R123, R126). The longest acknowledgement time is a free value. -/
def ackMessage (n : Nat) (tagOk : Bool) (s : State) : State :=
  if pairHears s = false then s
  else if tagOk = false then badMessage s
  else
    let late := s.fresh.toNat % 65536
    let s := s.drew
    commit { s with
      pair := { s.pair with rxCount := s.pair.rxCount + 1 }
      cqe := { s.cqe with mirrorMax := max s.cqe.mirrorMax late, lateAcks := s.cqe.lateAcks.filter (fun k => decide (n < k)) }
      journal := { s.journal with acked := max s.journal.acked (min (n + 1) s.journal.next) } }

/-- An acceptance record stays unacknowledged for 100 µs: source 182; its completions wait on (R124). -/
def acceptLate (n : Nat) (s : State) : State :=
  if s.pairMode = true ∧ s.journal.acked ≤ n ∧ n < s.journal.next ∧ s.cqe.lateAcks.contains n = false then
    ({ s with cqe := { s.cqe with lateAcks := s.cqe.lateAcks ++ [n] } }).raise 182
  else s

/-! ### Freeze (R538, R539) -/

/-- The freeze lifts: the held SHELF changes can go to the pins. -/
def liftFreeze (s : State) : State :=
  if s.pair.frozen then { s with pair := { s.pair with frozen := false }, power := { s.power with shelfDriven := s.power.shelfDriven || s.pair.role == .active || s.pair.role == .solo } }
  else s

/-- A frozen module gives way: a boundary on each queue, V the last entry the partner acknowledged before the silence, then a warm reset (R539). -/
def giveWay (s : State) : State :=
  let n := s.pair.freezeAck
  let s := { s with
    cqe := { s.cqe with inflight := [], held := [] }
    lanes := { s.lanes with streams := [] } }
  let one (s : State) (q : Queue) : State := boundaryOf (BitVec.ofNat 16 q.qid) (vouched s (BitVec.ofNat 16 q.qid) n) 2 3 s.clock.time s
  warmReset 1 false (s.cqe.queues.foldl one s)

/-- A freeze begins: the keys of that moment get no new block, a reservation the partner had not acknowledged is never used, SHELF_CTL is left to the keepers (R538). -/
def beginFreeze (acked : Nat) (s : State) : State :=
  let keys := s.ktab.records.map (fun p => (p.1, p.2.gen))
  let lost := s.ktab.reserves.filter (fun r => decide (acked ≤ r.1))
  { s with
    pair := { s.pair with frozen := true, freezeAck := acked, freezeKeys := keys }
    ktab := { s.ktab with
      reserves := s.ktab.reserves.filter (fun r => decide (r.1 < acked))
      lostBlocks := lost.foldl (fun l r => assocSet (khIndex r.2.1) r.2.2 l) s.ktab.lostBlocks }
    power := { s.power with shelfDriven := false } }

/-! ### Partner lost (R532) -/

/-- Both paths are silent. -/
def partnerLost (s : State) : State :=
  let leaving := partnerWord s (fun w => bitAt w 25)
  let s := if leaving then s else s.raiseAt 190 .link 0 0
  let freeze := !leaving && !s.pair.prsntHigh
  let go := takeoverOk s
  let quiet (p : Pair) : Pair := { p with session := .none, peer := none }
  let frozen (acked : Nat) (s : State) : State := if freeze = true ∧ s.pair.frozen = false then beginFreeze acked s else s
  match s.pair.role with
  | .standby => if go then takeOverAlone 4 s else frozen s.journal.next (s.setPair (fun p => { quiet p with role := .solo }))
  | .syncing =>
    let s := { s with ktab := Ktab.reset, journal := { s.journal with manifests := [], staged := [] } }
    frozen 0 (s.setPair (fun p => { quiet p with role := .solo, progress := 0 }))
  | .active => flush (frozen s.journal.acked (s.setPair quiet))
  | .solo => frozen s.journal.acked (s.setPair quiet)
  | .electing => s.setPair quiet

/-- A path carries no valid heartbeat for 4 ms (R531, R532). -/
def pathFalls (path : HbPath) (s : State) : State :=
  let was := s.pair.pathA || s.pair.pathB
  let dormant := partnerWord s (fun w => wordPower w != 0)
  let s := match path with
    | .a => s.setPair (fun p => { p with pathA := false })
    | .b => s.setPair (fun p => { p with pathB := false })
  if was = false then s
  else if s.pair.pathA ∨ s.pair.pathB then
    match path with
    | .a => if dormant then s else s.raiseAt 189 .link 1 0
    | .b => s.raiseAt 189 .link 2 0
  else partnerLost s

/-- PATH_SILENT: in RUN as above. In STEEP and LAGER path A is not there to fall silent, and path B's silence is the wake source of R76: the module wakes if that allows it, and then acts on the loss (R79, R534). -/
def pathSilent (path : HbPath) (s : State) : State :=
  if s.power.supply = .dark ∨ s.power.supply = .failHold then s
  else if s.power.mode = .run then pathFalls path s
  else match path with
    | .a => s
    | .b =>
      if s.pair.pathB = false then s
      else
        let steep := s.power.mode == .steep
        let s := dormantEvent .heartbeat 0 (s.setPair (fun p => { p with pathB := false }))
        if steep then partnerLost s else s

/-! ### Heartbeats (R530, R531) -/

/-- The bytes of a frame on path B: preamble, delimiter, the word, its CRC-8 (R531). -/
def pathBFrame (w : Word) : List Byte := [0x55, 0xD5] ++ leBytes 4 w.toNat ++ [crc8 (leBytes 4 w.toNat)]

/-- Send the heartbeat word: both paths in RUN, path B alone when dormant; none during a kiln (R79, R311, R530). -/
def heartbeatTick (s : State) : State :=
  if s.kiln.latch = true ∨ s.power.supply ≠ .running then s
  else
    let w := heartbeatWord s
    let p := { s.pair with txHb := (s.pair.txHb + 1) % 65536, ageA := satInc 16 s.pair.ageA, ageB := satInc 16 s.pair.ageB }
    let p := if s.power.mode = .run ∧ linkUsable s = true then p.send (.heartbeat .a w) else p
    { s with pair := { p.send (.heartbeat .b w) with frameB := pathBFrame w } }

/-- The context of the capsule share key for the partner: the sender's serial, custodian id 0xFF (R292, R541). -/
def partnerShareKey (ss : Hash) (sender : QWord) : Hash := kdf32 ss "CXM SH" (leBytes 16 sender.toNat ++ [0xFF])
/-- The custody root as a capsule to the partner's transport key (R541). -/
def partnerCapsule (s : State) : Option (List Byte) :=
  match s.vslot 0, s.pair.peer with
  | some cr, some m =>
    let ek := (chainTransport m.chain).take 1568
    some (kemCiphertext ek s.freeCtr
      ++ padTo 48 ((Config.kwWrap (partnerShareKey (Config.kemSecret ek s.freeCtr) Config.serial) ([0] ++ leBytes 32 cr.toNat ++ leBytes 7 0)).take 48))
  | _, _ => none
/-- The custody root in a capsule from the partner: nothing where it does not open (R541). -/
def openCapsule (s : State) (c : List Byte) : Option Hash :=
  match kemOpen s.pairs.transportKem (c.take 1568) with
  | none => none
  | some ss => match Config.kwUnwrap (partnerShareKey ss (partnerSerial s)) (slice c 1568 48) with
    | some b => if fieldOf b 0 1 = 0 then some (BitVec.ofNat 256 (fieldOf b 1 32)) else none
    | none => none
/-- The resynchronisation image of this module as it stands; the custody root goes with it for a partner that lacks it. DESIGN CHOICE (log 147) (R540, R541) -/
def syncImageOf (s : State) : SyncImage where
  lastRec := s.journal.next - 1
  chain := s.journal.chain
  crCheck := s.nvm.crCheck
  crCapsule := partnerCapsule s
  pairTag := s.pairTag
  held := s.ktab.hold
  records := s.ktab.records
  manifests := s.journal.manifests.map (fun m => (m.oid, BitVec.ofNat 64 m.version, m.retainUntil, m.owner, m.segs))
  later := []
  progress := 100

/-- Start to synchronise with an active partner: this module drives SHELF_CTL no longer (R64, R540). -/
def beginSync (s : State) : State :=
  { s.setPair (fun p => { p with role := .syncing, progress := 0 }) with power := { s.power with shelfDriven := false } }

/-- What the partner's role in a valid word makes this module do (R520, R539, R540). -/
def hearRole (w : Word) (s : State) : State :=
  let r := wordRole w
  if s.pair.castling = .fault ∧ r = 1 then warmReset 2 true s
  else if s.pair.frozen ∧ (r = 0 ∨ r = 3) then
    let s := liftFreeze s
    if s.pair.role = .solo ∧ s.ktab.present = true then postEvent 4 0 (s.setPair (fun p => { p with role := .active })) else s
  else if s.pair.frozen ∧ r = 1 ∧ (bitAt w 22 = false ∨ (s.pair.role = .active ∧ (partnerSerial s).toNat < Config.serial.toNat)) then giveWay s
  else match s.pair.role with
    | .electing => if r = 1 then beginSync s else s
    | .solo =>
      if r = 1 then postEvent 4 0 (beginSync s)
      else if (r = 0 ∨ r = 3) ∧ s.ktab.present = true then postEvent 4 0 (s.setPair (fun p => { p with role := .active }))
      else s
    | .active => if r = 3 ∧ s.pair.session = .keyed ∧ s.pair.syncing = false then sendPair (.sync (syncImageOf s)) (s.drew.setPair (fun p => { p with syncing := true })) else s
    | _ => s

/-- A partner heartbeat word on a path: valid when its CRC passes, its reserved fields are zero and its count is new (R531). -/
def heartbeat (path : HbPath) (w : Word) (crcOk : Bool) (s : State) : State :=
  let prev := match path with | .a => s.pair.countA | .b => s.pair.countB
  let n := fieldAt w 15 0
  let heard := match path with | .a => linkUsable s | .b => true
  if crcOk = false ∨ fieldAt w 21 16 ≠ 0 ∨ 4 < wordRole w ∨ wordPower w = 3 ∨ prev = some n ∨ heard = false ∨ s.power.supply ≠ .running then s
  else
    let s := match path with
      | .a => s.setPair (fun p => { p with word := some w, countA := some n, pathA := true, ageA := 0 })
      | .b => s.setPair (fun p => { p with word := some w, countB := some n, pathB := true, ageB := 0 })
    let s := if s.power.mode = .run then s.line 15 else s
    if s.power.booted = true ∧ s.power.safe = false then hearRole w s else s

/-! ### Sessions and election (R522, R529, R544) -/

/-- The partner's HELLO: its chain checked under the enrolled identity; the answer signs the partner's nonce and this module's serial and carries an encapsulation to the chain's transport key (R529, R544). -/
def hello (m : Hello) (s : State) : State :=
  if linkUsable s = false ∨ s.power.booted = false ∨ s.power.safe = true then s
  else if s.nvm.partner = some m.serial ∧ chainOk m.chain m.serial = true ∧ helloKeys m = s.nvm.partnerRec.drop 16 then
    let msg := leBytes 32 m.nonce.toNat ++ leBytes 16 Config.serial.toNat
    let sigs := s.attestSign msg s.freeCtr
    let ct := kemCiphertext ((chainTransport m.chain).take 1568) s.freeCtr
    sendPair (.helloProof (sigs.take 96) (sigs.drop 96) ct)
      (s.drew.setPair (fun p => { p with peer := some m, session := .hello, encapNo := s.freeCtr, txCount := 0, rxCount := 0, syncing := false }))
  else (s.setPair (fun p => { p with peer := none, session := .none })).raiseAt 191 .link 0 0

/-- HELLO_PROOF: both signatures over this module's nonce and the partner's serial; then the session key (R529), and the preferred record for a partner that was not heard when it was written (R547). -/
def helloProof (ecdsa mldsa ct : List Byte) (s : State) : State :=
  match s.pair.session, s.pair.peer with
  | .hello, some m =>
    let msg := leBytes 32 s.pair.nonce.toNat ++ leBytes 16 m.serial.toNat
    match Config.sigOk (helloKeys m) msg (ecdsa ++ mldsa), kemOpen s.pairs.transportKem ct with
    | true, some mine =>
      let yours := Config.kemSecret ((chainTransport m.chain).take 1568) s.pair.encapNo
      let low := decide (Config.serial.toNat < m.serial.toNat)
      let n1 := leBytes 32 (if low then s.pair.nonce else m.nonce).toNat
      let n2 := leBytes 32 (if low then m.nonce else s.pair.nonce).toNat
      let key := if low then kdf32 yours "CXM PS" (leBytes 32 mine.toNat ++ n1 ++ n2)
                 else kdf32 mine "CXM PS" (leBytes 32 yours.toNat ++ n1 ++ n2)
      let s := s.setPair (fun p => { p with session := .keyed, sessionKey := key })
      match s.nvm.preferred with | some r => sendPair (.control (.preferred (some r))) s | none => s
    | _, _ => (s.setPair (fun p => { p with peer := none, session := .none })).raiseAt 191 .link 0 0
  | _, _ => s

/-- Of two optional last-active records, the one with the higher epoch. -/
def higherRecord (a b : Option LastActive) : Option LastActive :=
  match a, b with
  | some x, some y => if x.epoch < y.epoch then some y else some x
  | some x, none => some x
  | none, y => y

/-- Does this module win the election against a partner's HELLO (R522 rule 2)? -/
def electionWon (s : State) (m : Hello) : Bool :=
  let named := match higherRecord (lastActive s) m.lastActive with
    | some r => if r.serial = Config.serial then some true else if r.serial = m.serial then some false else none
    | none => none
  match named with
  | some b => b
  | none => if preferredUnit s != m.preferred then preferredUnit s else decide (Config.serial.toNat < m.serial.toNat)

/-- The epoch after an election. -/
def nextEpoch (s : State) (m : Option Hello) : Nat :=
  let e (r : Option LastActive) : Nat := match r with | some x => x.epoch | none => 0
  max s.pair.epoch (max (e (lastActive s)) (e (m.bind (·.lastActive)))) + 1

/-- The module elects its role (R520, R522). -/
def election (s : State) : State :=
  let solo (s : State) : State := postEvent 4 0 { s with pair := { s.pair with role := .solo }, power := { s.power with shelfDriven := true } }
  let sync (s : State) : State := postEvent 4 0 (beginSync s)
  if s.pair.role ≠ .electing ∨ s.power.booted = false ∨ s.power.safe = true ∨ bitAt (pairCtl s) 0 = false then s
  else if s.nvm.partner.isNone then solo s
  else match s.pair.session, s.pair.peer with
    | .keyed, some m =>
      if m.role = .active ∨ m.role = .solo then sync s
      else if electionWon s m then becomeActive (nextEpoch s (some m)) 1 0 s
      else sync s
    | _, _ =>
      if s.pair.prsntHigh then solo s
      else becomeActive (nextEpoch s none) 1 0 (beginFreeze s.journal.acked s)

/-! ### Control messages, resynchronisation, repair (R213, R535, R540, R541, R547) -/

/-- The preferred record with the higher epoch counts (R547). -/
def adoptPreferred (r : Option PrefRecord) (s : State) : State :=
  let e (x : Option PrefRecord) : Nat := match x with | some y => y.epoch + 1 | none => 0
  if e s.nvm.preferred ≤ e r ∨ r.isNone = true then { s with nvm := { s.nvm with preferred := r } } else s

/-- A CONTROL message (R529). -/
def controlMessage (m : CtlMsg) (tagOk : Bool) (s : State) : State :=
  if pairHears s = false then s
  else if tagOk = false then badMessage s
  else
    let s := s.setPair (fun p => { p with rxCount := p.rxCount + 1 })
    match m with
    | .castleRequest => if castlingRuns s then s else tryPlanned none false s
    | .castleGo => if takeoverOk s then takeOverAlone 3 s else s
    | .withdrawal => s.setPair (fun p => { p with word := p.word.map (fun w => w ||| bit32 25 true) })
    | .synced =>
      if s.pair.role = .active then
        let s := s.setPair (fun p => { p with syncing := false, word := p.word.map (fun w => (w &&& 0x0FFFFFFF) ||| 0x20000000) })
        append 0xFFFF (.role (BitVec.ofNat 64 s.pair.epoch) Config.serial 0 6) { s with journal := { s.journal with acked := s.journal.next } }
      else s
    | .preferred r => adoptPreferred r s

/-- Does the module await its partner's custody root: an enrolment with CR source 1 runs, or a KEYLESS_EXIT grant of target 0 is granted (R294, R541)? -/
def takesCr (s : State) : Bool :=
  s.cqe.inflight.any (fun c => c.op == 0x0604 && c.wait == .running)
    || (s.lifecycle == .keyless && s.vault.sessions.any (fun x => x.granted && !x.used && x.cls == 5 && x.target == 0))
/-- The waiting enrolment goes on, and the grant is consumed. -/
def enrolGoesOn (s : State) : State :=
  { s with
    cqe := { s.cqe with inflight := s.cqe.inflight.map (fun c => if c.op = 0x0604 ∧ c.wait = .running then { c with wait := .ready } else c) }
    vault := { s.vault with sessions := s.vault.sessions.map (fun x => if x.granted && x.cls == 5 && x.target == 0 then { x with used := true } else x) } }

/-- A SYNC message: refused on a different custody root; at 100 % the image is imported, the later records applied and the synced notice sent (R540, R541). -/
def syncMessage (img : SyncImage) (tagOk : Bool) (s : State) : State :=
  if pairHears s = false ∨ s.pair.role ≠ .syncing then s
  else if tagOk = false then badMessage s
  else
    let s := match img.crCapsule.bind (openCapsule s) with
      | some cr =>
        if crPresent s = false ∧ takesCr s = true ∧ (s.lifecycle = Lifecycle.blank ∨ checkValue cr = s.nvm.crCheck) then
          enrolGoesOn (armField <| adoptCr s.fresh cr { s.drew with nvm := { s.nvm with pairTag := some (s.nvm.pairTag.getD img.pairTag) } })
        else s
      | none => s
    if s.nvm.crCheck ≠ img.crCheck ∨ s.nvm.pairTag ≠ some img.pairTag then s.raiseAt 191 .link 0 0
    else if img.progress < 100 then s.setPair (fun p => { p with progress := img.progress })
    else
      let k := img.records.foldl (fun k r => k.applyKey s.indexKey r.1 r.2) { Ktab.reset with present := true, hold := img.held }
      let ms : List Manifest := img.manifests.map (fun m => ⟨m.1, m.2.1.toNat, m.2.2.1, m.2.2.2.1, 0, 0, img.lastRec, m.2.2.2.2⟩)
      let n := img.lastRec + 1
      let s := { s with
        ktab := k
        journal := { s.journal with
          recs := [], baseChain := img.chain, chain := img.chain, next := n, flushed := n, committed := n, secured := n, acked := n, tailBytes := 0
          manifests := ms, staged := [], reserved := 0 }
        pair := { s.pair with progress := 100 } }
      let s := img.later.foldl storeMirrored s
      let s := s.setPair (fun p => { p with role := .standby })
      postEvent 4 0 (sendPair (.ack (s.journal.next - 1)) (sendPair (.control .synced) s))

/-- REPAIR: the record is written and leaves quarantine (R213). -/
def repairMessage (i : Nat) (r : KeyRecord) (tagOk : Bool) (s : State) : State :=
  if pairHears s = false then s
  else if tagOk = false then badMessage s
  else { s with ktab := { s.ktab.putRecord i r with quarantine := s.ktab.quarantine.filter (· != i) } }

/-- HANDOVER: the standby takes control and runs the entries in acceptance order, without new acceptance records (R535). -/
def handoverMessage (es : List Handed) (tagOk : Bool) (s : State) : State :=
  if pairHears s = false ∨ takeoverOk s = false then s
  else if tagOk = false then badMessage s
  else
    let key := s.pair.castling
    let s := takeOver 2 (es.map (fun h => (h.source.code, h.entry.seq))) s
    let s := s.setPair (fun p => { p with word := p.word.map (fun w => (w &&& 0x0FFFFFFF) ||| 0x20000000) })
    let add (s : State) (h : Handed) : State :=
      let acc := (entriesSince h.source.code s.journal.recs).reverse.find? (fun a => a.seq == h.entry.seq && a.tag == h.entry.tag)
      let c : Inflight := ⟨s.cqe.nextKey, acc.map (·.number), h.source, h.opcode, h.entry, 0xFFFF, .start, false, none, s.clock.lfclk, 0⟩
      { s with cqe := { s.cqe with inflight := s.cqe.inflight ++ [c], nextKey := s.cqe.nextKey + 1 } }
    completeCastle (es.foldl add { s with pair := { s.pair with castling := key } })

/-! ### Link (R528, R529) -/

/-- One replay of the flits not acknowledged: counted, source 188; after eight of one flit the link retrains. -/
def linkReplay (advanced : Bool) (s : State) : State :=
  if s.pair.link ≠ .up ∨ s.pair.flits.isEmpty = true then s
  else
    let n := if advanced then 1 else s.pair.sameReplays + 1
    let s := (s.setPair (fun p => { p.send .replay with replays := satInc 16 p.replays, sameReplays := n })).raiseAt 188 .link 0 0
    if 8 ≤ n then (s.setPair (fun p => { p with sameReplays := 0, link := .training })).raiseAt 188 .link 0 0 else s

/-- The bytes of a message with its header and, for types 2 to 8, its tag (R529); CONTROL, SYNC and REPAIR as this model lays them out. PRESUMED (log 144) -/
def messageBody (s : State) : PairOut → List Byte
  | .hello m => leBytes 16 m.serial.toNat ++ m.chain ++ lastActiveBytes m.lastActive ++ [BitVec.ofNat 8 (Role.code m.role), if m.preferred then 1 else 0] ++ leBytes 32 m.nonce.toNat
  | .journal rs => rs.flatMap (recordBytesOf s.journalKey false)
  | .ack n => leBytes 8 n
  | .heartbeat _ w => leBytes 4 w.toNat
  | .control c => padTo 32 (match c with
    | .castleRequest => [1]
    | .castleGo => [2]
    | .withdrawal => [3]
    | .synced => [4]
    | .preferred (some r) => [5, 0, 0, 0, 0, 0, 0, 0] ++ leBytes 16 r.serial.toNat ++ leBytes 8 r.epoch
    | .preferred none => [6])
  | .sync g => padTo 64 (leBytes 8 g.lastRec ++ leBytes 32 g.chain.toNat ++ leBytes 8 g.crCheck.toNat ++ leBytes 4 g.pairTag.toNat ++ [if g.held then 1 else 0, BitVec.ofNat 8 g.progress])
      ++ g.crCapsule.getD [] ++ g.records.flatMap (fun r => leBytes 4 r.1 ++ leBytes 4 0 ++ recordBytes r.2 r.2.dek)
      ++ g.manifests.flatMap (fun m => manifestBytes (syncManifest m)) ++ g.later.flatMap (recordBytesOf s.journalKey false)
  | .repair i r => leBytes 4 i ++ leBytes 4 0 ++ recordBytes r r.dek
  | .handover es => es.flatMap (fun h => entryBytes h.opcode h.entry)
  | .helloProof a b c => a ++ b ++ c
  | .nak => []
  | .replay => []
/-- The tag of a message: AES-256-GMAC under the session key, its IV the direction and the message's count (R529). -/
def messageTag (s : State) (sent : Bool) (count : Nat) (msg : List Byte) : List Byte :=
  let low := decide (Config.serial.toNat < (partnerSerial s).toNat)
  padTo 16 ((Config.gmac s.pair.sessionKey (leBytes 4 (if low == sent then 0 else 1) ++ leBytes 8 count) msg).take 16)
/-- A message as it travels. -/
def messageBytes (s : State) (count : Nat) (m : PairOut) : List Byte :=
  let body := messageBody s m
  let b := leBytes 1 ((m.type).getD 0) ++ [0, 0, 0] ++ leBytes 4 body.length ++ body
  if m.tagged then b ++ messageTag s true count b else b
/-- The flits on their way, oldest first, each with the present acknowledgement (R527, R528). -/
def flitsSent (s : State) : List (List Byte) :=
  (s.pair.flits.take 512).mapIdx (fun i p =>
    let bytes := match p.msg with | .nak => [] | m => slice (messageBytes s p.count m) (52 * p.part) 52
    let last := decide (p.part + 1 = p.msg.flits)
    flitBytes (s.pair.txAck + 1 + BitVec.ofNat 16 i) (s.pair.rxNext - 1) (if p.msg = .nak then 2 else 1)
      (if p.msg = .nak then 0 else (if p.part = 0 then 1 else 0) + (if last then 2 else 0)) bytes.length bytes)

/-- A message that came whole in flits given by their bytes: ACK and HEARTBEAT have their effect; the others have it through rows of their own. DESIGN CHOICE (log 145) -/
def messageArrives (b : List Byte) (s : State) : State :=
  let n := 8 + fieldOf b 4 4
  let tagOk := slice b n 16 == messageTag s false s.pair.rxCount (b.take n)
  match fieldOf b 0 1 with
  | 3 => ackMessage (fieldOf b 8 8) tagOk s
  | 4 => if tagOk then heartbeat .a (BitVec.ofNat 32 (fieldOf b 8 4)) true s else badMessage s
  | _ => s

/-- A flit arrives, 64 bytes (R527, R528): one with a bad CRC, a reserved field or a number out of turn is discarded with one NAK for the gap; a NAK has the flits from its acknowledgement on replayed; the parts of a message are put together. -/
def flitArrives (f : List Byte) (s : State) : State :=
  if s.pair.link ≠ .up then s
  else if f.length ≠ 64 ∨ crc32 (f.take 60) ≠ BitVec.ofNat 32 (fieldOf f 60 4) then
    s.setPair (fun p => linkGap { p with crcErr := satInc 16 p.crcErr })
  else
    let kind := fieldOf f 4 1
    let seq : BitVec 16 := BitVec.ofNat 16 (fieldOf f 0 2)
    let expected := if kind = 0 then s.pair.rxNext - 1 else s.pair.rxNext
    if flitFormed f = false ∨ seq ≠ expected then s.setPair linkGap
    else
      let old := s.pair.txAck
      let s := s.setPair (fun p => { takeFlitAck (BitVec.ofNat 16 (fieldOf f 2 2)) p with nakSent := false, rxNext := if kind = 0 then p.rxNext else p.rxNext + 1 })
      match kind with
      | 1 =>
        let b := (if bitAt (BitVec.ofNat 32 (fieldOf f 5 1)) 0 then [] else s.pair.rxBuf) ++ slice f 8 (fieldOf f 6 1)
        if bitAt (BitVec.ofNat 32 (fieldOf f 5 1)) 1 then messageArrives b (s.setPair (fun p => { p with rxBuf := [] }))
        else s.setPair (fun p => { p with rxBuf := b })
      | 2 => linkReplay (s.pair.txAck != old) s
      | _ => s

/-- The partner link goes down (R532). -/
def partnerLinkDown (s : State) : State := linkFalls s

/-- The partner link trains: flit numbers begin at 1 and HELLO goes out at once (R529). DESIGN CHOICE for the first number (log 145) -/
def partnerLinkUp (s : State) : State :=
  if s.isFenced 4 0 ∨ bitAt (pairCtl s) 0 = false ∨ s.power.booted = false then s
  else
    let s := (s.setPair (fun p => { p with
      link := .up, session := .none, peer := none, nonce := s.fresh, txSeq := 0, rxNext := 1, txAck := 0, flits := [], rxBuf := [], nakSent := false, sameReplays := 0 })).drew
    sendPair (.hello (helloOf s)) s

/-! ### Lever and presence (R48, R49, R539, R542) -/

/-- PAIR_PRSNT_N high for 50 ms lifts a freeze. -/
def pairPrsntHigh (s : State) : State := liftFreeze (s.setPair (fun p => { p with prsntHigh := true }))

/-- Is the revertive return on its way: the preferred standby with all its conditions (R542)? -/
def revertive (s : State) : Bool :=
  s.pair.role == .standby && preferredUnit s && healthy s && s.power.mode == .run && !s.power.leverOpen && bitAt (pairCtl s) 1
/-- Seconds of the hold-off left: a second of LFCLK each, so that SET_TIME does not move them. DESIGN CHOICE (log 146) -/
def holdoffLeft (s : State) : Nat := fieldAt (pairCtl s) 19 4 - (match s.pair.holdFrom with | some t => (s.clock.lfclk - t) / 32768 | none => 0)
/-- The hold-off begins when its conditions come together and is forgotten when one fails. -/
def settleHold (s : State) : State := s.setPair (fun p => { p with holdFrom := if revertive s then some (p.holdFrom.getD s.clock.lfclk) else none })

/-- The preferred standby asks for a planned castling once its hold-off is over (R542). -/
def revertiveReturn (s : State) : State :=
  if revertive s = true ∧ holdoffLeft s = 0 ∧ s.pair.castling = .none then
    sendPair (.control .castleRequest) (s.setPair (fun p => { p with castling := .requested none }))
  else s

/-- Does an FW_ACTIVATE run, which bars a castling (R610)? -/
def activateRuns (s : State) : Bool := s.cqe.inflight.any (fun c => c.op == 0x0009)
/-- A castling that a withdrawal has to wait for: one of this module in progress, also while it drains, or one that an FW_ACTIVATE bars (R48, R610). -/
def leverWaits (s : State) : Bool :=
  castlingRuns s || (match s.pair.castling with | .draining _ => true | _ => false) || (s.pair.role == .active && castleReady s && activateRuns s)

/-- What R48 has the module do with its lever open, by its role. The table has no row for ELECTING and SYNCING: they act as Solo. DESIGN CHOICE (log 114) -/
def leverAct (s : State) : State :=
  let s := { s with power := { s.power with leverDue := false } }
  match s.pair.role with
  | .active => if castleReady s then beginPlanned none true s else { s with power := { s.power with withdrawing := true } }
  | .standby => sendPair (.control .withdrawal) (s.setPair (fun p => { p with leaving := true }))
  | _ => { s with power := { s.power with withdrawing := true } }

/-- Is the withdrawal's action due that had to wait? -/
def leverReady (s : State) : Bool := s.power.leverDue && s.power.leverOpen && !s.kiln.latch && !leverWaits s

/-- LEVER_N rises (R48): in LAGER recorded only; a module that has not booted, or whose castling runs, acts once it can. DESIGN CHOICE for the start-up (log 114) -/
def leverRise (s : State) : State :=
  let s := { s with power := { s.power with leverOpen := true } }
  if s.kiln.latch = true ∨ s.power.supply = .failHold ∨ s.power.supply = .dark then s
  else
    let s := { s with power := { s.power with leverDue := true } }
    match s.power.mode with
    | .lager => recordWake .lever 0 s
    | _ =>
      let s := if s.power.mode = .steep then dormantEvent .lever 0 s else if s.power.booted then ringNote .lever 0 s else s
      if s.power.booted = false ∨ leverWaits s = true then s else leverAct s

/-- LEVER_N closed again: new commands are accepted; a castling still running no longer ends in a withdrawal (R45, R49). -/
def leverClosed (s : State) : State :=
  { s with
    power := { s.power with leverOpen := false, leverDue := false, withdrawing := false, drainDone := false }
    pair := { s.pair with leaving := false, castling := match s.pair.castling with | .planned key _ => .planned key false | c => c } }

/-- The 100 ms of a solo withdrawal are over: the lanes stop and the queue checkpoint is written (R48). -/
def withdrawalTimeout (s : State) : State :=
  if s.power.withdrawing = true ∧ s.power.drainDone = false then
    queueCheckpoint 0 (flush { s with power := { s.power with drainDone := true } })
  else s

/-- SHELF deltas reach the pins: in pair mode once the partner holds their record, otherwise at once; not while frozen (R526, R538). -/
def settleShelf (s : State) : State :=
  let ready (w : Nat × Word) : Bool := !s.pairMode || decide (w.1 < s.journal.acked)
  if s.pair.frozen ∨ (s.pair.role ≠ .active ∧ s.pair.role ≠ .solo) then s
  else match (s.pair.shelfWait.filter ready).getLast? with
    | none => s
    | some w => { s with
        power := { s.power with shelfCtl := w.2, shelfDriven := true }
        pair := { s.pair with shelfWait := s.pair.shelfWait.filter (fun x => !ready x) } }

end Sys2Proof.Machine
end

