-- ==== Sys2Proof/Machine/KeyCmds.lean ====
section
/-! DEFINITION. The bodies of the key commands (06_object_key_table.md, R184 to R210; 09_vault_kiln_lifecycle.md, R308, R309). -/

namespace Sys2Proof.Machine

/-- Run a body that needs random bytes: at once while the DRBG is seeded, else after a request to it, which its timeout ends (R188, R360). `again`: the request has been served. -/
def withRandom (again : Bool) (key len : Nat) (body : State → State) (s : State) : State :=
  if again || rngReady s then body s
  else
    let (id, s) := rngAsk (.command key) 0 len 0 s
    s.waitOn key (.entropy id)

/-- Is KTAB out of use? -/
def ktabFenced (s : State) : Bool := s.isFenced 5 0

/-- The delta of a consumed grant (R307), when the command runs under one. -/
def grantDelta (s : State) (key : Nat) (old new : DWord) : List Delta :=
  if (grantOf s key).isSome then [custodyDelta s key 2 old new 0] else []

/-- A new ACTIVE record for an OID at an allocated index and generation (R180, R184). -/
def newRecord (s : State) (oid : Oid) (gen : Nat) (policy prev : Word) : KeyRecord :=
  { emptyRecord gen with
    oid := oid, dek := s.fresh, fixed := put32 0 (s.pairTag.toNat * 2 ^ 11 + gen), state := .active, policy := policy
    created := s.clock.time, changed := s.clock.time, prevKh := prev, fresh := true }

/-- KEY_CREATE (R184, R187, R188, R190, R210). -/
def keyCreate (again : Bool) (key : Nat) (e : Entry) (s : State) : State :=
  let oid : Oid := BitVec.ofNat 128 (e.param 8 16)
  if ktabFenced s then complete key (unitFenced 5 0) s
  else withOid key oid (fun found s =>
    if found.isSome then complete key (conflict 0) s
    else match s.ktab.allocate none with
      | none => complete key (answer 0x3002 []) s
      | some (i, g) =>
        if s.ktab.indexRoom s.indexKey oid = false then (complete key (answer 0x3002 []) s).raise 125
        else withRandom again key 32 (fun s =>
          let r := newRecord s oid g (BitVec.ofNat 32 (e.param 0x18 4)) 0
          complete key (okayWith [(12, (khOf i g).toNat)] [.key i r]) s.drew) s) s

/-- Flag bits of KEY_LOOKUP: pinned, held, exhausted (R187). -/
def lookupFlags (k : Ktab) (r : KeyRecord) : Nat := (if r.pinned then 1 else 0) + (if k.held r then 2 else 0) + (if r.exhausted then 4 else 0)

/-- KEY_LOOKUP (R187, R188, R191). -/
def keyLookup (key : Nat) (e : Entry) (s : State) : State :=
  if ktabFenced s then complete key (unitFenced 5 0) s
  else withOid key (BitVec.ofNat 128 (e.param 8 16)) (fun found s => match found with
    | none => complete key (invalidHandle 8) s
    | some i =>
      let r := s.ktab.record i
      let kh := khOf i r.gen
      complete key (okay [(12, kh.toNat), (16, KeyState.toNat r.state), (17, lookupFlags s.ktab r), (20, r.prevKh.toNat)]) s) s

/-- KEY_ROTATE (R184, R188). -/
def keyRotate (again : Bool) (key : Nat) (e : Entry) (s : State) : State :=
  let kh : Word := BitVec.ofNat 32 (e.param 8 4)
  let i := khIndex kh
  if ktabFenced s then complete key (unitFenced 5 0) s
  else withKey key kh 8 (fun s => withOid key (s.ktab.record i).oid (fun found s =>
    let old := s.ktab.record i
    if old.state = .shredded ∨ found ≠ some i then complete key (conflict 0) s
    else match s.ktab.allocate none with
      | none => complete key (answer 0x3002 []) s
      | some (j, g) => withRandom again key 32 (fun s =>
        let r := newRecord s old.oid g old.policy kh
        let left : List Delta := if old.state = .active then [.key i { old with state := .decryptOnly, changed := s.clock.time }] else []
        complete key (okayWith [(12, (khOf j g).toNat), (16, kh.toNat)] (.key j r :: left)) s.drew) s) s) s

/-- The new record KEY_SET_STATE writes, none where it writes nothing, or the status it completes with (R184, R187). -/
def setStateOf (r : KeyRecord) (now : DWord) (target : Nat) (retain : DWord) : Except Result (Option KeyRecord) :=
  match target, r.state with
  | 1, .active => .ok none
  | 2, .active => .ok (some { r with state := .decryptOnly, changed := now })
  | 2, .decryptOnly => .ok none
  | 2, .retained => .ok (some { r with state := .decryptOnly, changed := now })
  | 3, .active | 3, .decryptOnly =>
    if retain.toNat ≤ now.toNat then .error (inputRange 0x10) else .ok (some { r with state := .retained, retainUntil := retain, changed := now })
  | 3, .retained =>
    if retain.toNat < r.retainUntil.toNat then .error (answer 0x4003 [(12, r.retainUntil.toNat)])
    else if retain = r.retainUntil then .ok none
    else .ok (some { r with retainUntil := retain, changed := now })
  | _, _ => .error (conflict 0)

/-- KEY_SET_STATE. -/
def keySetState (key : Nat) (e : Entry) (s : State) : State :=
  let kh : Word := BitVec.ofNat 32 (e.param 8 4)
  let i := khIndex kh
  if ktabFenced s then complete key (unitFenced 5 0) s
  else withKey key kh 8 (fun s =>
    let r := s.ktab.record i
    match setStateOf r s.clock.time (e.param 0xC 1) (BitVec.ofNat 64 (e.param 0x10 8)) with
    | .error x => complete key x s
    | .ok none => complete key (okayWith [(12, KeyState.toNat r.state)] (grantDelta s key 0 0)) s
    | .ok (some n) => complete key (okayWith [(12, KeyState.toNat n.state)] (.key i n :: grantDelta s key 0 0)) s) s

/-- Clear every idle lane key slot that holds a key (R186). -/
def clearKeySlots (kh : Word) (s : State) : State :=
  let wipe (k : Option SlotKey) : Option SlotKey := k.filter (fun x => x.kh != kh)
  { s with lanes := { s.lanes with lanes := s.lanes.lanes.map (fun (l : Lane) => { l with slot0 := wipe l.slot0, slot1 := wipe l.slot1 }) } }

/-- KEY_SHRED (R184, R186, R265). -/
def keyShred (key : Nat) (e : Entry) (s : State) : State :=
  let kh : Word := BitVec.ofNat 32 (e.param 8 4)
  let i := khIndex kh
  if ktabFenced s then complete key (unitFenced 5 0) s
  else withKey key kh 8 (fun s =>
    let r := s.ktab.record i
    if s.lanes.streams.any (fun x => x.kh == kh) then complete key (conflict 0) s
    else if r.state = .shredded then complete key (conflict 0) s
    else if r.state ≠ .retained ∧ s.clock.time.toNat < r.retainUntil.toNat then complete key (answer 0x4003 [(12, r.retainUntil.toNat)]) s
    else
      let n := { r with state := .shredded, dek := 0, changed := s.clock.time, pinned := false }
      let gone := (s.journal.staged.filter (fun p => p.2.kh == kh)).map (fun p => Delta.unstage p.1 p.2.index)
      complete key (okayWith [(12, kh.toNat)] (.key i n :: gone ++ grantDelta s key 0 0)) (clearKeySlots kh s)) s

/-- KEY_PIN (R187, R197). -/
def keyPin (key : Nat) (e : Entry) (s : State) : State :=
  let kh : Word := BitVec.ofNat 32 (e.param 8 4)
  let i := khIndex kh
  let pin : Bool := e.param 0xC 1 == 1
  if ktabFenced s then complete key (unitFenced 5 0) s
  else withKey key kh 8 (fun s =>
    let r := s.ktab.record i
    if r.state = .shredded then complete key (conflict 0) s
    else if pin = true ∧ s.ktab.pinRoom i = false then complete key (conflict 0) s
    else
      let k := s.ktab.mapEntry i (fun x => { x with pinned := pin })
      complete key (okayWith [(12, k.pins)] [.key i { r with pinned := pin }]) { s with ktab := k }) s

/-! ### Wrapped export and import (R308, R309) -/

/-- A buffer of a command named by its address alone. -/
def directBytes (s : State) (src : Source) (addr : DWord) (n : Nat) : List Byte := s.readBytes (bufferSpace src) addr.toNat n

/-- The digest of a byte string as 32 bytes. -/
def digest32 (b : List Byte) : List Byte := leBytes 32 (Config.sha3 b).toNat

/-- A signature pair over a message, padded to the length the layouts give it: 96 + 4,627 + 5 bytes. -/
def signPair (s : State) (msg : List Byte) : List Byte := padTo 4728 (s.attestSign msg s.freeCtr)

/-- The KEY_EXPORT_WRAPPED blob up to its signatures (R308). -/
def exportHead (r : KeyRecord) (rcpt : List Byte) (rnd : Nat) : List Byte :=
  let ct := kemCiphertext (rcpt.take 1568) rnd
  let d := privateP384 ((List.range 64).map (Config.freeBytes rnd))
  let eph := padTo 96 ((Config.p384Public d).take 96)
  let x := padTo 48 ((Config.ecdhX d (rcpt.drop 1568)).take 48)
  let wk := kdf32 (Config.kemSecret (rcpt.take 1568) rnd) "CXM KX" (x ++ leBytes 16 r.oid.toNat ++ digest32 rcpt)
  leBytes 4 0x574B4559 ++ leBytes 2 1 ++ [0, 0] ++ leBytes 16 r.oid.toNat ++ leBytes 4 r.fixed.toNat ++ leBytes 1 (KeyState.toNat r.state)
    ++ [0, 0, 0] ++ leBytes 8 r.retainUntil.toNat ++ leBytes 16 Config.serial.toNat ++ digest32 rcpt ++ ct ++ eph ++ wrappedDek wk r.dek

/-- KEY_EXPORT_WRAPPED: checks, a pair of signing jobs, then the blob (R308). The module writes 6,520 bytes; a shorter output list is LENGTH_ERROR. -/
def keyExport (again : Bool) (key : Nat) (src : Source) (e : Entry) (s : State) : State :=
  let kh : Word := BitVec.ofNat 32 (e.param 8 4)
  if ktabFenced s then complete key (unitFenced 5 0) s
  else withKey key kh 8 (fun s =>
    let r := s.ktab.record (khIndex kh)
    if bitAt r.policy 0 = false then complete key (notAuthorized 6) s
    else if r.state = .shredded then complete key (conflict 0) s
    else if e.param 0x10 4 < 6520 then complete key (lengthError 6520) s
    else if pkeFenced s then complete key (unitFenced 2 0xFF) s
    else
      let head := exportHead r (directBytes s src e.addr1 1664) s.freeCtr
      if again then
        completeOutput key src (e.param 0x10 4) e.addr0 (head ++ signPair s head)
          { okay [(12, 6520)] with deltas := grantDelta s key 0 0 } s.drew
      else pushSign 3 key head s) s

/-- What a blob's checks find: the DEK, or none (R309, R343). -/
def importDek (blob chain : List Byte) (s : State) : Option Hash :=
  let head := blob.take 0x700
  if chainOk chain (BitVec.ofNat 128 (fieldOf blob 0x28 16)) = false then none
  else if Config.sigOk (chainKeys chain) head (slice blob 0x700 4723) = false then none
  else if slice blob 0x38 32 ≠ digest32 s.pairs.transportPublic then none
  else if fieldOf blob 0 4 ≠ 0x574B4559 ∨ fieldOf blob 4 2 ≠ 1 then none
  else match kemOpen s.pairs.transportKem (slice blob 0x58 1568) with
    | none => none
    | some ss =>
      let x := padTo 48 ((Config.ecdhX s.pairs.transportEc (slice blob 0x678 96)).take 48)
      let wk := kdf32 ss "CXM KX" (x ++ slice blob 8 16 ++ slice blob 0x38 32)
      match Config.kwUnwrap wk (slice blob 0x6D8 40) with
      | none => none
      | some d => some (BitVec.ofNat 256 (leNat d))

/-- KEY_IMPORT_WRAPPED (R309). -/
def keyImport (key : Nat) (src : Source) (e : Entry) (s : State) : State :=
  if ktabFenced s then complete key (unitFenced 5 0) s
  else if e.param 8 4 ≠ 6520 then complete key (lengthError 6520) s
  else if e.param 0xC 4 ≠ 18272 then complete key (lengthError 18272) s
  else match readInput s src 6520 e.addr0 with
    | .error r => complete key r s
    | .ok blob =>
      let oid : Oid := BitVec.ofNat 128 (fieldOf blob 8 16)
      let fixed : Word := BitVec.ofNat 32 (fieldOf blob 0x18 4)
      match importDek blob (directBytes s src e.addr1 18272) s with
      | none => complete key (notAuthorized 4) s
      | some dek => withOid key oid (fun found s =>
        if found.isSome then complete key (conflict 0) s
        else match s.ktab.allocate (some (fieldAt fixed 10 0)) with
          | none => complete key (answer 0x3002 []) s
          | some (i, g) =>
            if s.ktab.indexRoom s.indexKey oid = false then (complete key (answer 0x3002 []) s).raise 125
            else
              let r : KeyRecord := { emptyRecord g with
                oid := oid, dek := dek, fixed := fixed, state := .decryptOnly, retainUntil := BitVec.ofNat 64 (fieldOf blob 0x20 8)
                created := s.clock.time, changed := s.clock.time, fresh := true }
              complete key (okayWith [(12, (khOf i g).toNat)] [.key i r]) s) s

end Sys2Proof.Machine
end

