-- ==== Sys2Proof/Machine/Shamir.lean ====
section
/-! DEFINITION. Shamir sharing of a 256-bit secret over GF(2^8), byte by byte (09_vault_kiln_lifecycle.md, R299). -/

namespace Sys2Proof.Machine

/-- Multiplication by x modulo the reduction polynomial 0x11B. -/
def gfDouble (a : Byte) : Byte := if a.getLsbD 7 then (a <<< 1) ^^^ 0x1B else a <<< 1
/-- Multiplication over the low `n` bits of the second factor. -/
def gfMulBits : Nat → Byte → Byte → Byte
  | 0, _, _ => 0
  | n + 1, a, b => (if b.getLsbD 0 then a else 0) ^^^ gfMulBits n (gfDouble a) (b >>> 1)
/-- Multiplication in GF(2^8). -/
def gfMul (a b : Byte) : Byte := gfMulBits 8 a b
/-- A power. -/
def gfPow (a : Byte) : Nat → Byte
  | 0 => 1
  | n + 1 => gfMul a (gfPow a n)
/-- The inverse, 0 for 0. -/
def gfInv (a : Byte) : Byte := gfPow a 254

/-- Horner's rule over coefficients, constant term first. -/
def gfEval (x : Byte) : List Byte → Byte
  | [] => 0
  | c :: t => c ^^^ gfMul x (gfEval x t)
/-- The share at x of a secret with threshold m: byte i of coefficient j is random byte i of the string numbered `rnd` + j. -/
def shamirShare (secret : Hash) (m rnd x : Nat) : Hash :=
  BitVec.ofNat 256 (leNat ((leBytes 32 secret.toNat).mapIdx (fun i b =>
    gfEval (BitVec.ofNat 8 x) (b :: (List.range (m - 1)).map (fun j => Config.freeBytes (rnd + j + 1) i)))))

/-- The Lagrange coefficient at 0 of the point x among the points xs. -/
def lagrange (xs : List Nat) (x : Nat) : Byte :=
  (xs.filter (· != x)).foldl (fun a l => gfMul a (gfMul (BitVec.ofNat 8 l) (gfInv (BitVec.ofNat 8 l ^^^ BitVec.ofNat 8 x)))) 1
/-- The secret of shares (x, y). -/
def shamirJoin (shares : List (Nat × Hash)) : Hash :=
  let xs := shares.map (·.1)
  BitVec.ofNat 256 (leNat ((List.range 32).map (fun i =>
    shares.foldl (fun a p => a ^^^ gfMul (lagrange xs p.1) (((leBytes 32 p.2.toNat).getD i 0))) 0)))

end Sys2Proof.Machine
end

