-- ==== Sys2Proof/Machine/QuorumCmds.lean ====
section
/-! DEFINITION. The bodies of the custody commands: quorum sessions and custodian enrolment (09_vault_kiln_lifecycle.md, R294 to R307). -/

namespace Sys2Proof.Machine

/-- LIFECYCLE with the present state (R130, R294). -/
def lifecycleRefusal (s : State) : Result := answer 0x4005 [(12, Lifecycle.code s.lifecycle)]

/-- Is the partner active and does it hold the custody root (R304)? -/
def partnerHoldsCr (s : State) : Bool := s.pair.session == .keyed && partnerWord s (fun w => wordRole w == 1)

/-! ### Sessions (R300 to R306) -/

/-- The 128-byte statement of a session (R300). -/
def statementOf (s : State) (grant cls lifetime : Nat) (target : DWord) (nonce : Hash) (eph : List Byte) : List Byte :=
  leBytes 4 0x51554F52 ++ leBytes 2 1 ++ leBytes 1 cls ++ [0] ++ leBytes 2 grant ++ leBytes 6 0 ++ leBytes 16 Config.serial.toNat
    ++ leBytes 4 s.pairTag.toNat ++ leBytes 4 0 ++ leBytes 8 target.toNat ++ leBytes 32 nonce.toNat ++ leBytes 8 s.clock.time.toNat
    ++ leBytes 8 (s.clock.time.toNat + lifetime * 32768) ++ (if eph.isEmpty then leBytes 32 0 else digest32 eph)

/-- Sessions open now: granted or not, neither used nor expired. -/
def openCount (s : State) : Nat := (s.vault.sessions.filter (fun x => !x.used && !expired s x)).length

/-- QUORUM_BEGIN (R300); of class 5 it is refused while an armed tamper output is asserted (R483). -/
def quorumBegin (again : Bool) (key : Nat) (src : Source) (e : Entry) (s : State) : State :=
  let cls := e.param 8 1
  let len := e.param 0x18 4
  let life := if e.param 0x1C 4 = 0 then 300 else e.param 0x1C 4
  let need := if cls = 5 then 128 + 1568 + 1616 * s.nvm.n else 128
  let keyless : Bool := s.lifecycle == .keyless
  if 3600 < life then complete key (inputRange 0x1C) s
  else if (if cls = 5 then !keyless || s.tamper.raw &&& s.tamper.armed != 0 else keyless && (decide (cls ≤ 3) || cls == 7)) then complete key (conflict 0) s
  else if 8 ≤ openCount s then complete key (answer 0x3003 []) s
  else if len < need then complete key (lengthError need) s
  else withRandom again key 64 (fun s =>
    let g := if s.vault.lastGrant = 0xFFFE then 1 else s.vault.lastGrant + 1
    let target : DWord := BitVec.ofNat 64 (e.param 0x10 8)
    let seed := if cls = 5 then s.freshBytes 64 else []
    let eph := if cls = 5 then padTo 1568 ((Config.mlkemPublic seed).take 1568) else []
    let st := statementOf s g cls life target s.fresh eph
    let caps := if cls = 5 then s.nvm.capsules.flatMap (·.2) else []
    let x : Session := {
      grant := BitVec.ofNat 16 g, cls := cls, target := target, m := s.nvm.m, n := s.nvm.n, statement := st, begin := s.clock.lfclk, lifetime := life, eph := seed
      approved := [], shares := [], granted := false, reserved := none, used := false }
    match writeOutput src len e.addr0 (st ++ eph ++ caps) s with
    | .error r => complete key r s
    | .ok s =>
      complete key (okay [(12, g), (14, s.nvm.m), (15, s.nvm.n), (16, need)])
        { s.drew with vault := { s.vault with sessions := s.vault.sessions.filter (fun y => y.grant != x.grant) ++ [x], lastGrant := g } }) s

/-- The share an approval carries: absent, broken, or a point of the custody root (R302, R303). -/
def shareOf (x : Session) (id : Nat) (blob : List Byte) : Option (Nat × Hash) :=
  match kemOpen x.eph (slice blob 0x1280 1568) with
  | none => none
  | some ss =>
    match Config.kwUnwrap (kdf32 ss "CXM SR" (leBytes 2 x.grant.toNat ++ leBytes 1 id)) (slice blob 0x18A0 48) with
    | none => none
    | some b => some (fieldOf b 0 1, BitVec.ofNat 256 (fieldOf b 1 32))

/-- The m-th approval grants; for a KEYLESS_EXIT without the partner the custody root is rebuilt and checked (R304). -/
def grantSession (key : Nat) (x : Session) (s : State) : State :=
  if x.cls = 5 ∧ partnerHoldsCr s = false then
    let cr := shamirJoin x.shares
    if checkValue cr = s.nvm.crCheck then
      complete key (okay [(12, x.approved.length), (13, x.m), (14, 1)]) ((s.setSession x.grant (fun y => { y with granted := true })).setVslot 0 (some cr))
    else (complete key (notAuthorized 4) (s.endSession x.grant)).raise 122
  else complete key (okay [(12, x.approved.length), (13, x.m), (14, 1)]) (s.setSession x.grant (fun y => { y with granted := true }))

/-- Does a blob name its custodian, keep its reserved bits zero and have the length its share flag gives it (R302)? -/
def blobFormed (id : Nat) (blob : List Byte) : Bool :=
  let f := fieldOf blob 1 1
  fieldOf blob 0 1 == id && decide (f < 2) && blob.length == (if f = 1 then 6352 else 4736)

/-- Judge an approval blob and count it (R303). A blob that is not laid out as R302 gives it is treated as one whose signatures fail. DESIGN CHOICE -/
def countApproval (key id : Nat) (x : Session) (blob : List Byte) (s : State) : State :=
  let reject := (complete key (notAuthorized 4) s).raise 122
  match s.nvm.custodians.find? (fun c => c.id == id) with
  | none => complete key (notAuthorized 5) s
  | some c =>
    let carries := bitAt (blob.getD 1 0) 0
    let needs : Bool := x.cls == 5 && !partnerHoldsCr s
    if x.approved.contains id then complete key (notAuthorized 5) s
    else if blobFormed id blob = false then reject
    else if Config.sigOk (c.keys.take 2688) x.statement (slice blob 8 4723) = false then reject
    else if needs = true ∧ carries = false then reject
    else match (if needs then shareOf x id blob else some (0, 0)) with
      | none => reject
      | some sh =>
        let y := { x with approved := x.approved ++ [id], shares := if needs then x.shares ++ [sh] else x.shares }
        let s := s.setSession x.grant (fun _ => y)
        if y.approved.length < y.m then complete key (okay [(12, y.approved.length), (13, y.m), (14, 0)]) s
        else grantSession key y s

/-- The blob a token returned for a command. -/
def tokenBlob (key : Nat) (s : State) : Option (List Byte) :=
  ((s.cards.flatMap (fun (k : CardSlot) => k.blobs)).find? (fun b => b.1 == key)).map (·.2)
/-- Forget it. -/
def dropBlob (key : Nat) (s : State) : State :=
  { s with cards := s.cards.map (fun (k : CardSlot) => { k with blobs := k.blobs.filter (fun b => b.1 != key) }) }

/-- QUORUM_APPROVE (R302, R303). -/
def quorumApprove (again : Bool) (key : Nat) (src : Source) (e : Entry) (s : State) : State :=
  let id := e.param 0xA 1
  let slot := e.param 9 1
  match s.session e.handle with
  | none => complete key (invalidHandle 6) s
  | some x =>
    if x.granted = true ∨ x.used = true ∨ expired s x = true then complete key (invalidHandle 6) s
    else if e.param 8 1 = 0 then
      let len := e.param 0x10 4
      if len ≠ 4736 ∧ len ≠ 6352 then complete key (lengthError 6352) s
      else match readInput s src len e.addr0 with
        | .error r => complete key r s
        | .ok blob => countApproval key id x blob s
    else if again then
      match tokenBlob key s with
      | some blob => countApproval key id x blob (dropBlob key s)
      | none => complete key (okay [(12, x.approved.length), (13, x.m), (14, 0)]) s
    else match slotRefusal s slot true with
      | some r => complete key (if 4 ≤ slot then inputRange 9 else r) s
      | none =>
        let known := (s.slot slot).serial
        let differs : Bool := match s.nvm.custodians.find? (fun c => c.id == id) with | some c => known != 0 && c.serial != known | none => true
        if (differs || x.approved.contains id) = true then complete key (notAuthorized 5) s
        else pushCard slot key (.approve x.statement) s

/-- QUORUM_END (R305). -/
def quorumEnd (key : Nat) (e : Entry) (s : State) : State :=
  match s.session e.handle with
  | none => complete key (invalidHandle 6) s
  | some x => complete key (okay [(12, if x.used || expired s x then 1 else 0)]) (s.endSession e.handle)

/-- A session's lifetime passes (R301). -/
def sessionExpiry (g : BitVec 16) (s : State) : State := s.setSession g (fun x => { x with lifetime := 0 })

/-! ### Custodian enrolment (R294, R298, R299) -/

/-- A custodian record (R297). -/
def custodianOf (b : List Byte) : Custodian := ⟨fieldOf b 0 1, fieldOf b 1 1, BitVec.ofNat 128 (fieldOf b 8 16), slice b 0x18 4256⟩

/-- A custodian's capsule of a share of the custody root (R299). -/
def capsuleOf (cr : Hash) (m rnd : Nat) (c : Custodian) : Nat × List Byte :=
  let x := c.id + 1
  let ek := slice c.keys 2688 1568
  let k := kdf32 (Config.kemSecret ek (rnd + x)) "CXM SH" (leBytes 16 Config.serial.toNat ++ leBytes 1 c.id)
  let y := shamirShare cr m rnd x
  (c.id, kemCiphertext ek (rnd + x)
    ++ padTo 48 ((Config.kwWrap k (leBytes 1 x ++ leBytes 32 y.toNat ++ leBytes 7 0)).take 48))

/-- Insert a capsule in id order. -/
def insertCapsule (c : Nat × List Byte) : List (Nat × List Byte) → List (Nat × List Byte)
  | [] => [c]
  | d :: t => if c.1 < d.1 then c :: d :: t else d :: insertCapsule c t

/-- Write the custodian set with new shares of a custody root. -/
def writeCustodians (cr : Hash) (m n : Nat) (cs : List Custodian) (s : State) : State :=
  { s with
    freeCtr := s.freeCtr + 16
    nvm := { s.nvm with m := m, n := n, custodians := cs, capsules := cs.foldl (fun l c => insertCapsule (capsuleOf cr m s.freeCtr c) l) [] } }

/-- Repeated ids, or one above 7. -/
def custodianIdsBad (cs : List Custodian) : Bool :=
  cs.any (fun c => decide (7 < c.id)) || (cs.map (·.id)).eraseDups.length != cs.length

/-- Commission once KEK and custody root are in place: the custodian set, the empty key table, GENESIS, COMMISSIONED (R298). -/
def commission (key m n : Nat) (cs : List Custodian) (ref : Hash) (s : State) : State :=
  let s := writeCustodians ((s.vslot 0).getD 0) m n cs s
  let s := { s.storeLifecycle .commissioned with ktab := { Ktab.reset with present := true } }
  let s := append 0xFFFF (.genesis Config.serial s.pairTag) s
  postEvent 3 0 (complete key (okayWith [] [custodyDelta s key 1 0 1 ref]) s)

/-- The custodian records of functions 1 and 2, checked (R298). -/
def enrolInput (src : Source) (e : Entry) (s : State) : Except Result (List Custodian × Hash) :=
  let m := e.param 9 1
  let n := e.param 0xA 1
  if m = 0 ∨ n < m then .error (inputRange 9)
  else if 8 < n then .error (inputRange 0xA)
  else if e.param 0x10 4 ≠ n * 4280 then .error (lengthError (n * 4280))
  else match readInput s src (n * 4280) e.addr0 with
    | .error r => .error r
    | .ok b =>
      let cs := (List.range n).map (fun i => custodianOf (slice b (4280 * i) 4280))
      if custodianIdsBad cs then .error (inputRange 0x28) else .ok (cs, Config.sha3 b)

/-- Function 1 (R298, R181, R541): with CR source 1 the custody root comes from the enrolled partner. -/
def enrolCommission (again : Bool) (key : Nat) (src : Source) (e : Entry) (s : State) : State :=
  if s.lifecycle ≠ .blank then complete key (lifecycleRefusal s) s
  else match enrolInput src e s with
    | .error r => complete key r s
    | .ok (cs, ref) =>
      let m := e.param 9 1
      let n := e.param 0xA 1
      if e.param 0xB 1 = 0 then
        withRandom again key 64 (fun s =>
          let kek := Config.freeValue s.freeCtr
          let cr := Config.freeValue (s.freeCtr + 1)
          let tag : BitVec 21 := (Config.freeValue (s.freeCtr + 2)).setWidth 21
          commission key m n cs ref (adoptCr kek cr { s with freeCtr := s.freeCtr + 3, nvm := { s.nvm with pairTag := some tag } })) s
      else if again then commission key m n cs ref s
      else if partnerHoldsCr s then s.waitOn key .running
      else complete key (conflict 0) s

/-- Function 4: the completion record and the lifecycle record first, then the kiln; the completion is posted after the restart (R294). -/
def enrolRetire (key : Nat) (s : State) : State :=
  let old := Lifecycle.code s.lifecycle
  let s := complete key (okayWith [] [custodyDelta s key 1 (BitVec.ofNat 64 old) 4 0]) s
  let s := flush (s.storeLifecycle .retired)
  fireKiln 0xFF (postEvent 3 0 s)

/-- CUSTODIAN_ENROLL (R298). -/
def custodianEnroll (again : Bool) (key : Nat) (src : Source) (e : Entry) (s : State) : State :=
  match e.param 8 1 with
  | 1 => enrolCommission again key src e s
  | 2 => match enrolInput src e s with
    | .error r => complete key r s
    | .ok (cs, ref) => match s.vslot 0 with
      | none => complete key (conflict 0) s
      | some cr => withRandom again key 64 (fun s =>
          complete key (okayWith [] [custodyDelta s key 4 0 0 ref]) (writeCustodians cr (e.param 9 1) (e.param 0xA 1) cs s)) s
  | 3 =>
    if s.lifecycle ≠ .commissioned then complete key (lifecycleRefusal s) s
    else
      let s := complete key (okayWith [] [custodyDelta s key 1 1 2 0]) (s.storeLifecycle .field)
      postEvent 3 0 (armTamper (bit17 16) s)
  | 4 => enrolRetire key s
  | _ =>
    if e.param 0x10 4 ≠ 2704 then complete key (lengthError 2704) s
    else match readInput s src 2704 e.addr0 with
      | .error r => complete key r s
      | .ok b => complete key (okayWith [] [custodyDelta s key 5 0 0 (Config.sha3 b)])
          { s with nvm := { s.nvm with partner := some (BitVec.ofNat 128 (fieldOf b 0 16)), partnerRec := b } }

end Sys2Proof.Machine
end

