-- ==== Sys2Proof/Machine/ImageCmds.lean ====
section
/-! DEFINITION. The bodies of the manifest, journal and vault-image commands (08_manifests_and_custody_journal.md, R259 to R285). -/

namespace Sys2Proof.Machine

/-! ### Manifests (R266, R267) -/

/-- The pending segments of an OID. -/
def pendingOf (s : State) (oid : Oid) : List Segment := (s.journal.staged.filter (fun p => p.1 == oid)).map (·.2)
/-- The manifest of an OID. -/
def State.manifest (s : State) (oid : Oid) : Option Manifest := s.journal.manifests.find? (fun m => m.oid == oid)
/-- Bytes the manifest store holds. -/
def storeBytes (s : State) : Nat :=
  s.journal.manifests.foldl (fun a m => a + 128 + m.segs.foldl (fun b g => b + 64 + 32 * g.chunks.length) 0) 0
    + s.journal.staged.foldl (fun a p => a + 64 + 32 * p.2.chunks.length) 0

/-- MANIFEST_COMMIT (R266). -/
def manifestCommit (key : Nat) (e : Entry) (s : State) : State :=
  let oid : Oid := BitVec.ofNat 128 (e.param 8 16)
  let retain : DWord := BitVec.ofNat 64 (e.param 0x18 8)
  let pend := pendingOf s oid
  let old := s.manifest oid
  let segs := (old.map (·.segs)).getD []
  let cur : DWord := (old.map (·.retainUntil)).getD 0
  let curOwner : DWord := (old.map (·.owner)).getD 0
  let ver := (old.map (·.version)).getD 0
  let ret := if retain = 0 then cur else retain
  let owner := if bitAt e.handle 1 then curOwner else BitVec.ofNat 64 (e.param 0x20 8)
  let future := decide (s.clock.time.toNat < cur.toNat)
  let replaced := pend.any (fun g => segs.any (fun h => h.index == g.index))
  let merged := pend.foldl (fun l g => putSegment g l) segs
  withOid key oid (fun found s =>
  if found.isNone then complete key (invalidHandle 8) s
  else if bitAt e.handle 0 then
    complete key (okayWith [(12, ver), (20, objectLength segs)] (pend.map (fun g => Delta.unstage oid g.index))) s
  else if 4096 < pend.length then complete key (lengthError 4096) s
  else if (future && (replaced || decide (ret.toNat < cur.toNat))) = true then complete key (answer 0x4003 [(12, cur.toNat)]) s
  else if 65536 < merged.length then complete key (lengthError 65536) s
  else if Config.manifestRoom (storeBytes s) = false then complete key (answer 0x3002 []) s
  else if pend = [] ∧ ret = cur ∧ owner = curOwner then complete key (okay [(12, ver), (20, objectLength segs)]) s
  else complete key (okayWith [(12, ver + 1), (20, objectLength merged)]
    [.manifest oid (BitVec.ofNat 64 (ver + 1)) ret owner (pend.map (·.index))]) s) s

/-- MANIFEST_READ (R267). -/
def manifestRead (key : Nat) (src : Source) (e : Entry) (s : State) : State :=
  let oid : Oid := BitVec.ofNat 128 (e.param 8 16)
  let off := e.param 0x18 8
  let room := e.param 0x20 4
  let pend := pendingOf s oid
  let blank : Manifest := ⟨oid, 0, 0, 0, 0, 0, 0, []⟩
  if room = 0 then complete key (lengthError 1) s
  else if 16777216 < room then complete key (lengthError 16777216) s
  else if s.manifest oid = none ∧ pend = [] then complete key (invalidHandle 8) s
  else
    let m := if bitAt e.handle 0 then { blank with segs := pend.foldl (fun l g => putSegment g l) [] } else (s.manifest oid).getD blank
    let b := manifestBytes m
    if b.length ≤ off then complete key (inputRange 0x18) s
    else
      let out := slice b off room
      completeOutput key src room e.addr0 out (okay [(12, m.version), (20, out.length), (24, b.length)]) s

/-! ### Journal reads and checkpoints (R259, R260, R285) -/

/-- Records held, oldest first. -/
def heldRecords (s : State) : List JRecord := s.journal.recs.reverse
/-- Whole records from the front of a list that fit in a length. -/
def fitRecords (jk : Hash) : Nat → List JRecord → List JRecord
  | _, [] => []
  | room, r :: t => if room < recordLen r then [] else r :: fitRecords jk (room - recordLen r) t

/-- Is a record one of ACCEPT, COMPLETE and POSTED of an entry? -/
def recordNames (src : BitVec 16) (seq : Word) (r : JRecord) : Bool :=
  r.source == src && (match r.body with
    | .accept sq _ _ _ _ => sq == seq
    | .complete sq _ _ _ _ _ => sq == seq
    | .posted ms => ms.any (fun m => m.1 == seq)
    | _ => false)

/-- The records JOURNAL_READ selects; none when the number or the entry is not there. -/
def readSelection (e : Entry) (s : State) : Option (List JRecord) :=
  let rs := heldRecords s
  if e.param 8 1 = 0 then
    let n := e.param 0x10 8
    if rs.any (fun r => r.number == n) then some (rs.filter (fun r => decide (n ≤ r.number))) else none
  else
    let src : BitVec 16 := BitVec.ofNat 16 (e.param 0x10 2)
    let seq : Word := BitVec.ofNat 32 (e.param 0x14 4)
    let recent := ((acceptsOf src s.journal.recs).reverse.take 65536).any (fun a => a.2.1 == seq)
    if recent then some (rs.filter (recordNames src seq)) else none

/-- JOURNAL_READ (R285); a record of its output that does not verify ends it (R283). -/
def journalRead (key : Nat) (src : Source) (e : Entry) (s : State) : State :=
  let room := e.param 0x18 4
  if room = 0 then complete key (lengthError 1) s
  else if 16777216 < room then complete key (lengthError 16777216) s
  else match readSelection e s with
    | none => complete key (inputRange 0x10) s
    | some [] => complete key (inputRange 0x10) s
    | some (r :: t) =>
      if room < 32 + recordLen r then complete key (lengthError (32 + recordLen r)) s
      else
        let out := fitRecords s.journalKey (room - 32) (r :: t)
        let b := leBytes 32 (chainBefore s r.number).toNat ++ out.flatMap (fun x => recordBytesOf s.journalKey x.mirrored x)
        match (out.filter (fun x => s.journal.spoilt.contains x.number)).head? with
        | some x => ringBreak x.number (complete key (answer 0x5005 [(12, x.number)]) s)
        | none => completeOutput key src room e.addr0 b (okay [(12, r.number), (20, b.length), (24, out.length)]) s

/-- Write a CHECKPOINT record over the record before it, signed by the module (R259). -/
def writeCheckpoint (s : State) : State :=
  let n := s.journal.next
  let prev : DWord := match s.journal.lastCkpt with | some k => BitVec.ofNat 64 k | none => BitVec.ofNat 64 (2 ^ 64 - 1)
  let r (sigs : List Byte) : JBody := .checkpoint s.journal.chain prev Config.serial s.pairTag sigs
  let signed := recordBytesOf s.journalKey false ⟨false, 0xFFFF, n, s.clock.time, r [], 0⟩
  let s := append 0xFFFF (r (s.attestSign (signed.take 96) s.freeCtr)) s
  { s.drew with
    journal := { s.journal with lastCkpt := some n, sinceCkpt := s.journal.next }
    clock := { s.clock with signAge := 0, tryAge := 0 } }

/-- JOURNAL_CHECKPOINT: the signing jobs first (R260). -/
def journalCheckpoint (again : Bool) (key : Nat) (s : State) : State :=
  if s.journal.next = 0 then complete key (lifecycleRefusal s) s
  else if pkeFenced s then complete key (unitFenced 2 0xFF) s
  else if again then
    let n := s.journal.next
    complete key (okay [(12, n)]) (writeCheckpoint s)
  else pushSign 3 key (leBytes 32 s.journal.chain.toNat) s

/-- A signing job of JOURNAL_CHECKPOINT fails: once more, then source 233 (R260). -/
def checkpointFault (key : Nat) (s : State) : State :=
  match s.command key with
  | none => s
  | some c =>
    if c.faults = 0 then pushSign 3 key (leBytes 32 s.journal.chain.toNat) (s.setCommand key (fun c => { c with faults := 1 }))
    else (complete key (answer 0x5003 []) s).raise 233

/-! ### Vault images (R275 to R279) -/

/-- A section: type, zero, length, data. -/
def sectionBytes (ty : Nat) (d : List Byte) : List Byte := leBytes 2 ty ++ [0, 0] ++ leBytes 4 (8 + d.length) ++ d

/-- The image key of an image number (R292). -/
def imageKey (s : State) (n : Nat) : Hash := kdf32 ((s.vslot 3).getD 0) "CXM IM" (leBytes 8 n)

/-- Derive an image key into slot 7, where it stands during one export or import (R288). -/
def withImageKey (n : Nat) (s : State) : State := s.setVslot 7 (some (imageKey s n))

/-- AES-256-CTR over a byte string. -/
def ctrCrypt (k : Hash) (iv : QWord) (l : List Byte) : List Byte := l.mapIdx (fun i b => b ^^^ Config.ctrStream k iv i)

/-- Has a key record changed after record number `n`: in a KEY delta, a reservation, or by becoming EMPTY? -/
def keyChanged (s : State) (n : Nat) (p : Nat × KeyRecord) : Bool :=
  let after := s.journal.recs.filter (fun r => decide (n < r.number))
  let base := match s.journal.recs.find? (fun r => r.number == n) with | some r => r.time | none => 0
  after.any (fun r => match r.body with
    | .complete _ _ _ _ _ ds => ds.any (fun d => match d with | .key i _ => i == p.1 | _ => false)
    | .reserve kh _ => khIndex kh == p.1
    | _ => false)
  || (p.2.state == .empty && decide (base.toNat ≤ p.2.changed.toNat))

/-- The image exported last. -/
def lastImageOf (s : State) : Option Image := s.journal.images.foldl (fun a (i : Image) => match a with | some b => if b.number < i.number then some i else a | none => some i) none

/-- The number of the next image. -/
def nextImage (s : State) : Nat := match lastImageOf s with | some p => p.number + 1 | none => 1
/-- Header and payload of a new image, as of now, its keys under the image key in slot 7; `iv` is its initial counter block (R275, R276). -/
def imageBytes (s : State) (full : Bool) (iv : QWord) : Image × List Byte :=
  let prev := lastImageOf s
  let num := nextImage s
  let first := match prev with | some p => p.last + 1 | none => 0
  let last := s.journal.next - 1
  let baseL := match prev with | some p => p.last | none => 0
  let keys := s.ktab.records.filter (fun p => (p.2.state != .empty || p.2.gen != 0) && (full || keyChanged s baseL p))
  let keyData := keys.flatMap (fun p => leBytes 4 p.1 ++ leBytes 4 0 ++ recordBytes p.2 p.2.dek)
  let ms := s.journal.manifests.filter (fun m => full || decide (baseL < m.record))
  let staged := s.journal.staged.flatMap (fun p => deltaBytes s.journalKey (.stage p.1 p.2))
  let custody := custodyBytes ⟨1, 0, 0, BitVec.ofNat 64 (Lifecycle.code s.lifecycle), BitVec.ofNat 64 (Lifecycle.code s.lifecycle), 0⟩
  let recs := (heldRecords s).filter (fun r => decide (first ≤ r.number))
  let payload := sectionBytes 1 (ctrCrypt ((s.vslot 7).getD 0) iv keyData) ++ sectionBytes 2 (ms.flatMap manifestBytes) ++ sectionBytes 3 staged
    ++ sectionBytes 4 custody ++ sectionBytes 5 (recs.flatMap (recordBytesOf s.journalKey false))
  let header := padTo 256 (leBytes 4 0x56414C54 ++ leBytes 2 1 ++ leBytes 1 (if full then 1 else 2) ++ [0] ++ leBytes 8 num ++ leBytes 8 (num - 1)
    ++ leBytes 8 first ++ leBytes 8 last ++ leBytes 32 (chainBefore s first).toNat ++ leBytes 32 s.journal.chain.toNat ++ leBytes 8 s.clock.time.toNat
    ++ leBytes 16 Config.serial.toNat ++ leBytes 4 s.pairTag.toNat ++ leBytes 4 5 ++ leBytes 8 payload.length ++ leBytes 16 iv.toNat)
  let b := header ++ payload
  (⟨num, if full then 1 else 2, num - 1, first, last, Config.sha3 b, false⟩, b)

/-- The trailer of an image (R275). -/
def trailerBytes (s : State) (digest : Hash) : List Byte :=
  let d := leBytes 32 digest.toNat
  d ++ leBytes 2 96 ++ leBytes 2 4627 ++ leBytes 4 0 ++ signPair s d

/-- The first record without a chain in a delta's range: the one after the last good record that a BREAK record of the range names (R284). -/
def breakIn (s : State) (first : Nat) : Option Nat :=
  (heldRecords s).findSome? (fun r => match r.body with
    | .brk good _ _ => if first ≤ r.number then some (max first (good + 1).toNat) else none
    | _ => none)

/-- VAULT_EXPORT modes 1 and 2: the image is fixed, signed, then written and journaled (R277, R278). -/
def exportImage (again : Bool) (full : Bool) (key : Nat) (src : Source) (e : Entry) (s : State) : State :=
  let room := e.param 0x18 8
  if again then
    match s.journal.exporting with
    | none => complete key (answer 0x6001 []) s
    | some x =>
      let b := x.bytes ++ trailerBytes s x.image.digest
      let s := { s.drew with journal := { s.journal with exporting := none } }
      match writeOutput src room e.addr0 b s with
      | .error r => complete key r s
      | .ok s =>
        let s := append 0xFFFF (.image (BitVec.ofNat 64 x.image.number) x.image.kind (BitVec.ofNat 64 x.image.first) (BitVec.ofNat 64 x.image.last) x.image.digest) s
        complete key (okay [(12, x.image.number), (20, b.length)]) { s with journal := { s.journal with images := s.journal.images ++ [x.image] } }
  else if (match s.journal.exporting with | some x => (s.command x.key).isSome | none => false) = true then complete key (conflict 2) s
  else if pkeFenced s then complete key (unitFenced 2 0xFF) s
  else
    let s := withImageKey (nextImage s) s
    let (img, b) := imageBytes s full (s.fresh.setWidth 128)
    let s := s.setVslot 7 none
    let need := b.length + 4768
    match brokenIn s img.first s.journal.next with
    | some n => ringBreak n (complete key (answer 0x5005 [(12, n)]) s)
    | none => match (if full then none else breakIn s img.first) with
    | some n => complete key (answer 0x5005 [(12, n)]) s
    | none =>
      if room < need then complete key (lengthError ((need + 65535) / 65536)) s
      else pushSign 3 key (leBytes 32 img.digest.toNat) { s.drew with journal := { s.journal with exporting := some ⟨key, img, b⟩ } }

/-- VAULT_EXPORT mode 3: acknowledge an image (R277, R279). -/
def ackImage (key : Nat) (e : Entry) (s : State) : State :=
  let n := e.param 0x10 8
  match s.journal.images.find? (fun i => i.number == n) with
  | none => complete key (inputRange 0x10) s
  | some i =>
    let baseOk : Bool := i.base == 0 || s.journal.images.any (fun j => j.number == i.base && j.acked)
    if baseOk = false then complete key (inputRange 0x10) s
    else if e.param 0x18 16 % 2 ^ (8 * 16) ≠ i.digest.toNat % 2 ^ 128 then complete key (inputRange 0x18) s
    else
      let s := { s with journal := { s.journal with images := s.journal.images.map (fun (j : Image) => if j.number = n then { j with acked := true } else j) } }
      let s := append 0xFFFF (.secured (BitVec.ofNat 64 n) (BitVec.ofNat 64 i.last)) s
      let s := journalEvents (secureUpTo i.last s)
      complete key (okay [(12, s.journal.secured - 1)]) s

/-- VAULT_EXPORT (R277). -/
def vaultExport (again : Bool) (key : Nat) (src : Source) (e : Entry) (s : State) : State :=
  match e.param 8 1 with
  | 0 => complete key (okay [(12, (imageBytes s true 0).2.length + 4768), (20, (imageBytes s false 0).2.length + 4768)]) s
  | 1 => exportImage again true key src e s
  | 2 => exportImage again false key src e s
  | _ => ackImage key e s

/-! ### Import and recovery (R280 to R282, R316) -/

/-- Whole raw records of a byte string. -/
def rawRecords : Nat → List Byte → List (List Byte)
  | 0, _ => []
  | fuel + 1, l =>
    let n := fieldOf l 0 4
    if n = 0 ∨ l.length < n then [] else l.take n :: rawRecords fuel (l.drop n)

/-- Chain value over raw records: rflags bit 0 read as 0, a BREAK record starts afresh (R255). -/
def rawChain (c : Hash) (rs : List (List Byte)) : Hash :=
  rs.foldl (fun c r => Config.sha3 (leBytes 32 (if r.getD 4 0 = 12 then (0 : Hash) else c).toNat ++ (r.set 5 ((r.getD 5 0) &&& 0xFE)))) c

/-- The data of the first section of a type. -/
def sectionOf (ty : Nat) : Nat → List Byte → List Byte
  | 0, _ => []
  | fuel + 1, l =>
    let n := fieldOf l 4 4
    if n < 8 ∨ l.length < n then [] else if fieldOf l 0 2 = ty then slice l 8 (n - 8) else sectionOf ty fuel (l.drop n)

/-- Key records of a decrypted key section. -/
def keysOf : Nat → List Byte → List (Nat × KeyRecord)
  | 0, _ => []
  | fuel + 1, l => if l.length < 136 then [] else (fieldOf l 0 4, recordOf (slice l 8 128) (BitVec.ofNat 256 (fieldOf l 24 32))) :: keysOf fuel (l.drop 136)

/-- Manifests of a manifest section. -/
def manifestsOf : Nat → List Byte → List Manifest
  | 0, _ => []
  | fuel + 1, l => if l.length < 128 then [] else (manifestOf l).1 :: manifestsOf fuel (l.drop (manifestOf l).2)

/-- Insert by time of creation, so that a rotation chain rebuilds the index in its own order. -/
def insertCreated (p : Nat × KeyRecord) : List (Nat × KeyRecord) → List (Nat × KeyRecord)
  | [] => [p]
  | q :: t => if p.2.created.toNat < q.2.created.toNat then p :: q :: t else q :: insertCreated p t

/-- Header and payload of an image. -/
def imageBody (b : List Byte) : List Byte := b.take (256 + fieldOf b 0x88 8)
/-- Are an image's magic, format, kind, digest and signatures good (R280)? -/
def imageSound (mode : Nat) (b : List Byte) (s : State) : Bool :=
  let digest := digest32 (imageBody b)
  let trailer := b.drop (256 + fieldOf b 0x88 8)
  let sigs := slice trailer 0x28 4723
  fieldOf b 0 4 == 0x56414C54 && fieldOf b 4 2 == 1 && fieldOf b 6 1 == mode && trailer.take 32 == digest
    && (Config.sigOk s.pairs.attestPublic digest sigs || Config.sigOk (s.nvm.partnerRec.drop 16) digest sigs)
/-- Does the chain of an image's journal section run from its first value to its last? -/
def imageChained (len : Nat) (b : List Byte) : Bool :=
  rawChain (BitVec.ofNat 256 (fieldOf b 0x28 32)) (rawRecords (len / 24) (sectionOf 5 8 ((imageBody b).drop 256))) == BitVec.ofNat 256 (fieldOf b 0x48 32)
/-- The checks of an import's first pass, in order; the answer of the first that fails (R280). -/
def importCheck (mode len : Nat) (b : List Byte) (s : State) : Option Result :=
  let need := 256 + fieldOf b 0x88 8 + 4768
  if len ≠ need then some (lengthError ((need + 65535) / 65536))
  else if (imageSound mode b s && imageChained len b) = false then some (answer 0x5005 [(12, fieldOf b 0x18 8)])
  else if fieldOf b 0x80 4 ≠ s.pairTag.toNat then some (conflict 0)
  else if mode = 1 ∧ s.ktab.present = true ∧ s.journal.recovery = false then some (conflict 0)
  else if mode = 2 ∧ (s.journal.recovery = false ∨ fieldOf b 0x10 8 ≠ s.journal.lastImage) then some (conflict 0)
  else if s.pairMode = true ∨ partnerHoldsCr s = true then some (conflict 0)
  else none

/-- Apply an image: keys, manifests, staging entries; recovery opens (R280, R281). -/
def applyImage (mode : Nat) (b : List Byte) (s : State) : State :=
  let payload := (b.drop 256).take (fieldOf b 0x88 8)
  let num := fieldOf b 8 8
  let keyData := ctrCrypt ((s.vslot 7).getD 0) (BitVec.ofNat 128 (fieldOf b 0x90 16)) (sectionOf 1 8 payload)
  let keys := (keysOf keyData.length keyData).foldl (fun l p => insertCreated p l) []
  let k0 := if mode = 1 then { Ktab.reset with present := true, hold := true } else s.ktab
  let md := sectionOf 2 8 payload
  let ms := manifestsOf md.length md
  let sd := sectionOf 3 8 payload
  let staged := match deltasOf s.journalKey (sd.length / 8) sd with
    | some ds => ds.filterMap (fun d => match d with | .stage o g => some (o, g) | _ => none)
    | none => []
  let kept := if mode = 1 then [] else s.journal.manifests.filter (fun m => !ms.any (fun x => x.oid == m.oid))
  { s with
    ktab := keys.foldl (fun k p => k.applyKey s.indexKey p.1 p.2) k0
    journal := { s.journal with
      manifests := kept ++ ms, staged := staged, recovery := true, lastL := fieldOf b 0x20 8, lastImage := num } }

/-- Replay one recovered record: deltas of a completion, a reservation. -/
def replayRecord (s : State) (r : JRecord) : State :=
  match r.body with
  | .complete _ _ _ _ _ ds => applyDeltas r.number r.time s (ds.filter (fun d => match d with | .custody _ => false | _ => true))
  | .reserve kh h => { s with ktab := s.ktab.raiseHwm (khIndex kh) h }
  | _ => s

/-- The power-loss skip: four blocks for every key (R207). -/
def skipAll (s : State) : State :=
  { s with ktab := s.ktab.records.foldl (fun k p => if p.2.state = .empty then k else k.skipHwm s.clock.time p.1 (4 * 65536)) s.ktab }

/-- Try to join the recovered tail at record L with its chain value: replay, skip, RECOVER, the hold lifts (R281). -/
def tryJoin (chainL : Hash) (s : State) : Bool × State :=
  let l := s.journal.lastL
  let upTo := s.journal.tail.filter (fun r => decide (r.number ≤ l))
  let later := s.journal.tail.filter (fun r => decide (l < r.number))
  let meets := match s.journal.tail with
    | [] => false
    | r :: _ => (decide (r.number ≤ l + 1) && decide (l < s.journal.next)) && chainOver s.journalKey s.journal.tailChain upTo == chainL
  if meets = false then (false, s)
  else
    let s := later.foldl replayRecord s
    let skip := s.journal.lossPaired
    let s := if skip then skipAll s else s
    let joined := match later.getLast? with | some r => r.number | none => l
    let s := append 0xFFFF (.recover (BitVec.ofNat 64 l) (BitVec.ofNat 64 joined) 0 skip)
      { s with journal := { s.journal with recovery := false }, ktab := { s.ktab with hold := false } }
    (true, { s with ktab := s.ktab.refillPins })

/-- The answer of an import (R282). -/
def importAnswer (joined : Bool) (ds : List Delta) (s : State) : Result :=
  okayWith [(12, s.journal.lastL), (20, (if s.journal.recovery then 1 else 0) + (if s.ktab.hold then 2 else 0) + (if joined then 4 else 0))] ds

/-- VAULT_IMPORT (R280 to R282); in KEYLESS the custody root the quorum rebuilt is rewrapped under a new KEK first (R316). -/
def vaultImport (again : Bool) (key : Nat) (src : Source) (e : Entry) (s : State) : State :=
  let mode := e.param 8 1
  let len := e.param 0x10 8
  if mode = 3 then
    if s.journal.recovery = false then complete key (conflict 0) s
    else
      let s := append 0xFFFF (.recover (BitVec.ofNat 64 s.journal.lastL) (BitVec.ofNat 64 (2 ^ 64 - 1)) 1 false) { s with journal := { s.journal with recovery := false } }
      complete key (importAnswer false [] s) s
  else match readInput s src len e.addr0 with
    | .error r => complete key r s
    | .ok b =>
      match importCheck mode len b s with
      | some r =>
        let t := complete key r s
        if r.status ≠ 0x5005 then t else if imageSound mode b s then breakFound (t.raise 234) else t.raise 234
      | none =>
        let keyless : Bool := s.lifecycle == .keyless
        match s.vslot 0 with
        | none => complete key (answer 0x4004 []) s
        | some cr =>
          withRandom (again || !keyless) key 32 (fun s =>
            let ds : List Delta := if keyless then [custodyDelta s key 6 (BitVec.ofNat 64 s.kiln.trigger) s.kiln.time 0] else []
            let s := if keyless then postEvent 3 0 (armField (adoptCr s.fresh cr s.drew)) else s
            let s := (applyImage mode b (withImageKey (fieldOf b 8 8) s)).setVslot 7 none
            let (joined, s) := tryJoin (BitVec.ofNat 256 (fieldOf b 0x48 32)) s
            complete key (importAnswer joined ds s) (if joined then s else { s with ktab := s.ktab.refillPins })) s

end Sys2Proof.Machine
end

