-- ==== Sys2Proof/Machine/AdminCmds.lean ====
section
/-! DEFINITION. The bodies of identification, self-test, queue, time, abort, power, diagnosis, entropy, pair and firmware commands (03_power_clocks_reset.md; 04_yomir_command_protocol.md; 11_entropy_source.md; 15_embedded_flash.md; 16_tamper_monitors.md; 17_fault_collector.md; 18_castling_pair_operation.md). -/

namespace Sys2Proof.Machine

/-! ### IDENTIFY, SELFTEST (R606, R607) -/

/-- A Bool as bit `k` of a number. -/
def bitN (k : Nat) (b : Bool) : Nat := if b then 2 ^ k else 0

/-- IDENTIFY. -/
def identify (key : Nat) (src : Source) (s : State) : State :=
  let used := sectorsUsed s.journal
  let flags := bitN 0 s.power.safe + bitN 1 s.clock.valid + bitN 2 (decide (3072 ≤ used)) + bitN 3 (tailFull s.journal)
    + bitN 4 s.ktab.present + bitN 5 s.ktab.hold
  complete key (okay [(12, Lifecycle.code s.lifecycle), (13, Role.code s.pair.role), (14, tailPercent s.journal), (15, flags), (16, 1),
    (17, match src.port with | some p => p | none => 0xFF), (20, Config.serial.toNat % 2 ^ 64)]) s

/-- Checks that fail because their units are fenced: lanes bit 1, PKE bit 2. -/
def fencedChecks (s : State) : Nat := bitN 1 (anyLaneFenced s) + bitN 2 (anyPkeFenced s)
/-- What the known-answer tests find, from 8 free bits; that of a fenced unit is not run (R607). -/
def katsFound (v : Hash) (s : State) : KatResults where
  lanes := (List.range 4).map (fun n => s.isFenced 1 n || v.getLsbD n)
  pkes := (List.range 2).map (fun n => s.isFenced 2 n || v.getLsbD (4 + n))
  vault := v.getLsbD 6
  drbg := v.getLsbD 7

/-- SELFTEST: what the checks find is a free value; each failure raises the source it raises in operation, and a fenced unit fails its test; in SAFE entered through MATE a pass ends in a warm reset into normal boot (R92, R95, R97, R317, R444, R607). -/
def selftest (key : Nat) (s : State) : State :=
  let v := s.fresh
  let kats := katsFound v s
  let checker := v.getLsbD 8
  let image := (v.getLsbD 9, v.getLsbD 10)
  let found := (bitN 0 (!checker) + bitN 1 (!kats.lanes.all id) + bitN 2 (!kats.pkes.all id) + bitN 3 (!kats.vault) + bitN 4 (!kats.drbg)
    + bitN 5 (!(image.1 && image.2))) ||| fencedChecks s
  let s := katFaults kats s.drew
  let s := if checker then s else s.raise 38
  let s := if image.1 != image.2 then decisionSplit 2 s else s
  let leave : Bool := s.power.safe && bitAt s.power.rstCause 2 && found == 0
  let s := complete key (okay [(12, found)]) s
  if leave then warmReset 1 false (postAll s) else s

/-! ### Queues (R106 to R108) -/

/-- QUEUE_CREATE. -/
def queueCreate (key : Nat) (src : Source) (e : Entry) (s : State) : State :=
  let qid := e.param 8 2
  let p := (src.port).getD 0
  let n := e.param 0xA 2
  let m := e.param 0xC 2
  if qid / 64 ≠ p then complete key (invalidHandle 8) s
  else if qid % 64 = 0 ∨ (s.queue qid).isSome = true then complete key (conflict 8) s
  else if n < 2 ∨ 4096 < n then complete key (inputRange 0xA) s
  else if m < 2 ∨ 4096 < m then complete key (inputRange 0xC) s
  else if 127 < e.param 0xE 2 then complete key (inputRange 0xE) s
  else if 3 < e.param 0x10 1 then complete key (inputRange 0x10) s
  else if e.addr0.toNat % 4096 ≠ 0 then complete key (inputRange 0x28) s
  else if e.addr1.toNat % 4096 ≠ 0 then complete key (inputRange 0x30) s
  else
    let f := BitVec.ofNat 8 (e.param 0x11 1)
    complete key (okay []) (openQueue (freshQueue qid e.addr0 e.addr1 n m (e.param 0xE 2) (e.param 0x10 1) (bitAt f 0) (bitAt f 1) (BitVec.ofNat 32 (e.param 0x14 4))) s)

/-- Has a queue nothing left to complete or post? -/
def queueQuiet (s : State) (qid : Nat) : Bool :=
  !(s.cqe.inflight.any (fun c => c.src == .queue qid)) && !(s.cqe.held.any (fun h => h.src == .queue qid && h.kind != .unsolicited))

/-- QUEUE_DELETE ends once the queue's commands are completed and posted: it then removes the pair. -/
def queueDrained (key qid : Nat) (s : State) : State :=
  if queueQuiet s qid then complete key (okay []) (closeQueue qid s) else s

/-- QUEUE_DELETE. -/
def queueDelete (key : Nat) (src : Source) (e : Entry) (s : State) : State :=
  let qid := e.param 8 2
  match s.queue qid with
  | none => complete key (invalidHandle 8) s
  | some q =>
    if qid / 64 ≠ (src.port).getD 0 ∨ qid % 64 = 0 then complete key (invalidHandle 8) s
    else if q.deleting then complete key (conflict 9) s
    else queueDrained key qid ((s.setQueue qid (fun x => { x with deleting := true })).waitOn key (.queueDrain qid))

/-! ### ABORT (R134, R135) -/

/-- Is a command still without a first action: not started; waiting on entropy, a management request, a label or a card before its first frame or character; not yet dispatched by its lane; its job not yet by the public-key engine (R134, R135, R332, R338)? -/
def abortable (s : State) (c : Inflight) : Bool :=
  !c.past && (match c.wait with
    | .start => true
    | .entropy _ => true
    | .reserve _ => true
    | .room _ => true
    | .slot _ => true
    | .request => true
    | .flash => true
    | .lane n => !dispatched s n c.key
    | .pke _ => true
    | .label n => !((s.fe n).jobs.head?.map (fun j => j.key == c.key)).getD false
    | .card n => !((s.slot n).jobs.any (fun j => j.key == c.key && j.begun))
    | _ => false)

/-- ABORT. -/
def abort (key : Nat) (src : Source) (e : Entry) (s : State) : State :=
  let qid := e.param 8 2
  let tag : BitVec 16 := BitVec.ofNat 16 (e.param 0xA 2)
  let suits : Bool := match src with
    | .queue q => decide (qid / 64 = q / 64)
    | .mgmt => qid == 0xFFFE
    | .tag => qid == 0xFFFD
    | .internal _ _ => qid == 0xFFFC
  let mine (c : Inflight) : Bool := c.entry.tag == tag && c.key != key && (match src with | .queue _ => c.src == .queue qid | x => c.src.issuer == x.issuer)
  if suits = false then complete key (inputRange 8) s
  else match s.cqe.inflight.find? mine with
    | none => complete key (okay [(12, 1)]) s
    | some c =>
      if c.op = 0x0006 then complete key (okay [(12, 1)]) s
      else if abortable s c then
        complete key (okay [(12, 0)]) (complete c.key (conflict 5) (withdraw c s))
      else complete key (okay [(12, 2)]) s

/-! ### Custody time, logs (R608, R512) -/

/-- SET_TIME: the delta of subkind 3 sets custody time as the record is written. -/
def setTime (key : Nat) (e : Entry) (s : State) : State :=
  let new : DWord := BitVec.ofNat 64 (e.param 8 8)
  let old : DWord := if s.clock.valid then s.clock.time else 0
  complete key (okayWith [(12, old.toNat)] [custodyDelta s key 3 old new 0]) s

/-- VAULT_KILN_STAT. -/
def kilnStat (s : State) : Word := put32 16 s.kiln.count ||| put32 8 s.kiln.trigger ||| s.kiln.tiers.setWidth 32

/-- The 128 bytes of the fault summary. -/
def faultSummary (s : State) : List Byte :=
  leBytes 4 s.tamper.sticky.toNat ++ leBytes 4 s.tamper.cellMark.toNat ++ leBytes 4 s.tamper.testMark.toNat ++ leBytes 4 (kilnStat s).toNat
    ++ leBytes 4 s.power.rstCause.toNat ++ leBytes 4 (fencedWord s).toNat ++ leBytes 4 (faultStatus s).toNat ++ leBytes 4 (logHead s)
    ++ (List.range 8).flatMap (fun j => leBytes 4 (pendWord s j).toNat) ++ (List.range 8).flatMap (fun j => leBytes 4 (seenWord s j).toNat) ++ leBytes 32 0

/-- GET_LOG. -/
def getLog (key : Nat) (src : Source) (e : Entry) (s : State) : State :=
  let room := e.param 0x18 4
  let start := e.param 0x10 4
  let least := if e.param 8 1 = 1 then 32 else 128
  if room < least then complete key (lengthError least) s
  else if 16777216 < room then complete key (lengthError 16777216) s
  else if e.param 8 1 ≠ 1 then completeOutput key src room e.addr0 (faultSummary s) (okay [(12, 128)]) s
  else if start < logHead s then complete key (inputRange 0x10) s
  else
    let out := ((s.fault.log.filter (fun r => decide (start ≤ r.seq))).take (room / 32)).flatMap frecordBytes
    completeOutput key src room e.addr0 out (okay [(12, out.length)]) s

/-! ### Power (R69 to R71, R78) -/

/-- A castling in progress. -/
def castlingNow (s : State) : Bool := s.pair.castling != .none || s.pair.activating

/-- Why a dormant state is refused (R70): a partner heard and not yet as deep; an operation in progress; streams; records not SECURED. -/
def powerRefusal (s : State) (target : Nat) (force : Bool) : Option Nat :=
  let lager := target == 2
  if s.pair.role = .active ∧ (s.pair.pathA || s.pair.pathB) = true ∧ partnerWord s (fun w => decide (target ≤ wordPower w)) = false then some 1
  else if (castlingNow s || s.cqe.inflight.any (fun c => c.op == 0x0009 || c.op == 0x0305 || c.op == 0x0306 || c.op == 0x0406)) = true then some 2
  else if (lager && !force && !s.lanes.streams.isEmpty) = true then some 3
  else if (lager && !force && decide (s.journal.secured < s.journal.next)) = true then some 4
  else none

/-- POWER_STATE. -/
def powerState (key : Nat) (e : Entry) (s : State) : State :=
  let target := e.param 8 1
  let mode : PowerMode := if target = 2 then .lager else .steep
  if target = 0 then complete key (okay []) s
  else match powerRefusal s target (e.param 9 1 % 2 == 1) with
    | some r => complete key (conflict r) s
    | none => { s with power := { s.power with entering := some (mode, key) } }.waitOn key .power

/-- WAKE_POLICY (R78). -/
def wakePolicy (key : Nat) (e : Entry) (s : State) : State :=
  let bits := e.param 8 1
  let timer := e.param 0x10 8
  if bitAt (s.reg 0x400000FC 0) 0 then complete key (conflict 0) s
  else if bits / 16 % 2 = 1 ∧ timer ≤ s.clock.time.toNat then complete key (inputRange 0x10) s
  else complete key (okay [])
    (((({ s with power := { s.power with timerFired := false } } : State).setReg 0x40000014 (BitVec.ofNat 32 bits)).setReg 0x4000001C
      (BitVec.ofNat 32 timer)).setReg 0x40000020 (BitVec.ofNat 32 (timer / 2 ^ 32)))

/-! ### Diagnosis (R486, R507) -/

/-- FAULT_FORCE: the record first, then the completion, then the level's action. -/
def faultForce (key : Nat) (e : Entry) (s : State) : State :=
  match sourceInfo (e.param 8 2), forcedInput (e.param 8 2) (e.param 0xA 1) with
  | none, _ => complete key (inputRange 8) s
  | some _, none => complete key (inputRange 0xA) s
  | some _, some i =>
    let p := recordAll false [i] s
    let s := match p.1 with
      | r :: _ => complete key (okayWith [(12, Level.code r.applied), (16, r.seq)] (grantDelta s key 0 0)) p.2
      | [] => complete key (okayWith [] (grantDelta s key 0 0)) p.2
    actOn p.1 (if p.1.any (fun r => r.applied == .mate || r.applied == .kiln) then postAll s else s)

/-- TAMPER_TEST. -/
def tamperTest (key : Nat) (e : Entry) (s : State) : State :=
  let n := e.param 8 1
  if n < 128 ∨ 144 < n then complete key (inputRange 8) s
  else match bistRefusal s (n - 128) with
    | some 4 => complete key (conflict 2) s
    | some _ => complete key (conflict 0) s
    | none => bistBegin (n - 128) (s.waitOn key (.tamperTest n))

/-! ### Entropy (R363, R364, R368) -/

/-- RNG_READ: it always waits its turn in the source's queue. -/
def rngRead (again : Bool) (key : Nat) (src : Source) (e : Entry) (s : State) : State :=
  let len := e.param 8 4
  let mode := e.param 0xC 1
  let ms := e.param 0xE 2
  if len = 0 ∨ 65536 < len then complete key (lengthError 65536) s
  else if 1000 < ms then complete key (inputRange 0xE) s
  else if mode = 2 ∧ (s.lifecycle ≠ .commissioned ∨ rawTap s = false) then complete key (answer 0x4005 [(12, Lifecycle.code s.lifecycle)]) s
  else if again then completeOutput key src len e.addr0 (s.freshBytes len) (okay [(12, len)]) s.drew
  else
    let (id, s) := rngAsk (.command key) mode len ms s
    s.waitOn key (.entropy id)

/-- RNG_HFAIL. -/
def rngHfail (s : State) : Word := put32 16 s.rng.notLocked ||| put32 0 s.rng.alive
/-- RNG_STATUS.state. -/
def RngState.code : RngState → Nat
  | .starting => 0
  | .seeded => 1
  | .blocked => 2

/-- RNG_STATUS. -/
def rngStatus (key : Nat) (s : State) : State :=
  let flags := bitN 0 s.rng.oscFault + bitN 1 (cellRail s) + bitN 2 (rawTap s)
  complete key (okay [(12, RngState.code s.rng.state), (13, flags), (14, s.rng.queue.length + s.rng.waiting.length),
    (16, s.rng.aptFails + s.rng.rctFails), (20, (rngHfail s).toNat), (24, s.rng.reseeds)]) s

/-- LATCH_FIELD_READ: the records of the samples, then their restart when asked for. -/
def latchFieldRead (key : Nat) (src : Source) (e : Entry) (s : State) : State :=
  let room := e.param 0xC 4
  let r := s.rng
  let cell (k : Nat) : List Byte :=
    leBytes 2 (r.lfCodes.getD k 0) ++ leBytes 2 (r.lfLow.getD k 0) ++ leBytes 2 (r.lfHigh.getD k 0) ++ leBytes 2 (r.lfBig.getD k 0)
      ++ leBytes 2 (Config.lfBaseline k).toNat ++ [BitVec.ofNat 8 k] ++ leBytes 5 0
  if room < 272 then complete key (lengthError 272) s
  else
    let out := leBytes 8 r.lfTime.toNat ++ leBytes 4 r.lfCount ++ leBytes 4 0 ++ (List.range 16).flatMap cell
    completeOutput key src room e.addr0 out (okay [(12, 272)]) (if e.param 8 1 % 2 = 1 then latchRestart s else s)

/-! ### Pair (R545 to R547) -/

/-- Role the partner last gave. -/
def partnerRole (s : State) : Option Nat := s.pair.word.map wordRole

/-- PAIR_STATUS. -/
def pairStatus (key : Nat) (s : State) : State :=
  let flags := bitN 0 s.pairMode + bitN 1 s.pair.frozen + bitN 2 s.pair.pathA + bitN 3 s.pair.pathB + bitN 4 (preferredUnit s)
    + bitN 5 (partnerWord s (fun w => bitAt w 25)) + bitN 6 (revertive s && decide (0 < holdoffLeft s))
  complete key (okay [(12, Role.code s.pair.role), (13, (partnerRole s).getD 0xFF), (14, flags), (15, s.pair.progress), (16, s.pair.epoch % 2 ^ 64),
    (24, if revertive s then holdoffLeft s else 0xFFFFFFFF)]) s

/-- Ask for a planned castling: the active begins it, a standby asks the active (R546 mode 1). -/
def castleNow (key : Nat) (s : State) : State :=
  match s.pair.role with
  | .active => tryPlanned (some key) false (s.waitOn key .castle)
  | .standby =>
    if pairHears s then sendPair (.control .castleRequest) ((s.setPair (fun p => { p with castling := .requested (some key) })).waitOn key .castle)
    else complete key (conflict 1) s
  | _ => complete key (conflict 1) s

/-- CASTLE. A castling or an FW_ACTIVATE already in progress is reason 2. -/
def castle (key : Nat) (e : Entry) (s : State) : State :=
  let mode := e.param 8 1
  let drain := e.param 0xA 2
  if s.nvm.partner = none then complete key (conflict 0) s
  else if mode = 3 then
    if s.pair.pathA ∨ s.pair.pathB then complete key (conflict 1) s
    else
      let s := liftFreeze s
      complete key (okay [(12, s.pair.epoch), (20, Role.code s.pair.role)]) s
  else if mode = 2 ∧ (drain = 0 ∨ 3600 < drain) then complete key (inputRange 0xA) s
  else if (castlingNow s || s.cqe.inflight.any (fun c => c.op == 0x0009)) = true then complete key (conflict 2) s
  else if mode = 2 ∧ s.pair.role = .active ∧ s.lanes.streams ≠ [] then
    (s.setPair (fun p => { p with castling := .draining (some key) })).waitOn key .castle
  else castleNow key s

/-- The draining of mode 2 ends: no stream is left, or the timeout has come (R546). -/
def drainEnd (s : State) : State :=
  match s.pair.castling with
  | .draining key => tryPlanned key false (s.setPair (fun p => { p with castling := .none }))
  | _ => s

/-- PAIR_SET_PREFERRED. -/
def pairSetPreferred (key : Nat) (e : Entry) (s : State) : State :=
  let put (r : Option PrefRecord) : State :=
    let s := sendPair (.control (.preferred r)) { s with nvm := { s.nvm with preferred := r } }
    complete key (okay [(12, if preferredUnit s then 1 else 0)]) s
  match e.param 8 1 with
  | 0 => put (some ⟨Config.serial, s.pair.epoch⟩)
  | 1 => put (some ⟨partnerSerial s, s.pair.epoch⟩)
  | _ => put none

/-! ### Firmware (R609, R610) -/

/-- The image bank that the boot selector does not name. -/
def targetBank (s : State) : Nat := 1 - s.nvm.selector % 2
/-- Is an FW_STAGE or FW_ACTIVATE other than this command in progress? -/
def firmwareBusy (s : State) (key : Nat) : Bool := s.pair.activating || s.cqe.inflight.any (fun c => (c.op == 0x0008 || c.op == 0x0009) && c.key != key)

/-- Start the erase of the target bank, unprotected, once no operation runs on it; an erase that is refused is a DEVICE_FAULT (R609 steps 2 and 3). -/
def stageErase (key : Nat) (s : State) : State :=
  let b := targetBank s
  if (s.bank b).run.isSome then s
  else
    let s := s.setBank b (fun k => { k with prot := 0, suspended := none })
    let s := flashCommand b 2 0 0 s
    if (s.bank b).run.isSome then s.passPoint key else complete key (answer 0x6001 []) (flashLock s)

/-- Write the staged image: every other sector erased, the image programmed (R609 steps 3 and 4). -/
def stageWrite (b : Nat) (img : List Byte) (s : State) : State :=
  let one (s : State) (sec : Nat) : State :=
    let n := (assocGet sec (s.bank b).counts).getD 0
    let s := s.setBank b (fun k => { k with counts := assocSet sec (satInc 24 n) k.counts })
    if n + 1 = 100000 then s.raiseAt 166 ⟨0, 0⟩ 0 (BitVec.ofNat 64 (0x20000000 + bankAt b + 4096 * sec)) else s
  let s := (List.range 4094).foldl (fun s i => one s (i + 1)) s
  let s := s.clearMem 1 (bankAt b) (bankAt b + 16773120)
  let full (w : Nat) : Bool := fieldOf img (8 * w) 8 == 2 ^ 64 - 1
  let s := s.setBank b (fun k => { k with
    torn := k.torn.filter (· == 4095), started := k.started.filter (· == 4095), unspec := k.unspec.filter (fun w => decide (4095 * 512 ≤ w))
    ones := k.ones.filter (fun w => decide (4095 * 512 ≤ w)) ++ (List.range (img.length / 8)).filter full })
  s.writeBytes 1 (bankAt b) img

/-- The target bank's operation of FW_STAGE has ended: the rest of the steps, or DEVICE_FAULT (R609). One end of an operation stands for the whole sequence. DESIGN CHOICE -/
def stageEnd (key : Nat) (src : Source) (e : Entry) (ok : Bool) (s : State) : State :=
  let b := targetBank s
  if ok = false then complete key (answer 0x6001 []) (flashLock s)
  else match readInput s src (e.param 8 4) e.addr0 with
    | .error r => complete key r (flashLock s)
    | .ok img =>
      let s := stageWrite b img s
      let s := flashLock (s.setBank b (fun k => { k with prot := 0xFFFF }))
      let all := bankImage s b
      if Config.imageOk all = false then complete key (inputRange 0x28) s
      else complete key (okay [(12, (Config.imageDigest all).toNat % 2 ^ 64), (20, (Config.imageVersion all).toNat), (24, e.param 8 4)]) s

/-- FW_STAGE. -/
def fwStage (key : Nat) (src : Source) (e : Entry) (s : State) : State :=
  let len := e.param 8 4
  if len < 4096 ∨ 16773120 < len ∨ len % 8 ≠ 0 then complete key (lengthError 16773120) s
  else if firmwareBusy s key then complete key (conflict 2) s
  else if s.flash.lockout then complete key (conflict 0) s
  else match readInput s src len e.addr0 with
    | .error r => complete key r s
    | .ok _ =>
      let s := flashUnlock (BitVec.ofNat 128 (e.param 0x10 16)) s
      if s.flash.pwResult = 1 then complete key (notAuthorized 4) s
      else if s.flash.pwResult ≠ 0 then complete key (conflict 0) s
      else stageErase key (s.waitOn key .flash)

/-- An operation of a bank ends, and with it what FW_STAGE waits for there (R471, R609). -/
def flashOpEnd (b : Nat) (res : FlashEnd) (s : State) : State :=
  let ran := (s.bank b).run.isSome
  let s := flashDone b res s
  match s.cqe.inflight.find? (fun c => c.wait == .flash) with
  | none => s
  | some c =>
    if ran = false ∨ b ≠ targetBank s then s
    else if c.past then stageEnd c.key c.src c.entry (res == .ok) s
    else stageErase c.key s

/-- FW_ACTIVATE: the selector names the target bank; then the warm reset, by way of a planned castling in pair mode (R610). -/
def fwActivate (key : Nat) (e : Entry) (s : State) : State :=
  let all := bankImage s (targetBank s)
  let d := (Config.imageDigest all).toNat % 2 ^ 128
  let pairing := s.pair.role == .active && s.pairMode
  if firmwareBusy s key then complete key (conflict 2) s
  else if d ≠ e.param 8 16 ∨ Config.imageOk all = false then complete key (inputRange 8) s
  else if pairing = true ∧ castleReady s = false then complete key (conflict 1) s
  else
    let s := complete key (okayWith [(12, d)] (grantDelta s key 0 0)) { s with nvm := { s.nvm with selector := targetBank s } }
    let s := postAll s
    if pairing then beginPlanned none true (s.setPair (fun p => { p with activating := true, leaving := true }))
    else warmReset 1 false s

end Sys2Proof.Machine
end

