-- ==== Sys2Proof/Machine/PkCmds.lean ====
section
/-! DEFINITION. The bodies of the public-key commands and ATTEST (10_public_key_engine.md, R323 to R344). -/

namespace Sys2Proof.Machine

/-- The parameters of a public-key entry; `op` is the descriptor's operation code (R323, R346). Host and ring jobs have priority 0 (R330). -/
def pkParams (op : Nat) (e : Entry) : PkeParams :=
  ⟨e.param 8 1, op, e.param 9 1, e.param 0xA 1, e.param 0xB 1, 0, e.param 0xC 2, e.param 0xE 2, e.param 0x18 1⟩

/-- A public-key command: the checks of R324, the fences of R331, then a job in the ring. -/
def pkCommand (op key : Nat) (src : Source) (e : Entry) (s : State) : State :=
  let p := pkParams op e
  match pkeCheck p (e.param 0x10 4) (e.param 0x14 4) src.kernel with
  | some r => complete key r s
  | none =>
    if pkeFenced s then complete key (unitFenced 2 0xFF) s
    else if p.alg = 1 ∧ op = 6 ∧ anyPkeFenced s = true then complete key (unitFenced 2 (if s.isFenced 2 0 then 0 else 1)) s
    else match readInput s src (e.param 0x10 4) e.addr0 with
      | .error r => complete key r s
      | .ok input =>
        let (n, s) := pushJob p input (e.param 0x14 4) (some key) s
        s.waitOn key (.pke n)

/-- Role byte of an attestation report: 1 active, 2 standby, 0 otherwise. -/
def attestRole : Role → Nat
  | .active => 1
  | .standby => 2
  | _ => 0

/-- The report up to its signatures (R344). -/
def attestHead (e : Entry) (s : State) : List Byte :=
  leBytes 4 0x41545354 ++ leBytes 2 1 ++ leBytes 2 1 ++ leBytes 16 Config.serial.toNat ++ leBytes 4 s.pairTag.toNat
    ++ leBytes 1 (Lifecycle.code s.lifecycle) ++ leBytes 1 (attestRole s.pair.role) ++ [0, 0] ++ leBytes 16 (e.param 8 16)
    ++ leBytes 8 (if s.clock.valid then s.clock.time.toNat else 0) ++ leBytes 8 s.journal.next ++ leBytes 32 s.journal.chain.toNat
    ++ leBytes 32 romDigest.toNat ++ leBytes 32 (imageMeasurement s).toNat ++ leBytes 32 Config.policyDigest.toNat
    ++ leBytes 4 (Config.imageVersion (bankImage s s.power.runningBank)).toNat ++ leBytes 4 s.tamper.sticky.toNat ++ leBytes 24 0

/-- ATTEST: a pair of signing jobs, then the report, with the chain on request. -/
def attest (again : Bool) (key : Nat) (src : Source) (e : Entry) (s : State) : State :=
  let chain := e.param 0x18 1 % 2 == 1
  let need := if chain then 23224 else 4952
  let room := e.param 0x1C 4
  if room < need then complete key (lengthError need) s
  else if pkeFenced s then complete key (unitFenced 2 0xFF) s
  else
    let head := attestHead e s
    if again then
      let out := head ++ signPair s head ++ (if chain then certificateChain else [])
      completeOutput key src room e.addr0 out (okay [(12, need)]) s.drew
    else pushSign 3 key head s

end Sys2Proof.Machine
end

