-- ==== Sys2Proof/Machine/Submit.lean ====
section
/-! DEFINITION. How an entry is taken in: the table of opcodes and transports, the checks of R120 in their order, acceptance, the start of a command, the fetch rounds, doorbells and frames (04_yomir_command_protocol.md, R109 to R129, R144 to R147; 00_scope.md, R14, R15, R611; 09_vault_kiln_lifecycle.md, R296, R305; 18_castling_pair_operation.md, R521). -/

namespace Sys2Proof.Machine

/-! ### Opcodes and transports (R128) -/

/-- A row of R128: host queues, management port, tag interface, how many rings from ring 0 may issue it, admin queue only. -/
structure OpRow where
  host  : Bool
  mgmt  : Bool
  tag   : Bool
  rings : Nat
  admin : Bool

/-- Rows on host queues and maybe the management port. -/
def hostOnly (rings : Nat) : OpRow := ⟨true, false, false, rings, false⟩
/-- Rows on host queues and the management port. -/
def hostMgmt (rings : Nat) : OpRow := ⟨true, true, false, rings, false⟩
/-- Rows on every transport. -/
def allWays (rings : Nat) : OpRow := ⟨true, true, true, rings, false⟩
/-- Rows on the admin queue alone. -/
def adminOnly : OpRow := ⟨true, false, false, 0, true⟩

/-- Admin, key and stream rows. -/
def opRowsLow : List (Nat × OpRow) :=
  [(0x0001, allWays 4), (0x0002, adminOnly), (0x0003, adminOnly), (0x0004, hostMgmt 2), (0x0005, allWays 3), (0x0006, hostMgmt 3),
   (0x0008, hostMgmt 0), (0x0009, hostMgmt 0),
   (0x0101, hostOnly 2), (0x0102, hostOnly 3), (0x0103, hostOnly 2), (0x0104, hostOnly 2), (0x0105, hostOnly 2), (0x0106, hostOnly 0),
   (0x0107, hostOnly 2), (0x0108, hostOnly 2),
   (0x0201, hostOnly 0), (0x0202, hostOnly 0), (0x0203, hostOnly 0), (0x0204, hostOnly 0), (0x0205, hostOnly 0), (0x0206, hostOnly 0),
   (0x0207, hostOnly 0), (0x0208, hostOnly 3)]
/-- Manifest, journal, public-key and random rows. -/
def opRowsMid : List (Nat × OpRow) :=
  [(0x0301, hostOnly 2), (0x0302, hostMgmt 3), (0x0303, hostMgmt 3), (0x0304, hostMgmt 2), (0x0305, hostOnly 0), (0x0306, hostOnly 0),
   (0x0401, hostOnly 2), (0x0402, hostMgmt 4), (0x0403, hostOnly 3), (0x0404, hostOnly 2), (0x0405, hostOnly 2), (0x0406, hostOnly 2),
   (0x0407, allWays 3), (0x0408, hostOnly 3), (0x0501, hostOnly 4), (0x0502, hostMgmt 3)]
/-- Custody, pair, power, reader, card and diagnostic rows. -/
def opRowsHigh : List (Nat × OpRow) :=
  [(0x0601, hostMgmt 0), (0x0602, hostMgmt 0), (0x0603, hostMgmt 0), (0x0604, hostMgmt 0), (0x0701, allWays 3), (0x0702, hostMgmt 0),
   (0x0703, hostMgmt 0), (0x0801, hostMgmt 0), (0x0802, hostMgmt 2), (0x0901, hostMgmt 3), (0x0902, hostMgmt 3), (0x0903, hostMgmt 2),
   (0x0904, hostMgmt 2), (0x0905, hostMgmt 3), (0x0A01, hostMgmt 3), (0x0A02, hostOnly 2), (0x0A03, hostOnly 2), (0x0F01, hostMgmt 0),
   (0x0F02, hostMgmt 0), (0x0F03, hostMgmt 0), (0x0F04, hostMgmt 2)]
/-- The row of an opcode; none when it is undefined. -/
def opRow (op : BitVec 16) : Option OpRow := assocGet op.toNat (opRowsLow ++ opRowsMid ++ opRowsHigh)

/-- May a row arrive from a source: none, or the reason of NOT_AUTHORIZED (R129, R146). `auth`: the tag interface has an open session. -/
def transportRefusal (op : BitVec 16) (r : OpRow) (auth : Bool) : Source → Option Nat
  | .queue q => if r.host = false ∨ (r.admin = true ∧ q % 64 ≠ 0) then some 1 else none
  | .mgmt => if r.mgmt then none else some 1
  | .tag => if r.tag = false then some 1 else if auth = false ∧ op ≠ 0x0001 ∧ op ≠ 0x0407 then some 3 else none
  | .internal n _ => if r.rings = 0 then some 1 else if r.rings ≤ n then some 2 else none

/-! ### Reserved fields and values (R15, R611) -/

/-- The bits a field may set: `n` bytes at an offset, under a mask. -/
def fieldMask (off mask : Nat) : Nat := mask * 2 ^ (8 * off)
/-- Whole fields: (offset, bytes) pairs. -/
def fieldsMask (l : List (Nat × Nat)) : Nat := l.foldl (fun a f => a ||| fieldMask f.1 (2 ^ (8 * f.2) - 1)) 0
/-- The handle field. -/
def hMask : Nat := fieldsMask [(6, 2)]
/-- addr0. -/
def a0Mask : Nat := fieldsMask [(0x28, 8)]
/-- addr1. -/
def a1Mask : Nat := fieldsMask [(0x30, 8)]
/-- Opcode, flags, tag, sequence number and CRC: in use in every entry (R112). -/
def commonMask : Nat := fieldsMask [(0, 2), (4, 2), (0x38, 4), (0x3C, 4)] ||| fieldMask 2 7

/-- Bits in use by the admin, key and stream commands (the opcodes' chapters). -/
def usedLow (granted : Bool) (op : Nat) (src : Source) (e : Entry) : Nat :=
  match op / 256, op % 256 with
  | 0, 2 => fieldsMask [(8, 2), (0xA, 2), (0xC, 2), (0xE, 2), (0x10, 1), (0x14, 4)] ||| fieldMask 0x11 3 ||| a0Mask ||| a1Mask
  | 0, 3 => fieldsMask [(8, 2)]
  | 0, 4 => fieldsMask [(8, 8)] ||| (if granted then hMask else 0)
  | 0, 5 => fieldsMask ([(8, 1), (0x18, 4)] ++ if e.param 8 1 = 1 then [(0x10, 4)] else []) ||| a0Mask
  | 0, 6 => fieldsMask [(8, 2), (0xA, 2)]
  | 0, 8 => fieldsMask [(8, 4), (0x10, 16)] ||| a0Mask
  | 0, 9 => fieldsMask [(8, 16)] ||| hMask
  | 1, 1 => fieldsMask [(8, 16)] ||| fieldMask 0x18 0xFFFF0001
  | 1, 2 => fieldsMask [(8, 16)]
  | 1, 3 => fieldsMask [(8, 4)]
  | 1, 4 => fieldsMask ([(8, 4), (0xC, 1)] ++ if e.param 0xC 1 = 3 then [(0x10, 8)] else []) ||| (if e.param 0xC 1 = 2 then hMask else 0)
  | 1, 5 => fieldsMask [(8, 4)] ||| hMask
  | 1, 6 => fieldsMask [(8, 4), (0x10, 4)] ||| a0Mask ||| a1Mask ||| hMask
  | 1, 7 => fieldsMask [(8, 4), (0xC, 4)] ||| a0Mask ||| a1Mask
  | 1, 8 => fieldsMask [(8, 4), (0xC, 1)]
  | 2, 1 => fieldsMask [(8, 4), (0xC, 4), (0x10, 8), (0x18, 4)]
  | 2, 2 => fieldsMask [(8, 4)] ||| hMask ||| a0Mask ||| a1Mask
  | 2, 3 => hMask ||| a1Mask
  | 2, 4 => fieldsMask [(8, 4), (0xC, 4), (0x10, 8), (0x18, 8), (0x20, 4), (0x24, 4)]
  | 2, 5 => fieldsMask [(8, 4)] ||| hMask ||| a0Mask ||| a1Mask
  | 2, 6 => fieldsMask [(8, 16)] ||| hMask ||| a1Mask
  | 2, 7 => hMask
  | 2, 8 => match src with | .internal _ _ => fieldsMask [(8, 2), (0xA, 2)] | _ => hMask
  | _, _ => 0

/-- Bits in use by the manifest, journal, public-key and random commands. -/
def usedMid (op : Nat) (e : Entry) : Nat :=
  let mode := e.param 8 1
  match op / 256, op % 256 with
  | 3, 1 => fieldsMask [(8, 16), (0x18, 8), (0x20, 8)] ||| fieldMask 6 3
  | 3, 2 => fieldsMask [(8, 16), (0x18, 8), (0x20, 4)] ||| fieldMask 6 1 ||| a0Mask
  | 3, 3 => fieldsMask ([(8, 1), (0x18, 4)] ++ if mode = 1 then [(0x10, 2), (0x14, 4)] else [(0x10, 8)]) ||| a0Mask
  | 3, 5 => fieldsMask ([(8, 1)] ++ (if mode = 3 then [(0x10, 8), (0x18, 16)] else []) ++ if mode = 1 ∨ mode = 2 then [(0x18, 8), (0x28, 8)] else [])
  | 3, 6 => fieldsMask ([(8, 1)] ++ if mode = 1 ∨ mode = 2 then [(0x10, 8), (0x28, 8)] else []) ||| hMask
  | 4, 7 => fieldsMask [(8, 16), (0x1C, 4)] ||| fieldMask 0x18 1 ||| a0Mask
  | 4, _ => fieldsMask [(8, 1), (9, 1), (0xA, 1), (0xB, 1), (0xC, 2), (0xE, 2), (0x10, 4), (0x14, 4), (0x18, 1)] ||| a0Mask ||| a1Mask
  | 5, 1 => fieldsMask [(8, 4), (0xC, 1), (0xE, 2)] ||| a0Mask
  | _, _ => 0

/-- Bits in use by the custody, pair, power, reader, card and diagnostic commands. -/
def usedHigh (op : Nat) (e : Entry) : Nat :=
  let mode := e.param 8 1
  let fn := e.param 9 1
  match op / 256, op % 256 with
  | 6, 1 => fieldsMask [(8, 1), (0x10, 8), (0x18, 4), (0x1C, 4)] ||| a0Mask
  | 6, 2 => fieldsMask ([(8, 1), (0xA, 1), (0x10, 4)] ++ if mode = 1 then [(9, 1)] else [(0x28, 8)]) ||| hMask
  | 6, 3 => hMask
  | 6, 4 => fieldsMask ([(8, 1)] ++ (if mode = 1 ∨ mode = 2 then [(9, 1), (0xA, 1)] else []) ++ (if mode = 1 then [(0xB, 1)] else [])
      ++ if mode = 1 ∨ mode = 2 ∨ mode = 5 then [(0x10, 4), (0x28, 8)] else []) ||| (if mode = 1 then 0 else hMask)
  | 7, 2 => fieldsMask ([(8, 1)] ++ if mode = 2 then [(0xA, 2)] else [])
  | 7, 3 => fieldsMask [(8, 1)]
  | 8, 1 => fieldsMask [(8, 1)] ||| fieldMask 9 1
  | 8, 2 => fieldMask 8 0x3F ||| fieldsMask [(0x10, 8)]
  | 9, 1 => fieldMask 8 (2 ^ 48 - 1) ||| fieldMask 0x10 1 ||| a0Mask
  | 9, 2 => fieldsMask [(8, 1), (9, 1), (0xA, 2), (0xC, 2), (0x10, 7)] ||| a0Mask
  | 9, 3 => fieldsMask [(8, 1), (9, 1), (0xA, 2), (0xC, 2), (0x10, 7)] ||| fieldMask 0x18 0x80FFFFFF ||| a0Mask
  | 9, 4 => fieldsMask [(8, 2), (0xC, 2)] ||| a0Mask
  | 9, 5 => fieldsMask [(8, 4)] ||| a0Mask
  | 10, 1 => fieldsMask [(8, 1), (0xC, 4)] ||| a0Mask
  | 10, 2 => fieldsMask [(8, 1), (0xC, 4), (0x10, 4), (0x14, 2)] ||| a0Mask ||| a1Mask
  | 10, 3 => fieldsMask ([(8, 1), (9, 1)] ++ (if fn = 2 ∨ fn = 3 ∨ fn = 4 then [(0xA, 2), (0xC, 4)] else [])
      ++ if fn = 1 ∨ fn = 2 ∨ fn = 3 then [(0x28, 8)] else [])
  | 15, 2 => fieldsMask [(8, 2), (0xA, 1)] ||| hMask
  | 15, 3 => fieldsMask [(8, 1)]
  | 15, 4 => fieldMask 8 1 ||| fieldsMask [(0xC, 4)] ||| a0Mask
  | _, _ => 0

/-- Enumerated fields of an opcode that hold a value no case defines: their offsets. -/
def enumBad (op : Nat) (e : Entry) : List Nat :=
  let v := e.param 8 1
  let one (off : Nat) (ok : Bool) : List Nat := if ok then [] else [off]
  match op / 256, op % 256 with
  | 0, 5 => one 8 (decide (1 ≤ v ∧ v ≤ 2))
  | 1, 4 => one 0xC (decide (1 ≤ e.param 0xC 1 ∧ e.param 0xC 1 ≤ 3))
  | 1, 8 => one 0xC (decide (e.param 0xC 1 ≤ 1))
  | 3, 3 => one 8 (decide (v ≤ 1))
  | 3, 5 => one 8 (decide (v ≤ 3))
  | 3, 6 => one 8 (decide (1 ≤ v ∧ v ≤ 3))
  | 4, 7 => []
  | 4, _ => one 8 (decide (1 ≤ v ∧ v ≤ 11)) ++ one 9 (decide (e.param 9 1 ≤ 3)) ++ one 0xA (decide (e.param 0xA 1 ≤ 6)) ++ one 0xB (decide (e.param 0xB 1 ≤ 2))
  | 5, 1 => one 0xC (decide (e.param 0xC 1 ≤ 2))
  | 6, 1 => one 8 (decide (1 ≤ v ∧ v ≤ 7))
  | 6, 2 => one 8 (decide (v ≤ 1))
  | 6, 4 => one 8 (decide (1 ≤ v ∧ v ≤ 5)) ++ one 0xB (decide (v ≠ 1 ∨ e.param 0xB 1 ≤ 1))
  | 7, 2 => one 8 (decide (1 ≤ v ∧ v ≤ 3))
  | 7, 3 => one 8 (decide (v ≤ 2))
  | 8, 1 => one 8 (decide (v ≤ 2))
  | 10, 3 => one 9 (decide (1 ≤ e.param 9 1 ∧ e.param 9 1 ≤ 6))
  | _, _ => []

/-- Does SET_TIME need a grant now, so that its handle field names one: a move backwards of a valid time (R608)? -/
def setTimeGranted (s : State) (e : Entry) : Bool := s.clock.valid && decide (e.param 8 8 < s.clock.time.toNat)

/-- All bits an entry may set; `granted`: a SET_TIME that needs a grant. The tag interface carries no addresses (R578). -/
def usedMask (granted : Bool) (op : BitVec 16) (src : Source) (e : Entry) : Nat :=
  let n := op.toNat
  let own := if n < 0x0300 then usedLow granted n src e else if n < 0x0600 then usedMid n e else usedHigh n e
  commonMask ||| (if src = .tag then own % 2 ^ (8 * 0x28) else own)

/-- The lowest-addressed offending byte of an entry, by the table of its opcode; a nonzero address of MANIFEST_COMMIT counts from the field's own offset (R266). -/
def reservedOffset (granted : Bool) (op : BitVec 16) (src : Source) (e : Entry) : Option Nat :=
  let bits := leNat (entryBytes op e)
  let used := usedMask granted op src e
  let bad := bits - (bits &&& used)
  let byte := (List.range 64).find? (fun i => bad / 2 ^ (8 * i) % 256 != 0)
  let byte := if op = 0x0301 then byte.map (fun i => if i < 0x28 then i else if i < 0x30 then 0x28 else if i < 0x38 then 0x30 else i) else byte
  (enumBad op.toNat e).foldl (fun a o => match a with | none => some o | some b => some (min o b)) byte

/-! ### Step 8: tags and streams (R113, R115) -/

/-- Does an uncompleted entry of the source carry a tag? -/
def tagInUse (s : State) (src : Source) (tag : BitVec 16) : Bool :=
  s.cqe.inflight.any (fun c => c.src.issuer == src.issuer && c.entry.tag == tag)
    || s.cqe.held.any (fun h => h.src.issuer == src.issuer && h.kind == .final && h.comp.tag == tag)

/-- Does a stream command arrive on a queue other than the one that opened the stream? -/
def wrongQueue (s : State) (op : BitVec 16) (src : Source) (e : Entry) : Bool :=
  match src with
  | .queue q => streamOp op && (match s.stream e.handle.toNat with | some x => x.queue != q | none => false)
  | _ => false

/-! ### Steps 4 to 9 (R120) -/

/-- The opcodes SAFE allows (R96). -/
def safeOp (op : BitVec 16) : Bool := op == 0x0001 || op == 0x0005 || op == 0x0701 || op == 0x0F01

/-- Is the DDR5 journal ring close to full (R262)? -/
def ringNearFull (s : State) : Bool := decide (15 * 2 ^ 30 < bytesBetween s.journal.recs s.journal.secured s.journal.next)
/-- Opcodes that go on then. -/
def ringExempt (op : BitVec 16) : Bool := op == 0x0305 || op == 0x0303 || op == 0x0001 || op == 0x0005

/-- The first failure among steps 4 to 9. -/
def firstChecks (s : State) (op : BitVec 16) (src : Source) (e : Entry) (auth : Bool) : Option Result :=
  match opRow op with
  | none => some (answer 0x2001 [])
  | some r =>
    if s.power.safe = true ∧ safeOp op = false then some (answer 0x6001 [])
    else match transportRefusal op r auth src with
      | some n => some (notAuthorized n)
      | none => match reservedOffset (setTimeGranted s e) op src e with
        | some off => some (invalidField off)
        | none =>
          if e.tag = 0xFFFF ∨ tagInUse s src e.tag = true then some (invalidField 4)
          else if wrongQueue s op src e then some (conflict 7)
          else if e.durable = true ∧ s.clock.valid = false ∧ op ≠ 0x0004 then some (conflict 6)
          else if (e.durable && tailFull s.journal || ringNearFull s && !ringExempt op) = true then some (answer 0x3008 [])
          else none

/-! ### Step 10: module state (R48, R98, R296, R305, R521, R546) -/

/-- Is an opcode permitted in a lifecycle state (R296)? -/
def lifecycleAllows (l : Lifecycle) (op : Nat) (e : Entry) : Bool :=
  let g := op / 256
  let pk := op == 0x0402 || op == 0x0403 || op == 0x0407 || op == 0x0408
  let common := decide (g = 0) || decide (g = 5) || decide (8 ≤ g ∧ g ≤ 10)
  match l with
  | .blank => common || pk || decide (g = 15) || op == 0x0701 || (op == 0x0604 && (e.param 8 1 == 1 || e.param 8 1 == 4 || e.param 8 1 == 5))
  | .keyless => common || pk || decide (g = 6) || op == 0x0701 || op == 0x0303 || op == 0x0306 || op == 0x0F01 || op == 0x0F03
  | .retired => op == 1 || op == 2 || op == 3 || op == 5 || op == 0x0407 || op == 0x0701 || op == 0x0F01
  | _ => true

/-- Opcodes that complete NO_HISTORY without a key table (R98). -/
def needsTable (op : Nat) : Bool := decide (op / 256 = 1) || op == 0x0201 || op == 0x0204 || op == 0x0301 || op == 0x0305

/-- The grant a command needs now: class and target (R128, R300, R305). -/
def grantNeeded (s : State) (op : Nat) (src : Source) (e : Entry) : Option (Nat × DWord) :=
  let kh : Word := BitVec.ofNat 32 (e.param 8 4)
  let r := s.ktab.record (khIndex kh)
  let held : Bool := s.ktab.khResult kh == 0 && r.state == .retained
  if op = 0x0004 then
    if setTimeGranted s e then some (6, BitVec.ofNat 64 (e.param 8 8)) else none
  else if op = 0x0009 then some (2, BitVec.ofNat 64 (e.param 8 8))
  else if op = 0x0104 then
    if held = true ∧ e.param 0xC 1 = 2 ∧ s.clock.time.toNat < r.retainUntil.toNat then some (3, kh.setWidth 64) else none
  else if op = 0x0105 then (if held then some (3, kh.setWidth 64) else none)
  else if op = 0x0106 then some (1, (Config.sha3 (leBytes 4 kh.toNat ++ directBytes s src e.addr1 1664)).setWidth 64)
  else if op = 0x0306 then
    if s.lifecycle = .keyless then
      let num := if e.param 8 1 = 3 then s.journal.lastImage
        else match readInput s src (e.param 0x10 8) e.addr0 with | .ok b => fieldOf b 8 8 | .error _ => 0
      some (5, BitVec.ofNat 64 num)
    else none
  else if op = 0x0604 then (if s.lifecycle = .blank ∨ e.param 8 1 = 1 then none else some (4, BitVec.ofNat 64 (e.param 8 1)))
  else if op = 0x0F02 then (if s.lifecycle = .field then some (7, BitVec.ofNat 64 (e.param 8 2)) else none)
  else none

/-- Opcodes permitted in ELECTING, SYNCING and STANDBY (R521). Custody commands are permitted besides while KEYLESS or BLANK: R316 and R541 need them there. DEDUCED -/
def roleAllows (s : State) (op : Nat) : Bool :=
  match s.pair.role with
  | .active => true
  | .solo => true
  | _ =>
    [0x0001, 0x0002, 0x0003, 0x0005, 0x0006, 0x0008, 0x0302, 0x0303, 0x0402, 0x0403, 0x0408, 0x0407, 0x0501, 0x0502, 0x0801, 0x0802,
     0x0F01, 0x0F03, 0x0F04].contains op
    || decide (op / 256 = 7) || (s.lifecycle == .keyless && decide (op / 256 = 6)) || (s.lifecycle == .blank && op == 0x0604)

/-- Are opens refused while a castling of mode 2 drains (R546)? -/
def drainingOpens (s : State) (op : Nat) : Bool :=
  (match s.pair.castling with | .draining _ => true | _ => false) && (op == 0x0201 || op == 0x0204)

/-- Step 10: a failure, or the state with the grant reserved for the command. -/
def stateChecks (op : Nat) (src : Source) (e : Entry) (key : Nat) (s : State) : Except Result State :=
  if lifecycleAllows s.lifecycle op e = false then
    .error (if s.lifecycle = .keyless then answer 0x4004 [] else answer 0x4005 [(12, Lifecycle.code s.lifecycle)])
  else if (s.lifecycle = Lifecycle.commissioned ∨ s.lifecycle = Lifecycle.field) ∧ needsTable op = true ∧ s.ktab.present = false then .error (answer 0x4006 [])
  else
    let granted : Except Result State := match grantNeeded s op src e with
      | none => .ok s
      | some (cls, target) =>
        if grantUsable s e.handle cls target then .ok (reserveGrant e.handle key s) else .error (answer 0x4002 [])
    match granted with
    | .error r => .error r
    | .ok t =>
      if s.power.withdrawing = true ∨ roleAllows s op = false then .error (conflict 0)
      else if drainingOpens s op then .error (conflict 2)
      else .ok t

/-! ### Step 11: the commands' bodies -/

/-- Admin, key, stream and journal bodies. `again`: random bytes or a signature it waited for are there. -/
def bodyLow (again : Bool) (op key : Nat) (src : Source) (e : Entry) (s : State) : State :=
  match op / 256, op % 256 with
  | 0, 1 => identify key src s
  | 0, 2 => queueCreate key src e s
  | 0, 3 => queueDelete key src e s
  | 0, 4 => setTime key e s
  | 0, 5 => getLog key src e s
  | 0, 6 => abort key src e s
  | 0, 8 => fwStage key src e s
  | 0, 9 => fwActivate key e s
  | 1, 1 => keyCreate again key e s
  | 1, 2 => keyLookup key e s
  | 1, 3 => keyRotate again key e s
  | 1, 4 => keySetState key e s
  | 1, 5 => keyShred key e s
  | 1, 6 => keyExport again key src e s
  | 1, 7 => keyImport key src e s
  | 1, 8 => keyPin key e s
  | 2, 1 => sealOpen key e s
  | 2, 4 => unsealOpen key e s
  | 2, 7 => streamAbort key e s
  | 2, 8 => streamQuery key src e s
  | 2, _ => streamCommand key e s
  | 3, 1 => manifestCommit key e s
  | 3, 2 => manifestRead key src e s
  | 3, 3 => journalRead key src e s
  | 3, 4 => journalCheckpoint again key s
  | 3, 5 => vaultExport again key src e s
  | _, _ => vaultImport again key src e s

/-- Public-key, random, custody, pair, power, reader, card and diagnostic bodies. -/
def bodyHigh (again : Bool) (op key : Nat) (src : Source) (e : Entry) (s : State) : State :=
  match op / 256, op % 256 with
  | 4, 1 => pkCommand 1 key src e s
  | 4, 2 => pkCommand 2 key src e s
  | 4, 3 => pkCommand 3 key src e s
  | 4, 4 => pkCommand 4 key src e s
  | 4, 5 => pkCommand 5 key src e s
  | 4, 6 => pkCommand 6 key src e s
  | 4, 7 => attest again key src e s
  | 4, _ => pkCommand 7 key src e s
  | 5, 1 => rngRead again key src e s
  | 5, _ => rngStatus key s
  | 6, 1 => quorumBegin again key src e s
  | 6, 2 => quorumApprove again key src e s
  | 6, 3 => quorumEnd key e s
  | 6, _ => custodianEnroll again key src e s
  | 7, 1 => pairStatus key s
  | 7, 2 => castle key e s
  | 7, _ => pairSetPreferred key e s
  | 8, 1 => powerState key e s
  | 8, _ => wakePolicy key e s
  | 9, 1 => slotScan key src e s
  | 9, 2 => labelCommand false key src e s
  | 9, 3 => labelCommand true key src e s
  | 9, 4 => placardWrite key src e s
  | 9, _ => slotEvents key src e s
  | 10, 1 => cardStatus key src e s
  | 10, 2 => cardApdu key src e s
  | 10, _ => tokenOp key src e s
  | 15, 1 => selftest key s
  | 15, 2 => faultForce key e s
  | 15, 3 => tamperTest key e s
  | _, _ => latchFieldRead key src e s

/-- Output length of a tag-interface command (R578). -/
def tagOutLength (op : Nat) (e : Entry) : Nat := if op = 0x0005 then e.param 0x18 4 else if op = 0x0407 then e.param 0x1C 4 else 0

/-- Carry out a command. -/
def runBody (again : Bool) (c : Inflight) (s : State) : State :=
  let op := c.op.toNat
  if c.src = .tag ∧ 8192 < tagOutLength op c.entry then complete c.key (lengthError 8192) s
  else if op < 0x0400 then bodyLow again op c.key c.src c.entry s
  else bodyHigh again op c.key c.src c.entry s

/-! ### Acceptance (R120 to R123) -/

/-- The expected sequence number of a source. -/
def expectedSeq (s : State) : Source → Word
  | .queue q => match s.queue q with | some x => x.expSeq | none => 0
  | .mgmt => s.cqe.mgmtSeq
  | .tag => s.cqe.tagSeq
  | .internal n _ => s.cqe.ringSeq.getD n 0
/-- Set it. -/
def setExpected (v : Word) (s : State) : Source → State
  | .queue q => s.setQueue q (fun x => { x with expSeq := v })
  | .mgmt => { s with cqe := { s.cqe with mgmtSeq := v } }
  | .tag => { s with cqe := { s.cqe with tagSeq := v } }
  | .internal n _ => { s with cqe := { s.cqe with ringSeq := s.cqe.ringSeq.set n v } }

/-- Steps 1 to 3: 0 passed, else the reason of HOST_LINK_ERROR (R120, R122). -/
def integrity (fetched : Bool) (op : BitVec 16) (e : Entry) (expected : Word) : Nat :=
  if fetched = false then 3
  else if crc32c ((entryBytes op e).take 60) ≠ e.crc then 1
  else if e.seq ≠ expected then 2
  else 0

/-- The entry a failed fetch leaves: no data, tag and sequence number all ones (R122). -/
def noEntry : Entry where
  flags := 0
  byte3 := 0
  tag := 0xFFFF
  handle := 0
  params := 0
  addr0 := 0
  addr1 := 0
  seq := 0xFFFFFFFF
  crc := 0

/-- Sources 180 and 181 with the CQE's counters (R121). -/
def countIntegrity (reason : Nat) (src : Source) (s : State) : State :=
  let u : FUnit := match src.port with | some p => .port p | none => .module
  if reason = 1 then ({ s with cqe := { s.cqe with crcFails := satInc 16 s.cqe.crcFails } }).raiseAt 180 u 0 0
  else if reason = 2 then ({ s with cqe := { s.cqe with seqFails := satInc 16 s.cqe.seqFails } }).raiseAt 181 u 0 0
  else s

/-- Ring of an issuer, as the acceptance record carries it: 0xFF for a host queue, the management port and the tag interface (R256). -/
def Source.ring : Source → Nat
  | .internal n _ => n
  | _ => 0xFF

/-- Key of the last entry of a source, while it is uncompleted or unposted (R114). -/
def previousKey (s : State) (src : Source) : Option Nat :=
  match s.cqe.lastKeys.find? (fun p => p.1 == src.issuer) with
  | none => none
  | some p =>
    if s.cqe.inflight.any (fun c => c.key == p.2) || s.cqe.held.any (fun h => h.kind == .final && h.key == p.2) then some p.2 else none

/-- Must a command still wait before it starts: for its previous entry, or, in a stream, for an earlier command that has not reached the lane's queue; a STREAM_QUERY for every earlier command of the stream (R114, R115)? -/
def mustWait (s : State) (c : Inflight) : Bool :=
  (match c.after with
   | none => false
   | some k => s.cqe.inflight.any (fun d => d.key == k) || s.cqe.held.any (fun h => h.kind == .final && h.key == k))
  || (streamOp c.op && s.cqe.inflight.any (fun d =>
        decide (d.key < c.key) && (d.wait == .start || c.op == 0x0208) && streamOp d.op && d.entry.handle == c.entry.handle))

/-- Steered past the kernel, straight to the lane that owns the stream (R28). -/
def laneOp (op : BitVec 16) : Bool := op == 0x0202 || op == 0x0203 || op == 0x0205 || op == 0x0206

/-- Start a command that waits for nothing: the kernel is told of all but the lanes' own (R28). -/
def startCommand (c : Inflight) (s : State) : State :=
  let s := if laneOp c.op then s else s.line 0
  if needsRequest c.op && !mgmtTakes s then postRequest c.key s else runBody false c (s.waitOn c.key .running)

/-- The interim completion (R114, R130). -/
def holdInterim (c : Inflight) (s : State) : State :=
  if c.entry.interim then
    hold {
      comp := { tag := c.entry.tag, status := 0x1001, sqid := c.src.code, sqhead := c.sqhead, durability := 0, untrusted := outputUntrusted c.op 0x1001, degraded := false,
                result := resultOf [(12, c.entry.seq.toNat)] }
      src := c.src, kind := .interim, seq := c.entry.seq, accRec := c.accRec, compRec := none, durable := false,
      remote := !s.journals && decide (0 < s.journal.next), key := c.key, kiln := false, idles := 0 } s
  else s

/-- An accepted command without its durable flag: its refusal waits for nothing. -/
def plainly (key : Nat) (s : State) : State := s.setCommand key (fun c => { c with entry := { c.entry with flags := 0 } })

/-- Steps 4 to 11 of an entry whose integrity stands. -/
def judge (c : Inflight) (auth : Bool) (s : State) : State :=
  match firstChecks { s with cqe := { s.cqe with inflight := s.cqe.inflight.filter (fun d => d.key != c.key) } } c.op c.src c.entry auth with
  | some r => complete c.key r (if r.status = 0x2001 ∨ r.status = 0x3008 then plainly c.key s else s)
  | none => match stateChecks c.op.toNat c.src c.entry c.key s with
    | .error r => complete c.key r s
    | .ok s =>
      let s := holdInterim c s
      if mustWait s c then s else startCommand c s

/-- Take an entry in: sequence number, acceptance record, in-flight entry, then its checks (R120 to R123). `sqhead` is the head after it. The record of a failed fetch, which read no opcode, carries opcode 0. DESIGN CHOICE (log 127) -/
def takeEntry (fetched : Bool) (op : BitVec 16) (src : Source) (e : Entry) (auth : Bool) (sqhead : BitVec 16) (s : State) : State :=
  let op := if fetched then op else 0
  let e := if fetched then e else noEntry
  let expected := expectedSeq s src
  let reason := integrity fetched op e expected
  let s := setExpected (if reason = 0 ∨ reason = 2 then e.seq + 1 else expected + 1) s src
  let s := countIntegrity reason src s
  let key := s.cqe.nextKey
  let body : JBody := .accept e.seq e.tag op reason (Source.ring src)
  let live := decide (0 < s.journal.next) && s.journals
  let accRec := if live then some s.journal.next else none
  let h := namedStream op e
  let s := if live then appendAs h src.code body s else forwardAs h src.code body s
  let c : Inflight := {
    key := key, accRec := accRec, src := src, op := op, entry := e, sqhead := sqhead, wait := .start, past := false, began := s.clock.lfclk
    after := if e.order then previousKey s src else none, faults := 0 }
  let s := { s with cqe := { s.cqe with
    inflight := s.cqe.inflight ++ [c], nextKey := key + 1, lastKeys := s.cqe.lastKeys.filter (fun p => p.1 != src.issuer) ++ [(src.issuer, key)] } }
  if reason = 0 then judge c auth s
  else complete key (answer 0x6004 [(12, expected.toNat), (16, e.seq.toNat), (20, reason)]) (plainly key s)

/-! ### Fetching and other arrivals (R104, R109 to R111, R145 to R147, R169) -/

/-- Does the CQE accept commands now: enabled, not stopped, in RUN, no entry into another power state, castling or kiln under way (R71, R149, R311, R518, R535)? -/
def cqeOpen (s : State) : Bool :=
  s.power.booted && s.power.supply == .running && s.power.holdupOk && s.power.mode == .run && s.power.entering.isNone
    && cqeEnabled s && !bitAt (s.reg (cqeBase + 8) 0) 1 && bitAt (s.reg 0x400B0008 0) 0
    && (match s.pair.castling with | .planned _ _ => false | .fault => false | _ => true)
    && !s.kiln.latch && (s.power.safe || s.pair.role != .electing) && decide (s.cqe.inflight.length < 8192)

/-- CQE_CTL.pseudo_en (R149). -/
def pseudoEnable (s : State) : Nat := fieldAt (s.reg (cqeBase + 8) 0) 3 2

/-- May an entry be fetched from a queue: not being deleted, its CQ not full, the port a bus master, IDE in force where it is required (R108, R110, R160, R169)? -/
def queueOpen (s : State) (x : Queue) : Bool :=
  !x.deleting && (s.port (x.qid / 64)).busMaster && decide (x.unreleased < x.cqEntries) && (x.qid % 64 == 0 || !ideRequired s (x.qid / 64) || ideSecure (s.port (x.qid / 64)))

/-- Has a queue an entry to fetch now, its port's clock running (R83)? -/
def fetchReady (s : State) (x : Queue) : Bool := cqeOpen s && queueOpen s x && portClock s (x.qid / 64) && x.sqHead != x.sqTail

/-- Next index of a ring of `n` entries. -/
def ringNext (i n : Nat) : Nat := if i + 1 < n then i + 1 else 0

/-- Fetch one entry of a queue. -/
def fetchOne (q : Nat) (s : State) : State :=
  match s.queue q with
  | none => s
  | some x =>
    if fetchReady s x then
      let b := s.readBytes (4 + q / 64) (x.sqBase.toNat + 64 * x.sqHead) 64
      let bad := s.cqe.poison.contains (q, x.sqHead)
      let head := ringNext x.sqHead x.sqEntries
      let s := { s with cqe := { s.cqe with poison := s.cqe.poison.filter (fun p => p != (q, x.sqHead)) } }
      let s := s.setQueue q (fun x => { x with sqHead := head })
      postAll (takeEntry (!bad) (entryOf b).1 (.queue q) (entryOf b).2 false (BitVec.ofNat 16 head) s)
    else s

/-- Fetch up to `n` entries of a queue. -/
def fetchSome (q : Nat) : Nat → State → State
  | 0, s => s
  | n + 1, s => fetchSome q n (fetchOne q s)

/-- One round over both ports' queues (R111). -/
def fetchRound (s : State) : State :=
  let s := fetchSome 64 8 (fetchSome 0 8 s)
  (s.cqe.queues.filter (fun x => x.qid % 64 != 0)).foldl (fun s x => fetchSome x.qid (2 ^ x.priority) s) s

/-- Rounds until nothing is left to fetch, at most `n`. -/
def fetchRounds : Nat → State → State
  | 0, s => s
  | n + 1, s => if s.cqe.queues.any (fetchReady s) then fetchRounds n (fetchRound s) else s

/-- Entries waiting in a submission queue. -/
def sqWaiting (x : Queue) : Nat := if x.sqHead ≤ x.sqTail then x.sqTail - x.sqHead else x.sqEntries - x.sqHead + x.sqTail
/-- Fetch everything that may be fetched. -/
def fetchAll (s : State) : State := fetchRounds (s.cqe.queues.foldl (fun a x => a + sqWaiting x) 0) s

/-- A frame of the management port that passed its checks and that the CQE does not take yet (R145). -/
def holdFrame (b : List Byte) (s : State) : State := s.setMgmt (fun m => { m with frames := m.frames ++ [b] })
/-- Does the CQE take the management port's entries now? -/
def mgmtTaken (s : State) : Bool := cqeOpen s && pseudoEnable s != 0
/-- An entry of the management port enters the checks of R120. -/
def takeMgmt (op : BitVec 16) (e : Entry) (s : State) : State := takeEntry true op .mgmt e false (s.fresh.setWidth 16) s.drew
/-- An entry arrives on the management port, behind those that wait; a ninth uncompleted one is refused at bus level (R145). -/
def mgmtArrive (op : BitVec 16) (e : Entry) (s : State) : State :=
  if mgmtUp s = false ∨ 8 ≤ mgmtPending s then s
  else if mgmtTaken s = true ∧ s.mgmtp.frames = [] then takeMgmt op e s
  else holdFrame (entryBytes op e) s
/-- The CQE takes the entries that wait at the management port, at most `n`. -/
def takeFrames : Nat → State → State
  | 0, s => s
  | n + 1, s =>
    if mgmtTaken s then match s.mgmtp.frames with
      | [] => s
      | b :: t => takeFrames n (takeMgmt (entryOf b).1 (entryOf b).2 (s.setMgmt (fun m => { m with frames := t })))
    else s

/-- An entry given as a command of the table: it arrives from its source as one fetched, written or passed there. Where the source could not send it, nothing happens. -/
def submit (op : BitVec 16) (src : Source) (e : Entry) (s : State) : State :=
  if src = .mgmt then mgmtArrive op e s
  else if cqeOpen s = false then s
  else match src with
    | .queue q => match s.queue q with
      | none => s
      | some x =>
        if queueOpen s x = false then s
        else
          let head := ringNext x.sqHead x.sqEntries
          let s := s.setQueue q (fun x => { x with sqHead := head, sqTail := if x.sqHead = x.sqTail then head else x.sqTail })
          takeEntry true op src e false (BitVec.ofNat 16 head) s
    | .mgmt => s
    | .tag =>
      if pseudoEnable s < 2 ∨ s.tag.yEntry.isSome = true ∨ s.tag.field = false then s
      else takeEntry true op src e s.tag.session.isSome (s.fresh.setWidth 16)
        { s.drew with tag := { s.tag with yEntry := some (s.tag.session.isSome, s.cqe.nextKey), yDone := none } }
    | .internal n _ =>
      if pseudoEnable s < 3 ∨ 4 ≤ n then s else takeEntry true op src e false (s.fresh.setWidth 16) s.drew

/-- Does a TLP of the host reach the port: pins released, link up, its clock running (R46, R83, R166)? -/
def linkOpen (s : State) (p : Nat) : Bool :=
  s.power.supply == .running && (s.power.mode == .run || s.power.mode == .steep) && portClock s p && (s.port p).linkUp
/-- Does a memory TLP of the host reach BAR0: besides, in D0 with Memory Space Enable? -/
def portAlive (s : State) (p : Nat) : Bool := linkOpen s p && !(s.port p).d3hot && (s.port p).memEnable
/-- A TLP brings the link back to L0, and wakes a module in STEEP before it is completed (R76, R165, R166). -/
def tlpArrives (p : Nat) (s : State) : State :=
  let s := wakeEvent .host p s
  s.setPort p { s.port p with lstate := .l0 }
/-- A host's access to BAR0. -/
def hostTlp (p : Nat) (body : State → State) (s : State) : State := if portAlive s p then body (tlpArrives p s) else s
/-- The link leaves L1: in STEEP that is a TLP's doing (R76, R165). -/
def leaveL1 (p : Nat) (s : State) : State := if linkOpen s p then tlpArrives p s else s

/-- A doorbell value outside its range: discarded, source 183, HOST_LINK_ERROR reason 4 on the queue's CQ (R109, R122). -/
def badDoorbell (q : Nat) (v : Word) (before dir : Nat) (s : State) : State :=
  unsolicited (.queue q) 0xFFFF 0x6004 0 [(12, v.toNat), (16, before), (20, 4), (21, dir)] (s.raiseAt 183 (.port (q / 64)) 0 0)

/-- SQ tail doorbell on a port that is awake (R109). -/
def sqTail (p q : Nat) (v : Word) (bad : List Nat) (s : State) : State :=
  let qid := 64 * p + q
  match s.queue qid with
  | none => s.raiseAt 183 (.port p) 0 0
  | some x =>
    if x.sqEntries ≤ v.toNat then badDoorbell qid v x.sqTail 0 s
    else
      let s := s.setQueue qid (fun x => { x with sqTail := v.toNat })
      { s with cqe := { s.cqe with poison := s.cqe.poison ++ bad.map (fun i => (qid, i)) } }
/-- SQ tail doorbell, after the host has placed its entries; it wakes a module in STEEP (R76, R109, R166). -/
def sqDoorbell (p q : Nat) (v : Word) (stores : List HostStore) (bad : List Nat) (s : State) : State :=
  hostTlp p (sqTail p q v bad) (stores.foldl (fun s (x : HostStore) => s.writeBytes (4 + p) x.addr x.bytes) s)

/-- CQ head doorbell on a port that is awake: the entries up to it are released (R110). A head equal to the last one while every slot holds an unreleased entry releases them all. DEDUCED. A head that passes entries not yet posted leaves none unreleased. DESIGN CHOICE (log 128) -/
def cqHead (p q : Nat) (v : Word) (s : State) : State :=
  let qid := 64 * p + q
  match s.queue qid with
  | none => s.raiseAt 183 (.port p) 0 0
  | some x =>
    if x.cqEntries ≤ v.toNat then badDoorbell qid v x.cqHead 1 s
    else
      let n := (v.toNat + x.cqEntries - x.cqHead) % x.cqEntries
      let n := if n = 0 ∧ x.cqEntries ≤ x.unreleased then x.cqEntries else n
      s.setQueue qid (fun x => { x with cqHead := v.toNat, unreleased := x.unreleased - n })
/-- CQ head doorbell; it wakes a module in STEEP (R76, R166). -/
def cqDoorbell (p q : Nat) (v : Word) (s : State) : State := hostTlp p (cqHead p q v) s

/-- Does the port acknowledge its address for a write: up, in RUN, fewer than 8 commands uncompleted (R145, R174, R175)? -/
def mgmtTaking (s : State) : Bool := mgmtUp s && s.power.mode == .run && decide (mgmtPending s < 8)
/-- A command frame on the management port (R144, R145, R174): with 8 commands uncompleted the address is not acknowledged, and nothing of the frame is judged. -/
def mgmtFrame (b : List Byte) (s : State) : State :=
  if mgmtTaking s = false then s
  else if b.length ≠ 68 ∨ fieldOf b 0 2 ≠ 64 then frameError false s
  else if (crc16 (b.take 66)).toNat ≠ fieldOf b 0x42 2 then frameError true s
  else
    let x := entryOf (slice b 2 64)
    submit x.1 .mgmt x.2 s

/-- The body of YOMIR_SUBMIT (R146, R578): accepted with or without an open session. A CQE that does not accept answers as outside RUN. DESIGN CHOICE -/
def tagSubmit (frame : List Byte) (s : State) : State :=
  if tagRun s = false ∨ cqeOpen s = false ∨ pseudoEnable s < 2 then tagRespond 7 [] s
  else if s.tag.yEntry.isSome then tagRespond 8 [] s
  else
    let x := entryOf frame
    submit x.1 .tag x.2 (tagRespond 0 [] s)

end Sys2Proof.Machine
end

