-- ==== Sys2Proof/Machine/Field.lean ====
section
/-! DEFINITION. What reaches the module from outside its custody planes: capacitive samples, a field at the tag, cards put in and taken out (19_contactless_reader_and_tag.md, R554 to R556, R566, R572; 20_custodian_card_slots.md, R587, R595). -/

namespace Sys2Proof.Machine

/-! ### Capacitive slot sensing -/

/-- Does a port's front end drive RF on it: a label job runs there, or firmware holds the field on (R555)? -/
def portDriven (s : State) (p : Nat) : Bool :=
  (match (s.fe (p / 8)).jobs with | j :: _ => j.port == p | [] => false)
    || (bitAt (s.reg (readerBase + 0x14) 0) (p / 8) && fieldAt (s.reg (readerBase + 0x10) 0) (4 * (p / 8) + 2) (4 * (p / 8)) == p % 8)

/-- READER_CAP_THRESH (reset 50). -/
def capThreshold (s : State) : Nat := fieldAt (s.reg (readerBase + 0x48) 50) 11 0

/-- A port after one judged sample, and whether source 194 is raised. -/
def judgeSample (thresh v : Nat) (k : CapPort) : CapPort × Bool :=
  if v < 500 ∨ 50000 < v then
    if k.out + 1 = 8 then ({ k with last := v, out := 8, high := 0, low := 0, occ := false, dead := true }, true)
    else ({ k with last := v, out := min 8 (k.out + 1), high := 0, low := 0 }, false)
  else
    let scaled := if k.base = 0 then 2400 * v else k.base
    let base := scaled / 2400
    let above := decide (base + thresh < v)
    let below := decide (2 * v < 2 * base + thresh)
    let high := if above then min 2 (k.high + 1) else 0
    let low := if below then min 2 (k.low + 1) else 0
    let occ := if high = 2 then true else if low = 2 then false else k.occ
    ({ base := if occ = true ∨ above = true then scaled else scaled - base + v, last := v, occ := occ, high := high, low := low, out := 0, dead := false }, false)

/-- One sample of one port: an insertion or removal event in RUN, the wake record otherwise; a removal ends the port's label commands (R554 to R556, R565). -/
def capSample (s : State) (x : Nat × Nat) : State :=
  let p := x.2
  match s.reader.ports[p]? with
  | none => s
  | some k =>
    if portDriven s p then s
    else
      let (k', bad) := judgeSample (capThreshold s) x.1 k
      let s := { s with reader := { s.reader with ports := s.reader.ports.set p k' } }
      let s := if bad then s.raiseAt 194 (.fe (p / 8)) (BitVec.ofNat 32 p) 0 else s
      if k'.occ = k.occ ∨ bad = true then s
      else
        let s := if s.power.mode = .run then (slotEvent (if k'.occ then 1 else 2) p 0 s).mline 6 else wakeEvent .capSlot p s
        if k'.occ then s else endJobs (answer 0x7005 []) false (fun j => j.port == p) s

/-- The cellarman's 48 samples, every 250 ms in RUN, STEEP and LAGER. -/
def capSamples (samples : List Nat) (s : State) : State :=
  if s.power.supply = .running ∨ s.power.mode = .lager then (samples.take 48).zipIdx.foldl capSample s else s

/-! ### A field at the tag -/

/-- A field of at least 1.8 V appears: an outstanding copy-back is rolled forward, the event is posted or recorded (R566, R567, R572, R76). -/
def tagFieldOn (mv : Nat) (s : State) : State :=
  if mv < 1800 then s
  else if s.tag.field then s.setTag (fun t => { t with supply := mv })
  else
    let s := s.setTag (fun t => { t with field := true, supply := mv })
    let powered := tagRun s || s.power.mode == .steep || s.power.mode == .lager
    let s := if powered = false ∧ (copyPending s).isSome = true then (copyBack (List.replicate 8 mv) s).1 else s
    if tagRun s then slotEvent 3 0 0 s else wakeEvent .field 0 s

/-! ### Cards put in and taken out -/

/-- DET_N falls (R587): the card is present; an earlier over-current no longer blocks the slot (R597). -/
def cardInsert (n : Nat) (s : State) : State :=
  if (s.slot n).det then s
  else
    let s := s.setSlot n (fun k => { k with det := true, phase := .present, blocked := false })
    if s.power.mode = .run ∧ s.power.supply = .running then (slotEvent 7 n 0 s).mline (9 + n) else wakeEvent .card n s

/-- DET_N rises (R595): source 211 while activated, deactivation, the slot's commands end by their phase. -/
def cardRemoval (n : Nat) (s : State) : State :=
  let k := s.slot n
  if k.det = false then s
  else
    let s := endCardJobs n (conflict 0) s
    let s := if k.active then s.raiseAt 211 (.card n) 0 0 else s
    let s := deactivate n (s.setSlot n (fun k => { k with det := false }))
    let s := s.setSlot n (fun k => { k with result := 1, blocked := false })
    if s.power.mode = .run ∧ s.power.supply = .running then (slotEvent 8 n 0 s).mline (9 + n) else wakeEvent .cardOut n s

end Sys2Proof.Machine
end

