-- ==== Sys2Proof/Machine/Finish.lean ====
section
/-! DEFINITION. What follows from a command without a further one: fault evaluations, durability, postings, waiting commands, fetches (04_yomir_command_protocol.md, R108, R110, R111, R114; 17_fault_collector.md, R498, R505; 06_object_key_table.md, R204; 18_castling_pair_operation.md, R526, R546). -/

namespace Sys2Proof.Machine

/-- Outcomes of a meaning. -/
abbrev Out := Host.Outcome State Fault Refusal

/-- The custody planes run: started, powered, in RUN, their clocks not stopped: core PLL, DDR PLL, REF100 (R83). -/
def awake (s : State) : Bool := s.power.booted && s.power.supply == .running && s.power.mode == .run && s.power.pllLost &&& 0x85 == 0

/-- Has what a command waits for come, without a further command of the table? -/
def commandDue (s : State) (c : Inflight) : Bool :=
  match c.wait with
  | .start => !mustWait s c
  | .ready => true
  | .signFault => true
  | .reserve n => decide (n < s.journal.committed)
  | .room kh => decide (unflushedReserves s kh < 4)
  | .slot lane => (slotFor s lane 0).isSome
  | .request => mgmtTakes s
  | .queueDrain q => queueQuiet s q
  | _ => false

/-- Has a SHELF delta reached the moment for its pins (R526)? -/
def shelfDue (s : State) : Bool :=
  !s.pair.frozen && (s.pair.role == .active || s.pair.role == .solo) && s.pair.shelfWait.any (fun w => !s.pairMode || decide (w.1 < s.journal.acked))
/-- Has the draining of a castling of mode 2 come to its end (R546)? -/
def drainOver (s : State) : Bool := (match s.pair.castling with | .draining _ => true | _ => false) && s.lanes.streams.isEmpty
/-- Is a MATE due that waited for a castling (R505)? -/
def mateDue (s : State) : Bool := s.fault.mateAfterCastling && !castlingRuns s

/-- The checkpoint period of JRNL_CTL in LFCLK periods (R259). -/
def ckptPeriod (s : State) : Nat := 32768 * (match fieldAt (s.reg 0x400B0008 0) 9 8 with | 1 => 2 | 2 => 1 | _ => 10)
/-- Is a periodic CHECKPOINT due: 65,536 records, or a record and the period, since the last one (R259)? After a failed pair of signings the next trigger is the period's (R260). -/
def ckptDue (s : State) : Bool :=
  s.journals && decide (s.journal.sinceCkpt < s.journal.next) && s.pke.ownSign != .ready && !ownSigning s && !pkeFenced s &&
    (s.pke.ownSign == .idle && decide (s.journal.sinceCkpt + 65536 ≤ s.journal.next) && s.clock.tryAge == s.clock.signAge
      || decide (ckptPeriod s ≤ s.clock.tryAge))
/-- Has the kernel's own signing come to its end? -/
def ownDone (s : State) : Bool := s.pke.ownSign == .ready || s.pke.ownSign == .failed
/-- Write the periodic CHECKPOINT, or raise source 233 and wait for the next trigger (R260). -/
def ownFinish (s : State) : State :=
  let t := { s with pke := { s.pke with ownSign := .idle } }
  if s.pke.ownSign = .ready then writeCheckpoint t else ({ t with clock := { t.clock with tryAge := 0 } }).raise 233

/-- Is there work that no further command is needed for? -/
def restless (s : State) : Bool :=
  !s.fault.inputs.isEmpty || mateDue s || revertive s != s.pair.holdFrom.isSome
    || (awake s && (s.reader.events.any (fun e => !e.isSlot) || leverReady s || s.cqe.held.any (postable s) || s.cqe.inflight.any (commandDue s) || s.ktab.reserves.any (fun r => decide (r.1 < s.journal.committed))
        || shelfDue s || drainOver s || ownDone s || ckptDue s || (mgmtTaken s && !s.mgmtp.frames.isEmpty) || s.cqe.queues.any (fetchReady s)))

/-- Go on with a command whose wait is over. -/
def runDue (s : State) (key : Nat) : State :=
  match s.command key with
  | none => s
  | some c =>
    if commandDue s c = false then s
    else match c.wait with
      | .start => startCommand c s
      | .request => runBody false c (dropRequest key (s.waitOn key .running))
      | .queueDrain q => queueDrained key q s
      | .signFault => if c.op = 0x0304 then checkpointFault key (s.waitOn key .running) else complete key (answer 0x5003 []) s
      | _ => runBody true c (s.waitOn key .running)

/-- One pass. -/
def settleOnce (s : State) : State :=
  let s := settleFaults s.fault.inputs.length (settleHold s)
  let s := if mateDue s then mateAction { s with fault := { s.fault with mateAfterCastling := false } } else s
  if awake s then
    let s := takeEvents s
    let s := if leverReady s then leverAct s else s
    let s := postAll (settleShelf (settleReserves s))
    let s := if ownDone s then ownFinish s else s
    let s := if ckptDue s then pushOwn 3 (leBytes 32 s.journal.chain.toNat) .first s else s
    let s := (s.cqe.inflight.map (·.key)).foldl runDue s
    let s := takeFrames s.mgmtp.frames.length s
    fetchAll (if drainOver s then drainEnd s else s)
  else s

/-- Passes until nothing is left to do, at most `n`. -/
def settle : Nat → State → State
  | 0, s => s
  | n + 1, s => if restless s then settle n (settleOnce s) else s

/-- Passes that suffice: one for each command held up by the one before it, and some more. -/
def settleFuel (s : State) : Nat := 2 * (s.cqe.inflight.length + s.cqe.queues.foldl (fun a x => a + sqWaiting x) 0) + 16
/-- A command's effect with all that follows from it at once. -/
def finish (s : State) : State := if restless s then settle (settleFuel s) s else s

end Sys2Proof.Machine
end

