-- ==== Sys2Proof/Machine/KtabOps.lean ====
section
/-! DEFINITION. The requests of the key table unit as its registers take them (06_object_key_table.md, R191, R194, R197, R203, R211, R214 to R217). -/

namespace Sys2Proof.Machine

/-- KTAB base address. -/
def ktabBase : Nat := 0x40060000
/-- KTAB_CTL.enable. -/
def ktabEnabled (s : State) : Bool := bitAt (s.reg (ktabBase + 8) 0) 0

/-- The result of a request: the record found unusable, or what the verification found, or the operation's own work (R191, R194, R211, R212, R215, R217). -/
def ktabCarry (op : KtabOp) (kh : Word) (oid : Oid) (v : Verify) (s : State) : Nat × State :=
  let k := s.ktab
  let i := khIndex kh
  match op with
  | .invalidate => (0, { s with ktab := { k with hit := (k.entry i).isSome, cache := k.cache.filter (fun e => e.index != i) } })
  | .find =>
    let f := findOid oid v s
    (f.1.1, if f.1.1 = 0 then { f.2 with ktab := { f.2.ktab with respKh := khOf f.1.2 (f.2.ktab.record f.1.2).gen } } else f.2)
  | .draw =>
    if drawEnabled s = false then (9, s)
    else
      let f := cacheFill kh v s
      if f.1 ≠ 0 then f
      else
        let r := f.2.ktab.drawNext true f.2.clock.time kh
        (r.1, { f.2 with ktab := r.2 })
  | .unpin => if k.khResult kh ≠ 0 then (k.khResult kh, s) else (0, { s with ktab := k.setPin i false })
  | .pin =>
    if k.khResult kh ≠ 0 then (k.khResult kh, s)
    else if k.pinRoom i = false then (6, s)
    else
      let f := cacheFill kh v s
      if f.1 ≠ 0 then f else (0, { f.2 with ktab := f.2.ktab.setPin i true })
  | .fill => cacheFill kh v s

/-- A write of KTAB_REQ with an operation: held off while busy, with req_overrun; no effect while KTAB is disabled or fenced. -/
def ktabRequest (op : KtabOp) (kh : Word) (oid : Oid) (v : Verify) (s : State) : State :=
  if s.ktab.busy then { s with ktab := { s.ktab with overrun := true } }
  else if ktabEnabled s = false ∨ s.isFenced 5 0 = true then s
  else
    let r := ktabCarry op kh oid v s
    { r.2 with ktab := { r.2.ktab with busy := true, done := false, result := r.1 } }

/-- The four registers that hold an OID, bytes 0 to 3 in KTAB_OID0. -/
def setOidRegs (oid : Oid) (s : State) : State :=
  (List.range 4).foldl (fun s i => s.setReg (ktabBase + 0x20 + 4 * i) (BitVec.ofNat 32 (fieldAt oid (32 * i + 31) (32 * i)))) s
/-- The OID those registers hold. -/
def oidRegs (s : State) : Oid := BitVec.ofNat 128 ((List.range 4).foldl (fun a i => a + (s.reg (ktabBase + 0x20 + 4 * i) 0).toNat * 2 ^ (32 * i)) 0)

/-- A request with its key handle register, as one command of the table. -/
def ktabKh (op : KtabOp) (kh : Word) (v : Verify) (s : State) : State :=
  ktabRequest op kh 0 v (if s.ktab.busy then s else s.setReg (ktabBase + 0x14) kh)

/-- The operation finishes: done, line 5 (R217, R428). -/
def ktabDone (s : State) : State :=
  if s.ktab.busy then ({ s with ktab := { s.ktab with busy := false, done := true } }).line 5 else s

end Sys2Proof.Machine
end

