-- ==== Sys2Proof/Machine/RegTable.lean ====
section
/-! DEFINITION. The register map: for every register its fields by access type, its reset value and its reserved encodings (R5 to R11, and the register table of each chapter). -/

namespace Sys2Proof.Machine

/-- One register: masks of its fields by access type, what it holds at reset, and which writes carry a reserved encoding. A bit in no mask is reserved. -/
structure RegSpec where
  ro  : Word := 0
  rw  : Word := 0
  rwl : Word := 0
  w1c : Word := 0
  w1s : Word := 0
  wo  : Word := 0
  rst : Word := 0
  bad : Word → Bool := fun _ => false

/-- Bits the register keeps between writes. -/
def RegSpec.kept (r : RegSpec) : Word := r.rw ||| r.rwl ||| r.w1c ||| r.w1s
/-- Reserved bits. -/
def RegSpec.reserved (r : RegSpec) : Word := ~~~ (r.ro ||| r.rw ||| r.rwl ||| r.w1c ||| r.w1s ||| r.wo)

/-- A read-only register with the given defined bits. -/
def roReg (m : Word) : Option RegSpec := some { ro := m }
/-- A STATUS register: the three sticky bits of R7, and the block's own fields. -/
def statusReg (ro w1c : Word) : Option RegSpec := some { ro := ro, w1c := w1c ||| 7 }
/-- A LOCK register with one bit. -/
def lockReg : Option RegSpec := some { w1s := 1 }
/-- A plain register. -/
def rwReg (m rst : Word) : Option RegSpec := some { rw := m, rst := rst }
/-- All bits. -/
def allBits : Word := 0xFFFFFFFF

/-- SYSCTL (R101 to R103). -/
def sysctlReg : Nat → Option RegSpec
  | 0x00 => roReg allBits
  | 0x04 => statusReg 0x38 0
  | 0x10 => some { ro := 0x30F, rw := 0x30, bad := fun v => fieldAt v 5 4 == 3 }
  | 0x14 => some { rwl := 0x3F, rst := 0x2B }
  | 0x18 => roReg 0x7F
  | 0x1C => rwReg allBits 0
  | 0x20 => rwReg allBits 0
  | 0x30 => some { w1c := 0x7FF }
  | 0x34 => some { wo := 3 }
  | 0x40 => roReg allBits
  | 0x44 => roReg allBits
  | 0x48 => roReg allBits
  | 0x50 => roReg 0xFF
  | 0x54 => roReg 0xFFFF0001
  | 0xFC => lockReg
  | _ => none

/-- FAULT_SRCs of a source a chapter names (R496, R497, R506, R517). -/
def srcSpec (n : Nat) : Option RegSpec :=
  match sourceInfo n with
  | none => none
  | some (c, _) =>
    let soft := decide (224 ≤ n)
    let cls (v : Word) : FClass := if soft then classOf (fieldAt v 10 8) else c
    let fence : Bool := match unitFor n 0 with | some u => fenceable u | none => false
    some {
      ro := if soft then 0x8000 else 0x8700
      rwl := if soft then 0xF07 else 0x807
      w1c := 0x4000
      rst := srcReset n
      bad := fun v => decide (5 ≤ fieldAt v 2 0) || (fieldAt v 2 0 == 4 && cls v != .security) || (fieldAt v 2 0 == 1 && !fence)
        || (n == 127 && decide (fieldAt v 2 0 < 3)) }

/-- FAULT (R513 to R517). -/
def faultReg (o : Nat) : Option RegSpec :=
  if 0x400 ≤ o ∧ o < 0x800 then srcSpec ((o - 0x400) / 4)
  else if 0x1000 ≤ o ∧ o < 0x2000 then roReg allBits
  else if 0x40 ≤ o ∧ o < 0x60 then roReg allBits
  else if 0x60 ≤ o ∧ o < 0x80 then some { w1c := allBits }
  else match o with
    | 0x00 => roReg allBits
    | 0x04 => some { ro := 0xF0, rw := 0x200, w1c := 0x10F }
    | 0x08 => some { rwl := 0xFFFFF, rst := 10000, bad := fun v => fieldAt v 19 0 == 0 || decide (1000000 < fieldAt v 19 0) }
    | 0x0C => some { wo := 0x1FF }
    | 0x10 => some { wo := 0x8000FFFF, bad := fun v => (forcedInput (fieldAt v 7 0) (fieldAt v 15 8)).isNone }
    | 0x14 => some { wo := 0xFF, bad := fun v => decide (fieldAt v 7 0 < 224) }
    | 0x18 => rwReg allBits 0
    | 0x1C => rwReg allBits 0
    | 0x20 => rwReg allBits 0
    | 0x24 => roReg 0xFFFFF
    | 0x28 => roReg allBits
    | 0x2C => roReg allBits
    | 0x30 => roReg 0xFFFF
    | 0xFC => lockReg
    | _ => none

/-- TAMPER (R491 to R494). -/
def tamperReg (o : Nat) : Option RegSpec :=
  if 0x40 ≤ o ∧ o < 0x50 then some { rwl := 0xFFFF }
  else match o with
    | 0x00 => roReg allBits
    | 0x04 => statusReg 0x38 0x40
    | 0x08 => some { rwl := 0xC, wo := 1, bad := fun v => fieldAt v 3 2 == 3 }
    | 0x10 => roReg 0x1FFFF
    | 0x14 => some { w1c := 0x1FFFF }
    | 0x18 => roReg 0x1FFFF
    | 0x1C => roReg 0x1FFFF
    | 0x20 => roReg 0x1FFFF
    | 0x24 => roReg allBits
    | 0x28 => roReg allBits
    | 0x30 => some { wo := 0x8000001F, bad := fun v => decide (16 < fieldAt v 4 0) }
    | 0x34 => roReg 0xCFFFFFFF
    | 0x38 => roReg 0x030000FF
    | 0x3C => roReg 0xFF07
    | 0xFC => lockReg
    | _ => none

/-- RNG (R370 to R373). -/
def rngReg (o : Nat) : Option RegSpec :=
  if 0x80 ≤ o ∧ o < 0xA0 then roReg 0x03FF03FF
  else match o with
    | 0x00 => roReg allBits
    | 0x04 => statusReg 0x178 0x280
    | 0x08 => some { rwl := 0x33, bad := fun v => fieldAt v 5 4 == 3 }
    | 0x0C => some { rw := 0x3FF, rst := 20, bad := fun v => fieldAt v 9 0 == 0 || decide (1000 < fieldAt v 9 0) }
    | 0x10 => rwReg 0xFFFFFFF0 0
    | 0x14 => rwReg 0x3FF 0
    | 0x18 => some { wo := 0xCFFFFFFF, bad := fun v => fieldAt v 31 30 == 3 }
    | 0x1C => roReg 0x800FFFFF
    | 0x20 => roReg allBits
    | 0x24 => some { rwl := 0xFFFFFF, rst := 0x000403E8, bad := fun v => fieldAt v 23 16 == 0 || fieldAt v 15 0 == 0 }
    | 0x28 => roReg allBits
    | 0x2C => roReg allBits
    | 0x30 => roReg 0x3F
    | 0x40 => some { rwl := 0xFF, rst := 32, bad := fun v => decide (fieldAt v 7 0 < 16) }
    | 0x44 => some { w1c := 0xFFFF }
    | 0x48 => roReg 0x000F03FF
    | 0xFC => lockReg
    | _ => none

/-- PKE (R346 to R348). -/
def pkeReg : Nat → Option RegSpec
  | 0x00 => roReg allBits
  | 0x04 => statusReg 0x1F8 0
  | 0x08 => some { rw := 2, rwl := 1 }
  | 0x10 => some { rwl := 0xFFFFF000 }
  | 0x14 => some { rwl := 0x3FF }
  | 0x18 => some { wo := 0x3FF }
  | 0x1C => roReg 0x3FF
  | 0x20 => roReg 0x3FF
  | 0x24 => roReg allBits
  | 0x28 => roReg allBits
  | 0x2C => roReg allBits
  | 0x30 => roReg allBits
  | 0x34 => roReg 0xFFFF
  | 0xFC => lockReg
  | _ => none

/-- VAULT (R318 to R321). -/
def vaultReg (o : Nat) : Option RegSpec :=
  if 0x100 ≤ o ∧ o < 0x200 then some { w1s := allBits }
  else match o with
    | 0x00 => roReg allBits
    | 0x04 => statusReg 0xF8 0
    | 0x08 => some { rwl := 3 }
    | 0x10 => some { wo := 0xFFFF0000, bad := fun v => fieldAt v 31 28 == 0 || decide (5 < fieldAt v 31 28) }
    | 0x14 => rwReg 0xFFFFFFF8 0
    | 0x18 => rwReg 0xFFFFFFF8 0
    | 0x1C => rwReg 0x07FF07FF 0
    | 0x20 => roReg 0xC000000F
    | 0x30 => roReg 0x77
    | 0x34 => some { wo := 0xFFFF, bad := fun v => fieldAt v 15 0 != 0x4B4E }
    | 0x38 => roReg 0xFFFFFF07
    | 0x3C => roReg 0xFF0F
    | 0x40 => roReg 0xFFFF
    | 0xFC => lockReg
    | _ => none

/-- KTAB (R214 to R217). -/
def ktabReg (o : Nat) : Option RegSpec :=
  if 0x20 ≤ o ∧ o < 0x30 then rwReg allBits 0
  else match o with
    | 0x00 => roReg allBits
    | 0x04 => statusReg 0x78 0x80
    | 0x08 => some { rw := 3, rwl := 0xC, bad := fun v => fieldAt v 3 2 == 3 }
    | 0x10 => some { wo := 0xF, bad := fun v => fieldAt v 3 0 == 0 || decide (6 < fieldAt v 3 0) }
    | 0x14 => rwReg allBits 0
    | 0x18 => roReg 0xC001000F
    | 0x30 => roReg allBits
    | 0x34 => roReg allBits
    | 0x38 => roReg allBits
    | 0x40 => roReg 0xFFFF1FFF
    | 0x44 => roReg allBits
    | 0x48 => roReg allBits
    | 0x4C => roReg 0xFFFF
    | 0x50 => roReg 0x3FFFFF
    | 0x54 => roReg 0x3FFFFF
    | 0x58 => roReg 0x7F
    | 0x5C => roReg 0x1FF
    | 0xFC => lockReg
    | _ => none

/-- LANE0 to LANE3 (R249 to R252). -/
def laneReg : Nat → Option RegSpec
  | 0x00 => roReg allBits
  | 0x04 => statusReg 0x58 0x20
  | 0x08 => some { rwl := 0x31, bad := fun v => fieldAt v 5 4 == 3 }
  | 0x10 => some { wo := 0xFF00003F, bad := fun v => fieldAt v 31 28 == 0 || decide (2 < fieldAt v 31 28) || (fieldAt v 31 28 == 1 && fieldAt v 27 26 == 3) }
  | 0x14 => rwReg allBits 0
  | 0x18 => rwReg allBits 0
  | 0x1C => rwReg allBits 0
  | 0x20 => rwReg allBits 0
  | 0x24 => roReg 0xC000000F
  | 0x30 => roReg allBits
  | 0x34 => roReg allBits
  | 0x38 => roReg 0x007F003F
  | 0x3C => roReg 0x1FFF
  | 0x40 => roReg allBits
  | 0x44 => roReg allBits
  | 0x48 => roReg 0xFFFF
  | 0xFC => lockReg
  | _ => none

/-- JRNL (R286, R287). -/
def jrnlReg (o : Nat) : Option RegSpec :=
  if (0x10 ≤ o ∧ o < 0x30) ∨ (0x40 ≤ o ∧ o < 0x60) then roReg allBits
  else match o with
    | 0x00 => roReg allBits
    | 0x04 => statusReg 0x78 0x80
    | 0x08 => some { rw := 3, rwl := 0x300, bad := fun v => fieldAt v 9 8 == 3 }
    | 0x30 => roReg 0x007F1FFF
    | 0x34 => roReg 0xFFFFFF
    | 0x38 => roReg 0xFFFF
    | 0xFC => lockReg
    | _ => none

/-- CQE (R148, R149). -/
def cqeReg (o : Nat) : Option RegSpec :=
  if 0x10 ≤ o ∧ o < 0x30 then roReg allBits
  else match o with
    | 0x00 => roReg allBits
    | 0x04 => statusReg 0x38 0
    | 0x08 => some { rw := 3, rwl := 0xC }
    | 0x30 => roReg allBits
    | 0x34 => roReg 0x3FFF
    | 0x38 => roReg 0xFFFF
    | 0x3C => roReg 0xFFFF
    | 0xFC => lockReg
    | _ => none

/-- HOSTP0 and HOSTP1 (R170, R171). -/
def hostpReg : Nat → Option RegSpec
  | 0x00 => roReg allBits
  | 0x04 => statusReg 0x78 0
  | 0x08 => some { rwl := 0xF, rst := 2, bad := fun v => fieldAt v 3 2 == 3 }
  | 0x0C => roReg 0x3FFF
  | 0x10 => roReg allBits
  | 0x14 => roReg 0x3FFFF
  | 0xFC => lockReg
  | _ => none

/-- PAIR (R549, R550). -/
def pairReg : Nat → Option RegSpec
  | 0x00 => roReg allBits
  | 0x04 => statusReg 0x3FF8 0
  | 0x08 => some { rwl := 0xFFFF3, rst := 0x3C2, bad := fun v => fieldAt v 19 4 == 0 }
  | 0x0C => roReg allBits
  | 0x10 => roReg allBits
  | 0x14 => roReg allBits
  | 0x18 => roReg allBits
  | 0x1C => roReg allBits
  | 0x20 => roReg allBits
  | 0x24 => roReg allBits
  | 0x28 => roReg 0x000FFFFF
  | 0x2C => roReg 0xFFFF
  | 0x30 => roReg 0x7F
  | 0xFC => lockReg
  | _ => none

/-- DRAMC (R446 to R448). -/
def dramcReg (o : Nat) : Option RegSpec :=
  if 0x10 ≤ o ∧ o < 0x20 then some { rwl := 0x800001FF }
  else match o with
    | 0x00 => roReg allBits
    | 0x04 => statusReg 0x78 0
    | 0x08 => rwReg 3 0
    | 0x20 => some { rwl := 0xFFFFFFF3, rst := 0x00783E80, bad := fun v => fieldAt v 31 16 == 0 || decide (fieldAt v 15 4 < 10) || fieldAt v 1 0 == 3 }
    | 0x24 => roReg allBits
    | 0x28 => roReg allBits
    | 0x2C => roReg allBits
    | 0x30 => roReg allBits
    | 0x34 => roReg allBits
    | 0x40 => roReg allBits
    | 0x44 => roReg allBits
    | 0x48 => roReg 0xFFE0FFFF
    | 0x4C => roReg allBits
    | 0x50 => some { wo := 1 }
    | 0x60 => roReg allBits
    | 0x64 => roReg allBits
    | 0x68 => some { rwl := 0xFFFF, rst := 100, bad := fun v => fieldAt v 15 0 == 0 }
    | 0x70 => rwReg 0x01FFFFFF 0
    | 0x74 => some { wo := 0xF0000FFF, bad := fun v => fieldAt v 31 28 != 1 }
    | 0x78 => roReg 0xC00F007F
    | 0x7C => roReg 0x1FFF
    | 0x80 => some { rwl := 0xFFF }
    | 0x84 => some { wo := 0xF7E007FF, bad := fun v => fieldAt v 31 28 != 1 }
    | 0x88 => roReg 0xC00F0007
    | 0xFC => lockReg
    | _ => none

/-- A FLASHC register of a bank, by its offset in the bank's group. -/
def flashBankReg : Nat → Option RegSpec
  | 0x00 => rwReg 0x00FFFFF8 0
  | 0x04 => rwReg allBits 0
  | 0x08 => rwReg allBits 0
  | 0x0C => some { wo := 0xF0000000, bad := fun v => fieldAt v 31 28 == 0 || decide (7 < fieldAt v 31 28) }
  | 0x10 => some { ro := 0xF0FF0FFF, w1c := 0x08000000 }
  | 0x14 => roReg 0xFFFFFF
  | 0x18 => roReg 0x1FFF
  | 0x1C => roReg 0xFFFF
  | _ => none

/-- FLASHC (R468 to R473). -/
def flashcReg (o : Nat) : Option RegSpec :=
  if 0x800 ≤ o ∧ o < 0x1000 then roReg allBits
  else if 0x100 ≤ o ∧ o < 0x200 then flashBankReg (o % 0x40)
  else if 0x200 ≤ o ∧ o < 0x210 then some { wo := allBits }
  else match o with
    | 0x00 => roReg allBits
    | 0x04 => statusReg 0xF8 0
    | 0x08 => some { rwl := 1, rst := 1 }
    | 0x210 => some { wo := 0xF0000000, bad := fun v => fieldAt v 31 28 == 0 || decide (3 < fieldAt v 31 28) }
    | 0x214 => roReg 0xC00F000F
    | 0xFC => lockReg
    | _ => none

/-- READER (R581, R582). -/
def readerReg (o : Nat) : Option RegSpec :=
  if 0x100 ≤ o ∧ o < 0x1C0 then roReg allBits
  else if 0x20 ≤ o ∧ o < 0x38 then roReg 0x80FFFFFF
  else match o with
    | 0x00 => roReg allBits
    | 0x04 => statusReg 0x3F8 0
    | 0x08 => some { rwl := 0x3FF, rst := 0x2C8, bad := fun v => fieldAt v 9 8 == 3 || fieldAt v 7 0 == 0 || decide (200 < fieldAt v 7 0) }
    | 0x10 => rwReg 0x777777 0
    | 0x14 => rwReg 0x3F 0
    | 0x40 => roReg allBits
    | 0x44 => roReg 0xFFFF
    | 0x48 => some { rwl := 0xFFF, rst := 50, bad := fun v => decide (fieldAt v 11 0 < 10) }
    | 0x4C => roReg 0xFFFF
    | 0xFC => lockReg
    | _ => none

/-- TAGIF (R583 to R585). -/
def tagifReg (o : Nat) : Option RegSpec :=
  if 0x40 ≤ o ∧ o < 0x80 then rwReg allBits 0
  else match o with
    | 0x00 => roReg allBits
    | 0x04 => statusReg 0x18 0x20
    | 0x08 => some { wo := 0xF00003FF, bad := fun v => fieldAt v 31 28 == 0 || decide (4 < fieldAt v 31 28) }
    | 0x0C => roReg 0x8000000F
    | 0x80 => roReg 0xFFFFFF
    | 0x84 => roReg 0xF000FFFF
    | 0x88 => roReg allBits
    | 0xFC => lockReg
    | _ => none

/-- A CARD register of a slot, by its offset in the slot's group. -/
def cardSlotReg : Nat → Option RegSpec
  | 0x00 => some { ro := 0xE00F07F0, w1c := 0x10000000 }
  | 0x04 => some { wo := 0xFC000000, bad := fun v => fieldAt v 31 28 == 0 || decide (5 < fieldAt v 31 28) }
  | 0x08 => some { rw := 0xFFFF, rst := 372, bad := fun v => decide (fieldAt v 15 0 < 8) || decide (2048 < fieldAt v 15 0) }
  | 0x0C => rwReg 0xFFFF 0
  | 0x10 => rwReg 0xFFFFFF 20000
  | 0x14 => roReg allBits
  | _ => none

/-- CARD (R602 to R605). -/
def cardReg (o : Nat) : Option RegSpec :=
  if 0x100 ≤ o ∧ o < 0x180 then cardSlotReg (o % 0x20)
  else match o with
    | 0x00 => roReg allBits
    | 0x04 => statusReg 0x78 0
    | 0x08 => some { rwl := 0x00FFFF0F, rst := 0x003C320F, bad := fun v => fieldAt v 23 16 == 0 || fieldAt v 15 8 == 0 }
    | 0xFC => lockReg
    | _ => none

/-- MGMTP (R176, R177). -/
def mgmtpReg : Nat → Option RegSpec
  | 0x00 => roReg allBits
  | 0x04 => statusReg 0x38 0
  | 0x08 => some { rw := 2, rwl := 1 }
  | 0x0C => roReg 0xFF7F
  | 0x10 => roReg allBits
  | 0x14 => roReg 0xF0F
  | 0xFC => lockReg
  | _ => none

/-- The interrupt and MPU registers, of which each core has its own (R411, R429). -/
def ownReg (o : Nat) : Option RegSpec :=
  if 0x400 ≤ o ∧ o < 0x800 then
    match o % 32 with
    | 0 => some { rwl := 0xFFFFFF00 }
    | 4 => some { rwl := 0xFFFFFF00 }
    | 8 => some { rwl := 0x80007777, w1s := 0x40000000 }
    | _ => none
  else match o with
    | 0x100 => rwReg 0x77777777 0
    | 0x104 => rwReg 0x77777777 0
    | 0x108 => rwReg 0x77777777 0
    | 0x10C => rwReg 0x77777777 0
    | 0x110 => roReg allBits
    | 0x114 => some { wo := 3 }
    | _ => none

/-- CORECFG (R403, R404). -/
def corecfgReg (o : Nat) : Option RegSpec :=
  match o with
  | 0x00 => roReg allBits
  | 0x04 => statusReg 0x78 0
  | 0x08 => some { w1s := 1 }
  | 0x0C => some { rwl := 0xFFFFFFFC }
  | 0x10 => roReg allBits
  | 0x14 => roReg 0xFFFF
  | 0xFC => lockReg
  | _ => ownReg o

/-- The register at an offset of a block, blocks in the order of the address map (01_system_view.md). -/
def regSpec (blk o : Nat) : Option RegSpec :=
  match blk with
  | 0 => sysctlReg o
  | 1 => faultReg o
  | 2 => tamperReg o
  | 3 => rngReg o
  | 4 => pkeReg o
  | 5 => vaultReg o
  | 6 => ktabReg o
  | 7 => laneReg o
  | 8 => laneReg o
  | 9 => laneReg o
  | 10 => laneReg o
  | 11 => jrnlReg o
  | 12 => cqeReg o
  | 13 => hostpReg o
  | 14 => hostpReg o
  | 15 => pairReg o
  | 16 => dramcReg o
  | 17 => flashcReg o
  | 18 => readerReg o
  | 19 => tagifReg o
  | 20 => cardReg o
  | 21 => mgmtpReg o
  | 22 => corecfgReg o
  | _ => none

end Sys2Proof.Machine
end

