-- ==== Sys2Proof/Machine/RegView.lean ====
section
/-! DEFINITION. What the registers show of the state: the read-only fields of every block (the register table of each chapter), and the fields that clear as they are read (R5). -/

namespace Sys2Proof.Machine

/-- The two words of a 64-bit quantity: low at an even index. -/
def halfOf (v : Nat) (hi : Bool) : Word := BitVec.ofNat 32 (if hi then v / 2 ^ 32 else v)
/-- The number of the last of `n` things counted from 0; all ones while there is none. -/
def lastOf (n : Nat) : Nat := if n = 0 then 2 ^ 64 - 1 else n - 1
/-- A mask with a bit for every number below 32 that passes a test. -/
def bitsOf (f : Nat → Bool) : Word := (List.range 32).foldl (fun w k => w ||| bit32 k (f k)) 0
/-- Milliseconds in LFCLK periods. -/
def msOf (periods : Nat) : Nat := periods * 1000 / 32768

/-! ### SYSCTL -/

/-- Code of a power state (R102). -/
def powerModeCode : PowerMode → Nat
  | .run => 0
  | .steep => 1
  | .lager => 2
  | .cell => 0

/-- Is a domain powered, retention and self-refresh included (R73)? None: it is powered on demand, or held by keepers. -/
def domainOn (s : State) (k : Nat) : Option Bool :=
  let run := s.power.mode == .run
  let steep := s.power.mode == .steep
  if k = 1 ∨ k = 2 ∨ k = 3 ∨ k = 47 ∨ (73 ≤ k ∧ k ≤ 76) ∨ k = 79 ∨ k = 80 then some true
  else if k = 4 ∨ k = 11 ∨ (13 ≤ k ∧ k ≤ 17) ∨ k = 33 ∨ k = 35 ∨ (37 ≤ k ∧ k ≤ 41) ∨ k = 43 ∨ k = 48 ∨ k = 72 then some (run || steep)
  else if (5 ≤ k ∧ k ≤ 10) ∨ k = 12 ∨ k = 32 ∨ k = 34 ∨ k = 36 ∨ k = 42 ∨ (44 ≤ k ∧ k ≤ 46) ∨ k = 70 ∨ k = 71 then some run
  else if 61 ≤ k ∧ k ≤ 64 then some (run && (s.slot (k - 61)).active)
  else if k = 77 then if run && s.lifecycle != .field then none else some false
  else if k = 78 then if run || steep then some true else none
  else if k ≤ 80 ∧ 18 ≤ k then if run then none else some false
  else some false

/-- SYSCTL_DOM_ONj: a domain powered on demand shows a free bit. -/
def domWord (s : State) (j : Nat) : Word :=
  bitsOf (fun i => match domainOn s (32 * j + i + 1) with | some b => b | none => s.fresh.getLsbD i)

/-- Read-only fields of SYSCTL. -/
def sysctlView (o : Nat) (s : State) : Word :=
  let p := s.power
  match o with
  | 0x00 => 0x80170100
  | 0x04 => bit32 5 p.safe ||| bit32 4 s.clock.valid ||| bit32 3 s.kiln.incomplete
  | 0x10 => bit32 8 p.classHigh ||| put32 2 (powerModeCode p.prev) ||| put32 0 (powerModeCode p.mode)
  | 0x18 => p.wakeCause
  | 0x30 => p.rstCause
  | 0x40 => domWord s 0
  | 0x44 => domWord s 1
  | 0x48 => domWord s 2
  | 0x50 => p.pllLock.setWidth 32
  | 0x54 => put32 16 p.holdupUf ||| bit32 0 p.classHigh
  | _ => 0

/-! ### FAULT -/

/-- The record the log window shows at an index of the selected bank, the newest if two share it (R511, R513). -/
def windowRecord (s : State) (i : Nat) : List Byte :=
  let bank := if bitAt (s.reg (faultBase + 4) 0) 9 then 128 else 0
  match s.fault.log.reverse.find? (fun r => r.seq % 256 == bank + i) with
  | some r => frecordBytes r
  | none => List.replicate 32 0

/-- Fields of FAULT. -/
def faultView (o : Nat) (s : State) : Word :=
  let f := s.fault
  if 0x400 ≤ o ∧ o < 0x800 then
    let n := (o - 0x400) / 4
    match sourceInfo n with
    | none => 0
    | some (c, _) => bit32 15 (f.unacked.any (fun u => u.source == n)) ||| bit32 14 (f.seen.contains n)
        ||| (if n < 224 then put32 8 (FClass.code c) else 0)
  else if 0x1000 ≤ o ∧ o < 0x2000 then BitVec.ofNat 32 (fieldOf (windowRecord s ((o - 0x1000) / 32)) (o % 32) 4)
  else if 0x40 ≤ o ∧ o < 0x60 then pendWord s ((o - 0x40) / 4)
  else if 0x60 ≤ o ∧ o < 0x80 then seenWord s ((o - 0x60) / 4)
  else match o with
    | 0x00 => 0x80170FC1
    | 0x04 => faultStatus s
    | 0x24 => fencedWord s
    | 0x28 => BitVec.ofNat 32 (logHead s)
    | 0x2C => BitVec.ofNat 32 f.next
    | 0x30 => put32 0 f.ovf
    | _ => 0

/-! ### TAMPER, RNG, PKE, VAULT -/

/-- Fields of TAMPER. -/
def tamperView (o : Nat) (s : State) : Word :=
  let t := s.tamper
  match o with
  | 0x00 => 0x80170B80
  | 0x04 => bit32 6 t.bkpLost ||| bit32 5 t.bist.isSome ||| bit32 4 (t.cellMark != 0) ||| bit32 3 (t.sticky != 0)
  | 0x10 => t.raw.setWidth 32
  | 0x14 => t.sticky.setWidth 32
  | 0x18 => t.testMark.setWidth 32
  | 0x1C => t.cellMark.setWidth 32
  | 0x20 => t.armed.setWidth 32
  | 0x24 => halfOf t.cellTime.toNat false
  | 0x28 => halfOf t.cellTime.toNat true
  | 0x34 => bit32 31 t.bist.isSome ||| bit32 30 t.bistDone ||| put32 24 t.bistRes ||| put32 0 t.bistTime
  | 0x38 => put32 24 t.meshNet ||| put32 0 t.meshPct
  | 0x3C => put32 8 t.ddSplits ||| put32 0 t.ddLast
  | _ => 0

/-- Fields of RNG. RNG_DONE shows the oldest finished request. -/
def rngView (o : Nat) (s : State) : Word :=
  let r := s.rng
  if 0x80 ≤ o ∧ o < 0xA0 then put32 16 (r.lfCodes.getD ((o - 0x80) / 2 + 1) 0) ||| put32 0 (r.lfCodes.getD ((o - 0x80) / 2) 0)
  else match o with
    | 0x00 => 0x80170503
    | 0x04 => bit32 9 r.overrun ||| bit32 8 (cellRail s) ||| bit32 7 r.oscFault ||| bit32 6 r.armed ||| put32 4 (RngState.code r.state)
        ||| bit32 3 (!r.queue.isEmpty)
    | 0x1C => (rngTakeDone s).1
    | 0x20 => put32 16 r.notLocked ||| put32 0 r.alive
    | 0x28 => put32 16 r.aptFails ||| put32 0 r.rctFails
    | 0x2C => BitVec.ofNat 32 r.reseeds
    | 0x30 => put32 0 r.queue.length
    | 0x44 => r.lfCause.setWidth 32
    | 0x48 => put32 16 r.lfCell ||| put32 0 r.lfStep
    | _ => 0

/-- Job id on a unit. -/
def jobId (j : Option PkeJob) : Word := match j with | some x => BitVec.ofNat 32 x.id | none => 0
/-- Does a job wait for the DRBG? -/
def entropyWait (s : State) : Bool := s.pke.jobs.any (fun j => needsRandom j.p && j.rnd.isNone)

/-- Fields of PKE. -/
def pkeView (o : Nat) (s : State) : Word :=
  let p := s.pke
  match o with
  | 0x00 => 0x80170401
  | 0x04 => bit32 8 p.wiped ||| bit32 7 ((match p.unit0 with | some j => j.rsaKeygen | none => false) || (match p.unit1 with | some j => j.rsaKeygen | none => false))
      ||| bit32 6 (s.isFenced 2 1) ||| bit32 5 (s.isFenced 2 0) ||| bit32 4 (entropyWait s) ||| bit32 3 (p.unit0.isSome || p.unit1.isSome)
  | 0x18 => put32 0 p.tail
  | 0x1C => put32 0 (ringHead s)
  | 0x20 => put32 0 p.doneHead
  | 0x24 => jobId p.unit0
  | 0x28 => jobId p.unit1
  | 0x2C => p.lastTime
  | 0x30 => BitVec.ofNat 32 p.jobCnt
  | 0x34 => put32 0 p.checkFail
  | _ => 0

/-- Fields of VAULT. -/
def vaultView (o : Nat) (s : State) : Word :=
  let v := s.vault
  match o with
  | 0x00 => 0x80170A17
  | 0x04 => bit32 7 s.kiln.latch ||| bit32 6 (decide (2900 ≤ s.kiln.reservoir)) ||| bit32 5 (kekPresent s) ||| bit32 4 (crPresent s) ||| bit32 3 v.run.isSome
  | 0x20 => bit32 31 v.run.isSome ||| bit32 30 v.engDone ||| put32 0 v.engRes
  | 0x30 => put32 4 (Lifecycle.code s.nvm.lifecycle) ||| put32 0 (Lifecycle.code s.lifecycle)
  | 0x38 => put32 16 s.kiln.count ||| put32 8 s.kiln.trigger ||| s.kiln.tiers.setWidth 32
  | 0x3C => put32 12 s.nvm.n ||| put32 8 s.nvm.m ||| put32 0 v.sessions.length
  | 0x40 => put32 0 s.kiln.reservoir
  | _ => 0

/-! ### KTAB, lanes, JRNL, CQE -/

/-- Fields of KTAB. -/
def ktabView (o : Nat) (s : State) : Word :=
  let k := s.ktab
  match o with
  | 0x00 => 0x801706AB
  | 0x04 => bit32 7 k.overrun ||| bit32 6 k.hold ||| bit32 5 k.present ||| bit32 4 (!k.quarantine.isEmpty) ||| bit32 3 k.busy
  | 0x18 => bit32 31 k.busy ||| bit32 30 k.done ||| bit32 16 k.hit ||| put32 0 k.result
  | 0x30 => k.respKh
  | 0x34 => halfOf k.draw false
  | 0x38 => halfOf k.draw true
  | 0x40 => put32 16 k.cache.length ||| put32 0 k.pins
  | 0x44 => BitVec.ofNat 32 k.hits
  | 0x48 => BitVec.ofNat 32 k.misses
  | 0x4C => put32 0 k.fillMax
  | 0x50 => put32 0 k.freeCount
  | 0x54 => put32 0 k.retiredCount
  | 0x58 => put32 0 k.quarantine.length
  | 0x5C => put32 0 k.stash.length
  | _ => 0

/-- Key handle in a lane slot. -/
def slotKh (k : Option SlotKey) : Word := match k with | some x => x.kh | none => 0

/-- Fields of a LANE block. -/
def laneView (n o : Nat) (s : State) : Word :=
  let l := s.lane n
  match o with
  | 0x00 => 0x80170700 ||| put32 0 n
  | 0x04 => bit32 6 (s.isFenced 1 n) ||| bit32 5 l.mbBusy ||| bit32 4 l.parkKey.isSome ||| bit32 3 (!l.queue.isEmpty)
  | 0x24 => bit32 31 l.mbRun ||| bit32 30 l.mbDone ||| put32 0 (if l.mbRun then 0 else l.mbResult)
  | 0x30 => slotKh l.slot0
  | 0x34 => slotKh l.slot1
  | 0x38 => put32 16 (entriesOf s n).length ||| put32 0 (min 32 (l.queue.length - 1))
  | 0x3C => put32 0 (s.lanes.streams.filter (fun (x : Stream) => x.lane == n && x.state == .park2)).length
  | 0x40 => halfOf l.bytes false
  | 0x44 => halfOf l.bytes true
  | 0x48 => put32 0 l.authFail
  | _ => 0

/-- Fields of JRNL. -/
def jrnlView (o : Nat) (s : State) : Word :=
  let j := s.journal
  if 0x40 ≤ o ∧ o < 0x60 then BitVec.ofNat 32 (fieldAt j.chain (8 * (o - 0x40) + 31) (8 * (o - 0x40)))
  else match o with
    | 0x00 => 0x80170B1A
    | 0x04 => bit32 7 j.broke ||| bit32 6 j.recovery ||| bit32 5 j.pfUsed ||| bit32 4 (tailFull j) ||| bit32 3 (decide (3072 ≤ sectorsUsed j))
    | 0x10 => halfOf j.next false
    | 0x14 => halfOf j.next true
    | 0x18 => halfOf (lastOf j.committed) false
    | 0x1C => halfOf (lastOf j.committed) true
    | 0x20 => halfOf (lastOf j.secured) false
    | 0x24 => halfOf (lastOf j.secured) true
    | 0x28 => halfOf (lastOf j.flushed) false
    | 0x2C => halfOf (lastOf j.flushed) true
    | 0x30 => put32 16 (tailPercent j) ||| put32 0 (sectorsUsed j)
    | 0x34 => put32 0 (min (2 ^ 24 - 1) (msOf s.clock.signAge))
    | 0x38 => put32 0 j.breaks
    | _ => 0

/-- Is the CQ of a queue full (R110)? -/
def cqFull (s : State) (q : Nat) : Bool := match s.queue q with | some x => decide (x.cqEntries ≤ x.unreleased) | none => false

/-- Fields of CQE. -/
def cqeView (o : Nat) (s : State) : Word :=
  if 0x10 ≤ o ∧ o < 0x20 then bitsOf (fun k => (s.queue (32 * ((o - 0x10) / 4) + k)).isSome)
  else if 0x20 ≤ o ∧ o < 0x30 then bitsOf (fun k => cqFull s (32 * ((o - 0x20) / 4) + k))
  else match o with
    | 0x00 => 0xC0E00001
    | 0x04 => bit32 5 (tailFull s.journal) ||| bit32 4 (decide (3072 ≤ sectorsUsed s.journal)) ||| bit32 3 (s.cqe.queues.any (fetchReady s))
    | 0x30 => put32 16 s.cqe.seqFails ||| put32 0 s.cqe.crcFails
    | 0x34 => put32 0 s.cqe.inflight.length
    | 0x38 => put32 0 s.cqe.mirrorMax
    | 0x3C => put32 0 (min 65535 (msOf s.clock.ckptAge))
    | _ => 0

/-! ### Host ports, PAIR -/

/-- Link-power code (HOSTP_LINK). -/
def LinkState.code : LinkState → Nat
  | .l0 => 0
  | .l1 => 1
  | .l11 => 2
  | .l12 => 3

/-- Fields of a HOSTP block. The stream IDs of HOSTP_IDE are the host's own, which no command of the table carries: free. -/
def hostpView (p o : Nat) (s : State) : Word :=
  let h := s.port p
  match o with
  | 0x00 => 0x80170000 ||| put32 0 p
  | 0x04 => bit32 6 h.d3hot ||| bit32 5 (linkDegraded h) ||| bit32 4 (ideSecure h) ||| bit32 3 h.linkUp
  | 0x0C => put32 12 (LinkState.code h.lstate) ||| put32 4 h.width ||| put32 0 h.speed
  | 0x10 => put32 16 h.aerCorr ||| put32 0 h.aerUncorr
  | 0x14 => bit32 17 (streamSecure h 1) ||| bit32 16 (streamSecure h 0) ||| put32 8 (h.streamId 1) ||| put32 0 (h.streamId 0)
  | _ => 0

/-- Fields of PAIR. -/
def pairView (o : Nat) (s : State) : Word :=
  let p := s.pair
  match o with
  | 0x00 => 0x80170C57
  | 0x04 => put32 10 (match p.word with | some w => wordRole w | none => 15) ||| bit32 9 p.frozen ||| bit32 8 p.pathB ||| bit32 7 p.pathA
      ||| bit32 6 s.pairMode ||| put32 3 (Role.code p.role)
  | 0x0C => p.word.getD 0
  | 0x10 => heartbeatWord s
  | 0x14 => put32 16 (min 65535 p.ageB) ||| put32 0 (min 65535 p.ageA)
  | 0x18 => halfOf p.epoch false
  | 0x1C => halfOf p.epoch true
  | 0x20 => halfOf (lastOf s.journal.acked) false
  | 0x24 => halfOf (lastOf s.journal.acked) true
  | 0x28 => put32 16 (if s.isFenced 4 0 then 3 else match p.link with | .down => 0 | .training => 1 | .up => 2) ||| put32 0 p.replays
  | 0x2C => put32 0 p.crcErr
  | 0x30 => put32 0 p.progress
  | _ => 0

/-! ### DRAMC, FLASHC -/

/-- DRAMC_LOG_INFO of an entry (R438). -/
def logInfo (e : EccEntry) : Word :=
  bit32 31 true ||| bit32 30 e.hard ||| bit32 29 e.unc ||| bit32 28 e.sram ||| put32 26 e.found ||| put32 21 e.unit ||| put32 0 (e.syndrome % 65536)

/-- Fields of DRAMC. -/
def dramcView (o : Nat) (s : State) : Word :=
  let d := s.dramc
  match o with
  | 0x00 => 0x80170D50
  | 0x04 => bit32 6 (s.kiln.stage == .reset) ||| bit32 5 d.rmapRun.isSome ||| bit32 4 d.spareRun.isSome ||| bit32 3 (!d.log.isEmpty)
  | 0x24 => d.dlapTime
  | 0x28 => BitVec.ofNat 32 d.dlaps
  | 0x2C => d.slapTime
  | 0x30 => BitVec.ofNat 32 d.slaps
  | 0x34 => BitVec.ofNat 32 d.dpos
  | 0x40 => match d.log with | e :: _ => halfOf e.addr false | [] => 0
  | 0x44 => match d.log with | e :: _ => halfOf e.addr true | [] => 0
  | 0x48 => match d.log with | e :: _ => logInfo e | [] => 0
  | 0x4C => match d.log with | e :: _ => e.time | [] => 0
  | 0x60 => put32 16 d.ceSram ||| put32 0 d.ceDdr
  | 0x64 => put32 16 d.ueSram ||| put32 0 d.ueDdr
  | 0x78 => bit32 31 d.rmapRun.isSome ||| bit32 30 d.rmapDone ||| put32 16 d.rmapRes ||| put32 0 d.rmapBad
  | 0x7C => put32 0 d.used.length
  | 0x88 => bit32 31 d.spareRun.isSome ||| bit32 30 d.spareDone ||| put32 16 d.spareRes
      ||| put32 0 (d.spares.filter (fun p => p.1 == d.spareArray)).length
  | _ => 0

/-- FLASHC_BSTATb (R471). -/
def bankStat (k : FlashBank) : Word :=
  bit32 31 k.run.isSome ||| bit32 30 k.done ||| bit32 29 k.suspended.isSome ||| bit32 28 k.pendingSuspend ||| bit32 27 k.overrun
    ||| put32 20 k.op ||| put32 16 k.result ||| put32 0 k.sector

/-- Fields of FLASHC. -/
def flashcView (o : Nat) (s : State) : Word :=
  let f := s.flash
  if 0x800 ≤ o ∧ o < 0x1000 then
    let k := s.bank ((o - 0x800) / 0x200)
    bitsOf (fun i => k.torn.contains (32 * (o % 0x200 / 4) + i))
  else if 0x100 ≤ o ∧ o < 0x200 then
    let k := s.bank ((o - 0x100) / 0x40)
    match o % 0x40 with
    | 0x10 => bankStat k
    | 0x14 => put32 0 k.ecnt
    | 0x18 => put32 0 k.torn.length
    | 0x1C => k.prot.setWidth 32
    | _ => 0
  else match o with
    | 0x00 => 0x80170F1A
    | 0x04 => bit32 7 f.lockout ||| bit32 6 f.unlocked ||| bit32 5 f.scanDone ||| bit32 4 (f.banks.any (fun (k : FlashBank) => !k.torn.isEmpty)) ||| bit32 3 f.pumpOk
    | 0x214 => bit32 31 f.pwRun.isSome ||| bit32 30 f.pwDone ||| put32 16 f.pwResult ||| put32 0 f.tries
    | _ => 0

/-! ### READER, TAGIF, CARD, MGMTP, CORECFG -/

/-- Fields of READER. -/
def readerView (o : Nat) (s : State) : Word :=
  if 0x100 ≤ o ∧ o < 0x1C0 then
    match s.reader.ports[(o - 0x100) / 4]? with
    | some p => put32 16 (p.base / 2400) ||| put32 0 p.last
    | none => 0
  else if 0x20 ≤ o ∧ o < 0x38 then
    let x := s.fe ((o - 0x20) / 4)
    bit32 31 (!x.jobs.isEmpty) ||| put32 16 x.result ||| put32 0 x.frames
  else match o with
    | 0x00 => 0x80170912
    | 0x04 => put32 4 (fieldAt (fencedWord s) 15 10) ||| bit32 3 (s.power.supply == .running)
    | 0x40 => bitsOf (fun p => occupied s p)
    | 0x44 => bitsOf (fun p => decide (p < 16) && occupied s (32 + p))
    | 0x4C => bitsOf (fun k => match s.reader.keys[k]? with | some (some _) => true | _ => false)
    | _ => 0

/-- Tag state code (TAGIF_FIELD). -/
def TagMode.code : TagMode → Nat
  | .idle => 0
  | .ready => 1
  | .active => 2
  | .halt => 3

/-- Fields of TAGIF. -/
def tagifView (o : Nat) (s : State) : Word :=
  let t := s.tag
  match o with
  | 0x00 => 0x80170913
  | 0x04 => bit32 5 t.wrote ||| bit32 4 (copyPending s).isSome ||| bit32 3 t.wired.isSome
  | 0x0C => bit32 31 t.wiredDone ||| put32 0 t.wiredRes
  | 0x80 => put32 0 (tagSeq s)
  | 0x84 => put32 30 (TagMode.code t.mode) ||| bit32 29 t.quiet ||| bit32 28 t.field ||| put32 0 t.supply
  | 0x88 => put32 16 t.frames ||| put32 0 t.weak
  | _ => 0

/-- Fields of CARD. -/
def cardView (o : Nat) (s : State) : Word :=
  if 0x100 ≤ o ∧ o < 0x180 then
    let n := (o - 0x100) / 0x20
    let k := s.slot n
    match o % 0x20 with
    | 0x00 => bit32 31 k.busy ||| bit32 30 k.opDone ||| bit32 29 (tokenBusy s n) ||| bit32 28 k.overCur ||| put32 16 k.result
        ||| put32 8 (slotCode s n) ||| put32 6 (if k.active then k.cls else 0) ||| put32 4 k.mode
    | 0x14 => put32 16 k.blockRetries ||| put32 0 k.failures
    | _ => 0
  else match o with
    | 0x00 => 0x80170A0C
    | 0x04 => put32 3 (fieldAt (bitsOf (fun n => (s.slot n).det)) 3 0)
    | _ => 0

/-- Fields of MGMTP. -/
def mgmtpView (o : Nat) (s : State) : Word :=
  let m := s.mgmtp
  match o with
  | 0x00 => 0x801700E3
  | 0x04 => bit32 5 m.ibi ||| bit32 4 m.dynAddr.isSome ||| bit32 3 (!m.responses.isEmpty)
  | 0x0C => bit32 15 m.dynAddr.isSome ||| put32 8 (match m.dynAddr with | some a => a.toNat | none => 0) ||| put32 0 (staticAddr s).toNat
  | 0x10 => put32 16 m.crcFails ||| put32 0 m.lenFails
  | 0x14 => put32 8 (min 15 m.responses.length) ||| put32 0 (mgmtPending s)
  | _ => 0

/-- Fields of CORECFG, with the accessing core's own interrupt lines. -/
def corecfgView (c : CoreId) (o : Nat) (s : State) : Word :=
  match o with
  | 0x00 => 0x80170C0E
  | 0x04 => bit32 6 (s.cores.ccB.released && !s.cores.ccB.halted) ||| bit32 5 (!s.cores.ccA.halted) ||| bit32 4 s.cores.ccB.halted ||| bit32 3 s.cores.ccA.halted
  | 0x10 => s.reg 0x40160010 0
  | 0x14 => s.reg 0x40160014 0
  | 0x110 => coreLinesOf s c
  | _ => 0
where
  /-- Lines asserted at a core: the custody cores share lines 0 to 21 and each has its own line 22 (R428, R429). -/
  coreLinesOf (s : State) : CoreId → Word
    | .mgt => s.mlines
    | .ccA => (s.lines &&& 0x003FFFFF) ||| bit32 22 s.cores.ccA.line22
    | .ccB => (s.lines &&& 0x003FFFFF) ||| bit32 22 s.cores.ccB.line22

/-- What a block shows at an offset besides the bits its registers keep. -/
def regView (c : CoreId) (blk o : Nat) (s : State) : Word :=
  match blk with
  | 0 => sysctlView o s
  | 1 => faultView o s
  | 2 => tamperView o s
  | 3 => rngView o s
  | 4 => pkeView o s
  | 5 => vaultView o s
  | 6 => ktabView o s
  | 7 => laneView 0 o s
  | 8 => laneView 1 o s
  | 9 => laneView 2 o s
  | 10 => laneView 3 o s
  | 11 => jrnlView o s
  | 12 => cqeView o s
  | 13 => hostpView 0 o s
  | 14 => hostpView 1 o s
  | 15 => pairView o s
  | 16 => dramcView o s
  | 17 => flashcView o s
  | 18 => readerView o s
  | 19 => tagifView o s
  | 20 => cardView o s
  | 21 => mgmtpView o s
  | 22 => corecfgView c o s
  | 23 => Config.shelfIo s.freeCtr o
  | _ => 0

/-- Does a read of a register draw free bits? -/
def viewDraws (blk o : Nat) : Bool :=
  (blk == 0 && (o == 0x40 || o == 0x44 || o == 0x48)) || blk == 23

/-- Quieten a management-core line at its source. -/
def State.munline (s : State) (l : Nat) : State := { s with mlines := s.mlines &&& ~~~ bit32 l true }

/-- Fields that clear as they are read (RC), with the line that a done bit holds (R5, R428, R580). For lines whose quietening the spec leaves to the source, the read of the register that reports the event quietens it. DESIGN CHOICE -/
def readClears (blk o : Nat) (s : State) : State :=
  match blk with
  | 0 => if o = 0x18 then { s with power := { s.power with wakeCause := 0 } } else s
  | 2 => if o = 0x34 then { s with tamper := { s.tamper with bistDone := false } } else s
  | 3 => if o = 0x1C then (rngTakeDone s).2 else s
  | 4 => if o = 0x20 then s.unline 10 else s
  | 5 => if o = 0x20 then ({ s with vault := { s.vault with engDone := false } }).unline 12 else s
  | 6 => match o with
    | 0x18 => ({ s with ktab := { s.ktab with done := false } }).unline 5
    | 0x4C => { s with ktab := { s.ktab with fillMax := 0 } }
    | _ => s
  | 7 => if o = 0x24 then (s.setLane 0 (fun l => { l with mbDone := false })).unline 6 else s
  | 8 => if o = 0x24 then (s.setLane 1 (fun l => { l with mbDone := false })).unline 7 else s
  | 9 => if o = 0x24 then (s.setLane 2 (fun l => { l with mbDone := false })).unline 8 else s
  | 10 => if o = 0x24 then (s.setLane 3 (fun l => { l with mbDone := false })).unline 9 else s
  | 12 => if o = 0x38 then { s with cqe := { s.cqe with mirrorMax := 0 } } else s
  | 16 => match o with
    | 0x78 => { s with dramc := { s.dramc with rmapDone := false } }
    | 0x88 => { s with dramc := { s.dramc with spareDone := false } }
    | _ => s
  | 17 =>
    if o = 0x214 then { s with flash := { s.flash with pwDone := false } }
    else if 0x100 ≤ o ∧ o < 0x200 ∧ o % 0x40 = 0x10 then
      let s := s.setBank ((o - 0x100) / 0x40) (fun k => { k with done := false })
      if s.flash.banks.any (·.done) then s else s.unline 17
    else s
  | 18 => if 0x20 ≤ o ∧ o < 0x38 then s.munline ((o - 0x20) / 4) else if o = 0x40 then s.munline 6 else s
  | 19 => if o = 0x0C then (s.setTag (fun t => { t with wiredDone := false })).munline 8 else s
  | 20 =>
    if 0x100 ≤ o ∧ o < 0x180 ∧ o % 0x20 = 0 then
      (s.setSlot ((o - 0x100) / 0x20) (fun k => { k with opDone := false })).munline (9 + (o - 0x100) / 0x20)
    else s
  | 23 => s.unline 20
  | _ => s

end Sys2Proof.Machine
end

