-- ==== Sys2Proof/Machine/Regs.lean ====
section
/-! DEFINITION. Writes and reads of the registers: the access rules of R5 to R11, the commands that a write carries, and the registers of BAR0 (05_host_and_management_ports.md, R154 to R159). -/

namespace Sys2Proof.Machine

/-- Base address of a block. -/
def blockBase (blk : Nat) : Nat := 0x40000000 + 0x10000 * blk
/-- Is an offset of CORECFG one of the registers each core has for itself? -/
def ownOffset (blk o : Nat) : Bool := blk == 22 && (decide (0x100 ≤ o ∧ o < 0x118) || decide (0x400 ≤ o ∧ o < 0x800))
/-- Address of a CORECFG register in a core's own copy (R411, R429): each core has its own MPU and interrupt registers. -/
def coreReg (c : CoreId) (off : Nat) : Nat := 0x40160000 + off + (c.num + 1) * 2 ^ 40
/-- Key under which a register is kept. The management core's CORECFG is its own block. -/
def regKey (c : CoreId) (blk o : Nat) : Nat :=
  if ownOffset blk o || (blk == 22 && c == .mgt) then coreReg c o else blockBase blk + o
/-- Where the STATUS bits of a block stand, less 4. -/
def statusBase (c : CoreId) (blk : Nat) : Nat := if blk = 22 ∧ c = .mgt then coreReg c 0 else blockBase blk

/-- Are the RWL fields of a register locked: by the region's own lock in the MPU, else by the block's LOCK bit (R11, R411)? -/
def regLocked (c : CoreId) (blk o : Nat) (s : State) : Bool :=
  if ownOffset blk o then decide (0x400 ≤ o) && bitAt (s.reg (coreReg c (o / 32 * 32 + 8)) 0) 30
  else bitAt (s.reg (regKey c blk 0xFC) 0) 0

/-- Is a write held off because the unit is busy (KTAB, FLASHC)? -/
def heldOff (blk o : Nat) (v : Word) (s : State) : Bool :=
  if blk = 6 then s.ktab.busy && (o == 0x10 || o == 0x14 || decide (0x20 ≤ o ∧ o < 0x30))
  else if blk = 17 ∧ 0x100 ≤ o ∧ o < 0x200 ∧ o % 0x40 ≤ 0xC then
    if o % 0x40 = 0xC then flashHeld (s.bank ((o - 0x100) / 0x40)) (fieldAt v 31 28) else (s.bank ((o - 0x100) / 0x40)).run.isSome
  else false
/-- The overrun flag of such a unit. -/
def markOverrun (blk o : Nat) (s : State) : State :=
  if blk = 6 then { s with ktab := { s.ktab with overrun := true } }
  else s.setBank ((o - 0x100) / 0x40) (fun k => { k with overrun := true })

/-! ### What a write does beyond the bits a register keeps -/

/-- SYSCTL: the domain switch, the causes cleared, the resets requested; of two resets the stronger applies and the weaker is recorded (R86, R102, R103). -/
def sysctlAct (o : Nat) (v : Word) (s : State) : State :=
  match o with
  | 0x10 => pwrTarget v s
  | 0x1C => { s with power := { s.power with timerFired := false } }
  | 0x20 => { s with power := { s.power with timerFired := false } }
  | 0x30 => { s with power := { s.power with rstCause := s.power.rstCause &&& ~~~ v } }
  | 0x34 =>
    if bitAt v 0 then warmReset 1 false (if bitAt v 1 then rstCause (bit32 4 true) s else s)
    else if bitAt v 1 then mgmtReset s else s
  | _ => s

/-- Forget that sources were raised: bit k of register j (FAULT_SEENj). -/
def clearSeen (j : Nat) (v : Word) (s : State) : State :=
  { s with fault := { s.fault with seen := s.fault.seen.filter (fun n => !(n / 32 == j && bitAt v (n % 32))) } }

/-- FAULT (R502, R507, R508, R513 to R517). -/
def faultAct (o : Nat) (v : Word) (s : State) : State :=
  if 0x400 ≤ o ∧ o < 0x800 then
    let n := (o - 0x400) / 4
    if bitAt v 14 then clearSeen (n / 32) (bit32 (n % 32) true) s else s
  else if 0x60 ≤ o ∧ o < 0x80 then clearSeen ((o - 0x60) / 4) v s
  else match o with
    | 0x04 => { s with fault := { s.fault with overflow := s.fault.overflow && !bitAt v 3, alarm := s.fault.alarm && !bitAt v 8 } }
    | 0x0C => faultAck v s
    | 0x10 => forceWrite v s
    | 0x14 => swRaise v s
    | _ => s

/-- TAMPER (R481, R484, R491, R492). A calibration through the register reads free resistances. -/
def tamperAct (o : Nat) (v : Word) (s : State) : State :=
  match o with
  | 0x04 => { s with tamper := { s.tamper with bkpLost := s.tamper.bkpLost && !bitAt v 6 } }
  | 0x08 => if bitAt v 0 then calibrate ((List.range 4).map (fun k => (s.fresh >>> (32 * k)).setWidth 32)) s.drew else s
  | 0x14 => stickyWrite v s
  | 0x30 => bistWrite v s
  | _ => s

/-- RNG (R366, R370, R372). -/
def rngAct (o : Nat) (v : Word) (s : State) : State :=
  match o with
  | 0x04 => { s with rng := { s.rng with overrun := s.rng.overrun && !bitAt v 9, oscFault := s.rng.oscFault && !bitAt v 7 } }
  | 0x18 => rngReqWrite v s
  | 0x44 => { s with rng := { s.rng with lfCause := s.rng.lfCause &&& ~~~ v.setWidth 16 } }
  | _ => s

/-- A write of VAULT_KILN: 0x4B4E triggers the kiln, any other value is a reserved encoding (R310). -/
def kilnWrite (v : Word) (s : State) : State :=
  let s := if fieldAt v 31 16 ≠ 0 then setStatusBits vaultBase 1 s else s
  if fieldAt v 15 0 = 0x4B4E then fireKiln 0xFF s else setStatusBits vaultBase 2 s

/-- VAULT (R310, R320). -/
def vaultAct (o : Nat) (v : Word) (s : State) : State :=
  match o with
  | 0x10 => engStart (fieldAt v 31 28) (fieldAt v 27 23) (bitAt v 22) (fieldAt v 21 17) (bitAt v 16) s
  | 0x34 => kilnWrite v s
  | _ => s

/-- KTAB operation of a code (R216). -/
def ktabOpOf : Nat → KtabOp
  | 1 => .fill
  | 2 => .invalidate
  | 3 => .pin
  | 4 => .unpin
  | 5 => .find
  | _ => .draw

/-- KTAB (R214, R216). A fill through the register finds its path sound; one that does not is the row FILL. -/
def ktabAct (o : Nat) (v : Word) (s : State) : State :=
  match o with
  | 0x04 => { s with ktab := { s.ktab with overrun := s.ktab.overrun && !bitAt v 7 } }
  | 0x10 => ktabRequest (ktabOpOf (fieldAt v 3 0)) (s.reg (ktabBase + 0x14) 0) (oidRegs s) .ok s
  | _ => s

/-- LOAD mode of a code (R251). -/
def loadModeOf : Nat → LoadMode
  | 0 => .openSeal
  | 1 => .openUnseal
  | _ => .reload

/-- A LANE block (R249, R251). -/
def laneAct (n o : Nat) (v : Word) (s : State) : State :=
  match o with
  | 0x04 => if bitAt v 5 then s.setLane n (fun l => { l with mbBusy := false }) else s
  | 0x08 => enterFifo n s
  | 0x10 =>
    if fieldAt v 31 28 = 1 then mailboxLoad n (fieldAt v 24 24) (loadModeOf (fieldAt v 27 26)) (fieldAt v 5 0) (s.reg (laneBase n + 0x14) 0) s
    else mailboxClear n (fieldAt v 24 24) (bitAt v 25) (fieldAt v 5 0) (s.reg (laneBase n + 0x14) 0) s
  | _ => s

/-- JRNL (R286). -/
def jrnlAct (o : Nat) (v : Word) (s : State) : State :=
  if o = 0x04 then { s with journal := { s.journal with broke := s.journal.broke && !bitAt v 7 } } else s

/-- DRAMC (R438, R440, R442). The lines that a page copy finds uncorrectable beside the known ones are free. -/
def dramcAct (o : Nat) (v : Word) (s : State) : State :=
  match o with
  | 0x50 => logNext v s
  | 0x74 => retire (fieldAt v 11 0) (s.fresh.toNat % 2 ^ 64) s.drew
  | 0x84 => repairRow (fieldAt v 26 21) (fieldAt v 10 0) s
  | _ => s

/-- The password in FLASHC_PW0 to FLASHC_PW3. -/
def passwordRegs (s : State) : QWord := BitVec.ofNat 128 ((List.range 4).foldl (fun a i => a + (s.reg (flashBase + 0x200 + 4 * i) 0).toNat * 2 ^ (32 * i)) 0)

/-- FLASHC (R464, R470 to R472). -/
def flashcAct (o : Nat) (v : Word) (s : State) : State :=
  if 0x100 ≤ o ∧ o < 0x200 then
    let b := (o - 0x100) / 0x40
    match o % 0x40 with
    | 0x0C =>
      let a := flashBase + 0x100 + 0x40 * b
      flashCommand b (fieldAt v 31 28) (fieldAt (s.reg a 0) 23 3) (s.reg (a + 8) 0 ++ s.reg (a + 4) 0) s
    | 0x10 => if bitAt v 27 then s.setBank b (fun k => { k with overrun := false }) else s
    | _ => s
  else if 0x200 ≤ o ∧ o < 0x210 then s.setReg (flashBase + o) v
  else if o = 0x210 then
    match fieldAt v 31 28 with
    | 1 => flashUnlock (passwordRegs s) s
    | 2 => flashLock s
    | _ => flashSetPassword (passwordRegs s) s
  else s

/-- TAGIF (R583, R584). -/
def tagifAct (o : Nat) (v : Word) (s : State) : State :=
  match o with
  | 0x04 => if bitAt v 5 then (s.setTag (fun t => { t with wrote := false })).munline 7 else s
  | 0x08 => wiredStart ⟨fieldAt v 31 28, fieldAt v 7 0, fieldAt v 9 8, tagifData s, none⟩ s
  | _ => s

/-- CARD (R604, R605). -/
def cardAct (o : Nat) (v : Word) (s : State) : State :=
  if 0x100 ≤ o ∧ o < 0x180 then
    let n := (o - 0x100) / 0x20
    match o % 0x20 with
    | 0x00 => if bitAt v 28 then s.setSlot n (fun k => { k with overCur := false }) else s
    | 0x04 =>
      match fieldAt v 31 28 with
      | 1 => cmdActivate n (fieldAt v 27 26) s
      | 2 => cmdDeactivate n s
      | 3 => cmdWarmReset n s
      | 4 => cmdStopClock n s
      | _ => cmdStartClock n s
    | _ => s
  else s

/-- CC-B leaves reset at CORECFG_CCB_PC (R401, R404). -/
def releaseCcb (s : State) : State := startCcb s

/-- The other logical custody core (R429). -/
def otherCore : CoreId → CoreId
  | .ccA => .ccB
  | .ccB => .ccA
  | .mgt => .mgt
/-- Set or clear line 22 at a custody core. -/
def setLine22 (c : CoreId) (b : Bool) (s : State) : State :=
  match c with
  | .mgt => s
  | c => s.setCore c { s.core c with line22 := b }
/-- A write of CORECFG_IXREQ by a core (R429). -/
def ixreqWrite (c : CoreId) (v : Word) (s : State) : State :=
  let s := if bitAt v 0 then setLine22 (otherCore c) true s else s
  if bitAt v 1 then setLine22 c false s else s

/-- CORECFG (R404, R429). -/
def corecfgAct (c : CoreId) (o : Nat) (v : Word) (s : State) : State :=
  match o with
  | 0x08 => if bitAt v 0 && c != .mgt then releaseCcb s else s
  | 0x114 => ixreqWrite c v s
  | _ => s

/-- The effect of an accepted write, its reserved bits dropped. -/
def regAct (c : CoreId) (blk o : Nat) (v : Word) (s : State) : State :=
  match blk with
  | 0 => sysctlAct o v s
  | 1 => faultAct o v s
  | 2 => tamperAct o v s
  | 3 => rngAct o v s
  | 4 => if o = 0x18 then ringTailWrite v s else s
  | 5 => vaultAct o v s
  | 6 => ktabAct o v s
  | 7 => laneAct 0 o v s
  | 8 => laneAct 1 o v s
  | 9 => laneAct 2 o v s
  | 10 => laneAct 3 o v s
  | 11 => jrnlAct o v s
  | 16 => dramcAct o v s
  | 17 => flashcAct o v s
  | 19 => tagifAct o v s
  | 20 => cardAct o v s
  | 22 => corecfgAct c o v s
  | _ => s

/-! ### The access rules -/

/-- What a register's kept bits become. -/
def RegSpec.next (r : RegSpec) (locked : Bool) (old v : Word) : Word :=
  let free := r.rw ||| (if locked then 0 else r.rwl)
  ((old &&& ~~~ free) ||| (v &&& free) ||| (v &&& r.w1s)) &&& ~~~ (v &&& r.w1c)

/-- The STATUS bits a write sets: rsvd_write, bad_encoding, lock_write (R7, R9 to R11). A write that R10 discards whole does not reach its locked fields, and sets no lock_write. DESIGN CHOICE (log 116) -/
def RegSpec.marks (r : RegSpec) (locked : Bool) (v : Word) : Word :=
  bit32 0 (v &&& r.reserved != 0) ||| bit32 1 (r.bad v) ||| bit32 2 (locked && r.rwl != 0 && !r.bad v)

/-- Set the STATUS bits that a write earns. -/
def markWrite (c : CoreId) (blk : Nat) (m : Word) (s : State) : State := if m = 0 then s else setStatusBits (statusBase c blk) m s

/-- A write of a register by a core (R5, R9 to R11): the fields first, so that a write that clears rsvd_write and sets a reserved bit leaves it set. An offset with no register takes no write. -/
def regWrite (c : CoreId) (blk o : Nat) (v : Word) (s : State) : State :=
  match regSpec blk o with
  | none => s
  | some r =>
    if heldOff blk o v s then markOverrun blk o s
    else
      let locked := regLocked c blk o s
      let m := r.marks locked v
      if r.bad v then markWrite c blk m s
      else
        let k := regKey c blk o
        let old := s.reg k r.rst
        let new := r.next locked old v
        markWrite c blk m (regAct c blk o (v &&& ~~~ r.reserved) (if new = old then s else s.setReg k new))

/-- What a register reads as (R5, R8). -/
def regRead (c : CoreId) (blk o : Nat) (s : State) : Word :=
  match regSpec blk o with
  | none => if blk = 23 then regView c blk o s else 0
  | some r => (s.reg (regKey c blk o) r.rst &&& r.kept) ||| (regView c blk o s &&& ~~~ r.reserved)

/-! ### BAR0 (R154 to R159) -/

/-- A port register as the host reads it. -/
def barRead (p o : Nat) (s : State) : Word :=
  let h := s.port p
  let entry (f : MsixVector → Word) : Word := match h.msix[(o - 0x2000) / 16]? with | some e => f e | none => 0
  if o < 0x1000 then
    match o with
    | 0x00 => 0x80170100 ||| put32 0 p
    | 0x04 => (s.reg (barBase p + 4) 0 &&& 7) ||| bit32 7 (portReady s) ||| bit32 6 s.power.safe ||| bit32 5 h.cfgError ||| bit32 4 (ideSecure h) ||| bit32 3 h.enabled
    | 0x08 => bit32 0 h.enabled
    | 0x10 => halfOf h.admSq.toNat false
    | 0x14 => halfOf h.admSq.toNat true
    | 0x18 => halfOf h.admCq.toNat false
    | 0x1C => halfOf h.admCq.toNat true
    | 0x20 => h.admSize
    | _ => 0
  else if 0x2000 ≤ o ∧ o < 0x2800 then
    match o % 16 with
    | 0 => entry (fun e => halfOf e.addr.toNat false)
    | 4 => entry (fun e => halfOf e.addr.toNat true)
    | 8 => entry (·.data)
    | _ => entry (fun e => bit32 0 e.masked)
  else if 0x2800 ≤ o ∧ o < 0x2810 then
    bitsOf (fun k => match h.msix[8 * (o - 0x2800) + k]? with | some e => e.pending | none => false)
  else 0

/-- One half of a 64-bit quantity replaced. -/
def setHalf (d : DWord) (hi : Bool) (v : Word) : DWord := if hi then v ++ d.setWidth 32 else (d >>> 32).setWidth 32 ++ v

/-- The vectors that are unmasked with their pending bit set send their messages (R159). -/
def sendPending (h : HostPort) : HostPort :=
  if h.msixEnable && !h.functionMask then
    let due (e : MsixVector) : Bool := e.pending && !e.masked
    { h with sent := h.sent ++ (h.msix.filter due).map (fun e => (e.addr, e.data)), msix := h.msix.map (fun (e : MsixVector) => if due e then { e with pending := false } else e) }
  else h
/-- A write to an MSI-X table entry. -/
def msixWrite (p i f : Nat) (v : Word) (s : State) : State :=
  let h := s.port p
  match h.msix[i]? with
  | none => s
  | some e =>
    let e := match f with
      | 0 => { e with addr := setHalf e.addr false v }
      | 4 => { e with addr := setHalf e.addr true v }
      | 8 => { e with data := v }
      | _ => { e with masked := bitAt v 0 }
    s.setPort p (sendPending { h with msix := h.msix.set i e })

/-- An admin queue register takes a write while the admin queue is down (R105). -/
def admWrite (p : Nat) (f : HostPort → HostPort) (s : State) : State := if (s.port p).enabled then s else s.setPort p (f (s.port p))
/-- Mark reserved bits written to a port register. -/
def barMark (p : Nat) (bits : Word) (s : State) : State := if bits = 0 then s else setStatusBits (barBase p) 1 s

/-- A 32-bit write to a port register (R105, R155 to R158): reserved bits set rsvd_write; reserved ranges ignore it. -/
def barWrite32 (p o : Nat) (v : Word) (s : State) : State :=
  if o < 0x1000 then
    match o with
    | 0x04 =>
      let s := s.setReg (barBase p + 4) (s.reg (barBase p + 4) 0 &&& ~~~ (v &&& 7))
      barMark p (v &&& 0xFFFFFF00) (if bitAt v 5 then s.setPort p { s.port p with cfgError := false } else s)
    | 0x08 => portControl p v s
    | 0x10 => admWrite p (fun h => { h with admSq := setHalf h.admSq false v }) s
    | 0x14 => admWrite p (fun h => { h with admSq := setHalf h.admSq true v }) s
    | 0x18 => admWrite p (fun h => { h with admCq := setHalf h.admCq false v }) s
    | 0x1C => admWrite p (fun h => { h with admCq := setHalf h.admCq true v }) s
    | 0x20 => admWrite p (fun h => { h with admSize := v &&& 0x0FFF0FFF }) (barMark p (v &&& 0xF000F000) s)
    | _ => s
  else if 0x1000 ≤ o ∧ o < 0x1200 then
    if o % 8 = 0 then sqTail p ((o - 0x1000) / 8) v [] s else cqHead p ((o - 0x1000) / 8) v s
  else if 0x2000 ≤ o ∧ o < 0x2800 then msixWrite p ((o - 0x2000) / 16) (o % 16) v s
  else s

/-- Are a width and an offset those of one or two registers of BAR0 (R155)? -/
def barFits (o width : Nat) : Bool := (width == 4 && o % 4 == 0) || (width == 8 && o % 8 == 0)
/-- A host write of a width in bytes at an offset of BAR0: one of 8 bytes is two of 4, low address first; one of any other width or alignment is discarded with source 185 (R155). -/
def barWrite (p o width : Nat) (v : DWord) (s : State) : State :=
  hostTlp p (fun s =>
    if barFits o width = false then s.raiseAt 185 (.port p) 0 0
    else if width = 4 then barWrite32 p o (v.setWidth 32) s
    else barWrite32 p (o + 4) ((v >>> 32).setWidth 32) (barWrite32 p o (v.setWidth 32) s)) s
/-- A host read: what the registers hold, or zero with source 185 (R155). -/
def hostRead (p o width : Nat) (s : State) : State :=
  hostTlp p (fun s =>
    let put (d : DWord) (s : State) : State := s.setPort p { s.port p with reply := .data d }
    if barFits o width = false then put 0 (s.raiseAt 185 (.port p) 0 0)
    else if width = 4 then put ((barRead p o s).setWidth 64) s
    else put (barRead p (o + 4) s ++ barRead p o s) s) s
/-- A write TLP with poisoned data is discarded (R155), and logged as one received. PRESUMED (PCIe Base 5.0) -/
def hostPoisoned (p : Nat) (s : State) : State := hostTlp p (fun s => s.setPort p ((s.port p).aerError 0x00001000)) s

/-! ### Configuration space (R150, R151, R160, R161, R164) -/

/-- A register of the configuration space as the host reads it. -/
def cfgRead32 (p off : Nat) (s : State) : Word :=
  let h := s.port p
  h.cfgWord off ||| cfgHeader p off h (5 - fieldAt (s.reg (hostpBase p + 8) 2) 3 2) (s.cqe.inflight.any (fun c => c.src.port == some p)) ||| cfgExtended off (streamSecure h)
/-- A write under a byte mask: stored and cleared bits, then what the register's fields do: bus master off, device power state, function-level reset, MSI-X enabled or unmasked. -/
def cfgWrite32 (p off : Nat) (v mask : Word) (s : State) : State :=
  let h := s.port p
  let old := h.cfgWord off
  let new := ((old &&& ~~~ (cfgRw off &&& mask)) ||| (v &&& cfgRw off &&& mask)) &&& ~~~ (v &&& mask &&& cfgW1c off)
  let t := if new = old then s else s.setPort p (h.setCfg off new)
  match off with
  | 0x04 => if bitAt old 2 = true ∧ bitAt new 2 = false then busMasterOff p t else t
  | 0x44 => if bitAt mask 0 = false then t else if fieldAt v 1 0 = 3 ∧ h.d3hot = false then enterD3 p t else if fieldAt v 1 0 = 0 ∧ h.d3hot = true then leaveD3 p t else t
  | 0x78 => if bitAt (v &&& mask) 15 then hostFlr p .flr t else t
  | 0xB0 => t.setPort p (sendPending (t.port p))
  | _ => t
/-- A configuration request reaches the port while its link is up; before the start-up has ended it is answered with Request Retry Status (R164). -/
def cfgRequest (p : Nat) (body : State → State) (s : State) : State :=
  if linkOpen s p = false then s
  else
    let s := tlpArrives p s
    if s.power.booted then body s else s.setPort p { s.port p with reply := .retry }
/-- The bits of `width` bytes at an offset within a register. -/
def byteMask (o width : Nat) : Word := BitVec.ofNat 32 ((2 ^ (8 * width) - 1) * 2 ^ (8 * (o % 4)))
/-- A configuration write of 1, 2 or 4 bytes. -/
def cfgWrite (p o width : Nat) (v : DWord) (s : State) : State :=
  cfgRequest p (fun s => cfgWrite32 p (o / 4 * 4) (v.setWidth 32 <<< (8 * (o % 4))) (byteMask o width)
    (s.setPort p { s.port p with reply := .none })) s
/-- A configuration read of 1, 2 or 4 bytes. -/
def cfgRead (p o width : Nat) (s : State) : State :=
  cfgRequest p (fun s => s.setPort p { s.port p with
    reply := .data (((cfgRead32 p (o / 4 * 4) s &&& byteMask o width) >>> (8 * (o % 4))).setWidth 64) }) s

end Sys2Proof.Machine
end

