-- ==== Sys2Proof/Machine/Bus.lean ====
section
/-! DEFINITION. The address map of the cores: memories, the flash and DDR5 windows, the register blocks (01_system_view.md, R33 to R38; 15_embedded_flash.md, R452, R453; 13_rings_exceptions.md, R412). -/

namespace Sys2Proof.Machine

/-- Outcome of one bus access: a value, or a bus error with its detail (R412). -/
inductive BusRes
  | ok (v : Nat) (s : State)
  | err (detail : Nat) (s : State)

/-- Regions of the address map. -/
inductive Region
  | rom
  | sram (space : Nat)
  | flash (bank off : Nat)
  | regs (blk off : Nat)
  | ddr (win off : Nat)
  | hole
  deriving DecidableEq, Repr

/-- The region of an address as a core sees it. The management core's own map is given only in part (R33, R421): its SRAM stands at the same place, and it reaches the management-plane blocks, SYSCTL and its own CORECFG. DESIGN CHOICE -/
def regionOf (c : CoreId) (a : Nat) : Region :=
  let own : Bool := c == .mgt
  if a < 0x20000 then .rom
  else if 0x10000000 ≤ a ∧ a < 0x10800000 then .sram (if own then 3 else 0)
  else if 0xF0000000 ≤ a ∧ a < 0xF0004000 then .sram (if own then 3 else 0)
  else if 0x40000000 ≤ a ∧ a < 0x40180000 then
    let blk := (a - 0x40000000) / 0x10000
    if own && !(blk == 0 || blk == 22 || decide (18 ≤ blk ∧ blk ≤ 21)) then .hole else .regs blk (a % 0x10000)
  else if own then .hole
  else if 0x20000000 ≤ a ∧ a < 0x24000000 then .flash ((a - 0x20000000) / 0x1000000) (a % 0x1000000)
  else if 0x80000000 ≤ a ∧ a < 0xC0000000 then .ddr ((a - 0x80000000) / 0x10000000) (a % 0x10000000)
  else .hole

/-- May instructions be fetched from an address (R392)? -/
def fetchable (c : CoreId) (addr : Nat) : Bool :=
  match regionOf c addr with
  | .rom => true
  | .sram _ => true
  | _ => false

/-- Bytes of the boot ROM as a number. -/
def romNat (a n : Nat) : Nat := leNat ((List.range n).map (fun i => Config.bootRom (a + i)))

/-- A flash read (R452, R453, R461, R462): refused while the bank works or the sector's erase is suspended; a torn sector and a word cut by a power loss read as free values or, by a free bit, as an uncorrectable error; the module's own records read as free values. -/
def flashLoad (b off size addr : Nat) (s : State) : BusRes :=
  let k := s.bank b
  let sec := off / 4096
  let busy : Bool := match k.run with | some (.query _) => false | some _ => true | none => false
  if busy || (s.flash.pwRun.isSome && b == Config.passwordBank) then .err 4 (s.raiseAt 162 ⟨0, 0⟩ 0 (BitVec.ofNat 64 addr))
  else if k.suspended = some sec then .err 5 (s.raiseAt 163 ⟨0, 0⟩ 0 (BitVec.ofNat 64 addr))
  else if (k.torn.contains sec || k.started.contains sec || k.unspec.contains (off / 8)) && s.fresh.getLsbD 64 then
    .err 3 (s.drew.raiseAt 161 ⟨0, 0⟩ 0 (BitVec.ofNat 64 addr))
  else if k.torn.contains sec || k.started.contains sec || k.unspec.contains (off / 8) || (b == 3 && Config.flashHeld (b * 0x1000000 + off)) then
    .ok (s.fresh.toNat % 2 ^ (8 * size)) s.drew
  else .ok (flashNat s b off size) s

/-- DDR5 byte address behind a window, when the window and the controller are enabled (DRAMC_WIN, R447). -/
def ddrAddress (win off : Nat) (s : State) : Option Nat :=
  let w := s.reg (dramcBase + 0x10 + 4 * win) 0
  if bitAt (s.reg (dramcBase + 8) 0) 0 && bitAt w 31 then some (fieldAt w 8 0 * 2 ^ 28 + off) else none

/-- Does an address lie in the lockdown handler's code, which the boot ROM writes (R421)? -/
def handlerCode (addr : Nat) : Bool := decide (0xF0000000 ≤ addr ∧ addr < 0xF0002000)
/-- A load from SRAM: the management core's own carries no code (R430, R433). The lockdown handler the boot ROM wrote is not given: where nothing else stands in its place it reads as a free value (R421). -/
def sramLoad (sp addr size : Nat) (s : State) : BusRes :=
  if sp = 0 ∧ sramBad s addr = true then .err 3 (demandUe true (sramWord addr).1 (sramWord addr).2 0 s)
  else if handlerCode addr = true ∧ s.readNat sp addr size = 0 then .ok (s.fresh.toNat % 2 ^ (8 * size)) s.drew
  else .ok (s.readNat sp addr size) s
/-- A core's store to SRAM: narrower than the code word, it is discarded where the word reads uncorrectable (R393, R434). -/
def sramStore (c : CoreId) (sp addr size v : Nat) (s : State) : BusRes :=
  if sp = 0 ∧ sramBad s addr = true then .err 3 (demandUe true (sramWord addr).1 (sramWord addr).2 1 s)
  else .ok 0 ((s.writeNat sp addr size v).dropResv (some c) sp addr size)
/-- A load from DDR5, through the remap table (R433, R440). -/
def ddrLoad (a size : Nat) (s : State) : BusRes :=
  let p := ddrPlace s a
  if ddrBad s p then .err 3 (demandUe false 0 p 0 s) else .ok (s.readNat 2 p size) s
/-- A core's store to DDR5: narrower than a line (R393, R434). -/
def ddrStore (c : CoreId) (a size v : Nat) (s : State) : BusRes :=
  let p := ddrPlace s a
  if ddrBad s p then .err 3 (demandUe false 0 p 1 s) else .ok 0 ((s.writeNat 2 p size v).dropResv (some c) 2 p size)
/-- The place of a 64-byte granule a core reserves: memory by where it lies, anything else by its address (R393). -/
def granuleOf (c : CoreId) (a : Nat) (s : State) : Nat :=
  match regionOf c a with
  | .sram sp => memKey sp a / 64
  | .ddr w off => memKey 2 (((ddrAddress w off s).map (ddrPlace s)).getD off) / 64
  | _ => memKey 7 a / 64
/-- Does the word an instruction is fetched from read uncorrectable? -/
def fetchBad (c : CoreId) (a : Nat) (s : State) : Bool := match regionOf c a with | .sram 0 => sramBad s a | _ => false

/-- A load: memory, flash, a register, or nothing there (R6, R38). A custody core's read of a management-plane block clears nothing (R33). -/
def busLoad (c : CoreId) (addr size : Nat) (s : State) : BusRes :=
  match regionOf c addr with
  | .rom => .ok (romNat addr size) s
  | .sram sp => sramLoad sp addr size s
  | .flash b off => flashLoad b off size addr s
  | .ddr w off =>
    match ddrAddress w off s with
    | none => .err 1 s
    | some a =>
      match Config.ddrOwner a with
      | 0 => ddrLoad a size s
      | 1 => .err 2 (s.raiseAt 67 ⟨0, 0⟩ 0 (BitVec.ofNat 64 a))
      | _ => .ok (s.fresh.toNat % 2 ^ (8 * size)) s.drew
  | .regs blk o =>
    if size ≠ 4 ∨ o % 4 ≠ 0 then .err 6 s
    else
      let v := (regRead c blk o s).toNat
      let s := if viewDraws blk o then s.drew else s
      let window : Bool := c != .mgt && (blk == 0 || decide (18 ≤ blk ∧ blk ≤ 21))
      .ok v (if window then s else readClears blk o s)
  | .hole => .err 1 s

/-- A store. Flash and the boot ROM take none; a custody core's write to a management-plane block has no effect (R33, R36, R38, R452). -/
def busStore (c : CoreId) (addr size v : Nat) (s : State) : BusRes :=
  match regionOf c addr with
  | .rom => .err 1 s
  | .sram sp => sramStore c sp addr size v s
  | .flash _ _ => .err 1 s
  | .ddr w off =>
    match ddrAddress w off s with
    | none => .err 1 s
    | some a =>
      match Config.ddrOwner a with
      | 0 => ddrStore c a size v s
      | 1 => .err 2 (s.raiseAt 67 ⟨0, 0⟩ 0 (BitVec.ofNat 64 a))
      | _ => .ok 0 s
  | .regs blk o =>
    if size ≠ 4 ∨ o % 4 ≠ 0 then .err 6 s
    else if c ≠ .mgt ∧ (blk = 0 ∨ (18 ≤ blk ∧ blk ≤ 21)) then .ok 0 s
    else .ok 0 (regWrite c blk o (BitVec.ofNat 32 v) s)
  | .hole => .err 1 s

end Sys2Proof.Machine
end

