-- ==== Sys2Proof/Machine/Flags.lean ====
section
/-! DEFINITION. Arithmetic of the Mbovor-32 with its deferred-trap flags (12_mbovor_core_isa.md, R390, R396). -/

namespace Sys2Proof.Machine

/-- An arithmetic result with the flags it sets in deferred mode (R396). -/
structure Arith where
  value : Word
  div   : Bool
  ovf   : Bool
  deriving DecidableEq, Repr

/-- A result that never faults. -/
def Arith.plain (v : Word) : Arith := ⟨v, false, false⟩

/-- Does a signed result fall outside 32 bits? -/
def signedOut (x : Int) : Bool := decide (x < -2147483648) || decide (2147483647 < x)

/-- ADDV, ADDIV: the wrapped sum, af_ovf on signed overflow. -/
def arithAddv (a b : Word) : Arith := ⟨a + b, false, signedOut (a.toInt + b.toInt)⟩
/-- SUBV. -/
def arithSubv (a b : Word) : Arith := ⟨a - b, false, signedOut (a.toInt - b.toInt)⟩
/-- DIVU: all ones and af_div on a zero divisor. -/
def arithDivu (a b : Word) : Arith := if b = 0 then ⟨0xFFFFFFFF, true, false⟩ else .plain (a / b)
/-- REMU: rs and af_div on a zero divisor. -/
def arithRemu (a b : Word) : Arith := if b = 0 then ⟨a, true, false⟩ else .plain (a % b)
/-- DIVS, truncated toward zero; the one overflow gives 0x8000_0000. -/
def arithDivs (a b : Word) : Arith :=
  if b = 0 then ⟨0xFFFFFFFF, true, false⟩
  else if a = 0x80000000 ∧ b = 0xFFFFFFFF then ⟨0x80000000, false, true⟩
  else .plain (BitVec.sdiv a b)
/-- REMS, with the sign of rs; the one overflow gives 0. -/
def arithRems (a b : Word) : Arith :=
  if b = 0 then ⟨a, true, false⟩
  else if a = 0x80000000 ∧ b = 0xFFFFFFFF then ⟨0, false, true⟩
  else .plain (BitVec.srem a b)

/-- MULHU: bits 63:32 of the unsigned product. -/
def mulHighU (a b : Word) : Word := BitVec.ofNat 32 (a.toNat * b.toNat / 2 ^ 32)
/-- MULHS: bits 63:32 of the signed product. -/
def mulHighS (a b : Word) : Word := BitVec.ofInt 32 (a.toInt * b.toInt / 2 ^ 32)
/-- 1 when the condition holds, else 0. -/
def boolWord (b : Bool) : Word := if b then 1 else 0

/-- Leading zero bits among the lowest `n` bits. -/
def leadingZeros (w : Word) : Nat → Nat
  | 0 => 0
  | n + 1 => if w.getLsbD n then 0 else leadingZeros w n + 1
/-- CLZ, 0 to 32. -/
def clz (w : Word) : Word := BitVec.ofNat 32 (leadingZeros w 32)

end Sys2Proof.Machine
end

