-- ==== Sys2Proof/Machine/Operands.lean ====
section
/-! DEFINITION. Operand forms of the Mbovor-32: windowed registers, immediates, branch targets, bit fields, byte selectors, and the words an instruction is read from (12_mbovor_core_isa.md, R375, R376, R388 to R395). -/

namespace Sys2Proof.Machine

/-- WSTATE.cwp (R384). -/
def Core.cwp (k : Core) : Nat := fieldAt k.wstate 3 0
/-- WSTATE.res (R384). -/
def Core.res (k : Core) : Nat := fieldAt k.wstate 19 16
/-- A core with its window moved. -/
def Core.setWindow (k : Core) (cwp res : Nat) : Core := { k with wstate := put32 16 res ||| put32 0 cwp }
/-- Physical entry of window register `n` (R376). -/
def Core.phys (c : CoreId) (k : Core) (n : Nat) : Nat := (16 * k.cwp + n) % (16 * c.frames)

/-- Read a register field: window register below 24, else a global; g0 reads zero (R375). -/
def Core.read (c : CoreId) (k : Core) (f : RegF) : Word :=
  if f.toNat < 24 then k.rf.getD (Core.phys c k f.toNat) 0
  else if f.toNat = 24 then 0
  else k.g.getD (f.toNat - 25) 0

/-- Write a register field; a write to g0 is discarded (R375). -/
def Core.write (c : CoreId) (k : Core) (f : RegF) (v : Word) : Core :=
  if f.toNat < 24 then { k with rf := k.rf.set (Core.phys c k f.toNat) v }
  else if f.toNat = 24 then k
  else { k with g := k.g.set (f.toNat - 25) v }

/-- A register of the core's present window. -/
def State.rd (s : State) (c : CoreId) (f : RegF) : Word := (s.core c).read c f
/-- Write a register of the core's present window. -/
def State.wr (s : State) (c : CoreId) (f : RegF) (v : Word) : State := s.setCore c ((s.core c).write c f v)

/-- A sign-extended 16-bit immediate. -/
def sext16 (i : BitVec 16) : Word := i.signExtend 32
/-- A zero-extended 16-bit immediate. -/
def zext16 (i : BitVec 16) : Word := i.zeroExtend 32
/-- Target of a B-format branch: the instruction's address + 4 · sext(disp16) (R388). -/
def target16 (pc : Word) (d : BitVec 16) : Word := pc + (d.signExtend 32 <<< 2)
/-- Target of a J-format jump. -/
def target26 (pc : Word) (d : BitVec 26) : Word := pc + (d.signExtend 32 <<< 2)
/-- Shift amount rt[4:0] (R390). -/
def shamt (v : Word) : Nat := v.toNat % 32

/-- A mask of `width` bits. -/
def maskOf (width : Nat) : Word := BitVec.ofNat 32 (2 ^ width - 1)
/-- BFI: insert rs[width − 1:0] at lsb (R394). -/
def bitInsert (rd rs : Word) (lsb width : Nat) : Word :=
  (rd &&& ~~~ (maskOf width <<< lsb)) ||| ((rs &&& maskOf width) <<< lsb)
/-- BFXU: the field zero-extended. -/
def bitExtractU (rs : Word) (lsb width : Nat) : Word := (rs >>> lsb) &&& maskOf width
/-- BFXS: the field sign-extended from bit width − 1. -/
def bitExtractS (rs : Word) (lsb width : Nat) : Word :=
  if (rs >>> lsb).getLsbD (width - 1) then bitExtractU rs lsb width ||| ~~~ maskOf width else bitExtractU rs lsb width

/-- Selector code of result byte `k` (R395). -/
def permCode (sel : BitVec 16) (k : Nat) : Nat := fieldAt sel (4 * k + 3) (4 * k)
/-- One BPERM result byte: codes 0 to 3 pick rd, 4 to 7 pick rs, 8 gives zero. -/
def permByte (rd rs : Word) (code : Nat) : Nat :=
  if code < 4 then fieldAt rd (8 * code + 7) (8 * code)
  else if code < 8 then fieldAt rs (8 * (code - 4) + 7) (8 * (code - 4))
  else 0
/-- BPERM (R395). -/
def bytePerm (rd rs : Word) (sel : BitVec 16) : Word :=
  put32 0 (permByte rd rs (permCode sel 0)) ||| put32 8 (permByte rd rs (permCode sel 1))
    ||| put32 16 (permByte rd rs (permCode sel 2)) ||| put32 24 (permByte rd rs (permCode sel 3))
/-- A BPERM selector with a code from 9 to 15 is reserved (R391). -/
def permBad (sel : BitVec 16) : Bool := (List.range 4).any (fun k => decide (8 < permCode sel k))

/-! ### Undefined and malformed words (R389 to R391) -/

/-- ILLEGAL detail when a zero field is not zero. -/
def zeroField (b : Bool) : Option Nat := if b then none else some 1

/-- What R391 finds wrong with an instruction word: the ECAUSE detail, or none for a legal word. -/
def illegalWord (w : Word) : Option Nat :=
  let op := fieldAt w 31 26
  let fn := fieldAt w 10 0
  let z (hi lo : Nat) : Bool := fieldAt w hi lo == 0
  if op = 0 then
    if fn = 0 ∨ 0x16 < fn then some 0 else if fn = 0x16 then zeroField (z 15 11) else none
  else if op = 1 then zeroField (z 15 7)
  else if op ≤ 8 then none
  else if op = 9 then zeroField (z 20 16)
  else if 0x10 ≤ op ∧ op ≤ 0x15 then none
  else if 0x18 ≤ op ∧ op ≤ 0x1A then none
  else if op = 0x1B then zeroField (z 10 0)
  else if 0x20 ≤ op ∧ op ≤ 0x27 then none
  else if op = 0x28 then
    if 1 < fn then some 0 else zeroField (z 25 21 && z 15 11)
  else if op = 0x29 then zeroField (z 25 0)
  else if op = 0x2C then if permBad (BitVec.ofNat 16 (fieldAt w 15 0)) then some 2 else none
  else if op = 0x2D then
    if 2 < fieldAt w 5 0 then some 0 else if 32 < fieldAt w 15 11 + fieldAt w 10 6 + 1 then some 2 else none
  else if op = 0x30 then zeroField (z 20 12)
  else if op = 0x31 then zeroField (z 25 21 && z 15 12)
  else if op = 0x32 then
    if fieldAt w 15 0 = 0 ∨ 8 < fieldAt w 15 0 then some 0 else zeroField (z 25 16)
  else if op = 0x33 then zeroField (z 25 8)
  else some 0

end Sys2Proof.Machine
end

