-- ==== Sys2Proof/Machine/Cpu.lean ====
section
/-! DEFINITION. What every Mbovor-32 instruction shares: the MPU, checked accesses, interrupt selection, exception entry, lockdown, the two ERET paths, and the order of conditions within one instruction (12_mbovor_core_isa.md, 13_rings_exceptions.md). -/

namespace Sys2Proof.Machine

/-- STATUS.ring. -/
def Core.ring (k : Core) : Nat := fieldAt k.status 1 0
/-- STATUS.lockdown. -/
def Core.lockdown (k : Core) : Bool := bitAt k.status 12
/-- STATUS.af_ovf and af_div as ECAUSE.detail bits 1 and 0 (R386). -/
def Core.arithFlags (k : Core) : Nat := fieldAt k.status 9 8
/-- The top of the shadow stack; empty reads as ring 0 (R413). -/
def Core.shadowTop (k : Core) : Nat := (k.shadow.head?.map BitVec.toNat).getD 0

/-! ### Memory protection unit (R409 to R411) -/

/-- Access kinds of the MPU (R412): 0 read, 1 write, 2 fetch. -/
def mpuPermit (attr : Word) (ring kind : Nat) : Bool :=
  bitAt attr (4 * ring + (if kind = 0 then 0 else if kind = 1 then 1 else 2))

/-- Does region `k` cover an address, and with which attributes? -/
def mpuRegion (s : State) (c : CoreId) (addr k : Nat) : Option Word :=
  let base := s.reg (coreReg c (0x400 + 32 * k)) 0
  let lim := s.reg (coreReg c (0x404 + 32 * k)) 0
  let attr := s.reg (coreReg c (0x408 + 32 * k)) 0
  if bitAt attr 31 && decide (fieldAt base 31 8 * 256 ≤ addr) && decide (addr ≤ fieldAt lim 31 8 * 256 + 255) then some attr else none

/-- The MPU's verdict on an access as a ring: none when permitted, else the ECAUSE detail (R409, R410). -/
def mpuCheck (s : State) (c : CoreId) (ring kind addr : Nat) : Option Nat :=
  if (s.core c).lockdown then none
  else match (List.range 32).findSome? (mpuRegion s c addr) with
    | some attr => if mpuPermit attr ring kind then none else some kind
    | none => if ring = 0 then none else some (kind + 8)

/-! ### Checked data accesses (R393, R399 orders 10 to 12) -/

/-- Outcome of an instruction's own work: done, or a trap with vector, detail, EADDR. -/
inductive Issue
  | fin (s : State)
  | trap (vector detail : Nat) (eaddr : Word) (s : State)

/-- A load of `size` bytes: alignment, MPU, bus, in that order. -/
def dataLoad (c : CoreId) (ring addr size : Nat) (s : State) (k : Nat → State → Issue) : Issue :=
  if addr % size ≠ 0 then .trap 4 0 (BitVec.ofNat 32 addr) s
  else match mpuCheck s c ring 0 addr with
    | some d => .trap 8 d (BitVec.ofNat 32 addr) s
    | none => match busLoad c addr size s with
      | .err d s' => .trap 6 d (BitVec.ofNat 32 addr) s'
      | .ok v s' => k v s'

/-- Is an address in a register block, which the custody cores write from ring 0 only (R34 and the heading of each register table)? -/
def ringZeroOnly (c : CoreId) (addr : Nat) : Bool := c != .mgt && decide (0x40000000 ≤ addr ∧ addr < 0x40170000)

/-- A store of `size` bytes. A store to a register block from ring 1 to 3 that the MPU lets through has no effect. DESIGN CHOICE (log 115) -/
def dataStore (c : CoreId) (ring addr size v : Nat) (s : State) (k : State → Issue) : Issue :=
  if addr % size ≠ 0 then .trap 4 0 (BitVec.ofNat 32 addr) s
  else match mpuCheck s c ring 1 addr with
    | some d => .trap 8 d (BitVec.ofNat 32 addr) s
    | none => if ring ≠ 0 ∧ ringZeroOnly c addr = true then k s else match busStore c addr size v s with
      | .err d s' => .trap 6 d (BitVec.ofNat 32 addr) s'
      | .ok _ s' => k s'

/-- A refused multi-word access: the address, the vector (8 MPU, 6 bus) and the detail. -/
structure Refused where
  addr   : Nat
  vector : Nat
  detail : Nat

/-- Store words at rising addresses as ring 0 (R410), stopping at the first refusal; words already stored stay stored. -/
def storeWords (c : CoreId) (addr : Nat) : List Word → State → Option Refused × State
  | [], s => (none, s)
  | w :: ws, s => match mpuCheck s c 0 1 addr with
    | some d => (some ⟨addr, 8, d⟩, s)
    | none => match busStore c addr 4 w.toNat s with
      | .err d s' => (some ⟨addr, 6, d⟩, s')
      | .ok _ s' => storeWords c (addr + 4) ws s'

/-- Load `n` words at rising addresses as ring 0. -/
def loadWords (c : CoreId) (addr : Nat) : Nat → State → Except Refused (List Word) × State
  | 0, s => (.ok [], s)
  | n + 1, s => match mpuCheck s c 0 0 addr with
    | some d => (.error ⟨addr, 8, d⟩, s)
    | none => match busLoad c addr 4 s with
      | .err d s' => (.error ⟨addr, 6, d⟩, s')
      | .ok v s' => match loadWords c (addr + 4) n s' with
        | (.ok l, s'') => (.ok (BitVec.ofNat 32 v :: l), s'')
        | (.error r, s'') => (.error r, s'')

/-- The state of a refused multi-word store: every condition is checked before the instruction changes anything, so only what the refusal itself raised stays (R399). -/
def refusedStore (c : CoreId) (r : Refused) (s : State) : State :=
  if r.vector = 8 then s else match busStore c r.addr 4 0 s with | .err _ s' => s' | .ok _ _ => s
/-- The state of a refused multi-word load. -/
def refusedLoad (c : CoreId) (r : Refused) (s : State) : State :=
  if r.vector = 8 then s else match busLoad c r.addr 4 s with | .err _ s' => s' | .ok _ _ => s

/-- Store a 64-byte frame below a stack pointer, above SPILLLIM (R414 step 4): the failed address, or none. -/
def pushFrame (c : CoreId) (sp : Word) (ws : List Word) (s : State) : Option Nat × State :=
  if sp.toNat < 64 then (some (2 ^ 32 + sp.toNat - 64), s)
  else if sp.toNat - 64 < (s.core c).spilllim.toNat then (some (sp.toNat - 64), s)
  else match storeWords c (sp.toNat - 64) ws s with
    | (some r, s') => (some r.addr, s')
    | (none, s') => (none, s')

/-- The 16 words of frame `f` of the register file (R379). -/
def Core.frame (k : Core) (f : Nat) : List Word := (List.range 16).map (fun i => k.rf.getD (16 * f + i) 0)
/-- The oldest resident frame, (cwp − res + 1) mod N. -/
def Core.oldest (c : CoreId) (k : Core) : Nat := (k.cwp + c.frames + 1 - k.res) % c.frames
/-- Replace the 16 words of a frame. -/
def Core.setFrame (k : Core) (f : Nat) (ws : List Word) : Core :=
  { k with rf := k.rf.take (16 * f) ++ ws ++ k.rf.drop (16 * f + 16) }
/-- The window slid forward as CALL does (R377). -/
def Core.slideForward (c : CoreId) (k : Core) : Core := k.setWindow ((k.cwp + 1) % c.frames) (k.res + 1)
/-- The window slid back as RET does. -/
def Core.slideBack (c : CoreId) (k : Core) : Core := k.setWindow ((k.cwp + c.frames - 1) % c.frames) (k.res - 1)

/-! ### Lockdown (R421 to R426) -/

/-- A second escalation: the core stops issuing, writes nothing, and its escalation source is raised (R424). -/
def secondEscalation (c : CoreId) (s : State) : State :=
  (s.setCore c { s.core c with stopped := true }).raise (match c with | .ccA => 59 | .ccB => 60 | .mgt => 61)

/-- Lockdown source of a core (R426). -/
def lockdownSource : CoreId → Nat
  | .ccA => 56
  | .ccB => 57
  | .mgt => 58

/-- A report with no unit, syndrome or address. -/
def plainReport (source : Nat) : FaultIn := ⟨⟨source, ⟨0, 0⟩, 0, 0⟩, false, false, false, false⟩

/-- Words of the lockdown frame (R423). -/
def lockdownFrame (k : Core) (cause vec : Nat) : List Word :=
  [put32 0 cause ||| put32 8 vec, k.epc, k.estatus, k.ecause, k.eaddr, k.spillp, k.wstate,
   put32 0 k.shadow.length ||| put32 8 k.shadowTop, k.cycle.setWidth 32, 0, 0, 0, 0, 0, 0, 0]

/-- Space that holds a core's escalation SRAM: the custody cores share theirs, the management core has its own (R421). -/
def coreSpace : CoreId → Nat
  | .mgt => 3
  | _ => 0

/-- Lockdown entry with a cause (R423); a frame that would leave escalation SRAM is a second escalation. -/
def enterLockdown (c : CoreId) (cause vec : Nat) (epc eaddr : Word) (s : State) : State :=
  let k := s.core c
  let lo := k.xsp.toNat - 64
  if k.xsp.toNat < 0xF0000040 ∨ 0xF0004000 < k.xsp.toNat then secondEscalation c s
  else
    let s := (s.writeBytes (coreSpace c) lo ((lockdownFrame k cause vec).flatMap (fun w => leBytes 4 w.toNat))).dropResv (some c) (coreSpace c) lo 64
    let k' := if k.res = c.frames - 1 then k.setWindow ((k.cwp + 1) % c.frames) k.res else k.slideForward c
    let s := s.setCore c { k' with
      xsp := BitVec.ofNat 32 lo, epc := epc, estatus := k.status, ecause := put32 8 cause, eaddr := eaddr,
      status := 0x00001070, shadow := [], pc := 0xF0000000, waiting := false }
    s.report (if cause = 5 then [plainReport (lockdownSource c), plainReport 224] else [plainReport (lockdownSource c)])

/-! ### Exception entry (R414, R415) -/

/-- How an entry leaves STATUS.ie (R414 step 5). -/
inductive IeMode | clear | keep
  deriving DecidableEq, Repr

/-- What an exception entry needs to know. `target` is GATE's checked entry address; otherwise the vector word is read. -/
structure Entering where
  vector : Nat
  detail : Nat
  eaddr  : Word
  epc    : Word
  target : Option Word
  shadow : BitVec 2
  ie     : IeMode
  ipl    : Option Nat

/-- The frame of R415. -/
def entryFrame (k : Core) (shadow : BitVec 2) : List Word :=
  [k.epc, k.estatus, k.ecause, k.eaddr, shadow.setWidth 32, k.cycle.setWidth 32, 0, 0, 0, 0, 0, 0, 0, 0, 0, 0]

/-- STATUS after an entry: ring 0, arithmetic flags clear, ie and ipl as the cause gives. -/
def entryStatus (st : Word) (ie : IeMode) (ipl : Option Nat) : Word :=
  let st := st &&& ~~~ (0x00000303 : Word)
  let st := match ie with | .clear => st &&& ~~~ (4 : Word) | .keep => st
  match ipl with | none => st | some p => (st &&& ~~~ (0x70 : Word)) ||| put32 4 p

/-- Step 5 of R414. -/
def commitEntry (c : CoreId) (q : Entering) (sp handler : Word) (spilled : Bool) (s : State) : State :=
  let k := s.core c
  let k' := if spilled then (k.setWindow k.cwp (k.res - 1)).slideForward c else k.slideForward c
  s.setCore c { k' with
    spillp := sp, epc := q.epc, ecause := put32 8 q.detail ||| put32 0 q.vector, eaddr := q.eaddr, estatus := k.status,
    shadow := q.shadow :: k.shadow, status := entryStatus k.status q.ie q.ipl, resv := none, pc := handler, waiting := false }

/-- Steps 3 to 5 of R414, with the handler's address known. -/
def entryFrom (c : CoreId) (q : Entering) (handler : Word) (s : State) : State :=
  let k := s.core c
  if k.res = c.frames - 1 then
    match pushFrame c k.spillp (k.frame (Core.oldest c k)) s with
    | (some a, s') => enterLockdown c 2 q.vector k.pc (BitVec.ofNat 32 a) s'
    | (none, s') => match pushFrame c (k.spillp - 64) (entryFrame k q.shadow) s' with
      | (some a, s'') => enterLockdown c 1 q.vector k.pc (BitVec.ofNat 32 a) s''
      | (none, s'') => commitEntry c q (k.spillp - 128) handler true s''
  else
    match pushFrame c k.spillp (entryFrame k q.shadow) s with
    | (some a, s') => enterLockdown c 1 q.vector k.pc (BitVec.ofNat 32 a) s'
    | (none, s') => commitEntry c q (k.spillp - 64) handler false s'

/-- Taking an exception, an interrupt or a gate (R414): the one shared operation. In lockdown every exception is a second escalation (R424). -/
def takeException (c : CoreId) (q : Entering) (s : State) : State :=
  let k := s.core c
  if k.lockdown then secondEscalation c s
  else if 16 ≤ k.shadow.length then enterLockdown c 4 q.vector k.pc (s.fresh.setWidth 32) s.drew
  else match q.target with
    | some t => entryFrom c q t s
    | none =>
      let va := k.vbase.toNat + 4 * q.vector
      match mpuCheck s c 0 0 va with
      | some _ => enterLockdown c 3 q.vector k.pc (BitVec.ofNat 32 va) s
      | none => match busLoad c va 4 s with
        | .err _ s' => enterLockdown c 3 q.vector k.pc (BitVec.ofNat 32 va) s'
        | .ok h s' =>
          if h % 4 ≠ 0 ∨ fetchable c h = false then enterLockdown c 3 q.vector k.pc (BitVec.ofNat 32 h) s'
          else entryFrom c q (BitVec.ofNat 32 h) s'

/-- An exception of the instruction at the pc. -/
def raiseException (c : CoreId) (vector detail : Nat) (eaddr : Word) (s : State) : State :=
  let k := s.core c
  takeException c ⟨vector, detail, eaddr, k.pc, none, BitVec.ofNat 2 k.ring, .clear, none⟩ s

/-! ### Interrupts (R427 to R429) -/

/-- Priority of a line in a core's CORECFG_IPRI registers. -/
def linePriority (s : State) (c : CoreId) (l : Nat) : Nat :=
  fieldAt (s.reg (coreReg c (0x100 + 4 * (l / 8))) 0) (4 * (l % 8) + 2) (4 * (l % 8))

/-- Lines asserted at a core: the custody cores share lines 0 to 21 and each has its own line 22. -/
def coreLines (s : State) (c : CoreId) : Word :=
  match c with
  | .mgt => s.mlines
  | _ => (s.lines &&& 0x003FFFFF) ||| bit32 22 (s.core c).line22

/-- Is a line pending: asserted, with a nonzero priority? -/
def linePending (s : State) (c : CoreId) (l : Nat) : Bool := bitAt (coreLines s c) l && decide (0 < linePriority s c l)

/-- The pending line of highest priority above `ipl`, the lowest-numbered among equals. -/
def bestLine (s : State) (c : CoreId) (ipl : Nat) : Option Nat :=
  (List.range 32).foldl (fun best l =>
    if linePending s c l && decide (ipl < linePriority s c l) then
      match best with
      | none => some l
      | some b => if linePriority s c b < linePriority s c l then some l else best
    else best) none

/-- The interrupt a core takes next, if any (R427). -/
def interruptNow (s : State) (c : CoreId) : Option Nat :=
  let k := s.core c
  if bitAt k.status 2 then bestLine s c (fieldAt k.status 6 4) else none

/-- Cycles an issued instruction or an entry takes: those of R400 and R416, and free memory time and stalls. -/
def addCycles (c : CoreId) (n : Nat) (s : State) : State :=
  (s.setCore c { s.core c with cycle := (s.core c).cycle + BitVec.ofNat 64 (n + Config.stallCycles s.freeCtr) }).drew

/-- Take an interrupt line: its priority becomes ipl, ie is kept. Lines 0, 1, 2, 14, 15 and 21 have no register that quietens them: they are quietened as they are taken. DESIGN CHOICE -/
def takeInterrupt (c : CoreId) (l : Nat) (s : State) : State :=
  let k := s.core c
  let s := if (l ≤ 2 ∨ l = 14 ∨ l = 15 ∨ l = 21) ∧ c ≠ .mgt then s.unline l else s
  addCycles c 10 (takeException c ⟨16 + l, l, 0, k.pc, none, BitVec.ofNat 2 k.ring, .keep, some (linePriority s c l)⟩ s)

/-! ### Issue (R392, R399, R400) -/

/-- Is the core powered, out of reset and issuing? The management core also runs in STEEP (R73). -/
def coreOn (s : State) (c : CoreId) : Bool :=
  let k := s.core c
  k.released && !k.halted && !k.stopped && s.power.supply == .running &&
    (match c with
      | .mgt => s.power.mode == .run || s.power.mode == .steep
      | _ => s.power.mode == .run)

/-- Deliver an instruction's own outcome: its next state, or the exception it met. -/
def deliver (c : CoreId) (cy : Nat) : Issue → State
  | .fin s => addCycles c cy s
  | .trap v d a s => addCycles c (cy + 10) (raiseException c v d a s)

/-- The conditions R399 places before an instruction's own work, in order, then that work. -/
def issueNow (c : CoreId) (cy : Nat) (trapPoint : Bool) (illegal : Option Nat) (priv : Bool) (body : State → Issue) (s : State) : State :=
  let k := s.core c
  match interruptNow s c with
  | some l => takeInterrupt c l s
  | none => match mpuCheck s c k.ring 2 k.pc.toNat with
    | some d => deliver c cy (.trap 7 d k.pc s)
    | none =>
      if fetchable c k.pc.toNat = false then deliver c cy (.trap 5 1 k.pc s)
      else if fetchBad c k.pc.toNat s then deliver c cy (.trap 5 3 k.pc (demandUe true (sramWord k.pc.toNat).1 (sramWord k.pc.toNat).2 0 s))
      else match illegal with
        | some d => deliver c cy (.trap 1 d 0 s)
        | none =>
          if priv = true ∧ k.ring ≠ 0 then deliver c cy (.trap 2 0 0 s)
          else if trapPoint = true ∧ k.arithFlags ≠ 0 then deliver c cy (.trap 11 k.arithFlags k.afAddr s)
          else deliver c cy (body s)

/-- A core issues one instruction at its pc. A core that does not run is unchanged; one in WFI stays there until a line is pending. -/
def issue (c : CoreId) (cy : Nat) (trapPoint : Bool) (illegal : Option Nat) (priv : Bool) (body : State → Issue) (s : State) : State :=
  if coreOn s c = false then s
  else if (s.core c).waiting = true then
    if (List.range 32).any (linePending s c) then
      issueNow c cy trapPoint illegal priv body (s.setCore c { s.core c with waiting := false })
    else s
  else issueNow c cy trapPoint illegal priv body s

/-- Advance the pc past the instruction. -/
def State.advance (s : State) (c : CoreId) : State := s.setCore c { s.core c with pc := (s.core c).pc + 4 }
/-- Jump. -/
def State.jump (s : State) (c : CoreId) (t : Word) : State := s.setCore c { s.core c with pc := t }

/-- An instruction that writes rd from the present state and goes on. -/
def writeRd (c : CoreId) (rd : RegF) (v : State → Word) (s : State) : Issue := .fin ((s.wr c rd (v s)).advance c)

/-- An arithmetic result: precise mode traps at itself, deferred mode writes rd, sets the flags and records the first address (R397, R398). -/
def writeArith (c : CoreId) (rd : RegF) (f : State → Arith) (s : State) : Issue :=
  let k := s.core c
  let r := f s
  let fl : Word := bit32 8 r.div ||| bit32 9 r.ovf
  if r.div || r.ovf then
    if bitAt k.ctrl 0 then .trap 11 (0x80 + (fl.toNat >>> 8)) k.pc s
    else
      let s := s.wr c rd r.value
      let k := s.core c
      .fin ((s.setCore c { k with status := k.status ||| fl, afAddr := if k.arithFlags = 0 then k.pc else k.afAddr }).advance c)
  else .fin ((s.wr c rd r.value).advance c)

end Sys2Proof.Machine
end

