-- ==== Sys2Proof/Machine/ExecField.lean ====
section
/-! DEFINITION. Rows of the contactless reader, the module's tag and the custodian card slots (19_contactless_reader_and_tag.md, 20_custodian_card_slots.md). -/

namespace Sys2Proof.Machine

/-! ### Capacitive ports and labels -/

/-- CAP_SENSE_SAMPLE: one sample of every port, in units of 10 fF (R554, R555). -/
def execCapSenseSample (samples : List Nat) (s : State) : Out := .next (finish (capSamples samples s))
/-- LABEL_RESPONSE at a front end (R557). -/
def execLabelResponse (fe : Fin 6) (bytes : List Byte) (s : State) : Out := .next (finish (Sys2Proof.Machine.labelResponse fe.val bytes s))
/-- LABEL_RESPONSE_TIMEOUT (R551). -/
def execLabelResponseTimeout (fe : Fin 6) (s : State) : Out := .next (finish (labelSilent fe.val s))

/-! ### Frames at the module's tag (R557 to R574): code and parameters as R558 lays them out -/

/-- REQA (R567). -/
def execReqa (s : State) : Out := .next (finish (tagReqa false s))
/-- WUPA (R567). -/
def execWupa (s : State) : Out := .next (finish (tagReqa true s))
/-- HLTA (R567). -/
def execHlta (s : State) : Out := .next (finish (tagHlta s))
/-- ANTICOLLISION_SELECT (R567). -/
def execAnticollisionSelect (uid : List Byte) (s : State) : Out := .next (finish (tagSelect uid s))
/-- READ_BLOCK (R558, R570). -/
def execReadBlock (block count : Nat) (mac : Option DWord) (s : State) : Out :=
  .next (finish (tagFrame 0x71 (leBytes 2 block ++ leBytes 1 count) true mac (tagReadBlock (block % 65536) (count % 256)) s))
/-- WRITE_BLOCK (R558, R571, R572). `supply` is the supply before each word, in mV. -/
def execWriteBlock (block count : Nat) (data : List Byte) (mac : Option DWord) (supply : List Nat) (s : State) : Out :=
  .next (finish (tagFrame 0x72 (leBytes 2 block ++ leBytes 1 count ++ data) (data.length == 16 * (count % 256)) mac
    (tagWriteBlock (block % 65536) (count % 256) data supply) s))
/-- COUNTER_INC (R574). -/
def execCounterInc (counter inc : Nat) (mac : Option DWord) (supply : List Nat) (s : State) : Out :=
  .next (finish (tagFrame 0x73 (leBytes 1 counter ++ leBytes 1 inc) true mac (tagCounterInc (counter % 256) (inc % 256) supply) s))
/-- QUIET (R568). -/
def execQuiet (mac : Option DWord) (s : State) : Out := .next (finish (tagFrame 0x74 [] true mac tagQuiet s))
/-- GET_STATUS (R558). `supply` is the supply now, in mV. -/
def execGetStatus (supply : Nat) (mac : Option DWord) (s : State) : Out := .next (finish (tagFrame 0x75 [] true mac (tagStatus supply) s))
/-- AUTH_1 (R560): it carries no MAC and ends a session. DESIGN CHOICE for the MAC -/
def execAuth1 (slot : Nat) (s : State) : Out :=
  .next (finish (tagFrame 0x76 (leBytes 1 slot) true none (tagAuth1 (slot % 256))
    (if s.tag.field = true ∧ s.tag.mode = .active then s.setTag Tag.endSession else s)))
/-- AUTH_2 (R560). -/
def execAuth2 (token : List Byte) (s : State) : Out := .next (finish (tagFrame 0x77 token (token.length == 32) none (tagAuth2 token) s))
/-- COUNTER_READ (R574). -/
def execCounterRead (counter : Nat) (mac : Option DWord) (s : State) : Out :=
  .next (finish (tagFrame 0x78 (leBytes 1 counter) true mac (tagCounterRead (counter % 256)) s))
/-- RATE (R558). -/
def execRate (code : Nat) (mac : Option DWord) (s : State) : Out :=
  .next (finish (tagFrame 0x79 (leBytes 1 code) true mac (tagRate (code % 256)) s))
/-- YOMIR_SUBMIT (R578). -/
def execYomirSubmit (frame : List Byte) (mac : Option DWord) (s : State) : Out :=
  .next (finish (tagFrame 0x7C frame (frame.length == 64) mac (tagSubmit frame) s))
/-- YOMIR_FETCH (R578). -/
def execYomirFetch (mac : Option DWord) (s : State) : Out := .next (finish (tagFrame 0x7D [] true mac tagFetch s))
/-- YOMIR_OUT (R578). -/
def execYomirOut (offset count : Nat) (mac : Option DWord) (s : State) : Out :=
  .next (finish (tagFrame 0x7E (leBytes 2 offset ++ leBytes 1 count) true mac (tagOut (offset % 65536) (count % 256)) s))
/-- TAG_FIELD_LOST: the tag's supply falls below 1.8 V (R567, R578). -/
def execTagFieldLost (s : State) : Out := .next (finish (if s.tag.field then s.setTag Tag.fieldLost else s))
/-- TAG_FIELD_ON: a field brings the tag's supply to `mv` (R572). -/
def execTagFieldOn (mv : Nat) (s : State) : Out := .next (finish (Sys2Proof.Machine.tagFieldOn mv s))
/-- QUIET_EXPIRY (R568). -/
def execQuietExpiry (s : State) : Out := .next (finish (s.setTag (fun t => { t with quiet := false })))
/-- TAG_COPY_BACK: step 5 of R572 between frames. -/
def execTagCopyBack (supply : List Nat) (s : State) : Out := .next (finish (Sys2Proof.Machine.tagCopyBack supply s))
/-- TAG_AUTH_LOCKOUT_END (R560). -/
def execTagAuthLockoutEnd (s : State) : Out := .next (finish (tagLockoutEnd s))

/-! ### Wired access (R575, R583 to R585): writes of TAGIF_CMD -/

/-- TAGIF_READ_PAGE (R584). -/
def execTagifReadPage (page : Nat) (s : State) : Out := .next (finish (wiredStart ⟨1, page % 256, 0, tagifData s, none⟩ s))
/-- TAGIF_WRITE_PLACARD_PAGE (R575, R584). -/
def execTagifWritePlacardPage (page : Nat) (s : State) : Out := .next (finish (wiredStart ⟨2, page % 256, 0, tagifData s, none⟩ s))
/-- TAGIF_WRITE_CONFIG (R584). -/
def execTagifWriteConfig (s : State) : Out := .next (finish (wiredStart ⟨3, 0, 0, tagifData s, none⟩ s))
/-- TAGIF_WRITE_KEY_SLOT (R570, R584). -/
def execTagifWriteKeySlot (slot : Nat) (s : State) : Out := .next (finish (wiredStart ⟨4, 0, slot % 4, tagifData s, none⟩ s))
/-- TAGIF_OP_DONE (R585). -/
def execTagifOpDone (s : State) : Out := .next (finish (tagifDone s))
/-- TAGIF_TIMEOUT (R576). -/
def execTagifTimeout (s : State) : Out := .next (finish (Sys2Proof.Machine.tagifTimeout s))

/-! ### Card slots -/

/-- CARD_INSERT: DET_N falls (R587). -/
def execCardInsert (slot : Fin 4) (s : State) : Out := .next (finish (Sys2Proof.Machine.cardInsert slot.val s))
/-- CARD_DETECT_STABLE: DET_N has been low for 100 ms (R587). -/
def execCardDetectStable (slot : Fin 4) (s : State) : Out := .next (finish (detectStable slot.val s))
/-- CARD_REMOVAL (R595, R596). -/
def execCardRemoval (slot : Fin 4) (s : State) : Out := .next (finish (Sys2Proof.Machine.cardRemoval slot.val s))
/-- ATR_RECEIVED (R588). -/
def execAtrReceived (slot : Fin 4) (bytes : List Byte) (s : State) : Out := .next (finish (Sys2Proof.Machine.atrReceived slot.val bytes s))
/-- ATR_TIMEOUT (R588). -/
def execAtrTimeout (slot : Fin 4) (s : State) : Out := .next (finish (Sys2Proof.Machine.atrTimeout slot.val s))
/-- PPS_RESPONSE (R589). -/
def execPpsResponse (slot : Fin 4) (bytes : List Byte) (s : State) : Out := .next (finish (Sys2Proof.Machine.ppsResponse slot.val bytes s))
/-- CARD_I_BLOCK (R590). -/
def execCardIBlock (slot : Fin 4) (pcb : Byte) (inf : List Byte) (edcOk : Bool) (s : State) : Out := .next (finish (cardI slot.val pcb inf edcOk s))
/-- CARD_R_BLOCK (R590). -/
def execCardRBlock (slot : Fin 4) (pcb : Byte) (edcOk : Bool) (s : State) : Out := .next (finish (cardR slot.val pcb edcOk s))
/-- S_RESYNCH (R590). -/
def execSResynch (slot : Fin 4) (response : Bool) (s : State) : Out := .next (finish (cardResynch slot.val response s))
/-- S_IFS (R590). -/
def execSIfs (slot : Fin 4) (response : Bool) (size : Byte) (s : State) : Out := .next (finish (cardIfs slot.val response size s))
/-- S_ABORT (R590). -/
def execSAbort (slot : Fin 4) (response : Bool) (s : State) : Out := .next (finish (cardAbort slot.val response s))
/-- S_WTX (R591). -/
def execSWtx (slot : Fin 4) (mult : Byte) (s : State) : Out := .next (finish (cardWtx slot.val mult s))
/-- S_SLEEP (R594). -/
def execSSleep (slot : Fin 4) (s : State) : Out := .next (finish (cardSleep slot.val s))
/-- S_WAKE (R594). -/
def execSWake (slot : Fin 4) (s : State) : Out := .next (finish (cardWake slot.val s))
/-- CARD_BWT_TIMEOUT (R591). -/
def execCardBwtTimeout (slot : Fin 4) (s : State) : Out := .next (finish (cardBwt slot.val s))
/-- CARD_CWT_TIMEOUT (R591). -/
def execCardCwtTimeout (slot : Fin 4) (s : State) : Out := .next (finish (cardCwt slot.val s))
/-- TOKEN_BUSY_END (R592). -/
def execTokenBusyEnd (slot : Fin 4) (s : State) : Out := .next (finish (busyEnd slot.val s))
/-- TOKEN_BUSY_TIMEOUT (R592). -/
def execTokenBusyTimeout (slot : Fin 4) (s : State) : Out := .next (finish (busyTimeout slot.val s))
/-- CARD_OVERCURRENT (R597). -/
def execCardOvercurrent (slot : Fin 4) (s : State) : Out := .next (finish (overcurrent slot.val s))
/-- TOKEN_SLEEP_TIMER (R594). -/
def execTokenSleepTimer (slot : Fin 4) (s : State) : Out := .next (finish (sleepTimer slot.val s))
/-- CARD_IDLE_DEACT (R593). -/
def execCardIdleDeact (slot : Fin 4) (s : State) : Out := .next (finish (idleDeact slot.val s))
/-- CARD_ACTIVATE: a write of CARD_Ss_CMD (R587, R605). -/
def execCardActivate (slot : Fin 4) (cls : Nat) (s : State) : Out := .next (finish (cmdActivate slot.val cls s))
/-- CARD_DEACTIVATE (R596, R605). -/
def execCardDeactivate (slot : Fin 4) (s : State) : Out := .next (finish (cmdDeactivate slot.val s))
/-- CARD_WARM_RESET (R605). -/
def execCardWarmReset (slot : Fin 4) (s : State) : Out := .next (finish (cmdWarmReset slot.val s))
/-- CARD_STOP_CLOCK (R593). -/
def execCardStopClock (slot : Fin 4) (s : State) : Out := .next (finish (cmdStopClock slot.val s))
/-- CARD_START_CLOCK (R593). -/
def execCardStartClock (slot : Fin 4) (s : State) : Out := .next (finish (cmdStartClock slot.val s))

end Sys2Proof.Machine
end

