-- ==== Sys2Proof/Machine/ExecHost.lean ====
section
/-! DEFINITION. Rows of the host ports, their SPDM sessions and the management port: doorbells, frames, bus events (05_host_and_management_ports.md; 04_yomir_command_protocol.md, R109 to R112, R144, R145). -/

namespace Sys2Proof.Machine

/-! ### Doorbells and the port's control register -/

/-- SQ_TAIL_DOORBELL (R109). `stores` are the writes the host made before it, `bad` the entries whose fetch fails (R111). -/
def execSqTailDoorbell (port : Fin 2) (q : Fin 64) (v : Word) (stores : List HostStore) (bad : List Nat) (s : State) : Out :=
  .next (finish (sqDoorbell port.val q.val v stores bad s))
/-- CQ_HEAD_DOORBELL (R110). -/
def execCqHeadDoorbell (port : Fin 2) (q : Fin 64) (v : Word) (s : State) : Out := .next (finish (cqDoorbell port.val q.val v s))
/-- PORT_CTL_ENABLE: a write of PORT_CTL (R158). -/
def execPortCtlEnable (port : Fin 2) (v : Word) (s : State) : Out :=
  .next (finish (hostTlp port.val (portControl port.val v) s))
/-- ACCEPT_MIRROR_TIMEOUT (R124). -/
def execAcceptMirrorTimeout (record : Nat) (s : State) : Out := .next (finish (acceptLate record s))

/-! ### Management port -/

/-- MGMT_FRAME_WRITE (R145, R174). In I3C mode a protocol error during the write raises 187 and cuts the frame short there. -/
def execMgmtFrameWrite (bytes : MgmtWrite) (s : State) : Out :=
  .next (finish (match bytes with
    | .frame b => mgmtFrame b s
    | .broken => if mgmtTaking s = true ∧ s.mgmtp.dynAddr.isSome = true then frameError false (s.raise 187) else s))
/-- MGMT_FRAME_READ (R173). -/
def execMgmtFrameRead (len : Nat) (s : State) : Out := .next (finish (frameRead len s))
/-- MGMT_SCL_TIMEOUT, in I2C mode alone (R174). -/
def execMgmtSclTimeout (s : State) : Out :=
  .next (finish (if mgmtUp s = true ∧ s.mgmtp.dynAddr = none then mgmtInterfaceReset s else s))

/-- An address assignment: taken while the port has no dynamic address and i2c_only is clear (R172, R177). -/
def assignAddr (a : BitVec 7) (s : State) : State :=
  if mgmtUp s = false ∨ i2cOnly s = true ∨ s.mgmtp.dynAddr.isSome = true then s else s.setMgmt (fun m => { m with dynAddr := some a })

/-- ENTDAA (R172, R177). -/
def execEntdaa (addr : BitVec 7) (s : State) : Out := .next (finish (assignAddr addr s))
/-- SETDASA (R172, R177). -/
def execSetdasa (addr : BitVec 7) (s : State) : Out := .next (finish (assignAddr addr s))
/-- SETAASA: the static address becomes the dynamic one; i2c_only keeps the port in I2C mode here too. DEDUCED -/
def execSetaasa (s : State) : Out := .next (finish (assignAddr (staticAddr s) s))
/-- RSTDAA: back to no dynamic address (R172). -/
def execRstdaa (s : State) : Out := .next (finish (if mgmtUp s then s.setMgmt (fun m => { m with dynAddr := none }) else s))
/-- ENEC: event bit 0 enables the port's IBIs (R176). PRESUMED (I3C Basic: ENINT) -/
def execEnec (events : Byte) (s : State) : Out :=
  .next (finish (if mgmtUp s = true ∧ bitAt events 0 = true then s.setMgmt (fun m => { m with ibi := true }) else s))
/-- DISEC. -/
def execDisec (events : Byte) (s : State) : Out :=
  .next (finish (if mgmtUp s = true ∧ bitAt events 0 = true then s.setMgmt (fun m => { m with ibi := false }) else s))
/-- GETPID (R172). -/
def execGetpid (s : State) : Out := .next (finish (cccRead provisionalId s))
/-- GETBCR: 0x06 (R172). -/
def execGetbcr (s : State) : Out := .next (finish (cccRead [0x06] s))
/-- GETDCR: 0x00 (R172). -/
def execGetdcr (s : State) : Out := .next (finish (cccRead [0x00] s))
/-- GETSTATUS: two bytes the spec does not lay out (R175). A free value. -/
def execGetstatus (s : State) : Out := .next (finish (cccRead (s.freshBytes 2) (if mgmtUp s then s.drew else s)))
/-- GETMWL: 68 bytes (R172), most significant byte first. PRESUMED (I3C Basic) -/
def execGetmwl (s : State) : Out := .next (finish (cccRead [0x00, 0x44] s))
/-- GETMRL: 36 bytes, then the IBI payload of one byte (R172, R175). PRESUMED (I3C Basic) -/
def execGetmrl (s : State) : Out := .next (finish (cccRead [0x00, 0x24, 0x01] s))
/-- RSTACT: action 0x00 resets the port interface, any other is NACKed (R172). -/
def execRstact (action : Byte) (s : State) : Out :=
  .next (finish (if mgmtUp s = true ∧ action = 0 then mgmtInterfaceReset s else s))

/-! ### SPDM through the DOE mailbox (R167). Request codes and the order of requests: SPDM 1.2. PRESUMED -/

/-- A request reaches the mailbox, in configuration space, once the start-up has ended; it wakes a module in STEEP (R164, R166). -/
def doe (p : Nat) (body : State → State) (s : State) : State := if linkOpen s p && s.power.booted then body (tlpArrives p s) else s

/-- GET_VERSION (R167): it starts the connection anew. PRESUMED (SPDM 1.2) -/
def execGetVersion (port : Fin 2) (req : List Byte) (s : State) : Out :=
  .next (finish (doe port.val (fun s =>
    doeRespond port.val req spdmVersion .versioned (s.setPort port.val { s.port port.val with transcript := [] })) s))
/-- GET_CAPABILITIES (R167). -/
def execGetCapabilities (port : Fin 2) (req : List Byte) (s : State) : Out :=
  .next (finish (doe port.val (spdmStep port.val 0xE1 req (· == .versioned) (fun _ => .capable)) s))
/-- NEGOTIATE_ALGORITHMS (R167). -/
def execNegotiateAlgorithms (port : Fin 2) (req : List Byte) (s : State) : Out :=
  .next (finish (doe port.val (spdmStep port.val 0xE3 req (· == .capable) (fun _ => .negotiated)) s))
/-- GET_DIGESTS (R167). -/
def execGetDigests (port : Fin 2) (req : List Byte) (s : State) : Out :=
  .next (finish (doe port.val (spdmStep port.val 0x81 req spdmReady id) s))
/-- GET_CERTIFICATE (R167): the chain of slot 0; slots 1 to 7 are empty. -/
def execGetCertificate (port : Fin 2) (slot offset length : Nat) (s : State) : Out :=
  .next (finish (doe port.val (fun s =>
    if spdmReady (s.port port.val).spdm then s.setPort port.val { s.port port.val with response := certificatePart slot offset length }
    else s.setPort port.val { s.port port.val with response := spdmError }) s))
/-- CHALLENGE (R167). -/
def execChallenge (port : Fin 2) (req : List Byte) (s : State) : Out :=
  .next (finish (doe port.val (spdmStep port.val 0x83 req spdmReady id) s))
/-- GET_MEASUREMENTS (R167): of the running image and the lifecycle state among others. -/
def execGetMeasurements (port : Fin 2) (req : List Byte) (s : State) : Out :=
  .next (finish (doe port.val (spdmStep port.val 0xE0 req spdmReady id) s))
/-- KEY_EXCHANGE (R167): one session per port. -/
def execKeyExchange (port : Fin 2) (req : List Byte) (s : State) : Out :=
  .next (finish (doe port.val (spdmStep port.val 0xE4 req (· == .negotiated) (fun _ => .exchanged)) s))
/-- FINISH (R167): the session is secured when the message authenticates it. -/
def execFinish (port : Fin 2) (req : List Byte) (s : State) : Out :=
  .next (finish (doe port.val (fun s =>
    spdmStep port.val 0xE5 req (fun x => x == .exchanged && Config.spdmFinishOk (s.port port.val).transcript req) (fun _ => .secured) s) s))
/-- HEARTBEAT of the session (R167). -/
def execSpdmHeartbeat (port : Fin 2) (s : State) : Out :=
  .next (finish (doe port.val (spdmStep port.val 0xE8 [] (· == .secured) id) s))
/-- KEY_UPDATE (R167). -/
def execKeyUpdate (port : Fin 2) (s : State) : Out :=
  .next (finish (doe port.val (spdmStep port.val 0xE9 [] (· == .secured) id) s))
/-- END_SESSION: the session ends, and both IDE streams of the port stop (R168). -/
def execEndSession (port : Fin 2) (s : State) : Out :=
  .next (finish (doe port.val (fun s => ideStop port.val (spdmStep port.val 0xEC [] (· == .secured) (fun _ => .negotiated) s)) s))
/-- IDE_KM QUERY inside the session (R168). -/
def execIdeKmQuery (port : Fin 2) (s : State) : Out :=
  .next (finish (doe port.val (spdmStep port.val 0x100 [] (· == .secured) id) s))
/-- KEY_PROG (R168). -/
def execKeyProg (port : Fin 2) (inSession : Bool) (stream : Nat) (keySet : Bool) (sub : Nat) (tx : Bool) (key : Hash) (iv : DWord) (s : State) : Out :=
  .next (finish (doe port.val (Sys2Proof.Machine.keyProg port.val inSession ⟨stream, keySet, sub, tx, key, iv, false⟩) s))
/-- K_SET_GO (R168). -/
def execKSetGo (port : Fin 2) (stream : Nat) (keySet : Bool) (sub : Nat) (tx : Bool) (s : State) : Out :=
  .next (finish (doe port.val (keyGo port.val stream keySet sub tx) s))
/-- K_SET_STOP (R168). -/
def execKSetStop (port : Fin 2) (stream : Nat) (keySet : Bool) (sub : Nat) (tx : Bool) (s : State) : Out :=
  .next (finish (doe port.val (keyStop port.val stream keySet sub tx) s))
/-- DOE_DISCOVERY (R167): vendor 0x0001, protocol, next index. PRESUMED (PCIe DOE) -/
def execDoeDiscovery (port : Fin 2) (index : Nat) (s : State) : Out :=
  .next (finish (doe port.val (fun s => s.setPort port.val { s.port port.val with
    response := if index < 3 then [0x01, 0x00, BitVec.ofNat 8 index, BitVec.ofNat 8 ((index + 1) % 3)] else [0xFF, 0xFF, 0x00, 0x00] }) s))

/-! ### Bus events -/

/-- HOST_FLR (R160). -/
def execHostFlr (port : Fin 2) (cause : FlrCause) (s : State) : Out := .next (finish (Sys2Proof.Machine.hostFlr port.val cause s))
/-- BUS_MASTER_DISABLE (R160). -/
def execBusMasterDisable (port : Fin 2) (s : State) : Out := .next (finish (busMasterOff port.val s))
/-- D3HOT_ENTRY (R160). -/
def execD3hotEntry (port : Fin 2) (s : State) : Out := .next (finish (enterD3 port.val s))
/-- D3HOT_EXIT (R161). -/
def execD3hotExit (port : Fin 2) (s : State) : Out := .next (finish (leaveD3 port.val s))
/-- SURPRISE_DOWN (R160, R164). -/
def execSurpriseDown (port : Fin 2) (s : State) : Out := .next (finish (Sys2Proof.Machine.surpriseDown port.val s))
/-- IDE_CHECK_FAIL (R160, R169). -/
def execIdeCheckFail (port : IdeStream) (s : State) : Out := .next (finish (ideFail port.port.val port.stream.val s))
/-- ASPM_L1_ENTRY (R165). -/
def execAspmL1Entry (port : Fin 2) (substate : Bool) (s : State) : Out := .next (finish (enterL1 port.val substate s))
/-- ASPM_L1_EXIT (R165). -/
def execAspmL1Exit (port : Fin 2) (s : State) : Out := .next (finish (leaveL1 port.val s))
/-- HOST_LINK_UP (R164). -/
def execHostLinkUp (port : Fin 2) (speed width : Nat) (s : State) : Out := .next (finish (linkUp port.val speed width s))

/-- What a failed read does to a lane command's stream: a failed read of data ends it, and the output of the command is undefined; a failed read of the list leaves it as it is (R222, R228, R230). -/
def dmaStream (list : Bool) (n : Nat) (c : Inflight) (s : State) : State :=
  let h := c.entry.handle.toNat
  if list then restStream n h (enterFifo n s)
  else
    let len := c.entry.param 8 4
    let port := bufferSpace c.src
    let s := match scatterList s port len c.entry.addr1 with
      | .ok outs => (scatter port outs (s.freshBytes len) s).drew
      | .error _ => s
    enterFifo n (endStream h s)
/-- What a port records of a failed read: AER's status and count, and for a refusal by the completer the bit of its Status register (R162). PRESUMED (PCIe Base 5.0) -/
def dmaFailure (how : DmaFail) (h : HostPort) : HostPort :=
  match how with
  | .timeout => h.aerError 0x00004000
  | .poisoned => h.aerError 0x00001000
  | .unsupported => (h.setCfg 0x04 (h.cfgWord 0x04 ||| 0x20000000)).aerError 0x00100000
  | .abort => (h.setCfg 0x04 (h.cfgWord 0x04 ||| 0x10000000)).aerError 0x00008000
/-- A failed DMA read: the command ends SCATTER_LIST_ERROR with the element's index, its port reports source 178 and AER counts it (R162). -/
def dmaError (src : Source) (tag : BitVec 16) (element : Word) (list : Bool) (how : DmaFail) (s : State) : State :=
  match src.port, s.cqe.inflight.find? (fun c => c.src == src && c.entry.tag == tag) with
  | some p, some c =>
    let s := dropCardJob c.key (dropWired c.key (dropLabelJob c.key (dropEntropy c s)))
    let s := complete c.key (answer 0x2007 [(12, element.toNat)]) (dropLaneKeys [c.key] s)
    let s := match c.wait with | .lane n => dmaStream list n c s | _ => s
    let s := s.setPort p (dmaFailure how (s.port p))
    s.raiseAt 178 (.port p) 0 0
  | _, _ => s

/-- DMA_READ_ERROR (R162). -/
def execDmaReadError (src : Source) (tag : BitVec 16) (element : DmaElement) (s : State) : Out :=
  .next (finish (dmaError src tag element.index element.list element.how s))

end Sys2Proof.Machine
end

