-- ==== Sys2Proof/Machine/ExecPair.lean ====
section
/-! DEFINITION. Rows of the partner link, the heartbeats and castling (18_castling_pair_operation.md). -/

namespace Sys2Proof.Machine

/-- A whole message arrives over the link: its flits are taken, and line 14 is asserted at powered custody cores (R428, R528). -/
def linkLine (m : PairOut) (s : State) : State :=
  if linkUsable s then
    let s := s.setPair (linkTake m)
    if awake s then s.line 14 else s
  else s

/-- HELLO (R529). -/
def execHello (m : Hello) (s : State) : Out := .next (finish (Sys2Proof.Machine.hello m (linkLine (.hello m) s)))
/-- HELLO_PROOF (R529). -/
def execHelloProof (ecdsa mldsa ciphertext : List Byte) (s : State) : Out := .next (finish (Sys2Proof.Machine.helloProof ecdsa mldsa ciphertext (linkLine (.helloProof ecdsa mldsa ciphertext) s)))
/-- JOURNAL: mirrored records (R525). -/
def execJournal (recs : List JRecord) (tagOk : Bool) (s : State) : Out := .next (finish (journalMessage recs tagOk (linkLine (.journal recs) s)))
/-- ACK (R123, R525). -/
def execAck (n : Nat) (tagOk : Bool) (s : State) : Out := .next (finish (ackMessage n tagOk (linkLine (.ack n) s)))
/-- The flit a HEARTBEAT message comes in on path A: taken, or with a bad CRC discarded, counted and answered with a NAK (R528). -/
def heartbeatFlit (path : HbPath) (w : Word) (crcOk : Bool) (s : State) : State :=
  match path with
  | .b => s
  | .a => if linkUsable s = false then s
    else if crcOk then s.setPair (linkTake (.heartbeat .a w)) else s.setPair (fun p => linkGap { p with crcErr := satInc 16 p.crcErr })
/-- HEARTBEAT on a path (R531); the word is the low half of the message. -/
def execHeartbeat (path : HbPath) (w : DWord) (crcOk : Bool) (s : State) : Out :=
  .next (finish (Sys2Proof.Machine.heartbeat path (w.setWidth 32) crcOk (heartbeatFlit path (w.setWidth 32) crcOk s)))
/-- CONTROL (R529). -/
def execControl (msg : CtlMsg) (tagOk : Bool) (s : State) : Out := .next (finish (controlMessage msg tagOk (linkLine (.control msg) s)))
/-- SYNC (R540). -/
def execSync (img : SyncImage) (tagOk : Bool) (s : State) : Out := .next (finish (syncMessage img tagOk (linkLine (.sync img) s)))
/-- REPAIR_MESSAGE (R213). -/
def execRepairMessage (index : Nat) (rec : KeyRecord) (tagOk : Bool) (s : State) : Out := .next (finish (Sys2Proof.Machine.repairMessage index rec tagOk (linkLine (.repair index rec) s)))
/-- HANDOVER (R535). -/
def execHandover (entries : List Handed) (tagOk : Bool) (s : State) : Out := .next (finish (handoverMessage entries tagOk (linkLine (.handover entries) s)))
/-- FLIT_NAK: a flit as it arrives; one of kind 2 is a NAK (R527, R528). -/
def execFlitNak (flit : List Byte) (s : State) : Out := .next (finish (flitArrives flit s))
/-- PAIR_REPLAY_TIMEOUT: no acknowledgement has advanced for 10 µs (R528). -/
def execPairReplayTimeout (s : State) : Out := .next (finish (linkReplay false s))
/-- HEARTBEAT_TICK (R530). -/
def execHeartbeatTick (s : State) : Out := .next (finish (Sys2Proof.Machine.heartbeatTick s))
/-- PATH_SILENT (R531, R532). -/
def execPathSilent (path : HbPath) (s : State) : Out := .next (finish (Sys2Proof.Machine.pathSilent path s))
/-- ELECTION (R522). -/
def execElection (s : State) : Out := .next (finish (Sys2Proof.Machine.election s))
/-- PLANNED_CASTLING_DRAINED (R535). -/
def execPlannedCastlingDrained (s : State) : Out := .next (finish (plannedDrained s))
/-- CASTLE_DRAIN_TIMEOUT: the drain of a castling of mode 2 reaches its time (R546). -/
def execCastleDrainTimeout (s : State) : Out :=
  .next (finish (match s.pair.castling with
    | .draining _ => drainEnd s
    | _ => s))
/-- REVERTIVE_RETURN (R542). -/
def execRevertiveReturn (s : State) : Out := .next (finish (Sys2Proof.Machine.revertiveReturn s))
/-- PAIR_PRSNT_HIGH (R539). -/
def execPairPrsntHigh (s : State) : Out := .next (finish (Sys2Proof.Machine.pairPrsntHigh s))
/-- PARTNER_LINK_DOWN (R532). -/
def execPartnerLinkDown (s : State) : Out := .next (finish (Sys2Proof.Machine.partnerLinkDown s))
/-- PARTNER_LINK_UP (R529). -/
def execPartnerLinkUp (s : State) : Out := .next (finish (Sys2Proof.Machine.partnerLinkUp s))

end Sys2Proof.Machine
end

