-- ==== Sys2Proof/Machine/ExecPower.lean ====
section
/-! DEFINITION. Rows of the supply, the lever, the power states, the resets, the core doorbells, the time tick, and the plain register write (chapters 00, 02, 03, 12, 13). -/

namespace Sys2Proof.Machine

/-! ### Clocks, lever, supply -/

/-- PLL_UNLOCK (R83). -/
def execPllUnlock (pll : Fin 8) (s : State) : Out := .next (finish (Sys2Proof.Machine.pllUnlock pll.val s))
/-- LEVER_RISE (R48). -/
def execLeverRise (s : State) : Out := .next (finish (Sys2Proof.Machine.leverRise s))
/-- LEVER_CLOSED (R45). -/
def execLeverClosed (s : State) : Out := .next (finish (Sys2Proof.Machine.leverClosed s))
/-- WITHDRAWAL_DRAIN_TIMEOUT (R48). -/
def execWithdrawalDrainTimeout (s : State) : Out := .next (finish (withdrawalTimeout s))
/-- VIN_RISE (R46, R54). -/
def execVinRise (mv : Nat) (uf : RiseFound) (s : State) : Out := .next (finish (Sys2Proof.Machine.vinRise mv uf.uf uf.pref uf.bay s))
/-- BUS_CLASS_FIX (R53). -/
def execBusClassFix (s : State) : Out := .next (finish (Sys2Proof.Machine.busClassFix s))
/-- BOOT_START (R92). -/
def execBootStart (env : BootEnv) (s : State) : Out := .next (finish (Sys2Proof.Machine.bootStart env s))
/-- HOLDUP_CHARGED (R56). -/
def execHoldupCharged (s : State) : Out := .next (finish (Sys2Proof.Machine.holdupCharged s))
/-- POWER_FAIL (R53, R272). -/
def execPowerFail (mv : Nat) (s : State) : Out := .next (finish (Sys2Proof.Machine.powerFail mv s))
/-- POWER_FAIL_HOLD_RELEASE (R55). -/
def execPowerFailHoldRelease (mv : HoldEnd) (s : State) : Out := .next (finish (failHoldRelease mv.mv mv.uf s))
/-- VIN_LOSS (R68). -/
def execVinLoss (mv : Nat) (s : State) : Out := .next (finish (Sys2Proof.Machine.vinLoss mv s))
/-- VCELL_LOW (R58). -/
def execVcellLow (mv : Nat) (s : State) : Out := .next (finish (Sys2Proof.Machine.vcellLow mv s))

/-! ### Power states and wake -/

/-- POWER_STATE_ENTRY (R71). -/
def execPowerStateEntry (s : State) : Out := .next (finish (powerEntry s))
/-- SYSCTL_PWR_TARGET: a write of SYSCTL_PWR by the management core (R5, R10, R102). -/
def execSysctlPwrTarget (v : Word) (s : State) : Out := .next (finish (regWrite .mgt 0 0x10 v s))
/-- WAKE_EVENT (R76). -/
def execWakeEvent (source : WakeSource) (obj : Nat) (s : State) : Out := .next (finish (Sys2Proof.Machine.wakeEvent source obj s))
/-- SHELF_IN_CHANGE (R75). -/
def execShelfInChange (v : BitVec 16) (s : State) : Out := .next (finish (Sys2Proof.Machine.shelfInChange v s))

/-! ### Resets -/

/-- WARM_RESET: one that no row of its own brings about (R85, R88). -/
def execWarmReset (s : State) : Out := .next (finish (Sys2Proof.Machine.warmReset 1 false s))
/-- WARM_RESET_REQ: a write of SYSCTL_RST_REQ by the management core (R85). -/
def execWarmResetReq (v : Word) (s : State) : Out := .next (finish (regWrite .mgt 0 0x34 v s))
/-- MGMT_RESET_REQ: the same write, for its bit 1 (R85). -/
def execMgmtResetReq (v : Word) (s : State) : Out := .next (finish (regWrite .mgt 0 0x34 v s))
/-- MGMT_PLANE_RESET (R88, R91, R93). -/
def execMgmtPlaneReset (s : State) : Out := .next (finish (mgmtReset s))
/-- MGMT_WATCHDOG_EXPIRY: a management-plane reset while its core runs (R85). -/
def execMgmtWatchdogExpiry (s : State) : Out := .next (finish (if coreOn s .mgt then mgmtReset s else s))

/-! ### Core doorbells -/

/-- CCB_RELEASE: a write of CORECFG_CTL (R401, R404). -/
def execCcbRelease (v : Word) (s : State) : Out := .next (finish (regWrite .ccA 22 0x08 v s))
/-- IXREQ_ASSERT by CC-B, or by CC-A: line 22 on the other logical core (R429). -/
def execIxreqAssert (ccb : Bool) (s : State) : Out := .next (finish (ixreqWrite (if ccb then .ccB else .ccA) 1 s))
/-- IXREQ_DEASSERT: line 22 on the writing core (R429). -/
def execIxreqDeassert (ccb : Bool) (s : State) : Out := .next (finish (ixreqWrite (if ccb then .ccB else .ccA) 2 s))

/-! ### The time tick -/

/-- Custody time and the clocks that run with it move on by LFCLK periods. -/
def passTime (n : Nat) (s : State) : State :=
  { s with clock := { s.clock with
    time := s.clock.time + BitVec.ofNat 64 n, lfclk := s.clock.lfclk + n
    ckptAge := s.clock.ckptAge + n, signAge := s.clock.signAge + n, tryAge := s.clock.tryAge + n } }

/-- Every 250 ms: the flush of R126, then a periodic queue checkpoint when a slot changed (R271). -/
def periodicFlush (s : State) : State :=
  if awake s = true ∧ s.journals = true ∧ 0 < s.journal.next ∧ 8192 ≤ s.clock.ckptAge then
    let s := flush s
    let old := if s.journal.qckptSlots.isEmpty then List.replicate 128 (⟨0, 0, false, false⟩ : QSlot) else s.journal.qckptSlots
    if queueSlots s s.journal.flushed = old then s else queueCheckpoint 0 s
  else s

/-- CUSTODY_TIME_TICK: `periods` LFCLK periods pass, a card exchange beyond its own timeout ends, the wake timer fires if its time has come, line 21 is asserted (R27, R78, R81, R428, R599). -/
def execCustodyTimeTick (periods : Nat) (s : State) : Out :=
  let s := latchTick periods (wakeEvent .timer 0 (apduTimeouts (passTime periods s)))
  .next (finish (periodicFlush (if awake s then s.line 21 else s)))

/-! ### REGISTER_WRITE -/

/-- A store instruction of a core to an address, with the exception of a refused one and no instruction around it (R5 to R8, R407 to R413). -/
def coreWrite (c : CoreId) (addr : Nat) (v : Word) (width : Nat) (s : State) : State :=
  if coreOn s c = false then s
  else match dataStore c (s.core c).ring addr width v.toNat s (fun s => .fin s) with
    | .fin s => s
    | .trap vec d a s => raiseException c vec d a s

/-- REGISTER_WRITE: a store by a core; a host's access to the BAR0 or the configuration space of its port (R5, R150, R154, R155, R164). -/
def execRegisterWrite (who : Agent) (addr : Nat) (v : DWord) (width : Nat) (s : State) : Out :=
  .next (finish (match who with
    | .core c => if width = 1 ∨ width = 2 ∨ width = 4 then coreWrite c (addr % 2 ^ 32) (v.setWidth 32) width s else s
    | .host p => if p < 2 then barWrite p addr width v s else s
    | .hostRead p => if p < 2 then hostRead p addr width s else s
    | .hostPoisoned p => if p < 2 then hostPoisoned p s else s
    | .config p => if p < 2 then cfgWrite p addr width v s else s
    | .configRead p => if p < 2 then cfgRead p addr width s else s))

end Sys2Proof.Machine
end

