-- ==== Sys2Proof/Machine/ExecUnits.lean ====
section
/-! DEFINITION. Rows of the lanes, the key table unit, the vault engine and kiln, the public-key engine, the entropy source, the memory and flash controllers, the tamper monitors and the fault collector (chapters 06, 07, 09 to 11, 14 to 17). -/

namespace Sys2Proof.Machine

/-! ### Lanes (07_sealing_lanes.md) -/

/-- Do the lanes run: powered, clocked, no kiln, no drained withdrawal (R48, R83, R311)? -/
def lanesRun (s : State) : Bool := awake s && !bitAt (s.power.pllLost.setWidth 32) 1 && !s.kiln.latch && !s.power.drainDone

/-- LANE_COMMAND_COMPLETE (R218). -/
def execLaneCommandComplete (lane : LaneTurn) (s : State) : Out :=
  .next (finish (if lanesRun s && laneEnabled s lane.lane.val then laneRun lane.lane.val lane.fill lane.context s else s))
/-- LANE_WATCHDOG: one command exceeds LANE_CTL.watchdog: source 87 + 8n (R248). -/
def execLaneWatchdog (lane : Fin 4) (s : State) : Out :=
  .next (finish (if lanesRun s = true ∧ (s.lane lane.val).queue ≠ [] then s.raiseAt (87 + 8 * lane.val) (.lane lane.val) 0 0 else s))
/-- STREAM_PARK1: an idle stream is parked into its entry (R240). -/
def execStreamPark1 (handle : BitVec 16) (s : State) : Out :=
  .next (finish (match s.stream handle.toNat with
    | some x => if lanesRun s = true ∧ x.state = .idle then park1 handle.toNat s else s
    | none => s))
/-- STREAM_PARK2: a parked stream goes to DDR5 while a parked slot is free (R240). -/
def execStreamPark2 (handle : BitVec 16) (s : State) : Out :=
  .next (finish (match s.stream handle.toNat with
    | some x => if lanesRun s = true ∧ x.state = .park1 ∧ parkedCount s < 4096 then park2 handle.toNat s else s
    | none => s))
/-- STREAM_EXPIRY: the once-per-second check finds the stream idle beyond its lifetime; a stream with a command in the lane is not idle (R245, R246). -/
def execStreamExpiry (handle : BitVec 16) (s : State) : Out :=
  .next (finish (match s.stream handle.toNat with
    | some x => if awake s = true ∧ x.state ≠ .run ∧ x.handle ≠ 0 ∧ 32768 * x.lifetime < idleTime s x then reportStream x 0x7001 (recordEnded x 0x7001 (endStream x.handle s)) else s
    | none => s))
/-- LOAD: a write of LANE_MB_KH and of LANE_MB_CMD (R21, R235, R251). -/
def execLoad (lane slot : Nat) (mode : LoadMode) (entry : Nat) (kh : Word) (s : State) : Out :=
  .next (finish (mailboxLoad lane slot mode (entry % 64) kh (if lane < 4 then s.setReg (laneBase lane + 0x14) kh else s)))
/-- CLEAR (R23, R251). -/
def execClear (lane slot : Nat) (release : Bool) (entry : Nat) (kh : Word) (s : State) : Out :=
  .next (finish (mailboxClear lane slot release (entry % 64) kh (if lane < 4 then s.setReg (laneBase lane + 0x14) kh else s)))
/-- MAILBOX_DONE (R252). -/
def execMailboxDone (lane : Fin 4) (s : State) : Out := .next (finish (Sys2Proof.Machine.mailboxDone lane.val s))

/-! ### Key table unit (06_object_key_table.md): each row writes KTAB_REQ_KH or KTAB_OID0 to 3, then KTAB_REQ -/

/-- FILL (R194, R211, R212): `v` is what the verification of the record and its path finds. -/
def execFill (kh : Word) (v : Verify) (s : State) : Out := .next (finish (ktabKh .fill kh v s))
/-- INVALIDATE (R216). -/
def execInvalidate (kh : Word) (s : State) : Out := .next (finish (ktabKh .invalidate kh .ok s))
/-- PIN (R197). -/
def execPin (kh : Word) (s : State) : Out := .next (finish (ktabKh .pin kh .ok s))
/-- UNPIN (R216). -/
def execUnpin (kh : Word) (s : State) : Out := .next (finish (ktabKh .unpin kh .ok s))
/-- FIND (R191, R211, R212). -/
def execFind (oid : FindOid) (s : State) : Out :=
  .next (finish (ktabRequest .find 0 oid.oid oid.found (if s.ktab.busy then s else setOidRegs oid.oid s)))
/-- DRAW (R203). -/
def execDraw (kh : Word) (s : State) : Out := .next (finish (ktabKh .draw kh .ok s))
/-- KTAB_OP_DONE (R217). -/
def execKtabOpDone (s : State) : Out := .next (finish (ktabDone s))

/-! ### Vault engine and kiln (09_vault_kiln_lifecycle.md) -/

/-- WRAP (R291, R320). -/
def execWrap (cmd : EngCmd) (s : State) : Out := .next (finish (engCommand 1 cmd s))
/-- UNWRAP (R291). -/
def execUnwrap (cmd : EngCmd) (s : State) : Out := .next (finish (engCommand 2 cmd s))
/-- KDF (R292). -/
def execKdf (cmd : EngCmd) (s : State) : Out := .next (finish (engCommand 3 cmd s))
/-- CMAC (R291). -/
def execCmac (cmd : EngCmd) (s : State) : Out := .next (finish (engCommand 4 cmd s))
/-- CLEAR_SLOT (R291). -/
def execClearSlot (slot : Fin 32) (s : State) : Out := .next (finish (engStart 5 0 false slot.val true s))
/-- VAULT_ENG_DONE (R321). -/
def execVaultEngDone (s : State) : Out := .next (finish (engDone s))
/-- VAULT_KILN (R310). -/
def execVaultKiln (v : Word) (s : State) : Out := .next (finish (kilnWrite v s))
/-- KILN_TIER2_DONE (R311). -/
def execKilnTier2Done (s : State) : Out := .next (finish (kilnTier2 s))
/-- KILN_INDUCED_RESET (R85, R88). -/
def execKilnInducedReset (s : State) : Out := .next (finish (kilnReset s))
/-- KILN_TIER3_DONE (R311). -/
def execKilnTier3Done (s : State) : Out := .next (finish (kilnTier3 s))
/-- KILN_RESERVOIR_LOW: below 2.9 V, source 120 (R313). -/
def execKilnReservoirLow (mv : Nat) (s : State) : Out :=
  .next (finish (reservoirAt mv s))
/-- RESERVOIR_KILN_TRIGGER: below 2.6 V for 1 ms with the supply present: the kiln, trigger source 120 (R313). -/
def execReservoirKilnTrigger (mv : Nat) (s : State) : Out :=
  .next (finish (reservoirFell mv s))
/-- QUORUM_SESSION_EXPIRY (R301): the session ends on LFCLK. -/
def execQuorumSessionExpiry (grant : BitVec 16) (s : State) : Out := .next (finish (sessionExpiry grant s))

/-! ### Public-key engine (10_public_key_engine.md) -/

/-- PKE_RING_TAIL (R330). -/
def execPkeRingTail (v : Word) (s : State) : Out := .next (finish (ringTailWrite v s))
/-- PKE_DISPATCH (R330, R332). -/
def execPkeDispatch (s : State) : Out := .next (finish (dispatch s))
/-- PKE_JOB_DONE (R337). -/
def execPkeJobDone (unit : Fin 2) (hw : PkeHw) (s : State) : Out := .next (finish (jobDone unit.val hw s))
/-- PKE_KEYGEN_TIMEOUT (R340). -/
def execPkeKeygenTimeout (unit : Fin 2) (s : State) : Out := .next (finish (keygenTimeout unit.val s))

/-! ### Entropy source (11_entropy_source.md) -/

/-- RNG_REQ (R359, R372). -/
def execRngReq (v : Word) (s : State) : Out := .next (finish (rngReqWrite v s))
/-- RNG_DONE_READ (R373). -/
def execRngDoneRead (s : State) : Out := .next (finish (rngTakeDone s).2)
/-- RNG_REQUEST_DONE (R359). -/
def execRngRequestDone (s : State) : Out := .next (finish (rngServe s))
/-- RNG_REQUEST_TIMEOUT (R360). -/
def execRngRequestTimeout (id : Nat) (s : State) : Out := .next (finish (rngTimeoutOf id s))
/-- RNG_BLOCKING_FAIL: a test that fails on what it saw (R352 to R354). -/
def execRngBlockingFail (kind : RngFail) (s : State) : Out := .next (finish (if rngFailed kind then rngBlock kind s else s))
/-- RNG_SEEDED (R358). -/
def execRngSeeded (s : State) : Out := .next (finish (rngSeed s))
/-- RNG_OSC_HEALTH: what RNG_OSC_CTL.window saw: edge counts of the two oscillators in its 10 µs windows, and A edges in each 4,096 B edges (R351). -/
def execRngOscHealth (windows : List (Nat × Nat)) (ratios : List Nat) (s : State) : Out :=
  .next (finish (rngHealth (aliveFailures windows) (lockFailures 0 0 ratios) s))
/-- SEED_TIMEOUT: seeding is not complete 100 ms after it began: SAFE (R94). -/
def execSeedTimeout (s : State) : Out :=
  .next (finish (if s.rng.state = .starting ∧ s.power.supply = .running ∧ s.power.mode = .run then
    { s with power := { s.power with safe := true, rstCause := s.power.rstCause ||| 0x80 } } else s))

/-! ### Memory controller and sparge (14_memory_ecc_scrubbing.md) -/

/-- RETIRE: a write of DRAMC_RMAP_SRC, then of DRAMC_RMAP_REQ; `bad` marks the lines that the copy finds uncorrectable (R440, R441). -/
def execRetire (page : Word) (slot : Nat) (bad : DWord) (s : State) : Out :=
  .next (finish (retire (slot % 4096) bad.toNat (s.setReg (dramcBase + 0x70) (page &&& 0x01FFFFFF))))
/-- REPAIR (R442). -/
def execRepair (array row : Nat) (s : State) : Out := .next (finish (repairRow (array % 64) (row % 2048) s))
/-- RMAP_DONE (R441). -/
def execRmapDone (s : State) : Out := .next (finish (Sys2Proof.Machine.rmapDone s))
/-- SPARE_DONE (R442). -/
def execSpareDone (s : State) : Out := .next (finish (Sys2Proof.Machine.spareDone s))
/-- DRAMC_LOG_NEXT (R438). -/
def execDramcLogNext (v : Word) (s : State) : Out := .next (finish (logNext v s))
/-- SPARGE_SCRUB (R435, R436). A DDR5 line found uncorrectable fails every read of it until it is written (R433, R434). -/
def execSpargeScrub (sram : Bool) (die syndrome : Nat) (find : EccFind) (s : State) : Out :=
  let at_ := 64 * s.dramc.dpos
  .next (finish (let t := scrub sram die syndrome find s; if scrubbing s = true ∧ sram = false ∧ find = .uncorrectable then spoilDdr at_ t else t))
/-- LAP_OVERRUN (R437). -/
def execLapOverrun (sram : Bool) (s : State) : Out := .next (finish (Sys2Proof.Machine.lapOverrun sram s))

/-! ### Flash controller (15_embedded_flash.md) -/

/-- PROGRAM of the word at a byte address of a bank (R454). -/
def execProgram (bank : Fin 4) (addr : Nat) (data : DWord) (s : State) : Out := .next (finish (flashRow bank.val 1 (addr / 8 % 2097152) data s))
/-- ERASE of a sector (R456). -/
def execErase (bank : Fin 4) (sector : Nat) (s : State) : Out := .next (finish (flashRow bank.val 2 (512 * (sector % 4096)) 0 s))
/-- SUSPEND (R459). -/
def execSuspend (bank : Fin 4) (s : State) : Out := .next (finish (flashRow bank.val 3 0 0 s))
/-- RESUME (R458). -/
def execResume (bank : Fin 4) (s : State) : Out := .next (finish (flashRow bank.val 4 0 0 s))
/-- QUERY of a sector's erase count (R457). -/
def execFlashQuery (bank : Fin 4) (sector : Nat) (s : State) : Out := .next (finish (flashRow bank.val 5 (512 * (sector % 4096)) 0 s))
/-- PROTECT of a group: group 16b + g is group g of bank b (R463). -/
def execProtect (group : Nat) (s : State) : Out := .next (finish (flashRow (group / 16 % 4) 6 (131072 * (group % 16)) 0 s))
/-- UNPROTECT (R463). -/
def execUnprotect (group : Nat) (s : State) : Out := .next (finish (flashRow (group / 16 % 4) 7 (131072 * (group % 16)) 0 s))
/-- FLASH_OP_DONE (R455, R456, R471). -/
def execFlashOpDone (bank : Fin 4) (res : FlashEnd) (s : State) : Out := .next (finish (flashOpEnd bank.val res s))
/-- SUSPEND_HONOURED (R459). -/
def execSuspendHonoured (bank : Fin 4) (s : State) : Out := .next (finish (Sys2Proof.Machine.suspendHonoured bank.val s))
/-- UNLOCK with a password in FLASHC_PW0 to PW3 (R464). -/
def execUnlock (password : QWord) (s : State) : Out := .next (finish (flashUnlock password s))
/-- LOCK (R464). -/
def execLock (s : State) : Out := .next (finish (flashLock s))
/-- SET_PASSWORD (R464). -/
def execSetPassword (password : QWord) (s : State) : Out := .next (finish (flashSetPassword password s))
/-- PASSWORD_OP_DONE (R473). -/
def execPasswordOpDone (s : State) : Out := .next (finish (passwordDone s))
/-- TORN_SCAN_DONE (R460). -/
def execTornScanDone (s : State) : Out := .next (finish (tornScan s))

/-! ### Tamper monitors (16_tamper_monitors.md): sources 128 + k -/

/-- TAMPER_MONITOR_ASSERT (R474, R480). -/
def execTamperMonitorAssert (source : Nat) (stays : Bool) (detail : Word) (s : State) : Out :=
  .next (finish (if 128 ≤ source ∧ s.power.supply ≠ .dark then monitorAssert (source - 128) stays detail s else s))
/-- CELL_TAMPER_ALARM: in CELL, and after VIN has returned until the powered monitors arm at the first step of the start-up (R478, R479); source 143 only while the backup domain runs from VCELL (R58). -/
def execCellTamperAlarm (source : Nat) (stays : Bool) (s : State) : Out :=
  .next (finish (
    if 128 ≤ source ∧ (s.power.supply = .dark ∨ (s.power.supply = .starting ∧ s.tamper.armed = 0 ∧ source ≠ 143)) then cellAlarm (source - 128) stays s else s))
/-- TAMPER_BIST (R484, R494). -/
def execTamperBist (v : Word) (s : State) : Out := .next (finish (bistWrite v s))
/-- BIST_WINDOW_END (R485). -/
def execBistWindowEnd (asserted still : Bool) (s : State) : Out := .next (finish (bistEnd asserted still s))
/-- TAMPER_CALIBRATE (R492). -/
def execTamperCalibrate (readings : List Word) (s : State) : Out := .next (finish (calibrate readings s))
/-- TAMPER_STICKY_CLEAR (R481). -/
def execTamperStickyClear (v : Word) (s : State) : Out := .next (finish (stickyWrite v s))

/-! ### Fault collector (17_fault_collector.md) -/

/-- What the reporting unit itself keeps of a report: ECC errors are logged, a failed DRBG test stops the DRBG, an L1 refetch is counted (R361, R402, R438). -/
def unitKeeps (s : State) (r : Report) : State :=
  match r.source with
  | 16 => logEcc false (r.syndrome.toNat / 65536 % 32) r.address.toNat (r.syndrome.toNat % 65536) false false 0 s
  | 17 => logEcc false (r.syndrome.toNat / 65536 % 32) r.address.toNat (r.syndrome.toNat % 65536) false true 0 s
  | 18 => spoilDdr r.address.toNat (markBad false 0 r.address.toNat (logEcc false (r.syndrome.toNat / 65536 % 32) r.address.toNat (r.syndrome.toNat % 65536) true false 0 s))
  | 32 => logEcc true (r.syndrome.toNat / 65536 % 32) r.address.toNat (r.syndrome.toNat % 65536) false false 0 s
  | 33 => logEcc true (r.syndrome.toNat / 65536 % 32) r.address.toNat (r.syndrome.toNat % 65536) false true 0 s
  | 34 => markBad true (r.syndrome.toNat / 65536 % 32) r.address.toNat (logEcc true (r.syndrome.toNat / 65536 % 32) r.address.toNat (r.syndrome.toNat % 65536) true false 0 s)
  | 50 => s.setReg 0x40160014 (BitVec.ofNat 32 (satInc 16 (s.reg 0x40160014 0).toNat))
  | 119 => { s with rng := { s.rng with faulted := true, state := .blocked } }
  | 127 => countSplit (r.syndrome.toNat % 8) s
  | _ => s

/-- FAULT_RAISE: reports of one collector clock, acted on together (R498). -/
def execFaultRaise (reports : List Report) (s : State) : Out :=
  .next (finish ((reports.foldl unitKeeps s).report (reports.map (fun r => ⟨r, false, false, false, false⟩))))
/-- CHECK_TIMER_EXPIRY of the record with a sequence number (R503). -/
def execCheckTimerExpiry (seq : Nat) (s : State) : Out := .next (finish (checkExpiry seq s))
/-- FAULT_ACK (R502, R515). -/
def execFaultAck (v : Word) (s : State) : Out := .next (finish (Sys2Proof.Machine.faultAck v s))
/-- FAULT_FORCE_REG (R507, R516). -/
def execFaultForceReg (v : Word) (s : State) : Out := .next (finish (forceWrite v s))
/-- FAULT_SWRAISE (R495, R496). -/
def execFaultSwraise (v : Word) (s : State) : Out := .next (finish (swRaise v s))
/-- ALARM_RELEASE: a write of FAULT_STATUS (R508). -/
def execAlarmRelease (v : Word) (s : State) : Out := .next (finish (regWrite .ccA 1 0x04 v s))

/-- A lockstep mismatch: the pair halts, the mismatch is counted, its source follows (R401, R402). -/
def lockstep (ccb : Bool) (s : State) : State :=
  let c : CoreId := if ccb then .ccB else .ccA
  if (s.core c).released = false ∨ (s.core c).halted = true then s
  else
    let s := s.setCore c { s.core c with halted := true }
    let v := s.reg 0x40160010 0
    let v := if ccb then put32 16 (satInc 16 (fieldAt v 31 16)) ||| put32 0 (fieldAt v 15 0)
      else put32 16 (fieldAt v 31 16) ||| put32 0 (satInc 16 (fieldAt v 15 0))
    (s.setReg 0x40160010 v).raise (if ccb then 49 else 48)

/-- LOCKSTEP_MISMATCH (R401). -/
def execLockstepMismatch (ccb : Bool) (s : State) : Out := .next (finish (lockstep ccb s))

end Sys2Proof.Machine
end

