-- ==== Sys2Proof/Machine/ExecYomir.lean ====
section
/-! DEFINITION. The Yomir commands as rows of the table: an entry of each opcode arrives from its source (04_yomir_command_protocol.md, R112, R120, R128). -/

namespace Sys2Proof.Machine

/-- IDENTIFY (R606). -/
def execIdentify (src : Source) (e : Entry) (s : State) : Out := .next (finish (submit 0x0001 src e s))
/-- QUEUE_CREATE (R106). -/
def execQueueCreate (src : Source) (e : Entry) (s : State) : Out := .next (finish (submit 0x0002 src e s))
/-- QUEUE_DELETE (R108). -/
def execQueueDelete (src : Source) (e : Entry) (s : State) : Out := .next (finish (submit 0x0003 src e s))
/-- SET_TIME (R608). -/
def execSetTime (src : Source) (e : Entry) (s : State) : Out := .next (finish (submit 0x0004 src e s))
/-- GET_LOG (R512). -/
def execGetLog (src : Source) (e : Entry) (s : State) : Out := .next (finish (submit 0x0005 src e s))
/-- ABORT (R134). -/
def execAbort (src : Source) (e : Entry) (s : State) : Out := .next (finish (submit 0x0006 src e s))
/-- FW_STAGE (R609). -/
def execFwStage (src : Source) (e : Entry) (s : State) : Out := .next (finish (submit 0x0008 src e s))
/-- FW_ACTIVATE (R610). -/
def execFwActivate (src : Source) (e : Entry) (s : State) : Out := .next (finish (submit 0x0009 src e s))
/-- KEY_CREATE (R184). -/
def execKeyCreate (src : Source) (e : Entry) (s : State) : Out := .next (finish (submit 0x0101 src e s))
/-- KEY_LOOKUP (R187). -/
def execKeyLookup (src : Source) (e : Entry) (s : State) : Out := .next (finish (submit 0x0102 src e s))
/-- KEY_ROTATE (R184). -/
def execKeyRotate (src : Source) (e : Entry) (s : State) : Out := .next (finish (submit 0x0103 src e s))
/-- KEY_SET_STATE (R184). -/
def execKeySetState (src : Source) (e : Entry) (s : State) : Out := .next (finish (submit 0x0104 src e s))
/-- KEY_SHRED (R186). -/
def execKeyShred (src : Source) (e : Entry) (s : State) : Out := .next (finish (submit 0x0105 src e s))
/-- KEY_EXPORT_WRAPPED (R308). -/
def execKeyExportWrapped (src : Source) (e : Entry) (s : State) : Out := .next (finish (submit 0x0106 src e s))
/-- KEY_IMPORT_WRAPPED (R309). -/
def execKeyImportWrapped (src : Source) (e : Entry) (s : State) : Out := .next (finish (submit 0x0107 src e s))
/-- KEY_PIN (R197). -/
def execKeyPin (src : Source) (e : Entry) (s : State) : Out := .next (finish (submit 0x0108 src e s))
/-- SEAL_OPEN (R224). -/
def execSealOpen (src : Source) (e : Entry) (s : State) : Out := .next (finish (submit 0x0201 src e s))
/-- SEAL_DATA (R226). -/
def execSealData (src : Source) (e : Entry) (s : State) : Out := .next (finish (submit 0x0202 src e s))
/-- SEAL_CLOSE (R231). -/
def execSealClose (src : Source) (e : Entry) (s : State) : Out := .next (finish (submit 0x0203 src e s))
/-- UNSEAL_OPEN (R224). -/
def execUnsealOpen (src : Source) (e : Entry) (s : State) : Out := .next (finish (submit 0x0204 src e s))
/-- UNSEAL_DATA (R226). -/
def execUnsealData (src : Source) (e : Entry) (s : State) : Out := .next (finish (submit 0x0205 src e s))
/-- UNSEAL_CLOSE (R239). -/
def execUnsealClose (src : Source) (e : Entry) (s : State) : Out := .next (finish (submit 0x0206 src e s))
/-- STREAM_ABORT (R231). -/
def execStreamAbort (src : Source) (e : Entry) (s : State) : Out := .next (finish (submit 0x0207 src e s))
/-- STREAM_QUERY (R231). -/
def execStreamQuery (src : Source) (e : Entry) (s : State) : Out := .next (finish (submit 0x0208 src e s))
/-- MANIFEST_COMMIT (R266). -/
def execManifestCommit (src : Source) (e : Entry) (s : State) : Out := .next (finish (submit 0x0301 src e s))
/-- MANIFEST_READ (R267). -/
def execManifestRead (src : Source) (e : Entry) (s : State) : Out := .next (finish (submit 0x0302 src e s))
/-- JOURNAL_READ (R285). -/
def execJournalRead (src : Source) (e : Entry) (s : State) : Out := .next (finish (submit 0x0303 src e s))
/-- JOURNAL_CHECKPOINT (R260). -/
def execJournalCheckpoint (src : Source) (e : Entry) (s : State) : Out := .next (finish (submit 0x0304 src e s))
/-- VAULT_EXPORT (R277). -/
def execVaultExport (src : Source) (e : Entry) (s : State) : Out := .next (finish (submit 0x0305 src e s))
/-- VAULT_IMPORT (R280). -/
def execVaultImport (src : Source) (e : Entry) (s : State) : Out := .next (finish (submit 0x0306 src e s))
/-- PK_SIGN (R325). -/
def execPkSign (src : Source) (e : Entry) (s : State) : Out := .next (finish (submit 0x0401 src e s))
/-- PK_VERIFY (R327). -/
def execPkVerify (src : Source) (e : Entry) (s : State) : Out := .next (finish (submit 0x0402 src e s))
/-- PK_KEM_ENCAP (R325). -/
def execPkKemEncap (src : Source) (e : Entry) (s : State) : Out := .next (finish (submit 0x0403 src e s))
/-- PK_KEM_DECAP (R325). -/
def execPkKemDecap (src : Source) (e : Entry) (s : State) : Out := .next (finish (submit 0x0404 src e s))
/-- PK_ECDH (R325). -/
def execPkEcdh (src : Source) (e : Entry) (s : State) : Out := .next (finish (submit 0x0405 src e s))
/-- PK_KEYGEN (R340). -/
def execPkKeygen (src : Source) (e : Entry) (s : State) : Out := .next (finish (submit 0x0406 src e s))
/-- ATTEST (R344). -/
def execAttest (src : Source) (e : Entry) (s : State) : Out := .next (finish (submit 0x0407 src e s))
/-- PK_MODEXP (R325). -/
def execPkModexp (src : Source) (e : Entry) (s : State) : Out := .next (finish (submit 0x0408 src e s))
/-- RNG_READ (R363). -/
def execRngRead (src : Source) (e : Entry) (s : State) : Out := .next (finish (submit 0x0501 src e s))
/-- RNG_STATUS (R364). -/
def execRngStatus (src : Source) (e : Entry) (s : State) : Out := .next (finish (submit 0x0502 src e s))
/-- QUORUM_BEGIN (R300). -/
def execQuorumBegin (src : Source) (e : Entry) (s : State) : Out := .next (finish (submit 0x0601 src e s))
/-- QUORUM_APPROVE (R303). -/
def execQuorumApprove (src : Source) (e : Entry) (s : State) : Out := .next (finish (submit 0x0602 src e s))
/-- QUORUM_END (R305). -/
def execQuorumEnd (src : Source) (e : Entry) (s : State) : Out := .next (finish (submit 0x0603 src e s))
/-- CUSTODIAN_ENROLL (R298). -/
def execCustodianEnroll (src : Source) (e : Entry) (s : State) : Out := .next (finish (submit 0x0604 src e s))
/-- PAIR_STATUS (R545). -/
def execPairStatus (src : Source) (e : Entry) (s : State) : Out := .next (finish (submit 0x0701 src e s))
/-- CASTLE (R546). -/
def execCastle (src : Source) (e : Entry) (s : State) : Out := .next (finish (submit 0x0702 src e s))
/-- PAIR_SET_PREFERRED (R547). -/
def execPairSetPreferred (src : Source) (e : Entry) (s : State) : Out := .next (finish (submit 0x0703 src e s))
/-- POWER_STATE (R69). -/
def execPowerState (src : Source) (e : Entry) (s : State) : Out := .next (finish (submit 0x0801 src e s))
/-- WAKE_POLICY (R78). -/
def execWakePolicy (src : Source) (e : Entry) (s : State) : Out := .next (finish (submit 0x0802 src e s))
/-- SLOT_SCAN (R562). -/
def execSlotScan (src : Source) (e : Entry) (s : State) : Out := .next (finish (submit 0x0901 src e s))
/-- TAG_READ (R563). -/
def execTagRead (src : Source) (e : Entry) (s : State) : Out := .next (finish (submit 0x0902 src e s))
/-- TAG_WRITE (R564). -/
def execTagWrite (src : Source) (e : Entry) (s : State) : Out := .next (finish (submit 0x0903 src e s))
/-- PLACARD_WRITE (R577). -/
def execPlacardWrite (src : Source) (e : Entry) (s : State) : Out := .next (finish (submit 0x0904 src e s))
/-- SLOT_EVENTS (R566). -/
def execSlotEvents (src : Source) (e : Entry) (s : State) : Out := .next (finish (submit 0x0905 src e s))
/-- CARD_STATUS (R598). -/
def execCardStatus (src : Source) (e : Entry) (s : State) : Out := .next (finish (submit 0x0A01 src e s))
/-- CARD_APDU (R599). -/
def execCardApdu (src : Source) (e : Entry) (s : State) : Out := .next (finish (submit 0x0A02 src e s))
/-- TOKEN_OP (R600). -/
def execTokenOp (src : Source) (e : Entry) (s : State) : Out := .next (finish (submit 0x0A03 src e s))
/-- SELFTEST (R607). -/
def execSelftest (src : Source) (e : Entry) (s : State) : Out := .next (finish (submit 0x0F01 src e s))
/-- FAULT_FORCE (R507). -/
def execFaultForce (src : Source) (e : Entry) (s : State) : Out := .next (finish (submit 0x0F02 src e s))
/-- TAMPER_TEST (R486). -/
def execTamperTest (src : Source) (e : Entry) (s : State) : Out := .next (finish (submit 0x0F03 src e s))
/-- LATCH_FIELD_READ (R368). -/
def execLatchFieldRead (src : Source) (e : Entry) (s : State) : Out := .next (finish (submit 0x0F04 src e s))

/-- UNDEFINED_OPCODE: an entry with an opcode the table does not define (R14, R120); one with a defined opcode (not well formed) is the command it spells. -/
def execUndefinedOpcode (op : BitVec 16) (src : Source) (e : Entry) (s : State) : Out :=
  .next (finish (submit op src e s))

end Sys2Proof.Machine
end

