-- ==== Sys2Proof/Machine/IsaArith.lean ====
section
/-! DEFINITION. The plain arithmetic, shift, immediate and bit-field instructions (12_mbovor_core_isa.md, R389, R390, R394 to R396). -/

namespace Sys2Proof.Machine

/-- ADD: rd ← rs + rt (R390). -/
def execAdd (c : CoreId) (rd rs rt : RegF) (s : State) : Out :=
  .next (finish (issue c 1 false none false (writeRd c rd (fun s => s.rd c rs + s.rd c rt)) s))

/-- SUB: rd ← rs − rt (R390). -/
def execSub (c : CoreId) (rd rs rt : RegF) (s : State) : Out :=
  .next (finish (issue c 1 false none false (writeRd c rd (fun s => s.rd c rs - s.rd c rt)) s))

/-- ADDV (R390, R396). -/
def execAddv (c : CoreId) (rd rs rt : RegF) (s : State) : Out :=
  .next (finish (issue c 1 false none false (writeArith c rd (fun s => arithAddv (s.rd c rs) (s.rd c rt))) s))

/-- SUBV (R390, R396). -/
def execSubv (c : CoreId) (rd rs rt : RegF) (s : State) : Out :=
  .next (finish (issue c 1 false none false (writeArith c rd (fun s => arithSubv (s.rd c rs) (s.rd c rt))) s))

/-- AND (R390). -/
def execAnd (c : CoreId) (rd rs rt : RegF) (s : State) : Out :=
  .next (finish (issue c 1 false none false (writeRd c rd (fun s => s.rd c rs &&& s.rd c rt)) s))

/-- OR (R390). -/
def execOr (c : CoreId) (rd rs rt : RegF) (s : State) : Out :=
  .next (finish (issue c 1 false none false (writeRd c rd (fun s => s.rd c rs ||| s.rd c rt)) s))

/-- XOR (R390). -/
def execXor (c : CoreId) (rd rs rt : RegF) (s : State) : Out :=
  .next (finish (issue c 1 false none false (writeRd c rd (fun s => s.rd c rs ^^^ s.rd c rt)) s))

/-- ANDN (R390). -/
def execAndn (c : CoreId) (rd rs rt : RegF) (s : State) : Out :=
  .next (finish (issue c 1 false none false (writeRd c rd (fun s => s.rd c rs &&& ~~~ (s.rd c rt))) s))

/-- SLL, by rt[4:0] (R390). -/
def execSll (c : CoreId) (rd rs rt : RegF) (s : State) : Out :=
  .next (finish (issue c 1 false none false (writeRd c rd (fun s => s.rd c rs <<< shamt (s.rd c rt))) s))

/-- SRL, by rt[4:0] (R390). -/
def execSrl (c : CoreId) (rd rs rt : RegF) (s : State) : Out :=
  .next (finish (issue c 1 false none false (writeRd c rd (fun s => s.rd c rs >>> shamt (s.rd c rt))) s))

/-- SRA, by rt[4:0] (R390). -/
def execSra (c : CoreId) (rd rs rt : RegF) (s : State) : Out :=
  .next (finish (issue c 1 false none false (writeRd c rd (fun s => BitVec.sshiftRight (s.rd c rs) (shamt (s.rd c rt)))) s))

/-- ROR, by rt[4:0] (R390). -/
def execRor (c : CoreId) (rd rs rt : RegF) (s : State) : Out :=
  .next (finish (issue c 1 false none false (writeRd c rd (fun s => BitVec.rotateRight (s.rd c rs) (shamt (s.rd c rt)))) s))

/-- SLT, signed (R390). -/
def execSlt (c : CoreId) (rd rs rt : RegF) (s : State) : Out :=
  .next (finish (issue c 1 false none false (writeRd c rd (fun s => boolWord (BitVec.slt (s.rd c rs) (s.rd c rt)))) s))

/-- SLTU (R390). -/
def execSltu (c : CoreId) (rd rs rt : RegF) (s : State) : Out :=
  .next (finish (issue c 1 false none false (writeRd c rd (fun s => boolWord (BitVec.ult (s.rd c rs) (s.rd c rt)))) s))

/-- MUL: bits 31:0 (R390). -/
def execMul (c : CoreId) (rd rs rt : RegF) (s : State) : Out :=
  .next (finish (issue c 3 false none false (writeRd c rd (fun s => s.rd c rs * s.rd c rt)) s))

/-- MULHU: bits 63:32, unsigned (R390). -/
def execMulhu (c : CoreId) (rd rs rt : RegF) (s : State) : Out :=
  .next (finish (issue c 3 false none false (writeRd c rd (fun s => mulHighU (s.rd c rs) (s.rd c rt))) s))

/-- MULHS: bits 63:32, signed (R390). -/
def execMulhs (c : CoreId) (rd rs rt : RegF) (s : State) : Out :=
  .next (finish (issue c 3 false none false (writeRd c rd (fun s => mulHighS (s.rd c rs) (s.rd c rt))) s))

/-- DIVU (R390, R396). -/
def execDivu (c : CoreId) (rd rs rt : RegF) (s : State) : Out :=
  .next (finish (issue c 34 false none false (writeArith c rd (fun s => arithDivu (s.rd c rs) (s.rd c rt))) s))

/-- DIVS (R390, R396). -/
def execDivs (c : CoreId) (rd rs rt : RegF) (s : State) : Out :=
  .next (finish (issue c 34 false none false (writeArith c rd (fun s => arithDivs (s.rd c rs) (s.rd c rt))) s))

/-- REMU (R390, R396). -/
def execRemu (c : CoreId) (rd rs rt : RegF) (s : State) : Out :=
  .next (finish (issue c 34 false none false (writeArith c rd (fun s => arithRemu (s.rd c rs) (s.rd c rt))) s))

/-- REMS (R390, R396). -/
def execRems (c : CoreId) (rd rs rt : RegF) (s : State) : Out :=
  .next (finish (issue c 34 false none false (writeArith c rd (fun s => arithRems (s.rd c rs) (s.rd c rt))) s))

/-- CLZ (R390). -/
def execClz (c : CoreId) (rd rs : RegF) (s : State) : Out :=
  .next (finish (issue c 1 false none false (writeRd c rd (fun s => clz (s.rd c rs))) s))

/-- SLLI (R389). -/
def execSlli (c : CoreId) (rd rs : RegF) (sh : BitVec 5) (s : State) : Out :=
  .next (finish (issue c 1 false none false (writeRd c rd (fun s => s.rd c rs <<< sh.toNat)) s))

/-- SRLI (R389). -/
def execSrli (c : CoreId) (rd rs : RegF) (sh : BitVec 5) (s : State) : Out :=
  .next (finish (issue c 1 false none false (writeRd c rd (fun s => s.rd c rs >>> sh.toNat)) s))

/-- SRAI (R389). -/
def execSrai (c : CoreId) (rd rs : RegF) (sh : BitVec 5) (s : State) : Out :=
  .next (finish (issue c 1 false none false (writeRd c rd (fun s => BitVec.sshiftRight (s.rd c rs) sh.toNat)) s))

/-- RORI (R389). -/
def execRori (c : CoreId) (rd rs : RegF) (sh : BitVec 5) (s : State) : Out :=
  .next (finish (issue c 1 false none false (writeRd c rd (fun s => BitVec.rotateRight (s.rd c rs) sh.toNat)) s))

/-- ADDI (R389). -/
def execAddi (c : CoreId) (rd rs : RegF) (imm : BitVec 16) (s : State) : Out :=
  .next (finish (issue c 1 false none false (writeRd c rd (fun s => s.rd c rs + sext16 imm)) s))

/-- ADDIV (R389, R396). -/
def execAddiv (c : CoreId) (rd rs : RegF) (imm : BitVec 16) (s : State) : Out :=
  .next (finish (issue c 1 false none false (writeArith c rd (fun s => arithAddv (s.rd c rs) (sext16 imm))) s))

/-- ANDI (R389). -/
def execAndi (c : CoreId) (rd rs : RegF) (imm : BitVec 16) (s : State) : Out :=
  .next (finish (issue c 1 false none false (writeRd c rd (fun s => s.rd c rs &&& zext16 imm)) s))

/-- ORI (R389). -/
def execOri (c : CoreId) (rd rs : RegF) (imm : BitVec 16) (s : State) : Out :=
  .next (finish (issue c 1 false none false (writeRd c rd (fun s => s.rd c rs ||| zext16 imm)) s))

/-- XORI (R389). -/
def execXori (c : CoreId) (rd rs : RegF) (imm : BitVec 16) (s : State) : Out :=
  .next (finish (issue c 1 false none false (writeRd c rd (fun s => s.rd c rs ^^^ zext16 imm)) s))

/-- SLTI, signed (R389). -/
def execSlti (c : CoreId) (rd rs : RegF) (imm : BitVec 16) (s : State) : Out :=
  .next (finish (issue c 1 false none false (writeRd c rd (fun s => boolWord (BitVec.slt (s.rd c rs) (sext16 imm)))) s))

/-- SLTIU: compare with the sign-extended immediate, unsigned (R389). -/
def execSltiu (c : CoreId) (rd rs : RegF) (imm : BitVec 16) (s : State) : Out :=
  .next (finish (issue c 1 false none false (writeRd c rd (fun s => boolWord (BitVec.ult (s.rd c rs) (sext16 imm)))) s))

/-- LUI (R389). -/
def execLui (c : CoreId) (rd : RegF) (imm : BitVec 16) (s : State) : Out :=
  .next (finish (issue c 1 false none false (writeRd c rd (fun _ => (zext16 imm) <<< 16)) s))

/-- BPERM; a selector code from 9 to 15 is ILLEGAL, detail 2 (R391, R395). -/
def execBperm (c : CoreId) (rd rs : RegF) (sel : BitVec 16) (s : State) : Out :=
  .next (finish (issue c 1 false (if permBad sel then some 2 else none) false (writeRd c rd (fun s => bytePerm (s.rd c rd) (s.rd c rs) sel)) s))

/-- BFI; a field past bit 31 is ILLEGAL, detail 2 (R391, R394). -/
def execBfi (c : CoreId) (rd rs : RegF) (lsb wm1 : BitVec 5) (s : State) : Out :=
  .next (finish (issue c 1 false (if 32 < lsb.toNat + wm1.toNat + 1 then some 2 else none) false (writeRd c rd (fun s => bitInsert (s.rd c rd) (s.rd c rs) lsb.toNat (wm1.toNat + 1))) s))

/-- BFXU; a field past bit 31 is ILLEGAL, detail 2 (R391, R394). -/
def execBfxu (c : CoreId) (rd rs : RegF) (lsb wm1 : BitVec 5) (s : State) : Out :=
  .next (finish (issue c 1 false (if 32 < lsb.toNat + wm1.toNat + 1 then some 2 else none) false (writeRd c rd (fun s => bitExtractU (s.rd c rs) lsb.toNat (wm1.toNat + 1))) s))

/-- BFXS; a field past bit 31 is ILLEGAL, detail 2 (R391, R394). -/
def execBfxs (c : CoreId) (rd rs : RegF) (lsb wm1 : BitVec 5) (s : State) : Out :=
  .next (finish (issue c 1 false (if 32 < lsb.toNat + wm1.toNat + 1 then some 2 else none) false (writeRd c rd (fun s => bitExtractS (s.rd c rs) lsb.toNat (wm1.toNat + 1))) s))

end Sys2Proof.Machine
end

