-- ==== Sys2Proof/Machine/IsaFlow.lean ====
section
/-! DEFINITION. Branches, jumps, calls and window slides (12_mbovor_core_isa.md, R377, R378, R389). -/

namespace Sys2Proof.Machine

/-- A branch to the target when the condition holds. -/
def branchIf (c : CoreId) (disp : BitVec 16) (cond : State → Bool) (s : State) : Issue :=
  if cond s then .fin (s.jump c (target16 (s.core c).pc disp)) else .fin (s.advance c)

/-- A conditional branch: a trap point that takes 2 cycles when taken and 1 when not (R397, R400). -/
def branch (c : CoreId) (disp : BitVec 16) (cond : State → Bool) (s : State) : State :=
  issue c (if cond s then 2 else 1) true none false (branchIf c disp cond) s

/-- A jump to a register target, which must be word-aligned (R393). -/
def jumpTo (c : CoreId) (t : Word) (s : State) : Issue :=
  if t.toNat % 4 ≠ 0 then .trap 4 1 t s else .fin (s.jump c t)

/-- A call: overflow when no two frames are free, the return address into w23, the window slid forward (R377, R378). -/
def callTo (c : CoreId) (t : Word) (s : State) : Issue :=
  let k := s.core c
  if c.frames - 2 ≤ k.res then .trap 9 0 0 s
  else if t.toNat % 4 ≠ 0 then .trap 4 1 t s
  else
    let s := s.wr c 23 (k.pc + 4)
    .fin ((s.setCore c ((s.core c).slideForward c)).jump c t)

/-- A return: underflow at res 1, the address from w7, the window slid back (R377, R378). -/
def returnBack (c : CoreId) (s : State) : Issue :=
  let k := s.core c
  let t := s.rd c 7
  if k.res ≤ 1 then .trap 10 0 0 s
  else if t.toNat % 4 ≠ 0 then .trap 4 1 t s
  else .fin ((s.setCore c (k.slideBack c)).jump c t)

/-- BEQ (R389). -/
def execBeq (c : CoreId) (ra rb : RegF) (disp : BitVec 16) (s : State) : Out :=
  .next (finish (branch c disp (fun s => s.rd c ra == s.rd c rb) s))

/-- BNE (R389). -/
def execBne (c : CoreId) (ra rb : RegF) (disp : BitVec 16) (s : State) : Out :=
  .next (finish (branch c disp (fun s => s.rd c ra != s.rd c rb) s))

/-- BLT (R389). -/
def execBlt (c : CoreId) (ra rb : RegF) (disp : BitVec 16) (s : State) : Out :=
  .next (finish (branch c disp (fun s => BitVec.slt (s.rd c ra) (s.rd c rb)) s))

/-- BGE (R389). -/
def execBge (c : CoreId) (ra rb : RegF) (disp : BitVec 16) (s : State) : Out :=
  .next (finish (branch c disp (fun s => !(BitVec.slt (s.rd c ra) (s.rd c rb))) s))

/-- BLTU (R389). -/
def execBltu (c : CoreId) (ra rb : RegF) (disp : BitVec 16) (s : State) : Out :=
  .next (finish (branch c disp (fun s => BitVec.ult (s.rd c ra) (s.rd c rb)) s))

/-- BGEU (R389). -/
def execBgeu (c : CoreId) (ra rb : RegF) (disp : BitVec 16) (s : State) : Out :=
  .next (finish (branch c disp (fun s => !(BitVec.ult (s.rd c ra) (s.rd c rb))) s))

/-- JMP (R389). -/
def execJmp (c : CoreId) (disp : BitVec 26) (s : State) : Out :=
  .next (finish (issue c 2 true none false (fun s => .fin (s.jump c (target26 (s.core c).pc disp))) s))

/-- CALL (R377). -/
def execCall (c : CoreId) (disp : BitVec 26) (s : State) : Out :=
  .next (finish (issue c 2 true none false (fun s => callTo c (target26 (s.core c).pc disp) s) s))

/-- JMPR (R389). -/
def execJmpr (c : CoreId) (rs : RegF) (s : State) : Out :=
  .next (finish (issue c 2 true none false (fun s => jumpTo c (s.rd c rs) s) s))

/-- CALLR: rs is read before the slide (R377, R389). -/
def execCallr (c : CoreId) (rs : RegF) (s : State) : Out :=
  .next (finish (issue c 2 true none false (fun s => callTo c (s.rd c rs) s) s))

/-- RET (R377). -/
def execRet (c : CoreId) (s : State) : Out :=
  .next (finish (issue c 2 true none false (returnBack c) s))

end Sys2Proof.Machine
end

