-- ==== Sys2Proof/Machine/IsaMem.lean ====
section
/-! DEFINITION. Loads, stores and the reservation pair (12_mbovor_core_isa.md, R389, R393). -/

namespace Sys2Proof.Machine

/-- Effective address rs + sext(imm16) (R389). -/
def effAddr (s : State) (c : CoreId) (rs : RegF) (imm : BitVec 16) : Nat := (s.rd c rs + sext16 imm).toNat

/-- A load of `size` bytes into rd through `ext`. -/
def loadRd (c : CoreId) (rd rs : RegF) (imm : BitVec 16) (size : Nat) (ext : Nat → Word) (s : State) : Issue :=
  dataLoad c (s.core c).ring (effAddr s c rs imm) size s (fun v s' => .fin ((s'.wr c rd (ext v)).advance c))

/-- A store of the low `size` bytes of rd. -/
def storeRd (c : CoreId) (rd rs : RegF) (imm : BitVec 16) (size : Nat) (s : State) : Issue :=
  dataStore c (s.core c).ring (effAddr s c rs imm) size ((s.rd c rd).toNat % 2 ^ (8 * size)) s (fun s' => .fin (s'.advance c))

/-- STX's work: a store only under a reservation on the granule of rs; any STX clears the reservation. -/
def storeCond (c : CoreId) (rd rs rt : RegF) (s : State) : Issue :=
  let a := (s.rd c rs).toNat
  let clear (s : State) : State := s.setCore c { s.core c with resv := none }
  if a % 4 ≠ 0 then .trap 4 0 (s.rd c rs) s
  else if (s.core c).resv = some (granuleOf c a s) then
    dataStore c (s.core c).ring a 4 (s.rd c rt).toNat s (fun s' => .fin (((clear s').wr c rd 0).advance c))
  else .fin (((clear s).wr c rd 1).advance c)

/-- LDW (R389, R393). -/
def execLdw (c : CoreId) (rd rs : RegF) (imm : BitVec 16) (s : State) : Out :=
  .next (finish (issue c 3 false none false (loadRd c rd rs imm 4 (BitVec.ofNat 32)) s))

/-- LDH, sign-extended (R389, R393). -/
def execLdh (c : CoreId) (rd rs : RegF) (imm : BitVec 16) (s : State) : Out :=
  .next (finish (issue c 3 false none false (loadRd c rd rs imm 2 (fun v => (BitVec.ofNat 16 v).signExtend 32)) s))

/-- LDHU (R389, R393). -/
def execLdhu (c : CoreId) (rd rs : RegF) (imm : BitVec 16) (s : State) : Out :=
  .next (finish (issue c 3 false none false (loadRd c rd rs imm 2 (BitVec.ofNat 32)) s))

/-- LDB, sign-extended (R389, R393). -/
def execLdb (c : CoreId) (rd rs : RegF) (imm : BitVec 16) (s : State) : Out :=
  .next (finish (issue c 3 false none false (loadRd c rd rs imm 1 (fun v => (BitVec.ofNat 8 v).signExtend 32)) s))

/-- LDBU (R389, R393). -/
def execLdbu (c : CoreId) (rd rs : RegF) (imm : BitVec 16) (s : State) : Out :=
  .next (finish (issue c 3 false none false (loadRd c rd rs imm 1 (BitVec.ofNat 32)) s))

/-- LDX: a word load that reserves the 64-byte granule of its address (R393). -/
def execLdx (c : CoreId) (rd rs : RegF) (imm : BitVec 16) (s : State) : Out :=
  .next (finish (issue c 3 false none false (fun s =>
    let a := effAddr s c rs imm
    dataLoad c (s.core c).ring a 4 s (fun v s' =>
      let s'' := s'.setCore c { s'.core c with resv := some (granuleOf c a s') }
      .fin ((s''.wr c rd (BitVec.ofNat 32 v)).advance c))) s))

/-- STW (R389, R393). -/
def execStw (c : CoreId) (rd rs : RegF) (imm : BitVec 16) (s : State) : Out :=
  .next (finish (issue c 1 false none false (storeRd c rd rs imm 4) s))

/-- STH (R389, R393). -/
def execSth (c : CoreId) (rd rs : RegF) (imm : BitVec 16) (s : State) : Out :=
  .next (finish (issue c 1 false none false (storeRd c rd rs imm 2) s))

/-- STB (R389, R393). -/
def execStb (c : CoreId) (rd rs : RegF) (imm : BitVec 16) (s : State) : Out :=
  .next (finish (issue c 1 false none false (storeRd c rd rs imm 1) s))

/-- STX (R389, R393). -/
def execStx (c : CoreId) (rd rs rt : RegF) (s : State) : Out :=
  .next (finish (issue c 1 false none false (storeCond c rd rs rt) s))

end Sys2Proof.Machine
end

