-- ==== Sys2Proof/Machine/IsaSys.lean ====
section
/-! DEFINITION. Special registers, exception return, gates, window spill and fill, and the system group (12_mbovor_core_isa.md, R379, R382 to R389; 13_rings_exceptions.md, R406 to R424). -/

namespace Sys2Proof.Machine

/-! ### Special registers (R382 to R387) -/

/-- Value of a special register; none for an unlisted selector. -/
def specialRead (c : CoreId) (k : Core) (sel : Nat) : Option Word :=
  match sel with
  | 1 => some k.status
  | 2 => some k.estatus
  | 3 => some k.epc
  | 4 => some k.ecause
  | 5 => some k.eaddr
  | 6 => some k.vbase
  | 7 => some k.wstate
  | 8 => some k.spillp
  | 9 => some k.spilllim
  | 10 => some k.xsp
  | 11 => some k.ctrl
  | 12 => some k.gtbase
  | 13 => some (0x80173200 ||| put32 0 c.num)
  | 14 => some (k.cycle.setWidth 32)
  | 15 => some k.cycleHi
  | _ => none

/-- May a ring read a special register (R382)? -/
def specialReadable (k : Core) (sel : Nat) : Bool :=
  k.ring == 0 || sel == 1 || sel == 13 || ((sel == 14 || sel == 15) && bitAt k.ctrl 1)

/-- Reserved bits of a special register (R382 to R386). -/
def specialReserved (sel : Nat) : Word :=
  match sel with
  | 1 => 0xFFFFEC88
  | 2 => 0xFFFFEC88
  | 3 => 0x00000003
  | 4 => 0xFFFF00C0
  | 6 => 0x000000FF
  | 7 => 0xFFF0FFF0
  | 8 => 0x0000003F
  | 9 => 0x0000003F
  | 10 => 0x00000007
  | 11 => 0xFFFFFFFC
  | 12 => 0x0000003F
  | _ => 0

/-- Is an MTS ILLEGAL with detail 3 (R387): no such writable register, a reserved bit or value, an RO field changed? -/
def specialBad (c : CoreId) (k : Core) (sel : Nat) (v : Word) : Bool :=
  sel == 0 || decide (12 < sel) || (v &&& specialReserved sel) != 0
    || (sel == 1 && (v &&& 0x1003) != (k.status &&& 0x1003))
    || (sel == 7 && (decide (c.frames ≤ fieldAt v 3 0) || fieldAt v 19 16 == 0 || decide (c.frames ≤ fieldAt v 19 16)))

/-- Write a special register. An MTS to WSTATE renames frames and moves no data (R384). -/
def specialWrite (k : Core) (sel : Nat) (v : Word) : Core :=
  match sel with
  | 1 => { k with status := v }
  | 2 => { k with estatus := v }
  | 3 => { k with epc := v }
  | 4 => { k with ecause := v }
  | 5 => { k with eaddr := v }
  | 6 => { k with vbase := v }
  | 7 => { k with wstate := v }
  | 8 => { k with spillp := v }
  | 9 => { k with spilllim := v }
  | 10 => { k with xsp := v }
  | 11 => { k with ctrl := v }
  | 12 => { k with gtbase := v }
  | _ => k

/-- MFS's work; a read of CYCLE_LO latches the upper half into CYCLE_HI (R382). -/
def readSpecial (c : CoreId) (rd : RegF) (sel : Nat) (s : State) : Issue :=
  let k := s.core c
  match specialRead c k sel with
  | none => .trap 1 3 0 s
  | some v =>
    if specialReadable k sel = false then .trap 2 1 0 s
    else
      let s := if sel = 14 then s.setCore c { k with cycleHi := (k.cycle >>> 32).setWidth 32 } else s
      .fin ((s.wr c rd v).advance c)

/-- MTS's work: ILLEGAL before Privilege (R387, R399). -/
def writeSpecial (c : CoreId) (rs : RegF) (sel : Nat) (s : State) : Issue :=
  let k := s.core c
  let v := s.rd c rs
  if specialBad c k sel v then .trap 1 3 0 s
  else if k.ring ≠ 0 then .trap 2 1 0 s
  else .fin ((s.setCore c (specialWrite k sel v)).advance c)

/-! ### Exception return (R417 to R424) -/

/-- ERET in lockdown: no shadow check; the lockdown frame is read at XSP (R424), and the window slides back (R380). -/
def eretLockdown (c : CoreId) (s : State) : Issue :=
  let k := s.core c
  let w (off : Nat) : Word := BitVec.ofNat 32 (s.readNat (coreSpace c) (k.xsp.toNat + off) 4)
  if k.res ≤ 1 then .trap 10 0 0 s
  else if k.xsp.toNat < 0xF0000000 ∨ 0xF0003FC0 < k.xsp.toNat then .trap 6 1 k.xsp s
  else
    .fin (s.setCore c { k.slideBack c with
      xsp := k.xsp + 64, pc := k.epc, status := k.estatus &&& ~~~ (0x1000 : Word), resv := none,
      epc := w 4, estatus := w 8, ecause := w 12, eaddr := w 16 })

/-- ERET outside lockdown, steps 1 to 4 of R417. -/
def eretPlain (c : CoreId) (s : State) : Issue :=
  let k := s.core c
  if k.res ≤ 1 then .trap 10 0 0 s
  else if fieldAt k.estatus 1 0 < k.shadowTop then .fin (enterLockdown c 5 0 k.pc k.epc s)
  else match (if k.spillp.toNat < k.spilllim.toNat then (Except.error ⟨k.spillp.toNat, 8, 5⟩, s) else loadWords c k.spillp.toNat 16 s) with
    | (.error r, s') => .fin (enterLockdown c 6 0 k.pc (BitVec.ofNat 32 r.addr) s')
    | (.ok ws, s') =>
      .fin (s'.setCore c { k.slideBack c with
        spillp := k.spillp + 64, pc := k.epc, status := k.estatus &&& ~~~ (0x1000 : Word), resv := none, shadow := k.shadow.tail,
        epc := ws.getD 0 0, estatus := ws.getD 1 0, ecause := ws.getD 2 0, eaddr := ws.getD 3 0 })

/-- ERET (R417, R424): the return from an exception, beside `takeException`. -/
def returnFromException (c : CoreId) (s : State) : Issue :=
  if (s.core c).lockdown then eretLockdown c s else eretPlain c s

/-! ### Spill and fill (R379) -/

/-- SPILLF's work. -/
def spillFrame (c : CoreId) (s : State) : Issue :=
  let k := s.core c
  let sp := k.spillp - 64
  if k.res < 3 then .trap 1 4 0 s
  else if sp.toNat < k.spilllim.toNat then .trap 8 5 sp s
  else match storeWords c sp.toNat (k.frame (Core.oldest c k)) s with
    | (some r, _) => .trap r.vector r.detail (BitVec.ofNat 32 r.addr) (refusedStore c r s)
    | (none, s') => .fin ((s'.setCore c { k.setWindow k.cwp (k.res - 1) with spillp := sp }).advance c)

/-- FILLF's work. -/
def fillFrame (c : CoreId) (s : State) : Issue :=
  let k := s.core c
  if c.frames - 2 < k.res then .trap 1 4 0 s
  else match loadWords c k.spillp.toNat 16 s with
    | (.error r, _) => .trap r.vector r.detail (BitVec.ofNat 32 r.addr) (refusedLoad c r s)
    | (.ok ws, s') =>
      let k' := (k.setFrame ((k.cwp + c.frames - k.res) % c.frames) ws).setWindow k.cwp (k.res + 1)
      .fin ((s'.setCore c { k' with spillp := k.spillp + 64 }).advance c)

/-! ### Gates (R406 to R408) -/

/-- GATE's own checks and entry, after the conditions R399 places before the gate fault. -/
def enterGate (c : CoreId) (n : Nat) (s : State) : Issue :=
  let k := s.core c
  let ea := k.gtbase.toNat + 8 * n
  match loadWords c ea 2 s with
  | (.error r, _) => .trap 3 4 (BitVec.ofNat 32 ea) (refusedLoad c r s)
  | (.ok ws, s') =>
    let target := ws.getD 0 0
    let ctl := ws.getD 1 0
    if bitAt ctl 31 = false ∨ fieldAt target 1 0 ≠ 0 ∨ fieldAt ctl 30 9 ≠ 0 ∨ fieldAt ctl 4 2 ≠ 0 then .trap 3 1 0 s'
    else if k.ring = 0 then .trap 3 3 0 s'
    else if bitAt ctl (4 + k.ring) = false then .trap 3 2 0 s'
    else if fetchable c target.toNat = false then .trap 3 5 0 s'
    else if c.frames - 2 ≤ k.res then .trap 9 0 0 s'
    else .fin (takeException c
      ⟨0, n, 0, k.pc + 4, some target, BitVec.ofNat 2 (min k.ring (fieldAt ctl 1 0)), if bitAt ctl 8 then .keep else .clear, none⟩ s')

/-! ### Meanings -/

/-- MFS (R387). -/
def execMfs (c : CoreId) (rd : RegF) (sel : BitVec 12) (s : State) : Out :=
  .next (finish (issue c 1 false none false (readSpecial c rd sel.toNat) s))

/-- MTS (R387). -/
def execMts (c : CoreId) (rs : RegF) (sel : BitVec 12) (s : State) : Out :=
  .next (finish (issue c 2 false none false (writeSpecial c rs sel.toNat) s))

/-- ERET, ring 0 only (R389, R417). -/
def execEret (c : CoreId) (s : State) : Out :=
  .next (finish (issue c 2 false none true (returnFromException c) s))

/-- TRAPCHK: nothing but a trap point (R389, R397). -/
def execTrapchk (c : CoreId) (s : State) : Out :=
  .next (finish (issue c 1 true none false (fun s => .fin (s.advance c)) s))

/-- BRK: the breakpoint exception (R389). -/
def execBrk (c : CoreId) (s : State) : Out :=
  .next (finish (issue c 1 false none false (fun s => .trap 12 0 0 s) s))

/-- FENCE: in a model whose instructions complete one at a time, every earlier access is complete (R392, R393). -/
def execFenceInstruction (c : CoreId) (s : State) : Out :=
  .next (finish (issue c 1 false none false (fun s => .fin (s.advance c)) s))

/-- IFENCE: stores of others are already visible to fetches in the model (R392). -/
def execIfence (c : CoreId) (s : State) : Out :=
  .next (finish (issue c 1 false none false (fun s => .fin (s.advance c)) s))

/-- WFI, ring 0 only: issue stops until an interrupt is pending (R389). -/
def execWfi (c : CoreId) (s : State) : Out :=
  .next (finish (issue c 1 false none true
    (fun s => .fin ((s.setCore c { s.core c with waiting := !(List.range 32).any (linePending s c) }).advance c)) s))

/-- SPILLF, ring 0 only (R379). -/
def execSpillf (c : CoreId) (s : State) : Out :=
  .next (finish (issue c 17 false (if (s.core c).res < 3 then some 4 else none) true (spillFrame c) s))

/-- FILLF, ring 0 only (R379). -/
def execFillf (c : CoreId) (s : State) : Out :=
  .next (finish (issue c 17 false (if c.frames - 2 < (s.core c).res then some 4 else none) true (fillFrame c) s))

/-- GATE n (R407). -/
def execGate (c : CoreId) (n : Byte) (s : State) : Out :=
  .next (finish (issue c 18 true none false (enterGate c n.toNat) s))

/-- INTERRUPT: between instructions a core takes the pending line of highest priority above ipl (R427); with none, or with the core not running, nothing happens. -/
def execInterrupt (c : CoreId) (s : State) : Out :=
  if coreOn s c then
    match interruptNow s c with
    | some l => .next (finish (takeInterrupt c l s))
    | none => .next s
  else .next s

/-- UNDEFINED_INSTRUCTION: ILLEGAL, precisely, with the detail R391 gives the word. -/
def execUndefinedInstruction (c : CoreId) (w : Word) (s : State) : Out :=
  match illegalWord w with
  | none => .refused (.illFormed "UNDEFINED_INSTRUCTION")
  | some d => .next (finish (issue c 1 false (some d) false (fun s => .fin (s.advance c)) s))

end Sys2Proof.Machine
end

