-- ==== Sys2Proof/Machine/Dispatch.lean ====
section
/-! DEFINITION. One arm for each command of the table. -/

namespace Sys2Proof.Machine

def exec (i : Instr) (s : State) : Host.Outcome State Fault Refusal :=
  match i with
  | .identify src e => Sys2Proof.Machine.execIdentify src e s
  | .queueCreate src e => Sys2Proof.Machine.execQueueCreate src e s
  | .queueDelete src e => Sys2Proof.Machine.execQueueDelete src e s
  | .setTime src e => Sys2Proof.Machine.execSetTime src e s
  | .getLog src e => Sys2Proof.Machine.execGetLog src e s
  | .abort src e => Sys2Proof.Machine.execAbort src e s
  | .fwStage src e => Sys2Proof.Machine.execFwStage src e s
  | .fwActivate src e => Sys2Proof.Machine.execFwActivate src e s
  | .keyCreate src e => Sys2Proof.Machine.execKeyCreate src e s
  | .keyLookup src e => Sys2Proof.Machine.execKeyLookup src e s
  | .keyRotate src e => Sys2Proof.Machine.execKeyRotate src e s
  | .keySetState src e => Sys2Proof.Machine.execKeySetState src e s
  | .keyShred src e => Sys2Proof.Machine.execKeyShred src e s
  | .keyExportWrapped src e => Sys2Proof.Machine.execKeyExportWrapped src e s
  | .keyImportWrapped src e => Sys2Proof.Machine.execKeyImportWrapped src e s
  | .keyPin src e => Sys2Proof.Machine.execKeyPin src e s
  | .sealOpen src e => Sys2Proof.Machine.execSealOpen src e s
  | .sealData src e => Sys2Proof.Machine.execSealData src e s
  | .sealClose src e => Sys2Proof.Machine.execSealClose src e s
  | .unsealOpen src e => Sys2Proof.Machine.execUnsealOpen src e s
  | .unsealData src e => Sys2Proof.Machine.execUnsealData src e s
  | .unsealClose src e => Sys2Proof.Machine.execUnsealClose src e s
  | .streamAbort src e => Sys2Proof.Machine.execStreamAbort src e s
  | .streamQuery src e => Sys2Proof.Machine.execStreamQuery src e s
  | .manifestCommit src e => Sys2Proof.Machine.execManifestCommit src e s
  | .manifestRead src e => Sys2Proof.Machine.execManifestRead src e s
  | .journalRead src e => Sys2Proof.Machine.execJournalRead src e s
  | .journalCheckpoint src e => Sys2Proof.Machine.execJournalCheckpoint src e s
  | .vaultExport src e => Sys2Proof.Machine.execVaultExport src e s
  | .vaultImport src e => Sys2Proof.Machine.execVaultImport src e s
  | .pkSign src e => Sys2Proof.Machine.execPkSign src e s
  | .pkVerify src e => Sys2Proof.Machine.execPkVerify src e s
  | .pkKemEncap src e => Sys2Proof.Machine.execPkKemEncap src e s
  | .pkKemDecap src e => Sys2Proof.Machine.execPkKemDecap src e s
  | .pkEcdh src e => Sys2Proof.Machine.execPkEcdh src e s
  | .pkKeygen src e => Sys2Proof.Machine.execPkKeygen src e s
  | .attest src e => Sys2Proof.Machine.execAttest src e s
  | .pkModexp src e => Sys2Proof.Machine.execPkModexp src e s
  | .rngRead src e => Sys2Proof.Machine.execRngRead src e s
  | .rngStatus src e => Sys2Proof.Machine.execRngStatus src e s
  | .quorumBegin src e => Sys2Proof.Machine.execQuorumBegin src e s
  | .quorumApprove src e => Sys2Proof.Machine.execQuorumApprove src e s
  | .quorumEnd src e => Sys2Proof.Machine.execQuorumEnd src e s
  | .custodianEnroll src e => Sys2Proof.Machine.execCustodianEnroll src e s
  | .pairStatus src e => Sys2Proof.Machine.execPairStatus src e s
  | .castle src e => Sys2Proof.Machine.execCastle src e s
  | .pairSetPreferred src e => Sys2Proof.Machine.execPairSetPreferred src e s
  | .powerState src e => Sys2Proof.Machine.execPowerState src e s
  | .wakePolicy src e => Sys2Proof.Machine.execWakePolicy src e s
  | .slotScan src e => Sys2Proof.Machine.execSlotScan src e s
  | .tagRead src e => Sys2Proof.Machine.execTagRead src e s
  | .tagWrite src e => Sys2Proof.Machine.execTagWrite src e s
  | .placardWrite src e => Sys2Proof.Machine.execPlacardWrite src e s
  | .slotEvents src e => Sys2Proof.Machine.execSlotEvents src e s
  | .cardStatus src e => Sys2Proof.Machine.execCardStatus src e s
  | .cardApdu src e => Sys2Proof.Machine.execCardApdu src e s
  | .tokenOp src e => Sys2Proof.Machine.execTokenOp src e s
  | .selftest src e => Sys2Proof.Machine.execSelftest src e s
  | .faultForce src e => Sys2Proof.Machine.execFaultForce src e s
  | .tamperTest src e => Sys2Proof.Machine.execTamperTest src e s
  | .latchFieldRead src e => Sys2Proof.Machine.execLatchFieldRead src e s
  | .undefinedOpcode op src e => Sys2Proof.Machine.execUndefinedOpcode op src e s
  | .sqTailDoorbell port q v stores bad => Sys2Proof.Machine.execSqTailDoorbell port q v stores bad s
  | .cqHeadDoorbell port q v => Sys2Proof.Machine.execCqHeadDoorbell port q v s
  | .portCtlEnable port v => Sys2Proof.Machine.execPortCtlEnable port v s
  | .acceptMirrorTimeout record => Sys2Proof.Machine.execAcceptMirrorTimeout record s
  | .mgmtFrameWrite bytes => Sys2Proof.Machine.execMgmtFrameWrite bytes s
  | .mgmtFrameRead len => Sys2Proof.Machine.execMgmtFrameRead len s
  | .mgmtSclTimeout => Sys2Proof.Machine.execMgmtSclTimeout s
  | .entdaa addr => Sys2Proof.Machine.execEntdaa addr s
  | .setdasa addr => Sys2Proof.Machine.execSetdasa addr s
  | .setaasa => Sys2Proof.Machine.execSetaasa s
  | .rstdaa => Sys2Proof.Machine.execRstdaa s
  | .enec events => Sys2Proof.Machine.execEnec events s
  | .disec events => Sys2Proof.Machine.execDisec events s
  | .getpid => Sys2Proof.Machine.execGetpid s
  | .getbcr => Sys2Proof.Machine.execGetbcr s
  | .getdcr => Sys2Proof.Machine.execGetdcr s
  | .getstatus => Sys2Proof.Machine.execGetstatus s
  | .getmwl => Sys2Proof.Machine.execGetmwl s
  | .getmrl => Sys2Proof.Machine.execGetmrl s
  | .rstact action => Sys2Proof.Machine.execRstact action s
  | .getVersion port req => Sys2Proof.Machine.execGetVersion port req s
  | .getCapabilities port req => Sys2Proof.Machine.execGetCapabilities port req s
  | .negotiateAlgorithms port req => Sys2Proof.Machine.execNegotiateAlgorithms port req s
  | .getDigests port req => Sys2Proof.Machine.execGetDigests port req s
  | .getCertificate port slot offset length => Sys2Proof.Machine.execGetCertificate port slot offset length s
  | .challenge port req => Sys2Proof.Machine.execChallenge port req s
  | .getMeasurements port req => Sys2Proof.Machine.execGetMeasurements port req s
  | .keyExchange port req => Sys2Proof.Machine.execKeyExchange port req s
  | .finish port req => Sys2Proof.Machine.execFinish port req s
  | .spdmHeartbeat port => Sys2Proof.Machine.execSpdmHeartbeat port s
  | .keyUpdate port => Sys2Proof.Machine.execKeyUpdate port s
  | .endSession port => Sys2Proof.Machine.execEndSession port s
  | .ideKmQuery port => Sys2Proof.Machine.execIdeKmQuery port s
  | .keyProg port inSession stream keySet sub tx key iv => Sys2Proof.Machine.execKeyProg port inSession stream keySet sub tx key iv s
  | .kSetGo port stream keySet sub tx => Sys2Proof.Machine.execKSetGo port stream keySet sub tx s
  | .kSetStop port stream keySet sub tx => Sys2Proof.Machine.execKSetStop port stream keySet sub tx s
  | .hostFlr port cause => Sys2Proof.Machine.execHostFlr port cause s
  | .busMasterDisable port => Sys2Proof.Machine.execBusMasterDisable port s
  | .d3hotEntry port => Sys2Proof.Machine.execD3hotEntry port s
  | .surpriseDown port => Sys2Proof.Machine.execSurpriseDown port s
  | .ideCheckFail port => Sys2Proof.Machine.execIdeCheckFail port s
  | .aspmL1Entry port substate => Sys2Proof.Machine.execAspmL1Entry port substate s
  | .dmaReadError src tag element => Sys2Proof.Machine.execDmaReadError src tag element s
  | .laneCommandComplete lane => Sys2Proof.Machine.execLaneCommandComplete lane s
  | .laneWatchdog lane => Sys2Proof.Machine.execLaneWatchdog lane s
  | .streamPark1 handle => Sys2Proof.Machine.execStreamPark1 handle s
  | .streamPark2 handle => Sys2Proof.Machine.execStreamPark2 handle s
  | .streamExpiry handle => Sys2Proof.Machine.execStreamExpiry handle s
  | .load lane slot mode entry kh => Sys2Proof.Machine.execLoad lane slot mode entry kh s
  | .clear lane slot release entry kh => Sys2Proof.Machine.execClear lane slot release entry kh s
  | .mailboxDone lane => Sys2Proof.Machine.execMailboxDone lane s
  | .fill kh v => Sys2Proof.Machine.execFill kh v s
  | .invalidate kh => Sys2Proof.Machine.execInvalidate kh s
  | .pin kh => Sys2Proof.Machine.execPin kh s
  | .unpin kh => Sys2Proof.Machine.execUnpin kh s
  | .find oid => Sys2Proof.Machine.execFind oid s
  | .draw kh => Sys2Proof.Machine.execDraw kh s
  | .ktabOpDone => Sys2Proof.Machine.execKtabOpDone s
  | .wrap cmd => Sys2Proof.Machine.execWrap cmd s
  | .unwrap cmd => Sys2Proof.Machine.execUnwrap cmd s
  | .kdf cmd => Sys2Proof.Machine.execKdf cmd s
  | .cmac cmd => Sys2Proof.Machine.execCmac cmd s
  | .clearSlot slot => Sys2Proof.Machine.execClearSlot slot s
  | .vaultEngDone => Sys2Proof.Machine.execVaultEngDone s
  | .vaultKiln v => Sys2Proof.Machine.execVaultKiln v s
  | .kilnTier2Done => Sys2Proof.Machine.execKilnTier2Done s
  | .kilnInducedReset => Sys2Proof.Machine.execKilnInducedReset s
  | .kilnTier3Done => Sys2Proof.Machine.execKilnTier3Done s
  | .kilnReservoirLow mv => Sys2Proof.Machine.execKilnReservoirLow mv s
  | .reservoirKilnTrigger mv => Sys2Proof.Machine.execReservoirKilnTrigger mv s
  | .quorumSessionExpiry grant => Sys2Proof.Machine.execQuorumSessionExpiry grant s
  | .pkeRingTail v => Sys2Proof.Machine.execPkeRingTail v s
  | .pkeDispatch => Sys2Proof.Machine.execPkeDispatch s
  | .pkeJobDone unit hw => Sys2Proof.Machine.execPkeJobDone unit hw s
  | .pkeKeygenTimeout unit => Sys2Proof.Machine.execPkeKeygenTimeout unit s
  | .rngReq v => Sys2Proof.Machine.execRngReq v s
  | .rngDoneRead => Sys2Proof.Machine.execRngDoneRead s
  | .rngRequestDone => Sys2Proof.Machine.execRngRequestDone s
  | .rngRequestTimeout id => Sys2Proof.Machine.execRngRequestTimeout id s
  | .rngBlockingFail kind => Sys2Proof.Machine.execRngBlockingFail kind s
  | .rngSeeded => Sys2Proof.Machine.execRngSeeded s
  | .rngOscHealth windows ratios => Sys2Proof.Machine.execRngOscHealth windows ratios s
  | .seedTimeout => Sys2Proof.Machine.execSeedTimeout s
  | .retire page slot bad => Sys2Proof.Machine.execRetire page slot bad s
  | .repair array row => Sys2Proof.Machine.execRepair array row s
  | .rmapDone => Sys2Proof.Machine.execRmapDone s
  | .spareDone => Sys2Proof.Machine.execSpareDone s
  | .dramcLogNext v => Sys2Proof.Machine.execDramcLogNext v s
  | .spargeScrub sram die syndrome find => Sys2Proof.Machine.execSpargeScrub sram die syndrome find s
  | .lapOverrun sram => Sys2Proof.Machine.execLapOverrun sram s
  | .program bank addr data => Sys2Proof.Machine.execProgram bank addr data s
  | .erase bank sector => Sys2Proof.Machine.execErase bank sector s
  | .suspend bank => Sys2Proof.Machine.execSuspend bank s
  | .resume bank => Sys2Proof.Machine.execResume bank s
  | .flashQuery bank sector => Sys2Proof.Machine.execFlashQuery bank sector s
  | .protect group => Sys2Proof.Machine.execProtect group s
  | .unprotect group => Sys2Proof.Machine.execUnprotect group s
  | .flashOpDone bank res => Sys2Proof.Machine.execFlashOpDone bank res s
  | .suspendHonoured bank => Sys2Proof.Machine.execSuspendHonoured bank s
  | .unlock password => Sys2Proof.Machine.execUnlock password s
  | .lock => Sys2Proof.Machine.execLock s
  | .setPassword password => Sys2Proof.Machine.execSetPassword password s
  | .tornScanDone => Sys2Proof.Machine.execTornScanDone s
  | .tamperMonitorAssert source stays detail => Sys2Proof.Machine.execTamperMonitorAssert source stays detail s
  | .cellTamperAlarm source stays => Sys2Proof.Machine.execCellTamperAlarm source stays s
  | .tamperBist v => Sys2Proof.Machine.execTamperBist v s
  | .bistWindowEnd asserted still => Sys2Proof.Machine.execBistWindowEnd asserted still s
  | .tamperCalibrate readings => Sys2Proof.Machine.execTamperCalibrate readings s
  | .tamperStickyClear v => Sys2Proof.Machine.execTamperStickyClear v s
  | .faultRaise reports => Sys2Proof.Machine.execFaultRaise reports s
  | .checkTimerExpiry seq => Sys2Proof.Machine.execCheckTimerExpiry seq s
  | .faultAck v => Sys2Proof.Machine.execFaultAck v s
  | .faultForceReg v => Sys2Proof.Machine.execFaultForceReg v s
  | .faultSwraise v => Sys2Proof.Machine.execFaultSwraise v s
  | .alarmRelease v => Sys2Proof.Machine.execAlarmRelease v s
  | .lockstepMismatch ccb => Sys2Proof.Machine.execLockstepMismatch ccb s
  | .pllUnlock pll => Sys2Proof.Machine.execPllUnlock pll s
  | .leverRise => Sys2Proof.Machine.execLeverRise s
  | .leverClosed => Sys2Proof.Machine.execLeverClosed s
  | .withdrawalDrainTimeout => Sys2Proof.Machine.execWithdrawalDrainTimeout s
  | .vinRise mv uf => Sys2Proof.Machine.execVinRise mv uf s
  | .busClassFix => Sys2Proof.Machine.execBusClassFix s
  | .bootStart env => Sys2Proof.Machine.execBootStart env s
  | .holdupCharged => Sys2Proof.Machine.execHoldupCharged s
  | .powerFail mv => Sys2Proof.Machine.execPowerFail mv s
  | .powerFailHoldRelease mv => Sys2Proof.Machine.execPowerFailHoldRelease mv s
  | .vinLoss mv => Sys2Proof.Machine.execVinLoss mv s
  | .vcellLow mv => Sys2Proof.Machine.execVcellLow mv s
  | .powerStateEntry => Sys2Proof.Machine.execPowerStateEntry s
  | .sysctlPwrTarget v => Sys2Proof.Machine.execSysctlPwrTarget v s
  | .wakeEvent source obj => Sys2Proof.Machine.execWakeEvent source obj s
  | .warmReset => Sys2Proof.Machine.execWarmReset s
  | .warmResetReq v => Sys2Proof.Machine.execWarmResetReq v s
  | .mgmtResetReq v => Sys2Proof.Machine.execMgmtResetReq v s
  | .mgmtPlaneReset => Sys2Proof.Machine.execMgmtPlaneReset s
  | .mgmtWatchdogExpiry => Sys2Proof.Machine.execMgmtWatchdogExpiry s
  | .shelfInChange v => Sys2Proof.Machine.execShelfInChange v s
  | .ccbRelease v => Sys2Proof.Machine.execCcbRelease v s
  | .ixreqAssert ccb => Sys2Proof.Machine.execIxreqAssert ccb s
  | .ixreqDeassert ccb => Sys2Proof.Machine.execIxreqDeassert ccb s
  | .custodyTimeTick periods => Sys2Proof.Machine.execCustodyTimeTick periods s
  | .registerWrite who addr v width => Sys2Proof.Machine.execRegisterWrite who addr v width s
  | .interrupt c => Sys2Proof.Machine.execInterrupt c s
  | .undefinedInstruction c w => Sys2Proof.Machine.execUndefinedInstruction c w s
  | .add c rd rs rt => Sys2Proof.Machine.execAdd c rd rs rt s
  | .sub c rd rs rt => Sys2Proof.Machine.execSub c rd rs rt s
  | .addv c rd rs rt => Sys2Proof.Machine.execAddv c rd rs rt s
  | .subv c rd rs rt => Sys2Proof.Machine.execSubv c rd rs rt s
  | .and c rd rs rt => Sys2Proof.Machine.execAnd c rd rs rt s
  | .or c rd rs rt => Sys2Proof.Machine.execOr c rd rs rt s
  | .xor c rd rs rt => Sys2Proof.Machine.execXor c rd rs rt s
  | .andn c rd rs rt => Sys2Proof.Machine.execAndn c rd rs rt s
  | .sll c rd rs rt => Sys2Proof.Machine.execSll c rd rs rt s
  | .srl c rd rs rt => Sys2Proof.Machine.execSrl c rd rs rt s
  | .sra c rd rs rt => Sys2Proof.Machine.execSra c rd rs rt s
  | .ror c rd rs rt => Sys2Proof.Machine.execRor c rd rs rt s
  | .slt c rd rs rt => Sys2Proof.Machine.execSlt c rd rs rt s
  | .sltu c rd rs rt => Sys2Proof.Machine.execSltu c rd rs rt s
  | .mul c rd rs rt => Sys2Proof.Machine.execMul c rd rs rt s
  | .mulhu c rd rs rt => Sys2Proof.Machine.execMulhu c rd rs rt s
  | .mulhs c rd rs rt => Sys2Proof.Machine.execMulhs c rd rs rt s
  | .divu c rd rs rt => Sys2Proof.Machine.execDivu c rd rs rt s
  | .divs c rd rs rt => Sys2Proof.Machine.execDivs c rd rs rt s
  | .remu c rd rs rt => Sys2Proof.Machine.execRemu c rd rs rt s
  | .rems c rd rs rt => Sys2Proof.Machine.execRems c rd rs rt s
  | .clz c rd rs => Sys2Proof.Machine.execClz c rd rs s
  | .slli c rd rs sh => Sys2Proof.Machine.execSlli c rd rs sh s
  | .srli c rd rs sh => Sys2Proof.Machine.execSrli c rd rs sh s
  | .srai c rd rs sh => Sys2Proof.Machine.execSrai c rd rs sh s
  | .rori c rd rs sh => Sys2Proof.Machine.execRori c rd rs sh s
  | .addi c rd rs imm => Sys2Proof.Machine.execAddi c rd rs imm s
  | .addiv c rd rs imm => Sys2Proof.Machine.execAddiv c rd rs imm s
  | .andi c rd rs imm => Sys2Proof.Machine.execAndi c rd rs imm s
  | .ori c rd rs imm => Sys2Proof.Machine.execOri c rd rs imm s
  | .xori c rd rs imm => Sys2Proof.Machine.execXori c rd rs imm s
  | .slti c rd rs imm => Sys2Proof.Machine.execSlti c rd rs imm s
  | .sltiu c rd rs imm => Sys2Proof.Machine.execSltiu c rd rs imm s
  | .lui c rd imm => Sys2Proof.Machine.execLui c rd imm s
  | .ldw c rd rs imm => Sys2Proof.Machine.execLdw c rd rs imm s
  | .ldh c rd rs imm => Sys2Proof.Machine.execLdh c rd rs imm s
  | .ldhu c rd rs imm => Sys2Proof.Machine.execLdhu c rd rs imm s
  | .ldb c rd rs imm => Sys2Proof.Machine.execLdb c rd rs imm s
  | .ldbu c rd rs imm => Sys2Proof.Machine.execLdbu c rd rs imm s
  | .ldx c rd rs imm => Sys2Proof.Machine.execLdx c rd rs imm s
  | .stw c rd rs imm => Sys2Proof.Machine.execStw c rd rs imm s
  | .sth c rd rs imm => Sys2Proof.Machine.execSth c rd rs imm s
  | .stb c rd rs imm => Sys2Proof.Machine.execStb c rd rs imm s
  | .stx c rd rs rt => Sys2Proof.Machine.execStx c rd rs rt s
  | .beq c ra rb disp => Sys2Proof.Machine.execBeq c ra rb disp s
  | .bne c ra rb disp => Sys2Proof.Machine.execBne c ra rb disp s
  | .blt c ra rb disp => Sys2Proof.Machine.execBlt c ra rb disp s
  | .bge c ra rb disp => Sys2Proof.Machine.execBge c ra rb disp s
  | .bltu c ra rb disp => Sys2Proof.Machine.execBltu c ra rb disp s
  | .bgeu c ra rb disp => Sys2Proof.Machine.execBgeu c ra rb disp s
  | .jmp c disp => Sys2Proof.Machine.execJmp c disp s
  | .call c disp => Sys2Proof.Machine.execCall c disp s
  | .jmpr c rs => Sys2Proof.Machine.execJmpr c rs s
  | .callr c rs => Sys2Proof.Machine.execCallr c rs s
  | .ret c => Sys2Proof.Machine.execRet c s
  | .bperm c rd rs sel => Sys2Proof.Machine.execBperm c rd rs sel s
  | .bfi c rd rs lsb wm1 => Sys2Proof.Machine.execBfi c rd rs lsb wm1 s
  | .bfxu c rd rs lsb wm1 => Sys2Proof.Machine.execBfxu c rd rs lsb wm1 s
  | .bfxs c rd rs lsb wm1 => Sys2Proof.Machine.execBfxs c rd rs lsb wm1 s
  | .mfs c rd sel => Sys2Proof.Machine.execMfs c rd sel s
  | .mts c rs sel => Sys2Proof.Machine.execMts c rs sel s
  | .eret c => Sys2Proof.Machine.execEret c s
  | .trapchk c => Sys2Proof.Machine.execTrapchk c s
  | .brk c => Sys2Proof.Machine.execBrk c s
  | .fenceInstruction c => Sys2Proof.Machine.execFenceInstruction c s
  | .ifence c => Sys2Proof.Machine.execIfence c s
  | .wfi c => Sys2Proof.Machine.execWfi c s
  | .spillf c => Sys2Proof.Machine.execSpillf c s
  | .fillf c => Sys2Proof.Machine.execFillf c s
  | .gate c n => Sys2Proof.Machine.execGate c n s
  | .hello m => Sys2Proof.Machine.execHello m s
  | .helloProof ecdsa mldsa ciphertext => Sys2Proof.Machine.execHelloProof ecdsa mldsa ciphertext s
  | .journal recs tagOk => Sys2Proof.Machine.execJournal recs tagOk s
  | .ack n tagOk => Sys2Proof.Machine.execAck n tagOk s
  | .heartbeat path w crcOk => Sys2Proof.Machine.execHeartbeat path w crcOk s
  | .control msg tagOk => Sys2Proof.Machine.execControl msg tagOk s
  | .sync img tagOk => Sys2Proof.Machine.execSync img tagOk s
  | .repairMessage index rec tagOk => Sys2Proof.Machine.execRepairMessage index rec tagOk s
  | .handover entries tagOk => Sys2Proof.Machine.execHandover entries tagOk s
  | .flitNak flit => Sys2Proof.Machine.execFlitNak flit s
  | .pairReplayTimeout => Sys2Proof.Machine.execPairReplayTimeout s
  | .heartbeatTick => Sys2Proof.Machine.execHeartbeatTick s
  | .pathSilent path => Sys2Proof.Machine.execPathSilent path s
  | .election => Sys2Proof.Machine.execElection s
  | .plannedCastlingDrained => Sys2Proof.Machine.execPlannedCastlingDrained s
  | .castleDrainTimeout => Sys2Proof.Machine.execCastleDrainTimeout s
  | .revertiveReturn => Sys2Proof.Machine.execRevertiveReturn s
  | .pairPrsntHigh => Sys2Proof.Machine.execPairPrsntHigh s
  | .capSenseSample samples => Sys2Proof.Machine.execCapSenseSample samples s
  | .labelResponse fe bytes => Sys2Proof.Machine.execLabelResponse fe bytes s
  | .labelResponseTimeout fe => Sys2Proof.Machine.execLabelResponseTimeout fe s
  | .reqa => Sys2Proof.Machine.execReqa s
  | .wupa => Sys2Proof.Machine.execWupa s
  | .hlta => Sys2Proof.Machine.execHlta s
  | .anticollisionSelect uid => Sys2Proof.Machine.execAnticollisionSelect uid s
  | .readBlock block count mac => Sys2Proof.Machine.execReadBlock block count mac s
  | .writeBlock block count data mac supply => Sys2Proof.Machine.execWriteBlock block count data mac supply s
  | .counterInc counter inc mac supply => Sys2Proof.Machine.execCounterInc counter inc mac supply s
  | .quiet mac => Sys2Proof.Machine.execQuiet mac s
  | .getStatus supply mac => Sys2Proof.Machine.execGetStatus supply mac s
  | .auth1 slot => Sys2Proof.Machine.execAuth1 slot s
  | .auth2 token => Sys2Proof.Machine.execAuth2 token s
  | .counterRead counter mac => Sys2Proof.Machine.execCounterRead counter mac s
  | .rate code mac => Sys2Proof.Machine.execRate code mac s
  | .yomirSubmit frame mac => Sys2Proof.Machine.execYomirSubmit frame mac s
  | .yomirFetch mac => Sys2Proof.Machine.execYomirFetch mac s
  | .yomirOut offset count mac => Sys2Proof.Machine.execYomirOut offset count mac s
  | .tagFieldLost => Sys2Proof.Machine.execTagFieldLost s
  | .quietExpiry => Sys2Proof.Machine.execQuietExpiry s
  | .tagCopyBack supply => Sys2Proof.Machine.execTagCopyBack supply s
  | .tagAuthLockoutEnd => Sys2Proof.Machine.execTagAuthLockoutEnd s
  | .tagifReadPage page => Sys2Proof.Machine.execTagifReadPage page s
  | .tagifWritePlacardPage page => Sys2Proof.Machine.execTagifWritePlacardPage page s
  | .tagifWriteConfig => Sys2Proof.Machine.execTagifWriteConfig s
  | .tagifWriteKeySlot slot => Sys2Proof.Machine.execTagifWriteKeySlot slot s
  | .tagifOpDone => Sys2Proof.Machine.execTagifOpDone s
  | .tagifTimeout => Sys2Proof.Machine.execTagifTimeout s
  | .cardInsert slot => Sys2Proof.Machine.execCardInsert slot s
  | .cardDetectStable slot => Sys2Proof.Machine.execCardDetectStable slot s
  | .cardRemoval slot => Sys2Proof.Machine.execCardRemoval slot s
  | .atrReceived slot bytes => Sys2Proof.Machine.execAtrReceived slot bytes s
  | .atrTimeout slot => Sys2Proof.Machine.execAtrTimeout slot s
  | .ppsResponse slot bytes => Sys2Proof.Machine.execPpsResponse slot bytes s
  | .cardIBlock slot pcb inf edcOk => Sys2Proof.Machine.execCardIBlock slot pcb inf edcOk s
  | .cardRBlock slot pcb edcOk => Sys2Proof.Machine.execCardRBlock slot pcb edcOk s
  | .sResynch slot response => Sys2Proof.Machine.execSResynch slot response s
  | .sIfs slot response size => Sys2Proof.Machine.execSIfs slot response size s
  | .sAbort slot response => Sys2Proof.Machine.execSAbort slot response s
  | .sWtx slot mult => Sys2Proof.Machine.execSWtx slot mult s
  | .sSleep slot => Sys2Proof.Machine.execSSleep slot s
  | .sWake slot => Sys2Proof.Machine.execSWake slot s
  | .cardBwtTimeout slot => Sys2Proof.Machine.execCardBwtTimeout slot s
  | .tokenBusyEnd slot => Sys2Proof.Machine.execTokenBusyEnd slot s
  | .tokenBusyTimeout slot => Sys2Proof.Machine.execTokenBusyTimeout slot s
  | .cardOvercurrent slot => Sys2Proof.Machine.execCardOvercurrent slot s
  | .tokenSleepTimer slot => Sys2Proof.Machine.execTokenSleepTimer slot s
  | .cardIdleDeact slot => Sys2Proof.Machine.execCardIdleDeact slot s
  | .cardActivate slot cls => Sys2Proof.Machine.execCardActivate slot cls s
  | .cardDeactivate slot => Sys2Proof.Machine.execCardDeactivate slot s
  | .cardWarmReset slot => Sys2Proof.Machine.execCardWarmReset slot s
  | .cardStopClock slot => Sys2Proof.Machine.execCardStopClock slot s
  | .cardStartClock slot => Sys2Proof.Machine.execCardStartClock slot s
  | .hostLinkUp port speed width => Sys2Proof.Machine.execHostLinkUp port speed width s
  | .aspmL1Exit port => Sys2Proof.Machine.execAspmL1Exit port s
  | .d3hotExit port => Sys2Proof.Machine.execD3hotExit port s
  | .doeDiscovery port index => Sys2Proof.Machine.execDoeDiscovery port index s
  | .passwordOpDone => Sys2Proof.Machine.execPasswordOpDone s
  | .partnerLinkDown => Sys2Proof.Machine.execPartnerLinkDown s
  | .partnerLinkUp => Sys2Proof.Machine.execPartnerLinkUp s
  | .tagFieldOn mv => Sys2Proof.Machine.execTagFieldOn mv s
  | .cardCwtTimeout slot => Sys2Proof.Machine.execCardCwtTimeout slot s

end Sys2Proof.Machine
end

