-- ==== Sys2Proof/Safety.lean ====
section
/-! DEFINITION. What a safe state is, in the terms the statements use. -/

namespace Sys2Proof.Safety

open Sys2Proof.Machine

/-- No key is held in clear: KEK store, vault slots, lane key slots, park keys and key cache are empty (R311 tier 1). -/
def KeysCleared (s : State) : Prop :=
  s.vault.kek = none ∧ (∀ k ∈ s.vault.slots, k = none) ∧ s.ktab.cache = [] ∧ s.lanes.parkKey = none ∧
    ∀ l ∈ s.lanes.lanes, l.slot0 = none ∧ l.slot1 = none ∧ l.parkKey = none

/-- A step that goes on. -/
def Goes (s t : State) : Prop := step s = .next t

/-- Nothing follows from a state without a further command: the state in which a command's own effect is all that happens. -/
def Quiet (s : State) : Prop := restless s = false

/-! ### When a core carries an instruction out itself -/

/-- The core issues its next instruction: it runs, takes no interrupt, and its instruction word can be fetched (R392, R393, R399). -/
def Issues (c : CoreId) (s : State) : Prop :=
  coreOn s c = true ∧ (s.core c).waiting = false ∧ interruptNow s c = none ∧
    mpuCheck s c (s.core c).ring 2 (s.core c).pc.toNat = none ∧ fetchable c (s.core c).pc.toNat = true ∧ fetchBad c (s.core c).pc.toNat s = false

/-- The same, at a trap point with no arithmetic flag set (R397). -/
def IssuesClean (c : CoreId) (s : State) : Prop := Issues c s ∧ (s.core c).arithFlags = 0

/-- The same, in ring 0 (R399). -/
def IssuesRing0 (c : CoreId) (s : State) : Prop := Issues c s ∧ (s.core c).ring = 0

/-- What an instruction leaves that writes one register in `n` cycles: the register, the pc, the cycle count, one free value drawn for memory time. -/
def wrote (c : CoreId) (n : Nat) (rd : RegF) (v : Word) (s : State) : State := addCycles c n ((s.wr c rd v).advance c)

/-- Exception entry can go through at a core: no lockdown, a free place on the shadow stack and in the window file, the vector word read as `h` and fetchable, the frame stored, which leaves `t` (R413, R414). -/
def EntryOpen (c : CoreId) (q : Entering) (h : Nat) (s t : State) : Prop :=
  (s.core c).lockdown = false ∧ (s.core c).shadow.length < 16 ∧ (s.core c).res ≠ c.frames - 1 ∧
    (match q.target with
      | some a => a.toNat = h
      | none => mpuCheck s c 0 0 ((s.core c).vbase.toNat + 4 * q.vector) = none ∧
          busLoad c ((s.core c).vbase.toNat + 4 * q.vector) 4 s = .ok h s ∧ h % 4 = 0 ∧ h < 2 ^ 32 ∧ fetchable c h = true) ∧
    pushFrame c (s.core c).spillp (entryFrame (s.core c) q.shadow) s = (none, t) ∧ t.core c = s.core c

/-- The core after an exception entry (R414 step 5): the pc, STATUS and cause saved, ring 0, the handler's address, the window slid forward, the frame 64 bytes down. -/
def Entered (c : CoreId) (q : Entering) (h : Nat) (k k' : Core) : Prop :=
  k'.pc = BitVec.ofNat 32 h ∧ k'.epc = q.epc ∧ k'.estatus = k.status ∧ k'.ecause = put32 8 q.detail ||| put32 0 q.vector ∧
    k'.eaddr = q.eaddr ∧ k'.ring = 0 ∧ k'.arithFlags = 0 ∧ k'.shadow = q.shadow :: k.shadow ∧ k'.spillp = k.spillp - 64 ∧
    k'.resv = none ∧ k'.wstate = (k.slideForward c).wstate ∧ k'.rf = k.rf ∧ k'.g = k.g ∧ k'.ctrl = k.ctrl ∧ k'.vbase = k.vbase

/-! ### When an entry is taken in and its command carried out (R120) -/

/-- A source can give an entry now (R109 to R111, R144 to R147): `s0` is the state once the entry is taken from there, `auth` whether it came inside a session of the tag interface, `hd` the SQ head its completion carries. -/
def Arrives (src : Source) (s s0 : State) (auth : Bool) (hd : BitVec 16) : Prop :=
  cqeOpen s = true ∧
  match src with
  | .queue q => auth = false ∧ ∃ x, s.queue q = some x ∧ queueOpen s x = true ∧ hd = BitVec.ofNat 16 (ringNext x.sqHead x.sqEntries) ∧
      s0 = s.setQueue q (fun y => { y with
        sqHead := ringNext x.sqHead x.sqEntries, sqTail := if y.sqHead = y.sqTail then ringNext x.sqHead x.sqEntries else y.sqTail })
  | .mgmt => auth = false ∧ pseudoEnable s ≠ 0 ∧ mgmtUp s = true ∧ mgmtPending s < 8 ∧ s.mgmtp.frames = [] ∧ hd = s.fresh.setWidth 16 ∧ s0 = s.drew
  | .tag => auth = s.tag.session.isSome ∧ 2 ≤ pseudoEnable s ∧ s.tag.yEntry = none ∧ s.tag.field = true ∧ hd = s.fresh.setWidth 16 ∧
      s0 = { s.drew with tag := { s.tag with yEntry := some (s.tag.session.isSome, s.cqe.nextKey), yDone := none } }
  | .internal n _ => auth = false ∧ 3 ≤ pseudoEnable s ∧ n < 4 ∧ hd = s.fresh.setWidth 16 ∧ s0 = s.drew

/-- Steps 1 to 3 of R120 pass: the CRC is right and the sequence number is the expected one. -/
def Sound (op : BitVec 16) (src : Source) (e : Entry) (s0 : State) : Prop :=
  crc32c ((entryBytes op e).take 60) = e.crc ∧ e.seq = expectedSeq s0 src

/-- The state with a sound entry accepted: the next sequence number, the acceptance record, the entry in flight as `c` (R122, R123). -/
def takenIn (c : Inflight) (s0 : State) : State :=
  let s1 := setExpected (c.entry.seq + 1) s0 c.src
  let body : JBody := .accept c.entry.seq c.entry.tag c.op 0 (Source.ring c.src)
  let h := namedStream c.op c.entry
  let s2 := if c.accRec.isSome then appendAs h c.src.code body s1 else forwardAs h c.src.code body s1
  { s2 with cqe := { s2.cqe with
      inflight := s2.cqe.inflight ++ [c], nextKey := c.key + 1, lastKeys := s2.cqe.lastKeys.filter (fun p => p.1 != c.src.issuer) ++ [(c.src.issuer, c.key)] } }

/-- The in-flight entry a sound entry becomes. -/
def inflightOf (op : BitVec 16) (src : Source) (e : Entry) (hd : BitVec 16) (s0 : State) : Inflight where
  key := s0.cqe.nextKey
  accRec := if decide (0 < s0.journal.next) && s0.journals then some s0.journal.next else none
  src := src
  op := op
  entry := e
  sqhead := hd
  wait := .start
  past := false
  after := if e.order then previousKey s0 src else none
  began := s0.clock.lfclk
  faults := 0

/-- A state without an in-flight entry, as the checks of tags and streams see it. -/
def without (c : Inflight) (s : State) : State := { s with cqe := { s.cqe with inflight := s.cqe.inflight.filter (fun d => d.key != c.key) } }

/-- The kernel is signalled of every command but the lanes' own (R28). -/
def signalled (op : BitVec 16) (s : State) : State := if laneOp op then s else s.line 0

/-- The entry passes every check of R120 and starts at once, a request to the management plane being taken at once too (R27): `c` is the in-flight entry, `t` the state in which the command's own work begins. -/
def Accepted (op : BitVec 16) (src : Source) (e : Entry) (s : State) (c : Inflight) (t : State) : Prop :=
  ∃ s0 auth hd s4, Arrives src s s0 auth hd ∧ Sound op src e s0 ∧ c = inflightOf op src e hd s0 ∧
    firstChecks (without c (takenIn c s0)) op src e auth = none ∧ stateChecks op.toNat src e c.key (takenIn c s0) = .ok s4 ∧
    mustWait (holdInterim c s4) c = false ∧ (needsRequest op && !mgmtTakes (signalled op (holdInterim c s4))) = false ∧
    t = (signalled op (holdInterim c s4)).waitOn c.key .running

end Sys2Proof.Safety
end

