-- ==== Sys2Proof/WellFormed.lean ====
section
/-! DEFINITION. Which command terms the module can be given: operands inside the ranges that the spec's fields, units and pins allow. -/

namespace Sys2Proof

/-- A source that exists: 128 queues, four rings (R104, R128). -/
def Source.exists_ : Source → Bool
  | .queue q => decide (q < 128)
  | .internal r _ => decide (r < 4)
  | _ => true

/-- A register access that an agent can make: a core's store of one to four bytes in its 32-bit space, a host access to BAR0 or to a register of the configuration space (R150, R154, R389). -/
def accessOk (who : Agent) (addr width : Nat) : Bool :=
  match who with
  | .core _ => decide (addr < 2 ^ 32) && (width == 1 || width == 2 || width == 4)
  | .host p => decide (p < 2) && decide (addr < 0x40000) && decide (1 ≤ width ∧ width ≤ 8)
  | .hostRead p => decide (p < 2) && decide (addr < 0x40000) && decide (1 ≤ width ∧ width ≤ 8)
  | .hostPoisoned p => decide (p < 2) && decide (addr < 0x40000) && decide (1 ≤ width ∧ width ≤ 8)
  | .config p => decide (p < 2) && decide (addr < 0x1000) && (width == 1 || width == 2 || width == 4) && decide (addr % 4 + width ≤ 4)
  | .configRead p => decide (p < 2) && decide (addr < 0x1000) && (width == 1 || width == 2 || width == 4) && decide (addr % 4 + width ≤ 4)

/-- A tamper source (R474). -/
def tamperSource (n : Nat) : Bool := decide (128 ≤ n ∧ n ≤ 144)

/-- The block of a command that has operands to check; every command besides has operands whose types bound them. -/
def Instr.wellFormed (i : Instr) : Bool :=
  match i with
  | .undefinedOpcode op src _ => (Machine.opRow op).isNone && src.exists_
  | .undefinedInstruction _ w => (Machine.illegalWord w).isSome
  | .registerWrite who addr _ width => accessOk who addr width
  | .dmaReadError src _ _ => (match src with | .queue q => decide (q < 128) | _ => false)
  | .load _ _ _ entry _ => decide (entry < 64)
  | .clear _ _ _ entry _ => decide (entry < 64)
  | .faultRaise reports => !reports.isEmpty && reports.all (fun r => decide (r.source < 256))
  | .capSenseSample samples => samples.length == 48
  | .tamperMonitorAssert n _ _ => tamperSource n
  | .cellTamperAlarm n _ => tamperSource n
  | .tamperCalibrate readings => readings.length == 4
  | .program _ addr _ => decide (addr < 2 ^ 24) && addr % 8 == 0
  | .erase _ sector => decide (sector < 4096)
  | .flashQuery _ sector => decide (sector < 4096)
  | .protect group => decide (group < 64)
  | .unprotect group => decide (group < 64)
  | .retire page slot _ => decide (page.toNat < 2 ^ 25) && decide (slot < 4096)
  | .repair array row => decide (array < 64) && decide (row < 2048)
  | .hostLinkUp _ speed width => decide (1 ≤ speed ∧ speed ≤ 5) && (width == 1 || width == 2 || width == 4 || width == 8)
  | .readBlock block count _ => decide (block < 65536) && decide (count < 256)
  | .writeBlock block count data _ _ => decide (block < 65536) && decide (count < 256) && decide (data.length < 256)
  | .counterInc counter inc _ _ => decide (counter < 256) && decide (inc < 256)
  | .auth1 slot => decide (slot < 256)
  | .counterRead counter _ => decide (counter < 256)
  | .rate code _ => decide (code < 256)
  | .yomirOut offset count _ => decide (offset < 65536) && decide (count < 256)
  | .tagifReadPage page => decide (page < 256)
  | .tagifWritePlacardPage page => decide (page < 256)
  | .tagifWriteKeySlot slot => decide (slot < 4)
  | .cardActivate _ cls => decide (cls < 4)
  | .flitNak f => decide (f.length = 64)
  | _ => true

end Sys2Proof
end

