-- ==== Sys2Proof/Certificates/Slice0/Obligations.lean ====
section
/-! DEFINITION. The statements for the provers. -/

open Sys2Proof Sys2Proof.Machine Sys2Proof.Safety

/-- R390: the results of the plain three-register instructions, each operand read before the write. MULHU and MULHS take bits 63:32 of the product of the operands widened to 64 bits. -/
def Obligations.CorePlainResults : Prop :=
  ∀ (c : CoreId) (rd rs rt : RegF) (s : State), Issues c s →
    let a := s.rd c rs
    let b := s.rd c rt
    exec (.add c rd rs rt) s = .next (finish (wrote c 1 rd (a + b) s)) ∧
    exec (.sub c rd rs rt) s = .next (finish (wrote c 1 rd (a - b) s)) ∧
    exec (.and c rd rs rt) s = .next (finish (wrote c 1 rd (a &&& b) s)) ∧
    exec (.or c rd rs rt) s = .next (finish (wrote c 1 rd (a ||| b) s)) ∧
    exec (.xor c rd rs rt) s = .next (finish (wrote c 1 rd (a ^^^ b) s)) ∧
    exec (.andn c rd rs rt) s = .next (finish (wrote c 1 rd (a &&& ~~~ b) s)) ∧
    exec (.sll c rd rs rt) s = .next (finish (wrote c 1 rd (a <<< (b.toNat % 32)) s)) ∧
    exec (.srl c rd rs rt) s = .next (finish (wrote c 1 rd (a >>> (b.toNat % 32)) s)) ∧
    exec (.sra c rd rs rt) s = .next (finish (wrote c 1 rd (a.sshiftRight (b.toNat % 32)) s)) ∧
    exec (.ror c rd rs rt) s = .next (finish (wrote c 1 rd (a.rotateRight (b.toNat % 32)) s)) ∧
    exec (.slt c rd rs rt) s = .next (finish (wrote c 1 rd (if a.toInt < b.toInt then 1 else 0) s)) ∧
    exec (.sltu c rd rs rt) s = .next (finish (wrote c 1 rd (if a.toNat < b.toNat then 1 else 0) s)) ∧
    exec (.mul c rd rs rt) s = .next (finish (wrote c 3 rd (a * b) s)) ∧
    exec (.mulhu c rd rs rt) s = .next (finish (wrote c 3 rd ((a.setWidth 64 * b.setWidth 64).extractLsb' 32 32) s)) ∧
    exec (.mulhs c rd rs rt) s = .next (finish (wrote c 3 rd ((a.signExtend 64 * b.signExtend 64).extractLsb' 32 32) s))

/-- R389: the immediate forms. -/
def Obligations.CoreImmediateResults : Prop :=
  ∀ (c : CoreId) (rd rs : RegF) (sh : BitVec 5) (imm : BitVec 16) (s : State), Issues c s →
    let a := s.rd c rs
    exec (.slli c rd rs sh) s = .next (finish (wrote c 1 rd (a <<< sh.toNat) s)) ∧
    exec (.srli c rd rs sh) s = .next (finish (wrote c 1 rd (a >>> sh.toNat) s)) ∧
    exec (.srai c rd rs sh) s = .next (finish (wrote c 1 rd (a.sshiftRight sh.toNat) s)) ∧
    exec (.rori c rd rs sh) s = .next (finish (wrote c 1 rd (a.rotateRight sh.toNat) s)) ∧
    exec (.addi c rd rs imm) s = .next (finish (wrote c 1 rd (a + imm.signExtend 32) s)) ∧
    exec (.andi c rd rs imm) s = .next (finish (wrote c 1 rd (a &&& imm.zeroExtend 32) s)) ∧
    exec (.ori c rd rs imm) s = .next (finish (wrote c 1 rd (a ||| imm.zeroExtend 32) s)) ∧
    exec (.xori c rd rs imm) s = .next (finish (wrote c 1 rd (a ^^^ imm.zeroExtend 32) s)) ∧
    exec (.slti c rd rs imm) s = .next (finish (wrote c 1 rd (if a.toInt < imm.toInt then 1 else 0) s)) ∧
    exec (.sltiu c rd rs imm) s = .next (finish (wrote c 1 rd (if a.toNat < (imm.signExtend 32).toNat then 1 else 0) s)) ∧
    exec (.lui c rd imm) s = .next (finish (wrote c 1 rd (imm ++ (0 : BitVec 16)) s))

/-- R390 (CLZ), R394, R395: every bit of the result. -/
def Obligations.CoreBitFields : Prop :=
  ∀ (c : CoreId) (rd rs : RegF) (s : State), Issues c s →
    (∃ v : Word, exec (.clz c rd rs) s = .next (finish (wrote c 1 rd v s)) ∧ v.toNat ≤ 32 ∧
      (v.toNat < 32 → (s.rd c rs).getLsbD (31 - v.toNat) = true) ∧ ∀ j, 32 - v.toNat ≤ j → (s.rd c rs).getLsbD j = false) ∧
    (∀ lsb wm1 : BitVec 5, lsb.toNat + wm1.toNat ≤ 31 →
      (∃ v : Word, exec (.bfi c rd rs lsb wm1) s = .next (finish (wrote c 1 rd v s)) ∧ ∀ j, j < 32 →
        v.getLsbD j = if lsb.toNat ≤ j ∧ j ≤ lsb.toNat + wm1.toNat then (s.rd c rs).getLsbD (j - lsb.toNat) else (s.rd c rd).getLsbD j) ∧
      (∃ v : Word, exec (.bfxu c rd rs lsb wm1) s = .next (finish (wrote c 1 rd v s)) ∧ ∀ j, j < 32 →
        v.getLsbD j = if j ≤ wm1.toNat then (s.rd c rs).getLsbD (lsb.toNat + j) else false) ∧
      (∃ v : Word, exec (.bfxs c rd rs lsb wm1) s = .next (finish (wrote c 1 rd v s)) ∧ ∀ j, j < 32 →
        v.getLsbD j = (s.rd c rs).getLsbD (lsb.toNat + min j wm1.toNat))) ∧
    (∀ lsb wm1 : BitVec 5, 31 < lsb.toNat + wm1.toNat →
      let ill : Host.Outcome State Fault Refusal := .next (finish (addCycles c 11 (raiseException c 1 2 0 s)))
      exec (.bfi c rd rs lsb wm1) s = ill ∧ exec (.bfxu c rd rs lsb wm1) s = ill ∧ exec (.bfxs c rd rs lsb wm1) s = ill) ∧
    (∀ sel : BitVec 16, permBad sel = true → exec (.bperm c rd rs sel) s = .next (finish (addCycles c 11 (raiseException c 1 2 0 s)))) ∧
    (∀ sel : BitVec 16, permBad sel = false →
      ∃ v : Word, exec (.bperm c rd rs sel) s = .next (finish (wrote c 1 rd v s)) ∧ ∀ k, k < 4 →
        v.extractLsb' (8 * k) 8 =
          let code := (sel.extractLsb' (4 * k) 4).toNat
          if code < 4 then (s.rd c rd).extractLsb' (8 * code) 8 else if code < 8 then (s.rd c rs).extractLsb' (8 * (code - 4)) 8 else 0)

/-- R396, R397: `arith` is what R396 gives: value, division fault, overflow. -/
def Obligations.CoreArithmeticFaults : Prop :=
  (∀ a b : Word, arithAddv a b = ⟨a + b, false, decide ((a + b).toInt ≠ a.toInt + b.toInt)⟩ ∧
    arithSubv a b = ⟨a - b, false, decide ((a - b).toInt ≠ a.toInt - b.toInt)⟩ ∧
    arithDivu a 0 = ⟨0xFFFFFFFF, true, false⟩ ∧ arithDivs a 0 = ⟨0xFFFFFFFF, true, false⟩ ∧
    arithRemu a 0 = ⟨a, true, false⟩ ∧ arithRems a 0 = ⟨a, true, false⟩ ∧
    arithDivs 0x80000000 0xFFFFFFFF = ⟨0x80000000, false, true⟩ ∧ arithRems 0x80000000 0xFFFFFFFF = ⟨0, false, true⟩ ∧
    (b ≠ 0 → (arithDivu a b).value.toNat = a.toNat / b.toNat ∧ (arithRemu a b).value.toNat = a.toNat % b.toNat) ∧
    (b ≠ 0 → ¬ (a = 0x80000000 ∧ b = 0xFFFFFFFF) →
      (arithDivs a b).value.toInt = a.toInt.tdiv b.toInt ∧ (arithRems a b).value.toInt = a.toInt.tmod b.toInt)) ∧
  ∀ (c : CoreId) (rd rs rt : RegF) (imm : BitVec 16) (s : State), Issues c s →
    let a := s.rd c rs
    let b := s.rd c rt
    let i := imm.signExtend 32
    let k := s.core c
    let ends (n : Nat) (r : Arith) (o : Host.Outcome State Fault Refusal) : Prop :=
      (r.div = false → r.ovf = false → o = .next (finish (wrote c n rd r.value s))) ∧
      ((r.div = true ∨ r.ovf = true) → bitAt k.ctrl 0 = false →
        ∃ t, o = .next (finish (addCycles c n t)) ∧ (t.core c).rf = (k.write c rd r.value).rf ∧ (t.core c).g = (k.write c rd r.value).g ∧
          (t.core c).pc = k.pc + 4 ∧ (t.core c).status = k.status ||| bit32 8 r.div ||| bit32 9 r.ovf ∧
          (t.core c).afAddr = (if k.arithFlags = 0 then k.pc else k.afAddr)) ∧
      ((r.div = true ∨ r.ovf = true) → bitAt k.ctrl 0 = true →
        o = .next (finish (addCycles c (n + 10) (raiseException c 11 (0x80 + (if r.div then 1 else 0) + (if r.ovf then 2 else 0)) k.pc s))))
    ends 1 (arithAddv a b) (exec (.addv c rd rs rt) s) ∧ ends 1 (arithSubv a b) (exec (.subv c rd rs rt) s) ∧
    ends 1 (arithAddv a i) (exec (.addiv c rd rs imm) s) ∧ ends 34 (arithDivu a b) (exec (.divu c rd rs rt) s) ∧
    ends 34 (arithDivs a b) (exec (.divs c rd rs rt) s) ∧ ends 34 (arithRemu a b) (exec (.remu c rd rs rt) s) ∧
    ends 34 (arithRems a b) (exec (.rems c rd rs rt) s)

/-- The frame of every instruction whose next state is `wrote c n rd v s`. -/
def Obligations.CoreRegisterFrame : Prop :=
  ∀ (c : CoreId) (n : Nat) (rd : RegF) (v : Word) (s : State), Quiet s →
    let t := wrote c n rd v s
    finish t = t ∧
    (∀ f : RegF, f ≠ rd → t.rd c f = s.rd c f) ∧
    (rd.toNat = 24 → (t.core c).rf = (s.core c).rf ∧ (t.core c).g = (s.core c).g) ∧
    (∀ d : CoreId, d ≠ c → t.core d = s.core d) ∧
    (∀ space addr : Nat, t.readByte space addr = s.readByte space addr) ∧
    t.core c = { (s.core c).write c rd v with pc := (s.core c).pc + 4, cycle := (t.core c).cycle } ∧
    ({ t with cores := s.cores, freeCtr := s.freeCtr } : State) = s

/-- R375: which register each of the 32 field values names, and the register that discards writes. -/
def Obligations.CoreRegisterWriteReads : Prop :=
  ∀ (c : CoreId) (k : Core) (f : RegF) (v : Word),
    (f.toNat < 24 → k.read c f = k.rf.getD ((16 * k.cwp + f.toNat) % (16 * c.frames)) 0) ∧
    (24 < f.toNat → k.read c f = k.g.getD (f.toNat - 25) 0 ∧ ∀ (w : Word) (r : List Word), ({ k with wstate := w, rf := r } : Core).read c f = k.read c f) ∧
    (f.toNat = 24 → k.read c f = 0 ∧ k.write c f v = k) ∧
    (k.rf.length = 16 * c.frames → k.g.length = 7 →
      (f.toNat ≠ 24 → (k.write c f v).read c f = v) ∧ ∀ h : RegF, h ≠ f → (k.write c f v).read c h = k.read c h)

/-- R389, R393, for every address whose access the MPU and the bus carry out. -/
def Obligations.CoreLoadsComplete : Prop :=
  ∀ (c : CoreId) (rd rs : RegF) (imm : BitVec 16) (v : Nat) (s t : State), Issues c s →
    let a := (s.rd c rs + imm.signExtend 32).toNat
    mpuCheck s c (s.core c).ring 0 a = none →
    (a % 4 = 0 → busLoad c a 4 s = .ok v t →
      exec (.ldw c rd rs imm) s = .next (finish (wrote c 3 rd (BitVec.ofNat 32 v) t)) ∧
      exec (.ldx c rd rs imm) s = .next (finish (wrote c 3 rd (BitVec.ofNat 32 v) (t.setCore c { t.core c with resv := some (granuleOf c a t) })))) ∧
    (a % 2 = 0 → busLoad c a 2 s = .ok v t →
      exec (.ldh c rd rs imm) s = .next (finish (wrote c 3 rd ((BitVec.ofNat 16 v).signExtend 32) t)) ∧
      exec (.ldhu c rd rs imm) s = .next (finish (wrote c 3 rd (BitVec.ofNat 32 v) t))) ∧
    (busLoad c a 1 s = .ok v t →
      exec (.ldb c rd rs imm) s = .next (finish (wrote c 3 rd ((BitVec.ofNat 8 v).signExtend 32) t)) ∧
      exec (.ldbu c rd rs imm) s = .next (finish (wrote c 3 rd (BitVec.ofNat 32 v) t)))

/-- R389, R393, R400: the store's bytes are computed with the address the meaning uses; every other byte reads as before. -/
def Obligations.CoreStoresComplete : Prop :=
  ∀ (c : CoreId) (rd rs rt : RegF) (imm : BitVec 16) (s : State), Issues c s →
    let a := (s.rd c rs + imm.signExtend 32).toNat
    let x := (s.rd c rs).toNat
    let v := (s.rd c rd).toNat
    let put (n : Nat) (v sp addr : Nat) (t : State) : Prop :=
      (∀ j, j < n → t.readByte sp (addr + j) = BitVec.ofNat 8 (v / 256 ^ j)) ∧
      (∀ key, (∀ j, j < n → key ≠ memKey sp (addr + j)) → memGet t.mem key = memGet s.mem key) ∧
      t.core c = s.core c ∧ ({ t with mem := s.mem, cores := s.cores } : State) = s ∧
      ∀ d, d ≠ c → t.core d = if (s.core d).resv = some (memKey sp addr / 64) then { s.core d with resv := none } else s.core d
    (∀ u t, mpuCheck s c (s.core c).ring 1 a = none → ((s.core c).ring = 0 ∨ ringZeroOnly c a = false) →
      (a % 4 = 0 → busStore c a 4 v s = .ok u t → exec (.stw c rd rs imm) s = .next (finish (addCycles c 1 (t.advance c)))) ∧
      (a % 2 = 0 → busStore c a 2 (v % 2 ^ 16) s = .ok u t → exec (.sth c rd rs imm) s = .next (finish (addCycles c 1 (t.advance c)))) ∧
      (busStore c a 1 (v % 2 ^ 8) s = .ok u t → exec (.stb c rd rs imm) s = .next (finish (addCycles c 1 (t.advance c))))) ∧
    (∀ sp, regionOf c a = .sram sp → (sp = 0 → sramBad s a = false) → mpuCheck s c (s.core c).ring 1 a = none →
      (a % 4 = 0 → ∃ t, exec (.stw c rd rs imm) s = .next (finish (addCycles c 1 (t.advance c))) ∧ put 4 v sp a t) ∧
      (a % 2 = 0 → ∃ t, exec (.sth c rd rs imm) s = .next (finish (addCycles c 1 (t.advance c))) ∧ put 2 v sp a t) ∧
      ∃ t, exec (.stb c rd rs imm) s = .next (finish (addCycles c 1 (t.advance c))) ∧ put 1 v sp a t) ∧
    (x % 4 = 0 →
      (∀ sp, (s.core c).resv = some (granuleOf c x s) → regionOf c x = .sram sp → (sp = 0 → sramBad s x = false) →
        mpuCheck s c (s.core c).ring 1 x = none →
        ∃ t, exec (.stx c rd rs rt) s = .next (finish (wrote c 1 rd 0 (t.setCore c { s.core c with resv := none }))) ∧ put 4 (s.rd c rt).toNat sp x t) ∧
      ((s.core c).resv ≠ some (granuleOf c x s) →
        exec (.stx c rd rs rt) s = .next (finish (wrote c 1 rd 1 (s.setCore c { s.core c with resv := none })))))

/-- R393, R399: the exceptions of one data access, shown for LDW and STW. -/
def Obligations.CoreAccessTraps : Prop :=
  ∀ (c : CoreId) (rd rs : RegF) (imm : BitVec 16) (d : Nat) (s t : State), Issues c s →
    let w := s.rd c rs + imm.signExtend 32
    let a := w.toNat
    let traps (n v d : Nat) (u : State) : Host.Outcome State Fault Refusal := .next (finish (addCycles c (n + 10) (raiseException c v d w u)))
    (a % 4 ≠ 0 → exec (.ldw c rd rs imm) s = traps 3 4 0 s ∧ exec (.stw c rd rs imm) s = traps 1 4 0 s ∧
      exec (.ldx c rd rs imm) s = traps 3 4 0 s) ∧
    (a % 2 ≠ 0 → exec (.ldh c rd rs imm) s = traps 3 4 0 s ∧ exec (.sth c rd rs imm) s = traps 1 4 0 s) ∧
    (a % 4 = 0 → mpuCheck s c (s.core c).ring 0 a = some d → exec (.ldw c rd rs imm) s = traps 3 8 d s) ∧
    (a % 4 = 0 → mpuCheck s c (s.core c).ring 1 a = some d → exec (.stw c rd rs imm) s = traps 1 8 d s) ∧
    (a % 4 = 0 → mpuCheck s c (s.core c).ring 0 a = none → busLoad c a 4 s = .err d t → exec (.ldw c rd rs imm) s = traps 3 6 d t) ∧
    (a % 4 = 0 → mpuCheck s c (s.core c).ring 1 a = none → ((s.core c).ring = 0 ∨ ringZeroOnly c a = false) → busStore c a 4 (s.rd c rd).toNat s = .err d t →
      exec (.stw c rd rs imm) s = traps 1 6 d t)

/-- R388, R389, R393, R400, R416. -/
def Obligations.CoreBranches : Prop :=
  ∀ (c : CoreId) (ra rb : RegF) (d : BitVec 16) (e : BitVec 26) (s : State), IssuesClean c s →
    let a := s.rd c ra
    let b := s.rd c rb
    let pc := (s.core c).pc
    let taken := addCycles c 2 (s.jump c (pc + 4 * d.signExtend 32))
    let passed := addCycles c 1 (s.jump c (pc + 4))
    exec (.beq c ra rb d) s = .next (finish (if a = b then taken else passed)) ∧
    exec (.bne c ra rb d) s = .next (finish (if a ≠ b then taken else passed)) ∧
    exec (.blt c ra rb d) s = .next (finish (if a.toInt < b.toInt then taken else passed)) ∧
    exec (.bge c ra rb d) s = .next (finish (if b.toInt ≤ a.toInt then taken else passed)) ∧
    exec (.bltu c ra rb d) s = .next (finish (if a.toNat < b.toNat then taken else passed)) ∧
    exec (.bgeu c ra rb d) s = .next (finish (if b.toNat ≤ a.toNat then taken else passed)) ∧
    exec (.jmp c e) s = .next (finish (addCycles c 2 (s.jump c (pc + 4 * e.signExtend 32)))) ∧
    (a.toNat % 4 = 0 → exec (.jmpr c ra) s = .next (finish (addCycles c 2 (s.jump c a)))) ∧
    (a.toNat % 4 ≠ 0 → exec (.jmpr c ra) s = .next (finish (addCycles c 12 (raiseException c 4 1 a s))))

/-- R377, R378. -/
def Obligations.CoreWindows : Prop :=
  ∀ (c : CoreId) (rs : RegF) (e : BitVec 26) (s : State), IssuesClean c s →
    let k := s.core c
    let called (t : Word) : State := (s.setCore c ((k.write c 23 (k.pc + 4)).slideForward c)).jump c t
    (k.res < c.frames - 2 →
      exec (.call c e) s = .next (finish
        (if (k.pc + 4 * e.signExtend 32).toNat % 4 = 0 then addCycles c 2 (called (k.pc + 4 * e.signExtend 32))
          else addCycles c 12 (raiseException c 4 1 (k.pc + 4 * e.signExtend 32) s))) ∧
      ((s.rd c rs).toNat % 4 = 0 → exec (.callr c rs) s = .next (finish (addCycles c 2 (called (s.rd c rs)))))) ∧
    (c.frames - 2 ≤ k.res →
      exec (.call c e) s = .next (finish (addCycles c 12 (raiseException c 9 0 0 s))) ∧
      exec (.callr c rs) s = .next (finish (addCycles c 12 (raiseException c 9 0 0 s)))) ∧
    (2 ≤ k.res → (s.rd c 7).toNat % 4 = 0 →
      exec (.ret c) s = .next (finish (addCycles c 2 ((s.setCore c (k.slideBack c)).jump c (s.rd c 7))))) ∧
    (k.res ≤ 1 → exec (.ret c) s = .next (finish (addCycles c 12 (raiseException c 10 0 0 s)))) ∧
    (k.res + 1 < 16 → (k.slideForward c).res = k.res + 1 ∧ (k.slideForward c).cwp = (k.cwp + 1) % c.frames)

/-- R382 to R387. -/
def Obligations.CoreSpecials : Prop :=
  ∀ (c : CoreId) (rd rs : RegF) (sel : BitVec 12) (s : State), Issues c s →
    let k := s.core c
    (k.ring = 0 → 1 ≤ sel.toNat → sel.toNat ≤ 15 → sel.toNat ≠ 14 →
      ∃ v, specialRead c k sel.toNat = some v ∧ exec (.mfs c rd sel) s = .next (finish (wrote c 1 rd v s))) ∧
    (k.ring = 0 → sel.toNat = 14 →
      exec (.mfs c rd sel) s = .next (finish (wrote c 1 rd (k.cycle.setWidth 32) (s.setCore c { k with cycleHi := (k.cycle >>> 32).setWidth 32 })))) ∧
    (sel.toNat = 0 ∨ 16 ≤ sel.toNat → exec (.mfs c rd sel) s = .next (finish (addCycles c 11 (raiseException c 1 3 0 s)))) ∧
    (k.ring = 0 → specialBad c k sel.toNat (s.rd c rs) = false →
      exec (.mts c rs sel) s = .next (finish (addCycles c 2 ((s.setCore c (specialWrite k sel.toNat (s.rd c rs))).advance c))) ∧
        specialRead c (specialWrite k sel.toNat (s.rd c rs)) sel.toNat = some (s.rd c rs) ∧
        ∀ n, n ≠ sel.toNat → specialRead c (specialWrite k sel.toNat (s.rd c rs)) n = specialRead c k n) ∧
    (specialBad c k sel.toNat (s.rd c rs) = true → exec (.mts c rs sel) s = .next (finish (addCycles c 12 (raiseException c 1 3 0 s)))) ∧
    (k.ring ≠ 0 → specialBad c k sel.toNat (s.rd c rs) = false →
      exec (.mts c rs sel) s = .next (finish (addCycles c 12 (raiseException c 2 1 0 s))))

/-- R379, R389, R392. -/
def Obligations.CoreSystem : Prop :=
  ∀ (c : CoreId) (ws : List Word) (s t : State), Issues c s →
    let k := s.core c
    (k.arithFlags = 0 → exec (.trapchk c) s = .next (finish (addCycles c 1 (s.advance c)))) ∧
    exec (.fenceInstruction c) s = .next (finish (addCycles c 1 (s.advance c))) ∧
    exec (.ifence c) s = .next (finish (addCycles c 1 (s.advance c))) ∧
    (k.ring = 0 → exec (.wfi c) s = .next (finish (addCycles c 1
      (s.setCore c { k with waiting := !(List.range 32).any (linePending s c), pc := k.pc + 4 })))) ∧
    (k.ring ≠ 0 → exec (.wfi c) s = .next (finish (addCycles c 11 (raiseException c 2 0 0 s)))) ∧
    (k.ring = 0 → 3 ≤ k.res → k.spilllim.toNat ≤ (k.spillp - 64).toNat →
      storeWords c (k.spillp - 64).toNat (k.frame (Core.oldest c k)) s = (none, t) →
      exec (.spillf c) s = .next (finish (addCycles c 17
        ((t.setCore c { k.setWindow k.cwp (k.res - 1) with spillp := k.spillp - 64 }).advance c)))) ∧
    (k.ring = 0 → k.res ≤ c.frames - 2 → loadWords c k.spillp.toNat 16 s = (.ok ws, t) →
      exec (.fillf c) s = .next (finish (addCycles c 17
        ((t.setCore c { (k.setFrame ((k.cwp + c.frames - k.res) % c.frames) ws).setWindow k.cwp (k.res + 1) with spillp := k.spillp + 64 }).advance c))))

/-- R391, R412, R414, R427: the own effect of BRK, UNDEFINED_INSTRUCTION and INTERRUPT is this entry. -/
def Obligations.CoreExceptionEntry : Prop :=
  ∀ (c : CoreId) (h : Nat) (s t : State),
    let k := s.core c
    let q (v d : Nat) : Entering := ⟨v, d, 0, k.pc, none, BitVec.ofNat 2 k.ring, .clear, none⟩
    (Issues c s → EntryOpen c (q 12 0) h s t →
      ∃ k', Entered c (q 12 0) h k k' ∧ bitAt k'.status 2 = false ∧ exec (.brk c) s = .next (finish (addCycles c 11 (t.setCore c k')))) ∧
    (∀ w d, illegalWord w = some d → Issues c s → EntryOpen c (q 1 d) h s t →
      ∃ k', Entered c (q 1 d) h k k' ∧ bitAt k'.status 2 = false ∧ exec (.undefinedInstruction c w) s = .next (finish (addCycles c 11 (t.setCore c k')))) ∧
    (∀ l, coreOn s c = true → interruptNow s c = some l →
      let u := if (l ≤ 2 ∨ l = 14 ∨ l = 15 ∨ l = 21) ∧ c ≠ .mgt then s.unline l else s
      let qi : Entering := ⟨16 + l, l, 0, k.pc, none, BitVec.ofNat 2 k.ring, .keep, some (linePriority u c l)⟩
      EntryOpen c qi h u t →
      ∃ k', Entered c qi h k k' ∧ bitAt k'.status 2 = bitAt k.status 2 ∧ fieldAt k'.status 6 4 = linePriority u c l ∧
        exec (.interrupt c) s = .next (finish (addCycles c 10 (t.setCore c k'))))

/-- R407, R408, R417, R418. -/
def Obligations.CoreGateAndReturn : Prop :=
  ∀ (c : CoreId) (n : Byte) (h : Nat) (target ctl : Word) (ws : List Word) (s t u : State),
    let k := s.core c
    let q : Entering := ⟨0, n.toNat, 0, k.pc + 4, some target, BitVec.ofNat 2 (min k.ring (fieldAt ctl 1 0)), if bitAt ctl 8 then .keep else .clear, none⟩
    (IssuesClean c s → loadWords c (k.gtbase.toNat + 8 * n.toNat) 2 s = (.ok [target, ctl], s) →
      bitAt ctl 31 = true → fieldAt target 1 0 = 0 → fieldAt ctl 30 9 = 0 → fieldAt ctl 4 2 = 0 → k.ring ≠ 0 → bitAt ctl (4 + k.ring) = true →
      fetchable c target.toNat = true → k.res < c.frames - 2 → EntryOpen c q h s t →
      ∃ k', Entered c q h k k' ∧ bitAt k'.status 2 = (bitAt ctl 8 && bitAt k.status 2) ∧
        exec (.gate c n) s = .next (finish (addCycles c 18 (t.setCore c k')))) ∧
    (IssuesRing0 c s → k.lockdown = false → 2 ≤ k.res → k.shadowTop ≤ fieldAt k.estatus 1 0 → k.spilllim.toNat ≤ k.spillp.toNat →
      loadWords c k.spillp.toNat 16 s = (.ok ws, u) →
      exec (.eret c) s = .next (finish (addCycles c 2 (u.setCore c { k.slideBack c with
        spillp := k.spillp + 64, pc := k.epc, status := k.estatus &&& ~~~ (0x1000 : Word), resv := none, shadow := k.shadow.tail,
        epc := ws.getD 0 0, estatus := ws.getD 1 0, ecause := ws.getD 2 0, eaddr := ws.getD 3 0 })))) ∧
    (IssuesRing0 c s → k.res ≤ 1 → exec (.eret c) s = .next (finish (addCycles c 12 (raiseException c 10 0 0 s)))) ∧
    (Issues c s → k.ring ≠ 0 → exec (.eret c) s = .next (finish (addCycles c 12 (raiseException c 2 0 0 s))))

/-- One step, with a command waiting and with none (idling is DESIGN CHOICE, log 3). -/
def Obligations.StepRunsFront : Prop :=
  (∀ (c : Instr) (s : State), step { s with pending := c :: s.pending } = exec c s) ∧
  ∀ s : State, s.pending = [] → step s = .next s

/-- The queue is first in, first out, and no command's effect touches it. -/
def Obligations.StepTakesFromFront : Prop :=
  ∀ s t : State, step s = .next t → t.pending = s.pending.tail

/-- Memory.wf is an invariant of the machine, from every state that meets it. -/
def Obligations.StepKeepsMemoryForm : Prop :=
  ∀ s t : State, Memory.wf s.mem = true → step s = .next t → Memory.wf t.mem = true

/-- No command of the table stops the machine. -/
def Obligations.StepGoesOn : Prop :=
  (∀ (c : Instr) (rest : List Instr) (s : State), s.pending = c :: rest → c.wellFormed = true → ∃ t, step s = .next t) ∧
  ∀ (k : CoreId) (w : Word) (s : State), illegalWord w = none →
    exec (.undefinedInstruction k w) s = .refused (.illFormed "UNDEFINED_INSTRUCTION")

/-- What `finish` adds to a command's own effect: nothing in a settled state, and nothing but fault evaluations while the custody planes are down. -/
def Obligations.SettledStatesStand : Prop :=
  ∀ s : State, s.fault.inputs = [] → (s.fault.mateAfterCastling = true → castlingRuns s = true) → revertive s = s.pair.holdFrom.isSome →
    (awake s = false → finish s = s) ∧
    ((∀ e ∈ s.reader.events, e.isSlot = true) → leverReady s = false → s.mgmtp.frames = [] → s.cqe.held = [] → s.cqe.inflight = [] → s.ktab.reserves = [] → s.pair.shelfWait = [] → s.pair.castling = .none →
      s.pke.ownSign = .idle → s.journal.sinceCkpt = s.journal.next →
      (∀ q ∈ s.cqe.queues, q.sqHead = q.sqTail) → finish s = s)

/-- Values the spec states for reset. -/
def Obligations.ResetStandsAsStated : Prop :=
  let s := State.reset
  s.power.rstCause = 1 ∧ s.lifecycle = .blank ∧ s.fault = FaultBlk.reset ∧ s.cqe.queues = [] ∧ s.cqe.inflight = [] ∧ s.lanes.streams = [] ∧
  s.ktab.cache = [] ∧ KeysCleared s ∧ s.kiln.reservoir = 3300 ∧ s.kiln.latch = false ∧ s.regs = [] ∧ s.mem = [] ∧ s.journal.next = 0 ∧
  (∀ c : CoreId, let k := s.core c
    k.pc = 0 ∧ k.ring = 0 ∧ k.vbase = 0x0001FF00 ∧ k.wstate = 0x00010000 ∧ k.xsp = 0xF0004000 ∧ k.ctrl = 0 ∧ k.gtbase = 0 ∧ k.resv = none) ∧
  s.cores.ccB.released = false ∧ s.cores.ccA.released = true ∧
  (∀ v ∈ s.port0.msix, v.masked = true ∧ v.pending = false) ∧ s.port0.enabled = false ∧ s.port1 = s.port0 ∧ s.tag.session = none ∧
  Memory.wf s.mem = true ∧ s.pending = []

/-- One source raised in one evaluation. -/
def Obligations.FaultRecordRules : Prop :=
  ∀ (combined : Bool) (i : FaultIn) (s : State),
    let n := i.report.source
    let waits : Prop := ∃ u ∈ s.fault.unacked, u.cls = srcClass s n
    let r := (recordFault combined i s).1
    let t := (recordFault combined i s).2
    (srcMasked s n = true → r.applied = .log ∧ r.masked = true ∧ r.escalated = false) ∧
    (srcMasked s n = false →
      (¬ waits → checkTimers s < 16 → r.applied = srcLevel s n ∧ r.escalated = false) ∧
      (waits → checkTimers s < 16 → r.applied = raiseLevel (srcClass s n) (srcLevel s n) ∧
        (r.escalated = true ↔ raiseLevel (srcClass s n) (srcLevel s n) ≠ srcLevel s n)) ∧
      (srcLevel s n = .log → r.applied = .log ∧ r.escalated = false) ∧
      (16 ≤ checkTimers s → r.applied ≠ .check) ∧
      (srcClass s n ≠ .security → srcLevel s n ≠ .kiln → r.applied ≠ .kiln)) ∧
    r.seq = s.fault.next ∧ t.fault.next = s.fault.next + 1 ∧ r.source = n ∧ r.combined = combined ∧ n ∈ t.fault.seen ∧
    (r.acked = true ↔ r.applied ≠ .fence ∧ r.applied ≠ .check) ∧
    t.fault.unacked = s.fault.unacked ++ (if r.acked then [] else [⟨r.seq, n, r.cls, r.applied, r.applied == .check⟩]) ∧
    t.lines = s.lines ||| (if 2 ≤ Level.code r.applied then 8 else 16) ∧
    (s.fault.log.length < 256 → t.fault.log = s.fault.log ++ [r]) ∧
    ({ t with fault := s.fault, lines := s.lines, cqe := s.cqe } : State) = s

/-- Accepted is what R120 asks of an entry; the body runs on the state it leaves. -/
def Obligations.EntryAccepted : Prop :=
  ∀ (op : BitVec 16) (src : Source) (e : Entry) (s t : State) (c : Inflight), Accepted op src e s c t →
    submit op src e s = runBody false c t ∧ c.op = op ∧ c.src = src ∧ c.entry = e ∧
    ((∀ d ∈ s.cqe.inflight, d.key ≠ c.key) → t.command c.key = some { c with wait := .running })

/-- Steps 1 to 10 of R120 for the entry as it is judged. -/
def Obligations.EntryRefused : Prop :=
  (∀ (op : BitVec 16) (e : Entry) (x : Word),
    integrity false op e x = 3 ∧
    (crc32c ((entryBytes op e).take 60) ≠ e.crc → integrity true op e x = 1) ∧
    (crc32c ((entryBytes op e).take 60) = e.crc → e.seq ≠ x → integrity true op e x = 2) ∧
    (crc32c ((entryBytes op e).take 60) = e.crc → e.seq = x → integrity true op e x = 0)) ∧
  (∀ (op : BitVec 16) (src : Source) (e : Entry) (auth : Bool) (r : OpRow) (s : State),
    (opRow op = none → firstChecks s op src e auth = some (answer 0x2001 [])) ∧
    (opRow op = some r → s.power.safe = true → op ≠ 0x0001 → op ≠ 0x0005 → op ≠ 0x0701 → op ≠ 0x0F01 →
      firstChecks s op src e auth = some (answer 0x6001 [])) ∧
    (opRow op = some r → s.power.safe = false →
      (∀ n, transportRefusal op r auth src = some n → firstChecks s op src e auth = some (answer 0x4001 [(12, n)])) ∧
      (transportRefusal op r auth src = none →
        (∀ off, reservedOffset (setTimeGranted s e) op src e = some off → firstChecks s op src e auth = some (answer 0x2002 [(12, off)])) ∧
        (reservedOffset (setTimeGranted s e) op src e = none → e.tag = 0xFFFF ∨ tagInUse s src e.tag = true → firstChecks s op src e auth = some (answer 0x2002 [(12, 4)])) ∧
        (reservedOffset (setTimeGranted s e) op src e = none → e.tag ≠ 0xFFFF → tagInUse s src e.tag = false →
          (wrongQueue s op src e = true → firstChecks s op src e auth = some (answer 0x2005 [(12, 7)])) ∧
          (wrongQueue s op src e = false → e.durable = true → s.clock.valid = false → op ≠ 0x0004 →
            firstChecks s op src e auth = some (answer 0x2005 [(12, 6)])) ∧
          (wrongQueue s op src e = false → (e.durable = true → s.clock.valid = true ∨ op = 0x0004) → e.durable = true → tailFull s.journal = true →
            firstChecks s op src e auth = some (answer 0x3008 [])))))) ∧
  (∀ (c : Inflight) (auth : Bool) (r : Result) (s : State),
    (firstChecks (without c s) c.op c.src c.entry auth = some r → r.status ≠ 0x2001 → r.status ≠ 0x3008 → judge c auth s = complete c.key r s) ∧
    (firstChecks (without c s) c.op c.src c.entry auth = none → stateChecks c.op.toNat c.src c.entry c.key s = .error r →
      judge c auth s = complete c.key r s))

/-- What `complete` does (solo or pair, recovery over, not durable), and what posting stores: the bytes are computed from the queue the meaning uses. -/
def Obligations.CompletionRecordedAndPosted : Prop :=
  (∀ (key : Nat) (r : Result) (c : Inflight) (s : State), s.command key = some c →
    s.journals = true → 0 < s.journal.next → s.journal.recovery = false → c.entry.durable = false → r.deltas = [] →
    let t := complete key r s
    t.cqe.inflight = s.cqe.inflight.filter (fun d => d.key != key) ∧
    t.journal.recs = ⟨false, c.src.code, s.journal.next, s.clock.time, .complete c.entry.seq c.entry.tag c.op r.status r.result [], namedStream c.op c.entry⟩ :: s.journal.recs ∧
    t.journal.next = s.journal.next + 1 ∧
    (∃ h : Held, t.cqe.held = s.cqe.held ++ [h] ∧ h.kind = .final ∧ h.src = c.src ∧ h.key = key ∧ h.seq = c.entry.seq ∧ h.accRec = c.accRec ∧
      h.compRec = some s.journal.next ∧ h.comp.tag = c.entry.tag ∧ h.comp.status = r.status ∧ h.comp.sqid = c.src.code ∧
      h.comp.sqhead = c.sqhead ∧ h.comp.result = r.result ∧ h.comp.untrusted = (r.untrusted || outputUntrusted c.op r.status)) ∧
    (∀ x ∈ t.vault.sessions, x.reserved ≠ some key) ∧
    t.ktab = s.ktab ∧ t.clock = s.clock ∧ t.nvm = s.nvm ∧ t.journal.manifests = s.journal.manifests ∧ t.journal.staged = s.journal.staged ∧
    t.lanes = s.lanes ∧ t.mem = s.mem ∧ t.regs = s.regs ∧ t.cores = s.cores ∧ t.fault = s.fault ∧ t.power = s.power) ∧
  ∀ (q : Nat) (c : Completion) (x : Queue) (s : State), s.queue q = some x →
    let t := postToQueue q c s
    let base := memKey (4 + q / 64) (x.cqBase.toNat + 32 * x.cqTail)
    (c.bytes x.phase).length = 32 ∧
    (∀ k, k < 32 → memGet t.mem (base + k) = (c.bytes x.phase).getD k 0) ∧
    (∀ a, a < base ∨ base + 32 ≤ a → memGet t.mem a = memGet s.mem a) ∧
    (∃ y, t.queue q = some y ∧ y.cqTail = (if x.cqTail + 1 = x.cqEntries then 0 else x.cqTail + 1) ∧
      y.phase = (if x.cqTail + 1 = x.cqEntries then !x.phase else x.phase) ∧ y.unreleased = x.unreleased + 1 ∧ y.sqHead = x.sqHead ∧ y.expSeq = x.expSeq) ∧
    (x.intr = false ∨ (s.port (q / 64)).msixEnable = false → t.port0 = s.port0 ∧ t.port1 = s.port1) ∧
    (∀ v, x.intr = true → (s.port (q / 64)).msixEnable = true → (s.port (q / 64)).msix[x.vector]? = some v →
      (v.masked = false → (s.port (q / 64)).functionMask = false → (t.port (q / 64)).sent = (s.port (q / 64)).sent ++ [(v.addr, v.data)]) ∧
      (v.masked = true ∨ (s.port (q / 64)).functionMask = true → (t.port (q / 64)).msix[x.vector]? = some { v with pending := true } ∧ (t.port (q / 64)).sent = (s.port (q / 64)).sent)) ∧
    t.journal = s.journal ∧ t.fault = s.fault ∧ t.regs = s.regs ∧ t.cores = s.cores

/-- R109, R110. The stored bytes are those the host gives, in the memory behind its port. -/
def Obligations.PortDoorbells : Prop :=
  ∀ (p : Fin 2) (q : Fin 64) (v : Word) (stores : List HostStore) (bad : List Nat) (s : State),
    let qid := 64 * p.val + q.val
    let u := stores.foldl (fun (u : State) (x : HostStore) => u.writeBytes (4 + p.val) x.addr x.bytes) s
    let w := tlpArrives p.val u
    let d := tlpArrives p.val s
    portAlive s p.val = true →
    (s.power.mode = .run → w = u.setPort p.val { s.port p.val with lstate := .l0 } ∧ d = s.setPort p.val { s.port p.val with lstate := .l0 }) ∧
    (∀ x, w.queue qid = some x →
      (v.toNat < x.sqEntries →
        exec (.sqTailDoorbell p q v stores bad) s = .next (finish { w with cqe := { w.cqe with
          queues := w.cqe.queues.map (fun y => if y.qid = qid then { y with sqTail := v.toNat } else y)
          poison := w.cqe.poison ++ bad.map (fun i => (qid, i)) } })) ∧
      (x.sqEntries ≤ v.toNat → exec (.sqTailDoorbell p q v stores bad) s = .next (finish
        (unsolicited (.queue qid) 0xFFFF 0x6004 0 [(12, v.toNat), (16, x.sqTail), (20, 4), (21, 0)] (w.raiseAt 183 (.port (qid / 64)) 0 0))))) ∧
    (∀ x, d.queue qid = some x →
      (v.toNat < x.cqEntries → x.cqHead < x.cqEntries →
        let freed := if v.toNat = x.cqHead ∧ x.cqEntries ≤ x.unreleased then x.cqEntries else (v.toNat + x.cqEntries - x.cqHead) % x.cqEntries
        exec (.cqHeadDoorbell p q v) s = .next (finish { d with cqe := { d.cqe with
          queues := d.cqe.queues.map (fun y => if y.qid = qid then { y with cqHead := v.toNat, unreleased := y.unreleased - freed } else y) } })) ∧
      (x.cqEntries ≤ v.toNat → exec (.cqHeadDoorbell p q v) s = .next (finish
        (unsolicited (.queue qid) 0xFFFF 0x6004 0 [(12, v.toNat), (16, x.cqHead), (20, 4), (21, 1)] (d.raiseAt 183 (.port (qid / 64)) 0 0))))) ∧
    (w.queue qid = none → exec (.sqTailDoorbell p q v stores bad) s = .next (finish (w.raiseAt 183 (.port p.val) 0 0))) ∧
    (d.queue qid = none → exec (.cqHeadDoorbell p q v) s = .next (finish (d.raiseAt 183 (.port p.val) 0 0)))

/-- R105, R158; R124 for the mirror's bound. -/
def Obligations.PortBringUp : Prop :=
  (∀ (p : Fin 2) (v : Word) (u : State), portAlive u p.val = true →
    let w := tlpArrives p.val u
    let s := if v.toNat < 2 then w else setStatusBits (barBase p.val) 1 w
    let h := s.port p.val
    let cq := fieldAt h.admSize 27 16
    let sq := fieldAt h.admSize 11 0
    let good : Prop := portReady s = true ∧ cq ≠ 0 ∧ sq ≠ 0 ∧ h.admSq.toNat % 4096 = 0 ∧ h.admCq.toNat % 4096 = 0
    (bitAt v 0 = true → h.enabled = false → good → exec (.portCtlEnable p v) u =
      .next (finish (openQueue (freshQueue (64 * p.val) h.admSq h.admCq (sq + 1) (cq + 1) 0 0 false true 0) (s.setPort p.val { h with enabled := true })))) ∧
    (bitAt v 0 = true → h.enabled = false → ¬ good → exec (.portCtlEnable p v) u = .next (finish (s.setPort p.val { h with cfgError := true }))) ∧
    (bitAt v 0 = true → h.enabled = true → exec (.portCtlEnable p v) u = .next (finish s)) ∧
    (bitAt v 0 = false → exec (.portCtlEnable p v) u = .next (finish (flrPort p.val s)))) ∧
  (∀ (q : Queue) (s : State), q.events = false →
    let t := openQueue q s
    let made : Queue := { q with since := s.journal.next, keyless := s.vault.keyless }
    made ∈ t.cqe.queues ∧ (∀ x ∈ t.cqe.queues, x = made ∨ x ∈ s.cqe.queues) ∧ t.cqe.held = s.cqe.held.map (boundarySeq made) ∧
    ({ t with cqe := s.cqe } : State) = s) ∧
  ∀ (n : Nat) (s : State), s.pairMode = true → s.journal.acked ≤ n → n < s.journal.next → n ∉ s.cqe.lateAcks →
    exec (.acceptMirrorTimeout n) s = .next (finish (({ s with cqe := { s.cqe with lateAcks := s.cqe.lateAcks ++ [n] } } : State).raise 182))

/-- R160 to R165, R169. -/
def Obligations.PortBusEvents : Prop :=
  (∀ (p : Fin 2) (s : State),
    let t := flrPort p.val s
    (∀ q ∈ t.cqe.queues, q.qid / 64 ≠ p.val) ∧ (t.port p.val).enabled = false ∧ (t.port p.val).cfgError = false ∧ (t.port p.val).admSize = 0 ∧
    (t.port p.val).msix = HostPort.reset.msix ∧ bitAt t.power.rstCause (5 + p.val) = true) ∧
  (∀ (p stream : Fin 2) (sub : Bool) (speed width : Nat) (s : State),
    let h := s.port p.val
    let off (k : HostPort) : HostPort := { cfgAfterHot k with linkUp := false, speed := 0, width := 0, lstate := .l0, ide := [], spdm := .none, transcript := [] }
    let awaken : HostPort := { h with d3hot := false }
    let noMaster := s.setPort p.val (h.setCfg 0x04 (h.cfgWord 0x04 &&& ~~~ 4))
    (let u := flrPort p.val (s.setPort p.val awaken);
      exec (.hostFlr p .flr) s = .next (finish (u.setPort p.val (cfgAfterFlr (u.port p.val))))) ∧
    exec (.hostFlr p .hotReset) s = .next (finish (flrPort p.val (s.setPort p.val (off awaken)))) ∧
    (let u := flrPort p.val (s.setPort p.val (off awaken));
      exec (.hostFlr p .perst) s = .next (finish (u.setPort p.val { u.port p.val with cfg := [] }))) ∧
    (h.enabled = true → exec (.busMasterDisable p) s = .next (finish (flrPort p.val noMaster))) ∧
    (h.enabled = false → exec (.busMasterDisable p) s = .next (finish noMaster)) ∧
    exec (.d3hotEntry p) s = .next (finish (flrPort p.val (s.setPort p.val { h with d3hot := true }))) ∧
    exec (.d3hotExit p) s = .next (finish (s.setPort p.val { cfgAfterFlr { h with
      enabled := false, cfgError := false, admSq := 0, admCq := 0, admSize := 0, msix := HostPort.reset.msix } with d3hot := false })) ∧
    (h.linkUp = true → exec (.surpriseDown p) s =
      .next (finish ((flrPort p.val (s.setPort p.val (off h))).raiseAt (176 + p.val) (.port p.val) 0 0))) ∧
    (let w := s.setPort p.val { h.aerError 0x10000000 with ide := h.ide.map (fun (e : IdeKey) => if e.stream = stream.val then { e with active := false } else e) };
      (ideRequired s p.val = true → exec (.ideCheckFail ⟨p, stream⟩) s = .next (finish ((flrPort p.val w).raiseAt 179 (.port p.val) 0 0))) ∧
      (ideRequired s p.val = false → exec (.ideCheckFail ⟨p, stream⟩) s = .next (finish w))) ∧
    (h.linkUp = true → h.aspmL1 = true → bitAt (s.reg (hostpBase p.val + 8) 2) 1 = true → portIdle s p.val = true →
      exec (.aspmL1Entry p sub) s = .next (finish (s.setPort p.val { h with
        lstate := if sub = true ∧ h.substates.1 = true then .l12 else if sub = true ∧ h.substates.2 = true then .l11 else .l1 }))) ∧
    (linkOpen s p.val = true → exec (.aspmL1Exit p) s = .next (finish (tlpArrives p.val s)) ∧
      (s.power.mode = .run → tlpArrives p.val s = s.setPort p.val { h with lstate := .l0 })) ∧
    (s.isFenced 3 p.val = false → h.linkUp = false → s.power.supply = .running → s.power.mode = .run → portClock s p.val = true → 1 ≤ speed →
      let sp := max 1 (min speed (5 - fieldAt (s.reg (hostpBase p.val + 8) 2) 3 2))
      let up := s.setPort p.val { h with linkUp := true, speed := sp, width := min width 8, lstate := .l0 }
      exec (.hostLinkUp p speed width) s = .next (finish (if sp < 5 ∨ width < 8 then up.raiseAt 184 (.port p.val) 0 0 else up)))) ∧
  ∀ (q : Nat) (tag : BitVec 16) (el : DmaElement) (c : Inflight) (s : State), q < 128 →
    s.cqe.inflight.find? (fun c => c.src == .queue q && c.entry.tag == tag) = some c →
    let a := complete c.key (answer 0x2007 [(12, el.index.toNat)])
      (dropLaneKeys [c.key] (dropCardJob c.key (dropWired c.key (dropLabelJob c.key (dropEntropy c s)))))
    let b := match c.wait with | .lane m => dmaStream el.list m c a | _ => a
    exec (.dmaReadError (.queue q) tag el) s = .next (finish
      ((b.setPort (q / 64) (dmaFailure el.how (b.port (q / 64)))).raiseAt 178 (.port (q / 64)) 0 0))

/-- R144, R145, R172 to R177. The layouts of GETMWL and GETMRL and the event bit are the model's (PRESUMED, log 40). -/
def Obligations.ManagementPort : Prop :=
  ∀ (b : List Byte) (n : Nat) (addr : BitVec 7) (ev : Byte) (s : State), mgmtUp s = true →
    let m := s.mgmtp
    let frame (x : List Byte) : List Byte := (leBytes 2 x.length ++ x) ++ leBytes 2 (crc16 (leBytes 2 x.length ++ x)).toNat
    let cut (y : List Byte) : List Byte := (if m.dynAddr.isSome then y else padTo n y).take n
    let x := entryOf (slice b 2 64)
    let reads (y : List Byte) : Host.Outcome State Fault Refusal := .next (finish { s with mgmtp := { m with readBytes := y } })
    (∀ c t, s.power.mode = .run → b.length = 68 → fieldOf b 0 2 = 64 → (crc16 (b.take 66)).toNat = fieldOf b 0x42 2 → Accepted x.1 .mgmt x.2 s c t →
      exec (.mgmtFrameWrite (.frame b)) s = .next (finish (runBody false c t))) ∧
    (8 ≤ mgmtPending s → exec (.mgmtFrameWrite (.frame b)) s = .next (finish s)) ∧
    (s.power.mode = .run → mgmtPending s < 8 → m.dynAddr.isSome = true → exec (.mgmtFrameWrite .broken) s =
      .next (finish (({ s.raise 187 with mgmtp := { m with lenFails := satInc 16 m.lenFails } } : State).raise 186))) ∧
    (s.power.mode = .run → mgmtPending s < 8 → b.length ≠ 68 → exec (.mgmtFrameWrite (.frame b)) s =
      .next (finish (({ s with mgmtp := { m with lenFails := satInc 16 m.lenFails } } : State).raise 186))) ∧
    (s.power.mode = .run → mgmtPending s < 8 → b.length = 68 → fieldOf b 0 2 = 64 → (crc16 (b.take 66)).toNat ≠ fieldOf b 0x42 2 → exec (.mgmtFrameWrite (.frame b)) s =
      .next (finish (({ s with mgmtp := { m with crcFails := satInc 16 m.crcFails } } : State).raise 186))) ∧
    (∀ r rs, m.responses = r :: rs → exec (.mgmtFrameRead n) s =
      .next (finish { s with mgmtp := { m with responses := rs, readBytes := cut (frame r) } })) ∧
    (m.responses = [] → exec (.mgmtFrameRead n) s = reads (cut (frame []))) ∧
    (m.dynAddr = none → exec .mgmtSclTimeout s = .next (finish { s with mgmtp := { m with dynAddr := none, ibi := false } })) ∧
    (m.dynAddr = none → i2cOnly s = false →
      exec (.entdaa addr) s = .next (finish { s with mgmtp := { m with dynAddr := some addr } }) ∧
      exec (.setdasa addr) s = .next (finish { s with mgmtp := { m with dynAddr := some addr } }) ∧
      exec .setaasa s = .next (finish { s with mgmtp := { m with dynAddr := some (0x48 + (s.power.bayId.setWidth 7 &&& 7)) } })) ∧
    exec .rstdaa s = .next (finish { s with mgmtp := { m with dynAddr := none } }) ∧
    (bitAt ev 0 = true →
      exec (.enec ev) s = .next (finish { s with mgmtp := { m with ibi := true } }) ∧
      exec (.disec ev) s = .next (finish { s with mgmtp := { m with ibi := false } })) ∧
    exec .getpid s = reads (beBytes 6 (Config.manufacturerId.toNat * 2 ^ 33 + 0x8017 * 2 ^ 16 + Config.serial.toNat % 65536)) ∧
    exec .getbcr s = reads [0x06] ∧ exec .getdcr s = reads [0x00] ∧
    exec .getmwl s = reads [0x00, 0x44] ∧ exec .getmrl s = reads [0x00, 0x24, 0x01] ∧
    exec .getstatus s = .next (finish { s with freeCtr := s.freeCtr + 1, mgmtp := { m with readBytes := [Config.freeBytes s.freeCtr 0, Config.freeBytes s.freeCtr 1] } }) ∧
    exec (.rstact 0) s = .next (finish { s with mgmtp := { m with dynAddr := none, ibi := false } }) ∧
    (∀ a : Byte, a ≠ 0 → exec (.rstact a) s = .next (finish s))

/-- R167, R168. The stage a request needs and the messages' layout follow SPDM 1.2 (PRESUMED, log 41, log 135). -/
def Obligations.SpdmSession : Prop :=
  ∀ (p : Fin 2) (req : List Byte) (s : State),
    ((linkOpen s p.val && s.power.booted) = false → exec (.getVersion p req) s = .next (finish s) ∧ exec (.keyExchange p req) s = .next (finish s)) ∧
    (linkOpen s p.val = true → s.power.booted = true →
    let w := tlpArrives p.val s
    let h := w.port p.val
    let put (k : HostPort) : Host.Outcome State Fault Refusal := .next (finish (w.setPort p.val k))
    let replies (code : Nat) (r : List Byte) (st : Spdm) : Host.Outcome State Fault Refusal :=
      let a := spdmAnswer code r h (streamSecure h) w
      put { h with spdm := st, transcript := h.transcript ++ r ++ a, response := a }
    let errs : Host.Outcome State Fault Refusal := put { h with response := spdmError }
    exec (.getVersion p req) s = put { h with spdm := .versioned, transcript := req ++ spdmVersion, response := spdmVersion } ∧
    (h.spdm = .versioned → exec (.getCapabilities p req) s = replies 0xE1 req .capable) ∧
    (h.spdm ≠ .versioned → exec (.getCapabilities p req) s = errs) ∧
    (h.spdm = .capable → exec (.negotiateAlgorithms p req) s = replies 0xE3 req .negotiated) ∧
    (h.spdm = .negotiated ∨ h.spdm = .exchanged ∨ h.spdm = .secured →
      exec (.getDigests p req) s = replies 0x81 req h.spdm ∧ exec (.challenge p req) s = replies 0x83 req h.spdm ∧
      exec (.getMeasurements p req) s = replies 0xE0 req h.spdm ∧
      ∀ slot off len, exec (.getCertificate p slot off len) s = put { h with response := certificatePart slot off len }) ∧
    (h.spdm = .negotiated → exec (.keyExchange p req) s = replies 0xE4 req .exchanged) ∧
    (h.spdm = .exchanged → Config.spdmFinishOk h.transcript req = true → exec (.finish p req) s = replies 0xE5 req .secured) ∧
    (h.spdm = .exchanged → Config.spdmFinishOk h.transcript req = false → exec (.finish p req) s = errs) ∧
    (h.spdm = .secured →
      exec (.spdmHeartbeat p) s = replies 0xE8 [] .secured ∧ exec (.keyUpdate p) s = replies 0xE9 [] .secured ∧ exec (.ideKmQuery p) s = replies 0x100 [] .secured ∧
      exec (.endSession p) s = (let a := spdmAnswer 0xEC [] h (streamSecure h) w;
        put { h with spdm := .negotiated, transcript := h.transcript ++ [] ++ a, response := a, ide := [] })) ∧
    (∀ (st sub : Nat) (ks tx : Bool) (key : Hash) (iv : DWord),
      let mine (e : IdeKey) : Prop := e.stream = st ∧ e.sub = sub ∧ e.tx = tx
      let ack := ideGoStopAck (h.streamId st) ks sub tx
      (h.spdm = .secured → st < 2 → sub < 3 →
        exec (.keyProg p true st ks sub tx key iv) s = put { h with
          response := ideKeyAck (h.streamId st) 0 ks sub tx
          ide := h.ide.filter (fun e => !(e.stream == st && e.keySet == ks && e.sub == sub && e.tx == tx)) ++ [⟨st, ks, sub, tx, key, iv, false⟩] }) ∧
      (h.spdm = .secured → 2 ≤ st ∨ 3 ≤ sub →
        exec (.keyProg p true st ks sub tx key iv) s = put { h with response := ideKeyAck (h.streamId st) 3 ks sub tx }) ∧
      exec (.keyProg p false st ks sub tx key iv) s = put { h with ide := [], response := spdmError } ∧
      (h.spdm = .secured → (∃ e ∈ h.ide, mine e ∧ e.keySet = ks) →
        ∃ ide' : List IdeKey, exec (.kSetGo p st ks sub tx) s = put { h with response := ack, ide := ide' } ∧ ide'.length = h.ide.length ∧
          ∀ (n : Nat) (e : IdeKey), h.ide[n]? = some e → (mine e → ide'[n]? = some { e with active := e.keySet == ks }) ∧ (¬ mine e → ide'[n]? = some e)) ∧
      (h.spdm = .secured → (¬ ∃ e ∈ h.ide, mine e ∧ e.keySet = ks) → exec (.kSetGo p st ks sub tx) s = put { h with response := ack }) ∧
      (h.spdm = .secured →
        ∃ ide' : List IdeKey, exec (.kSetStop p st ks sub tx) s = put { h with response := ack, ide := ide' } ∧ ide'.length = h.ide.length ∧
          ∀ (n : Nat) (e : IdeKey), h.ide[n]? = some e → (mine e ∧ e.keySet = ks → ide'[n]? = some { e with active := false }) ∧ (¬ (mine e ∧ e.keySet = ks) → ide'[n]? = some e))) ∧
    (∀ i, i < 3 → exec (.doeDiscovery p i) s = put { h with response := [0x01, 0x00, BitVec.ofNat 8 i, BitVec.ofNat 8 ((i + 1) % 3)] }) ∧
    (∀ i, 3 ≤ i → exec (.doeDiscovery p i) s = put { h with response := [0xFF, 0xFF, 0x00, 0x00] }))

/-- R222, R240, R245, R246, R248. R21 to R23, R235, R252. `u` is the state with LANE_MB_KH written. -/
def Obligations.LaneUnits : Prop :=
  (∀ (n : Fin 4) (h : BitVec 16) (x : Stream) (s : State), s.stream h.toNat = some x →
     let cleared (u : State) (f : Lane → Lane) : State := u.setLane x.lane (fun l => f (clearSlotsOf h.toNat l))
     (lanesRun s = true → (s.lane n.val).queue ≠ [] → exec (.laneWatchdog n) s = .next (finish (s.raiseAt (87 + 8 * n.val) (.lane n.val) 0 0))) ∧
     (lanesRun s = true → x.state = .idle →
       exec (.streamPark1 h) s = .next (finish ((cleared s id).setStream h.toNat (fun y => { y with state := .park1 })))) ∧
     (lanesRun s = true → x.state = .park1 → parkedCount s < 4096 →
       exec (.streamPark2 h) s = .next (finish
         ((cleared s (fun l => { l with parkCnt := l.parkCnt + 1 })).setStream h.toNat (fun y => { y with state := .park2, entry := none })))) ∧
     (awake s = true → x.state ≠ .run → h ≠ 0 → 32768 * x.lifetime < idleTime s x → parkedCount s < 4096 →
       ∃ t, exec (.streamExpiry h) s = .next (finish (unsolicited (.queue x.queue) x.openTag 0x7001 x.openSeq [(12, x.openSeq.toNat)] t)) ∧
         t.stream h.toNat = none ∧ t.lanes.ended = (⟨x.handle, 0x7001, x.openSeq, x.lane⟩ :: s.lanes.ended).take 1024 ∧
         t.lanes.streams = s.lanes.streams.filter (fun y => y.handle != x.handle) ∧ t.mem = s.mem ∧ t.ktab = s.ktab ∧ t.cqe = s.cqe)) ∧
  ((∀ (n slot entry : Nat) (kh : Word) (e : CacheEntry) (s : State), n < 4 → slot < 2 → entry < 64 → ¬ (entry = 63 ∧ kh = 0) →
     let u := s.setReg (laneBase n + 0x14) kh
     let done (r : Nat) (t : State) : Host.Outcome State Fault Refusal := .next (finish (mbResult n r t))
     let opens (t : State) : Host.Outcome State Fault Refusal := .next (finish (mbLoad n kh t))
     let load (m : LoadMode) : Host.Outcome State Fault Refusal := exec (.load n slot m entry kh) s
     let key (t : State) (h : Nat) : State := loadSlot n slot h kh t
     let iv := (u.reg (laneBase n + 0x18) 0).toNat + (u.reg (laneBase n + 0x1C) 0).toNat * 2 ^ 32
     let open_ (t : State) (isSeal : Bool) (v : Nat) (fixed : Word) : State :=
       { t with lanes := { t.lanes with streams := t.lanes.streams ++ [rawContext n entry isSeal kh (BitVec.ofNat 64 v) fixed] } }
     (s.ktab.cache.find? (fun e => e.index == khIndex kh) = none → ∀ m, load m = done 2 u) ∧
     (s.ktab.cache.find? (fun e => e.index == khIndex kh) = some e →
       (e.gen ≠ khGen kh → ∀ m, load m = done 3 (u.raise 64)) ∧
       (e.gen = khGen kh →
         (slotIdle s n ((s.lane n).slot slot) = false → ∀ m, load m = done 1 u) ∧
         (slotIdle s n ((s.lane n).slot slot) = true →
           (∀ x, contextAt s n entry = some x → x.kh = kh → load .reload = opens (key u x.handle)) ∧
           (∀ x, contextAt s n entry = some x → load .openSeal = done 4 u ∧ load .openUnseal = done 4 u) ∧
           (contextAt s n entry = none →
             load .reload = done 4 u ∧
             (iv < 2 ^ 48 - 1 → load .openUnseal = opens (key (open_ u false iv (u.reg (laneBase n + 0x20) 0)) 0)) ∧
             (2 ^ 48 - 1 ≤ iv → load .openUnseal = done 6 (u.raiseAt (83 + 8 * n) (.lane n) 0 0)) ∧
             (takeUnbound kh u = (none, u) → load .openSeal = done 5 u) ∧
             (∀ v t, takeUnbound kh u = (some v, t) → v < 2 ^ 48 - 1 →
               load .openSeal = opens (key (open_ t true v (t.ktab.record (khIndex kh)).fixed) 0))))))) ∧
   (∀ (n : Nat) (kh : Word) (s : State), n < 4 → s.lanes.lanes.length = 4 →
     let t := mbLoad n kh s
     (t.lane n).mbRun = true ∧ (t.lane n).mbDone = false ∧ (t.lane n).mbResult = 0 ∧ (t.lane n).mbIndex = some (khIndex kh) ∧
     (∀ e ∈ t.ktab.cache, e.index = khIndex kh → e.held = true) ∧ t.ktab.records = s.ktab.records ∧ t.lanes.streams = s.lanes.streams ∧ t.mem = s.mem) ∧
   (∀ (n slot : Nat) (m : LoadMode) (entry : Nat) (kh : Word) (s : State), 4 ≤ n →
     exec (.load n slot m entry kh) s = .next (finish (s.raise 64)) ∧ exec (.clear n slot true entry kh) s = .next (finish (s.raise 64))) ∧
   (∀ (n slot : Nat) (h : Nat) (kh : Word) (s : State), n < 4 → s.lanes.lanes.length = 4 → slot < 2 →
     let t := loadSlot n slot h kh s
     (t.lane n).slot slot = some ⟨kh, (s.ktab.record (khIndex kh)).dek, h⟩ ∧ (t.lane n).slot (1 - slot) = (s.lane n).slot (1 - slot) ∧
     (∀ m, m ≠ n → t.lane m = s.lane m) ∧ t.lanes.streams = s.lanes.streams ∧ t.mem = s.mem) ∧
   (∀ (n slot entry : Nat) (release : Bool) (kh : Word) (s : State), n < 4 → slot < 2 → wrongGeneration s kh = true →
     exec (.clear n slot release entry kh) s = .next (finish (mbResult n 3 ((s.setReg (laneBase n + 0x14) kh).raise 64)))) ∧
   (∀ (n slot entry : Nat) (release : Bool) (kh : Word) (s : State), n < 4 → slot < 2 → entry < 64 → wrongGeneration s kh = false →
     ∃ t, exec (.clear n slot release entry kh) s = .next (finish (mbResult n 0 t)) ∧ (t.lane n).slot slot = none ∧
       (release = false → t.lanes.streams.map (·.handle) = s.lanes.streams.map (·.handle)) ∧
       (∀ x, release = true → contextAt s n entry = some x → x.handle ≠ 0 → t.stream x.handle = none) ∧ t.mem = s.mem ∧ t.ktab = s.ktab) ∧
   ∀ (n : Fin 4) (s : State), (s.lane n.val).mbRun = true →
     let u := s.setLane n.val (fun l => { l with mbRun := false, mbDone := true, mbIndex := none })
     exec (.mailboxDone n) s = .next (finish { u with
       ktab := u.ktab.holdEntries (u.lanes.lanes.filterMap (fun (l : Lane) => l.mbIndex)), lines := s.lines ||| bit32 (6 + n.val) true }))

/-- R191 to R217. -/
def Obligations.KeyTableRequests : Prop :=
  (∀ (kh : Word) (e : CacheEntry) (s : State), ktabEnabled s = true → s.isFenced 5 0 = false → s.ktab.busy = false →
    let k := s.ktab
    let i := khIndex kh
    let u := s.setReg (ktabBase + 0x14) kh
    let reads := if (k.entry i).isSome then [] else k.fillReads i
    let ends (t : State) (r : Nat) (k' : Ktab) : Host.Outcome State Fault Refusal :=
      .next (finish { t with ktab := { k' with busy := true, done := false, result := r } })
    exec (.invalidate kh) s = ends u 0 { k with hit := (k.entry i).isSome, cache := k.cache.filter (fun e => e.index != i) } ∧
    (drawEnabled s = false → exec (.draw kh) s = ends u 9 k) ∧
    (k.khResult kh = 0 → k.spoilt = [] →
      let k1 := (k.keepNodes reads).fill i
      exec (.unpin kh) s = ends u 0 (k.setPin i false) ∧
      (k.pinRoom i = true → exec (.pin kh) s = ends u 0 (k1.setPin i true)) ∧
      (k.pinRoom i = false → exec (.pin kh) s = ends u 6 k) ∧
      exec (.fill kh .ok) s = ends u 0 k1 ∧
      ((k.record i).state = .active → drawEnabled s = true → k.held (k.record i) = false → k1.entry i = some e →
        (e.next < (k.record i).invHwm → e.next ≠ 2 ^ 48 - 2 → exec (.draw kh) s = ends u 0 { k1.mapEntry i (fun e => { e with next := e.next + 1 }) with
          draw := e.next, unbound := k.unbound ++ [(kh, e.next)] }) ∧
        ((k.record i).invHwm ≤ e.next → exec (.draw kh) s = ends u 8 k1))) ∧
    (k.khResult kh ≠ 0 → k.spoilt = [] →
      (drawEnabled s = true → exec (.draw kh) s = ends u (k.khResult kh) (if i ∈ k.quarantine then k else k.keepNodes reads)) ∧
      exec (.pin kh) s = ends u (k.khResult kh) k ∧ exec (.unpin kh) s = ends u (k.khResult kh) k) ∧
    (i ∉ k.quarantine → k.quarantine.length < 64 → k.spoilt = [] → k.entry i = none →
      let q : Ktab := { k with quarantine := k.quarantine ++ [i] }
      exec (.fill kh (.mismatch 0)) s = ends (u.raiseAt 124 .ktab (put32 0 i) 0) 2 q ∧
      (let t := (logEcc false 0 (tableAddress i) 0 true false 0 { u with ktab := q }).raiseAt 18 ⟨0, 0⟩ 0 (BitVec.ofNat 64 (tableAddress i));
        exec (.fill kh (.uncorrectable 0)) s = ends t 3 t.ktab))) ∧
  (∀ (oid : Oid) (s : State), ktabEnabled s = true → s.isFenced 5 0 = false → s.ktab.busy = false → s.ktab.spoilt = [] →
    let k := s.ktab
    let c := Ktab.bucketCode (Ktab.oidPlace s.indexKey oid).1
    (k.quarantine = [] → (∀ b, ∀ x ∈ k.bucket b, khIndex (khOf x.2.2 (k.record x.2.2).gen) = x.2.2 ∧ k.khResult (khOf x.2.2 (k.record x.2.2).gen) = 0) →
      ∃ t, exec (.find ⟨oid, .ok⟩) s = .next (finish t) ∧ t.ktab.busy = true ∧ t.ktab.done = false ∧ t.ktab.records = k.records ∧ t.mem = s.mem ∧
        t.regs = (setOidRegs oid s).regs ∧ t.fault = s.fault ∧
        (∀ j, k.find s.indexKey oid = some j → t.ktab.result = 0 ∧ t.ktab.respKh = khOf j (k.record j).gen) ∧
        (k.find s.indexKey oid = none → t.ktab.result = 5 ∧ t.ktab.respKh = k.respKh)) ∧
    (k.quarantine.length ≤ 64 → exec (.find ⟨oid, .mismatch 0⟩) s = .next (finish { (setOidRegs oid s).raiseAt 124 .ktab (put32 0 c) 0 with
      ktab := { k with busy := true, done := false, result := 2 } }))) ∧
  (∀ (k : Ktab) (i : Nat) (p : Bool),
    ((k.setPin i p).record i).pinned = p ∧ ((k.setPin i p).record i).dek = (k.record i).dek ∧ ((k.setPin i p).record i).state = (k.record i).state ∧
    (k.fill i).records = k.records ∧
    ((k.setOf i).length < 8 ∨ (∃ e ∈ k.setOf i, e.index ≠ i ∧ e.pinned = false ∧ e.held = false) → ((k.fill i).entry i).isSome = true)) ∧
  (∀ (kh : Word) (v : Verify) (s : State), s.ktab.busy = true →
    exec (.fill kh v) s = .next (finish { s with ktab := { s.ktab with overrun := true } }) ∧
    exec (.draw kh) s = .next (finish { s with ktab := { s.ktab with overrun := true } })) ∧
  ∀ s : State, s.ktab.busy = true →
    exec .ktabOpDone s = .next (finish { s with ktab := { s.ktab with busy := false, done := true }, lines := s.lines ||| bit32 5 true })

/-- R291 to R293, R320, R321. `u` is the state with the engine's registers written. -/
def Obligations.VaultEngine : Prop :=
  (∀ (cmd : EngCmd) (key : Hash) (s : State), bitAt (s.reg (vaultBase + 8) 0) 0 = true → s.vault.run = none →
    cmd.kslot < 32 → cmd.dslot < 32 → cmd.inLen < 2048 → cmd.outLen < 2048 → (if cmd.kek then s.vault.kek else s.vslot cmd.kslot) = some key →
    let u := ((s.setReg (vaultBase + 0x14) (cmd.src &&& 0xFFFFFFF8)).setReg (vaultBase + 0x18) (cmd.dst &&& 0xFFFFFFF8)).setReg (vaultBase + 0x1C)
      (BitVec.ofNat 32 (cmd.inLen + cmd.outLen * 65536))
    let dst := (cmd.dst &&& 0xFFFFFFF8).toNat
    let input := s.readBytes 0 (cmd.src &&& 0xFFFFFFF8).toNat cmd.inLen
    let starts (r : EngRun) : Host.Outcome State Fault Refusal := .next (finish { u with vault := { s.vault with run := some r, engDone := false } })
    let locked := bitAt (s.reg (vaultBase + 8) 0) 1 = true ∧ cmd.dslot < 8
    (cmd.dsel = false → engLengthOk 1 cmd.inLen 0 = true → exec (.wrap cmd) s = starts ⟨0, some (dst, Config.kwWrap key input), none⟩) ∧
    (cmd.dsel = true → exec (.wrap cmd) s = starts ⟨0, some (dst, Config.kwWrap key (slotBytes (s.vslot cmd.dslot))), none⟩) ∧
    (cmd.dsel = false → engLengthOk 1 cmd.inLen 0 = false → exec (.wrap cmd) s = starts ⟨1, none, none⟩) ∧
    (engLengthOk 4 cmd.inLen 0 = true → exec (.cmac cmd) s = starts ⟨0, some (dst, leBytes 16 (Config.cmac key input).toNat), none⟩) ∧
    (engLengthOk 2 cmd.inLen 0 = true →
      (cmd.dsel = false → secretRange s dst (cmd.inLen - 8) = true →
        (∀ o, Config.kwUnwrap key input = some o → exec (.unwrap cmd) s = starts ⟨0, some (dst, o), none⟩) ∧
        (Config.kwUnwrap key input = none → exec (.unwrap cmd) s = starts ⟨2, none, none⟩)) ∧
      (cmd.dsel = false → secretRange s dst (cmd.inLen - 8) = false → exec (.unwrap cmd) s = starts ⟨6, none, none⟩) ∧
      (cmd.dsel = true → ¬ locked → ∀ o, Config.kwUnwrap key input = some o →
        exec (.unwrap cmd) s = starts ⟨0, none, some (cmd.dslot, some (BitVec.ofNat 256 (leNat o)))⟩)) ∧
    (engLengthOk 3 cmd.inLen cmd.outLen = true →
      (cmd.dsel = false → secretRange s dst cmd.outLen = true → exec (.kdf cmd) s = starts ⟨0, some (dst, kdf key input cmd.outLen), none⟩) ∧
      (cmd.dsel = true → ¬ locked → exec (.kdf cmd) s = starts ⟨0, none, some (cmd.dslot, some (BitVec.ofNat 256 (leNat (kdf key input cmd.outLen))))⟩))) ∧
  (∀ (n : Fin 32) (s : State), bitAt (s.reg (vaultBase + 8) 0) 0 = true → s.vault.run = none →
    let starts (r : EngRun) : State := { s with vault := { s.vault with run := some r, engDone := false } }
    (bitAt (s.reg (vaultBase + 8) 0) 1 = false ∨ 8 ≤ n.val → exec (.clearSlot n) s = .next (finish (starts ⟨0, none, some (n.val, none)⟩))) ∧
    (bitAt (s.reg (vaultBase + 8) 0) 1 = true → n.val < 8 → exec (.clearSlot n) s = .next (finish ((starts ⟨4, none, none⟩).raise 123)))) ∧
  ∀ (r : EngRun) (s : State), s.vault.run = some r →
    let v := { s.vault with run := none, engDone := true, engRes := r.result }
    let l := s.lines ||| bit32 12 true
    (r.toMem = none → r.toSlot = none → exec .vaultEngDone s = .next (finish { s with vault := v, lines := l })) ∧
    (∀ a bs, r.toMem = some (a, bs) → r.toSlot = none → exec .vaultEngDone s = .next (finish { s.dmaBytes 0 a bs with vault := v, lines := l })) ∧
    (∀ n k, r.toMem = none → r.toSlot = some (n, k) →
      exec .vaultEngDone s = .next (finish { s with vault := { v with slots := s.vault.slots.set n k }, lines := l }))

/-- R301, R310 to R313. -/
def Obligations.KilnTiers : Prop :=
  (∀ (v : Word) (mv : Nat) (s : State),
    let fired (n : Nat) (t : State) : Prop :=
      KeysCleared t ∧ t.vault.keyless = true ∧ t.ktab.present = false ∧ t.kiln.latch = true ∧ t.kiln.stage = .tier1 ∧ t.kiln.tiers = 1 ∧
      t.kiln.trigger = n ∧ t.kiln.count = satInc 16 s.kiln.count ∧ t.kiln.time = s.clock.time ∧ t.kiln.incomplete = true ∧
      t.mem = s.mem ∧ t.journal = s.journal ∧ t.cqe = s.cqe ∧ t.nvm = s.nvm ∧ t.regs = s.regs ∧ t.cores = s.cores
    (s.kiln.latch = false → ∃ t, exec (.vaultKiln 0x4B4E) s = .next (finish t) ∧ fired 0xFF t) ∧
    (fieldAt v 15 0 ≠ 0x4B4E → fieldAt v 31 16 = 0 → exec (.vaultKiln v) s = .next (finish (setStatusBits vaultBase 2 s))) ∧
    (s.power.supply ≠ .dark → s.kiln.latch = false → mv < 2600 → ∃ t, exec (.reservoirKilnTrigger mv) s = .next (finish t) ∧ fired 120 t) ∧
    (s.power.supply ≠ .dark → mv < 2900 → exec (.kilnReservoirLow mv) s = .next (finish (({ s with kiln := { s.kiln with reservoir := mv } } : State).raise 120)))) ∧
  (∀ s : State, s.kiln.stage = .tier1 →
    ∃ t, exec .kilnTier2Done s = .next (finish t) ∧ t.kiln = { s.kiln with stage := .tier2, tiers := s.kiln.tiers ||| 2 } ∧
      t.vault = { s.vault with sessions := [] } ∧ t.reader = { s.reader with keys := List.replicate 16 none } ∧ t.rng.state = .starting ∧ t.pke.wiped = true ∧
      (∀ p o, p < 2048 → o < 4096 → t.readByte 0 (sramBase + 4096 * p + o) = if pageTagged s p then 0 else s.readByte 0 (sramBase + 4096 * p + o)) ∧
      (∀ a, a < memKey 0 sramBase ∨ memKey 0 (sramBase + sramSize) ≤ a → memGet t.mem a = memGet s.mem a) ∧ t.regs = s.regs ∧ t.journal = s.journal) ∧
  (∀ s : State, s.kiln.stage = .tier2 →
    ∃ t, exec .kilnInducedReset s = .next (finish t) ∧ t.kiln.stage = .reset ∧ t.ktab = Ktab.reset ∧ bitAt t.power.rstCause 3 = true ∧
      t.power.booted = false ∧ t.power.safe = false ∧ t.cqe.queues = [] ∧ t.cqe.inflight = [] ∧ t.lanes.streams = [] ∧
      t.cores.ccA = Core.reset .ccA ∧ t.cores.ccB = Core.reset .ccB ∧ ∀ a, a < 2 ^ 64 → t.readByte 2 a = 0) ∧
  (∀ s : State, s.kiln.stage = .reset →
    exec .kilnTier3Done s = .next (finish { s with
      ktab := { s.ktab with records := [], buckets := [], stash := [], present := false }
      kiln := { s.kiln with stage := .idle, latch := false, tiers := s.kiln.tiers ||| 4, incomplete := false } })) ∧
  ∀ (g : BitVec 16) (s : State),
    let t : State := { s with vault := { s.vault with sessions := s.vault.sessions.map (fun x => if x.grant = g then { x with lifetime := 0 } else x) } }
    exec (.quorumSessionExpiry g) s = .next (finish t) ∧
    ((∀ x ∈ s.vault.sessions, x.begin ≤ s.clock.lfclk) → ∀ cls target, grantUsable t g cls target = false)

/-- R330 to R340, R346. R340, R346. -/
def Obligations.PublicKeyEngine : Prop :=
  ((∀ (v : Word) (s : State),
     let u := if v.toNat < 1024 then s else setStatusBits pkeBase 1 s
     let n := ringSize u
     let t := v.toNat % 1024 % n
     (bitAt (u.reg (pkeBase + 8) 0) 0 = false → exec (.pkeRingTail v) s = .next (finish { u with pke := { u.pke with tail := t } })) ∧
     (bitAt (u.reg (pkeBase + 8) 0) 0 = true → exec (.pkeRingTail v) s =
       .next (finish (takeDescriptors ((t + n - s.pke.tail % n) % n) s.pke.tail { u with pke := { u.pke with tail := t } })))) ∧
   (∀ (i k : Nat) (s : State),
     let addr := (s.reg (pkeBase + 0x10) 0).toNat + 64 * i
     let b := s.readBytes 0 addr 64
     takeDescriptors 0 k s = s ∧ takeDescriptors (i + 1) k s = takeDescriptors i ((k + 1) % ringSize s) (takeDescriptor (k % ringSize s) s) ∧
     (descOk b = true → ∃ j, takeDescriptor i s = { s with pke := { s.pke with jobs := s.pke.jobs ++ [j] } } ∧ j.id = fieldOf b 0xC 4 ∧ j.slot = i ∧
       j.p.alg = fieldOf b 0 1 ∧ j.p.op = fieldOf b 1 1 ∧ j.p.scheme = fieldOf b 2 1 ∧ j.p.hash = fieldOf b 3 1 ∧ j.p.keysrc = fieldOf b 4 1 ∧ j.p.prio = fieldOf b 5 1 ∧
       j.input = s.readBytes 0 (fieldOf b 0x10 4) (fieldOf b 0x14 4) ∧ j.outAddr = fieldOf b 0x18 4 ∧ j.desc = some addr ∧ j.key = none) ∧
     (descOk b = false → takeDescriptor i s = writeBack addr 9 0 0 0 0 0 { s with pke := { s.pke with doneHead := (i + 1) % ringSize s } })) ∧
   (∀ (n : Nat) (j : PkeJob) (s : State), bitAt (s.reg (pkeBase + 8) 0) 0 = true → bitAt (s.reg (pkeBase + 8) 0) 1 = false →
     let a := askRandom s
     idleUnit a = some n → nextJob a.pke.jobs = some j →
     let b : State := releaseHeld { a with pke := { a.pke with jobs := a.pke.jobs.filter (fun x => x.id != j.id) } }
     (∀ k, j.key = some k → exec .pkeDispatch s = .next (finish ((b.passPoint k).setPkeUnit n (some j)))) ∧
     (j.key = none → exec .pkeDispatch s = .next (finish (b.setPkeUnit n (some j)))) ∧
     n < 2 ∧ a.isFenced 2 n = false ∧ a.pkeUnit n = none ∧ (∀ x ∈ a.pke.jobs, jobReady x = true → x.p.prio = 1 → j.p.prio = 1)) ∧
   ∀ (n : Fin 2) (j : PkeJob) (s : State), s.pkeUnit n.val = some j →
     let idle := s.setPkeUnit n.val none
     let ends (hw : PkeHw) (t : State) : Prop := exec (.pkeJobDone n hw) s = .next (finish (releaseHeld t))
     let judged := if j.p.op = 6 then 0 else pkeJudgement j.p j.input
     ends .sound (reportJob j n.val judged idle) ∧
     (judged = 0 → releaseChecked j.p = true → ends .releaseFail (reportJob j n.val (if j.p.op = 1 then 3 else 4)
       (({ idle with pke := { idle.pke with checkFail := satInc 16 idle.pke.checkFail } } : State).raiseAt 112 (.pke n.val) 0 0))) ∧
     ends .opmUe (rerunOrFence n.val ((s.addFence (.pke n.val)).raiseAt 113 (.pke n.val) 0 0)) ∧
     ends .unitFault (rerunOrFence n.val ((s.addFence (.pke n.val)).raiseAt 114 (.pke n.val) 0 0)) ∧
     ends .wipeFail (reportJob j n.val judged
       (({ (idle.addFence (.pke n.val)) with pke := { idle.pke with wiped := false } } : State).raiseAt 115 (.pke n.val) 0 0)) ∧
     (j.p.op = 1 → 10 ≤ j.p.alg → ends .roundCap (reportJob j n.val 11 idle)) ∧
     (j.rerun = false → s.isFenced 2 (1 - n.val) = false →
       rerunOrFence n.val s = { idle with pke := { idle.pke with jobs := { j with rerun := true } :: idle.pke.jobs } })) ∧
  ((∀ (n : Fin 2) (j : PkeJob) (s : State), s.pkeUnit n.val = some j → j.rsaKeygen = true →
     exec (.pkeKeygenTimeout n) s = .next (finish (releaseHeld (reportJob j n.val 10 (s.setPkeUnit n.val none))))) ∧
   ∀ (j : PkeJob) (n status time : Nat) (s : State), jobTime j.p j.input = some time →
     let u : State := { s with pke := { s.pke with jobCnt := satInc 32 s.pke.jobCnt, lastTime := BitVec.ofNat 32 time, doneHead := (j.slot + 1) % ringSize s } }
     let out := pkeResult j.p j.input (j.rnd.getD 0)
     let v := if j.p.op = 2 then pkeVerdictOf j.p j.input else (0, 0)
     (∀ a, j.desc = some a → status = 0 → reportJob j n 0 s = writeBack a 0 n v.1 v.2 out.length time (u.dmaBytes 0 j.outAddr out)) ∧
     (∀ a, j.desc = some a → 3 ≤ status → reportJob j n status s = writeBack a status n 0 0 0 time (u.dmaBytes 0 j.outAddr [])) ∧
     (j.desc = none → j.key = none → reportJob j n status s = ownEnd j status u) ∧
     (∀ key c, j.desc = none → j.key = some key → s.command key = some c → signsFor c.op = false →
       (out = [] → reportJob j n 0 s = complete key (degradePke u (okay [(12, 0), (16, v.1), (17, v.2)])) u) ∧
       (out ≠ [] → reportJob j n 0 s =
         completeOutput key c.src j.outLen c.entry.addr1 out (degradePke u (okay [(12, out.length), (16, v.1), (17, v.2)])) u) ∧
       reportJob j n 3 s = complete key (answer 0x5003 []) u ∧ reportJob j n 4 s = complete key (answer 0x6001 []) u ∧
       reportJob j n 5 s = complete key (answer 0x3005 []) u ∧ reportJob j n 10 s = complete key (answer 0x7005 []) u) ∧
     ∀ (a : Nat), (writeBack a status n 0 0 0 time s).lines = s.lines ||| bit32 10 true ∧
       (∀ b, b < memKey 0 (a + 0x20) ∨ memKey 0 (a + 0x30) ≤ b → memGet (writeBack a status n 0 0 0 time s).mem b = memGet s.mem b))

/-- R351 to R373, R94. -/
def Obligations.EntropySource : Prop :=
  (∀ (v : Word) (s : State),
    let u := if fieldAt v 29 28 = 0 then s else setStatusBits rngBase 1 s
    let tmo := fieldAt (u.reg (rngBase + 0x14) 0) 9 0
    (fieldAt v 31 30 ≠ 3 → s.rng.queue.length < 32 → exec (.rngReq v) s = .next (finish { u with rng := { u.rng with
      queue := u.rng.queue ++ [⟨u.rng.nextId, .ticket (fieldAt v 15 0) (u.reg (rngBase + 0x10) 0).toNat, fieldAt v 31 30, 16 * (fieldAt v 27 16 + 1),
        if tmo = 0 then rngTimeout u else tmo⟩]
      nextId := u.rng.nextId + 1 } })) ∧
    (fieldAt v 31 30 ≠ 3 → 32 ≤ s.rng.queue.length → exec (.rngReq v) s = .next (finish { u with rng := { u.rng with overrun := true } }))) ∧
  (∀ (r t : Nat) (l : List (Nat × Nat)) (s : State), s.rng.finished = (r, t) :: l →
    exec .rngDoneRead s = .next (finish { s with
      rng := { s.rng with finished := l }, lines := if l = [] then s.lines &&& ~~~ bit32 11 true else s.lines }) ∧
    (rngTakeDone s).1 = bit32 31 true ||| put32 16 r ||| put32 0 (t % 65536)) ∧
  (∀ (id t a len tmo : Nat) (rest : List RngReq) (s : State), rngReady s = true → s.rng.queue = ⟨id, .ticket t a, 0, len, tmo⟩ :: rest →
    let g := generateReseed 0 len { s with rng := rngRefill { s.rng with queue := rest } }
    let due : Prop := bitAt (s.reg (rngBase + 8) 0) 1 = true ∨ reseedPeriod s ≤ s.clock.lfclk - s.rng.lastReseed ∨ 2 ^ 20 ≤ s.rng.served
    ∃ u, exec .rngRequestDone s = .next (finish u) ∧ u.rng.finished = s.rng.finished ++ [(0, t)] ∧ u.lines = s.lines ||| bit32 11 true ∧
      (∀ k, k < len → u.readByte 0 (a + k) = Config.freeBytes g.freeCtr k) ∧
      (∀ b, b < memKey 0 a ∨ memKey 0 a + len ≤ b → memGet u.mem b = memGet s.mem b) ∧
      u.freeCtr = g.freeCtr + 1 ∧ u.rng.drbg = g.rng.drbg ∧ u.rng.queue ++ u.rng.waiting = rest ++ s.rng.waiting ∧ u.pke = s.pke ∧ u.cqe = s.cqe ∧ u.regs = s.regs ∧
      (¬ due → g.freeCtr = s.freeCtr ∧ g.rng.served = s.rng.served + 1 ∧ g.rng.drbg = Config.drbgGenerate s.rng.drbg len) ∧
      (due → g.freeCtr = s.freeCtr + 4 ∧ g.rng.served = 1 ∧ g.rng.pool = [] ∧ g.rng.reseeds = satInc 32 s.rng.reseeds ∧ g.rng.lastReseed = s.clock.lfclk ∧
        g.rng.drbg = Config.drbgGenerate (Config.drbgReseed s.rng.drbg (poolBytes (fillPool s).rng)) len)) ∧
  (∀ s : State,
    let b := poolBytes (fillPool s).rng
    (fillPool s).rng.pool.length = 4 ∧
    (s.rng.pool = [] → (fillPool s).rng.pool = [conditioned s.freeCtr, conditioned (s.freeCtr + 1), conditioned (s.freeCtr + 2), conditioned (s.freeCtr + 3)]) ∧
    (reseed s).rng = { s.rng with drbg := Config.drbgReseed s.rng.drbg b, pool := [], reseeds := satInc 32 s.rng.reseeds, lastReseed := s.clock.lfclk } ∧
    (instantiate s).rng = { s.rng with
      drbg := Config.drbgInstantiate (b.take 48) (b.drop 48) (leBytes 16 Config.serial.toNat ++ leBytes 4 s.nvm.powerOns), pool := [], lastReseed := s.clock.lfclk }) ∧
  ((∀ (us : Nat) (w l r : List Bool) (b : Bool),
      (rngFailed (.starve us) = true ↔ 10 ≤ us) ∧ (rngFailed (.apt w) = true ↔ w.length = 1024 ∧ 700 ≤ w.count (w.headD false)) ∧
      rngFailed (.rct (l ++ List.replicate 51 b ++ r)) = true) ∧
   (∀ a b x : Nat, (aliveFailures [(a, b)] = 0 ↔ 300 ≤ a ∧ a ≤ 500 ∧ 330 ≤ b ∧ b ≤ 530) ∧ lockFailures 0 0 (List.replicate 16 x) = 1 ∧
      lockFailures 0 0 (List.replicate 15 x) = 0)) ∧
  (∀ (id t a mode len tmo : Nat) (s : State), s.rng.queue = [⟨id, .ticket t a, mode, len, tmo⟩] → s.rng.waiting = [] →
    exec (.rngRequestTimeout id) s = .next (finish { s with
      rng := { s.rng with queue := [], finished := s.rng.finished ++ [(1, t)] }, lines := s.lines ||| bit32 11 true })) ∧
  (∀ (k : RngFail) (s : State),
    let r := { s.rng with pool := [] }
    let c (x : Rng) : Rng := match k with | .apt _ => { x with aptFails := satInc 16 x.aptFails } | _ => { x with rctFails := satInc 16 x.rctFails }
    (rngFailed k = false → exec (.rngBlockingFail k) s = .next (finish s)) ∧
    (rngFailed k = true → r.state = .seeded → exec (.rngBlockingFail k) s =
      .next (finish (({ s with rng := { c r with state := .blocked, startFails := 0 } } : State).raise 116))) ∧
    (rngFailed k = true → r.state ≠ .seeded → r.startFails ≠ 3 → exec (.rngBlockingFail k) s = .next (finish { s with rng := { c r with startFails := r.startFails + 1 } })) ∧
    (rngFailed k = true → r.state ≠ .seeded → r.startFails = 3 → exec (.rngBlockingFail k) s =
      .next (finish (({ s with rng := { c r with startFails := 0 } } : State).raise 118)))) ∧
  (∀ s : State, s.rng.faulted = false →
    (s.rng.state = .starting → exec .rngSeeded s = .next (finish { instantiate s with
      rng := { (instantiate s).rng with state := .seeded, armed := true, startFails := 0, served := 0 }
      tamper := { s.tamper with armed := s.tamper.armed ||| 0x2000 } })) ∧
    (s.rng.state = .blocked → exec .rngSeeded s = .next (finish { reseed s with
      rng := { (reseed s).rng with state := .seeded, startFails := 0, served := 0 } }))) ∧
  (∀ (windows : List (Nat × Nat)) (ratios : List Nat) (s : State),
    let al := aliveFailures windows
    let nl := lockFailures 0 0 ratios
    let u : State := { s with rng := { s.rng with alive := min 65535 (s.rng.alive + al), notLocked := min 65535 (s.rng.notLocked + nl) } }
    (al + nl < fieldAt (s.reg (rngBase + 0x24) 0x000403E8) 23 16 → exec (.rngOscHealth windows ratios) s = .next (finish u)) ∧
    (fieldAt (s.reg (rngBase + 0x24) 0x000403E8) 23 16 ≤ al + nl → exec (.rngOscHealth windows ratios) s =
      .next (finish (({ u with rng := { u.rng with oscFault := true } } : State).raise 117)))) ∧
  ∀ s : State, s.rng.state = .starting → s.power.supply = .running → s.power.mode = .run →
    exec .seedTimeout s = .next (finish { s with power := { s.power with safe := true, rstCause := s.power.rstCause ||| 0x80 } })

/-- R435 to R442. -/
def Obligations.MemoryRepair : Prop :=
  (∀ (page : Word) (slot : Nat) (bad : DWord) (s : State), slot < 4096 → page.toNat < 2 ^ 25 →
    let u := s.setReg (dramcBase + 0x70) page
    let d := s.dramc
    let outside := 2 ^ 37 ≤ page.toNat * 4096 ∨ (reserveBase u ≤ page.toNat * 4096 ∧ page.toNat * 4096 < reserveBase u + 2 ^ 24)
    let fails (r : Nat) : Host.Outcome State Fault Refusal := .next (finish { u with dramc := { d with rmapDone := true, rmapRes := r } })
    (d.rmapRun = none → slot ∉ d.used → ¬ outside → Config.ddrOwner (page.toNat * 4096) ≠ 1 → d.used.length ≠ 4095 → exec (.retire page slot bad) s =
      .next (finish { u with dramc := { d with used := d.used ++ [slot], rmapRun := some (slot, page.toNat, bad.toNat), rmapDone := false } })) ∧
    (d.rmapRun ≠ none → exec (.retire page slot bad) s = fails 3) ∧
    (d.rmapRun = none → slot ∈ d.used → exec (.retire page slot bad) s = fails 1) ∧
    (d.rmapRun = none → slot ∉ d.used → outside → exec (.retire page slot bad) s = fails 2) ∧
    (d.rmapRun = none → slot ∉ d.used → ¬ outside → Config.ddrOwner (page.toNat * 4096) = 1 → exec (.retire page slot bad) s =
      .next (finish (({ u with dramc := { d with rmapDone := true, rmapRes := 2 } } : State).raiseAt 67 ⟨0, 0⟩ 0 (BitVec.ofNat 64 (page.toNat * 4096)))))) ∧
  (∀ (slot page bad : Nat) (s : State), s.dramc.rmapRun = some (slot, page, bad) → s.power.mode = .run → Memory.wf s.mem = true →
    let src := ddrPlace s (page * 4096)
    let dst := reserveBase s + 4096 * slot
    let lines := maskLines (bad ||| badMask s src)
    ∃ t, exec .rmapDone s = .next (finish t) ∧ t.dramc.rmapRun = none ∧ t.dramc.rmapDone = true ∧ t.dramc.rmapRes = 0 ∧ t.dramc.rmapBad = lines.length ∧
      t.dramc.rmap = s.dramc.rmap.filter (fun p => p.2 != page) ++ [(slot, page)] ∧ t.dramc.used = s.dramc.used ∧
      t.nvm = { s.nvm with remaps := s.nvm.remaps ++ [(slot, page)] } ∧
      (∀ o, o < 4096 → memGet t.mem (memKey 2 (dst + o)) = memGet s.mem (memKey 2 (src + o))) ∧
      (∀ a, a < memKey 2 dst ∨ memKey 2 (dst + 4096) ≤ a → memGet t.mem a = memGet s.mem a) ∧ t.regs = s.regs ∧ t.journal = s.journal) ∧
  (∀ (a row : Nat) (s : State), a < 64 → row < 2048 →
    let d := s.dramc
    let fails (r : Nat) : State := { s with dramc := { d with spareDone := true, spareRes := r, spareArray := a } }
    let used := (d.spares.filter (fun p => p.1 == a)).length
    (d.spareRun = none → a ≤ 22 → row < arrayRows a → used < 4 →
      exec (.repair a row) s = .next (finish { s with dramc := { d with spareRun := some (a, row), spareDone := false, spareArray := a } })) ∧
    (d.spareRun ≠ none → exec (.repair a row) s = .next (finish (fails 3))) ∧
    (d.spareRun = none → 22 < a ∨ arrayRows a ≤ row → exec (.repair a row) s = .next (finish (fails 2))) ∧
    (d.spareRun = none → a ≤ 22 → row < arrayRows a → 4 ≤ used → exec (.repair a row) s = .next (finish ((fails 1).raise 36)))) ∧
  (∀ (p : Nat × Nat) (s : State), s.dramc.spareRun = some p → s.power.mode = .run →
    exec .spareDone s = .next (finish { s with
      dramc := { s.dramc with spareRun := none, spareDone := true, spareRes := 0, spares := s.dramc.spares ++ [p] }
      nvm := { s.nvm with repairs := s.nvm.repairs ++ [p] } })) ∧
  (∀ (v : Word) (s : State), bitAt v 0 = true →
    let u := if v.toNat < 2 then s else setStatusBits dramcBase 1 s
    let l := s.dramc.log.drop 1
    exec (.dramcLogNext v) s = .next (finish { u with
      dramc := { s.dramc with log := l, overflowed := s.dramc.overflowed && !l.isEmpty }, lines := if l = [] then s.lines &&& ~~~ bit32 16 true else s.lines })) ∧
  (∀ (die syn : Nat) (hard : Bool) (s : State), scrubbing s = true →
    let d := s.dramc
    let at_ := sramAt 23 0 d.spos
    let w : State := { s with dramc := { d with spos := d.spos + 1 } }
    let x : State := { s with dramc := { d with dpos := d.dpos + 1 } }
    (d.spos + 1 ≠ sramLap →
      exec (.spargeScrub true die syn .clean) s = .next (finish w) ∧
      exec (.spargeScrub true die syn (.correctable hard)) s = .next (finish
        ((logEcc true at_.1 at_.2 syn false hard 2 w).raiseAt (if hard then 33 else 32) ⟨0, 0⟩ (put32 0 syn) (BitVec.ofNat 64 at_.2))) ∧
      exec (.spargeScrub true die syn .uncorrectable) s = .next (finish
        ((markBad true at_.1 at_.2 (logEcc true at_.1 at_.2 syn true false 2 w)).raiseAt 35 ⟨0, 0⟩ (put32 0 syn) (BitVec.ofNat 64 at_.2)))) ∧
    (d.dpos + 1 ≠ ddrLap →
      exec (.spargeScrub false die syn .clean) s = .next (finish x) ∧
      exec (.spargeScrub false die syn (.correctable hard)) s = .next (finish
        ((logEcc false die (64 * d.dpos) syn false hard 2 x).raiseAt (if hard then 17 else 16) ⟨0, 0⟩ (put32 0 syn) (BitVec.ofNat 64 (64 * d.dpos)))) ∧
      exec (.spargeScrub false die syn .uncorrectable) s = .next (finish (spoilDdr (64 * d.dpos)
        ((markBad false die (64 * d.dpos) (logEcc false die (64 * d.dpos) syn true false 2 x)).raiseAt 19 ⟨0, 0⟩ (put32 0 syn) (BitVec.ofNat 64 (64 * d.dpos)))))) ∧
    (d.spos + 1 = sramLap → exec (.spargeScrub true die syn .clean) s = .next (finish { s with dramc := { d with
      spos := 0, sstart := s.clock.lfclk, sover := false, slaps := satInc 32 d.slaps
      slapTime := BitVec.ofNat 32 ((s.clock.lfclk - d.sstart) * 1000000 / 32768) } })) ∧
    (d.sover = false → exec (.lapOverrun true) s = .next (finish (({ s with dramc := { d with sover := true } } : State).raise 37))) ∧
    (d.sover = true → exec (.lapOverrun true) s = .next (finish s)) ∧
    (d.dover = false → exec (.lapOverrun false) s = .next (finish (({ s with dramc := { d with dover := true } } : State).raise 24)))) ∧
  ∀ (sram unc hard : Bool) (unit addr syn found : Nat) (s : State), s.dramc.log.length < 64 →
    (unc = true ∨ ∀ e ∈ s.dramc.log, ¬ (e.sram = sram ∧ e.addr = addr ∧ (sram = true → e.unit = unit))) →
    (logEcc sram unit addr syn unc hard found s).dramc.log = s.dramc.log ++ [⟨addr, sram, unit, syn, unc, hard, found, s.clock.time.setWidth 32⟩] ∧
    (logEcc sram unit addr syn unc hard found s).lines = s.lines ||| bit32 16 true

/-- R454 to R459, R463: `u` is the state with the command's address (and data) registers written. -/
def Obligations.FlashCommands : Prop :=
  (∀ (b : Fin 4) (addr sec : Nat) (d : DWord) (s : State), addr < 2 ^ 24 → addr % 8 = 0 → sec < 4096 → (s.bank b.val).run = none →
    let k := s.bank b.val
    let a := flashBase + 0x100 + 0x40 * b.val
    let u := s.setReg a (BitVec.ofNat 32 addr)
    let up := (u.setReg (a + 4) (d.setWidth 32)).setReg (a + 8) ((d >>> 32).setWidth 32)
    let us := s.setReg a (BitVec.ofNat 32 (4096 * sec))
    let starts (t : State) (op : Nat) (f : FlashBank → FlashBank) : Host.Outcome State Fault Refusal :=
      .next (finish (t.setBank b.val (fun k => f { k with op := op, done := false })))
    let refused (t : State) (op r : Nat) : Host.Outcome State Fault Refusal :=
      .next (finish ({ (t.setBank b.val (fun k => { k with op := op, done := true, result := r })) with lines := s.lines ||| bit32 17 true }))
    (flashWrites s = true →
      (addr / 4096 ∉ k.torn → addr / 4096 ∉ k.started → k.suspended ≠ some (addr / 4096) → sectorProtected k (addr / 4096) = false → wordErased s b.val (addr / 8) = true →
        exec (.program b addr d) s = starts up 1 (fun k => { k with run := some (.program (addr / 8) d) })) ∧
      (addr / 4096 ∈ k.torn ∨ (addr / 4096 ∈ k.started ∧ k.suspended ≠ some (addr / 4096)) → exec (.program b addr d) s = refused up 1 4) ∧
      (addr / 4096 ∉ k.torn → addr / 4096 ∉ k.started → k.suspended ≠ some (addr / 4096) → sectorProtected k (addr / 4096) = true → exec (.program b addr d) s = refused up 1 3) ∧
      (k.suspended = none → sectorProtected k sec = false → (assocGet sec k.counts).getD 0 + 1 ≠ 100000 →
        exec (.erase b sec) s = starts us 2 (fun k => { k with
          run := some (.erase sec), sector := sec, counts := assocSet sec (satInc 24 ((assocGet sec (s.bank b.val).counts).getD 0)) k.counts
          started := if k.started.contains sec then k.started else k.started ++ [sec] })) ∧
      (k.suspended = none → sectorProtected k sec = true → exec (.erase b sec) s = refused us 2 3)) ∧
    (flashWrites s = false → exec (.program b addr d) s = refused up 1 12 ∧ exec (.erase b sec) s = refused us 2 12) ∧
    exec (.flashQuery b sec) s = starts us 5 (fun k => { k with run := some (.query sec) }) ∧
    (∀ x, k.suspended = some x → exec (.resume b) s = starts s 4 (fun k => { k with suspended := none, run := some (.erase x), sector := x, result := 0 })) ∧
    (k.suspended = none → exec (.resume b) s = refused s 4 7) ∧ exec (.suspend b) s = refused s 3 7) ∧
  (∀ (g : Nat) (s : State), g < 64 → flashWrites s = true → (s.bank (g / 16)).run = none → (s.bank (g / 16)).suspended = none →
    let b := g / 16
    let u := s.setReg (flashBase + 0x100 + 0x40 * b) (BitVec.ofNat 32 (1048576 * (g % 16)))
    exec (.protect g) s = .next (finish (u.setBank b (fun k => { k with op := 6, done := false, run := some (.protect (g % 16) true) }))) ∧
    (s.flash.unlocked = true →
      exec (.unprotect g) s = .next (finish (u.setBank b (fun k => { k with op := 7, done := false, run := some (.protect (g % 16) false) })))) ∧
    (s.flash.unlocked = false → exec (.unprotect g) s = .next (finish
      { (u.setBank b (fun k => { k with op := 7, done := true, result := 10 })) with lines := s.lines ||| bit32 17 true }))) ∧
  ∀ (b : Fin 4) (sec : Nat) (x : Nat) (s : State), (s.bank b.val).run = some (.erase sec) →
    let ovr := s.setBank b.val (fun k => { k with overrun := true })
    ((s.bank b.val).pendingSuspend = false →
      exec (.suspend b) s = .next (finish (s.setBank b.val (fun k => { k with op := 3, pendingSuspend := true, result := 0, done := false })))) ∧
    exec (.erase b x) s = .next (finish ovr) ∧ exec (.flashQuery b x) s = .next (finish ovr) ∧
    ((s.bank b.val).pendingSuspend = false → exec (.resume b) s = .next (finish ovr)) ∧
    ((s.bank b.val).pendingSuspend = true → exec (.suspend b) s = .next (finish s) ∧ exec (.resume b) s = .next (finish
      { (s.setBank b.val (fun k => { k with op := 4, pendingSuspend := false, result := 0, done := true })) with lines := s.lines ||| bit32 17 true })) ∧
    ((s.bank b.val).pendingSuspend = true → exec (.suspendHonoured b) s = .next (finish
      { (s.setBank b.val (fun k => { k with run := none, suspended := some sec, pendingSuspend := false, done := true })) with lines := s.lines ||| bit32 17 true })) ∧
    ((s.bank b.val).pendingSuspend = false → exec (.suspendHonoured b) s = .next (finish s))

/-- R452 to R467. -/
def Obligations.FlashOutcomes : Prop :=
  (∀ (b : Fin 4) (s : State), (∀ c ∈ s.cqe.inflight, c.wait ≠ .flash) → s.flash.banks.length = 4 →
    (∀ w d, (s.bank b.val).run = some (.program w d) →
      let base := memKey 1 (bankAt b.val + 8 * w)
      (∃ t, exec (.flashOpDone b .ok) s = .next (finish t) ∧ (t.bank b.val).run = none ∧ (t.bank b.val).done = true ∧ (t.bank b.val).result = 0 ∧
        t.lines = s.lines ||| bit32 17 true ∧ (∀ i, i < 8 → memGet t.mem (base + i) = BitVec.ofNat 8 (d.toNat / 256 ^ i)) ∧
        (∀ a, a < base ∨ base + 8 ≤ a → memGet t.mem a = memGet s.mem a) ∧ (∀ c, c ≠ b.val → t.bank c = s.bank c) ∧ t.regs = s.regs ∧ t.cqe = s.cqe) ∧
      (∃ t, exec (.flashOpDone b .verifyFail) s = .next (finish t) ∧ (t.bank b.val).run = none ∧ (t.bank b.val).result = 6 ∧ w ∈ (t.bank b.val).unspec ∧
        t.mem = s.mem ∧ t.fault.inputs.length = s.fault.inputs.length + 1)) ∧
    (∀ sec, (s.bank b.val).run = some (.erase sec) →
      let base := memKey 1 (bankAt b.val + 4096 * sec)
      (∃ t, exec (.flashOpDone b .ok) s = .next (finish t) ∧ (t.bank b.val).run = none ∧ (t.bank b.val).done = true ∧ (t.bank b.val).result = 0 ∧
        t.lines = s.lines ||| bit32 17 true ∧ sec ∉ (t.bank b.val).started ∧ sec ∉ (t.bank b.val).torn ∧
        (b.val * 0x1000000 + 4096 * sec + 4096 ≤ 2 ^ 26 → ∀ i, i < 4096 → memGet t.mem (base + i) = 0xFF) ∧
        (∀ a, a < base ∨ base + 4096 ≤ a → memGet t.mem a = memGet s.mem a) ∧ (∀ c, c ≠ b.val → t.bank c = s.bank c) ∧ t.regs = s.regs ∧ t.cqe = s.cqe) ∧
      (∃ t, exec (.flashOpDone b .verifyFail) s = .next (finish t) ∧ (t.bank b.val).result = 5 ∧ sec ∈ (t.bank b.val).torn ∧ t.mem = s.mem) ∧
      (∃ t, exec (.flashOpDone b .pumpFail) s = .next (finish t) ∧ (t.bank b.val).result = 11 ∧ sec ∈ (t.bank b.val).torn ∧ t.mem = s.mem))) ∧
  (∀ (pw : QWord) (s : State),
    let f := s.flash
    let c : State := { s with regs := s.regs.filter (fun p => !(decide (flashBase + 0x200 ≤ p.1) && decide (p.1 ≤ flashBase + 0x20C))) }
    let ends (r : Nat) (g : Flash) : State := { c with flash := { g with pwDone := true, pwResult := r } }
    (f.pwRun = none →
      (f.lockout = false → pw = f.password → exec (.unlock pw) s = .next (finish (ends 0 { f with unlocked := true, tries := 0 }))) ∧
      (f.lockout = false → pw ≠ f.password → f.tries ≠ 7 → exec (.unlock pw) s = .next (finish ((ends 1 { f with tries := f.tries + 1 }).raise 168))) ∧
      (f.lockout = false → pw ≠ f.password → f.tries = 7 → exec (.unlock pw) s = .next (finish
        (((ends 1 { f with tries := 8, lockout := true }).raise 168).raise 169))) ∧
      (f.lockout = true → exec (.unlock pw) s = .next (finish (ends 2 f))) ∧
      exec .lock s = .next (finish (ends 0 { f with unlocked := false })) ∧
      (f.unlocked = true → exec (.setPassword pw) s = .next (finish { c with flash := { f with pwRun := some pw, pwDone := false } })) ∧
      (f.unlocked = false → exec (.setPassword pw) s = .next (finish (ends 3 f)))) ∧
    (∀ new, f.pwRun = some new →
      exec (.unlock pw) s = .next (finish (ends 4 f)) ∧ exec .lock s = .next (finish (ends 4 f)) ∧
      exec .passwordOpDone s = .next (finish { s with flash := { f with pwRun := none, password := new, pwDone := true, pwResult := 0 } }))) ∧
  ∀ s : State,
    let t : State := { s with flash := { s.flash with
      scanDone := true, pumpOk := true, banks := s.flash.banks.map (fun k => { k with torn := k.started }) } }
    ((∀ k ∈ s.flash.banks, k.started = []) → exec .tornScanDone s = .next (finish t)) ∧
    ((∃ k ∈ s.flash.banks, k.started ≠ []) → exec .tornScanDone s = .next (finish (t.raise 167)))

/-- R474 to R492. -/
def Obligations.TamperMonitors : Prop :=
  (∀ (k : Nat) (stays : Bool) (det : Word) (s : State), k < 17 →
    let t := s.tamper
    let raw := if stays then t.raw ||| bit17 k else t.raw
    let t1 := if k = 4 then { t with meshNet := fieldAt det 25 24, meshPct := fieldAt det 7 0 } else t
    let r1 := if k = 13 then { s.rng with lfCause := BitVec.ofNat 16 (fieldAt det 15 0), lfCell := fieldAt det 19 16, lfStep := fieldAt det 29 20 } else s.rng
    (s.power.supply ≠ .dark → t.armed.getLsbD k = true → t.bist ≠ some k → (k = 13 → fieldAt (s.reg 0x40030040 32) 7 0 ≤ fieldAt det 29 20) →
      exec (.tamperMonitorAssert (128 + k) stays det) s = .next (finish
        (({ s with rng := r1, tamper := { t1 with raw := raw, sticky := t.sticky ||| bit17 k, testMark := t.testMark &&& ~~~ bit17 k } } : State).report
          [⟨⟨128 + k, ⟨0, 0⟩, det, 0⟩, false, false, false, false⟩]))) ∧
    (s.power.supply ≠ .dark → t.armed.getLsbD k = true → t.bist = some k →
      exec (.tamperMonitorAssert (128 + k) stays det) s = .next (finish
        { s with rng := r1, tamper := { t1 with raw := raw, sticky := t.sticky ||| bit17 k } })) ∧
    (t.armed.getLsbD k = true → k = 13 → t.bist ≠ some 13 → fieldAt det 29 20 < fieldAt (s.reg 0x40030040 32) 7 0 →
      exec (.tamperMonitorAssert (128 + k) stays det) s = .next (finish s)) ∧
    (k ≠ 16 → t.armed.getLsbD k = false → exec (.tamperMonitorAssert (128 + k) stays det) s = .next (finish s)) ∧
    (k = 16 → s.power.supply ≠ .dark → t.armed.getLsbD k = false → exec (.tamperMonitorAssert (128 + k) stays det) s =
      .next (finish { s with tamper := { t with raw := raw, sticky := t.sticky ||| bit17 16 } })) ∧
    (s.power.supply = .dark ∨ (s.power.supply = .starting ∧ t.armed = 0 ∧ k ≠ 15) → cellMonitors.getLsbD k = true →
      let c : State := { s with tamper := { t with raw := raw, sticky := t.sticky ||| bit17 k, cellMark := t.cellMark ||| bit17 k,
                                                   cellTime := if t.cellMark = 0 then s.clock.time else t.cellTime } }
      (t.cellMark ≠ 0 → s.vault.kek = none → exec (.cellTamperAlarm (128 + k) stays) s = .next (finish c)) ∧
      (t.cellMark = 0 ∨ s.vault.kek.isSome = true → exec (.cellTamperAlarm (128 + k) stays) s = .next (finish { c with
        vault := { s.vault with kek := none }
        kiln := { s.kiln with tiers := 1, count := satInc 16 s.kiln.count, trigger := 128 + k, time := s.clock.time } }))) ∧
    (cellMonitors.getLsbD k = false → exec (.cellTamperAlarm (128 + k) stays) s = .next (finish s)) ∧
    (s.power.supply = .starting → t.armed ≠ 0 ∨ k = 15 → exec (.cellTamperAlarm (128 + k) stays) s = .next (finish s))) ∧
  (∀ (v : Word) (s : State),
    let t := s.tamper
    let u := if v.toNat < 2 ^ 17 then s else setStatusBits tamperBase 1 s
    let go := v.setWidth 17 &&& ~~~ t.raw
    exec (.tamperStickyClear v) s = .next (finish { u with tamper := { t with
      sticky := t.sticky &&& ~~~ go, testMark := t.testMark &&& ~~~ go, cellMark := t.cellMark &&& ~~~ go
      cellTime := if t.cellMark &&& ~~~ go = 0 then 0 else t.cellTime } })) ∧
  (∀ (k : Nat) (s : State), k < 17 →
    let t := s.tamper
    let go := exec (.tamperBist (BitVec.ofNat 32 (2 ^ 31 + k))) s
    (t.armed.getLsbD k = true → t.bist = none → t.raw.getLsbD k = false → go = .next (finish { s with tamper := { t with bist := some k, bistDone := false } })) ∧
    (t.armed.getLsbD k = false → go = .next (finish { s with tamper := { t with bistDone := true, bistRes := 3 } })) ∧
    (t.armed.getLsbD k = true → t.bist ≠ none → go = .next (finish { s with tamper := { t with bistDone := true, bistRes := 4 } })) ∧
    (t.armed.getLsbD k = true → t.bist = none → t.raw.getLsbD k = true → go = .next (finish { s with tamper := { t with bistDone := true, bistRes := 2 } })) ∧
    exec (.tamperBist (BitVec.ofNat 32 k)) s = .next (finish s)) ∧
  (∀ (k : Nat) (s : State), 17 ≤ k → k < 32 → exec (.tamperBist (BitVec.ofNat 32 (2 ^ 31 + k))) s = .next (finish (setStatusBits tamperBase 2 s))) ∧
  (∀ (k : Nat) (s : State), k < 17 → s.tamper.bist = some k →
    let t := s.tamper
    let time := (Config.freeValue s.freeCtr).toNat % 2 ^ 24
    let u (res : Nat) (raw sticky mark : BitVec 17) : State := { s with freeCtr := s.freeCtr + 1, tamper := { t with
      bist := none, bistDone := true, bistRes := res, bistTime := time, raw := raw, sticky := sticky, testMark := mark } }
    let low := t.raw &&& ~~~ bit17 k
    let high := t.raw ||| bit17 k
    let set := t.sticky ||| bit17 k
    let seen := u 0 low set (if t.sticky.getLsbD k then t.testMark else t.testMark ||| bit17 k)
    let rep (x : State) : State := x.report [⟨⟨128 + k, ⟨0, 0⟩, 0, 0⟩, false, false, false, false⟩]
    ((∀ c ∈ s.cqe.inflight, c.wait ≠ .tamperTest (128 + k)) →
      exec (.bistWindowEnd true false) s = .next (finish seen) ∧
      exec (.bistWindowEnd false false) s = .next (finish ((u 1 low t.sticky t.testMark).raise 235)) ∧
      exec (.bistWindowEnd true true) s = .next (finish (rep (u 0 high set (t.testMark &&& ~~~ bit17 k)))) ∧
      exec (.bistWindowEnd false true) s = .next (finish (rep ((u 1 high set (t.testMark &&& ~~~ bit17 k)).raise 235)))) ∧
    (∀ c, s.cqe.inflight.find? (fun c => c.wait == Wait.tamperTest (128 + k)) = some c →
      exec (.bistWindowEnd true false) s = .next (finish (complete c.key (answer 0 [(12, 0), (16, time)]) seen)) ∧
      exec (.bistWindowEnd false false) s = .next (finish (complete c.key (answer 0 [(12, 1), (16, time)]) ((u 1 low t.sticky t.testMark).raise 235))))) ∧
  ∀ (r0 r1 r2 r3 : Word) (s : State), s.lifecycle = .commissioned → tamperLocked s = false →
    let ref (r : Word) : Word := (r.setWidth 16).setWidth 32
    exec (.tamperCalibrate [r0, r1, r2, r3]) s = .next (finish
      ((((({ s with nvm := { s.nvm with meshRefs := [r0.setWidth 16, r1.setWidth 16, r2.setWidth 16, r3.setWidth 16] } } : State).setReg
        (tamperBase + 0x40) (ref r0)).setReg (tamperBase + 0x44) (ref r1)).setReg (tamperBase + 0x48) (ref r2)).setReg (tamperBase + 0x4C) (ref r3)))

/-- R495 to R508; R401 and R83 for the last two. -/
def Obligations.FaultCollectorCommands : Prop :=
  (∀ (reports : List Report) (s : State),
    let kept := reports.foldl unitKeeps s
    exec (.faultRaise reports) s = .next (finish { kept with
      fault := { kept.fault with inputs := kept.fault.inputs ++ [reports.map (fun r => ⟨r, false, false, false, false⟩)] } }) ∧
    ((∀ r ∈ reports, r.source ∉ [16, 17, 18, 32, 33, 34, 50, 119, 127]) → kept = s)) ∧
  (∀ (r : Report) (s : State),
    (r.source = 119 → unitKeeps s r = { s with rng := { s.rng with faulted := true, state := .blocked } }) ∧
    (r.source = 50 → unitKeeps s r = s.setReg 0x40160014 (BitVec.ofNat 32 (satInc 16 (s.reg 0x40160014 0).toNat))) ∧
    (r.source = 127 → unitKeeps s r = countSplit (r.syndrome.toNat % 8) s) ∧
    (let logged := logEcc (decide (32 ≤ r.source)) (r.syndrome.toNat / 65536 % 32) r.address.toNat (r.syndrome.toNat % 65536)
      (decide (r.source = 18 ∨ r.source = 34)) (decide (r.source = 17 ∨ r.source = 33)) 0 s;
      (r.source ∈ [16, 17, 32, 33] → unitKeeps s r = logged) ∧
      (r.source = 18 → unitKeeps s r = spoilDdr r.address.toNat (markBad false 0 r.address.toNat logged)) ∧
      (r.source = 34 → unitKeeps s r = markBad true (r.syndrome.toNat / 65536 % 32) r.address.toNat logged))) ∧
  (∀ (seq : Nat) (u : Unacked) (s : State), s.fault.unacked.find? (fun u => u.seq == seq && u.timer) = some u →
    let t : State := { s with fault := { s.fault with
      unacked := s.fault.unacked.filter (fun u => u.seq != seq)
      log := s.fault.log.map (fun r => if r.seq = seq then { r with applied := .mate, escalated := true, acked := true } else r) } }
    exec (.checkTimerExpiry seq) s = .next (finish (if mgmtSource s u.source then mgmtReset t else mateAction t))) ∧
  (∀ (v : Word) (s : State),
    let w := if v.toNat < 512 then s else setStatusBits faultBase 1 s
    let hit (m : Nat) : Bool := bitAt v 8 || m == fieldAt v 7 0
    exec (.faultAck v) s = .next (finish { w with
      lines := s.lines &&& ~~~ bit32 3 true &&& ~~~ bit32 4 true
      fault := { s.fault with
        unacked := s.fault.unacked.filter (fun u => !hit u.source)
        log := s.fault.log.map (fun r => if s.fault.unacked.any (fun u => hit u.source && u.seq == r.seq) then { r with acked := true } else r) } })) ∧
  (∀ (v : Word) (s : State),
    let n := fieldAt v 7 0
    let w := if fieldAt v 30 16 = 0 then s else setStatusBits faultBase 1 s
    (∀ u, (sourceInfo n).isSome = true → unitFor n (fieldAt v 15 8) = some u →
      exec (.faultForceReg v) s = .next (finish (if bitAt v 31 then w.report [⟨⟨n, u, 0, 0⟩, true, false, false, false⟩] else w))) ∧
    (sourceInfo n = none ∨ unitFor n (fieldAt v 15 8) = none → exec (.faultForceReg v) s = .next (finish (setStatusBits faultBase 2 w)))) ∧
  (∀ (v : Word) (s : State),
    let n := fieldAt v 7 0
    let w := if v.toNat < 256 then s else setStatusBits faultBase 1 s
    (224 ≤ n → exec (.faultSwraise v) s = .next (finish
      (w.raiseAt n ⟨0, 0⟩ (w.reg (faultBase + 0x18) 0) (w.reg (faultBase + 0x20) 0 ++ w.reg (faultBase + 0x1C) 0)))) ∧
    (n < 224 → exec (.faultSwraise v) s = .next (finish (setStatusBits faultBase 2 w)))) ∧
  (∀ (v : Word) (s : State),
    let new := ((s.reg (faultBase + 4) 0 &&& ~~~ 0x200) ||| (v &&& 0x200)) &&& ~~~ (v &&& 0x10F)
    ∃ t, exec (.alarmRelease v) s = .next (finish t) ∧
      t.fault = { s.fault with overflow := s.fault.overflow && !bitAt v 3, alarm := s.fault.alarm && !bitAt v 8 } ∧
      t.reg (faultBase + 4) 0 = (if v.toNat < 1024 then new else new ||| 1) ∧
      (∀ a d, a ≠ faultBase + 4 → t.reg a d = s.reg a d) ∧ ({ t with fault := s.fault, regs := s.regs } : State) = s) ∧
  (∀ s : State,
    let x := s.reg 0x40160010 0
    (s.cores.ccA.released = true → s.cores.ccA.halted = false → exec (.lockstepMismatch false) s = .next (finish
      (({ s with cores := { s.cores with ccA := { s.cores.ccA with halted := true } } } : State).setReg 0x40160010
        (put32 16 (fieldAt x 31 16) ||| put32 0 (satInc 16 (fieldAt x 15 0))) |>.raise 48))) ∧
    (s.cores.ccB.released = true → s.cores.ccB.halted = false → exec (.lockstepMismatch true) s = .next (finish
      (({ s with cores := { s.cores with ccB := { s.cores.ccB with halted := true } } } : State).setReg 0x40160010
        (put32 16 (satInc 16 (fieldAt x 31 16)) ||| put32 0 (fieldAt x 15 0)) |>.raise 49)))) ∧
  ∀ (k : Fin 8) (s : State),
    let m := BitVec.ofNat 8 (2 ^ k.val)
    let u : State := { s with power := { s.power with pllLock := s.power.pllLock &&& ~~~ m, pllLost := s.power.pllLost ||| m } }
    exec (.pllUnlock k) s = .next (finish (
      match k with
      | 0 => u.raise 0 | 1 => u.raiseAt 1 ⟨1, 0xFF⟩ 0 0 | 2 => u.raise 2 | 3 => u.raiseAt 3 ⟨3, 0⟩ 0 0 | 4 => u.raiseAt 3 ⟨3, 1⟩ 0 0
      | 5 => u.raiseAt 3 ⟨4, 0⟩ 0 0 | 6 => u.raise 4 | 7 => u.raise 5))

/-- R46, R53 to R58, R63, R68, R85, R88, R103: what each supply event leaves. -/
def Obligations.SupplyChanges : Prop :=
  ∀ (mv uf : Nat) (pref : Bool) (bay : BitVec 6) (s : State),
    let p := s.power
    let strapped : Power := { p with pinPref := pref, pinBay := bay }
    let volt : State := { s with power := { strapped with vin := mv } }
    let on (q : Power) : State := { s with power := { q with
      supply := .starting, mode := .run, vin := mv, holdupUf := uf, classFixed := false, classHigh := false, holdupOk := false
      rstCause := if p.mode = .cell then 0x101 else 1, pref := q.pinPref, bayId := q.pinBay } }
    let sees (t : State) : State := { t with tamper := { t.tamper with raw := t.tamper.raw &&& ~~~ 0x8000 } }
    let up (q : Power) : State :=
      let t := sees (if uf < 200 then (on q).raise 9 else on q)
      if p.vcell < 2700 then t.raise 8 else t
    let lost (t : State) : Prop :=
      t.power.booted = false ∧ t.power.safe = false ∧ t.power.holdupOk = false ∧ t.cores = ⟨Core.reset .ccA, Core.reset .ccB, Core.reset .mgt⟩ ∧ t.lines = 0 ∧ t.mlines = 0 ∧
      t.cqe.inflight = [] ∧ t.cqe.queues = [] ∧ t.port0 = HostPort.reset ∧ t.port1 = HostPort.reset ∧ t.mgmtp = MgmtPort.reset ∧
      t.ktab = Ktab.reset ∧ t.lanes = Lanes.reset ∧ t.pke = Pke.reset ∧ t.regs = [] ∧ t.dramc = Dramc.reset ∧ t.power.pllLock = 0 ∧
      (∀ a, a < 2 ^ 64 → t.readByte 0 a = 0 ∧ t.readByte 2 a = 0 ∧ t.readByte 3 a = 0) ∧
      t.nvm = s.nvm ∧ t.kiln.count = s.kiln.count ∧ t.power.classHigh = p.classHigh
    (p.supply = .dark → mv < 8600 → exec (.vinRise mv ⟨uf, pref, bay⟩) s = .next (finish volt)) ∧
    (p.supply = .dark → 8600 ≤ mv → exec (.vinRise mv ⟨uf, pref, bay⟩) s = .next (finish (up strapped))) ∧
    (p.supply = .running → exec (.vinRise mv ⟨uf, pref, bay⟩) s = .next (finish (ringNote .supply 0 volt))) ∧
    (p.supply = .starting → exec (.vinRise mv ⟨uf, pref, bay⟩) s = .next (finish
      { s with power := { strapped with vin := mv, holdupUf := if p.classFixed = true then p.holdupUf else uf } })) ∧
    (p.supply = .failHold → exec (.vinRise mv ⟨uf, pref, bay⟩) s = .next (finish volt)) ∧
    (p.supply = .failHold → (if p.classHigh then 36000 else 8600) < mv → exec (.powerFailHoldRelease ⟨mv, uf⟩) s = .next (finish (up p))) ∧
    (p.supply = .failHold → mv ≤ (if p.classHigh then 36000 else 8600) → exec (.powerFailHoldRelease ⟨mv, uf⟩) s = .next (finish s)) ∧
    (p.supply ≠ .failHold → exec (.powerFailHoldRelease ⟨mv, uf⟩) s = .next (finish s)) ∧
    (p.supply = .starting → p.classFixed = false → exec .busClassFix s = .next (finish
      { s with power := { p with classFixed := true, classHigh := decide (36000 ≤ p.vin ∧ 200 ≤ p.holdupUf) } })) ∧
    (p.supply ≠ .starting ∨ p.classFixed = true → exec .busClassFix s = .next (finish s)) ∧
    (p.supply = .starting ∨ p.supply = .running → exec .holdupCharged s = .next (finish { s with power := { p with holdupOk := true } })) ∧
    (p.supply = .dark ∨ p.supply = .failHold → exec .holdupCharged s = .next (finish s) ∧ exec (.powerFail mv) s = .next (finish s)) ∧
    (p.supply = .starting ∨ p.supply = .running →
      ∃ t, exec (.powerFail mv) s = .next (finish t) ∧ lost t ∧ t.power.supply = .failHold ∧ t.power.mode = .run ∧ t.power.vin = mv ∧ t.vault.kek = s.vault.kek ∧ t.clock = s.clock ∧
        t.tamper.sticky = s.tamper.sticky ∧
        (p.classHigh = true → p.booted = true → p.mode ≠ .steep →
          t.journal.pf = if pfWritable s then some ⟨s.nvm.powerOns % 64, queueSlots s s.journal.flushed⟩ else none)) ∧
    (p.supply = .starting ∨ p.supply = .running → mv < 7800 →
      ∃ t, exec (.vinLoss mv) s = .next (finish t) ∧ lost t ∧ t.power.supply = .dark ∧ t.power.vin = mv ∧ t.journal.pf = s.journal.pf ∧
        (p.vcell ≠ 0 → t.power.mode = .cell ∧ t.vault.kek = s.vault.kek ∧ t.clock = s.clock ∧ t.tamper.sticky = s.tamper.sticky) ∧
        (p.vcell = 0 → t.power.mode = .run ∧ t.vault.kek = none ∧ t.clock.valid = false ∧ t.tamper.sticky = 0)) ∧
    (p.supply = .failHold → mv < 7800 → p.vcell ≠ 0 → exec (.vinLoss mv) s = .next (finish { s with power := { p with supply := .dark, vin := mv, mode := .cell } })) ∧
    (p.supply = .dark ∨ 7800 ≤ mv → exec (.vinLoss mv) s = .next (finish { s with power := { p with vin := mv } })) ∧
    (p.supply = .dark → mv ≠ 0 → exec (.vcellLow mv) s = .next (finish { s with power := { p with vcell := mv } })) ∧
    (p.supply = .dark → ∃ t, exec (.vcellLow 0) s = .next (finish t) ∧ t.power.mode = .run ∧ t.vault.kek = none ∧ t.clock.valid = false ∧ t.tamper.sticky = 0 ∧
      t.tamper.bkpLost = true) ∧
    (p.supply = .running → mv < 2700 → exec (.vcellLow mv) s = .next (finish (ringNote .supply 1 (({ s with power := { p with vcell := mv } } : State).raise 8)))) ∧
    (p.supply = .running → 2700 ≤ mv → exec (.vcellLow mv) s = .next (finish (ringNote .supply 1 { s with power := { p with vcell := mv } }))) ∧
    (p.supply = .starting ∨ p.supply = .failHold → mv < 2700 → exec (.vcellLow mv) s = .next (finish (({ s with power := { p with vcell := mv } } : State).raise 8))) ∧
    (p.supply = .starting ∨ p.supply = .failHold → 2700 ≤ mv → exec (.vcellLow mv) s = .next (finish { s with power := { p with vcell := mv } }))

/-- R45, R48, R49. Roles ELECTING and SYNCING and the start-up: log 114. -/
def Obligations.LeverEvents : Prop :=
  ∀ s : State,
    let p := s.power
    let go := exec .leverRise s
    let noted : State := { s with power := { p with leverOpen := true, leverDue := true } }
    let refuses (n : State) : State := { n with power := { n.power with leverDue := false, withdrawing := true } }
    let acted (n t : State) : Prop :=
      (n.power.booted = false ∨ leverWaits n = true → t = n) ∧
      (n.power.booted = true → leverWaits n = false →
        (n.pair.role = .active → castleReady n = true → t = beginPlanned none true { n with power := { n.power with leverDue := false } }) ∧
        (n.pair.role = .active → castleReady n = false → t = refuses n) ∧
        (n.pair.role = .standby → t = { n with power := { n.power with leverDue := false }, pair := ({ n.pair with leaving := true } : Pair).send (.control .withdrawal) }) ∧
        (n.pair.role ≠ .active → n.pair.role ≠ .standby → t = refuses n))
    (s.kiln.latch = true ∨ p.supply = .failHold ∨ p.supply = .dark → go = .next (finish { s with power := { p with leverOpen := true } })) ∧
    (s.kiln.latch = false → p.supply = .running ∨ p.supply = .starting →
      (p.mode = .lager → go = .next (finish (recordWake .lever 0 noted))) ∧
      (p.mode = .run → p.booted = false → go = .next (finish noted)) ∧
      (p.mode = .run → p.booted = true →
        (leverWaits s = true → go = .next (finish (ringNote .lever 0 noted))) ∧
        (leverWaits s = false → ∃ t, go = .next (finish t) ∧ acted (ringNote .lever 0 noted) t ∧
          (s.pair.role ≠ .standby → (s.pair.role = .active → castleReady s = false) → t.power = { p with leverOpen := true, withdrawing := true, leverDue := false }) ∧
          (s.pair.role = .active → castleReady s = true → t.pair.castling = .planned none true ∧ t.cqe.queues = s.cqe.queues) ∧
          (s.pair.role = .standby → t.pair.leaving = true ∧ t.power.withdrawing = p.withdrawing))) ∧
      (p.mode = .steep → ∃ t, go = .next (finish t) ∧ acted (dormantEvent .lever 0 noted) t ∧ t.power.mode = .run ∧ t.power.prev = .steep ∧ t.power.wakeCause = 64)) ∧
    exec .leverClosed s = .next (finish
      { s with
        power := { p with leverOpen := false, leverDue := false, withdrawing := false, drainDone := false }
        pair := { s.pair with leaving := false, castling := match s.pair.castling with | .planned key _ => .planned key false | c => c } }) ∧
    (p.withdrawing = true → p.drainDone = false →
      let t := queueCheckpoint 0 (flush { s with power := { p with drainDone := true } })
      exec .withdrawalDrainTimeout s = .next (finish t) ∧ t.power = { p with drainDone := true } ∧ t.cqe.queues = s.cqe.queues ∧
        t.cqe.inflight = s.cqe.inflight ∧ t.clock = { s.clock with ckptAge := 0 } ∧ t.mem = s.mem ∧ t.ktab = s.ktab) ∧
    (p.withdrawing = false ∨ p.drainDone = true → exec .withdrawalDrainTimeout s = .next (finish s))

/-- R85 to R93, R103. -/
def Obligations.WarmAndManagementResets : Prop :=
  (∀ (cause : Nat) (safe : Bool) (s : State), cause < 11 →
    let t := warmReset cause safe s
    t.cqe.inflight = [] ∧ t.cqe.queues = [] ∧ t.lanes.streams = [] ∧ t.ktab.cache = [] ∧ t.vault.sessions = [] ∧ t.lines = 0 ∧
    (∀ l ∈ t.lanes.lanes, l.slot0 = none ∧ l.slot1 = none) ∧ t.cores.ccA = Core.reset .ccA ∧ t.cores.ccB = Core.reset .ccB ∧ t.cores.mgt = s.cores.mgt ∧
    t.pke.unit0 = none ∧ t.pke.unit1 = none ∧ t.power.booted = false ∧ t.power.mode = .run ∧ t.power.safe = false ∧ t.power.safeNext = safe ∧
    bitAt t.power.rstCause cause = true ∧ (∀ k, bitAt s.power.rstCause k = true → bitAt t.power.rstCause k = true) ∧
    (∀ a, a < 2 ^ 64 → t.readByte 0 a = 0 ∧ t.readByte 2 a = s.readByte 2 a ∧ t.readByte 3 a = s.readByte 3 a) ∧
    t.ktab.records = s.ktab.records ∧ t.vault.kek = s.vault.kek ∧ t.clock = s.clock ∧ t.tamper.sticky = s.tamper.sticky ∧ t.fault.log = s.fault.log ∧
    t.flash.tries = s.flash.tries ∧ t.flash.lockout = s.flash.lockout ∧ t.flash.unlocked = false ∧ t.nvm = s.nvm ∧ t.mgmtp = s.mgmtp ∧
    (∀ p, (t.port p).linkUp = (s.port p).linkUp ∧ (t.port p).enabled = false) ∧ t.reader.events = s.reader.events ∧ t.ktab.overrun = false ∧ t.ktab.hit = false ∧ t.ktab.result = 0 ∧
    t.tag.field = s.tag.field ∧ t.power.leverDue = s.power.leverOpen) ∧
  (∀ s : State,
    let t := mgmtReset s
    t.cores = { s.cores with mgt := Core.reset .mgt } ∧ t.mlines = 0 ∧ t.mgmtp.responses = [] ∧ t.reader.requests = [] ∧ t.reader.resync.isSome = true ∧ t.reader.events = [] ∧ bitAt t.lines 2 = true ∧
    bitAt t.power.rstCause 4 = true ∧ (∀ a, a < 2 ^ 64 → t.readByte 3 a = 0) ∧ t.cqe.queues = s.cqe.queues ∧ t.ktab = s.ktab ∧ t.lanes = s.lanes ∧
    t.vault.kek = s.vault.kek ∧ (∀ a d, a < 0x40120000 ∨ 0x40150000 ≤ a → t.reg a d = s.reg a d) ∧ t.port0 = s.port0 ∧ t.port1 = s.port1 ∧ (∀ k, k < 4 → (t.slot k).jobs = []) ∧ (∀ k, k < 6 → (t.fe k).jobs = []) ∧
    t.tag.wired = none) ∧
  ∀ (v : Word) (u : State),
    let m (t : State) : State := if v.toNat < 4 then t else setStatusBits 0x40000000 1 t
    let noted : State := { u with power := { u.power with rstCause := u.power.rstCause ||| 0x10 } }
    let both (t : State) : Prop := exec (.warmResetReq v) u = .next (finish (m t)) ∧ exec (.mgmtResetReq v) u = .next (finish (m t))
    exec .warmReset u = .next (finish (warmReset 1 false u)) ∧
    (bitAt v 0 = true → bitAt v 1 = false → both (warmReset 1 false u)) ∧
    (bitAt v 0 = true → bitAt v 1 = true → both (warmReset 1 false noted)) ∧
    (bitAt v 0 = false → bitAt v 1 = true → both (mgmtReset u)) ∧
    (bitAt v 0 = false → bitAt v 1 = false → both u) ∧
    exec .mgmtPlaneReset u = .next (finish (mgmtReset u)) ∧
    (coreOn u .mgt = true → exec .mgmtWatchdogExpiry u = .next (finish (mgmtReset u))) ∧
    (coreOn u .mgt = false → exec .mgmtWatchdogExpiry u = .next (finish u))

/-- R68 to R78, R80, R81, R102. -/
def Obligations.PowerStates : Prop :=
  (∀ s : State,
    let p := s.power
    let steeped (t : State) : Prop := t.power.mode = .steep ∧ t.cores.ccA = Core.reset .ccA ∧ t.cores.ccB = Core.reset .ccB ∧ t.lines = 0 ∧ t.power.entering = none ∧
      t.power.pllLock = 0 ∧ t.power.prev = p.prev ∧ t.pair.link = .down ∧ t.pair.pathA = false ∧ t.pair.pathB = s.pair.pathB ∧ t.pair.role = s.pair.role ∧
      (∀ l ∈ t.lanes.lanes, l.slot0 = none ∧ l.slot1 = none ∧ l.parkKey = none) ∧ t.lanes.parkKey = s.lanes.parkKey ∧
      (∀ a, a < 2 ^ 64 → t.readByte 0 a = s.readByte 0 a ∧ t.readByte 2 a = s.readByte 2 a) ∧ t.ktab = s.ktab ∧ t.vault.kek = s.vault.kek
    let lagered (t : State) : Prop := t.power.mode = .lager ∧ t.power.prev = p.prev ∧ t.power.booted = false ∧ t.cores = ⟨Core.reset .ccA, Core.reset .ccB, Core.reset .mgt⟩ ∧
      (∀ a, a < 2 ^ 64 → t.readByte 0 a = 0 ∧ t.readByte 2 a = 0) ∧ t.ktab = Ktab.reset ∧ t.lanes = Lanes.reset ∧ t.cqe.queues = [] ∧ t.cqe.inflight = [] ∧
      t.vault.kek = s.vault.kek ∧ t.clock.time = s.clock.time ∧ t.pair.pathB = s.pair.pathB ∧ t.power.pllLock = 0 ∧ bitAt t.tamper.armed 13 = false
    (p.entering = none → exec .powerStateEntry s = .next (finish s)) ∧
    (∀ m key, p.entering = some (m, key) →
      ((∃ c ∈ s.cqe.inflight, c.key ≠ key) → exec .powerStateEntry s = .next (finish s)) ∧
      ((∀ c ∈ s.cqe.inflight, c.key = key) →
        ∃ t, exec .powerStateEntry s = .next (finish t) ∧ (∀ l ∈ t.lanes.lanes, l.slot0 = none ∧ l.slot1 = none) ∧
          (m = .steep → t.power.mode = .steep ∧ t.cores.ccA = Core.reset .ccA ∧ t.power.entering = none) ∧ (m = .lager → lagered t))) ∧
    ∀ (v : Word), v.toNat < 0x40 →
      let old := s.reg 0x40000010 0
      let new := (old &&& ~~~ 0x30) ||| (v &&& 0x30)
      (fieldAt v 5 4 = 3 → exec (.sysctlPwrTarget v) s = .next (finish (setStatusBits 0x40000000 2 s))) ∧
      (fieldAt v 5 4 = 0 ∨ (fieldAt v 5 4 ≠ 3 ∧ p.mode ≠ .run) → exec (.sysctlPwrTarget v) s = .next (finish (if new = old then s else s.setReg 0x40000010 new))) ∧
      (fieldAt v 5 4 = 1 → p.mode = .run → ∃ t, exec (.sysctlPwrTarget v) s = .next (finish t) ∧ steeped t) ∧
      (fieldAt v 5 4 = 2 → p.mode = .run → ∃ t, exec (.sysctlPwrTarget v) s = .next (finish t) ∧ lagered t)) ∧
  ∀ (w : WakeSource) (obj : Nat) (v : BitVec 16) (s : State),
    let p := s.power
    let fired : State := if w = .timer then { s with power := { p with timerFired := true } } else s
    let o := if w = .timer then 0 else obj
    let u := recordWake w o fired
    let go := exec (.wakeEvent w obj) s
    let wake (k : Nat) : Prop := bitAt (s.reg 0x40000014 0x2B) k = true
    let waking : Prop := (w = .host ∧ p.mode = .steep) ∨ (w = .perst ∧ (p.mode = .steep ∨ wake 0)) ∨ (w = .capSlot ∧ wake 1) ∨ (w = .field ∧ wake 2) ∨ (w = .card ∧ wake 3) ∨
      (w = .timer ∧ wake 4) ∨ (w = .heartbeat ∧ (p.mode = .steep ∨ wake 5)) ∨ (w = .lever ∧ p.mode = .steep)
    let at' : Word := match w with | .host => 1 | .perst => 1 | .capSlot => 2 | .field => 4 | .card => 8 | .timer => 16 | .heartbeat => 32 | .lever => 64 | .shelfIn => 1 | .cardOut => 1
    let happens : Prop := w = .timer → timerDue s = true
    let powered : Prop := p.supply = .running ∨ p.supply = .starting
    (p.wakeLog.length < 64 → u = { fired with power := { fired.power with wakeLog := p.wakeLog ++ [⟨w, o, s.clock.time, 0, p.mode == .steep⟩] } }) ∧
    (¬ powered ∨ p.mode = .cell ∨ ¬ happens → go = .next (finish s)) ∧
    (powered → p.mode = .run → w ≠ .timer → go = .next (finish s)) ∧
    (powered → p.mode = .run → w = .timer → happens → go = .next (finish (ringNote .timer 0 fired))) ∧
    (powered → p.mode = .lager → happens → ¬ waking → go = .next (finish u)) ∧
    (powered → p.mode = .steep → happens → ¬ waking → go = .next (finish (postWake u ⟨w, o, s.clock.time, 0, true⟩))) ∧
    (powered → p.mode = .steep → happens → waking → ∃ t, go = .next (finish t) ∧ t.power.mode = .run ∧ t.power.prev = .steep ∧ t.power.wakeCause = at' ∧ t.power.wakeLog = [] ∧
      t.power.pllLock = 0xFF ∧ t.power.bayId = p.pinBay ∧ t.port0.lstate = .l0 ∧ t.port1.lstate = .l0 ∧ t.reader.events ≠ []) ∧
    (powered → p.mode = .lager → happens → waking → ∃ t, go = .next (finish t) ∧ t.power.mode = .run ∧ t.power.prev = .lager ∧ t.power.wakeCause = at' ∧
      t.power.supply = .starting ∧ t.power.rstCause = p.rstCause ||| 0x401 ∧ t.power.bayId = p.pinBay ∧ t.power.wakeLog ≠ [] ∧ t.mem = s.mem ∧ t.regs = s.regs) ∧
    (p.mode = .run → p.supply = .running → exec (.shelfInChange v) s = .next (finish { s with power := { p with shelfIn := v }, lines := s.lines ||| 0x100000 })) ∧
    (p.mode = .lager → powered → exec (.shelfInChange v) s = .next (finish (recordWake .shelfIn 0 { s with power := { p with shelfIn := v } }))) ∧
    (p.mode = .steep → powered → exec (.shelfInChange v) s = .next (finish
      (postWake (recordWake .shelfIn 0 { s with power := { p with shelfIn := v } }) ⟨.shelfIn, 0, s.clock.time, 0, true⟩))) ∧
    (p.supply = .dark ∨ p.supply = .failHold → exec (.shelfInChange v) s = .next (finish { s with power := { p with shelfIn := v } })) ∧
    ∀ x : State, (drainWakes x).power.wakeLog = []

/-- R81, R83, R92 to R99, R271, R401, R429, R599. -/
def Obligations.StartUpAndTime : Prop :=
  (∀ (e : BootEnv) (s : State),
    let p := s.power
    let ready : Prop := p.booted = false ∧ p.mode = .run ∧
      (p.supply = .running ∨ (p.supply = .starting ∧ (p.prev = .lager ∨ (p.classFixed = true ∧ p.leverOpen = false))))
    (¬ ready → exec (.bootStart e) s = .next (finish s)) ∧
    (ready → ∃ t, exec (.bootStart e) s = .next (finish t) ∧ t.power.booted = true ∧ t.power.supply = .running ∧ t.power.safeNext = false ∧
      t.power.pllLock = 0xFF ∧ t.power.pllLost = 0 ∧ t.kiln.incomplete = false ∧
      t.nvm.powerOns = (if p.supply = .starting then s.nvm.powerOns + 1 else s.nvm.powerOns) ∧
      (p.supply = .starting → t.port0.common = e.refclk.1 ∧ t.port1.common = e.refclk.2) ∧
      (e.checkerOk = true → e.seedOk = true → p.safeNext = false → e.first = (true, true) → t.power.safe = false ∧ t.power.runningBank = s.nvm.selector) ∧
      (e.checkerOk = true → e.seedOk = true → p.safeNext = false → e.first = (false, false) → e.second = (true, true) →
        t.power.safe = false ∧ t.power.runningBank = 1 - s.nvm.selector) ∧
      (e.checkerOk = false ∨ e.seedOk = false ∨ p.safeNext = true ∨ e.first.1 ≠ e.first.2 ∨ (e.first = (false, false) ∧ e.second ≠ (true, true)) →
        t.power.safe = true ∧ bitAt t.power.rstCause 7 = true) ∧
      (t.power.safe = false → t.cores.ccB.released = true) ∧
      (t.power.safe = false → s.kiln.incomplete = false → s.stored ≠ .blank → s.stored ≠ .retired → s.vault.kek = none ∨ s.vault.kek = some 0 →
        t.vault.keyless = true ∧ bitAt t.power.rstCause 9 = true))) ∧
  (∀ (n : Nat) (s : State),
    let k := s.clock
    let u : State := { s with clock := { k with
      time := k.time + BitVec.ofNat 64 n, lfclk := k.lfclk + n, ckptAge := k.ckptAge + n, signAge := k.signAge + n, tryAge := k.tryAge + n } }
    let v := latchTick n (wakeEvent .timer 0 (apduTimeouts u))
    let w : State := { v with lines := v.lines ||| 0x200000 }
    let f := flush w
    let go := exec (.custodyTimeTick n) s
    v.clock = u.clock ∧ v.mem = s.mem ∧
    ((∀ c ∈ s.cqe.inflight, apduLate u c = false) → timerDue u = false → rngPowered u = false → v = u) ∧
    (awake v = false → go = .next (finish v)) ∧
    (awake v = true → (v.journals = false ∨ v.journal.next = 0 ∨ v.clock.ckptAge < 8192) → go = .next (finish w)) ∧
    (awake v = true → v.journals = true → 0 < v.journal.next → 8192 ≤ v.clock.ckptAge → f.journal.qckptSlots ≠ [] →
      (queueSlots f f.journal.flushed = f.journal.qckptSlots → go = .next (finish f)) ∧
      (queueSlots f f.journal.flushed ≠ f.journal.qckptSlots → go = .next (finish (queueCheckpoint 0 f))))) ∧
  (∀ (v : Word) (s : State), v.toNat < 2 → bitAt v 0 = true →
    (s.cores.ccB.released = false → ∃ r : List (Nat × Word), exec (.ccbRelease v) s = .next (finish { s with regs := r, cores := { s.cores with
      ccB := { Core.reset .ccB with released := true, pc := s.reg 0x4016000C 0 } } })) ∧
    (s.cores.ccB.released = true → ∃ r : List (Nat × Word), exec (.ccbRelease v) s = .next (finish { s with regs := r }))) ∧
  (∀ s : State,
    exec (.ixreqAssert true) s = .next (finish { s with cores := { s.cores with ccA := { s.cores.ccA with line22 := true } } }) ∧
    exec (.ixreqAssert false) s = .next (finish { s with cores := { s.cores with ccB := { s.cores.ccB with line22 := true } } }) ∧
    exec (.ixreqDeassert true) s = .next (finish { s with cores := { s.cores with ccB := { s.cores.ccB with line22 := false } } }) ∧
    exec (.ixreqDeassert false) s = .next (finish { s with cores := { s.cores with ccA := { s.cores.ccA with line22 := false } } })) ∧
  ∀ (pll : Fin 8) (s : State),
    let t := pllUnlock pll.val s
    exec (.pllUnlock pll) s = .next (finish t) ∧ t.power.pllLock.getLsbD pll.val = false ∧ t.power.pllLost.getLsbD pll.val = true ∧
      (∀ k, k ≠ pll.val → t.power.pllLock.getLsbD k = s.power.pllLock.getLsbD k) ∧
      t.fault.inputs.map (fun l => l.map (·.report.source)) = s.fault.inputs.map (fun l => l.map (·.report.source)) ++ [[[0, 1, 2, 3, 3, 3, 4, 5].getD pll.val 5]]

/-- R5, R7, R9 to R11, R33, R154, R155, R164, R393, R412. Log 115 for rings 1 to 3. -/
def Obligations.RegisterWrites : Prop :=
  (∀ (c : CoreId) (blk o : Nat) (v : Word) (r : RegSpec) (s : State),
    let a := 0x40000000 + 0x10000 * blk + o
    coreOn s c = true → mpuCheck s c (s.core c).ring 1 a = none → blk ≤ 22 → o < 0x10000 → o % 4 = 0 → regSpec blk o = some r →
    let key := regKey c blk o
    let locked := regLocked c blk o s
    let plane : Prop := blk = 0 ∨ (18 ≤ blk ∧ blk ≤ 21)
    let reaches : Prop := (c = .mgt ∧ (plane ∨ blk = 22)) ∨ (c ≠ .mgt ∧ ¬ plane ∧ (s.core c).ring = 0)
    let marks : Word := (if v &&& r.reserved = 0 then 0 else 1) ||| (if r.bad v = true then 2 else 0) |||
      (if locked = true ∧ r.rwl ≠ 0 ∧ r.bad v = false then 4 else 0)
    let marked (t : State) : State := if marks = 0 then t else setStatusBits (if blk = 22 ∧ c = .mgt then coreReg c 0 else 0x40000000 + 0x10000 * blk) marks t
    let old := s.reg key r.rst
    let go := exec (.registerWrite (.core c) a (v.setWidth 64) 4) s
    (c ≠ .mgt → plane ∨ (s.core c).ring ≠ 0 → go = .next (finish s)) ∧
    (reaches → heldOff blk o v s = true → go = .next (finish (markOverrun blk o s))) ∧
    (reaches → heldOff blk o v s = false → r.bad v = true → go = .next (finish (marked s))) ∧
    (reaches → heldOff blk o v s = false → r.bad v = false →
      ∃ new : Word, go = .next (finish (marked (regAct c blk o (v &&& ~~~ r.reserved) (if new = old then s else s.setReg key new)))) ∧
        ∀ k, k < 32 → bitAt new k =
          if bitAt v k = true ∧ bitAt r.w1c k = true then false
          else if bitAt v k = true ∧ bitAt r.w1s k = true then true
          else if bitAt r.rw k = true ∨ (bitAt r.rwl k = true ∧ locked = false) then bitAt v k else bitAt old k)) ∧
  (∀ (c : CoreId) (a n d : Nat) (v : DWord) (s : State), a < 2 ^ 32 →
    let go := exec (.registerWrite (.core c) a v n) s
    let one : Prop := n = 1 ∨ n = 2 ∨ n = 4
    let traps (vec d : Nat) : Host.Outcome State Fault Refusal := .next (finish (raiseException c vec d (BitVec.ofNat 32 a) s))
    (coreOn s c = false ∨ ¬ one → go = .next (finish s)) ∧
    (coreOn s c = true → one →
      (a % n ≠ 0 → go = traps 4 0) ∧
      (a % n = 0 → mpuCheck s c (s.core c).ring 1 a = some d → go = traps 8 d) ∧
      (a % n = 0 → mpuCheck s c (s.core c).ring 1 a = none →
        (regionOf c a = .rom ∨ regionOf c a = .hole → ringZeroOnly c a = false → go = traps 6 1) ∧
        ∀ sp, regionOf c a = .sram sp → (sp = 0 → sramBad s a = false) → ∃ t, go = .next (finish t) ∧
          (∀ j, j < n → t.readByte sp (a + j) = BitVec.ofNat 8 (v.toNat / 256 ^ j)) ∧
          (∀ key, (∀ j, j < n → key ≠ memKey sp (a + j)) → memGet t.mem key = memGet s.mem key) ∧
          t.core c = s.core c ∧ t.regs = s.regs ∧ t.cqe = s.cqe ∧ t.power = s.power))) ∧
  ∀ (p o n : Nat) (v : DWord) (s : State),
    let arrived := tlpArrives p s
    let alive : Prop := p < 2 ∧ portAlive s p = true
    let fits : Prop := (n = 4 ∧ o % 4 = 0) ∨ (n = 8 ∧ o % 8 = 0)
    let wr := exec (.registerWrite (.host p) o v n) s
    let rd := exec (.registerWrite (.hostRead p) o v n) s
    let answered (d : DWord) (t : State) : State := t.setPort p { t.port p with reply := .data d }
    (¬ alive → wr = .next (finish s) ∧ rd = .next (finish s) ∧ exec (.registerWrite (.hostPoisoned p) o v n) s = .next (finish s)) ∧
    (s.power.mode = .run → arrived = s.setPort p { s.port p with lstate := .l0 }) ∧
    (alive → n = 4 → o % 4 = 0 → wr = .next (finish (barWrite32 p o (v.setWidth 32) arrived)) ∧ rd = .next (finish (answered ((barRead p o arrived).setWidth 64) arrived))) ∧
    (alive → n = 8 → o % 8 = 0 →
      wr = .next (finish (barWrite32 p (o + 4) ((v >>> 32).setWidth 32) (barWrite32 p o (v.setWidth 32) arrived))) ∧
      rd = .next (finish (answered (barRead p (o + 4) arrived ++ barRead p o arrived) arrived))) ∧
    (alive → ¬ fits → wr = .next (finish (arrived.raiseAt 185 (.port p) 0 0)) ∧ rd = .next (finish (answered 0 (arrived.raiseAt 185 (.port p) 0 0)))) ∧
    (alive → exec (.registerWrite (.hostPoisoned p) o v n) s = .next (finish (arrived.setPort p ((arrived.port p).aerError 0x1000)))) ∧
    (2 ≤ p ∨ linkOpen s p = false → exec (.registerWrite (.config p) o v n) s = .next (finish s) ∧ exec (.registerWrite (.configRead p) o v n) s = .next (finish s)) ∧
    (p < 2 → linkOpen s p = true → arrived.power.booted = false →
      exec (.registerWrite (.config p) o v n) s = .next (finish (arrived.setPort p { arrived.port p with reply := .retry })) ∧
      exec (.registerWrite (.configRead p) o v n) s = .next (finish (arrived.setPort p { arrived.port p with reply := .retry }))) ∧
    (p < 2 → linkOpen s p = true → arrived.power.booted = true → n = 4 → o % 4 = 0 →
      exec (.registerWrite (.config p) o v n) s = .next (finish (cfgWrite32 p o (v.setWidth 32) 0xFFFFFFFF (arrived.setPort p { arrived.port p with reply := .none }))) ∧
      exec (.registerWrite (.configRead p) o v n) s = .next (finish (answered ((cfgRead32 p o arrived).setWidth 64) arrived)))

/-- R525, R528, R529, R544, R213. `l m` is the state in which the flits of `m` have been taken and line 14 is asserted where the custody cores are awake. -/
def Obligations.PairMessages : Prop :=
  ∀ s : State,
    let p := s.pair
    let heard : Prop := p.link = .up ∧ s.isFenced 4 0 = false
    let keyed : Prop := p.session = .keyed ∧ heard ∧ s.power.safe = false ∧ s.power.booted = true ∧ s.power.pllLost.getLsbD 5 = false
    let l (m : PairOut) := linkLine m s
    let bad (m : PairOut) : State := (l m).raiseAt 191 .link 0 0
    (∀ m, (heard → l m = { s with
        pair := { p with rxNext := p.rxNext + BitVec.ofNat 16 m.flits, nakSent := false, rxBuf := [], flits := [], txAck := p.txSeq, sameReplays := 0 }
        lines := if awake s = true then s.lines ||| 0x4000 else s.lines }) ∧ (¬ heard → l m = s)) ∧
    (∀ m : Hello,
      let good : Prop := s.nvm.partner = some m.serial ∧ chainOk m.chain m.serial = true ∧ helloKeys m = s.nvm.partnerRec.drop 16
      let sigs := s.attestSign (leBytes 32 m.nonce.toNat ++ leBytes 16 Config.serial.toNat) s.freeCtr
      let u := l (.hello m)
      let answer := PairOut.helloProof (sigs.take 96) (sigs.drop 96) (kemCiphertext ((chainTransport m.chain).take 1568) s.freeCtr)
      let begun : Pair := { u.pair with peer := some m, session := .hello, encapNo := s.freeCtr, txCount := 0, rxCount := 0, syncing := false }
      (heard → s.power.booted = true → s.power.safe = false → good →
        exec (.hello m) s = .next (finish { u with freeCtr := s.freeCtr + 1, pair := begun.send answer })) ∧
      (heard → s.power.booted = true → s.power.safe = false → ¬ good →
        exec (.hello m) s = .next (finish (({ u with pair := { u.pair with peer := none, session := .none } } : State).raiseAt 191 .link 0 0))) ∧
      (¬ heard ∨ s.power.booted = false ∨ s.power.safe = true → exec (.hello m) s = .next (finish u))) ∧
    (∀ (m : Hello) (ec ml ct : List Byte), p.session = .hello → p.peer = some m →
      let u := l (.helloProof ec ml ct)
      let sound := Config.sigOk (helloKeys m) (leBytes 32 p.nonce.toNat ++ leBytes 16 m.serial.toNat) (ec ++ ml)
      let low : Prop := Config.serial.toNat < m.serial.toNat
      (∀ mine, sound = true → kemOpen s.pairs.transportKem ct = some mine →
        let yours := Config.kemSecret ((chainTransport m.chain).take 1568) p.encapNo
        let ours := if low then kdf32 yours "CXM PS" (leBytes 32 mine.toNat ++ leBytes 32 p.nonce.toNat ++ leBytes 32 m.nonce.toNat)
          else kdf32 mine "CXM PS" (leBytes 32 yours.toNat ++ leBytes 32 m.nonce.toNat ++ leBytes 32 p.nonce.toNat)
        let q : Pair := { u.pair with session := .keyed, sessionKey := ours }
        exec (.helloProof ec ml ct) s = .next (finish { u with pair := match s.nvm.preferred with | some r => q.send (.control (.preferred (some r))) | none => q })) ∧
      (sound = false ∨ kemOpen s.pairs.transportKem ct = none → exec (.helloProof ec ml ct) s =
        .next (finish (({ u with pair := { u.pair with peer := none, session := .none } } : State).raiseAt 191 .link 0 0)))) ∧
    (∀ ec ml ct : List Byte, p.session ≠ .hello → exec (.helloProof ec ml ct) s = .next (finish (l (.helloProof ec ml ct)))) ∧
    (∀ (rs : List JRecord) (n i : Nat) (r : KeyRecord),
      let got : State := { l (.journal rs) with pair := { (l (.journal rs)).pair with rxCount := p.rxCount + 1 } }
      (keyed → p.role = .standby →
        let t := rs.foldl storeMirrored got
        exec (.journal rs true) s = .next (finish { t with pair := t.pair.send (.ack (t.journal.next - 1)) })) ∧
      (keyed → p.role = .active → exec (.journal rs true) s = .next (finish (rs.foldl (fun s r => appendAs r.handle r.source r.body s) got))) ∧
      (keyed → p.role ≠ .standby → p.role ≠ .active → exec (.journal rs true) s = .next (finish got)) ∧
      (keyed → ∃ t, exec (.ack n true) s = .next (finish t) ∧ t.journal.acked = max s.journal.acked (min (n + 1) s.journal.next) ∧
        s.journal.committed ≤ t.journal.committed ∧ (s.pairMode = true → t.journal.acked ≤ t.journal.committed) ∧ t.journal.recs = s.journal.recs ∧ t.mem = s.mem ∧ t.ktab = s.ktab ∧
        t.cqe.lateAcks = s.cqe.lateAcks.filter (fun k => decide (n < k)) ∧ s.cqe.mirrorMax ≤ t.cqe.mirrorMax) ∧
      (keyed → exec (.repairMessage i r true) s = .next (finish
        { l (.repair i r) with ktab := { s.ktab.putRecord i r with quarantine := s.ktab.quarantine.filter (· != i) } })) ∧
      (keyed → exec (.journal rs false) s = .next (finish (bad (.journal rs))) ∧ exec (.ack n false) s = .next (finish (bad (.ack n))) ∧
        exec (.repairMessage i r false) s = .next (finish (bad (.repair i r)))) ∧
      (¬ keyed → ∀ b, exec (.journal rs b) s = .next (finish (l (.journal rs))) ∧ exec (.ack n b) s = .next (finish (l (.ack n))) ∧
        exec (.repairMessage i r b) s = .next (finish (l (.repair i r))))) ∧
    (∀ r : JRecord,
      let t := storeMirrored s r
      (r.number ≠ s.journal.next → t = s) ∧
      (r.number = s.journal.next → p.role = .standby → t.journal.next = s.journal.next + 1 ∧ { r with mirrored := true } ∈ t.journal.recs ∧
        (∀ x ∈ s.journal.recs, x ∈ t.journal.recs) ∧ r.number < t.journal.committed))

/-- R520, R534, R535, R540, R541, R547. -/
def Obligations.PairControl : Prop :=
  ∀ s : State, pairHears s = true →
    let l (m : PairOut) := linkLine m s
    let got (c : CtlMsg) : State := { l (.control c) with pair := { (l (.control c)).pair with rxCount := s.pair.rxCount + 1 } }
    (castlingRuns s = false → exec (.control .castleRequest true) s = .next (finish (tryPlanned none false (got .castleRequest)))) ∧
    (castlingRuns s = true → exec (.control .castleRequest true) s = .next (finish (got .castleRequest))) ∧
    (takeoverOk s = true → exec (.control .castleGo true) s = .next (finish (takeOverAlone 3 (got .castleGo)))) ∧
    (takeoverOk s = false → exec (.control .castleGo true) s = .next (finish (got .castleGo))) ∧
    exec (.control .withdrawal true) s = .next (finish { got .withdrawal with pair := { (got .withdrawal).pair with word := s.pair.word.map (fun w => w ||| 0x2000000) } }) ∧
    (s.pair.role = .active → ∃ t, exec (.control .synced true) s = .next (finish t) ∧ t.pair.syncing = false ∧ t.journal.acked = s.journal.next ∧
      (0 < s.journal.next → t.journal.next = s.journal.next + 1 ∧ ∃ r ∈ t.journal.recs, r.number = s.journal.next ∧
        r.body = .role (BitVec.ofNat 64 s.pair.epoch) Config.serial 0 6) ∧ t.pair.word = s.pair.word.map (fun w => (w &&& 0x0FFFFFFF) ||| 0x20000000)) ∧
    (s.pair.role ≠ .active → exec (.control .synced true) s = .next (finish (got .synced))) ∧
    (∀ r : PrefRecord, (∀ q, s.nvm.preferred = some q → q.epoch ≤ r.epoch) →
      exec (.control (.preferred (some r)) true) s = .next (finish { got (.preferred (some r)) with nvm := { s.nvm with preferred := some r } })) ∧
    (∀ r q : PrefRecord, s.nvm.preferred = some q → r.epoch < q.epoch → exec (.control (.preferred (some r)) true) s = .next (finish (got (.preferred (some r))))) ∧
    exec (.control (.preferred none) true) s = .next (finish { got (.preferred none) with nvm := { s.nvm with preferred := none } }) ∧
    (∀ m : CtlMsg, exec (.control m false) s = .next (finish ((l (.control m)).raiseAt 191 .link 0 0))) ∧
    (∀ (i : SyncImage),
      let u := l (.sync i)
      let keeps : Prop := i.crCapsule.bind (openCapsule s) = none ∨ crPresent s = true ∨ takesCr s = false
      let same : Prop := i.crCheck = s.nvm.crCheck ∧ s.nvm.pairTag = some i.pairTag
      (s.pair.role ≠ .syncing → ∀ b, exec (.sync i b) s = .next (finish u)) ∧
      (s.pair.role = .syncing → exec (.sync i false) s = .next (finish (u.raiseAt 191 .link 0 0))) ∧
      (s.pair.role = .syncing → keeps → ¬ same → exec (.sync i true) s = .next (finish (u.raiseAt 191 .link 0 0))) ∧
      (s.pair.role = .syncing → keeps → same → i.progress < 100 →
        exec (.sync i true) s = .next (finish { u with pair := { u.pair with progress := i.progress } })) ∧
      (s.pair.role = .syncing → keeps → same → 100 ≤ i.progress → i.later = [] →
        ∃ t, exec (.sync i true) s = .next (finish t) ∧ t.pair.role = .standby ∧ t.pair.progress = 100 ∧ t.ktab.present = true ∧ t.ktab.hold = i.held ∧ t.ktab.cache = [] ∧
          t.journal.next = i.lastRec + 1 ∧ t.journal.chain = i.chain ∧ t.journal.staged = [] ∧ t.journal.manifests.length = i.manifests.length ∧
          t.pair.out = s.pair.out ++ [.control .synced, .ack i.lastRec]) ∧
      (∀ cr, s.pair.role = .syncing → i.crCapsule.bind (openCapsule s) = some cr → crPresent s = false → takesCr s = true → s.lifecycle = .blank ∨ checkValue cr = s.nvm.crCheck →
        i.crCheck = checkValue cr → s.nvm.pairTag = none ∨ s.nvm.pairTag = some i.pairTag → i.progress < 100 →
        ∃ t, exec (.sync i true) s = .next (finish t) ∧ t.nvm.crCheck = checkValue cr ∧ t.nvm.pairTag = some i.pairTag ∧ t.vault.keyless = false ∧
          t.vault.kek = some (Config.freeValue s.freeCtr) ∧ t.nvm.kekCheck = checkValue (Config.freeValue s.freeCtr) ∧ t.pair.progress = i.progress)) ∧
    (∀ es : List Handed,
      (takeoverOk s = false → ∀ b, exec (.handover es b) s = .next (finish (l (.handover es)))) ∧
      (takeoverOk s = true → exec (.handover es false) s = .next (finish ((l (.handover es)).raiseAt 191 .link 0 0))) ∧
      (takeoverOk s = true → s.power.mode = .run → s.pair.castling = .none →
        ∃ t, exec (.handover es true) s = .next (finish t) ∧ t.pair.role = .active ∧ t.pair.epoch = s.pair.epoch + 1 ∧
          t.cqe.inflight.length = s.cqe.inflight.length + es.length ∧
          (t.cqe.inflight.drop s.cqe.inflight.length).map (fun c => (c.src, c.op, c.entry)) = es.map (fun h => (h.source, h.opcode, h.entry)))) ∧
    (∀ (kind : Nat) (skip : List (BitVec 16 × Word)), s.power.mode = .run → 0 < s.journal.next →
      let t := takeOver kind skip s
      t.pair.role = .active ∧ t.pair.epoch = s.pair.epoch + 1 ∧ t.pair.castling = .none ∧ t.pair.frozen = false ∧ t.power.shelfDriven = true ∧ t.pair.shelfWait = [] ∧
      (∃ r ∈ t.journal.recs, r.number = s.journal.next ∧ r.body = .role (BitVec.ofNat 64 (s.pair.epoch + 1)) Config.serial (s.nvm.partner.getD 0) kind) ∧
      (∃ r, (t.nvm.active0 = some r ∨ t.nvm.active1 = some r) ∧ r.epoch = s.pair.epoch + 1 ∧ r.serial = Config.serial ∧ r.roleRec = s.journal.next) ∧ t.mem = s.mem)

/-- R527 to R532, R538. The role a word makes the module take is in `hearRole`, what the loss of the partner does in `partnerLost`; both have clauses here for the module that holds no usable state. -/
def Obligations.HeartbeatsAndLink : Prop :=
  (∀ s : State,
    let p := s.pair
    let w := heartbeatWord s
    let q : Pair := { p with txHb := (p.txHb + 1) % 65536, ageA := satInc 16 p.ageA, ageB := satInc 16 p.ageB }
    (s.kiln.latch = true ∨ s.power.supply ≠ .running → exec .heartbeatTick s = .next (finish s)) ∧
    (s.kiln.latch = false → s.power.supply = .running → s.power.mode = .run → linkUsable s = true →
      exec .heartbeatTick s = .next (finish { s with pair := { (q.send (.heartbeat .a w)).send (.heartbeat .b w) with frameB := pathBFrame w } })) ∧
    (s.kiln.latch = false → s.power.supply = .running → (s.power.mode ≠ .run ∨ linkUsable s = false) →
      exec .heartbeatTick s = .next (finish { s with pair := { q with out := p.out ++ [.heartbeat .b w], frameB := pathBFrame w } })) ∧
    (fieldAt w 31 28 = (match p.role with | .electing => 0 | .active => 1 | .standby => 2 | .syncing => 3 | .solo => 4) ∧
      fieldAt w 27 26 = (match s.power.mode with | .steep => 1 | .lager => 2 | _ => 0) ∧ bitAt w 25 = p.leaving ∧ bitAt w 24 = healthy s ∧
      bitAt w 23 = preferredUnit s ∧ bitAt w 22 = p.frozen ∧ fieldAt w 21 16 = 0 ∧ fieldAt w 15 0 = p.txHb % 65536) ∧
    (∀ (path : HbPath) (d : DWord) (ok : Bool),
      let x := d.setWidth 32
      let n := fieldAt x 15 0
      let prev := match path with | .a => p.countA | .b => p.countB
      let valid : Prop := ok = true ∧ fieldAt x 21 16 = 0 ∧ fieldAt x 31 28 ≤ 4 ∧ fieldAt x 27 26 ≠ 3 ∧ prev ≠ some n ∧
        (path = .a → linkUsable s = true) ∧ s.power.supply = .running
      let h := heartbeatFlit path x ok s
      let p' : Pair := match path with
        | .a => { h.pair with word := some x, countA := some n, pathA := true, ageA := 0 }
        | .b => { h.pair with word := some x, countB := some n, pathB := true, ageB := 0 }
      let t : State := { h with pair := p', lines := if s.power.mode = .run then s.lines ||| 0x8000 else s.lines }
      (path = .b ∨ linkUsable s = false → h = s) ∧
      (path = .a → linkUsable s = true → h = { s with pair := if ok = true then linkTake (.heartbeat .a x) p else linkGap { p with crcErr := satInc 16 p.crcErr } }) ∧
      (¬ valid → exec (.heartbeat path d ok) s = .next (finish h)) ∧
      (valid → s.power.booted = true → s.power.safe = false → exec (.heartbeat path d ok) s = .next (finish (hearRole x t))) ∧
      (valid → s.power.booted = false ∨ s.power.safe = true → exec (.heartbeat path d ok) s = .next (finish t))) ∧
    (∀ x : Word, p.castling = .none → p.frozen = false →
      let sync : State := { s with pair := { p with role := .syncing, progress := 0 }, power := { s.power with shelfDriven := false } }
      (p.role = .electing → fieldAt x 31 28 = 1 → hearRole x s = sync) ∧
      (p.role = .solo → fieldAt x 31 28 = 1 → hearRole x s = postEvent 4 0 sync) ∧
      (p.role = .solo → fieldAt x 31 28 = 3 → s.ktab.present = true → hearRole x s = postEvent 4 0 { s with pair := { p with role := .active } }) ∧
      (p.role = .active → fieldAt x 31 28 = 3 → p.session = .keyed → p.syncing = false →
        hearRole x s = { s with freeCtr := s.freeCtr + 1, pair := ({ p with syncing := true } : Pair).send (.sync (syncImageOf s)) })) ∧
    (s.power.supply = .dark ∨ s.power.supply = .failHold → ∀ path, exec (.pathSilent path) s = .next (finish s)) ∧
    (s.power.supply = .running ∨ s.power.supply = .starting → s.power.mode = .run →
      (p.pathA = true → p.pathB = true →
        exec (.pathSilent .b) s = .next (finish (({ s with pair := { p with pathB := false } } : State).raiseAt 189 .link 2 0)) ∧
        (∀ x, p.word = some x → fieldAt x 27 26 = 0 → exec (.pathSilent .a) s = .next (finish (({ s with pair := { p with pathA := false } } : State).raiseAt 189 .link 1 0))) ∧
        (∀ x, p.word = some x → fieldAt x 27 26 ≠ 0 → exec (.pathSilent .a) s = .next (finish { s with pair := { p with pathA := false } }))) ∧
      (p.pathA = true → p.pathB = false → exec (.pathSilent .a) s = .next (finish (partnerLost { s with pair := { p with pathA := false } }))) ∧
      (p.pathA = false → p.pathB = true → exec (.pathSilent .b) s = .next (finish (partnerLost { s with pair := { p with pathB := false } }))) ∧
      (p.pathA = false → p.pathB = false → ∀ path, exec (.pathSilent path) s = .next (finish s))) ∧
    (s.power.supply = .running ∨ s.power.supply = .starting → s.power.mode = .steep ∨ s.power.mode = .lager →
      let v := dormantEvent .heartbeat 0 { s with pair := { p with pathB := false } }
      exec (.pathSilent .a) s = .next (finish s) ∧
      (p.pathB = false → exec (.pathSilent .b) s = .next (finish s)) ∧
      (p.pathB = true → exec (.pathSilent .b) s = .next (finish (if s.power.mode = .steep then partnerLost v else v)))) ∧
    (∀ x, p.word = some x →
      let t := partnerLost s
      (p.role = .syncing → (bitAt x 25 = true ∨ p.prsntHigh = true) →
        t.pair.role = .solo ∧ t.pair.frozen = p.frozen ∧ t.pair.session = .none ∧ t.ktab = Ktab.reset ∧ (bitAt x 25 = true → t.fault = s.fault) ∧
          (bitAt x 25 = false → t.fault.inputs = s.fault.inputs ++ [[⟨⟨190, .link, 0, 0⟩, false, false, false, false⟩]])) ∧
      (p.role = .standby → takeoverOk s = false → t.pair.role = .solo ∧ (bitAt x 25 = true ∨ p.prsntHigh = true → t.ktab = s.ktab)) ∧
      (p.role = .standby → takeoverOk s = true → bitAt x 25 = true → t = takeOverAlone 4 s) ∧
      (p.role = .active ∨ p.role = .solo → bitAt x 25 = false → p.prsntHigh = false → p.frozen = false →
        t.pair.frozen = true ∧ t.pair.role = p.role ∧ t.pair.freezeAck = s.journal.acked ∧ t.power.shelfDriven = false ∧ t.pair.session = .none ∧
          t.pair.freezeKeys = s.ktab.records.map (fun k => (k.1, k.2.gen))))) ∧
  ∀ s : State,
    let p := s.pair
    let quiet : Pair := { p with link := .down, session := .none, peer := none, syncing := false, flits := [], rxBuf := [], nakSent := false }
    let replay (n : Nat) (q : Pair) : State :=
      ({ s with pair := { q.send .replay with replays := satInc 16 p.replays, sameReplays := n } } : State).raiseAt 188 .link 0 0
    (∀ f : List Byte,
      let kind := fieldOf f 4 1
      let last := bitAt (BitVec.ofNat 32 (fieldOf f 5 1)) 1
      let whole : Prop := f.length = 64 ∧ crc32 (f.take 60) = BitVec.ofNat 32 (fieldOf f 60 4)
      let turn : Prop := flitFormed f = true ∧ BitVec.ofNat 16 (fieldOf f 0 2) = if kind = 0 then p.rxNext - 1 else p.rxNext
      let q := takeFlitAck (BitVec.ofNat 16 (fieldOf f 2 2)) p
      let go := exec (.flitNak f) s
      (p.link ≠ .up → go = .next (finish s)) ∧
      (p.link = .up → ¬ whole → go = .next (finish { s with pair := linkGap { p with crcErr := satInc 16 p.crcErr } })) ∧
      (p.link = .up → whole → ¬ turn → go = .next (finish { s with pair := linkGap p })) ∧
      (p.link = .up → whole → turn → kind = 0 → go = .next (finish { s with pair := { q with nakSent := false } })) ∧
      (p.link = .up → whole → turn → kind = 1 → last = false → 
        go = .next (finish { s with pair := { q with
          nakSent := false, rxNext := p.rxNext + 1, rxBuf := (if bitAt (BitVec.ofNat 32 (fieldOf f 5 1)) 0 then [] else p.rxBuf) ++ slice f 8 (fieldOf f 6 1) } })) ∧
      (p.link = .up → whole → turn → kind = 2 → q.flits = [] → go = .next (finish { s with pair := { q with nakSent := false, rxNext := p.rxNext + 1 } })) ∧
      (p.link = .up → whole → turn → kind = 2 → q.flits ≠ [] → q.txAck ≠ p.txAck → go = .next (finish (replay 1 { q with nakSent := false, rxNext := p.rxNext + 1 }))) ∧
      (p.link = .up → whole → turn → kind = 2 → q.flits ≠ [] → q.txAck = p.txAck → q.sameReplays < 7 →
        go = .next (finish (replay (q.sameReplays + 1) { q with nakSent := false, rxNext := p.rxNext + 1 })))) ∧
    (∀ (a : BitVec 16),
      let n := (a - p.txAck).toNat
      (0 < n → n ≤ min 512 p.flits.length → takeFlitAck a p = { p with flits := p.flits.drop n, txAck := a, sameReplays := 0 }) ∧
      (n = 0 ∨ min 512 p.flits.length < n → takeFlitAck a p = p)) ∧
    (p.link = .up → p.flits ≠ [] → p.sameReplays < 7 → exec .pairReplayTimeout s = .next (finish (replay (p.sameReplays + 1) p))) ∧
    (p.link = .up → p.flits ≠ [] → p.sameReplays = 7 → ∃ t, exec .pairReplayTimeout s = .next (finish t) ∧ t.pair.link = .training ∧ t.pair.sameReplays = 0 ∧
      t.pair.replays = satInc 16 p.replays ∧ t.fault.inputs.length = s.fault.inputs.length + 2) ∧
    (p.link ≠ .up ∨ p.flits = [] → exec .pairReplayTimeout s = .next (finish s)) ∧
    (p.role = .standby → p.pathB = true → exec .partnerLinkDown s = .next (finish (postEvent 4 0 { s with pair := { quiet with role := .syncing, progress := 0 } }))) ∧
    (p.role = .standby → p.pathB = false → exec .partnerLinkDown s = .next (finish { s with pair := quiet })) ∧
    (p.role = .active → exec .partnerLinkDown s = .next (finish (flush { s with pair := quiet }))) ∧
    (p.role ≠ .standby → p.role ≠ .active → exec .partnerLinkDown s = .next (finish { s with pair := quiet })) ∧
    (let nonce : Hash := Config.freeValue s.freeCtr
      let trained : Pair := { p with
        link := .up, session := .none, peer := none, nonce := nonce, txSeq := 0, rxNext := 1, txAck := 0, flits := [], rxBuf := [], nakSent := false, sameReplays := 0 }
      let greeting := PairOut.hello ⟨Config.serial, certificateChain, lastActive s, p.role, preferredUnit s, nonce⟩
      s.isFenced 4 0 = false → bitAt (pairCtl s) 0 = true → s.power.booted = true →
        exec .partnerLinkUp s = .next (finish { s with freeCtr := s.freeCtr + 1, pair := trained.send greeting })) ∧
    (s.isFenced 4 0 = true ∨ bitAt (pairCtl s) 0 = false ∨ s.power.booted = false → exec .partnerLinkUp s = .next (finish s))

/-- R518 to R522, R535, R536, R539, R542, R546. -/
def Obligations.ElectionAndCastling : Prop :=
  (∀ s : State,
    let p := s.pair
    let may : Prop := p.role = .electing ∧ s.power.booted = true ∧ s.power.safe = false ∧ bitAt (pairCtl s) 0 = true
    let solo : State := postEvent 4 0 { s with pair := { p with role := .solo }, power := { s.power with shelfDriven := true } }
    let sync : State := postEvent 4 0 { s with pair := { p with role := .syncing, progress := 0 }, power := { s.power with shelfDriven := false } }
    (¬ may → exec .election s = .next (finish s)) ∧
    (may → s.nvm.partner = none → exec .election s = .next (finish solo)) ∧
    (may → s.nvm.partner ≠ none → (p.session ≠ .keyed ∨ p.peer = none) → p.prsntHigh = true → exec .election s = .next (finish solo)) ∧
    (may → s.nvm.partner ≠ none → (p.session ≠ .keyed ∨ p.peer = none) → p.prsntHigh = false →
      ∃ t, exec .election s = .next (finish t) ∧ t.pair.role = .active ∧ t.pair.frozen = true ∧ p.epoch < t.pair.epoch ∧ t.power.shelfDriven = false) ∧
    (∀ m, may → s.nvm.partner ≠ none → p.session = .keyed → p.peer = some m →
      ((m.role = .active ∨ m.role = .solo) → exec .election s = .next (finish sync)) ∧
      (m.role ≠ .active → m.role ≠ .solo → electionWon s m = false → exec .election s = .next (finish sync)) ∧
      (m.role ≠ .active → m.role ≠ .solo → electionWon s m = true →
        ∃ t, exec .election s = .next (finish t) ∧ t.pair.role = .active ∧ p.epoch < t.pair.epoch ∧
          (0 < s.journal.next → ∃ r ∈ t.journal.recs, r.number = s.journal.next ∧ r.body = .role (BitVec.ofNat 64 t.pair.epoch) Config.serial 0 1)) ∧
      (lastActive s = none → m.lastActive = none →
        electionWon s m = if preferredUnit s = m.preferred then decide (Config.serial.toNat < m.serial.toNat) else preferredUnit s))) ∧
  ∀ s : State,
    let p := s.pair
    (∀ key leaving, p.castling = .planned key leaving →
      ((∃ c ∈ s.cqe.inflight, key ≠ some c.key) → exec .plannedCastlingDrained s = .next (finish s)) ∧
      ((∀ c ∈ s.cqe.inflight, key = some c.key) → s.fault.mateAfterCastling = false → p.activating = false →
        ∃ t, exec .plannedCastlingDrained s = .next (finish t) ∧ t.pair.role = (if leaving then .solo else .standby) ∧ t.pair.handing = [] ∧
          t.pair.out = s.pair.out ++ [.handover p.handing] ++ (if leaving then [.control .withdrawal] else []) ∧ t.power.shelfDriven = false ∧
          t.power.withdrawing = (s.power.withdrawing || leaving) ∧
          t.lanes.streams = [] ∧ t.ktab.cache = [] ∧ t.vault.sessions = [] ∧ t.pair.castling = (match key with | some k => .requested (some k) | none => .none) ∧ t.mem = s.mem)) ∧
    ((∀ k l, p.castling ≠ .planned k l) → exec .plannedCastlingDrained s = .next (finish s)) ∧
    (∀ key, p.castling = .draining key → exec .castleDrainTimeout s = .next (finish (tryPlanned key false { s with pair := { p with castling := .none } }))) ∧
    ((∀ k, p.castling ≠ .draining k) → exec .castleDrainTimeout s = .next (finish s)) ∧
    (castleReady s = true → (∀ c ∈ s.cqe.inflight, c.op ≠ 0x0009) → ∀ leaving,
      let t := tryPlanned none leaving s
      t.pair.castling = .planned none leaving ∧ (∀ c ∈ t.cqe.inflight, ∀ d ∈ s.cqe.inflight, handsOver s d = true → d.key ≠ c.key) ∧
      t.pair.handing = p.handing ++ (s.cqe.inflight.filter (handsOver s)).map (fun c => ⟨c.src, c.op, c.entry⟩) ∧ t.pair.role = p.role) ∧
    (castleReady s = false → ∀ leaving, tryPlanned none leaving s = { s with pair := { p with castling := .none } }) ∧
    (let conditions : Prop := p.role = .standby ∧ preferredUnit s = true ∧ healthy s = true ∧ s.power.mode = .run ∧ s.power.leverOpen = false ∧ bitAt (pairCtl s) 1 = true
      let holdOver : Prop := ∃ t, p.holdFrom = some t ∧ fieldAt (pairCtl s) 19 4 ≤ (s.clock.lfclk - t) / 32768
      (conditions → holdOver → p.castling = .none →
        exec .revertiveReturn s = .next (finish { s with pair := ({ p with castling := .requested none } : Pair).send (.control .castleRequest) })) ∧
      (¬ conditions ∨ (¬ holdOver ∧ fieldAt (pairCtl s) 19 4 ≠ 0) ∨ p.castling ≠ .none → exec .revertiveReturn s = .next (finish s))) ∧
    (p.frozen = true → exec .pairPrsntHigh s = .next (finish { s with pair := { p with frozen := false, prsntHigh := true }
                                                                      power := { s.power with shelfDriven := s.power.shelfDriven || p.role == .active || p.role == .solo } })) ∧
    (p.frozen = false → exec .pairPrsntHigh s = .next (finish { s with pair := { p with prsntHigh := true } }))

/-- R557 to R574, R578. `base` is the state with the frame counted and no answer yet. -/
def Obligations.TagFrames : Prop :=
  (∀ s : State, s.tag.field = true →
    let t := s.tag
    let base : State := { s with tag := { t with frames := satInc 16 t.frames, response := [] } }
    let back : State := { s with tag := { t with
      frames := satInc 16 t.frames, response := [], session := none, pendingT := none, mode := if t.fromHalt then .halt else .idle } }
    (t.mode = .idle → t.quiet = false →
      exec .reqa s = .next (finish { base with tag := { base.tag with mode := .ready, fromHalt := false, response := [0x44, 0] } }) ∧
      exec .wupa s = .next (finish { base with tag := { base.tag with mode := .ready, fromHalt := false, response := [0x44, 0] } })) ∧
    (t.mode = .idle → t.quiet = true → exec .reqa s = .next (finish base) ∧ exec .wupa s = .next (finish base)) ∧
    (t.mode = .halt → exec .reqa s = .next (finish base) ∧
      exec .wupa s = .next (finish { base with tag := { base.tag with mode := .ready, fromHalt := true, response := [0x44, 0] } })) ∧
    (t.mode = .ready ∨ t.mode = .active → exec .reqa s = .next (finish back)) ∧
    (t.mode = .active → exec .hlta s = .next (finish { base with tag := { base.tag with mode := .halt, session := none, pendingT := none } })) ∧
    (t.mode = .ready → exec .hlta s = .next (finish back)) ∧
    (t.mode = .ready → exec (.anticollisionSelect tagUid) s = .next (finish { base with
      tag := { base.tag with mode := .active, response := [0] }, cqe := { s.cqe with tagSeq := 0 } })) ∧
    (∀ uid, t.mode = .ready → uid ≠ tagUid → exec (.anticollisionSelect uid) s = .next (finish back)) ∧
    exec .tagFieldLost s = .next (finish { s with tag := { t with
      mode := .idle, fromHalt := false, field := false, supply := 0, response := [], rate := 0, session := none, pendingT := none, authFails := 0, yEntry := none, yDone := none, yOut := [] } }) ∧
    (∀ mv, 1800 ≤ mv → exec (.tagFieldOn mv) s = .next (finish { s with tag := { t with supply := mv } })) ∧
    (t.mode = .active → t.session = none →
      let reply (u : State) (res : Nat) (d : List Byte) : State := { u with tag := { u.tag with
        response := BitVec.ofNat 8 res :: d, weak := if res = 1 then satInc 16 u.tag.weak else u.tag.weak } }
      (∀ block count : Nat, block < 65536 → count < 256 →
        (1 ≤ count → count ≤ 4 → block + count ≤ 0x300 → (block + count ≤ 0x100 ∨ tagConfig base % 2 = 0) →
          exec (.readBlock block count none) s = .next (finish (reply base 0 ((List.range count).flatMap (fun i => tagBlock base (block + i)))))) ∧
        (count = 0 ∨ 4 < count ∨ 0x300 < block + count → exec (.readBlock block count none) s = .next (finish (reply base 3 []))) ∧
        (1 ≤ count → count ≤ 4 → block + count ≤ 0x300 → 0x100 < block + count → tagConfig base % 2 = 1 →
          exec (.readBlock block count none) s = .next (finish (reply base 2 [])))) ∧
      (∀ (block count : Nat) (data : List Byte) (sup : List Nat), data.length = 16 * (count % 256) →
        exec (.writeBlock block count data none sup) s = .next (finish (reply base 2 [])) ∧
        exec (.counterInc block count none sup) s = .next (finish (reply base 2 []))) ∧
      (∀ c v : Nat, c < 8 → counterValue base c = some v →
        let told := reply base 0 (leBytes 3 v)
        (counterCopy base 192 c = some v ∧ counterCopy base 193 c = some v ∨ (0 < t.supply ∧ t.supply < 2400) → exec (.counterRead c none) s = .next (finish told)) ∧
        (counterCopy base 192 c ≠ some v ∨ counterCopy base 193 c ≠ some v → t.supply = 0 ∨ 2400 ≤ t.supply →
          ∃ u, exec (.counterRead c none) s = .next (finish u) ∧ u.tag = told.tag ∧ counterCopy u 192 c = some v ∧ counterCopy u 193 c = some v ∧
            u.fault.inputs = if tagRun s = true then s.fault.inputs ++ [[⟨⟨200, ⟨0, 0⟩, 0, 0⟩, false, false, false, false⟩]] else s.fault.inputs)) ∧
      (∀ c : Nat, c < 8 → counterValue base c = none → exec (.counterRead c none) s = .next (finish (reply base 9 []))) ∧
      (∀ c : Nat, 8 ≤ c → c < 256 → exec (.counterRead c none) s = .next (finish (reply base 3 []))) ∧
      exec (.quiet none) s = .next (finish { base with tag := { base.tag with response := [0], mode := .idle, quiet := true, session := none, pendingT := none } }) ∧
      (∀ mv : Nat, exec (.getStatus mv none) s = .next (finish { base with tag := { base.tag with
        supply := mv, response := 0 :: (tagUid ++ leBytes 3 (tagSeq base) ++ leBytes 1 (mv / 10) ++ leBytes 1 (quietTime base) ++ [7]) } })) ∧
      (∀ code : Nat, code ≤ 2 → exec (.rate code none) s = .next (finish { base with tag := { base.tag with response := [0], rate := code } })) ∧
      (∀ code : Nat, 2 < code → code < 256 → exec (.rate code none) s = .next (finish (reply base 3 []))) ∧
      (∀ slot : Nat, slot < 4 → t.lockout = false → exec (.auth1 slot) s = .next (finish { base with freeCtr := s.freeCtr + 1, tag := { base.tag with
        pendingT := some (slot, (Config.freeValue s.freeCtr).setWidth 128)
        response := 0 :: aesBytes (tagKey s slot) (leBytes 16 ((Config.freeValue s.freeCtr).setWidth 128 : QWord).toNat) } })) ∧
      (∀ slot : Nat, t.lockout = true → exec (.auth1 slot) s = .next (finish (reply { base with tag := { base.tag with pendingT := none } } 2 []))) ∧
      (∀ token : List Byte, token.length = 32 → t.pendingT = none → exec (.auth2 token) s = .next (finish (reply base 2 []))) ∧
      (∀ (token : List Byte) (slot : Nat) (r : QWord), token.length = 32 → t.pendingT = some (slot, r) →
        let k := tagKey s slot
        let theirs := aesInvBytes k (token.take 16)
        (token.drop 16 = aesBytes k (rotLeft (leBytes 16 r.toNat)) → exec (.auth2 token) s = .next (finish { base with tag := { base.tag with
          response := 0 :: aesBytes k (rotLeft theirs), pendingT := none, session := some (sessionKey k (blockNat theirs) r, 0) } })) ∧
        (token.drop 16 ≠ aesBytes k (rotLeft (leBytes 16 r.toNat)) → tagRun s = false → exec (.auth2 token) s = .next (finish { base with tag := { base.tag with
          response := [2], pendingT := none, authFails := t.authFails + 1, lockout := t.lockout || decide (2 ≤ t.authFails) } }))) ∧
      (∀ frame : List Byte, frame.length = 64 →
        (tagRun s = false → exec (.yomirSubmit frame none) s = .next (finish (reply base 7 []))) ∧
        (tagRun s = true → cqeOpen base = true → 2 ≤ pseudoEnable base → t.yEntry.isSome = true → exec (.yomirSubmit frame none) s = .next (finish (reply base 8 []))) ∧
        (tagRun s = true → cqeOpen base = true → 2 ≤ pseudoEnable base → t.yEntry = none →
          exec (.yomirSubmit frame none) s = .next (finish (submit (entryOf frame).1 .tag (entryOf frame).2 (reply base 0 []))))) ∧
      (∀ (b : List Byte) (k : Nat), t.yEntry = some (false, k) → t.yDone = some b →
        exec (.yomirFetch none) s = .next (finish { base with tag := { base.tag with response := 0 :: b, yEntry := none, yDone := none } })) ∧
      (t.yDone = none → (∀ k, t.yEntry ≠ some (true, k)) → exec (.yomirFetch none) s = .next (finish (reply base 0 []))) ∧
      (∀ k, t.yEntry = some (true, k) → exec (.yomirFetch none) s = .next (finish (reply base 2 []))) ∧
      (∀ off n : Nat, (∀ k, t.yEntry ≠ some (true, k)) → off < 65536 → 1 ≤ n → n ≤ 48 → off + n ≤ 8192 →
        exec (.yomirOut off n none) s = .next (finish (reply base 0 (padTo n (slice t.yOut off n)))))) ∧
    (∀ (sk : QWord) (ctr : Nat) (m : DWord), t.mode = .active → t.session = some (sk, ctr) →
      let signed (f : List Byte) : Prop := leBytes 8 m.toNat = frameMac sk ctr f
      let answered (u : State) (res : Nat) (d : List Byte) : Prop :=
        u.tag.response = (BitVec.ofNat 8 res :: d) ++ frameMac sk ctr (BitVec.ofNat 8 res :: d) ∧ u.tag.session = some (sk, (ctr + 1) % 65536)
      (¬ signed [0x7D] → exec (.yomirFetch (some m)) s = .next (finish { base with tag := { base.tag with session := none, pendingT := none, response := [6] } })) ∧
      (∀ (block count : Nat) (data : List Byte) (sup : List Nat), data.length = 16 * count → signed (0x72 :: (leBytes 2 block ++ leBytes 1 count ++ data)) →
        1 ≤ count → count ≤ 4 → block / 4 = (block + count - 1) / 4 → 0x100 ≤ block → block ≤ 0x2FF → copyPending base = none → 10 ≤ sup.length → (∀ x ∈ sup, 2400 ≤ x) →
        ∃ (u : State) (sh slot : Nat), sh < 2 ∧ slot < 2 ∧ exec (.writeBlock block count data (some m) sup) s = .next (finish u) ∧
          tagPage u (196 + sh) = mergeBlocks (tagPage s (block / 4)) block data ∧ answered u 0 (leBytes 3 (tagSeq u)) ∧ u.tag.wrote = true ∧
          (∀ key, (key < memKey 6 (64 * (196 + sh)) ∨ memKey 6 (64 * (196 + sh) + 64) ≤ key) → (key < memKey 6 (64 * 194 + 8 * slot) ∨ memKey 6 (64 * 194 + 8 * slot + 8) ≤ key) →
            memGet u.mem key = memGet s.mem key)) ∧
      (∀ (c inc v : Nat) (sup : List Nat), signed [0x73, BitVec.ofNat 8 c, BitVec.ofNat 8 inc] → c < 8 → 1 ≤ inc → inc < 256 → counterValue base c = some v → v + inc < 2 ^ 24 →
        3 ≤ sup.length → (∀ x ∈ sup, 2400 ≤ x) →
        ∃ u, exec (.counterInc c inc (some m) sup) s = .next (finish u) ∧ counterValue u c = some (v + inc) ∧ answered u 0 (leBytes 3 (v + inc)) ∧ u.tag.wrote = true) ∧
      (∀ sup : List Nat, ∀ c inc v : Nat, signed [0x73, BitVec.ofNat 8 c, BitVec.ofNat 8 inc] → c < 8 → 1 ≤ inc → inc < 256 → counterValue base c = some v → v + inc < 2 ^ 24 →
        (∃ mv l, sup = mv :: l ∧ 1800 ≤ mv ∧ mv < 2400) →
        ∃ u, exec (.counterInc c inc (some m) sup) s = .next (finish u) ∧ answered u 1 [1] ∧ u.mem = s.mem))) ∧
  ∀ s : State,
    (s.tag.field = false →
      exec .reqa s = .next (finish s) ∧ exec .hlta s = .next (finish s) ∧ exec (.quiet none) s = .next (finish s) ∧ exec .tagFieldLost s = .next (finish s) ∧
      exec .tagAuthLockoutEnd s = .next (finish { s with tag := { s.tag with lockout := false } }) ∧
      (∀ mv, 1800 ≤ mv → tagRun s = true → exec (.tagFieldOn mv) s = .next (finish (slotEvent 3 0 0 { s with tag := { s.tag with field := true, supply := mv } })))) ∧
    (s.tag.field = true → exec .tagAuthLockoutEnd s = .next (finish s)) ∧
    (∀ mv, mv < 1800 → exec (.tagFieldOn mv) s = .next (finish s)) ∧
    exec .quietExpiry s = .next (finish { s with tag := { s.tag with quiet := false } }) ∧
    (copyPending s = none → ∀ sup, exec (.tagCopyBack sup) s = .next (finish s)) ∧
    (∀ (p sh : Nat) (sup : List Nat), copyPending s = some (p, sh) → 8 ≤ sup.length → (∀ x ∈ sup, 2400 ≤ x) →
      exec (.tagCopyBack sup) s = .next (finish (s.writeBytes 6 (64 * p) (tagPage s (196 + sh)))))

/-- R551 to R556, R563, R564, R575 to R584. -/
def Obligations.ReaderAndWiredTag : Prop :=
  (∀ (v : Nat) (p : Nat) (k : CapPort) (s : State), s.reader.ports[p]? = some k → portDriven s p = false → 500 ≤ v → v ≤ 50000 → k.base ≠ 0 →
    let base := k.base / 2400
    let th := capThreshold s
    ∃ k' : CapPort, k'.last = v ∧ k'.out = 0 ∧ k'.dead = false ∧
      k'.occ = (if base + th < v then k.occ || decide (1 ≤ k.high) else if 2 * v < 2 * base + th then k.occ && decide (k.low = 0) else k.occ) ∧
      (k'.occ = k.occ → capSample s (v, p) = { s with reader := { s.reader with ports := s.reader.ports.set p k' } }) ∧
      (k'.occ = true → k.occ = false → s.power.mode = .run →
        capSample s (v, p) = (slotEvent 1 p 0 { s with reader := { s.reader with ports := s.reader.ports.set p k' } }).mline 6)) ∧
  (∀ (v p : Nat) (k : CapPort) (s : State), s.reader.ports[p]? = some k → portDriven s p = false → 50000 < v → k.out = 7 →
    ∃ k' : CapPort, k'.dead = true ∧ k'.occ = false ∧
      capSample s (v, p) = ({ s with reader := { s.reader with ports := s.reader.ports.set p k' } } : State).raiseAt 194 (.fe (p / 8)) (BitVec.ofNat 32 p) 0) ∧
  (∀ (l : List Nat) (s : State),
    (s.power.supply = .running ∨ s.power.mode = .lager → exec (.capSenseSample l) s = .next (finish ((l.take 48).zipIdx.foldl capSample s))) ∧
    (s.power.supply ≠ .running → s.power.mode ≠ .lager → exec (.capSenseSample l) s = .next (finish s))) ∧
  (∀ (n : Fin 6) (bs : List Byte) (s : State), (s.fe n.val).jobs = [] → exec (.labelResponse n bs) s = .next (finish s) ∧ exec (.labelResponseTimeout n) s = .next (finish s)) ∧
  (∀ (n : Fin 6) (bs : List Byte) (j : LabelJob) (l : List LabelJob) (s : State), (s.fe n.val).jobs = j :: l →
    (j.phase = .write → exec (.labelResponseTimeout n) s = .next (finish (goOn n.val (fun j => { j with phase := .judge, tries := 0 }) s))) ∧
    (j.phase ≠ .write → j.tries < 2 → exec (.labelResponseTimeout n) s = .next (finish (goOn n.val (fun j => { j with tries := j.tries + 1 }) s))) ∧
    (j.phase = .judge ∨ j.phase = .readback → 2 ≤ j.tries → exec (.labelResponseTimeout n) s = .next (finish (complete j.key (answer 0x7004 []) (popJob n.val s)))) ∧
    (j.phase ≠ .write → j.phase ≠ .judge → j.phase ≠ .readback → j.kind ≠ .scan → 2 ≤ j.tries →
      exec (.labelResponseTimeout n) s = .next (finish (complete j.key (answer 0x7005 []) (popJob n.val s)))) ∧
    (j.phase = .select → bs.length < 7 → exec (.labelResponse n bs) s = exec (.labelResponseTimeout n) s) ∧
    (j.phase = .select → 7 ≤ bs.length →
      let l := uidsOf bs.length bs
      let selects (uid : BitVec 56) : Host.Outcome State Fault Refusal := .next (finish (goOn n.val (fun j => { j with
        uid := uid, others := min 255 (l.length - 1), tries := 0, phase := if j.slot.isSome then .auth1 else .status }) s))
      l.length = bs.length / 7 ∧ (∀ k, k < l.length → l[k]? = some (slice bs (7 * k) 7)) ∧
      (j.kind = .scan → exec (.labelResponse n bs) s = selects (BitVec.ofNat 56 (leNat (firstUid l))) ∧ firstUid l ∈ l ∧ ∀ u ∈ l, uidRank u ≤ uidRank (firstUid l)) ∧
      (j.kind ≠ .scan → (∃ u ∈ l, BitVec.ofNat 56 (leNat u) = j.uid) → exec (.labelResponse n bs) s = selects j.uid) ∧
      (j.kind ≠ .scan → (∀ u ∈ l, BitVec.ofNat 56 (leNat u) ≠ j.uid) →
        exec (.labelResponse n bs) s = .next (finish (complete j.key (invalidHandle 0x10) (popJob n.val s))))) ∧
    (∀ d : List Byte, j.phase = .read → j.session = none → bs = 0 :: d → (j.data ++ d).length / 16 < j.count →
      exec (.labelResponse n bs) s = .next (finish (goOn n.val (fun j => { j with data := j.data ++ d, tries := 0 })
        (s.setFe n.val (fun x => { x with result := 0 }))))) ∧
    (∀ (d : List Byte) (c : Inflight), j.phase = .read → j.session = none → bs = 0 :: d → j.count ≤ (j.data ++ d).length / 16 → s.command j.key = some c →
      exec (.labelResponse n bs) s = .next (finish (completeOutput j.key c.src (16 * j.count) c.entry.addr0 (j.data ++ d) (okay [(12, j.seq)])
        (popJob n.val (s.setFe n.val (fun x => { x with result := 0 })))))) ∧
    (∀ d : List Byte, j.phase = .write → j.session = none → bs = 0 :: d →
      exec (.labelResponse n bs) s = .next (finish (complete j.key (okay [(12, fieldOf d 0 3)]) (popJob n.val (s.setFe n.val (fun x => { x with result := 0 })))))) ∧
    (∀ d : List Byte, j.phase = .write → j.session = none → bs = 1 :: d → j.boosted = false → j.power < 200 →
      exec (.labelResponse n bs) s = .next (finish (goOn n.val (fun j => { j with phase := .write, boosted := true, power := j.power + 1, tries := 0 })
        (s.setFe n.val (fun x => { x with result := 1 }))))) ∧
    (∀ d : List Byte, j.phase = .write → j.session = none → bs = 1 :: d → (j.boosted = true ∨ 200 ≤ j.power) →
      exec (.labelResponse n bs) s = .next (finish (complete j.key (answer 0x7005 []) (popJob n.val (s.setFe n.val (fun x => { x with result := 1 }))))))) ∧
  ∀ (page slot : Nat) (s : State), page < 256 → slot < 4 →
    let d := tagifData s
    let starts (o : Host.Outcome State Fault Refusal) (w : WiredOp) : Prop :=
      (tagRun s = true → s.tag.wired = none → o = .next (finish { s with tag := { s.tag with wired := some w, wiredDone := false } })) ∧
      (tagRun s = true → s.tag.wired ≠ none → o = .next (finish { s with tag := { s.tag with wiredQ := s.tag.wiredQ ++ [w] } })) ∧
      (tagRun s = false → o = .next (finish s))
    starts (exec (.tagifReadPage page) s) ⟨1, page, 0, d, none⟩ ∧ starts (exec (.tagifWritePlacardPage page) s) ⟨2, page, 0, d, none⟩ ∧
    starts (exec .tagifWriteConfig s) ⟨3, 0, 0, d, none⟩ ∧ starts (exec (.tagifWriteKeySlot slot) s) ⟨4, 0, slot, d, none⟩ ∧
    (s.tag.wired = none → exec .tagifOpDone s = .next (finish s) ∧ exec .tagifTimeout s = .next (finish s)) ∧
    (∀ w : WiredOp, s.tag.wired = some w → w.key = none →
      let ends (u : State) (res : Nat) : Host.Outcome State Fault Refusal := .next (finish { u with
        tag := { u.tag with wiredDone := true, wiredRes := res, wired := s.tag.wiredQ.head?, wiredQ := s.tag.wiredQ.drop 1 }, mlines := s.mlines ||| 0x100 })
      exec .tagifTimeout s = ends s 1 ∧
      (w.op = 1 → w.page ≤ 191 → exec .tagifOpDone s = ends (setTagifData (tagRead s w.page) s) 0) ∧
      (w.op = 1 → 191 < w.page → exec .tagifOpDone s = ends s 2) ∧ (w.op = 2 → 63 < w.page → exec .tagifOpDone s = ends s 2) ∧
      (w.op = 3 → w.locked s = false → exec .tagifOpDone s = ends (s.writeBytes 6 (64 * 195) (w.data.take 8)) 0) ∧
      (w.op = 3 → w.locked s = true → exec .tagifOpDone s = ends s 4) ∧ (w.op = 4 → w.locked s = true → exec .tagifOpDone s = ends (setTagifData [] s) 4) ∧
      (w.op = 4 → w.locked s = false → exec .tagifOpDone s = ends (setTagifData [] (s.writeBytes 6 (64 * 198 + 16 * w.slot) (w.data.take 16))) 0) ∧
      (w.op = 2 → w.page ≤ 63 → w.data.length = 64 → copyPending s = none → latestCommit s ≠ none → ∃ u, exec .tagifOpDone s = ends u 0 ∧ tagRead u w.page = w.data ∧ u.tag = s.tag))

/-- R587 to R597, R605, for a slot without jobs. `off` is what deactivation clears. -/
def Obligations.CardSlots : Prop :=
  ∀ (n : Fin 4) (s : State), s.cards.length = 4 → (s.slot n.val).jobs = [] →
    let k := s.slot n.val
    let put (f : CardSlot → CardSlot) : State := s.setSlot n.val f
    let said (u : State) : State := { u with mlines := u.mlines ||| bit32 (9 + n.val) true }
    let off (k : CardSlot) : CardSlot := { k with
      cls := 0, mode := 0, busy := false, ns := false, nr := false, retries := 0, wtx := 0, wakes := 0, tx := [], commits := 0, serial := 0 }
    let free : Prop := k.det = true ∧ k.blocked = false ∧ s.isFenced 7 n.val = false
    let act (c : Nat) (k : CardSlot) : CardSlot := { k with
      phase := .atr, cls := if c = 0 then 3 else c, fixed := decide (c ≠ 0), mode := 0, atr := [], badAtr := false, noPps := false
      ns := false, nr := false, retries := 0, wtx := 0, tx := [], busy := true, opDone := false }
    let run : Prop := s.power.mode = .run ∧ s.power.supply = .running
    let cold (f : CardSlot → CardSlot) : State := (atrTiming n.val s).setSlot n.val f
    let time (o : Nat) : Nat := 0x40140000 + 0x20 * n.val + o
    let timed (u : State) (etu cwt : Word) : Prop := u.reg (time 0x108) 0 = etu ∧ u.reg (time 0x10C) 0 = cwt ∧
      ∀ a d, a ≠ time 0x108 → a ≠ time 0x10C → a ≠ time 0x110 → u.reg a d = s.reg a d
    (timed (atrTiming n.val s) 372 9600 ∧ timed (tokenTiming n.val s) 8 16 ∧ (tokenTiming n.val s).reg (time 0x110) 0 = 20000 ∧
      ∀ d, (atrTiming n.val s).reg (time 0x110) d = s.reg (time 0x110) d) ∧
    (k.det = true → exec (.cardInsert n) s = .next (finish s)) ∧
    (k.det = false → run → exec (.cardInsert n) s = .next (finish
      (said (slotEvent 7 n.val 0 (put (fun k => { k with det := true, phase := .present, blocked := false })))))) ∧
    (k.phase = .present → bitAt (s.reg (cardBase + 8) 0x3C320F) n.val = true → free → exec (.cardDetectStable n) s = .next (finish (cold (act 0)))) ∧
    (k.phase ≠ .present → exec (.cardDetectStable n) s = .next (finish s)) ∧
    (∀ c : Nat, k.phase = .present ∨ k.phase = .unusable → free → exec (.cardActivate n c) s = .next (finish (cold (act c)))) ∧
    (∀ c : Nat, k.phase = .present ∨ k.phase = .unusable → ¬ free → exec (.cardActivate n c) s = .next (finish s)) ∧
    (∀ c : Nat, k.phase ≠ .present → k.phase ≠ .unusable → exec (.cardActivate n c) s = .next (finish s)) ∧
    (k.det = false → exec (.cardRemoval n) s = .next (finish s)) ∧
    (k.det = true → run → k.active = false → exec (.cardRemoval n) s = .next (finish
      (said (slotEvent 8 n.val 0 (put (fun k => { off k with det := false, phase := .empty, result := 1, blocked := false })))))) ∧
    (k.det = true → run → k.active = true → exec (.cardRemoval n) s = .next (finish
      (said (slotEvent 8 n.val 0 ((put (fun k => { off k with det := false, phase := .empty, result := 1, blocked := false })).raiseAt 211 (.card n.val) 0 0))))) ∧
    (∀ b : List Byte, k.phase ≠ .atr → exec (.atrReceived n b) s = .next (finish s)) ∧
    (∀ b : List Byte, k.phase = .atr → atrOf b = none → k.badAtr = false → exec (.atrReceived n b) s = .next (finish (put (fun k => { k with badAtr := true, atr := [] })))) ∧
    (∀ b : List Byte, k.phase = .atr → atrOf b = none → k.badAtr = true → exec (.atrReceived n b) s = .next (finish
      ((said (put (fun k => { k with phase := .unusable, cls := 0, mode := 0, wakes := 0, busy := false, opDone := true, result := 5 }))).raiseAt 210 (.card n.val) 0 0))) ∧
    (∀ (b : List Byte) (a : Atr), k.phase = .atr → atrOf b = some a → a.permits k.cls = true → (a.token = false ∨ k.noPps = true) → a.protos.contains 1 = true →
      a.t1 = none → a.classByte = none → a.ta2 = none → a.ta1 = none →
      exec (.atrReceived n b) s = .next (finish ((isoTiming n.val 372 a s).setSlot n.val (fun k => { k with
        atr := b, ifsc := 32, crc := false, stopInd := 0, mode := 1, ns := false, nr := false, retries := 0, phase := .ifs, tx := k.tx ++ [[0, 0xC1, 0xFE]], busy := true }))) ∧
        timed (isoTiming n.val 372 a s) 372 8203) ∧
    (∀ (b : List Byte) (a : Atr), k.phase = .atr → atrOf b = some a → a.permits k.cls = true → a.token = true → k.noPps = false → a.t1 = none → a.classByte = none →
      exec (.atrReceived n b) s = .next (finish (put (fun k => { k with
        atr := b, ifsc := 32, crc := false, stopInd := 0, phase := .pps, tx := k.tx ++ [[0xFF, 0x1E, 0x97, 0x76]] })))) ∧
    (k.phase = .atr → k.fixed = false → 1 < k.cls → exec (.atrTimeout n) s = .next (finish (put (fun k => { k with cls := k.cls - 1, atr := [], badAtr := false })))) ∧
    (k.phase ≠ .atr → exec (.atrTimeout n) s = .next (finish s)) ∧
    (k.phase = .pps → k.tx.getLast? = some [0xFF, 0x1E, 0x97, 0x76] → exec (.ppsResponse n [0xFF, 0x1E, 0x97, 0x76]) s = .next (finish
      (said ((tokenTiming n.val s).setSlot n.val (fun k => { k with mode := 2, ns := false, nr := false, retries := 0, phase := .ready, wakes := 0, busy := false, opDone := true, result := 0 }))))) ∧
    (∀ b : List Byte, k.phase = .pps → k.tx.getLast? ≠ some b → exec (.ppsResponse n b) s = .next (finish (cold (fun k => { k with phase := .atr, noPps := true, atr := [], result := 6 })))) ∧
    (k.active = false → exec (.cardOvercurrent n) s = .next (finish s)) ∧
    (k.active = true → k.det = true → exec (.cardOvercurrent n) s = .next (finish
      ((said (put (fun k => { off k with phase := .present, overCur := true, blocked := true, failures := satInc 16 k.failures, opDone := true, result := 7 }))).raiseAt 208 (.card n.val) 0 0))) ∧
    (k.mode = 2 → k.phase = .ready → exec (.tokenSleepTimer n) s = .next (finish (put (fun k => { k with tx := k.tx ++ [[0x7C, 0xC8]], busy := true })))) ∧
    (k.mode ≠ 2 ∨ k.phase ≠ .ready → exec (.tokenSleepTimer n) s = .next (finish s)) ∧
    (k.mode = 2 → k.phase = .ready → exec (.sSleep n) s = .next (finish (said (put (fun k => { k with phase := .asleep, busy := false, opDone := true, result := 0 }))))) ∧
    (k.phase = .waking → exec (.sWake n) s = .next (finish (said (put (fun k => { k with phase := .ready, wakes := 0, busy := false, opDone := true, result := 0 }))))) ∧
    (k.phase ≠ .waking → exec (.sWake n) s = .next (finish s)) ∧
    (k.phase = .waking → k.mode = 2 → k.wakes = 0 → exec (.cardBwtTimeout n) s = .next (finish (put (fun k => { k with wakes := 1, tx := k.tx ++ [[0x7C, 0xC9]], busy := true })))) ∧
    (k.phase = .atr → k.badAtr = false → exec (.cardCwtTimeout n) s = .next (finish (put (fun k => { k with badAtr := true, atr := [] })))) ∧
    (k.mode = 1 → k.phase = .ready → k.stopInd = 0 → k.det = true → exec (.cardIdleDeact n) s = .next (finish (put (fun k => { off k with phase := .present })))) ∧
    (k.stopInd ≠ 0 → exec (.cardIdleDeact n) s = .next (finish s)) ∧
    (k.active = true → k.det = true → exec (.cardDeactivate n) s = .next (finish (said (put (fun k => { off k with phase := .present, opDone := true, result := 0 }))))) ∧
    (k.active = false → exec (.cardDeactivate n) s = .next (finish s) ∧ exec (.cardWarmReset n) s = .next (finish s)) ∧
    (k.active = true → exec (.cardWarmReset n) s = .next (finish (cold (fun k => { k with
      phase := .atr, mode := 0, atr := [], badAtr := false, noPps := false, ns := false, nr := false, retries := 0, busy := true, opDone := false })))) ∧
    (k.phase = .ready → k.mode = 2 ∨ k.stopInd ≠ 0 → exec (.cardStopClock n) s = .next (finish (said (put (fun k => { k with phase := .stopped, busy := false, opDone := true, result := 0 }))))) ∧
    (k.phase ≠ .ready → exec (.cardStopClock n) s = .next (finish s)) ∧
    (k.phase = .stopped → exec (.cardStartClock n) s = .next (finish (said (put (fun k => { k with phase := .ready, busy := false, opDone := true, result := 0 }))))) ∧
    (k.phase ≠ .stopped → exec (.cardStartClock n) s = .next (finish s))

/-- R590 to R594, R599, R600. `got` is the whole response of the card. -/
def Obligations.CardBlocks : Prop :=
  ∀ (n : Fin 4) (s : State), s.cards.length = 4 →
    let k := s.slot n.val
    let put (f : CardSlot → CardSlot) : State := s.setSlot n.val f
    let tx (k : CardSlot) (pcb : Byte) (inf : List Byte) : List (List Byte) := k.tx ++ [(if k.mode = 2 then 0x7C else 0) :: pcb :: inf]
    (∀ (j : CardJob) (l : List CardJob), k.jobs = j :: l → k.phase = .ready → j.begun = true →
      let dead (src res : Nat) : State := goCard n.val ((complete j.key (answer 0x7005 []) (slotDone n.val res (deactivate n.val
        (put (fun k => { k with jobs := l, failures := satInc 16 k.failures }))))).raiseAt src (.card n.val) 0 0)
      let retry (e : Nat) : State := put (fun k => { k with
        retries := k.retries + 1, blockRetries := satInc 16 k.blockRetries, tx := tx k (BitVec.ofNat 8 (0x80 + (if k.nr then 0x10 else 0) + e)) [], busy := true })
      (∀ (pcb : Byte) (inf : List Byte), bitAt pcb 6 = k.nr → bitAt pcb 7 = false → j.sent = true →
        (bitAt pcb 5 = false → exec (.cardIBlock n pcb inf true) s = .next (finish (cardAnswer n.val j (j.got ++ inf)
          (put (fun k => { k with ns := !k.ns, nr := !k.nr, retries := 0, wtx := 0 }))))) ∧
        (bitAt pcb 5 = true → exec (.cardIBlock n pcb inf true) s = .next (finish (put (fun k => { k with
          nr := !k.nr, retries := 0, wtx := 0, jobs := { j with got := j.got ++ inf } :: l, tx := tx k (BitVec.ofNat 8 (0x80 + (if k.nr then 0 else 0x10))) [], busy := true }))))) ∧
      (∀ (pcb : Byte) (inf : List Byte), k.retries < 3 → exec (.cardIBlock n pcb inf false) s = .next (finish (retry 1)) ∧
        (bitAt pcb 6 ≠ k.nr → exec (.cardIBlock n pcb inf true) s = .next (finish (retry 2))) ∧ exec (.cardRBlock n pcb false) s = .next (finish (retry 1))) ∧
      (k.retries < 3 → exec (.cardBwtTimeout n) s = .next (finish (retry 2)) ∧ exec (.cardCwtTimeout n) s = .next (finish (retry 1))) ∧
      (3 ≤ k.retries → exec (.cardBwtTimeout n) s = .next (finish (dead 209 2)) ∧ exec (.cardCwtTimeout n) s = .next (finish (dead 209 2))) ∧
      (∀ (pcb : Byte) (a b : List Byte) (r : List (List Byte)), bitAt pcb 4 ≠ k.ns → j.out = a :: b :: r →
        ∃ p : Byte, exec (.cardRBlock n pcb true) s = .next (finish (put (fun k => { k with
          ns := !k.ns, retries := 0, wtx := 0, jobs := { j with out := b :: r, sent := decide (r = []) } :: l, tx := tx k p b, busy := true }))) ∧
          bitAt p 6 = !k.ns ∧ bitAt p 5 = !decide (r = []) ∧ bitAt p 7 = false) ∧
      (∀ m : Byte, k.wtx + m.toNat * fieldAt (s.reg (cardBase + 0x110 + 0x20 * n.val) 20000) 23 0 ≤ 10000000 → exec (.sWtx n m) s = .next (finish (put (fun k => { k with
        wtx := k.wtx + m.toNat * fieldAt (s.reg (cardBase + 0x110 + 0x20 * n.val) 20000) 23 0, tx := tx k 0xE3 [m], busy := true })))) ∧
      (∀ m : Byte, 10000000 < k.wtx + m.toNat * fieldAt (s.reg (cardBase + 0x110 + 0x20 * n.val) 20000) 23 0 → k.retries < 3 →
        exec (.sWtx n m) s = .next (finish (retry 2))) ∧
      (tokenBusy s n.val = true → exec (.tokenBusyEnd n) s = .next (finish (put (fun k => { k with jobs := { j with done := true } :: l, commits := k.commits + 1 }))) ∧
        exec (.tokenBusyTimeout n) s = .next (finish (dead 212 3))) ∧
      (∀ (target len : Nat) (b got : List Byte) (c : Inflight) (u : State), j.work = .token 3 target len b → u.command j.key = some c →
        cardAnswer n.val j got u = finishCard n.val (if j.done = true then okay [(12, len), (16, (u.slot n.val).commits.toNat)] else inputRange 0xA) u) ∧
      (∀ (b : List Byte) (room : Nat) (c : Inflight) (got : List Byte) (u : State), j.work = .apdu b room → u.command j.key = some c → got.length ≤ room →
        cardAnswer n.val j got u = goCard n.val (completeOutput j.key c.src room c.entry.addr1 got (okay [(12, got.length), (16, leNat (got.drop (got.length - 2)))])
          (slotDone n.val 0 (u.setSlot n.val (fun k => { k with jobs := k.jobs.drop 1 })))))) ∧
    (tokenBusy s n.val = false → exec (.tokenBusyEnd n) s = .next (finish s) ∧ exec (.tokenBusyTimeout n) s = .next (finish s)) ∧
    (k.jobs = [] → k.mode ≠ 0 →
      exec (.sResynch n false) s = .next (finish (put (fun k => { k with tx := tx k 0xE0 [], busy := true, ns := false, nr := false }))) ∧
      exec (.sResynch n true) s = .next (finish (put (fun k => { k with ns := false, nr := false }))) ∧
      (∀ z : Byte, exec (.sIfs n false z) s = .next (finish (put (fun k => { k with ifsc := z.toNat, tx := tx k 0xE1 [z], busy := true })))) ∧
      (∀ z : Byte, k.phase = .ifs → exec (.sIfs n true z) s = .next (finish ((put (fun k => { k with
        phase := .ready, retries := 0, wakes := 0, busy := false, opDone := true, result := 0 })).mline (9 + n.val)))) ∧
      exec (.sAbort n false) s = .next (finish (put (fun k => { k with tx := tx k 0xE2 [], busy := true }))) ∧
      exec (.sAbort n true) s = .next (finish s)) ∧
    (k.mode = 0 → ∀ (b : Bool) (z : Byte), exec (.sResynch n b) s = .next (finish s) ∧ exec (.sIfs n b z) s = .next (finish s) ∧ exec (.sAbort n b) s = .next (finish s)) ∧
    (k.jobs = [] → ∀ (pcb : Byte) (inf : List Byte) (b : Bool), exec (.cardIBlock n pcb inf b) s = .next (finish s) ∧ exec (.cardRBlock n pcb b) s = .next (finish s))

/-- R106 to R108, R134, R606 to R610 and the rules of power, diagnosis and entropy. `c` is the entry in flight, `t` the state its command begins in. -/
def Obligations.YomirAdmin : Prop :=
  ∀ (src : Source) (e : Entry) (s t : State) (c : Inflight),
    let done (r : Result) (u : State) : Host.Outcome State Fault Refusal := .next (finish (complete c.key r u))
    (Accepted 0x0001 src e s c t → exec (.identify src e) s = done (okay [(12, Lifecycle.code t.lifecycle), (13, Role.code t.pair.role), (14, tailPercent t.journal),
      (15, bitN 0 t.power.safe + bitN 1 t.clock.valid + bitN 2 (decide (3072 ≤ sectorsUsed t.journal)) + bitN 3 (tailFull t.journal) + bitN 4 t.ktab.present + bitN 5 t.ktab.hold),
      (16, 1), (17, match src.port with | some p => p | none => 0xFF), (20, Config.serial.toNat % 2 ^ 64)]) t) ∧
    (∀ q : Nat, src = .queue q → Accepted 0x0002 src e s c t →
      let qid := e.param 8 2
      (qid / 64 = q / 64 → qid % 64 ≠ 0 → t.queue qid = none → 2 ≤ e.param 0xA 2 → e.param 0xA 2 ≤ 4096 → 2 ≤ e.param 0xC 2 → e.param 0xC 2 ≤ 4096 →
        e.param 0xE 2 ≤ 127 → e.param 0x10 1 ≤ 3 → e.addr0.toNat % 4096 = 0 → e.addr1.toNat % 4096 = 0 →
        ∃ (x : Queue) (u : State), exec (.queueCreate src e) s = done (okay []) u ∧ u.queue qid = some x ∧ x.sqBase = e.addr0 ∧ x.cqBase = e.addr1 ∧
          x.sqEntries = e.param 0xA 2 ∧ x.cqEntries = e.param 0xC 2 ∧ x.vector = e.param 0xE 2 ∧ x.priority = e.param 0x10 1 ∧
          x.expSeq = BitVec.ofNat 32 (e.param 0x14 4) ∧ x.sqHead = 0 ∧ x.sqTail = 0 ∧ x.cqTail = 0 ∧ x.unreleased = 0 ∧ x.phase = true ∧
          (∀ r, r ≠ qid → u.queue r = t.queue r) ∧ u.mem = t.mem ∧ u.journal = t.journal ∧ u.cqe.inflight = t.cqe.inflight) ∧
      (qid / 64 ≠ q / 64 → exec (.queueCreate src e) s = done (invalidHandle 8) t) ∧
      (qid / 64 = q / 64 → qid % 64 = 0 ∨ (t.queue qid).isSome = true → exec (.queueCreate src e) s = done (conflict 8) t)) ∧
    (∀ (q : Nat) (x : Queue), src = .queue q → Accepted 0x0003 src e s c t → t.queue (e.param 8 2) = some x → e.param 8 2 / 64 = q / 64 → e.param 8 2 % 64 ≠ 0 →
      x.deleting = false → queueQuiet t (e.param 8 2) = true →
      ∃ u : State, exec (.queueDelete src e) s = done (okay []) u ∧ u.queue (e.param 8 2) = none ∧ (∀ r, r ≠ e.param 8 2 → u.queue r = t.queue r) ∧ u.mem = t.mem) ∧
    (Accepted 0x0004 src e s c t →
      let old : DWord := if t.clock.valid then t.clock.time else 0
      let d := custodyDelta t c.key 3 old (BitVec.ofNat 64 (e.param 8 8)) 0
      exec (.setTime src e) s = done (okayWith [(12, old.toNat)] [d]) t ∧
      ∀ (n : Nat) (now : DWord) (u : State), (applyDelta n now u d).clock = { u.clock with time := BitVec.ofNat 64 (e.param 8 8), valid := true }) ∧
    (Accepted 0x0005 src e s c t → e.param 0x18 4 ≤ 16777216 → (src = .tag → e.param 0x18 4 ≤ 8192) →
      (∀ (out : List Byte) (u : State), e.param 8 1 = 1 → 32 ≤ e.param 0x18 4 → logHead t ≤ e.param 0x10 4 →
        out = ((t.fault.log.filter (fun r => decide (e.param 0x10 4 ≤ r.seq))).take (e.param 0x18 4 / 32)).flatMap frecordBytes →
        writeOutput src (e.param 0x18 4) e.addr0 out t = .ok u → exec (.getLog src e) s = done (okay [(12, out.length)]) u) ∧
      (∀ u : State, e.param 8 1 = 2 → 128 ≤ e.param 0x18 4 → writeOutput src (e.param 0x18 4) e.addr0 (faultSummary t) t = .ok u →
        exec (.getLog src e) s = done (okay [(12, 128)]) u)) ∧
    (∀ q : Nat, src = .queue q → Accepted 0x0006 src e s c t → e.param 8 2 / 64 = q / 64 →
      let mine (d : Inflight) : Bool := d.entry.tag == BitVec.ofNat 16 (e.param 0xA 2) && d.key != c.key && d.src == .queue (e.param 8 2)
      (t.cqe.inflight.find? mine = none → exec (.abort src e) s = done (okay [(12, 1)]) t) ∧
      (∀ d, t.cqe.inflight.find? mine = some d → d.op ≠ 0x0006 → abortable t d = true →
        exec (.abort src e) s = done (okay [(12, 0)]) (complete d.key (conflict 5) (withdraw d t))) ∧
      (∀ d, t.cqe.inflight.find? mine = some d → d.op ≠ 0x0006 → abortable t d = false → exec (.abort src e) s = done (okay [(12, 2)]) t)) ∧
    (Accepted 0x0008 src e s c t → 4096 ≤ e.param 8 4 → e.param 8 4 ≤ 16773120 → e.param 8 4 % 8 = 0 → firmwareBusy t c.key = false → t.flash.lockout = false →
      flashWrites t = true → targetBank t < t.flash.banks.length → t.flash.pwRun = none → BitVec.ofNat 128 (e.param 0x10 16) = t.flash.password → (t.bank (targetBank t)).run = none →
      ∀ img, readInput t src (e.param 8 4) e.addr0 = .ok img →
      exec (.fwStage src e) s = .next (finish ((flashCommand (targetBank t) 2 0 0
        (((flashUnlock t.flash.password t).waitOn c.key .flash).setBank (targetBank t) (fun k => { k with prot := 0, suspended := none }))).passPoint c.key))) ∧
    (Accepted 0x0009 src e s c t → firmwareBusy t c.key = false → Config.imageOk (bankImage t (targetBank t)) = true →
      e.param 8 16 = (Config.imageDigest (bankImage t (targetBank t))).toNat % 2 ^ 128 → t.pair.role = .solo →
      exec (.fwActivate src e) s = .next (finish (warmReset 1 false (postAll
        (complete c.key (okayWith [(12, e.param 8 16)] (grantDelta t c.key 0 0)) { t with nvm := { t.nvm with selector := targetBank t } }))))) ∧
    (Accepted 0x0F01 src e s c t →
      let v := t.fresh
      let kats := katsFound v t
      let checker := v.getLsbD 8
      let image := v.getLsbD 9 && v.getLsbD 10
      let found := (bitN 0 (!checker) + bitN 1 (!kats.lanes.all id) + bitN 2 (!kats.pkes.all id) + bitN 3 (!kats.vault) + bitN 4 (!kats.drbg) + bitN 5 (!image)) |||
        fencedChecks t
      let raised := (if checker then katFaults kats t.drew else (katFaults kats t.drew).raise 38)
      (¬ (t.power.safe = true ∧ bitAt t.power.rstCause 2 = true ∧ found = 0) →
        exec (.selftest src e) s = done (okay [(12, found)]) (if v.getLsbD 9 != v.getLsbD 10 then decisionSplit 2 raised else raised)) ∧
      (t.power.safe = true → bitAt t.power.rstCause 2 = true → found = 0 →
        exec (.selftest src e) s = .next (finish (warmReset 1 false (postAll (complete c.key (okay [(12, 0)]) t.drew)))))) ∧
    (∀ (i : FaultIn) (r : FRecord) (u : State), Accepted 0x0F02 src e s c t → forcedInput (e.param 8 2) (e.param 0xA 1) = some i →
      recordFault false i t = (r, u) → r.applied ≠ .mate → r.applied ≠ .kiln →
      exec (.faultForce src e) s = .next (finish (actOn [r] (complete c.key (okayWith [(12, Level.code r.applied), (16, r.seq)] (grantDelta t c.key 0 0)) u)))) ∧
    (∀ k : Nat, Accepted 0x0F03 src e s c t → k ≤ 16 → e.param 8 1 = 128 + k → bistRefusal t k = none →
      exec (.tamperTest src e) s = .next (finish
        { (t.waitOn c.key (.tamperTest (128 + k))) with tamper := { t.tamper with bist := some k, bistDone := false } })) ∧
    (Accepted 0x0F04 src e s c t → 272 ≤ e.param 0xC 4 →
      let g := t.rng
      let cell (k : Nat) : List Byte := leBytes 2 (g.lfCodes.getD k 0) ++ leBytes 2 (g.lfLow.getD k 0) ++ leBytes 2 (g.lfHigh.getD k 0) ++ leBytes 2 (g.lfBig.getD k 0) ++
        leBytes 2 (Config.lfBaseline k).toNat ++ [BitVec.ofNat 8 k] ++ leBytes 5 0
      let out := leBytes 8 g.lfTime.toNat ++ leBytes 4 g.lfCount ++ leBytes 4 0 ++ (List.range 16).flatMap cell
      ∀ u : State, writeOutput src (e.param 0xC 4) e.addr0 out (if e.param 8 1 % 2 = 1 then latchRestart t else t) = .ok u →
        exec (.latchFieldRead src e) s = done (okay [(12, 272)]) u) ∧
    (∀ (op : BitVec 16) (s0 : State) (auth : Bool) (hd : BitVec 16), opRow op = none → Arrives src s s0 auth hd → Sound op src e s0 →
      let d := inflightOf op src e hd s0
      exec (.undefinedOpcode op src e) s = .next (finish (complete d.key (answer 0x2001 []) (plainly d.key (takenIn d s0))))) ∧
    (Accepted 0x0802 src e s c t → bitAt (t.reg 0x400000FC 0) 0 = false → (e.param 8 1 / 16 % 2 = 1 → t.clock.time.toNat < e.param 0x10 8) →
      exec (.wakePolicy src e) s = done (okay []) (((({ t with power := { t.power with timerFired := false } } : State).setReg 0x40000014 (BitVec.ofNat 32 (e.param 8 1))).setReg 0x4000001C
        (BitVec.ofNat 32 (e.param 0x10 8))).setReg 0x40000020 (BitVec.ofNat 32 (e.param 0x10 8 / 2 ^ 32)))) ∧
    (Accepted 0x0801 src e s c t →
      (e.param 8 1 = 0 → exec (.powerState src e) s = done (okay []) t) ∧
      (e.param 8 1 ≠ 0 → powerRefusal t (e.param 8 1) (e.param 9 1 % 2 == 1) = none → exec (.powerState src e) s = .next (finish
        (({ t with power := { t.power with entering := some (if e.param 8 1 = 2 then .lager else .steep, c.key) } }).waitOn c.key .power)))) ∧
    (Accepted 0x0501 src e s c t → 1 ≤ e.param 8 4 → e.param 8 4 ≤ 65536 → e.param 0xE 2 ≤ 1000 →
      (e.param 0xC 1 = 2 → t.lifecycle = .commissioned ∧ rawTap t = true) →
      ∃ u : State, exec (.rngRead src e) s = .next (finish (u.waitOn c.key (.entropy t.rng.nextId))) ∧ u.rng.nextId = t.rng.nextId + 1 ∧
        ({ u with rng := t.rng } : State) = t) ∧
    (Accepted 0x0502 src e s c t → exec (.rngStatus src e) s = done (okay [(12, RngState.code t.rng.state),
      (13, bitN 0 t.rng.oscFault + bitN 1 (cellRail t) + bitN 2 (rawTap t)), (14, t.rng.queue.length + t.rng.waiting.length),
      (16, t.rng.aptFails + t.rng.rctFails), (20, (rngHfail t).toNat), (24, t.rng.reseeds)]) t)

/-- R184 to R197, R260 to R285, R308, R309. -/
def Obligations.YomirKeys : Prop :=
  ∀ (src : Source) (e : Entry) (s t : State) (c : Inflight), ktabFenced t = false →
    let done (r : Result) (u : State) : Host.Outcome State Fault Refusal := .next (finish (complete c.key r u))
    let oid : Oid := BitVec.ofNat 128 (e.param 8 16)
    let kh : Word := BitVec.ofNat 32 (e.param 8 4)
    (∀ (t' : State) (o : Oid) (x : Nat × Nat), findOid o .ok t = (x, t') → (x.1 = 0 ∨ x.1 = 5) →
      ({ t' with ktab := t.ktab } : State) = t ∧ t'.ktab.records = t.ktab.records ∧ t'.ktab.buckets = t.ktab.buckets ∧ t'.ktab.stash = t.ktab.stash) ∧
    (∀ t' : State, cacheFill kh .ok t = (0, t') → t.ktab.khResult kh = 0 ∧ ({ t' with ktab := t.ktab } : State) = t ∧ t'.ktab.records = t.ktab.records) ∧
    (∀ (t' : State) (x : Nat), findOid oid .ok t = ((5, x), t') →
      (Accepted 0x0101 src e s c t → t'.ktab.indexRoom t'.indexKey oid = true → rngReady t' = true →
        ∀ i g, t'.ktab.allocate none = some (i, g) → ∃ k : KeyRecord, exec (.keyCreate src e) s = done (okayWith [(12, (khOf i g).toNat)] [.key i k]) t'.drew ∧
          k.oid = oid ∧ k.state = .active ∧ k.gen = g ∧ k.dek = t'.fresh ∧ k.policy = BitVec.ofNat 32 (e.param 0x18 4) ∧ k.prevKh = 0 ∧
          k.created = t'.clock.time ∧ k.fixed = put32 0 (t'.pairTag.toNat * 2 ^ 11 + g)) ∧
      (Accepted 0x0102 src e s c t → exec (.keyLookup src e) s = done (invalidHandle 8) t')) ∧
    (∀ (t' : State) (i : Nat), findOid oid .ok t = ((0, i), t') →
      (Accepted 0x0101 src e s c t → exec (.keyCreate src e) s = done (conflict 0) t') ∧
      (Accepted 0x0102 src e s c t → exec (.keyLookup src e) s =
        let k := t'.ktab.record i
        done (okay [(12, (khOf i k.gen).toNat), (16, KeyState.toNat k.state),
          (17, (if k.pinned then 1 else 0) + (if t'.ktab.held k then 2 else 0) + (if k.exhausted then 4 else 0)), (20, k.prevKh.toNat)]) t')) ∧
    (∀ (t' : State) (i n : Nat), findOid oid .ok t = ((i, n), t') → (i = 2 ∨ i = 3 ∨ i = 4) → Accepted 0x0102 src e s c t →
      exec (.keyLookup src e) s = done (answer (if i = 3 then 0x5004 else 0x5002) [(12, n)]) t') ∧
    (∀ (t' : State) (n : Nat), cacheFill kh .ok t = (n, t') → n ≠ 0 → Accepted 0x0105 src e s c t → exec (.keyShred src e) s = done (ktabAnswer kh 8 n) t') ∧
    (∀ t' : State, cacheFill kh .ok t = (0, t') →
      let r := t'.ktab.record (khIndex kh)
      let signs (alg : Nat) (msg : List Byte) (u : State) : Prop := ∃ p : PkeParams, p.alg = alg ∧ p.op = 1 ∧ p.keysrc = 1 ∧
        u = (pushJob p msg 0 (some c.key) t').2.waitOn c.key (.pke t'.pke.nextId)
      (∀ t'' : State, Accepted 0x0103 src e s c t → findOid r.oid .ok t' = ((0, khIndex kh), t'') → r.state = .active → rngReady t'' = true →
        ∀ i g, t''.ktab.allocate none = some (i, g) → ∃ k : KeyRecord, exec (.keyRotate src e) s =
          done (okayWith [(12, (khOf i g).toNat), (16, kh.toNat)] [.key i k, .key (khIndex kh) { r with state := .decryptOnly, changed := t.clock.time }]) t''.drew ∧
          k.oid = r.oid ∧ k.state = .active ∧ k.gen = g ∧ k.dek = t''.fresh ∧ k.policy = r.policy ∧ k.prevKh = kh) ∧
      (Accepted 0x0104 src e s c t →
        (r.state = .active → e.param 0xC 1 = 1 → exec (.keySetState src e) s = done (okayWith [(12, KeyState.toNat .active)] (grantDelta t' c.key 0 0)) t') ∧
        (r.state = .active → e.param 0xC 1 = 2 → exec (.keySetState src e) s =
          done (okayWith [(12, KeyState.toNat .decryptOnly)] (.key (khIndex kh) { r with state := .decryptOnly, changed := t'.clock.time } :: grantDelta t' c.key 0 0)) t') ∧
        (r.state = .decryptOnly → e.param 0xC 1 = 1 → exec (.keySetState src e) s = done (conflict 0) t') ∧
        (r.state = .active ∨ r.state = .decryptOnly → e.param 0xC 1 = 3 →
          let until_ : DWord := BitVec.ofNat 64 (e.param 0x10 8)
          (t'.clock.time.toNat < until_.toNat → exec (.keySetState src e) s = done (okayWith [(12, KeyState.toNat .retained)]
            (.key (khIndex kh) { r with state := .retained, retainUntil := until_, changed := t'.clock.time } :: grantDelta t' c.key 0 0)) t') ∧
          (until_.toNat ≤ t'.clock.time.toNat → exec (.keySetState src e) s = done (inputRange 0x10) t'))) ∧
      (Accepted 0x0105 src e s c t → r.state ≠ .shredded → (∀ x ∈ t'.lanes.streams, x.kh ≠ kh) → (r.state = .retained ∨ r.retainUntil.toNat ≤ t'.clock.time.toNat) →
        ∃ (u : State) (ds : List Delta), exec (.keyShred src e) s = done (okayWith [(12, kh.toNat)]
          (.key (khIndex kh) { r with state := .shredded, dek := 0, changed := t'.clock.time, pinned := false } :: ds)) u ∧
          (∀ p ∈ t'.journal.staged, p.2.kh = kh → Delta.unstage p.1 p.2.index ∈ ds) ∧
          (∀ l ∈ u.lanes.lanes, ∀ k, (l.slot0 = some k ∨ l.slot1 = some k) → k.kh ≠ kh) ∧ u.ktab = t'.ktab ∧ u.journal = t'.journal ∧ u.mem = t'.mem) ∧
      (Accepted 0x0106 src e s c t → bitAt r.policy 0 = true → r.state ≠ .shredded → 6520 ≤ e.param 0x10 4 → pkeFenced t' = false →
        ∃ u : State, exec (.keyExportWrapped src e) s = .next (finish u) ∧ signs 3 (exportHead r (directBytes t' src e.addr1 1664) t'.freeCtr) u) ∧
      (Accepted 0x0106 src e s c t → bitAt r.policy 0 = false → exec (.keyExportWrapped src e) s = done (notAuthorized 6) t') ∧
      (Accepted 0x0108 src e s c t → r.state ≠ .shredded → e.param 0xC 1 = 0 ∨ (e.param 0xC 1 = 1 ∧ t'.ktab.pinRoom (khIndex kh) = true) →
        let pin : Bool := e.param 0xC 1 == 1
        let k := t'.ktab.mapEntry (khIndex kh) (fun x => { x with pinned := pin })
        exec (.keyPin src e) s = done (okayWith [(12, k.pins)] [.key (khIndex kh) { r with pinned := pin }]) { t' with ktab := k })) ∧
    (∀ (blob : List Byte) (dek : Hash) (i g : Nat), Accepted 0x0107 src e s c t → e.param 8 4 = 6520 → e.param 0xC 4 = 18272 →
      readInput t src 6520 e.addr0 = .ok blob → importDek blob (directBytes t src e.addr1 18272) t = some dek →
      let o : Oid := BitVec.ofNat 128 (fieldOf blob 8 16)
      let fx : Word := BitVec.ofNat 32 (fieldOf blob 0x18 4)
      ∀ (t' : State) (x : Nat), findOid o .ok t = ((5, x), t') → t'.ktab.allocate (some (fieldAt fx 10 0)) = some (i, g) → t'.ktab.indexRoom t'.indexKey o = true →
      ∃ k : KeyRecord, exec (.keyImportWrapped src e) s = done (okayWith [(12, (khOf i g).toNat)] [.key i k]) t' ∧
        k.oid = o ∧ k.dek = dek ∧ k.state = .decryptOnly ∧ k.gen = g ∧ k.fixed = fx) ∧
    (∀ (t' : State) (i : Nat), findOid oid .ok t = ((0, i), t') → Accepted 0x0301 src e s c t →
      (bitAt e.handle 0 = true → ∃ n, exec (.manifestCommit src e) s =
        done (okayWith n ((pendingOf t oid).map (fun g => Delta.unstage oid g.index))) t') ∧
      (bitAt e.handle 0 = false → bitAt e.handle 1 = false → t.manifest oid = none → pendingOf t oid ≠ [] → (pendingOf t oid).length ≤ 4096 →
        Config.manifestRoom (storeBytes t) = true → ((pendingOf t oid).foldl (fun l g => putSegment g l) []).length ≤ 65536 →
        ∃ n, exec (.manifestCommit src e) s = done (okayWith ((12, 1) :: n)
          [.manifest oid 1 (BitVec.ofNat 64 (e.param 0x18 8)) (BitVec.ofNat 64 (e.param 0x20 8)) ((pendingOf t oid).map (·.index))]) t')) ∧
    (∀ (m : Manifest) (u : State), Accepted 0x0302 src e s c t → 1 ≤ e.param 0x20 4 → e.param 0x20 4 ≤ 16777216 → bitAt e.handle 0 = false → t.manifest oid = some m →
      e.param 0x18 8 < (manifestBytes m).length →
      let out := slice (manifestBytes m) (e.param 0x18 8) (e.param 0x20 4)
      writeOutput src (e.param 0x20 4) e.addr0 out t = .ok u →
      exec (.manifestRead src e) s = done (okay [(12, m.version), (20, out.length), (24, (manifestBytes m).length)]) u) ∧
    (∀ (x : JRecord) (l : List JRecord) (u : State), Accepted 0x0303 src e s c t → e.param 0x18 4 ≤ 16777216 → readSelection e t = some (x :: l) →
      32 + recordLen x ≤ e.param 0x18 4 →
      let out := fitRecords t.journalKey (e.param 0x18 4 - 32) (x :: l)
      let b := leBytes 32 (chainBefore t x.number).toNat ++ out.flatMap (fun y => recordBytesOf t.journalKey y.mirrored y)
      (∀ y ∈ out, t.journal.spoilt.contains y.number = false) → writeOutput src (e.param 0x18 4) e.addr0 b t = .ok u →
      exec (.journalRead src e) s = done (okay [(12, x.number), (20, b.length), (24, out.length)]) u) ∧
    (Accepted 0x0304 src e s c t → 0 < t.journal.next → pkeFenced t = false →
      ∃ p : PkeParams, p.alg = 3 ∧ p.op = 1 ∧ p.keysrc = 1 ∧ exec (.journalCheckpoint src e) s =
        .next (finish ((pushJob p (leBytes 32 t.journal.chain.toNat) 0 (some c.key) t).2.waitOn c.key (.pke t.pke.nextId)))) ∧
    (Accepted 0x0305 src e s c t → e.param 8 1 = 0 → exec (.vaultExport src e) s =
      done (okay [(12, (imageBytes t true 0).2.length + 4768), (20, (imageBytes t false 0).2.length + 4768)]) t) ∧
    (Accepted 0x0305 src e s c t → e.param 8 1 = 1 → t.journal.exporting = none → pkeFenced t = false →
      let x := imageBytes (withImageKey (nextImage t) t) true (t.fresh.setWidth 128)
      brokenIn t x.1.first t.journal.next = none → x.2.length + 4768 ≤ e.param 0x18 8 → ∃ u : State, exec (.vaultExport src e) s = .next (finish u) ∧ u.journal = { t.journal with exporting := some ⟨c.key, x.1, x.2⟩ } ∧
        u.pke.nextId = t.pke.nextId + 1 ∧ u.mem = t.mem ∧ u.ktab = t.ktab) ∧
    (Accepted 0x0306 src e s c t → e.param 8 1 = 3 →
      (t.journal.recovery = true → ∃ (u : State) (a : Result), exec (.vaultImport src e) s = done a u ∧ a.status = 0 ∧ u.journal.recovery = false ∧ u.ktab = t.ktab) ∧
      (t.journal.recovery = false → exec (.vaultImport src e) s = done (conflict 0) t))

/-- R218 to R239, R246, R264. -/
def Obligations.YomirStreams : Prop :=
  (∀ (src : Source) (e : Entry) (s t : State) (c : Inflight),
    let done (r : Result) (u : State) : Host.Outcome State Fault Refusal := .next (finish (complete c.key r u))
    let kh : Word := BitVec.ofNat 32 (e.param 8 4)
    let seg : Word := BitVec.ofNat 32 (e.param 0xC 4)
    let h := e.handle.toNat
    (openLanes t ≠ [] → t.isFenced 5 0 = false → e.param 0x10 8 ≤ 67108864 → ∀ (t' : State) (lane : Nat) (sb : State), cacheFill kh .ok t = (0, t') →
      bindLane t' = some (lane, sb) →
      let r := t'.ktab.record (khIndex kh)
      let openable : Prop := e.param 0x18 4 ≤ 2592000 ∧ r.state = .active ∧ t'.ktab.held r = false ∧ t'.journal.reserved + t'.journal.staged.length < 1048576
      let sound : Prop := e.param 0x24 4 ≤ 2592000 ∧ e.param 0x18 8 < 2 ^ 48 - 1 ∧ fieldAt (BitVec.ofNat 32 (e.param 0x20 4)) 10 0 = khGen kh ∧ r.state ≠ .shredded
      (∀ (k : Ktab) (v : Nat) (u : State), Accepted 0x0201 src e s c t → openable → (slotFor sb lane 0).isSome = true →
        t'.ktab.drawNext (drawEnabled t') t'.clock.time kh = (0, k) →
        reserveAhead { sb with ktab := k } ≤ (k.record (khIndex kh)).invHwm - ((k.entry (khIndex kh)).map (·.next)).getD 0 →
        takeUnbound kh { sb with ktab := k } = (some v, u) →
        exec (.sealOpen src e) s = .next (finish (bindStream c.key lane true kh seg (e.param 0x10 8) (e.param 0x18 4) v r.fixed u))) ∧
      (Accepted 0x0201 src e s c t → openable → slotFor sb lane 0 = none → exec (.sealOpen src e) s = .next (finish ((loadBusy lane t').waitOn c.key (.slot lane)))) ∧
      (Accepted 0x0204 src e s c t → sound → (slotFor sb lane 0).isSome = true →
        exec (.unsealOpen src e) s = .next (finish (bindStream c.key lane false kh seg (e.param 0x10 8) (e.param 0x24 4) (e.param 0x18 8)
          (BitVec.ofNat 32 (e.param 0x20 4)) sb))) ∧
      (Accepted 0x0204 src e s c t → sound → slotFor sb lane 0 = none → exec (.unsealOpen src e) s = .next (finish ((loadBusy lane t').waitOn c.key (.slot lane))))) ∧
    (∀ x : Stream, t.stream h = some x →
      (∀ d : Inflight, t.command c.key = some d → d.op = c.op →
        (Accepted 0x0202 src e s c t → x.isSeal = true → exec (.sealData src e) s = .next (finish (steer c.key x.lane t))) ∧
        (Accepted 0x0203 src e s c t → x.isSeal = true → exec (.sealClose src e) s = .next (finish (steer c.key x.lane t))) ∧
        (Accepted 0x0205 src e s c t → x.isSeal = false → exec (.unsealData src e) s = .next (finish (steer c.key x.lane t))) ∧
        (Accepted 0x0206 src e s c t → x.isSeal = false → exec (.unsealClose src e) s = .next (finish (steer c.key x.lane t))) ∧
        (Accepted 0x0202 src e s c t → x.isSeal = false → exec (.sealData src e) s = done (conflict 0) t)) ∧
      (Accepted 0x0207 src e s c t → (t.lane x.lane).queue = [] → exec (.streamAbort src e) s = done (degradeStream t (okay [])) (endStream h t)) ∧
      (∀ q : Nat, src = .queue q → Accepted 0x0208 src e s c t → exec (.streamQuery src e) s = done (degradeStream t (okay [(12, StreamState.code x.state), (13, x.lane),
        (14, if x.isSeal then 0 else 1), (16, x.done),
        (24, x.lifetime - (if x.state = .run then 0 else (t.clock.time - x.idleFrom).toNat / 32768))])) t)) ∧
    (t.stream h = none →
      (Accepted 0x0202 src e s c t → exec (.sealData src e) s = done (endedAnswer t h) t) ∧
      (Accepted 0x0206 src e s c t → exec (.unsealClose src e) s = done (endedAnswer t h) t) ∧
      (Accepted 0x0207 src e s c t → exec (.streamAbort src e) s = done (endedAnswer t h) t) ∧
      (t.lanes.ended.find? (fun z => z.handle == h) = none → endedAnswer t h = invalidHandle 6))) ∧
  (∀ (key lane : Nat) (isSeal : Bool) (kh seg : Word) (len life v : Nat) (fx : Word) (u : State) (c : Inflight) (i : Nat),
    u.command key = some c → freeEntry u lane = some i → v ≠ 2 ^ 48 - 2 →
    ∃ (w : State) (x : Stream), bindStream key lane isSeal kh seg len life v fx u =
        complete key (degradeStream w (okay ([(12, x.handle), (14, lane)] ++ if isSeal then [(16, v), (24, fx.toNat)] else []))) w ∧
      x ∈ w.lanes.streams ∧ x.isSeal = isSeal ∧ x.lane = lane ∧ x.entry = some i ∧ x.kh = kh ∧ x.oid = (u.ktab.record (khIndex kh)).oid ∧ x.segIdx = seg ∧
      x.segLen = len ∧ x.done = 0 ∧ x.iv = BitVec.ofNat 64 v ∧ x.fixed = fx ∧ x.openTag = c.entry.tag ∧ x.openSeq = c.entry.seq ∧
      x.lifetime = (if life = 0 then 86400 else life) ∧ w.lanes.streams = u.lanes.streams ++ [x] ∧
      w.journal.reserved = u.journal.reserved + (if isSeal then 1 else 0) ∧ w.mem = u.mem) ∧
  ∀ (turn : LaneTurn) (key h : Nat) (s : State) (d : Inflight) (x : Stream), let n := turn.lane.val
    lanesRun s = true → laneEnabled s n = true → (s.lane n).queue.head? = some key → s.command key = some d → d.entry.handle.toNat = h → s.stream h = some x → x.lane = n →
    let e := d.entry
    (d.op = 0x0207 → exec (.laneCommandComplete turn) s = .next (finish (popLane n (complete key (degradeStream s (okay [])) (endStream h s))))) ∧
    (d.op ≠ 0x0207 → x.restoring = true → turn.context = false → exec (.laneCommandComplete turn) s = .next (finish (popLane n
      ((complete key (answer 0x6001 []) (endStream h s)).raiseAt (86 + 8 * n) (.lane n) 0 0)))) ∧
    (d.op ≠ 0x0207 → ¬ (x.restoring = true ∧ turn.context = false) →
      (∀ (r : Nat) (s1 : State), r ≠ 0 → cacheFill x.kh turn.fill s = (r, s1) →
        ∃ u : State, exec (.laneCommandComplete turn) s = .next (finish u) ∧ u = (if d.op = 0x0202 ∨ d.op = 0x0205 then restStream n h else resumeIdle n h)
          (popLane n (complete key (ktabAnswer x.kh 6 r) s1))) ∧
      (∀ (i : Nat) (s1 : State), cacheFill x.kh turn.fill s = (0, s1) → slotFor s1 n h = some i →
        let u := loadSlot n i h x.kh s1
        let dek := (u.ktab.record (khIndex x.kh)).dek
        let port := 4 + x.queue / 64
        let len := e.param 8 4
        let closes (v : State) : Host.Outcome State Fault Refusal := .next (finish (resumeIdle n h (popLane n v)))
        let chunks := if x.tail.isEmpty then x.chunks else x.chunks ++ [Config.sha3 x.tail]
        (∀ ins outs : List (Nat × Nat), d.op = (if x.isSeal then 0x0202 else 0x0205) → 0 < len → len ≤ 16777216 → len ≤ x.segLen - x.done →
          scatterList u port len e.addr0 = .ok ins → scatterList u port len e.addr1 = .ok outs →
          ∃ (w : State) (k : Nat), exec (.laneCommandComplete turn) s =
              .next (finish (restStream n h (popLane n (complete key (degradeStream w (okay [(12, x.done + len), (20, k)])) w)))) ∧
            w.mem = (scatter port outs (gcmCrypt dek (ivOf x.fixed x.iv) x.done (gather u port ins)) u).mem ∧
            (∃ y, w.stream h = some y ∧ y.done = x.done + len ∧ y.iv = x.iv ∧ y.kh = x.kh ∧ y.segLen = x.segLen ∧ y.chunks.length = k) ∧
            w.journal = s.journal ∧ w.cqe = s.cqe) ∧
        (∀ g : Segment, d.op = 0x0203 → x.isSeal = true → x.done = x.segLen → e.addr1 = 0 →
          g = ⟨x.segIdx, x.kh, BitVec.ofNat 64 x.segLen, x.iv, x.fixed, gcmTagOf dek x, s.clock.time, chunks⟩ →
          let w := endStream h (passClose x chunks (gcmTagOf dek x) u)
          exec (.laneCommandComplete turn) s = closes (complete key (degradeStream w ⟨0, gcmTagOf dek x, false, false, [.stage x.oid g]⟩) w)) ∧
        (d.op = 0x0206 → x.isSeal = false → x.done = x.segLen → e.addr1 = 0 →
          let w := endStream h (passClose x chunks (gcmTagOf dek x) u)
          ((gcmTagOf dek x).toNat = e.param 8 16 →
            exec (.laneCommandComplete turn) s = closes (complete key (degradeStream w (okay [(12, chunks.length)])) w)) ∧
          ((gcmTagOf dek x).toNat ≠ e.param 8 16 → ∃ v, exec (.laneCommandComplete turn) s = closes (complete key { answer 0x5001 [] with untrusted := true } v) ∧
            v.mem = s.mem ∧ v.fault.inputs.length = s.fault.inputs.length + 1))))

/-- R298 to R305, R323 to R330, R344, R545 to R547. -/
def Obligations.YomirPublicKeysAndCustody : Prop :=
  ∀ (src : Source) (e : Entry) (s t : State) (c : Inflight),
    let done (r : Result) (u : State) : Host.Outcome State Fault Refusal := .next (finish (complete c.key r u))
    (∀ (op : Nat) (code : BitVec 16) (i : Instr), (op, code, i) ∈ [(1, 0x0401#16, Instr.pkSign src e), (2, 0x0402#16, .pkVerify src e), (3, 0x0403#16, .pkKemEncap src e),
        (4, 0x0404#16, .pkKemDecap src e), (5, 0x0405#16, .pkEcdh src e), (6, 0x0406#16, .pkKeygen src e), (7, 0x0408#16, .pkModexp src e)] →
      Accepted code src e s c t →
      (∀ input : List Byte, pkeCheck (pkParams op e) (e.param 0x10 4) (e.param 0x14 4) src.kernel = none → anyPkeFenced t = false →
        readInput t src (e.param 0x10 4) e.addr0 = .ok input →
        exec i s = .next (finish ((pushJob (pkParams op e) input (e.param 0x14 4) (some c.key) t).2.waitOn c.key (.pke t.pke.nextId)))) ∧
      (∀ r, pkeCheck (pkParams op e) (e.param 0x10 4) (e.param 0x14 4) src.kernel = some r → exec i s = done r t)) ∧
    (∀ (p : PkeParams) (input : List Byte) (n key : Nat), ringSize t ≤ t.pke.jobs.length ∨ (p.alg = 1 ∧ p.op = 6 ∧ keygenBusy t = true) →
      let u := (pushJob p input n (some key) t).2
      (∃ j : PkeJob, u.pke.held = t.pke.held ++ [j] ∧ j.p = p ∧ j.input = input ∧ j.key = some key ∧ j.id = t.pke.nextId) ∧ u.pke.jobs = t.pke.jobs ∧
      u.pke.tail = t.pke.tail ∧ u.mem = t.mem ∧ u.cqe = t.cqe) ∧
    (∀ (p : PkeParams) (input : List Byte) (n key : Nat), t.pke.jobs.length < ringSize t → (p.alg = 1 ∧ p.op = 6 → keygenBusy t = false) →
      let u := (pushJob p input n (some key) t).2
      (∃ j : PkeJob, u.pke.jobs = t.pke.jobs ++ [j] ∧ j.p = p ∧ j.input = input ∧ j.key = some key ∧ j.id = t.pke.nextId) ∧
      u.pke.tail = (t.pke.tail + 1) % ringSize t ∧ u.mem = t.mem ∧ u.cqe = t.cqe) ∧
    (Accepted 0x0407 src e s c t → (if e.param 0x18 1 % 2 = 1 then 23224 else 4952) ≤ e.param 0x1C 4 → (src = .tag → e.param 0x1C 4 ≤ 8192) → pkeFenced t = false →
      ∃ p : PkeParams, p.alg = 3 ∧ p.op = 1 ∧ p.keysrc = 1 ∧
        exec (.attest src e) s = .next (finish ((pushJob p (attestHead e t) 0 (some c.key) t).2.waitOn c.key (.pke t.pke.nextId)))) ∧
    (∀ (st : List Byte) (u : State), Accepted 0x0601 src e s c t → 1 ≤ e.param 8 1 → e.param 8 1 ≤ 4 → t.lifecycle ≠ .keyless → 0 < e.param 0x1C 4 → e.param 0x1C 4 ≤ 3600 →
      openCount t < 8 → 128 ≤ e.param 0x18 4 → rngReady t = true →
      let g := if t.vault.lastGrant = 0xFFFE then 1 else t.vault.lastGrant + 1
      st = statementOf t g (e.param 8 1) (e.param 0x1C 4) (BitVec.ofNat 64 (e.param 0x10 8)) t.fresh [] → writeOutput src (e.param 0x18 4) e.addr0 st t = .ok u →
      ∃ (x : Session) (w : State), exec (.quorumBegin src e) s = done (okay [(12, g), (14, t.nvm.m), (15, t.nvm.n), (16, 128)]) w ∧
        x ∈ w.vault.sessions ∧ x.grant = BitVec.ofNat 16 g ∧ x.cls = e.param 8 1 ∧ x.target = BitVec.ofNat 64 (e.param 0x10 8) ∧ x.m = t.nvm.m ∧ x.n = t.nvm.n ∧
        x.statement = st ∧ x.approved = [] ∧ x.granted = false ∧ x.lifetime = e.param 0x1C 4 ∧ w.mem = u.mem ∧ w.vault.kek = u.vault.kek) ∧
    (∀ x : Session, t.session e.handle = some x →
      (∀ blob : List Byte, Accepted 0x0602 src e s c t → x.granted = false → x.used = false → expired t x = false → e.param 8 1 = 0 →
        e.param 0x10 4 = 4736 ∨ e.param 0x10 4 = 6352 → readInput t src (e.param 0x10 4) e.addr0 = .ok blob →
        exec (.quorumApprove src e) s = .next (finish (countApproval c.key (e.param 0xA 1) x blob t))) ∧
      (Accepted 0x0603 src e s c t → exec (.quorumEnd src e) s = done (okay [(12, if x.used || expired t x then 1 else 0)]) (t.endSession e.handle))) ∧
    (∀ (x : Session) (id : Nat) (blob : List Byte) (cu : Custodian), t.nvm.custodians.find? (fun k => k.id == id) = some cu → x.cls ≠ 5 →
      x.approved.contains id = false → blobFormed id blob = true →
      (Config.sigOk (cu.keys.take 2688) x.statement (slice blob 8 4723) = false →
        countApproval c.key id x blob t = (complete c.key (notAuthorized 4) t).raise 122) ∧
      (Config.sigOk (cu.keys.take 2688) x.statement (slice blob 8 4723) = true → x.approved.length + 1 < x.m →
        countApproval c.key id x blob t = complete c.key (okay [(12, x.approved.length + 1), (13, x.m), (14, 0)])
          (t.setSession x.grant (fun _ => { x with approved := x.approved ++ [id] })))) ∧
    (∀ b : List Byte, Accepted 0x0604 src e s c t → e.param 8 1 = 5 → e.param 0x10 4 = 2704 → readInput t src 2704 e.addr0 = .ok b →
      exec (.custodianEnroll src e) s = done (okayWith [] [custodyDelta t c.key 5 0 0 (Config.sha3 b)])
        { t with nvm := { t.nvm with partner := some (BitVec.ofNat 128 (fieldOf b 0 16)), partnerRec := b } }) ∧
    (Accepted 0x0604 src e s c t → e.param 8 1 = 3 → t.lifecycle = .commissioned → ∃ u : State, exec (.custodianEnroll src e) s = .next (finish u) ∧ u.lifecycle = .field ∧
      u.cqe.inflight.length < t.cqe.inflight.length + 1 ∧ u.mem = t.mem ∧ u.ktab = t.ktab) ∧
    (Accepted 0x0604 src e s c t → e.param 8 1 = 3 → t.lifecycle ≠ .commissioned → exec (.custodianEnroll src e) s = done (lifecycleRefusal t) t) ∧
    (Accepted 0x0701 src e s c t → ∃ flags hold : Nat, exec (.pairStatus src e) s = done (okay [(12, Role.code t.pair.role), (13, (partnerRole t).getD 0xFF), (14, flags),
        (15, t.pair.progress), (16, t.pair.epoch % 2 ^ 64), (24, hold)]) t ∧
      flags % 16 = bitN 0 t.pairMode + bitN 1 t.pair.frozen + bitN 2 t.pair.pathA + bitN 3 t.pair.pathB ∧ (revertive t = false → hold = 0xFFFFFFFF)) ∧
    (Accepted 0x0702 src e s c t →
      (t.nvm.partner = none → exec (.castle src e) s = done (conflict 0) t) ∧
      (t.nvm.partner.isSome = true → e.param 8 1 = 3 → t.pair.pathA = false → t.pair.pathB = false →
        exec (.castle src e) s = done (okay [(12, t.pair.epoch), (20, Role.code t.pair.role)]) (liftFreeze t) ∧ (liftFreeze t).pair.frozen = false) ∧
      (t.nvm.partner.isSome = true → e.param 8 1 = 1 → castlingNow t = false → t.cqe.inflight.any (fun d => d.op == 0x0009) = false → t.pair.role = .active →
        castleReady t = true → ∃ u : State, exec (.castle src e) s = .next (finish u) ∧ u.pair.castling = .planned (some c.key) false ∧ u.mem = t.mem)) ∧
    (Accepted 0x0703 src e s c t → e.param 8 1 ≤ 2 →
      let r : Option PrefRecord := if e.param 8 1 = 0 then some ⟨Config.serial, t.pair.epoch⟩ else if e.param 8 1 = 1 then some ⟨partnerSerial t, t.pair.epoch⟩ else none
      let u := sendPair (.control (.preferred r)) { t with nvm := { t.nvm with preferred := r } }
      exec (.pairSetPreferred src e) s = done (okay [(12, if preferredUnit u then 1 else 0)]) u)

/-- R562 to R566, R577, R598 to R600. -/
def Obligations.YomirReaderAndCards : Prop :=
  ∀ (src : Source) (e : Entry) (s t : State) (c : Inflight),
    let done (r : Result) (u : State) : Host.Outcome State Fault Refusal := .next (finish (complete c.key r u))
    let ports := maskPorts (e.param 8 8)
    let port := e.param 8 1
    let slot := e.param 9 1
    let keyed : Option Nat := if slot = 0xFF then none else some slot
    (Accepted 0x0901 src e s c t →
      (ports = [] → exec (.slotScan src e) s = done (okay []) t) ∧
      (∀ n, ports ≠ [] → listTotal t (bufferSpace src) 4096 e.addr0.toNat 0 = some n → 32 * ports.length ≤ n → e.param 0x10 1 % 2 = 0 →
        (∀ p ∈ ports, t.isFenced 6 (p / 8) = false) →
        exec (.slotScan src e) s = .next (finish (ports.foldl (fun u p => pushLabel (labelJob c.key .scan p (readerPower u)) u)
          (t.waitOn c.key (.label (ports.headD 0 / 8)))))) ∧
      (∀ n, ports ≠ [] → listTotal t (bufferSpace src) 4096 e.addr0.toNat 0 = some n → n < 32 * ports.length →
        exec (.slotScan src e) s = done (lengthError (32 * ports.length)) t)) ∧
    (∀ off, (Accepted 0x0902 src e s c t → labelRange e false = some off → exec (.tagRead src e) s = done (inputRange off) t) ∧
      (Accepted 0x0903 src e s c t → labelRange e true = some off → exec (.tagWrite src e) s = done (inputRange off) t)) ∧
    (t.isFenced 6 (port / 8) = false → (slot = 0xFF ∨ (t.reader.keys.getD slot none).isSome = true) →
      let base (k : LabelKind) : LabelJob := { labelJob c.key k port (readerPower t) with
        slot := keyed, uid := BitVec.ofNat 56 (e.param 0x10 7), block := e.param 0xA 2, count := e.param 0xC 2 }
      (Accepted 0x0902 src e s c t → labelRange e false = none →
        exec (.tagRead src e) s = .next (finish (pushLabel (base .read) (t.waitOn c.key (.label (port / 8)))))) ∧
      (∀ data : List Byte, Accepted 0x0903 src e s c t → labelRange e true = none → readInput t src (16 * e.param 0xC 2) e.addr0 = .ok data →
        exec (.tagWrite src e) s = .next (finish (pushLabel { base .write with
          data := data, expect := if 2 ^ 31 ≤ e.param 0x18 4 then some (e.param 0x18 4 % 2 ^ 24) else none } (t.waitOn c.key (.label (port / 8))))))) ∧
    (∀ (j : LabelJob) (u : State), j.port / 8 < 6 → u.reader.fes.length = 6 → (u.fe (j.port / 8)).jobs ≠ [] →
      ((pushLabel j u).fe (j.port / 8)).jobs = (u.fe (j.port / 8)).jobs ++ [j] ∧ (pushLabel j u).mem = u.mem ∧ (pushLabel j u).cqe = u.cqe) ∧
    (∀ data : List Byte, Accepted 0x0904 src e s c t → e.param 8 2 % 64 = 0 → e.param 8 2 < 4096 → 0 < e.param 0xC 2 → e.param 0xC 2 % 64 = 0 →
      e.param 0xC 2 ≤ 4096 - e.param 8 2 → readInput t src (e.param 0xC 2) e.addr0 = .ok data →
      exec (.placardWrite src e) s = .next (finish (((List.range (e.param 0xC 2 / 64)).map (fun i =>
        ({ op := 2, page := e.param 8 2 / 64 + i, slot := 0, data := slice data (64 * i) 64, key := some c.key } : WiredOp))).foldl
        (fun u w => wiredStart w u) (t.waitOn c.key (.label 6))))) ∧
    (∀ u : State, Accepted 0x0905 src e s c t → 0 < e.param 8 4 → e.param 8 4 % 16 = 0 → e.param 8 4 ≤ 16384 →
      let slots := t.reader.events.filter RingEvent.isSlot
      let evs := slots.take (e.param 8 4 / 16)
      writeOutput src (e.param 8 4) e.addr0 (evs.flatMap slotEventBytes) t = .ok u →
      exec (.slotEvents src e) s = done (okay [(12, (evs.flatMap slotEventBytes).length), (16, slots.length - evs.length)])
        { u with reader := { u.reader with events := u.reader.events.filter (fun x => !x.isSlot) ++ slots.drop (e.param 8 4 / 16) } }) ∧
    (Accepted 0x0A01 src e s c t →
      (port < 4 → e.addr0 = 0 →
        let k := t.slot port
        exec (.cardStatus src e) s = done (okay [(12, slotCode t port), (13, if k.active then k.cls else 0), (14, k.mode), (16, k.commits.toNat),
          (20, k.serial.toNat % 2 ^ 64)]) t) ∧
      (4 ≤ port → exec (.cardStatus src e) s = done (inputRange 8) t)) ∧
    (∀ b : List Byte, Accepted 0x0A02 src e s c t → slotRefusal t port false = none → 4 ≤ e.param 0xC 4 → e.param 0xC 4 ≤ 65544 → 2 ≤ e.param 0x10 4 → e.param 0x10 4 ≤ 65538 →
      readInput t src (e.param 0xC 4) e.addr0 = .ok b → exec (.cardApdu src e) s = .next (finish (pushCard port c.key (.apdu b (e.param 0x10 4)) t))) ∧
    (∀ r, Accepted 0x0A02 src e s c t → slotRefusal t port false = some r → exec (.cardApdu src e) s = done r t) ∧
    (Accepted 0x0A03 src e s c t → slotRefusal t port true = none →
      (slot = 1 ∨ slot = 2 ∨ slot = 6 → exec (.tokenOp src e) s =
        .next (finish (pushCard port c.key (.token slot (e.param 0xA 2) (e.param 0xC 4) []) t))) ∧
      (slot = 5 → bitAt (t.reg (tagifBase + 0xFC) 0) 0 = false → exec (.tokenOp src e) s =
        .next (finish (pushCard port c.key (.token 5 (e.param 0xA 2) (e.param 0xC 4) []) t))) ∧
      (slot = 5 → bitAt (t.reg (tagifBase + 0xFC) 0) 0 = true → exec (.tokenOp src e) s = done (conflict 0) t) ∧
      (∀ b : List Byte, slot = 3 → readInput t src (e.param 0xC 4) e.addr0 = .ok b → exec (.tokenOp src e) s =
        .next (finish (pushCard port c.key (.token 3 (e.param 0xA 2) (e.param 0xC 4) b) t))) ∧
      (slot = 4 → 0 < e.param 0xC 4 → e.param 0xC 4 ≤ 16 → e.param 0xA 2 + e.param 0xC 4 ≤ 16 → exec (.tokenOp src e) s =
        .next (finish (pushCard port c.key (.token 4 (e.param 0xA 2) (e.param 0xC 4) []) t))))
end

