-- ==== Sys2Proof/Laws/State.lean ====
section
/-! SUPPORT. What each named update of the state leaves alone and what it sets: one lemma per field per update, true by unfolding. -/

namespace Sys2Proof.Laws

open Sys2Proof.Machine

@[simp] theorem writeBytes_power (s : State) (space addr : Nat) (bs : List Byte) : (State.writeBytes s space addr bs).power = s.power := rfl
@[simp] theorem writeBytes_clock (s : State) (space addr : Nat) (bs : List Byte) : (State.writeBytes s space addr bs).clock = s.clock := rfl
@[simp] theorem writeBytes_cores (s : State) (space addr : Nat) (bs : List Byte) : (State.writeBytes s space addr bs).cores = s.cores := rfl
@[simp] theorem writeBytes_lines (s : State) (space addr : Nat) (bs : List Byte) : (State.writeBytes s space addr bs).lines = s.lines := rfl
@[simp] theorem writeBytes_mlines (s : State) (space addr : Nat) (bs : List Byte) : (State.writeBytes s space addr bs).mlines = s.mlines := rfl
@[simp] theorem writeBytes_fault (s : State) (space addr : Nat) (bs : List Byte) : (State.writeBytes s space addr bs).fault = s.fault := rfl
@[simp] theorem writeBytes_tamper (s : State) (space addr : Nat) (bs : List Byte) : (State.writeBytes s space addr bs).tamper = s.tamper := rfl
@[simp] theorem writeBytes_cqe (s : State) (space addr : Nat) (bs : List Byte) : (State.writeBytes s space addr bs).cqe = s.cqe := rfl
@[simp] theorem writeBytes_port0 (s : State) (space addr : Nat) (bs : List Byte) : (State.writeBytes s space addr bs).port0 = s.port0 := rfl
@[simp] theorem writeBytes_port1 (s : State) (space addr : Nat) (bs : List Byte) : (State.writeBytes s space addr bs).port1 = s.port1 := rfl
@[simp] theorem writeBytes_mgmtp (s : State) (space addr : Nat) (bs : List Byte) : (State.writeBytes s space addr bs).mgmtp = s.mgmtp := rfl
@[simp] theorem writeBytes_pair (s : State) (space addr : Nat) (bs : List Byte) : (State.writeBytes s space addr bs).pair = s.pair := rfl
@[simp] theorem writeBytes_journal (s : State) (space addr : Nat) (bs : List Byte) : (State.writeBytes s space addr bs).journal = s.journal := rfl
@[simp] theorem writeBytes_ktab (s : State) (space addr : Nat) (bs : List Byte) : (State.writeBytes s space addr bs).ktab = s.ktab := rfl
@[simp] theorem writeBytes_lanes (s : State) (space addr : Nat) (bs : List Byte) : (State.writeBytes s space addr bs).lanes = s.lanes := rfl
@[simp] theorem writeBytes_vault (s : State) (space addr : Nat) (bs : List Byte) : (State.writeBytes s space addr bs).vault = s.vault := rfl
@[simp] theorem writeBytes_kiln (s : State) (space addr : Nat) (bs : List Byte) : (State.writeBytes s space addr bs).kiln = s.kiln := rfl
@[simp] theorem writeBytes_pke (s : State) (space addr : Nat) (bs : List Byte) : (State.writeBytes s space addr bs).pke = s.pke := rfl
@[simp] theorem writeBytes_rng (s : State) (space addr : Nat) (bs : List Byte) : (State.writeBytes s space addr bs).rng = s.rng := rfl
@[simp] theorem writeBytes_dramc (s : State) (space addr : Nat) (bs : List Byte) : (State.writeBytes s space addr bs).dramc = s.dramc := rfl
@[simp] theorem writeBytes_flash (s : State) (space addr : Nat) (bs : List Byte) : (State.writeBytes s space addr bs).flash = s.flash := rfl
@[simp] theorem writeBytes_reader (s : State) (space addr : Nat) (bs : List Byte) : (State.writeBytes s space addr bs).reader = s.reader := rfl
@[simp] theorem writeBytes_tag (s : State) (space addr : Nat) (bs : List Byte) : (State.writeBytes s space addr bs).tag = s.tag := rfl
@[simp] theorem writeBytes_cards (s : State) (space addr : Nat) (bs : List Byte) : (State.writeBytes s space addr bs).cards = s.cards := rfl
@[simp] theorem writeBytes_nvm (s : State) (space addr : Nat) (bs : List Byte) : (State.writeBytes s space addr bs).nvm = s.nvm := rfl
@[simp] theorem writeBytes_regs (s : State) (space addr : Nat) (bs : List Byte) : (State.writeBytes s space addr bs).regs = s.regs := rfl
@[simp] theorem writeBytes_freeCtr (s : State) (space addr : Nat) (bs : List Byte) : (State.writeBytes s space addr bs).freeCtr = s.freeCtr := rfl
@[simp] theorem writeBytes_pending (s : State) (space addr : Nat) (bs : List Byte) : (State.writeBytes s space addr bs).pending = s.pending := rfl

@[simp] theorem clearMem_power (s : State) (space lo hi : Nat) : (State.clearMem s space lo hi).power = s.power := rfl
@[simp] theorem clearMem_clock (s : State) (space lo hi : Nat) : (State.clearMem s space lo hi).clock = s.clock := rfl
@[simp] theorem clearMem_cores (s : State) (space lo hi : Nat) : (State.clearMem s space lo hi).cores = s.cores := rfl
@[simp] theorem clearMem_lines (s : State) (space lo hi : Nat) : (State.clearMem s space lo hi).lines = s.lines := rfl
@[simp] theorem clearMem_mlines (s : State) (space lo hi : Nat) : (State.clearMem s space lo hi).mlines = s.mlines := rfl
@[simp] theorem clearMem_fault (s : State) (space lo hi : Nat) : (State.clearMem s space lo hi).fault = s.fault := rfl
@[simp] theorem clearMem_tamper (s : State) (space lo hi : Nat) : (State.clearMem s space lo hi).tamper = s.tamper := rfl
@[simp] theorem clearMem_cqe (s : State) (space lo hi : Nat) : (State.clearMem s space lo hi).cqe = s.cqe := rfl
@[simp] theorem clearMem_port0 (s : State) (space lo hi : Nat) : (State.clearMem s space lo hi).port0 = s.port0 := rfl
@[simp] theorem clearMem_port1 (s : State) (space lo hi : Nat) : (State.clearMem s space lo hi).port1 = s.port1 := rfl
@[simp] theorem clearMem_mgmtp (s : State) (space lo hi : Nat) : (State.clearMem s space lo hi).mgmtp = s.mgmtp := rfl
@[simp] theorem clearMem_pair (s : State) (space lo hi : Nat) : (State.clearMem s space lo hi).pair = s.pair := rfl
@[simp] theorem clearMem_journal (s : State) (space lo hi : Nat) : (State.clearMem s space lo hi).journal = s.journal := rfl
@[simp] theorem clearMem_ktab (s : State) (space lo hi : Nat) : (State.clearMem s space lo hi).ktab = s.ktab := rfl
@[simp] theorem clearMem_lanes (s : State) (space lo hi : Nat) : (State.clearMem s space lo hi).lanes = s.lanes := rfl
@[simp] theorem clearMem_vault (s : State) (space lo hi : Nat) : (State.clearMem s space lo hi).vault = s.vault := rfl
@[simp] theorem clearMem_kiln (s : State) (space lo hi : Nat) : (State.clearMem s space lo hi).kiln = s.kiln := rfl
@[simp] theorem clearMem_pke (s : State) (space lo hi : Nat) : (State.clearMem s space lo hi).pke = s.pke := rfl
@[simp] theorem clearMem_rng (s : State) (space lo hi : Nat) : (State.clearMem s space lo hi).rng = s.rng := rfl
@[simp] theorem clearMem_dramc (s : State) (space lo hi : Nat) : (State.clearMem s space lo hi).dramc = s.dramc := rfl
@[simp] theorem clearMem_flash (s : State) (space lo hi : Nat) : (State.clearMem s space lo hi).flash = s.flash := rfl
@[simp] theorem clearMem_reader (s : State) (space lo hi : Nat) : (State.clearMem s space lo hi).reader = s.reader := rfl
@[simp] theorem clearMem_tag (s : State) (space lo hi : Nat) : (State.clearMem s space lo hi).tag = s.tag := rfl
@[simp] theorem clearMem_cards (s : State) (space lo hi : Nat) : (State.clearMem s space lo hi).cards = s.cards := rfl
@[simp] theorem clearMem_nvm (s : State) (space lo hi : Nat) : (State.clearMem s space lo hi).nvm = s.nvm := rfl
@[simp] theorem clearMem_regs (s : State) (space lo hi : Nat) : (State.clearMem s space lo hi).regs = s.regs := rfl
@[simp] theorem clearMem_freeCtr (s : State) (space lo hi : Nat) : (State.clearMem s space lo hi).freeCtr = s.freeCtr := rfl
@[simp] theorem clearMem_pending (s : State) (space lo hi : Nat) : (State.clearMem s space lo hi).pending = s.pending := rfl

@[simp] theorem drew_power (s : State) : (State.drew s).power = s.power := rfl
@[simp] theorem drew_clock (s : State) : (State.drew s).clock = s.clock := rfl
@[simp] theorem drew_cores (s : State) : (State.drew s).cores = s.cores := rfl
@[simp] theorem drew_lines (s : State) : (State.drew s).lines = s.lines := rfl
@[simp] theorem drew_mlines (s : State) : (State.drew s).mlines = s.mlines := rfl
@[simp] theorem drew_fault (s : State) : (State.drew s).fault = s.fault := rfl
@[simp] theorem drew_tamper (s : State) : (State.drew s).tamper = s.tamper := rfl
@[simp] theorem drew_cqe (s : State) : (State.drew s).cqe = s.cqe := rfl
@[simp] theorem drew_port0 (s : State) : (State.drew s).port0 = s.port0 := rfl
@[simp] theorem drew_port1 (s : State) : (State.drew s).port1 = s.port1 := rfl
@[simp] theorem drew_mgmtp (s : State) : (State.drew s).mgmtp = s.mgmtp := rfl
@[simp] theorem drew_pair (s : State) : (State.drew s).pair = s.pair := rfl
@[simp] theorem drew_journal (s : State) : (State.drew s).journal = s.journal := rfl
@[simp] theorem drew_ktab (s : State) : (State.drew s).ktab = s.ktab := rfl
@[simp] theorem drew_lanes (s : State) : (State.drew s).lanes = s.lanes := rfl
@[simp] theorem drew_vault (s : State) : (State.drew s).vault = s.vault := rfl
@[simp] theorem drew_kiln (s : State) : (State.drew s).kiln = s.kiln := rfl
@[simp] theorem drew_pke (s : State) : (State.drew s).pke = s.pke := rfl
@[simp] theorem drew_rng (s : State) : (State.drew s).rng = s.rng := rfl
@[simp] theorem drew_dramc (s : State) : (State.drew s).dramc = s.dramc := rfl
@[simp] theorem drew_flash (s : State) : (State.drew s).flash = s.flash := rfl
@[simp] theorem drew_reader (s : State) : (State.drew s).reader = s.reader := rfl
@[simp] theorem drew_tag (s : State) : (State.drew s).tag = s.tag := rfl
@[simp] theorem drew_cards (s : State) : (State.drew s).cards = s.cards := rfl
@[simp] theorem drew_nvm (s : State) : (State.drew s).nvm = s.nvm := rfl
@[simp] theorem drew_regs (s : State) : (State.drew s).regs = s.regs := rfl
@[simp] theorem drew_mem (s : State) : (State.drew s).mem = s.mem := rfl
@[simp] theorem drew_pending (s : State) : (State.drew s).pending = s.pending := rfl

@[simp] theorem setReg_power (s : State) (addr : Nat) (v : Word) : (State.setReg s addr v).power = s.power := rfl
@[simp] theorem setReg_clock (s : State) (addr : Nat) (v : Word) : (State.setReg s addr v).clock = s.clock := rfl
@[simp] theorem setReg_cores (s : State) (addr : Nat) (v : Word) : (State.setReg s addr v).cores = s.cores := rfl
@[simp] theorem setReg_lines (s : State) (addr : Nat) (v : Word) : (State.setReg s addr v).lines = s.lines := rfl
@[simp] theorem setReg_mlines (s : State) (addr : Nat) (v : Word) : (State.setReg s addr v).mlines = s.mlines := rfl
@[simp] theorem setReg_fault (s : State) (addr : Nat) (v : Word) : (State.setReg s addr v).fault = s.fault := rfl
@[simp] theorem setReg_tamper (s : State) (addr : Nat) (v : Word) : (State.setReg s addr v).tamper = s.tamper := rfl
@[simp] theorem setReg_cqe (s : State) (addr : Nat) (v : Word) : (State.setReg s addr v).cqe = s.cqe := rfl
@[simp] theorem setReg_port0 (s : State) (addr : Nat) (v : Word) : (State.setReg s addr v).port0 = s.port0 := rfl
@[simp] theorem setReg_port1 (s : State) (addr : Nat) (v : Word) : (State.setReg s addr v).port1 = s.port1 := rfl
@[simp] theorem setReg_mgmtp (s : State) (addr : Nat) (v : Word) : (State.setReg s addr v).mgmtp = s.mgmtp := rfl
@[simp] theorem setReg_pair (s : State) (addr : Nat) (v : Word) : (State.setReg s addr v).pair = s.pair := rfl
@[simp] theorem setReg_journal (s : State) (addr : Nat) (v : Word) : (State.setReg s addr v).journal = s.journal := rfl
@[simp] theorem setReg_ktab (s : State) (addr : Nat) (v : Word) : (State.setReg s addr v).ktab = s.ktab := rfl
@[simp] theorem setReg_lanes (s : State) (addr : Nat) (v : Word) : (State.setReg s addr v).lanes = s.lanes := rfl
@[simp] theorem setReg_vault (s : State) (addr : Nat) (v : Word) : (State.setReg s addr v).vault = s.vault := rfl
@[simp] theorem setReg_kiln (s : State) (addr : Nat) (v : Word) : (State.setReg s addr v).kiln = s.kiln := rfl
@[simp] theorem setReg_pke (s : State) (addr : Nat) (v : Word) : (State.setReg s addr v).pke = s.pke := rfl
@[simp] theorem setReg_rng (s : State) (addr : Nat) (v : Word) : (State.setReg s addr v).rng = s.rng := rfl
@[simp] theorem setReg_dramc (s : State) (addr : Nat) (v : Word) : (State.setReg s addr v).dramc = s.dramc := rfl
@[simp] theorem setReg_flash (s : State) (addr : Nat) (v : Word) : (State.setReg s addr v).flash = s.flash := rfl
@[simp] theorem setReg_reader (s : State) (addr : Nat) (v : Word) : (State.setReg s addr v).reader = s.reader := rfl
@[simp] theorem setReg_tag (s : State) (addr : Nat) (v : Word) : (State.setReg s addr v).tag = s.tag := rfl
@[simp] theorem setReg_cards (s : State) (addr : Nat) (v : Word) : (State.setReg s addr v).cards = s.cards := rfl
@[simp] theorem setReg_nvm (s : State) (addr : Nat) (v : Word) : (State.setReg s addr v).nvm = s.nvm := rfl
@[simp] theorem setReg_mem (s : State) (addr : Nat) (v : Word) : (State.setReg s addr v).mem = s.mem := rfl
@[simp] theorem setReg_freeCtr (s : State) (addr : Nat) (v : Word) : (State.setReg s addr v).freeCtr = s.freeCtr := rfl
@[simp] theorem setReg_pending (s : State) (addr : Nat) (v : Word) : (State.setReg s addr v).pending = s.pending := rfl

@[simp] theorem line_power (s : State) (l : Nat) : (State.line s l).power = s.power := rfl
@[simp] theorem line_clock (s : State) (l : Nat) : (State.line s l).clock = s.clock := rfl
@[simp] theorem line_cores (s : State) (l : Nat) : (State.line s l).cores = s.cores := rfl
@[simp] theorem line_mlines (s : State) (l : Nat) : (State.line s l).mlines = s.mlines := rfl
@[simp] theorem line_fault (s : State) (l : Nat) : (State.line s l).fault = s.fault := rfl
@[simp] theorem line_tamper (s : State) (l : Nat) : (State.line s l).tamper = s.tamper := rfl
@[simp] theorem line_cqe (s : State) (l : Nat) : (State.line s l).cqe = s.cqe := rfl
@[simp] theorem line_port0 (s : State) (l : Nat) : (State.line s l).port0 = s.port0 := rfl
@[simp] theorem line_port1 (s : State) (l : Nat) : (State.line s l).port1 = s.port1 := rfl
@[simp] theorem line_mgmtp (s : State) (l : Nat) : (State.line s l).mgmtp = s.mgmtp := rfl
@[simp] theorem line_pair (s : State) (l : Nat) : (State.line s l).pair = s.pair := rfl
@[simp] theorem line_journal (s : State) (l : Nat) : (State.line s l).journal = s.journal := rfl
@[simp] theorem line_ktab (s : State) (l : Nat) : (State.line s l).ktab = s.ktab := rfl
@[simp] theorem line_lanes (s : State) (l : Nat) : (State.line s l).lanes = s.lanes := rfl
@[simp] theorem line_vault (s : State) (l : Nat) : (State.line s l).vault = s.vault := rfl
@[simp] theorem line_kiln (s : State) (l : Nat) : (State.line s l).kiln = s.kiln := rfl
@[simp] theorem line_pke (s : State) (l : Nat) : (State.line s l).pke = s.pke := rfl
@[simp] theorem line_rng (s : State) (l : Nat) : (State.line s l).rng = s.rng := rfl
@[simp] theorem line_dramc (s : State) (l : Nat) : (State.line s l).dramc = s.dramc := rfl
@[simp] theorem line_flash (s : State) (l : Nat) : (State.line s l).flash = s.flash := rfl
@[simp] theorem line_reader (s : State) (l : Nat) : (State.line s l).reader = s.reader := rfl
@[simp] theorem line_tag (s : State) (l : Nat) : (State.line s l).tag = s.tag := rfl
@[simp] theorem line_cards (s : State) (l : Nat) : (State.line s l).cards = s.cards := rfl
@[simp] theorem line_nvm (s : State) (l : Nat) : (State.line s l).nvm = s.nvm := rfl
@[simp] theorem line_regs (s : State) (l : Nat) : (State.line s l).regs = s.regs := rfl
@[simp] theorem line_mem (s : State) (l : Nat) : (State.line s l).mem = s.mem := rfl
@[simp] theorem line_freeCtr (s : State) (l : Nat) : (State.line s l).freeCtr = s.freeCtr := rfl
@[simp] theorem line_pending (s : State) (l : Nat) : (State.line s l).pending = s.pending := rfl

@[simp] theorem unline_power (s : State) (l : Nat) : (State.unline s l).power = s.power := rfl
@[simp] theorem unline_clock (s : State) (l : Nat) : (State.unline s l).clock = s.clock := rfl
@[simp] theorem unline_cores (s : State) (l : Nat) : (State.unline s l).cores = s.cores := rfl
@[simp] theorem unline_mlines (s : State) (l : Nat) : (State.unline s l).mlines = s.mlines := rfl
@[simp] theorem unline_fault (s : State) (l : Nat) : (State.unline s l).fault = s.fault := rfl
@[simp] theorem unline_tamper (s : State) (l : Nat) : (State.unline s l).tamper = s.tamper := rfl
@[simp] theorem unline_cqe (s : State) (l : Nat) : (State.unline s l).cqe = s.cqe := rfl
@[simp] theorem unline_port0 (s : State) (l : Nat) : (State.unline s l).port0 = s.port0 := rfl
@[simp] theorem unline_port1 (s : State) (l : Nat) : (State.unline s l).port1 = s.port1 := rfl
@[simp] theorem unline_mgmtp (s : State) (l : Nat) : (State.unline s l).mgmtp = s.mgmtp := rfl
@[simp] theorem unline_pair (s : State) (l : Nat) : (State.unline s l).pair = s.pair := rfl
@[simp] theorem unline_journal (s : State) (l : Nat) : (State.unline s l).journal = s.journal := rfl
@[simp] theorem unline_ktab (s : State) (l : Nat) : (State.unline s l).ktab = s.ktab := rfl
@[simp] theorem unline_lanes (s : State) (l : Nat) : (State.unline s l).lanes = s.lanes := rfl
@[simp] theorem unline_vault (s : State) (l : Nat) : (State.unline s l).vault = s.vault := rfl
@[simp] theorem unline_kiln (s : State) (l : Nat) : (State.unline s l).kiln = s.kiln := rfl
@[simp] theorem unline_pke (s : State) (l : Nat) : (State.unline s l).pke = s.pke := rfl
@[simp] theorem unline_rng (s : State) (l : Nat) : (State.unline s l).rng = s.rng := rfl
@[simp] theorem unline_dramc (s : State) (l : Nat) : (State.unline s l).dramc = s.dramc := rfl
@[simp] theorem unline_flash (s : State) (l : Nat) : (State.unline s l).flash = s.flash := rfl
@[simp] theorem unline_reader (s : State) (l : Nat) : (State.unline s l).reader = s.reader := rfl
@[simp] theorem unline_tag (s : State) (l : Nat) : (State.unline s l).tag = s.tag := rfl
@[simp] theorem unline_cards (s : State) (l : Nat) : (State.unline s l).cards = s.cards := rfl
@[simp] theorem unline_nvm (s : State) (l : Nat) : (State.unline s l).nvm = s.nvm := rfl
@[simp] theorem unline_regs (s : State) (l : Nat) : (State.unline s l).regs = s.regs := rfl
@[simp] theorem unline_mem (s : State) (l : Nat) : (State.unline s l).mem = s.mem := rfl
@[simp] theorem unline_freeCtr (s : State) (l : Nat) : (State.unline s l).freeCtr = s.freeCtr := rfl
@[simp] theorem unline_pending (s : State) (l : Nat) : (State.unline s l).pending = s.pending := rfl

@[simp] theorem mline_power (s : State) (l : Nat) : (State.mline s l).power = s.power := rfl
@[simp] theorem mline_clock (s : State) (l : Nat) : (State.mline s l).clock = s.clock := rfl
@[simp] theorem mline_cores (s : State) (l : Nat) : (State.mline s l).cores = s.cores := rfl
@[simp] theorem mline_lines (s : State) (l : Nat) : (State.mline s l).lines = s.lines := rfl
@[simp] theorem mline_fault (s : State) (l : Nat) : (State.mline s l).fault = s.fault := rfl
@[simp] theorem mline_tamper (s : State) (l : Nat) : (State.mline s l).tamper = s.tamper := rfl
@[simp] theorem mline_cqe (s : State) (l : Nat) : (State.mline s l).cqe = s.cqe := rfl
@[simp] theorem mline_port0 (s : State) (l : Nat) : (State.mline s l).port0 = s.port0 := rfl
@[simp] theorem mline_port1 (s : State) (l : Nat) : (State.mline s l).port1 = s.port1 := rfl
@[simp] theorem mline_mgmtp (s : State) (l : Nat) : (State.mline s l).mgmtp = s.mgmtp := rfl
@[simp] theorem mline_pair (s : State) (l : Nat) : (State.mline s l).pair = s.pair := rfl
@[simp] theorem mline_journal (s : State) (l : Nat) : (State.mline s l).journal = s.journal := rfl
@[simp] theorem mline_ktab (s : State) (l : Nat) : (State.mline s l).ktab = s.ktab := rfl
@[simp] theorem mline_lanes (s : State) (l : Nat) : (State.mline s l).lanes = s.lanes := rfl
@[simp] theorem mline_vault (s : State) (l : Nat) : (State.mline s l).vault = s.vault := rfl
@[simp] theorem mline_kiln (s : State) (l : Nat) : (State.mline s l).kiln = s.kiln := rfl
@[simp] theorem mline_pke (s : State) (l : Nat) : (State.mline s l).pke = s.pke := rfl
@[simp] theorem mline_rng (s : State) (l : Nat) : (State.mline s l).rng = s.rng := rfl
@[simp] theorem mline_dramc (s : State) (l : Nat) : (State.mline s l).dramc = s.dramc := rfl
@[simp] theorem mline_flash (s : State) (l : Nat) : (State.mline s l).flash = s.flash := rfl
@[simp] theorem mline_reader (s : State) (l : Nat) : (State.mline s l).reader = s.reader := rfl
@[simp] theorem mline_tag (s : State) (l : Nat) : (State.mline s l).tag = s.tag := rfl
@[simp] theorem mline_cards (s : State) (l : Nat) : (State.mline s l).cards = s.cards := rfl
@[simp] theorem mline_nvm (s : State) (l : Nat) : (State.mline s l).nvm = s.nvm := rfl
@[simp] theorem mline_regs (s : State) (l : Nat) : (State.mline s l).regs = s.regs := rfl
@[simp] theorem mline_mem (s : State) (l : Nat) : (State.mline s l).mem = s.mem := rfl
@[simp] theorem mline_freeCtr (s : State) (l : Nat) : (State.mline s l).freeCtr = s.freeCtr := rfl
@[simp] theorem mline_pending (s : State) (l : Nat) : (State.mline s l).pending = s.pending := rfl

@[simp] theorem munline_power (s : State) (l : Nat) : (State.munline s l).power = s.power := rfl
@[simp] theorem munline_clock (s : State) (l : Nat) : (State.munline s l).clock = s.clock := rfl
@[simp] theorem munline_cores (s : State) (l : Nat) : (State.munline s l).cores = s.cores := rfl
@[simp] theorem munline_lines (s : State) (l : Nat) : (State.munline s l).lines = s.lines := rfl
@[simp] theorem munline_fault (s : State) (l : Nat) : (State.munline s l).fault = s.fault := rfl
@[simp] theorem munline_tamper (s : State) (l : Nat) : (State.munline s l).tamper = s.tamper := rfl
@[simp] theorem munline_cqe (s : State) (l : Nat) : (State.munline s l).cqe = s.cqe := rfl
@[simp] theorem munline_port0 (s : State) (l : Nat) : (State.munline s l).port0 = s.port0 := rfl
@[simp] theorem munline_port1 (s : State) (l : Nat) : (State.munline s l).port1 = s.port1 := rfl
@[simp] theorem munline_mgmtp (s : State) (l : Nat) : (State.munline s l).mgmtp = s.mgmtp := rfl
@[simp] theorem munline_pair (s : State) (l : Nat) : (State.munline s l).pair = s.pair := rfl
@[simp] theorem munline_journal (s : State) (l : Nat) : (State.munline s l).journal = s.journal := rfl
@[simp] theorem munline_ktab (s : State) (l : Nat) : (State.munline s l).ktab = s.ktab := rfl
@[simp] theorem munline_lanes (s : State) (l : Nat) : (State.munline s l).lanes = s.lanes := rfl
@[simp] theorem munline_vault (s : State) (l : Nat) : (State.munline s l).vault = s.vault := rfl
@[simp] theorem munline_kiln (s : State) (l : Nat) : (State.munline s l).kiln = s.kiln := rfl
@[simp] theorem munline_pke (s : State) (l : Nat) : (State.munline s l).pke = s.pke := rfl
@[simp] theorem munline_rng (s : State) (l : Nat) : (State.munline s l).rng = s.rng := rfl
@[simp] theorem munline_dramc (s : State) (l : Nat) : (State.munline s l).dramc = s.dramc := rfl
@[simp] theorem munline_flash (s : State) (l : Nat) : (State.munline s l).flash = s.flash := rfl
@[simp] theorem munline_reader (s : State) (l : Nat) : (State.munline s l).reader = s.reader := rfl
@[simp] theorem munline_tag (s : State) (l : Nat) : (State.munline s l).tag = s.tag := rfl
@[simp] theorem munline_cards (s : State) (l : Nat) : (State.munline s l).cards = s.cards := rfl
@[simp] theorem munline_nvm (s : State) (l : Nat) : (State.munline s l).nvm = s.nvm := rfl
@[simp] theorem munline_regs (s : State) (l : Nat) : (State.munline s l).regs = s.regs := rfl
@[simp] theorem munline_mem (s : State) (l : Nat) : (State.munline s l).mem = s.mem := rfl
@[simp] theorem munline_freeCtr (s : State) (l : Nat) : (State.munline s l).freeCtr = s.freeCtr := rfl
@[simp] theorem munline_pending (s : State) (l : Nat) : (State.munline s l).pending = s.pending := rfl

@[simp] theorem report_power (s : State) (rs : List FaultIn) : (State.report s rs).power = s.power := rfl
@[simp] theorem report_clock (s : State) (rs : List FaultIn) : (State.report s rs).clock = s.clock := rfl
@[simp] theorem report_cores (s : State) (rs : List FaultIn) : (State.report s rs).cores = s.cores := rfl
@[simp] theorem report_lines (s : State) (rs : List FaultIn) : (State.report s rs).lines = s.lines := rfl
@[simp] theorem report_mlines (s : State) (rs : List FaultIn) : (State.report s rs).mlines = s.mlines := rfl
@[simp] theorem report_tamper (s : State) (rs : List FaultIn) : (State.report s rs).tamper = s.tamper := rfl
@[simp] theorem report_cqe (s : State) (rs : List FaultIn) : (State.report s rs).cqe = s.cqe := rfl
@[simp] theorem report_port0 (s : State) (rs : List FaultIn) : (State.report s rs).port0 = s.port0 := rfl
@[simp] theorem report_port1 (s : State) (rs : List FaultIn) : (State.report s rs).port1 = s.port1 := rfl
@[simp] theorem report_mgmtp (s : State) (rs : List FaultIn) : (State.report s rs).mgmtp = s.mgmtp := rfl
@[simp] theorem report_pair (s : State) (rs : List FaultIn) : (State.report s rs).pair = s.pair := rfl
@[simp] theorem report_journal (s : State) (rs : List FaultIn) : (State.report s rs).journal = s.journal := rfl
@[simp] theorem report_ktab (s : State) (rs : List FaultIn) : (State.report s rs).ktab = s.ktab := rfl
@[simp] theorem report_lanes (s : State) (rs : List FaultIn) : (State.report s rs).lanes = s.lanes := rfl
@[simp] theorem report_vault (s : State) (rs : List FaultIn) : (State.report s rs).vault = s.vault := rfl
@[simp] theorem report_kiln (s : State) (rs : List FaultIn) : (State.report s rs).kiln = s.kiln := rfl
@[simp] theorem report_pke (s : State) (rs : List FaultIn) : (State.report s rs).pke = s.pke := rfl
@[simp] theorem report_rng (s : State) (rs : List FaultIn) : (State.report s rs).rng = s.rng := rfl
@[simp] theorem report_dramc (s : State) (rs : List FaultIn) : (State.report s rs).dramc = s.dramc := rfl
@[simp] theorem report_flash (s : State) (rs : List FaultIn) : (State.report s rs).flash = s.flash := rfl
@[simp] theorem report_reader (s : State) (rs : List FaultIn) : (State.report s rs).reader = s.reader := rfl
@[simp] theorem report_tag (s : State) (rs : List FaultIn) : (State.report s rs).tag = s.tag := rfl
@[simp] theorem report_cards (s : State) (rs : List FaultIn) : (State.report s rs).cards = s.cards := rfl
@[simp] theorem report_nvm (s : State) (rs : List FaultIn) : (State.report s rs).nvm = s.nvm := rfl
@[simp] theorem report_regs (s : State) (rs : List FaultIn) : (State.report s rs).regs = s.regs := rfl
@[simp] theorem report_mem (s : State) (rs : List FaultIn) : (State.report s rs).mem = s.mem := rfl
@[simp] theorem report_freeCtr (s : State) (rs : List FaultIn) : (State.report s rs).freeCtr = s.freeCtr := rfl
@[simp] theorem report_pending (s : State) (rs : List FaultIn) : (State.report s rs).pending = s.pending := rfl

@[simp] theorem setVslot_power (s : State) (n : Nat) (k : Option Hash) : (State.setVslot s n k).power = s.power := rfl
@[simp] theorem setVslot_clock (s : State) (n : Nat) (k : Option Hash) : (State.setVslot s n k).clock = s.clock := rfl
@[simp] theorem setVslot_cores (s : State) (n : Nat) (k : Option Hash) : (State.setVslot s n k).cores = s.cores := rfl
@[simp] theorem setVslot_lines (s : State) (n : Nat) (k : Option Hash) : (State.setVslot s n k).lines = s.lines := rfl
@[simp] theorem setVslot_mlines (s : State) (n : Nat) (k : Option Hash) : (State.setVslot s n k).mlines = s.mlines := rfl
@[simp] theorem setVslot_fault (s : State) (n : Nat) (k : Option Hash) : (State.setVslot s n k).fault = s.fault := rfl
@[simp] theorem setVslot_tamper (s : State) (n : Nat) (k : Option Hash) : (State.setVslot s n k).tamper = s.tamper := rfl
@[simp] theorem setVslot_cqe (s : State) (n : Nat) (k : Option Hash) : (State.setVslot s n k).cqe = s.cqe := rfl
@[simp] theorem setVslot_port0 (s : State) (n : Nat) (k : Option Hash) : (State.setVslot s n k).port0 = s.port0 := rfl
@[simp] theorem setVslot_port1 (s : State) (n : Nat) (k : Option Hash) : (State.setVslot s n k).port1 = s.port1 := rfl
@[simp] theorem setVslot_mgmtp (s : State) (n : Nat) (k : Option Hash) : (State.setVslot s n k).mgmtp = s.mgmtp := rfl
@[simp] theorem setVslot_pair (s : State) (n : Nat) (k : Option Hash) : (State.setVslot s n k).pair = s.pair := rfl
@[simp] theorem setVslot_journal (s : State) (n : Nat) (k : Option Hash) : (State.setVslot s n k).journal = s.journal := rfl
@[simp] theorem setVslot_ktab (s : State) (n : Nat) (k : Option Hash) : (State.setVslot s n k).ktab = s.ktab := rfl
@[simp] theorem setVslot_lanes (s : State) (n : Nat) (k : Option Hash) : (State.setVslot s n k).lanes = s.lanes := rfl
@[simp] theorem setVslot_kiln (s : State) (n : Nat) (k : Option Hash) : (State.setVslot s n k).kiln = s.kiln := rfl
@[simp] theorem setVslot_pke (s : State) (n : Nat) (k : Option Hash) : (State.setVslot s n k).pke = s.pke := rfl
@[simp] theorem setVslot_rng (s : State) (n : Nat) (k : Option Hash) : (State.setVslot s n k).rng = s.rng := rfl
@[simp] theorem setVslot_dramc (s : State) (n : Nat) (k : Option Hash) : (State.setVslot s n k).dramc = s.dramc := rfl
@[simp] theorem setVslot_flash (s : State) (n : Nat) (k : Option Hash) : (State.setVslot s n k).flash = s.flash := rfl
@[simp] theorem setVslot_reader (s : State) (n : Nat) (k : Option Hash) : (State.setVslot s n k).reader = s.reader := rfl
@[simp] theorem setVslot_tag (s : State) (n : Nat) (k : Option Hash) : (State.setVslot s n k).tag = s.tag := rfl
@[simp] theorem setVslot_cards (s : State) (n : Nat) (k : Option Hash) : (State.setVslot s n k).cards = s.cards := rfl
@[simp] theorem setVslot_nvm (s : State) (n : Nat) (k : Option Hash) : (State.setVslot s n k).nvm = s.nvm := rfl
@[simp] theorem setVslot_regs (s : State) (n : Nat) (k : Option Hash) : (State.setVslot s n k).regs = s.regs := rfl
@[simp] theorem setVslot_mem (s : State) (n : Nat) (k : Option Hash) : (State.setVslot s n k).mem = s.mem := rfl
@[simp] theorem setVslot_freeCtr (s : State) (n : Nat) (k : Option Hash) : (State.setVslot s n k).freeCtr = s.freeCtr := rfl
@[simp] theorem setVslot_pending (s : State) (n : Nat) (k : Option Hash) : (State.setVslot s n k).pending = s.pending := rfl

@[simp] theorem setSession_power (s : State) (g : BitVec 16) (f : Session → Session) : (State.setSession s g f).power = s.power := rfl
@[simp] theorem setSession_clock (s : State) (g : BitVec 16) (f : Session → Session) : (State.setSession s g f).clock = s.clock := rfl
@[simp] theorem setSession_cores (s : State) (g : BitVec 16) (f : Session → Session) : (State.setSession s g f).cores = s.cores := rfl
@[simp] theorem setSession_lines (s : State) (g : BitVec 16) (f : Session → Session) : (State.setSession s g f).lines = s.lines := rfl
@[simp] theorem setSession_mlines (s : State) (g : BitVec 16) (f : Session → Session) : (State.setSession s g f).mlines = s.mlines := rfl
@[simp] theorem setSession_fault (s : State) (g : BitVec 16) (f : Session → Session) : (State.setSession s g f).fault = s.fault := rfl
@[simp] theorem setSession_tamper (s : State) (g : BitVec 16) (f : Session → Session) : (State.setSession s g f).tamper = s.tamper := rfl
@[simp] theorem setSession_cqe (s : State) (g : BitVec 16) (f : Session → Session) : (State.setSession s g f).cqe = s.cqe := rfl
@[simp] theorem setSession_port0 (s : State) (g : BitVec 16) (f : Session → Session) : (State.setSession s g f).port0 = s.port0 := rfl
@[simp] theorem setSession_port1 (s : State) (g : BitVec 16) (f : Session → Session) : (State.setSession s g f).port1 = s.port1 := rfl
@[simp] theorem setSession_mgmtp (s : State) (g : BitVec 16) (f : Session → Session) : (State.setSession s g f).mgmtp = s.mgmtp := rfl
@[simp] theorem setSession_pair (s : State) (g : BitVec 16) (f : Session → Session) : (State.setSession s g f).pair = s.pair := rfl
@[simp] theorem setSession_journal (s : State) (g : BitVec 16) (f : Session → Session) : (State.setSession s g f).journal = s.journal := rfl
@[simp] theorem setSession_ktab (s : State) (g : BitVec 16) (f : Session → Session) : (State.setSession s g f).ktab = s.ktab := rfl
@[simp] theorem setSession_lanes (s : State) (g : BitVec 16) (f : Session → Session) : (State.setSession s g f).lanes = s.lanes := rfl
@[simp] theorem setSession_kiln (s : State) (g : BitVec 16) (f : Session → Session) : (State.setSession s g f).kiln = s.kiln := rfl
@[simp] theorem setSession_pke (s : State) (g : BitVec 16) (f : Session → Session) : (State.setSession s g f).pke = s.pke := rfl
@[simp] theorem setSession_rng (s : State) (g : BitVec 16) (f : Session → Session) : (State.setSession s g f).rng = s.rng := rfl
@[simp] theorem setSession_dramc (s : State) (g : BitVec 16) (f : Session → Session) : (State.setSession s g f).dramc = s.dramc := rfl
@[simp] theorem setSession_flash (s : State) (g : BitVec 16) (f : Session → Session) : (State.setSession s g f).flash = s.flash := rfl
@[simp] theorem setSession_reader (s : State) (g : BitVec 16) (f : Session → Session) : (State.setSession s g f).reader = s.reader := rfl
@[simp] theorem setSession_tag (s : State) (g : BitVec 16) (f : Session → Session) : (State.setSession s g f).tag = s.tag := rfl
@[simp] theorem setSession_cards (s : State) (g : BitVec 16) (f : Session → Session) : (State.setSession s g f).cards = s.cards := rfl
@[simp] theorem setSession_nvm (s : State) (g : BitVec 16) (f : Session → Session) : (State.setSession s g f).nvm = s.nvm := rfl
@[simp] theorem setSession_regs (s : State) (g : BitVec 16) (f : Session → Session) : (State.setSession s g f).regs = s.regs := rfl
@[simp] theorem setSession_mem (s : State) (g : BitVec 16) (f : Session → Session) : (State.setSession s g f).mem = s.mem := rfl
@[simp] theorem setSession_freeCtr (s : State) (g : BitVec 16) (f : Session → Session) : (State.setSession s g f).freeCtr = s.freeCtr := rfl
@[simp] theorem setSession_pending (s : State) (g : BitVec 16) (f : Session → Session) : (State.setSession s g f).pending = s.pending := rfl

@[simp] theorem setTag_power (s : State) (f : Tag → Tag) : (State.setTag s f).power = s.power := rfl
@[simp] theorem setTag_clock (s : State) (f : Tag → Tag) : (State.setTag s f).clock = s.clock := rfl
@[simp] theorem setTag_cores (s : State) (f : Tag → Tag) : (State.setTag s f).cores = s.cores := rfl
@[simp] theorem setTag_lines (s : State) (f : Tag → Tag) : (State.setTag s f).lines = s.lines := rfl
@[simp] theorem setTag_mlines (s : State) (f : Tag → Tag) : (State.setTag s f).mlines = s.mlines := rfl
@[simp] theorem setTag_fault (s : State) (f : Tag → Tag) : (State.setTag s f).fault = s.fault := rfl
@[simp] theorem setTag_tamper (s : State) (f : Tag → Tag) : (State.setTag s f).tamper = s.tamper := rfl
@[simp] theorem setTag_cqe (s : State) (f : Tag → Tag) : (State.setTag s f).cqe = s.cqe := rfl
@[simp] theorem setTag_port0 (s : State) (f : Tag → Tag) : (State.setTag s f).port0 = s.port0 := rfl
@[simp] theorem setTag_port1 (s : State) (f : Tag → Tag) : (State.setTag s f).port1 = s.port1 := rfl
@[simp] theorem setTag_mgmtp (s : State) (f : Tag → Tag) : (State.setTag s f).mgmtp = s.mgmtp := rfl
@[simp] theorem setTag_pair (s : State) (f : Tag → Tag) : (State.setTag s f).pair = s.pair := rfl
@[simp] theorem setTag_journal (s : State) (f : Tag → Tag) : (State.setTag s f).journal = s.journal := rfl
@[simp] theorem setTag_ktab (s : State) (f : Tag → Tag) : (State.setTag s f).ktab = s.ktab := rfl
@[simp] theorem setTag_lanes (s : State) (f : Tag → Tag) : (State.setTag s f).lanes = s.lanes := rfl
@[simp] theorem setTag_vault (s : State) (f : Tag → Tag) : (State.setTag s f).vault = s.vault := rfl
@[simp] theorem setTag_kiln (s : State) (f : Tag → Tag) : (State.setTag s f).kiln = s.kiln := rfl
@[simp] theorem setTag_pke (s : State) (f : Tag → Tag) : (State.setTag s f).pke = s.pke := rfl
@[simp] theorem setTag_rng (s : State) (f : Tag → Tag) : (State.setTag s f).rng = s.rng := rfl
@[simp] theorem setTag_dramc (s : State) (f : Tag → Tag) : (State.setTag s f).dramc = s.dramc := rfl
@[simp] theorem setTag_flash (s : State) (f : Tag → Tag) : (State.setTag s f).flash = s.flash := rfl
@[simp] theorem setTag_reader (s : State) (f : Tag → Tag) : (State.setTag s f).reader = s.reader := rfl
@[simp] theorem setTag_cards (s : State) (f : Tag → Tag) : (State.setTag s f).cards = s.cards := rfl
@[simp] theorem setTag_nvm (s : State) (f : Tag → Tag) : (State.setTag s f).nvm = s.nvm := rfl
@[simp] theorem setTag_regs (s : State) (f : Tag → Tag) : (State.setTag s f).regs = s.regs := rfl
@[simp] theorem setTag_mem (s : State) (f : Tag → Tag) : (State.setTag s f).mem = s.mem := rfl
@[simp] theorem setTag_freeCtr (s : State) (f : Tag → Tag) : (State.setTag s f).freeCtr = s.freeCtr := rfl
@[simp] theorem setTag_pending (s : State) (f : Tag → Tag) : (State.setTag s f).pending = s.pending := rfl

@[simp] theorem setFe_power (s : State) (n : Nat) (f : FrontEnd → FrontEnd) : (State.setFe s n f).power = s.power := rfl
@[simp] theorem setFe_clock (s : State) (n : Nat) (f : FrontEnd → FrontEnd) : (State.setFe s n f).clock = s.clock := rfl
@[simp] theorem setFe_cores (s : State) (n : Nat) (f : FrontEnd → FrontEnd) : (State.setFe s n f).cores = s.cores := rfl
@[simp] theorem setFe_lines (s : State) (n : Nat) (f : FrontEnd → FrontEnd) : (State.setFe s n f).lines = s.lines := rfl
@[simp] theorem setFe_mlines (s : State) (n : Nat) (f : FrontEnd → FrontEnd) : (State.setFe s n f).mlines = s.mlines := rfl
@[simp] theorem setFe_fault (s : State) (n : Nat) (f : FrontEnd → FrontEnd) : (State.setFe s n f).fault = s.fault := rfl
@[simp] theorem setFe_tamper (s : State) (n : Nat) (f : FrontEnd → FrontEnd) : (State.setFe s n f).tamper = s.tamper := rfl
@[simp] theorem setFe_cqe (s : State) (n : Nat) (f : FrontEnd → FrontEnd) : (State.setFe s n f).cqe = s.cqe := rfl
@[simp] theorem setFe_port0 (s : State) (n : Nat) (f : FrontEnd → FrontEnd) : (State.setFe s n f).port0 = s.port0 := rfl
@[simp] theorem setFe_port1 (s : State) (n : Nat) (f : FrontEnd → FrontEnd) : (State.setFe s n f).port1 = s.port1 := rfl
@[simp] theorem setFe_mgmtp (s : State) (n : Nat) (f : FrontEnd → FrontEnd) : (State.setFe s n f).mgmtp = s.mgmtp := rfl
@[simp] theorem setFe_pair (s : State) (n : Nat) (f : FrontEnd → FrontEnd) : (State.setFe s n f).pair = s.pair := rfl
@[simp] theorem setFe_journal (s : State) (n : Nat) (f : FrontEnd → FrontEnd) : (State.setFe s n f).journal = s.journal := rfl
@[simp] theorem setFe_ktab (s : State) (n : Nat) (f : FrontEnd → FrontEnd) : (State.setFe s n f).ktab = s.ktab := rfl
@[simp] theorem setFe_lanes (s : State) (n : Nat) (f : FrontEnd → FrontEnd) : (State.setFe s n f).lanes = s.lanes := rfl
@[simp] theorem setFe_vault (s : State) (n : Nat) (f : FrontEnd → FrontEnd) : (State.setFe s n f).vault = s.vault := rfl
@[simp] theorem setFe_kiln (s : State) (n : Nat) (f : FrontEnd → FrontEnd) : (State.setFe s n f).kiln = s.kiln := rfl
@[simp] theorem setFe_pke (s : State) (n : Nat) (f : FrontEnd → FrontEnd) : (State.setFe s n f).pke = s.pke := rfl
@[simp] theorem setFe_rng (s : State) (n : Nat) (f : FrontEnd → FrontEnd) : (State.setFe s n f).rng = s.rng := rfl
@[simp] theorem setFe_dramc (s : State) (n : Nat) (f : FrontEnd → FrontEnd) : (State.setFe s n f).dramc = s.dramc := rfl
@[simp] theorem setFe_flash (s : State) (n : Nat) (f : FrontEnd → FrontEnd) : (State.setFe s n f).flash = s.flash := rfl
@[simp] theorem setFe_tag (s : State) (n : Nat) (f : FrontEnd → FrontEnd) : (State.setFe s n f).tag = s.tag := rfl
@[simp] theorem setFe_cards (s : State) (n : Nat) (f : FrontEnd → FrontEnd) : (State.setFe s n f).cards = s.cards := rfl
@[simp] theorem setFe_nvm (s : State) (n : Nat) (f : FrontEnd → FrontEnd) : (State.setFe s n f).nvm = s.nvm := rfl
@[simp] theorem setFe_regs (s : State) (n : Nat) (f : FrontEnd → FrontEnd) : (State.setFe s n f).regs = s.regs := rfl
@[simp] theorem setFe_mem (s : State) (n : Nat) (f : FrontEnd → FrontEnd) : (State.setFe s n f).mem = s.mem := rfl
@[simp] theorem setFe_freeCtr (s : State) (n : Nat) (f : FrontEnd → FrontEnd) : (State.setFe s n f).freeCtr = s.freeCtr := rfl
@[simp] theorem setFe_pending (s : State) (n : Nat) (f : FrontEnd → FrontEnd) : (State.setFe s n f).pending = s.pending := rfl

@[simp] theorem setSlot_power (s : State) (n : Nat) (f : CardSlot → CardSlot) : (State.setSlot s n f).power = s.power := rfl
@[simp] theorem setSlot_clock (s : State) (n : Nat) (f : CardSlot → CardSlot) : (State.setSlot s n f).clock = s.clock := rfl
@[simp] theorem setSlot_cores (s : State) (n : Nat) (f : CardSlot → CardSlot) : (State.setSlot s n f).cores = s.cores := rfl
@[simp] theorem setSlot_lines (s : State) (n : Nat) (f : CardSlot → CardSlot) : (State.setSlot s n f).lines = s.lines := rfl
@[simp] theorem setSlot_mlines (s : State) (n : Nat) (f : CardSlot → CardSlot) : (State.setSlot s n f).mlines = s.mlines := rfl
@[simp] theorem setSlot_fault (s : State) (n : Nat) (f : CardSlot → CardSlot) : (State.setSlot s n f).fault = s.fault := rfl
@[simp] theorem setSlot_tamper (s : State) (n : Nat) (f : CardSlot → CardSlot) : (State.setSlot s n f).tamper = s.tamper := rfl
@[simp] theorem setSlot_cqe (s : State) (n : Nat) (f : CardSlot → CardSlot) : (State.setSlot s n f).cqe = s.cqe := rfl
@[simp] theorem setSlot_port0 (s : State) (n : Nat) (f : CardSlot → CardSlot) : (State.setSlot s n f).port0 = s.port0 := rfl
@[simp] theorem setSlot_port1 (s : State) (n : Nat) (f : CardSlot → CardSlot) : (State.setSlot s n f).port1 = s.port1 := rfl
@[simp] theorem setSlot_mgmtp (s : State) (n : Nat) (f : CardSlot → CardSlot) : (State.setSlot s n f).mgmtp = s.mgmtp := rfl
@[simp] theorem setSlot_pair (s : State) (n : Nat) (f : CardSlot → CardSlot) : (State.setSlot s n f).pair = s.pair := rfl
@[simp] theorem setSlot_journal (s : State) (n : Nat) (f : CardSlot → CardSlot) : (State.setSlot s n f).journal = s.journal := rfl
@[simp] theorem setSlot_ktab (s : State) (n : Nat) (f : CardSlot → CardSlot) : (State.setSlot s n f).ktab = s.ktab := rfl
@[simp] theorem setSlot_lanes (s : State) (n : Nat) (f : CardSlot → CardSlot) : (State.setSlot s n f).lanes = s.lanes := rfl
@[simp] theorem setSlot_vault (s : State) (n : Nat) (f : CardSlot → CardSlot) : (State.setSlot s n f).vault = s.vault := rfl
@[simp] theorem setSlot_kiln (s : State) (n : Nat) (f : CardSlot → CardSlot) : (State.setSlot s n f).kiln = s.kiln := rfl
@[simp] theorem setSlot_pke (s : State) (n : Nat) (f : CardSlot → CardSlot) : (State.setSlot s n f).pke = s.pke := rfl
@[simp] theorem setSlot_rng (s : State) (n : Nat) (f : CardSlot → CardSlot) : (State.setSlot s n f).rng = s.rng := rfl
@[simp] theorem setSlot_dramc (s : State) (n : Nat) (f : CardSlot → CardSlot) : (State.setSlot s n f).dramc = s.dramc := rfl
@[simp] theorem setSlot_flash (s : State) (n : Nat) (f : CardSlot → CardSlot) : (State.setSlot s n f).flash = s.flash := rfl
@[simp] theorem setSlot_reader (s : State) (n : Nat) (f : CardSlot → CardSlot) : (State.setSlot s n f).reader = s.reader := rfl
@[simp] theorem setSlot_tag (s : State) (n : Nat) (f : CardSlot → CardSlot) : (State.setSlot s n f).tag = s.tag := rfl
@[simp] theorem setSlot_nvm (s : State) (n : Nat) (f : CardSlot → CardSlot) : (State.setSlot s n f).nvm = s.nvm := rfl
@[simp] theorem setSlot_regs (s : State) (n : Nat) (f : CardSlot → CardSlot) : (State.setSlot s n f).regs = s.regs := rfl
@[simp] theorem setSlot_mem (s : State) (n : Nat) (f : CardSlot → CardSlot) : (State.setSlot s n f).mem = s.mem := rfl
@[simp] theorem setSlot_freeCtr (s : State) (n : Nat) (f : CardSlot → CardSlot) : (State.setSlot s n f).freeCtr = s.freeCtr := rfl
@[simp] theorem setSlot_pending (s : State) (n : Nat) (f : CardSlot → CardSlot) : (State.setSlot s n f).pending = s.pending := rfl

@[simp] theorem setPkeUnit_power (s : State) (u : Nat) (j : Option PkeJob) : (State.setPkeUnit s u j).power = s.power := rfl
@[simp] theorem setPkeUnit_clock (s : State) (u : Nat) (j : Option PkeJob) : (State.setPkeUnit s u j).clock = s.clock := rfl
@[simp] theorem setPkeUnit_cores (s : State) (u : Nat) (j : Option PkeJob) : (State.setPkeUnit s u j).cores = s.cores := rfl
@[simp] theorem setPkeUnit_lines (s : State) (u : Nat) (j : Option PkeJob) : (State.setPkeUnit s u j).lines = s.lines := rfl
@[simp] theorem setPkeUnit_mlines (s : State) (u : Nat) (j : Option PkeJob) : (State.setPkeUnit s u j).mlines = s.mlines := rfl
@[simp] theorem setPkeUnit_fault (s : State) (u : Nat) (j : Option PkeJob) : (State.setPkeUnit s u j).fault = s.fault := rfl
@[simp] theorem setPkeUnit_tamper (s : State) (u : Nat) (j : Option PkeJob) : (State.setPkeUnit s u j).tamper = s.tamper := rfl
@[simp] theorem setPkeUnit_cqe (s : State) (u : Nat) (j : Option PkeJob) : (State.setPkeUnit s u j).cqe = s.cqe := rfl
@[simp] theorem setPkeUnit_port0 (s : State) (u : Nat) (j : Option PkeJob) : (State.setPkeUnit s u j).port0 = s.port0 := rfl
@[simp] theorem setPkeUnit_port1 (s : State) (u : Nat) (j : Option PkeJob) : (State.setPkeUnit s u j).port1 = s.port1 := rfl
@[simp] theorem setPkeUnit_mgmtp (s : State) (u : Nat) (j : Option PkeJob) : (State.setPkeUnit s u j).mgmtp = s.mgmtp := rfl
@[simp] theorem setPkeUnit_pair (s : State) (u : Nat) (j : Option PkeJob) : (State.setPkeUnit s u j).pair = s.pair := rfl
@[simp] theorem setPkeUnit_journal (s : State) (u : Nat) (j : Option PkeJob) : (State.setPkeUnit s u j).journal = s.journal := rfl
@[simp] theorem setPkeUnit_ktab (s : State) (u : Nat) (j : Option PkeJob) : (State.setPkeUnit s u j).ktab = s.ktab := rfl
@[simp] theorem setPkeUnit_lanes (s : State) (u : Nat) (j : Option PkeJob) : (State.setPkeUnit s u j).lanes = s.lanes := rfl
@[simp] theorem setPkeUnit_vault (s : State) (u : Nat) (j : Option PkeJob) : (State.setPkeUnit s u j).vault = s.vault := rfl
@[simp] theorem setPkeUnit_kiln (s : State) (u : Nat) (j : Option PkeJob) : (State.setPkeUnit s u j).kiln = s.kiln := rfl
@[simp] theorem setPkeUnit_rng (s : State) (u : Nat) (j : Option PkeJob) : (State.setPkeUnit s u j).rng = s.rng := rfl
@[simp] theorem setPkeUnit_dramc (s : State) (u : Nat) (j : Option PkeJob) : (State.setPkeUnit s u j).dramc = s.dramc := rfl
@[simp] theorem setPkeUnit_flash (s : State) (u : Nat) (j : Option PkeJob) : (State.setPkeUnit s u j).flash = s.flash := rfl
@[simp] theorem setPkeUnit_reader (s : State) (u : Nat) (j : Option PkeJob) : (State.setPkeUnit s u j).reader = s.reader := rfl
@[simp] theorem setPkeUnit_tag (s : State) (u : Nat) (j : Option PkeJob) : (State.setPkeUnit s u j).tag = s.tag := rfl
@[simp] theorem setPkeUnit_cards (s : State) (u : Nat) (j : Option PkeJob) : (State.setPkeUnit s u j).cards = s.cards := rfl
@[simp] theorem setPkeUnit_nvm (s : State) (u : Nat) (j : Option PkeJob) : (State.setPkeUnit s u j).nvm = s.nvm := rfl
@[simp] theorem setPkeUnit_regs (s : State) (u : Nat) (j : Option PkeJob) : (State.setPkeUnit s u j).regs = s.regs := rfl
@[simp] theorem setPkeUnit_mem (s : State) (u : Nat) (j : Option PkeJob) : (State.setPkeUnit s u j).mem = s.mem := rfl
@[simp] theorem setPkeUnit_freeCtr (s : State) (u : Nat) (j : Option PkeJob) : (State.setPkeUnit s u j).freeCtr = s.freeCtr := rfl
@[simp] theorem setPkeUnit_pending (s : State) (u : Nat) (j : Option PkeJob) : (State.setPkeUnit s u j).pending = s.pending := rfl

@[simp] theorem setLane_power (s : State) (n : Nat) (f : Lane → Lane) : (State.setLane s n f).power = s.power := rfl
@[simp] theorem setLane_clock (s : State) (n : Nat) (f : Lane → Lane) : (State.setLane s n f).clock = s.clock := rfl
@[simp] theorem setLane_cores (s : State) (n : Nat) (f : Lane → Lane) : (State.setLane s n f).cores = s.cores := rfl
@[simp] theorem setLane_lines (s : State) (n : Nat) (f : Lane → Lane) : (State.setLane s n f).lines = s.lines := rfl
@[simp] theorem setLane_mlines (s : State) (n : Nat) (f : Lane → Lane) : (State.setLane s n f).mlines = s.mlines := rfl
@[simp] theorem setLane_fault (s : State) (n : Nat) (f : Lane → Lane) : (State.setLane s n f).fault = s.fault := rfl
@[simp] theorem setLane_tamper (s : State) (n : Nat) (f : Lane → Lane) : (State.setLane s n f).tamper = s.tamper := rfl
@[simp] theorem setLane_cqe (s : State) (n : Nat) (f : Lane → Lane) : (State.setLane s n f).cqe = s.cqe := rfl
@[simp] theorem setLane_port0 (s : State) (n : Nat) (f : Lane → Lane) : (State.setLane s n f).port0 = s.port0 := rfl
@[simp] theorem setLane_port1 (s : State) (n : Nat) (f : Lane → Lane) : (State.setLane s n f).port1 = s.port1 := rfl
@[simp] theorem setLane_mgmtp (s : State) (n : Nat) (f : Lane → Lane) : (State.setLane s n f).mgmtp = s.mgmtp := rfl
@[simp] theorem setLane_pair (s : State) (n : Nat) (f : Lane → Lane) : (State.setLane s n f).pair = s.pair := rfl
@[simp] theorem setLane_journal (s : State) (n : Nat) (f : Lane → Lane) : (State.setLane s n f).journal = s.journal := rfl
@[simp] theorem setLane_ktab (s : State) (n : Nat) (f : Lane → Lane) : (State.setLane s n f).ktab = s.ktab := rfl
@[simp] theorem setLane_vault (s : State) (n : Nat) (f : Lane → Lane) : (State.setLane s n f).vault = s.vault := rfl
@[simp] theorem setLane_kiln (s : State) (n : Nat) (f : Lane → Lane) : (State.setLane s n f).kiln = s.kiln := rfl
@[simp] theorem setLane_pke (s : State) (n : Nat) (f : Lane → Lane) : (State.setLane s n f).pke = s.pke := rfl
@[simp] theorem setLane_rng (s : State) (n : Nat) (f : Lane → Lane) : (State.setLane s n f).rng = s.rng := rfl
@[simp] theorem setLane_dramc (s : State) (n : Nat) (f : Lane → Lane) : (State.setLane s n f).dramc = s.dramc := rfl
@[simp] theorem setLane_flash (s : State) (n : Nat) (f : Lane → Lane) : (State.setLane s n f).flash = s.flash := rfl
@[simp] theorem setLane_reader (s : State) (n : Nat) (f : Lane → Lane) : (State.setLane s n f).reader = s.reader := rfl
@[simp] theorem setLane_tag (s : State) (n : Nat) (f : Lane → Lane) : (State.setLane s n f).tag = s.tag := rfl
@[simp] theorem setLane_cards (s : State) (n : Nat) (f : Lane → Lane) : (State.setLane s n f).cards = s.cards := rfl
@[simp] theorem setLane_nvm (s : State) (n : Nat) (f : Lane → Lane) : (State.setLane s n f).nvm = s.nvm := rfl
@[simp] theorem setLane_regs (s : State) (n : Nat) (f : Lane → Lane) : (State.setLane s n f).regs = s.regs := rfl
@[simp] theorem setLane_mem (s : State) (n : Nat) (f : Lane → Lane) : (State.setLane s n f).mem = s.mem := rfl
@[simp] theorem setLane_freeCtr (s : State) (n : Nat) (f : Lane → Lane) : (State.setLane s n f).freeCtr = s.freeCtr := rfl
@[simp] theorem setLane_pending (s : State) (n : Nat) (f : Lane → Lane) : (State.setLane s n f).pending = s.pending := rfl

@[simp] theorem setStream_power (s : State) (h : Nat) (f : Stream → Stream) : (State.setStream s h f).power = s.power := rfl
@[simp] theorem setStream_clock (s : State) (h : Nat) (f : Stream → Stream) : (State.setStream s h f).clock = s.clock := rfl
@[simp] theorem setStream_cores (s : State) (h : Nat) (f : Stream → Stream) : (State.setStream s h f).cores = s.cores := rfl
@[simp] theorem setStream_lines (s : State) (h : Nat) (f : Stream → Stream) : (State.setStream s h f).lines = s.lines := rfl
@[simp] theorem setStream_mlines (s : State) (h : Nat) (f : Stream → Stream) : (State.setStream s h f).mlines = s.mlines := rfl
@[simp] theorem setStream_fault (s : State) (h : Nat) (f : Stream → Stream) : (State.setStream s h f).fault = s.fault := rfl
@[simp] theorem setStream_tamper (s : State) (h : Nat) (f : Stream → Stream) : (State.setStream s h f).tamper = s.tamper := rfl
@[simp] theorem setStream_cqe (s : State) (h : Nat) (f : Stream → Stream) : (State.setStream s h f).cqe = s.cqe := rfl
@[simp] theorem setStream_port0 (s : State) (h : Nat) (f : Stream → Stream) : (State.setStream s h f).port0 = s.port0 := rfl
@[simp] theorem setStream_port1 (s : State) (h : Nat) (f : Stream → Stream) : (State.setStream s h f).port1 = s.port1 := rfl
@[simp] theorem setStream_mgmtp (s : State) (h : Nat) (f : Stream → Stream) : (State.setStream s h f).mgmtp = s.mgmtp := rfl
@[simp] theorem setStream_pair (s : State) (h : Nat) (f : Stream → Stream) : (State.setStream s h f).pair = s.pair := rfl
@[simp] theorem setStream_journal (s : State) (h : Nat) (f : Stream → Stream) : (State.setStream s h f).journal = s.journal := rfl
@[simp] theorem setStream_ktab (s : State) (h : Nat) (f : Stream → Stream) : (State.setStream s h f).ktab = s.ktab := rfl
@[simp] theorem setStream_vault (s : State) (h : Nat) (f : Stream → Stream) : (State.setStream s h f).vault = s.vault := rfl
@[simp] theorem setStream_kiln (s : State) (h : Nat) (f : Stream → Stream) : (State.setStream s h f).kiln = s.kiln := rfl
@[simp] theorem setStream_pke (s : State) (h : Nat) (f : Stream → Stream) : (State.setStream s h f).pke = s.pke := rfl
@[simp] theorem setStream_rng (s : State) (h : Nat) (f : Stream → Stream) : (State.setStream s h f).rng = s.rng := rfl
@[simp] theorem setStream_dramc (s : State) (h : Nat) (f : Stream → Stream) : (State.setStream s h f).dramc = s.dramc := rfl
@[simp] theorem setStream_flash (s : State) (h : Nat) (f : Stream → Stream) : (State.setStream s h f).flash = s.flash := rfl
@[simp] theorem setStream_reader (s : State) (h : Nat) (f : Stream → Stream) : (State.setStream s h f).reader = s.reader := rfl
@[simp] theorem setStream_tag (s : State) (h : Nat) (f : Stream → Stream) : (State.setStream s h f).tag = s.tag := rfl
@[simp] theorem setStream_cards (s : State) (h : Nat) (f : Stream → Stream) : (State.setStream s h f).cards = s.cards := rfl
@[simp] theorem setStream_nvm (s : State) (h : Nat) (f : Stream → Stream) : (State.setStream s h f).nvm = s.nvm := rfl
@[simp] theorem setStream_regs (s : State) (h : Nat) (f : Stream → Stream) : (State.setStream s h f).regs = s.regs := rfl
@[simp] theorem setStream_mem (s : State) (h : Nat) (f : Stream → Stream) : (State.setStream s h f).mem = s.mem := rfl
@[simp] theorem setStream_freeCtr (s : State) (h : Nat) (f : Stream → Stream) : (State.setStream s h f).freeCtr = s.freeCtr := rfl
@[simp] theorem setStream_pending (s : State) (h : Nat) (f : Stream → Stream) : (State.setStream s h f).pending = s.pending := rfl

@[simp] theorem setMgmt_power (s : State) (f : MgmtPort → MgmtPort) : (State.setMgmt s f).power = s.power := rfl
@[simp] theorem setMgmt_clock (s : State) (f : MgmtPort → MgmtPort) : (State.setMgmt s f).clock = s.clock := rfl
@[simp] theorem setMgmt_cores (s : State) (f : MgmtPort → MgmtPort) : (State.setMgmt s f).cores = s.cores := rfl
@[simp] theorem setMgmt_lines (s : State) (f : MgmtPort → MgmtPort) : (State.setMgmt s f).lines = s.lines := rfl
@[simp] theorem setMgmt_mlines (s : State) (f : MgmtPort → MgmtPort) : (State.setMgmt s f).mlines = s.mlines := rfl
@[simp] theorem setMgmt_fault (s : State) (f : MgmtPort → MgmtPort) : (State.setMgmt s f).fault = s.fault := rfl
@[simp] theorem setMgmt_tamper (s : State) (f : MgmtPort → MgmtPort) : (State.setMgmt s f).tamper = s.tamper := rfl
@[simp] theorem setMgmt_cqe (s : State) (f : MgmtPort → MgmtPort) : (State.setMgmt s f).cqe = s.cqe := rfl
@[simp] theorem setMgmt_port0 (s : State) (f : MgmtPort → MgmtPort) : (State.setMgmt s f).port0 = s.port0 := rfl
@[simp] theorem setMgmt_port1 (s : State) (f : MgmtPort → MgmtPort) : (State.setMgmt s f).port1 = s.port1 := rfl
@[simp] theorem setMgmt_pair (s : State) (f : MgmtPort → MgmtPort) : (State.setMgmt s f).pair = s.pair := rfl
@[simp] theorem setMgmt_journal (s : State) (f : MgmtPort → MgmtPort) : (State.setMgmt s f).journal = s.journal := rfl
@[simp] theorem setMgmt_ktab (s : State) (f : MgmtPort → MgmtPort) : (State.setMgmt s f).ktab = s.ktab := rfl
@[simp] theorem setMgmt_lanes (s : State) (f : MgmtPort → MgmtPort) : (State.setMgmt s f).lanes = s.lanes := rfl
@[simp] theorem setMgmt_vault (s : State) (f : MgmtPort → MgmtPort) : (State.setMgmt s f).vault = s.vault := rfl
@[simp] theorem setMgmt_kiln (s : State) (f : MgmtPort → MgmtPort) : (State.setMgmt s f).kiln = s.kiln := rfl
@[simp] theorem setMgmt_pke (s : State) (f : MgmtPort → MgmtPort) : (State.setMgmt s f).pke = s.pke := rfl
@[simp] theorem setMgmt_rng (s : State) (f : MgmtPort → MgmtPort) : (State.setMgmt s f).rng = s.rng := rfl
@[simp] theorem setMgmt_dramc (s : State) (f : MgmtPort → MgmtPort) : (State.setMgmt s f).dramc = s.dramc := rfl
@[simp] theorem setMgmt_flash (s : State) (f : MgmtPort → MgmtPort) : (State.setMgmt s f).flash = s.flash := rfl
@[simp] theorem setMgmt_reader (s : State) (f : MgmtPort → MgmtPort) : (State.setMgmt s f).reader = s.reader := rfl
@[simp] theorem setMgmt_tag (s : State) (f : MgmtPort → MgmtPort) : (State.setMgmt s f).tag = s.tag := rfl
@[simp] theorem setMgmt_cards (s : State) (f : MgmtPort → MgmtPort) : (State.setMgmt s f).cards = s.cards := rfl
@[simp] theorem setMgmt_nvm (s : State) (f : MgmtPort → MgmtPort) : (State.setMgmt s f).nvm = s.nvm := rfl
@[simp] theorem setMgmt_regs (s : State) (f : MgmtPort → MgmtPort) : (State.setMgmt s f).regs = s.regs := rfl
@[simp] theorem setMgmt_mem (s : State) (f : MgmtPort → MgmtPort) : (State.setMgmt s f).mem = s.mem := rfl
@[simp] theorem setMgmt_freeCtr (s : State) (f : MgmtPort → MgmtPort) : (State.setMgmt s f).freeCtr = s.freeCtr := rfl
@[simp] theorem setMgmt_pending (s : State) (f : MgmtPort → MgmtPort) : (State.setMgmt s f).pending = s.pending := rfl

@[simp] theorem setCommand_power (s : State) (key : Nat) (f : Inflight → Inflight) : (State.setCommand s key f).power = s.power := rfl
@[simp] theorem setCommand_clock (s : State) (key : Nat) (f : Inflight → Inflight) : (State.setCommand s key f).clock = s.clock := rfl
@[simp] theorem setCommand_cores (s : State) (key : Nat) (f : Inflight → Inflight) : (State.setCommand s key f).cores = s.cores := rfl
@[simp] theorem setCommand_lines (s : State) (key : Nat) (f : Inflight → Inflight) : (State.setCommand s key f).lines = s.lines := rfl
@[simp] theorem setCommand_mlines (s : State) (key : Nat) (f : Inflight → Inflight) : (State.setCommand s key f).mlines = s.mlines := rfl
@[simp] theorem setCommand_fault (s : State) (key : Nat) (f : Inflight → Inflight) : (State.setCommand s key f).fault = s.fault := rfl
@[simp] theorem setCommand_tamper (s : State) (key : Nat) (f : Inflight → Inflight) : (State.setCommand s key f).tamper = s.tamper := rfl
@[simp] theorem setCommand_port0 (s : State) (key : Nat) (f : Inflight → Inflight) : (State.setCommand s key f).port0 = s.port0 := rfl
@[simp] theorem setCommand_port1 (s : State) (key : Nat) (f : Inflight → Inflight) : (State.setCommand s key f).port1 = s.port1 := rfl
@[simp] theorem setCommand_mgmtp (s : State) (key : Nat) (f : Inflight → Inflight) : (State.setCommand s key f).mgmtp = s.mgmtp := rfl
@[simp] theorem setCommand_pair (s : State) (key : Nat) (f : Inflight → Inflight) : (State.setCommand s key f).pair = s.pair := rfl
@[simp] theorem setCommand_journal (s : State) (key : Nat) (f : Inflight → Inflight) : (State.setCommand s key f).journal = s.journal := rfl
@[simp] theorem setCommand_ktab (s : State) (key : Nat) (f : Inflight → Inflight) : (State.setCommand s key f).ktab = s.ktab := rfl
@[simp] theorem setCommand_lanes (s : State) (key : Nat) (f : Inflight → Inflight) : (State.setCommand s key f).lanes = s.lanes := rfl
@[simp] theorem setCommand_vault (s : State) (key : Nat) (f : Inflight → Inflight) : (State.setCommand s key f).vault = s.vault := rfl
@[simp] theorem setCommand_kiln (s : State) (key : Nat) (f : Inflight → Inflight) : (State.setCommand s key f).kiln = s.kiln := rfl
@[simp] theorem setCommand_pke (s : State) (key : Nat) (f : Inflight → Inflight) : (State.setCommand s key f).pke = s.pke := rfl
@[simp] theorem setCommand_rng (s : State) (key : Nat) (f : Inflight → Inflight) : (State.setCommand s key f).rng = s.rng := rfl
@[simp] theorem setCommand_dramc (s : State) (key : Nat) (f : Inflight → Inflight) : (State.setCommand s key f).dramc = s.dramc := rfl
@[simp] theorem setCommand_flash (s : State) (key : Nat) (f : Inflight → Inflight) : (State.setCommand s key f).flash = s.flash := rfl
@[simp] theorem setCommand_reader (s : State) (key : Nat) (f : Inflight → Inflight) : (State.setCommand s key f).reader = s.reader := rfl
@[simp] theorem setCommand_tag (s : State) (key : Nat) (f : Inflight → Inflight) : (State.setCommand s key f).tag = s.tag := rfl
@[simp] theorem setCommand_cards (s : State) (key : Nat) (f : Inflight → Inflight) : (State.setCommand s key f).cards = s.cards := rfl
@[simp] theorem setCommand_nvm (s : State) (key : Nat) (f : Inflight → Inflight) : (State.setCommand s key f).nvm = s.nvm := rfl
@[simp] theorem setCommand_regs (s : State) (key : Nat) (f : Inflight → Inflight) : (State.setCommand s key f).regs = s.regs := rfl
@[simp] theorem setCommand_mem (s : State) (key : Nat) (f : Inflight → Inflight) : (State.setCommand s key f).mem = s.mem := rfl
@[simp] theorem setCommand_freeCtr (s : State) (key : Nat) (f : Inflight → Inflight) : (State.setCommand s key f).freeCtr = s.freeCtr := rfl
@[simp] theorem setCommand_pending (s : State) (key : Nat) (f : Inflight → Inflight) : (State.setCommand s key f).pending = s.pending := rfl

@[simp] theorem setQueue_power (s : State) (q : Nat) (f : Queue → Queue) : (State.setQueue s q f).power = s.power := rfl
@[simp] theorem setQueue_clock (s : State) (q : Nat) (f : Queue → Queue) : (State.setQueue s q f).clock = s.clock := rfl
@[simp] theorem setQueue_cores (s : State) (q : Nat) (f : Queue → Queue) : (State.setQueue s q f).cores = s.cores := rfl
@[simp] theorem setQueue_lines (s : State) (q : Nat) (f : Queue → Queue) : (State.setQueue s q f).lines = s.lines := rfl
@[simp] theorem setQueue_mlines (s : State) (q : Nat) (f : Queue → Queue) : (State.setQueue s q f).mlines = s.mlines := rfl
@[simp] theorem setQueue_fault (s : State) (q : Nat) (f : Queue → Queue) : (State.setQueue s q f).fault = s.fault := rfl
@[simp] theorem setQueue_tamper (s : State) (q : Nat) (f : Queue → Queue) : (State.setQueue s q f).tamper = s.tamper := rfl
@[simp] theorem setQueue_port0 (s : State) (q : Nat) (f : Queue → Queue) : (State.setQueue s q f).port0 = s.port0 := rfl
@[simp] theorem setQueue_port1 (s : State) (q : Nat) (f : Queue → Queue) : (State.setQueue s q f).port1 = s.port1 := rfl
@[simp] theorem setQueue_mgmtp (s : State) (q : Nat) (f : Queue → Queue) : (State.setQueue s q f).mgmtp = s.mgmtp := rfl
@[simp] theorem setQueue_pair (s : State) (q : Nat) (f : Queue → Queue) : (State.setQueue s q f).pair = s.pair := rfl
@[simp] theorem setQueue_journal (s : State) (q : Nat) (f : Queue → Queue) : (State.setQueue s q f).journal = s.journal := rfl
@[simp] theorem setQueue_ktab (s : State) (q : Nat) (f : Queue → Queue) : (State.setQueue s q f).ktab = s.ktab := rfl
@[simp] theorem setQueue_lanes (s : State) (q : Nat) (f : Queue → Queue) : (State.setQueue s q f).lanes = s.lanes := rfl
@[simp] theorem setQueue_vault (s : State) (q : Nat) (f : Queue → Queue) : (State.setQueue s q f).vault = s.vault := rfl
@[simp] theorem setQueue_kiln (s : State) (q : Nat) (f : Queue → Queue) : (State.setQueue s q f).kiln = s.kiln := rfl
@[simp] theorem setQueue_pke (s : State) (q : Nat) (f : Queue → Queue) : (State.setQueue s q f).pke = s.pke := rfl
@[simp] theorem setQueue_rng (s : State) (q : Nat) (f : Queue → Queue) : (State.setQueue s q f).rng = s.rng := rfl
@[simp] theorem setQueue_dramc (s : State) (q : Nat) (f : Queue → Queue) : (State.setQueue s q f).dramc = s.dramc := rfl
@[simp] theorem setQueue_flash (s : State) (q : Nat) (f : Queue → Queue) : (State.setQueue s q f).flash = s.flash := rfl
@[simp] theorem setQueue_reader (s : State) (q : Nat) (f : Queue → Queue) : (State.setQueue s q f).reader = s.reader := rfl
@[simp] theorem setQueue_tag (s : State) (q : Nat) (f : Queue → Queue) : (State.setQueue s q f).tag = s.tag := rfl
@[simp] theorem setQueue_cards (s : State) (q : Nat) (f : Queue → Queue) : (State.setQueue s q f).cards = s.cards := rfl
@[simp] theorem setQueue_nvm (s : State) (q : Nat) (f : Queue → Queue) : (State.setQueue s q f).nvm = s.nvm := rfl
@[simp] theorem setQueue_regs (s : State) (q : Nat) (f : Queue → Queue) : (State.setQueue s q f).regs = s.regs := rfl
@[simp] theorem setQueue_mem (s : State) (q : Nat) (f : Queue → Queue) : (State.setQueue s q f).mem = s.mem := rfl
@[simp] theorem setQueue_freeCtr (s : State) (q : Nat) (f : Queue → Queue) : (State.setQueue s q f).freeCtr = s.freeCtr := rfl
@[simp] theorem setQueue_pending (s : State) (q : Nat) (f : Queue → Queue) : (State.setQueue s q f).pending = s.pending := rfl

@[simp] theorem setPair_power (s : State) (f : Pair → Pair) : (State.setPair s f).power = s.power := rfl
@[simp] theorem setPair_clock (s : State) (f : Pair → Pair) : (State.setPair s f).clock = s.clock := rfl
@[simp] theorem setPair_cores (s : State) (f : Pair → Pair) : (State.setPair s f).cores = s.cores := rfl
@[simp] theorem setPair_lines (s : State) (f : Pair → Pair) : (State.setPair s f).lines = s.lines := rfl
@[simp] theorem setPair_mlines (s : State) (f : Pair → Pair) : (State.setPair s f).mlines = s.mlines := rfl
@[simp] theorem setPair_fault (s : State) (f : Pair → Pair) : (State.setPair s f).fault = s.fault := rfl
@[simp] theorem setPair_tamper (s : State) (f : Pair → Pair) : (State.setPair s f).tamper = s.tamper := rfl
@[simp] theorem setPair_cqe (s : State) (f : Pair → Pair) : (State.setPair s f).cqe = s.cqe := rfl
@[simp] theorem setPair_port0 (s : State) (f : Pair → Pair) : (State.setPair s f).port0 = s.port0 := rfl
@[simp] theorem setPair_port1 (s : State) (f : Pair → Pair) : (State.setPair s f).port1 = s.port1 := rfl
@[simp] theorem setPair_mgmtp (s : State) (f : Pair → Pair) : (State.setPair s f).mgmtp = s.mgmtp := rfl
@[simp] theorem setPair_journal (s : State) (f : Pair → Pair) : (State.setPair s f).journal = s.journal := rfl
@[simp] theorem setPair_ktab (s : State) (f : Pair → Pair) : (State.setPair s f).ktab = s.ktab := rfl
@[simp] theorem setPair_lanes (s : State) (f : Pair → Pair) : (State.setPair s f).lanes = s.lanes := rfl
@[simp] theorem setPair_vault (s : State) (f : Pair → Pair) : (State.setPair s f).vault = s.vault := rfl
@[simp] theorem setPair_kiln (s : State) (f : Pair → Pair) : (State.setPair s f).kiln = s.kiln := rfl
@[simp] theorem setPair_pke (s : State) (f : Pair → Pair) : (State.setPair s f).pke = s.pke := rfl
@[simp] theorem setPair_rng (s : State) (f : Pair → Pair) : (State.setPair s f).rng = s.rng := rfl
@[simp] theorem setPair_dramc (s : State) (f : Pair → Pair) : (State.setPair s f).dramc = s.dramc := rfl
@[simp] theorem setPair_flash (s : State) (f : Pair → Pair) : (State.setPair s f).flash = s.flash := rfl
@[simp] theorem setPair_reader (s : State) (f : Pair → Pair) : (State.setPair s f).reader = s.reader := rfl
@[simp] theorem setPair_tag (s : State) (f : Pair → Pair) : (State.setPair s f).tag = s.tag := rfl
@[simp] theorem setPair_cards (s : State) (f : Pair → Pair) : (State.setPair s f).cards = s.cards := rfl
@[simp] theorem setPair_nvm (s : State) (f : Pair → Pair) : (State.setPair s f).nvm = s.nvm := rfl
@[simp] theorem setPair_regs (s : State) (f : Pair → Pair) : (State.setPair s f).regs = s.regs := rfl
@[simp] theorem setPair_mem (s : State) (f : Pair → Pair) : (State.setPair s f).mem = s.mem := rfl
@[simp] theorem setPair_freeCtr (s : State) (f : Pair → Pair) : (State.setPair s f).freeCtr = s.freeCtr := rfl
@[simp] theorem setPair_pending (s : State) (f : Pair → Pair) : (State.setPair s f).pending = s.pending := rfl

@[simp] theorem setBank_power (s : State) (b : Nat) (f : FlashBank → FlashBank) : (State.setBank s b f).power = s.power := rfl
@[simp] theorem setBank_clock (s : State) (b : Nat) (f : FlashBank → FlashBank) : (State.setBank s b f).clock = s.clock := rfl
@[simp] theorem setBank_cores (s : State) (b : Nat) (f : FlashBank → FlashBank) : (State.setBank s b f).cores = s.cores := rfl
@[simp] theorem setBank_lines (s : State) (b : Nat) (f : FlashBank → FlashBank) : (State.setBank s b f).lines = s.lines := rfl
@[simp] theorem setBank_mlines (s : State) (b : Nat) (f : FlashBank → FlashBank) : (State.setBank s b f).mlines = s.mlines := rfl
@[simp] theorem setBank_fault (s : State) (b : Nat) (f : FlashBank → FlashBank) : (State.setBank s b f).fault = s.fault := rfl
@[simp] theorem setBank_tamper (s : State) (b : Nat) (f : FlashBank → FlashBank) : (State.setBank s b f).tamper = s.tamper := rfl
@[simp] theorem setBank_cqe (s : State) (b : Nat) (f : FlashBank → FlashBank) : (State.setBank s b f).cqe = s.cqe := rfl
@[simp] theorem setBank_port0 (s : State) (b : Nat) (f : FlashBank → FlashBank) : (State.setBank s b f).port0 = s.port0 := rfl
@[simp] theorem setBank_port1 (s : State) (b : Nat) (f : FlashBank → FlashBank) : (State.setBank s b f).port1 = s.port1 := rfl
@[simp] theorem setBank_mgmtp (s : State) (b : Nat) (f : FlashBank → FlashBank) : (State.setBank s b f).mgmtp = s.mgmtp := rfl
@[simp] theorem setBank_pair (s : State) (b : Nat) (f : FlashBank → FlashBank) : (State.setBank s b f).pair = s.pair := rfl
@[simp] theorem setBank_journal (s : State) (b : Nat) (f : FlashBank → FlashBank) : (State.setBank s b f).journal = s.journal := rfl
@[simp] theorem setBank_ktab (s : State) (b : Nat) (f : FlashBank → FlashBank) : (State.setBank s b f).ktab = s.ktab := rfl
@[simp] theorem setBank_lanes (s : State) (b : Nat) (f : FlashBank → FlashBank) : (State.setBank s b f).lanes = s.lanes := rfl
@[simp] theorem setBank_vault (s : State) (b : Nat) (f : FlashBank → FlashBank) : (State.setBank s b f).vault = s.vault := rfl
@[simp] theorem setBank_kiln (s : State) (b : Nat) (f : FlashBank → FlashBank) : (State.setBank s b f).kiln = s.kiln := rfl
@[simp] theorem setBank_pke (s : State) (b : Nat) (f : FlashBank → FlashBank) : (State.setBank s b f).pke = s.pke := rfl
@[simp] theorem setBank_rng (s : State) (b : Nat) (f : FlashBank → FlashBank) : (State.setBank s b f).rng = s.rng := rfl
@[simp] theorem setBank_dramc (s : State) (b : Nat) (f : FlashBank → FlashBank) : (State.setBank s b f).dramc = s.dramc := rfl
@[simp] theorem setBank_reader (s : State) (b : Nat) (f : FlashBank → FlashBank) : (State.setBank s b f).reader = s.reader := rfl
@[simp] theorem setBank_tag (s : State) (b : Nat) (f : FlashBank → FlashBank) : (State.setBank s b f).tag = s.tag := rfl
@[simp] theorem setBank_cards (s : State) (b : Nat) (f : FlashBank → FlashBank) : (State.setBank s b f).cards = s.cards := rfl
@[simp] theorem setBank_nvm (s : State) (b : Nat) (f : FlashBank → FlashBank) : (State.setBank s b f).nvm = s.nvm := rfl
@[simp] theorem setBank_regs (s : State) (b : Nat) (f : FlashBank → FlashBank) : (State.setBank s b f).regs = s.regs := rfl
@[simp] theorem setBank_mem (s : State) (b : Nat) (f : FlashBank → FlashBank) : (State.setBank s b f).mem = s.mem := rfl
@[simp] theorem setBank_freeCtr (s : State) (b : Nat) (f : FlashBank → FlashBank) : (State.setBank s b f).freeCtr = s.freeCtr := rfl
@[simp] theorem setBank_pending (s : State) (b : Nat) (f : FlashBank → FlashBank) : (State.setBank s b f).pending = s.pending := rfl

@[simp] theorem hold_power (h : Held) (s : State) : (hold h s).power = s.power := rfl
@[simp] theorem hold_clock (h : Held) (s : State) : (hold h s).clock = s.clock := rfl
@[simp] theorem hold_cores (h : Held) (s : State) : (hold h s).cores = s.cores := rfl
@[simp] theorem hold_lines (h : Held) (s : State) : (hold h s).lines = s.lines := rfl
@[simp] theorem hold_mlines (h : Held) (s : State) : (hold h s).mlines = s.mlines := rfl
@[simp] theorem hold_fault (h : Held) (s : State) : (hold h s).fault = s.fault := rfl
@[simp] theorem hold_tamper (h : Held) (s : State) : (hold h s).tamper = s.tamper := rfl
@[simp] theorem hold_port0 (h : Held) (s : State) : (hold h s).port0 = s.port0 := rfl
@[simp] theorem hold_port1 (h : Held) (s : State) : (hold h s).port1 = s.port1 := rfl
@[simp] theorem hold_mgmtp (h : Held) (s : State) : (hold h s).mgmtp = s.mgmtp := rfl
@[simp] theorem hold_pair (h : Held) (s : State) : (hold h s).pair = s.pair := rfl
@[simp] theorem hold_journal (h : Held) (s : State) : (hold h s).journal = s.journal := rfl
@[simp] theorem hold_ktab (h : Held) (s : State) : (hold h s).ktab = s.ktab := rfl
@[simp] theorem hold_lanes (h : Held) (s : State) : (hold h s).lanes = s.lanes := rfl
@[simp] theorem hold_vault (h : Held) (s : State) : (hold h s).vault = s.vault := rfl
@[simp] theorem hold_kiln (h : Held) (s : State) : (hold h s).kiln = s.kiln := rfl
@[simp] theorem hold_pke (h : Held) (s : State) : (hold h s).pke = s.pke := rfl
@[simp] theorem hold_rng (h : Held) (s : State) : (hold h s).rng = s.rng := rfl
@[simp] theorem hold_dramc (h : Held) (s : State) : (hold h s).dramc = s.dramc := rfl
@[simp] theorem hold_flash (h : Held) (s : State) : (hold h s).flash = s.flash := rfl
@[simp] theorem hold_reader (h : Held) (s : State) : (hold h s).reader = s.reader := rfl
@[simp] theorem hold_tag (h : Held) (s : State) : (hold h s).tag = s.tag := rfl
@[simp] theorem hold_cards (h : Held) (s : State) : (hold h s).cards = s.cards := rfl
@[simp] theorem hold_nvm (h : Held) (s : State) : (hold h s).nvm = s.nvm := rfl
@[simp] theorem hold_regs (h : Held) (s : State) : (hold h s).regs = s.regs := rfl
@[simp] theorem hold_mem (h : Held) (s : State) : (hold h s).mem = s.mem := rfl
@[simp] theorem hold_freeCtr (h : Held) (s : State) : (hold h s).freeCtr = s.freeCtr := rfl
@[simp] theorem hold_pending (h : Held) (s : State) : (hold h s).pending = s.pending := rfl

@[simp] theorem setCore_power (s : State) (c : CoreId) (k : Core) : (State.setCore s c k).power = s.power := by cases c <;> rfl
@[simp] theorem setCore_clock (s : State) (c : CoreId) (k : Core) : (State.setCore s c k).clock = s.clock := by cases c <;> rfl
@[simp] theorem setCore_lines (s : State) (c : CoreId) (k : Core) : (State.setCore s c k).lines = s.lines := by cases c <;> rfl
@[simp] theorem setCore_mlines (s : State) (c : CoreId) (k : Core) : (State.setCore s c k).mlines = s.mlines := by cases c <;> rfl
@[simp] theorem setCore_fault (s : State) (c : CoreId) (k : Core) : (State.setCore s c k).fault = s.fault := by cases c <;> rfl
@[simp] theorem setCore_tamper (s : State) (c : CoreId) (k : Core) : (State.setCore s c k).tamper = s.tamper := by cases c <;> rfl
@[simp] theorem setCore_cqe (s : State) (c : CoreId) (k : Core) : (State.setCore s c k).cqe = s.cqe := by cases c <;> rfl
@[simp] theorem setCore_port0 (s : State) (c : CoreId) (k : Core) : (State.setCore s c k).port0 = s.port0 := by cases c <;> rfl
@[simp] theorem setCore_port1 (s : State) (c : CoreId) (k : Core) : (State.setCore s c k).port1 = s.port1 := by cases c <;> rfl
@[simp] theorem setCore_mgmtp (s : State) (c : CoreId) (k : Core) : (State.setCore s c k).mgmtp = s.mgmtp := by cases c <;> rfl
@[simp] theorem setCore_pair (s : State) (c : CoreId) (k : Core) : (State.setCore s c k).pair = s.pair := by cases c <;> rfl
@[simp] theorem setCore_journal (s : State) (c : CoreId) (k : Core) : (State.setCore s c k).journal = s.journal := by cases c <;> rfl
@[simp] theorem setCore_ktab (s : State) (c : CoreId) (k : Core) : (State.setCore s c k).ktab = s.ktab := by cases c <;> rfl
@[simp] theorem setCore_lanes (s : State) (c : CoreId) (k : Core) : (State.setCore s c k).lanes = s.lanes := by cases c <;> rfl
@[simp] theorem setCore_vault (s : State) (c : CoreId) (k : Core) : (State.setCore s c k).vault = s.vault := by cases c <;> rfl
@[simp] theorem setCore_kiln (s : State) (c : CoreId) (k : Core) : (State.setCore s c k).kiln = s.kiln := by cases c <;> rfl
@[simp] theorem setCore_pke (s : State) (c : CoreId) (k : Core) : (State.setCore s c k).pke = s.pke := by cases c <;> rfl
@[simp] theorem setCore_rng (s : State) (c : CoreId) (k : Core) : (State.setCore s c k).rng = s.rng := by cases c <;> rfl
@[simp] theorem setCore_dramc (s : State) (c : CoreId) (k : Core) : (State.setCore s c k).dramc = s.dramc := by cases c <;> rfl
@[simp] theorem setCore_flash (s : State) (c : CoreId) (k : Core) : (State.setCore s c k).flash = s.flash := by cases c <;> rfl
@[simp] theorem setCore_reader (s : State) (c : CoreId) (k : Core) : (State.setCore s c k).reader = s.reader := by cases c <;> rfl
@[simp] theorem setCore_tag (s : State) (c : CoreId) (k : Core) : (State.setCore s c k).tag = s.tag := by cases c <;> rfl
@[simp] theorem setCore_cards (s : State) (c : CoreId) (k : Core) : (State.setCore s c k).cards = s.cards := by cases c <;> rfl
@[simp] theorem setCore_nvm (s : State) (c : CoreId) (k : Core) : (State.setCore s c k).nvm = s.nvm := by cases c <;> rfl
@[simp] theorem setCore_regs (s : State) (c : CoreId) (k : Core) : (State.setCore s c k).regs = s.regs := by cases c <;> rfl
@[simp] theorem setCore_mem (s : State) (c : CoreId) (k : Core) : (State.setCore s c k).mem = s.mem := by cases c <;> rfl
@[simp] theorem setCore_freeCtr (s : State) (c : CoreId) (k : Core) : (State.setCore s c k).freeCtr = s.freeCtr := by cases c <;> rfl
@[simp] theorem setCore_pending (s : State) (c : CoreId) (k : Core) : (State.setCore s c k).pending = s.pending := by cases c <;> rfl

@[simp] theorem setPort_power (s : State) (p : Nat) (h : HostPort) : (State.setPort s p h).power = s.power := by unfold State.setPort; split <;> rfl
@[simp] theorem setPort_clock (s : State) (p : Nat) (h : HostPort) : (State.setPort s p h).clock = s.clock := by unfold State.setPort; split <;> rfl
@[simp] theorem setPort_cores (s : State) (p : Nat) (h : HostPort) : (State.setPort s p h).cores = s.cores := by unfold State.setPort; split <;> rfl
@[simp] theorem setPort_lines (s : State) (p : Nat) (h : HostPort) : (State.setPort s p h).lines = s.lines := by unfold State.setPort; split <;> rfl
@[simp] theorem setPort_mlines (s : State) (p : Nat) (h : HostPort) : (State.setPort s p h).mlines = s.mlines := by unfold State.setPort; split <;> rfl
@[simp] theorem setPort_fault (s : State) (p : Nat) (h : HostPort) : (State.setPort s p h).fault = s.fault := by unfold State.setPort; split <;> rfl
@[simp] theorem setPort_tamper (s : State) (p : Nat) (h : HostPort) : (State.setPort s p h).tamper = s.tamper := by unfold State.setPort; split <;> rfl
@[simp] theorem setPort_cqe (s : State) (p : Nat) (h : HostPort) : (State.setPort s p h).cqe = s.cqe := by unfold State.setPort; split <;> rfl
@[simp] theorem setPort_mgmtp (s : State) (p : Nat) (h : HostPort) : (State.setPort s p h).mgmtp = s.mgmtp := by unfold State.setPort; split <;> rfl
@[simp] theorem setPort_pair (s : State) (p : Nat) (h : HostPort) : (State.setPort s p h).pair = s.pair := by unfold State.setPort; split <;> rfl
@[simp] theorem setPort_journal (s : State) (p : Nat) (h : HostPort) : (State.setPort s p h).journal = s.journal := by unfold State.setPort; split <;> rfl
@[simp] theorem setPort_ktab (s : State) (p : Nat) (h : HostPort) : (State.setPort s p h).ktab = s.ktab := by unfold State.setPort; split <;> rfl
@[simp] theorem setPort_lanes (s : State) (p : Nat) (h : HostPort) : (State.setPort s p h).lanes = s.lanes := by unfold State.setPort; split <;> rfl
@[simp] theorem setPort_vault (s : State) (p : Nat) (h : HostPort) : (State.setPort s p h).vault = s.vault := by unfold State.setPort; split <;> rfl
@[simp] theorem setPort_kiln (s : State) (p : Nat) (h : HostPort) : (State.setPort s p h).kiln = s.kiln := by unfold State.setPort; split <;> rfl
@[simp] theorem setPort_pke (s : State) (p : Nat) (h : HostPort) : (State.setPort s p h).pke = s.pke := by unfold State.setPort; split <;> rfl
@[simp] theorem setPort_rng (s : State) (p : Nat) (h : HostPort) : (State.setPort s p h).rng = s.rng := by unfold State.setPort; split <;> rfl
@[simp] theorem setPort_dramc (s : State) (p : Nat) (h : HostPort) : (State.setPort s p h).dramc = s.dramc := by unfold State.setPort; split <;> rfl
@[simp] theorem setPort_flash (s : State) (p : Nat) (h : HostPort) : (State.setPort s p h).flash = s.flash := by unfold State.setPort; split <;> rfl
@[simp] theorem setPort_reader (s : State) (p : Nat) (h : HostPort) : (State.setPort s p h).reader = s.reader := by unfold State.setPort; split <;> rfl
@[simp] theorem setPort_tag (s : State) (p : Nat) (h : HostPort) : (State.setPort s p h).tag = s.tag := by unfold State.setPort; split <;> rfl
@[simp] theorem setPort_cards (s : State) (p : Nat) (h : HostPort) : (State.setPort s p h).cards = s.cards := by unfold State.setPort; split <;> rfl
@[simp] theorem setPort_nvm (s : State) (p : Nat) (h : HostPort) : (State.setPort s p h).nvm = s.nvm := by unfold State.setPort; split <;> rfl
@[simp] theorem setPort_regs (s : State) (p : Nat) (h : HostPort) : (State.setPort s p h).regs = s.regs := by unfold State.setPort; split <;> rfl
@[simp] theorem setPort_mem (s : State) (p : Nat) (h : HostPort) : (State.setPort s p h).mem = s.mem := by unfold State.setPort; split <;> rfl
@[simp] theorem setPort_freeCtr (s : State) (p : Nat) (h : HostPort) : (State.setPort s p h).freeCtr = s.freeCtr := by unfold State.setPort; split <;> rfl
@[simp] theorem setPort_pending (s : State) (p : Nat) (h : HostPort) : (State.setPort s p h).pending = s.pending := by unfold State.setPort; split <;> rfl

@[simp] theorem wr_power (s : State) (c : CoreId) (f : RegF) (v : Word) : (State.wr s c f v).power = s.power := by cases c <;> rfl
@[simp] theorem wr_clock (s : State) (c : CoreId) (f : RegF) (v : Word) : (State.wr s c f v).clock = s.clock := by cases c <;> rfl
@[simp] theorem wr_lines (s : State) (c : CoreId) (f : RegF) (v : Word) : (State.wr s c f v).lines = s.lines := by cases c <;> rfl
@[simp] theorem wr_mlines (s : State) (c : CoreId) (f : RegF) (v : Word) : (State.wr s c f v).mlines = s.mlines := by cases c <;> rfl
@[simp] theorem wr_fault (s : State) (c : CoreId) (f : RegF) (v : Word) : (State.wr s c f v).fault = s.fault := by cases c <;> rfl
@[simp] theorem wr_tamper (s : State) (c : CoreId) (f : RegF) (v : Word) : (State.wr s c f v).tamper = s.tamper := by cases c <;> rfl
@[simp] theorem wr_cqe (s : State) (c : CoreId) (f : RegF) (v : Word) : (State.wr s c f v).cqe = s.cqe := by cases c <;> rfl
@[simp] theorem wr_port0 (s : State) (c : CoreId) (f : RegF) (v : Word) : (State.wr s c f v).port0 = s.port0 := by cases c <;> rfl
@[simp] theorem wr_port1 (s : State) (c : CoreId) (f : RegF) (v : Word) : (State.wr s c f v).port1 = s.port1 := by cases c <;> rfl
@[simp] theorem wr_mgmtp (s : State) (c : CoreId) (f : RegF) (v : Word) : (State.wr s c f v).mgmtp = s.mgmtp := by cases c <;> rfl
@[simp] theorem wr_pair (s : State) (c : CoreId) (f : RegF) (v : Word) : (State.wr s c f v).pair = s.pair := by cases c <;> rfl
@[simp] theorem wr_journal (s : State) (c : CoreId) (f : RegF) (v : Word) : (State.wr s c f v).journal = s.journal := by cases c <;> rfl
@[simp] theorem wr_ktab (s : State) (c : CoreId) (f : RegF) (v : Word) : (State.wr s c f v).ktab = s.ktab := by cases c <;> rfl
@[simp] theorem wr_lanes (s : State) (c : CoreId) (f : RegF) (v : Word) : (State.wr s c f v).lanes = s.lanes := by cases c <;> rfl
@[simp] theorem wr_vault (s : State) (c : CoreId) (f : RegF) (v : Word) : (State.wr s c f v).vault = s.vault := by cases c <;> rfl
@[simp] theorem wr_kiln (s : State) (c : CoreId) (f : RegF) (v : Word) : (State.wr s c f v).kiln = s.kiln := by cases c <;> rfl
@[simp] theorem wr_pke (s : State) (c : CoreId) (f : RegF) (v : Word) : (State.wr s c f v).pke = s.pke := by cases c <;> rfl
@[simp] theorem wr_rng (s : State) (c : CoreId) (f : RegF) (v : Word) : (State.wr s c f v).rng = s.rng := by cases c <;> rfl
@[simp] theorem wr_dramc (s : State) (c : CoreId) (f : RegF) (v : Word) : (State.wr s c f v).dramc = s.dramc := by cases c <;> rfl
@[simp] theorem wr_flash (s : State) (c : CoreId) (f : RegF) (v : Word) : (State.wr s c f v).flash = s.flash := by cases c <;> rfl
@[simp] theorem wr_reader (s : State) (c : CoreId) (f : RegF) (v : Word) : (State.wr s c f v).reader = s.reader := by cases c <;> rfl
@[simp] theorem wr_tag (s : State) (c : CoreId) (f : RegF) (v : Word) : (State.wr s c f v).tag = s.tag := by cases c <;> rfl
@[simp] theorem wr_cards (s : State) (c : CoreId) (f : RegF) (v : Word) : (State.wr s c f v).cards = s.cards := by cases c <;> rfl
@[simp] theorem wr_nvm (s : State) (c : CoreId) (f : RegF) (v : Word) : (State.wr s c f v).nvm = s.nvm := by cases c <;> rfl
@[simp] theorem wr_regs (s : State) (c : CoreId) (f : RegF) (v : Word) : (State.wr s c f v).regs = s.regs := by cases c <;> rfl
@[simp] theorem wr_mem (s : State) (c : CoreId) (f : RegF) (v : Word) : (State.wr s c f v).mem = s.mem := by cases c <;> rfl
@[simp] theorem wr_freeCtr (s : State) (c : CoreId) (f : RegF) (v : Word) : (State.wr s c f v).freeCtr = s.freeCtr := by cases c <;> rfl
@[simp] theorem wr_pending (s : State) (c : CoreId) (f : RegF) (v : Word) : (State.wr s c f v).pending = s.pending := by cases c <;> rfl

@[simp] theorem advance_power (s : State) (c : CoreId) : (State.advance s c).power = s.power := by cases c <;> rfl
@[simp] theorem advance_clock (s : State) (c : CoreId) : (State.advance s c).clock = s.clock := by cases c <;> rfl
@[simp] theorem advance_lines (s : State) (c : CoreId) : (State.advance s c).lines = s.lines := by cases c <;> rfl
@[simp] theorem advance_mlines (s : State) (c : CoreId) : (State.advance s c).mlines = s.mlines := by cases c <;> rfl
@[simp] theorem advance_fault (s : State) (c : CoreId) : (State.advance s c).fault = s.fault := by cases c <;> rfl
@[simp] theorem advance_tamper (s : State) (c : CoreId) : (State.advance s c).tamper = s.tamper := by cases c <;> rfl
@[simp] theorem advance_cqe (s : State) (c : CoreId) : (State.advance s c).cqe = s.cqe := by cases c <;> rfl
@[simp] theorem advance_port0 (s : State) (c : CoreId) : (State.advance s c).port0 = s.port0 := by cases c <;> rfl
@[simp] theorem advance_port1 (s : State) (c : CoreId) : (State.advance s c).port1 = s.port1 := by cases c <;> rfl
@[simp] theorem advance_mgmtp (s : State) (c : CoreId) : (State.advance s c).mgmtp = s.mgmtp := by cases c <;> rfl
@[simp] theorem advance_pair (s : State) (c : CoreId) : (State.advance s c).pair = s.pair := by cases c <;> rfl
@[simp] theorem advance_journal (s : State) (c : CoreId) : (State.advance s c).journal = s.journal := by cases c <;> rfl
@[simp] theorem advance_ktab (s : State) (c : CoreId) : (State.advance s c).ktab = s.ktab := by cases c <;> rfl
@[simp] theorem advance_lanes (s : State) (c : CoreId) : (State.advance s c).lanes = s.lanes := by cases c <;> rfl
@[simp] theorem advance_vault (s : State) (c : CoreId) : (State.advance s c).vault = s.vault := by cases c <;> rfl
@[simp] theorem advance_kiln (s : State) (c : CoreId) : (State.advance s c).kiln = s.kiln := by cases c <;> rfl
@[simp] theorem advance_pke (s : State) (c : CoreId) : (State.advance s c).pke = s.pke := by cases c <;> rfl
@[simp] theorem advance_rng (s : State) (c : CoreId) : (State.advance s c).rng = s.rng := by cases c <;> rfl
@[simp] theorem advance_dramc (s : State) (c : CoreId) : (State.advance s c).dramc = s.dramc := by cases c <;> rfl
@[simp] theorem advance_flash (s : State) (c : CoreId) : (State.advance s c).flash = s.flash := by cases c <;> rfl
@[simp] theorem advance_reader (s : State) (c : CoreId) : (State.advance s c).reader = s.reader := by cases c <;> rfl
@[simp] theorem advance_tag (s : State) (c : CoreId) : (State.advance s c).tag = s.tag := by cases c <;> rfl
@[simp] theorem advance_cards (s : State) (c : CoreId) : (State.advance s c).cards = s.cards := by cases c <;> rfl
@[simp] theorem advance_nvm (s : State) (c : CoreId) : (State.advance s c).nvm = s.nvm := by cases c <;> rfl
@[simp] theorem advance_regs (s : State) (c : CoreId) : (State.advance s c).regs = s.regs := by cases c <;> rfl
@[simp] theorem advance_mem (s : State) (c : CoreId) : (State.advance s c).mem = s.mem := by cases c <;> rfl
@[simp] theorem advance_freeCtr (s : State) (c : CoreId) : (State.advance s c).freeCtr = s.freeCtr := by cases c <;> rfl
@[simp] theorem advance_pending (s : State) (c : CoreId) : (State.advance s c).pending = s.pending := by cases c <;> rfl

@[simp] theorem jump_power (s : State) (c : CoreId) (t : Word) : (State.jump s c t).power = s.power := by cases c <;> rfl
@[simp] theorem jump_clock (s : State) (c : CoreId) (t : Word) : (State.jump s c t).clock = s.clock := by cases c <;> rfl
@[simp] theorem jump_lines (s : State) (c : CoreId) (t : Word) : (State.jump s c t).lines = s.lines := by cases c <;> rfl
@[simp] theorem jump_mlines (s : State) (c : CoreId) (t : Word) : (State.jump s c t).mlines = s.mlines := by cases c <;> rfl
@[simp] theorem jump_fault (s : State) (c : CoreId) (t : Word) : (State.jump s c t).fault = s.fault := by cases c <;> rfl
@[simp] theorem jump_tamper (s : State) (c : CoreId) (t : Word) : (State.jump s c t).tamper = s.tamper := by cases c <;> rfl
@[simp] theorem jump_cqe (s : State) (c : CoreId) (t : Word) : (State.jump s c t).cqe = s.cqe := by cases c <;> rfl
@[simp] theorem jump_port0 (s : State) (c : CoreId) (t : Word) : (State.jump s c t).port0 = s.port0 := by cases c <;> rfl
@[simp] theorem jump_port1 (s : State) (c : CoreId) (t : Word) : (State.jump s c t).port1 = s.port1 := by cases c <;> rfl
@[simp] theorem jump_mgmtp (s : State) (c : CoreId) (t : Word) : (State.jump s c t).mgmtp = s.mgmtp := by cases c <;> rfl
@[simp] theorem jump_pair (s : State) (c : CoreId) (t : Word) : (State.jump s c t).pair = s.pair := by cases c <;> rfl
@[simp] theorem jump_journal (s : State) (c : CoreId) (t : Word) : (State.jump s c t).journal = s.journal := by cases c <;> rfl
@[simp] theorem jump_ktab (s : State) (c : CoreId) (t : Word) : (State.jump s c t).ktab = s.ktab := by cases c <;> rfl
@[simp] theorem jump_lanes (s : State) (c : CoreId) (t : Word) : (State.jump s c t).lanes = s.lanes := by cases c <;> rfl
@[simp] theorem jump_vault (s : State) (c : CoreId) (t : Word) : (State.jump s c t).vault = s.vault := by cases c <;> rfl
@[simp] theorem jump_kiln (s : State) (c : CoreId) (t : Word) : (State.jump s c t).kiln = s.kiln := by cases c <;> rfl
@[simp] theorem jump_pke (s : State) (c : CoreId) (t : Word) : (State.jump s c t).pke = s.pke := by cases c <;> rfl
@[simp] theorem jump_rng (s : State) (c : CoreId) (t : Word) : (State.jump s c t).rng = s.rng := by cases c <;> rfl
@[simp] theorem jump_dramc (s : State) (c : CoreId) (t : Word) : (State.jump s c t).dramc = s.dramc := by cases c <;> rfl
@[simp] theorem jump_flash (s : State) (c : CoreId) (t : Word) : (State.jump s c t).flash = s.flash := by cases c <;> rfl
@[simp] theorem jump_reader (s : State) (c : CoreId) (t : Word) : (State.jump s c t).reader = s.reader := by cases c <;> rfl
@[simp] theorem jump_tag (s : State) (c : CoreId) (t : Word) : (State.jump s c t).tag = s.tag := by cases c <;> rfl
@[simp] theorem jump_cards (s : State) (c : CoreId) (t : Word) : (State.jump s c t).cards = s.cards := by cases c <;> rfl
@[simp] theorem jump_nvm (s : State) (c : CoreId) (t : Word) : (State.jump s c t).nvm = s.nvm := by cases c <;> rfl
@[simp] theorem jump_regs (s : State) (c : CoreId) (t : Word) : (State.jump s c t).regs = s.regs := by cases c <;> rfl
@[simp] theorem jump_mem (s : State) (c : CoreId) (t : Word) : (State.jump s c t).mem = s.mem := by cases c <;> rfl
@[simp] theorem jump_freeCtr (s : State) (c : CoreId) (t : Word) : (State.jump s c t).freeCtr = s.freeCtr := by cases c <;> rfl
@[simp] theorem jump_pending (s : State) (c : CoreId) (t : Word) : (State.jump s c t).pending = s.pending := by cases c <;> rfl

@[simp] theorem raiseAt_power (s : State) (n : Nat) (u : FUnit) (y : Word) (a : DWord) : (State.raiseAt s n u y a).power = s.power := rfl
@[simp] theorem raiseAt_clock (s : State) (n : Nat) (u : FUnit) (y : Word) (a : DWord) : (State.raiseAt s n u y a).clock = s.clock := rfl
@[simp] theorem raiseAt_cores (s : State) (n : Nat) (u : FUnit) (y : Word) (a : DWord) : (State.raiseAt s n u y a).cores = s.cores := rfl
@[simp] theorem raiseAt_lines (s : State) (n : Nat) (u : FUnit) (y : Word) (a : DWord) : (State.raiseAt s n u y a).lines = s.lines := rfl
@[simp] theorem raiseAt_mlines (s : State) (n : Nat) (u : FUnit) (y : Word) (a : DWord) : (State.raiseAt s n u y a).mlines = s.mlines := rfl
@[simp] theorem raiseAt_tamper (s : State) (n : Nat) (u : FUnit) (y : Word) (a : DWord) : (State.raiseAt s n u y a).tamper = s.tamper := rfl
@[simp] theorem raiseAt_cqe (s : State) (n : Nat) (u : FUnit) (y : Word) (a : DWord) : (State.raiseAt s n u y a).cqe = s.cqe := rfl
@[simp] theorem raiseAt_port0 (s : State) (n : Nat) (u : FUnit) (y : Word) (a : DWord) : (State.raiseAt s n u y a).port0 = s.port0 := rfl
@[simp] theorem raiseAt_port1 (s : State) (n : Nat) (u : FUnit) (y : Word) (a : DWord) : (State.raiseAt s n u y a).port1 = s.port1 := rfl
@[simp] theorem raiseAt_mgmtp (s : State) (n : Nat) (u : FUnit) (y : Word) (a : DWord) : (State.raiseAt s n u y a).mgmtp = s.mgmtp := rfl
@[simp] theorem raiseAt_pair (s : State) (n : Nat) (u : FUnit) (y : Word) (a : DWord) : (State.raiseAt s n u y a).pair = s.pair := rfl
@[simp] theorem raiseAt_journal (s : State) (n : Nat) (u : FUnit) (y : Word) (a : DWord) : (State.raiseAt s n u y a).journal = s.journal := rfl
@[simp] theorem raiseAt_ktab (s : State) (n : Nat) (u : FUnit) (y : Word) (a : DWord) : (State.raiseAt s n u y a).ktab = s.ktab := rfl
@[simp] theorem raiseAt_lanes (s : State) (n : Nat) (u : FUnit) (y : Word) (a : DWord) : (State.raiseAt s n u y a).lanes = s.lanes := rfl
@[simp] theorem raiseAt_vault (s : State) (n : Nat) (u : FUnit) (y : Word) (a : DWord) : (State.raiseAt s n u y a).vault = s.vault := rfl
@[simp] theorem raiseAt_kiln (s : State) (n : Nat) (u : FUnit) (y : Word) (a : DWord) : (State.raiseAt s n u y a).kiln = s.kiln := rfl
@[simp] theorem raiseAt_pke (s : State) (n : Nat) (u : FUnit) (y : Word) (a : DWord) : (State.raiseAt s n u y a).pke = s.pke := rfl
@[simp] theorem raiseAt_rng (s : State) (n : Nat) (u : FUnit) (y : Word) (a : DWord) : (State.raiseAt s n u y a).rng = s.rng := rfl
@[simp] theorem raiseAt_dramc (s : State) (n : Nat) (u : FUnit) (y : Word) (a : DWord) : (State.raiseAt s n u y a).dramc = s.dramc := rfl
@[simp] theorem raiseAt_flash (s : State) (n : Nat) (u : FUnit) (y : Word) (a : DWord) : (State.raiseAt s n u y a).flash = s.flash := rfl
@[simp] theorem raiseAt_reader (s : State) (n : Nat) (u : FUnit) (y : Word) (a : DWord) : (State.raiseAt s n u y a).reader = s.reader := rfl
@[simp] theorem raiseAt_tag (s : State) (n : Nat) (u : FUnit) (y : Word) (a : DWord) : (State.raiseAt s n u y a).tag = s.tag := rfl
@[simp] theorem raiseAt_cards (s : State) (n : Nat) (u : FUnit) (y : Word) (a : DWord) : (State.raiseAt s n u y a).cards = s.cards := rfl
@[simp] theorem raiseAt_nvm (s : State) (n : Nat) (u : FUnit) (y : Word) (a : DWord) : (State.raiseAt s n u y a).nvm = s.nvm := rfl
@[simp] theorem raiseAt_regs (s : State) (n : Nat) (u : FUnit) (y : Word) (a : DWord) : (State.raiseAt s n u y a).regs = s.regs := rfl
@[simp] theorem raiseAt_mem (s : State) (n : Nat) (u : FUnit) (y : Word) (a : DWord) : (State.raiseAt s n u y a).mem = s.mem := rfl
@[simp] theorem raiseAt_freeCtr (s : State) (n : Nat) (u : FUnit) (y : Word) (a : DWord) : (State.raiseAt s n u y a).freeCtr = s.freeCtr := rfl
@[simp] theorem raiseAt_pending (s : State) (n : Nat) (u : FUnit) (y : Word) (a : DWord) : (State.raiseAt s n u y a).pending = s.pending := rfl

@[simp] theorem raise_power (s : State) (n : Nat) : (State.raise s n).power = s.power := rfl
@[simp] theorem raise_clock (s : State) (n : Nat) : (State.raise s n).clock = s.clock := rfl
@[simp] theorem raise_cores (s : State) (n : Nat) : (State.raise s n).cores = s.cores := rfl
@[simp] theorem raise_lines (s : State) (n : Nat) : (State.raise s n).lines = s.lines := rfl
@[simp] theorem raise_mlines (s : State) (n : Nat) : (State.raise s n).mlines = s.mlines := rfl
@[simp] theorem raise_tamper (s : State) (n : Nat) : (State.raise s n).tamper = s.tamper := rfl
@[simp] theorem raise_cqe (s : State) (n : Nat) : (State.raise s n).cqe = s.cqe := rfl
@[simp] theorem raise_port0 (s : State) (n : Nat) : (State.raise s n).port0 = s.port0 := rfl
@[simp] theorem raise_port1 (s : State) (n : Nat) : (State.raise s n).port1 = s.port1 := rfl
@[simp] theorem raise_mgmtp (s : State) (n : Nat) : (State.raise s n).mgmtp = s.mgmtp := rfl
@[simp] theorem raise_pair (s : State) (n : Nat) : (State.raise s n).pair = s.pair := rfl
@[simp] theorem raise_journal (s : State) (n : Nat) : (State.raise s n).journal = s.journal := rfl
@[simp] theorem raise_ktab (s : State) (n : Nat) : (State.raise s n).ktab = s.ktab := rfl
@[simp] theorem raise_lanes (s : State) (n : Nat) : (State.raise s n).lanes = s.lanes := rfl
@[simp] theorem raise_vault (s : State) (n : Nat) : (State.raise s n).vault = s.vault := rfl
@[simp] theorem raise_kiln (s : State) (n : Nat) : (State.raise s n).kiln = s.kiln := rfl
@[simp] theorem raise_pke (s : State) (n : Nat) : (State.raise s n).pke = s.pke := rfl
@[simp] theorem raise_rng (s : State) (n : Nat) : (State.raise s n).rng = s.rng := rfl
@[simp] theorem raise_dramc (s : State) (n : Nat) : (State.raise s n).dramc = s.dramc := rfl
@[simp] theorem raise_flash (s : State) (n : Nat) : (State.raise s n).flash = s.flash := rfl
@[simp] theorem raise_reader (s : State) (n : Nat) : (State.raise s n).reader = s.reader := rfl
@[simp] theorem raise_tag (s : State) (n : Nat) : (State.raise s n).tag = s.tag := rfl
@[simp] theorem raise_cards (s : State) (n : Nat) : (State.raise s n).cards = s.cards := rfl
@[simp] theorem raise_nvm (s : State) (n : Nat) : (State.raise s n).nvm = s.nvm := rfl
@[simp] theorem raise_regs (s : State) (n : Nat) : (State.raise s n).regs = s.regs := rfl
@[simp] theorem raise_mem (s : State) (n : Nat) : (State.raise s n).mem = s.mem := rfl
@[simp] theorem raise_freeCtr (s : State) (n : Nat) : (State.raise s n).freeCtr = s.freeCtr := rfl
@[simp] theorem raise_pending (s : State) (n : Nat) : (State.raise s n).pending = s.pending := rfl

/-- The core replaced. -/
@[simp] theorem setCore_core (s : State) (c : CoreId) (k : Core) : (s.setCore c k).core c = k := by cases c <;> rfl
/-- The other cores. -/
theorem setCore_core_ne {s : State} {c d : CoreId} {k : Core} (h : d ≠ c) : (s.setCore c k).core d = s.core d := by
  cases c <;> cases d <;> first | rfl | exact absurd rfl h
/-- Two replacements of one core. -/
@[simp] theorem setCore_setCore (s : State) (c : CoreId) (k k' : Core) : (s.setCore c k).setCore c k' = s.setCore c k' := by cases c <;> rfl
/-- The core after a register write. -/
@[simp] theorem wr_core (s : State) (c : CoreId) (f : RegF) (v : Word) : (s.wr c f v).core c = (s.core c).write c f v := by cases c <;> rfl
/-- The core after the pc moves on. -/
@[simp] theorem advance_core (s : State) (c : CoreId) : (s.advance c).core c = { s.core c with pc := (s.core c).pc + 4 } := by cases c <;> rfl
/-- The core after a jump. -/
@[simp] theorem jump_core (s : State) (c : CoreId) (t : Word) : (s.jump c t).core c = { s.core c with pc := t } := by cases c <;> rfl
/-- The free-value counter after a draw. -/
@[simp] theorem drew_freeCtr (s : State) : s.drew.freeCtr = s.freeCtr + 1 := rfl
/-- Reports wait for the collector in the order in which they come. -/
@[simp] theorem report_inputs (s : State) (rs : List FaultIn) : (s.report rs).fault.inputs = s.fault.inputs ++ [rs] := rfl
/-- A register read back. -/
theorem assocGet_assocSet {α : Type} (k : Nat) (v : α) (l : List (Nat × α)) (j : Nat) :
    assocGet j (assocSet k v l) = if j = k then some v else assocGet j l := by
  induction l with
  | nil => by_cases h : j = k <;> simp [assocSet, assocGet, h, Ne.symm]
  | cons p t ih =>
    obtain ⟨a, b⟩ := p
    simp only [assocSet]
    by_cases h1 : k < a
    · by_cases h : j = k
      · simp [assocGet, h1, h]
      · simp [assocGet, h1, h, Ne.symm h]
    · by_cases h2 : a = k
      · by_cases h : j = k
        · simp [assocGet, h2, h]
        · simp [assocGet, h2, h, Ne.symm h]
      · by_cases h : j = k
        · subst h; simpa [assocGet, h1, h2] using ih
        · simp [assocGet, h1, h2, h, ih]
/-- A stored register reads as stored; every other keeps its value. -/
@[simp] theorem reg_setReg (s : State) (a : Nat) (v rst : Word) (b : Nat) : (s.setReg a v).reg b rst = if b = a then v else s.reg b rst := by
  simp only [State.reg, State.setReg, assocGet_assocSet]; split <;> rfl

end Sys2Proof.Laws
end

