-- ==== Sys2Proof/Laws/Cpu.lean ====
section
/-! SUPPORT. When an instruction's own work is all that happens, and what of a core each shared operation leaves alone. -/

namespace Sys2Proof.Laws

open Sys2Proof.Machine Sys2Proof.Safety

/-- With nothing falling due, a command's effect is the whole step. -/
theorem finish_of_quiet {s : State} (h : Quiet s) : finish s = s := by
  unfold Quiet at h; unfold finish; rw [h]; rfl

/-- A core that issues carries the instruction out. -/
theorem issue_of_issues {c : CoreId} {cy : Nat} {body : State → Issue} {s : State} (h : Issues c s) :
    issue c cy false none false body s = deliver c cy (body s) := by
  obtain ⟨h1, h2, h3, h4, h5, h7⟩ := h
  simp [issue, issueNow, h1, h2, h3, h4, h5, h7]

/-- A trap point with no arithmetic flag set carries the instruction out. -/
theorem issue_of_clean {c : CoreId} {cy : Nat} {body : State → Issue} {s : State} (h : IssuesClean c s) :
    issue c cy true none false body s = deliver c cy (body s) := by
  obtain ⟨⟨h1, h2, h3, h4, h5, h7⟩, h6⟩ := h
  simp [issue, issueNow, h1, h2, h3, h4, h5, h7, h6]

/-- In ring 0 a privileged instruction is carried out. -/
theorem issue_of_ring0 {c : CoreId} {cy : Nat} {body : State → Issue} {s : State} (h : IssuesRing0 c s) :
    issue c cy false none true body s = deliver c cy (body s) := by
  obtain ⟨⟨h1, h2, h3, h4, h5, h7⟩, h6⟩ := h
  rw [h6] at h4
  simp [issue, issueNow, h1, h2, h3, h4, h5, h7, h6]

/-- Outside ring 0 it is refused. -/
theorem issue_of_user {c : CoreId} {cy : Nat} {body : State → Issue} {s : State} (h : Issues c s) (hr : (s.core c).ring ≠ 0) :
    issue c cy false none true body s = addCycles c (cy + 10) (raiseException c 2 0 0 s) := by
  obtain ⟨h1, h2, h3, h4, h5, h7⟩ := h
  simp [issue, issueNow, deliver, h1, h2, h3, h4, h5, h7, hr]

/-- An illegal word is refused precisely. -/
theorem issue_of_illegal {c : CoreId} {cy d : Nat} {tp priv : Bool} {body : State → Issue} {s : State} (h : Issues c s) :
    issue c cy tp (some d) priv body s = addCycles c (cy + 10) (raiseException c 1 d 0 s) := by
  obtain ⟨h1, h2, h3, h4, h5, h7⟩ := h
  simp [issue, issueNow, deliver, h1, h2, h3, h4, h5, h7]

end Sys2Proof.Laws
end

