-- ==== Sys2Proof/Laws/Tidy.lean ====
section
/-! SUPPORT. Memory operations keep the canonical form, and what holds of every operation of the model: it leaves the queue of waiting commands alone and keeps memory in canonical form. `f_tidy` says so of `f`, in this file and in the files Tidy… beside it. -/

namespace Sys2Proof.Laws

open Sys2Proof.Machine

/-- The commands waiting are `l`, and memory is in canonical form. -/
def Tidy (l : List Instr) (s : State) : Prop := s.pending = l ∧ Memory.wf s.mem = true
theorem Tidy.foldl {α : Type} {l : List Instr} {f : State → α → State} (xs : List α) {s : State} (hf : ∀ s x, Tidy l s → Tidy l (f s x)) (h : Tidy l s) : Tidy l (xs.foldl f s) := by
  induction xs generalizing s with
  | nil => exact h
  | cons x xs ih => exact ih (hf s x h)

theorem memWf_cons {a : Nat} {v : Byte} {t : List Host.Cell} :
    Memory.wf ((a, v) :: t) = true ↔ v ≠ memDefault a ∧ (∀ c ∈ t.head?, a < c.1) ∧ Memory.wf t = true := by
  cases t with
  | nil => simp [Memory.wf]
  | cons c t => obtain ⟨b, w⟩ := c; simp [Memory.wf, and_assoc]

theorem memPut_head {k : Nat} {v : Byte} {t : List Host.Cell} {a : Nat} (hk : a < k) (h : ∀ c ∈ t.head?, a < c.1) :
    ∀ c ∈ (memPut k v t).head?, a < c.1 := by
  cases t with
  | nil => simpa [memPut] using hk
  | cons c t => 
    obtain ⟨b, w⟩ := c
    simp only [memPut]
    split
    · simpa using hk
    · split
      · simpa using hk
      · simpa using h

theorem memPut_wf {k : Nat} {v : Byte} (hv : v ≠ memDefault k) : ∀ {m : List Host.Cell}, Memory.wf m = true → Memory.wf (memPut k v m) = true
  | [], _ => by simp [memPut, Memory.wf, hv]
  | (a, w) :: t, h => by
    have ⟨h1, h2, h3⟩ := memWf_cons.1 h
    simp only [memPut]
    split
    · subst_vars; exact memWf_cons.2 ⟨hv, h2, h3⟩
    · split
      · exact memWf_cons.2 ⟨hv, by simpa, h⟩
      · exact memWf_cons.2 ⟨h1, memPut_head (by omega) h2, memPut_wf hv h3⟩

theorem memWf_tail_head {a : Nat} {w : Byte} {t : List Host.Cell} (h : Memory.wf ((a, w) :: t) = true) {x : Nat} (hx : x < a) : ∀ c ∈ t.head?, x < c.1 := by
  have ⟨_, h2, _⟩ := memWf_cons.1 h
  intro c hc; have := h2 c hc; omega

theorem memDrop_wf {k : Nat} : ∀ {m : List Host.Cell}, Memory.wf m = true → Memory.wf (memDrop k m) = true
  | [], _ => by simp [memDrop, Memory.wf]
  | (a, w) :: t, h => by
    have ⟨h1, h2, h3⟩ := memWf_cons.1 h
    simp only [memDrop]
    split
    · exact h3
    · split
      · exact h
      · refine memWf_cons.2 ⟨h1, ?_, memDrop_wf h3⟩
        cases t with
        | nil => simp [memDrop]
        | cons c t =>
          obtain ⟨b, u⟩ := c
          have hb : a < b := by simpa using h2
          simp only [memDrop]
          split
          · exact memWf_tail_head h3 hb
          · split <;> simpa using hb

theorem memSet_wf {m : List Host.Cell} {k : Nat} {v : Byte} (h : Memory.wf m = true) : Memory.wf (memSet m k v) = true := by
  unfold memSet; split
  · exact memDrop_wf h
  · exact memPut_wf (by assumption) h

theorem memSetBytes_wf {m : List Host.Cell} {k : Nat} {bs : List Byte} (h : Memory.wf m = true) : Memory.wf (memSetBytes m k bs) = true := by
  induction bs generalizing m k with
  | nil => exact h
  | cons b bs ih => exact ih (memSet_wf h)

theorem memWf_iff {m : List Host.Cell} : Memory.wf m = true ↔ m.Pairwise (fun a b => a.1 < b.1) ∧ ∀ c ∈ m, c.2 ≠ memDefault c.1 := by
  induction m with
  | nil => simp [Memory.wf]
  | cons c t ih =>
    obtain ⟨a, v⟩ := c
    rw [memWf_cons, ih, List.pairwise_cons]
    constructor
    · rintro ⟨h1, h2, h3, h4⟩
      refine ⟨⟨?_, h3⟩, by simpa using ⟨h1, by simpa using h4⟩⟩
      intro c hc
      cases t with
      | nil => simp at hc
      | cons d t =>
        have hd : a < d.1 := h2 d (by simp)
        rcases List.mem_cons.1 hc with rfl | hc
        · exact hd
        · exact Nat.lt_trans hd ((List.pairwise_cons.1 h3).1 c hc)
    · rintro ⟨⟨h1, h2⟩, h3⟩
      refine ⟨h3 (a, v) (by simp), ?_, h2, fun c hc => h3 c (by simp [hc])⟩
      intro c hc
      cases t with
      | nil => simp at hc
      | cons d t => simp at hc; subst hc; exact h1 _ (by simp)

theorem memClear_wf {m : List Host.Cell} {lo hi : Nat} (h : Memory.wf m = true) : Memory.wf (memClear m lo hi) = true := by
  have ⟨h1, h2⟩ := memWf_iff.1 h
  exact memWf_iff.2 ⟨h1.filter _, fun c hc => h2 c (List.mem_filter.1 hc).1⟩

theorem State_writeBytes_tidy {Lp : List Instr} {s : State} {space addr : Nat} {bs : List Byte} (hk : Tidy Lp s) : Tidy Lp (s.writeBytes space addr bs) :=
  ⟨hk.1, memSetBytes_wf hk.2⟩
theorem State_clearMem_tidy {Lp : List Instr} {s : State} {space lo hi : Nat} (hk : Tidy Lp s) : Tidy Lp (s.clearMem space lo hi) :=
  ⟨hk.1, memClear_wf hk.2⟩

theorem Tidy.ite {l : List Instr} {c : Prop} [Decidable c] {a b : State} (ha : c → Tidy l a) (hb : ¬ c → Tidy l b) : Tidy l (if c then a else b) := by
  split
  · exact ha (by assumption)
  · exact hb (by assumption)

/-- An update of the other fields changes neither. -/
theorem tidy_mk {Lp : List Instr} {a : State} {power clock cores lines mlines fault tamper cqe port0 port1 mgmtp pair journal ktab lanes vault kiln pke rng dramc flash reader tag cards nvm regs freeCtr} : Tidy Lp ⟨power, clock, cores, lines, mlines, fault, tamper, cqe, port0, port1, mgmtp, pair, journal, ktab, lanes, vault, kiln, pke, rng, dramc, flash, reader, tag, cards, nvm, regs, a.mem, freeCtr, a.pending⟩ = Tidy Lp a := rfl

end Sys2Proof.Laws
end

