-- ==== Sys2Proof/Laws/TidyJournal.lean ====
section
/-! SUPPORT. The queue and the memory form under the shared operations, the memory controller, the key table, the journal, the streams. -/

namespace Sys2Proof.Laws

open Sys2Proof.Machine

theorem State_writeNat_tidy {Lp : List Instr} {s : State} {space addr n v : Nat} (hk : Tidy Lp s) : Tidy Lp (State.writeNat s space addr n v) := by
  unfold State.writeNat
  try dsimp only
  repeat' (first | with_reducible assumption | with_reducible refine State_writeBytes_tidy ?_ | with_reducible refine Tidy.foldl _ (fun _ _ _ => ?_) ?_ | with_reducible refine Tidy.ite (fun _ => ?_) (fun _ => ?_) | simp only [tidy_mk] | split | dsimp only)

theorem State_drew_tidy {Lp : List Instr} {s : State} (hk : Tidy Lp s) : Tidy Lp (State.drew s) := by
  unfold State.drew
  try dsimp only
  repeat' (first | with_reducible assumption | with_reducible refine Tidy.foldl _ (fun _ _ _ => ?_) ?_ | with_reducible refine Tidy.ite (fun _ => ?_) (fun _ => ?_) | simp only [tidy_mk] | split | dsimp only)

theorem State_setReg_tidy {Lp : List Instr} {s : State} {addr : Nat} {v : Word} (hk : Tidy Lp s) : Tidy Lp (State.setReg s addr v) := by
  unfold State.setReg
  try dsimp only
  repeat' (first | with_reducible assumption | with_reducible refine Tidy.foldl _ (fun _ _ _ => ?_) ?_ | with_reducible refine Tidy.ite (fun _ => ?_) (fun _ => ?_) | simp only [tidy_mk] | split | dsimp only)

theorem State_setCore_tidy {Lp : List Instr} {s : State} {c : CoreId} {k : Core} (hk : Tidy Lp s) : Tidy Lp (State.setCore s c k) := by
  unfold State.setCore
  try dsimp only
  repeat' (first | with_reducible assumption | with_reducible refine Tidy.foldl _ (fun _ _ _ => ?_) ?_ | with_reducible refine Tidy.ite (fun _ => ?_) (fun _ => ?_) | simp only [tidy_mk] | split | dsimp only)

theorem State_dropResv_tidy {Lp : List Instr} {s : State} {writer : Option CoreId} {space addr n : Nat} (hk : Tidy Lp s) : Tidy Lp (State.dropResv s writer space addr n) := by
  unfold State.dropResv
  try dsimp only
  repeat' (first | with_reducible assumption | with_reducible refine Tidy.foldl _ (fun _ _ _ => ?_) ?_ | with_reducible refine Tidy.ite (fun _ => ?_) (fun _ => ?_) | simp only [tidy_mk] | split | dsimp only)

theorem State_dmaBytes_tidy {Lp : List Instr} {s : State} {space addr : Nat} {bs : List Byte} (hk : Tidy Lp s) : Tidy Lp (State.dmaBytes s space addr bs) := by
  unfold State.dmaBytes
  try dsimp only
  repeat' (first | with_reducible assumption | with_reducible refine State_dropResv_tidy ?_ | with_reducible refine State_writeBytes_tidy ?_ | with_reducible refine Tidy.foldl _ (fun _ _ _ => ?_) ?_ | with_reducible refine Tidy.ite (fun _ => ?_) (fun _ => ?_) | simp only [tidy_mk] | split | dsimp only)

theorem State_line_tidy {Lp : List Instr} {s : State} {l : Nat} (hk : Tidy Lp s) : Tidy Lp (State.line s l) := by
  unfold State.line
  try dsimp only
  repeat' (first | with_reducible assumption | with_reducible refine Tidy.foldl _ (fun _ _ _ => ?_) ?_ | with_reducible refine Tidy.ite (fun _ => ?_) (fun _ => ?_) | simp only [tidy_mk] | split | dsimp only)

theorem State_unline_tidy {Lp : List Instr} {s : State} {l : Nat} (hk : Tidy Lp s) : Tidy Lp (State.unline s l) := by
  unfold State.unline
  try dsimp only
  repeat' (first | with_reducible assumption | with_reducible refine Tidy.foldl _ (fun _ _ _ => ?_) ?_ | with_reducible refine Tidy.ite (fun _ => ?_) (fun _ => ?_) | simp only [tidy_mk] | split | dsimp only)

theorem State_mline_tidy {Lp : List Instr} {s : State} {l : Nat} (hk : Tidy Lp s) : Tidy Lp (State.mline s l) := by
  unfold State.mline
  try dsimp only
  repeat' (first | with_reducible assumption | with_reducible refine Tidy.foldl _ (fun _ _ _ => ?_) ?_ | with_reducible refine Tidy.ite (fun _ => ?_) (fun _ => ?_) | simp only [tidy_mk] | split | dsimp only)

theorem State_report_tidy {Lp : List Instr} {s : State} {rs : List FaultIn} (hk : Tidy Lp s) : Tidy Lp (State.report s rs) := by
  unfold State.report
  try dsimp only
  repeat' (first | with_reducible assumption | with_reducible refine Tidy.foldl _ (fun _ _ _ => ?_) ?_ | with_reducible refine Tidy.ite (fun _ => ?_) (fun _ => ?_) | simp only [tidy_mk] | split | dsimp only)

theorem State_raiseAt_tidy {Lp : List Instr} {s : State} {source : Nat} {unit : FUnit} {syndrome : Word} {address : DWord} (hk : Tidy Lp s) : Tidy Lp (State.raiseAt s source unit syndrome address) := by
  unfold State.raiseAt
  try dsimp only
  repeat' (first | with_reducible assumption | with_reducible refine State_report_tidy ?_ | with_reducible refine Tidy.foldl _ (fun _ _ _ => ?_) ?_ | with_reducible refine Tidy.ite (fun _ => ?_) (fun _ => ?_) | simp only [tidy_mk] | split | dsimp only)

theorem State_raise_tidy {Lp : List Instr} {s : State} {source : Nat} (hk : Tidy Lp s) : Tidy Lp (State.raise s source) := by
  unfold State.raise
  try dsimp only
  repeat' (first | with_reducible assumption | with_reducible refine State_raiseAt_tidy ?_ | with_reducible refine Tidy.foldl _ (fun _ _ _ => ?_) ?_ | with_reducible refine Tidy.ite (fun _ => ?_) (fun _ => ?_) | simp only [tidy_mk] | split | dsimp only)

theorem State_addFence_tidy {Lp : List Instr} {s : State} {u : FUnit} (hk : Tidy Lp s) : Tidy Lp (State.addFence s u) := by
  unfold State.addFence
  try dsimp only
  repeat' (first | with_reducible assumption | with_reducible refine Tidy.foldl _ (fun _ _ _ => ?_) ?_ | with_reducible refine Tidy.ite (fun _ => ?_) (fun _ => ?_) | simp only [tidy_mk] | split | dsimp only)

theorem setStatusBits_tidy {Lp : List Instr} {base : Nat} {bits : Word} {s : State} (hk : Tidy Lp s) : Tidy Lp (setStatusBits base bits s) := by
  unfold setStatusBits
  try dsimp only
  repeat' (first | with_reducible assumption | with_reducible refine State_setReg_tidy ?_ | with_reducible refine Tidy.foldl _ (fun _ _ _ => ?_) ?_ | with_reducible refine Tidy.ite (fun _ => ?_) (fun _ => ?_) | simp only [tidy_mk] | split | dsimp only)

theorem noteRate_tidy {Lp : List Instr} {die : Nat} {s : State} (hk : Tidy Lp s) : Tidy Lp (noteRate die s) := by
  unfold noteRate
  try dsimp only
  repeat' (first | with_reducible assumption | with_reducible refine State_raise_tidy ?_ | with_reducible refine Tidy.foldl _ (fun _ _ _ => ?_) ?_ | with_reducible refine Tidy.ite (fun _ => ?_) (fun _ => ?_) | simp only [tidy_mk] | split | dsimp only)

theorem logEcc_tidy {Lp : List Instr} {sram : Bool} {unit addr syn : Nat} {unc hard : Bool} {found : Nat} {s : State} (hk : Tidy Lp s) : Tidy Lp (logEcc sram unit addr syn unc hard found s) := by
  unfold logEcc
  try dsimp only
  repeat' (first | with_reducible assumption | with_reducible refine State_line_tidy ?_ | with_reducible refine State_raise_tidy ?_ | with_reducible refine noteRate_tidy ?_ | with_reducible refine Tidy.foldl _ (fun _ _ _ => ?_) ?_ | with_reducible refine Tidy.ite (fun _ => ?_) (fun _ => ?_) | simp only [tidy_mk] | split | dsimp only)

theorem logNext_tidy {Lp : List Instr} {v : Word} {s : State} (hk : Tidy Lp s) : Tidy Lp (logNext v s) := by
  unfold logNext
  try dsimp only
  repeat' (first | with_reducible assumption | with_reducible refine State_unline_tidy ?_ | with_reducible refine setStatusBits_tidy ?_ | with_reducible refine Tidy.foldl _ (fun _ _ _ => ?_) ?_ | with_reducible refine Tidy.ite (fun _ => ?_) (fun _ => ?_) | simp only [tidy_mk] | split | dsimp only)

theorem memSet_fold_wf {f : Host.Cell → Nat} {l : List Host.Cell} {m : List Host.Cell} (h : Memory.wf m = true) :
    Memory.wf (l.foldl (fun m c => memSet m (f c) c.2) m) = true := by
  induction l generalizing m with
  | nil => exact h
  | cons c l ih => exact ih (memSet_wf h)
theorem copyPage_tidy {Lp : List Instr} {src dst : Nat} {s : State} (hk : Tidy Lp s) : Tidy Lp (copyPage src dst s) :=
  ⟨hk.1, memSet_fold_wf (State_clearMem_tidy hk (Lp := Lp)).2⟩

theorem logFree_tidy {Lp : List Instr} {sram : Bool} {unit addr found : Nat} {s : State} (hk : Tidy Lp s) : Tidy Lp (logFree sram unit addr found s) := by
  unfold logFree
  try dsimp only
  repeat' (first | with_reducible assumption | with_reducible refine State_drew_tidy ?_ | with_reducible refine logEcc_tidy ?_ | with_reducible refine Tidy.foldl _ (fun _ _ _ => ?_) ?_ | with_reducible refine Tidy.ite (fun _ => ?_) (fun _ => ?_) | simp only [tidy_mk] | split | dsimp only)

theorem retire_tidy {Lp : List Instr} {slot bad : Nat} {s : State} (hk : Tidy Lp s) : Tidy Lp (retire slot bad s) := by
  unfold retire
  try dsimp only
  repeat' (first | with_reducible assumption | with_reducible refine State_raiseAt_tidy ?_ | with_reducible refine State_raise_tidy ?_ | with_reducible refine Tidy.foldl _ (fun _ _ _ => ?_) ?_ | with_reducible refine Tidy.ite (fun _ => ?_) (fun _ => ?_) | simp only [tidy_mk] | split | dsimp only)

theorem rmapDone_tidy {Lp : List Instr} {s : State} (hk : Tidy Lp s) : Tidy Lp (rmapDone s) := by
  unfold rmapDone
  try dsimp only
  repeat' (first | with_reducible assumption | with_reducible refine copyPage_tidy ?_ | with_reducible refine logFree_tidy ?_ | with_reducible refine Tidy.foldl _ (fun _ _ _ => ?_) ?_ | with_reducible refine Tidy.ite (fun _ => ?_) (fun _ => ?_) | simp only [tidy_mk] | split | dsimp only)

theorem repairRow_tidy {Lp : List Instr} {array row : Nat} {s : State} (hk : Tidy Lp s) : Tidy Lp (repairRow array row s) := by
  unfold repairRow
  try dsimp only
  repeat' (first | with_reducible assumption | with_reducible refine State_raise_tidy ?_ | with_reducible refine Tidy.foldl _ (fun _ _ _ => ?_) ?_ | with_reducible refine Tidy.ite (fun _ => ?_) (fun _ => ?_) | simp only [tidy_mk] | split | dsimp only)

theorem spareDone_tidy {Lp : List Instr} {s : State} (hk : Tidy Lp s) : Tidy Lp (spareDone s) := by
  unfold spareDone
  try dsimp only
  repeat' (first | with_reducible assumption | with_reducible refine Tidy.foldl _ (fun _ _ _ => ?_) ?_ | with_reducible refine Tidy.ite (fun _ => ?_) (fun _ => ?_) | simp only [tidy_mk] | split | dsimp only)

theorem reapplyRepairs_tidy {Lp : List Instr} {s : State} (hk : Tidy Lp s) : Tidy Lp (reapplyRepairs s) := by
  unfold reapplyRepairs
  try dsimp only
  repeat' (first | with_reducible assumption | with_reducible refine Tidy.foldl _ (fun _ _ _ => ?_) ?_ | with_reducible refine Tidy.ite (fun _ => ?_) (fun _ => ?_) | simp only [tidy_mk] | split | dsimp only)

theorem demandUe_tidy {Lp : List Instr} {sram : Bool} {unit addr found : Nat} {s : State} (hk : Tidy Lp s) : Tidy Lp (demandUe sram unit addr found s) := by
  unfold demandUe
  try dsimp only
  repeat' (first | with_reducible assumption | with_reducible refine State_raiseAt_tidy ?_ | with_reducible refine logFree_tidy ?_ | with_reducible refine Tidy.foldl _ (fun _ _ _ => ?_) ?_ | with_reducible refine Tidy.ite (fun _ => ?_) (fun _ => ?_) | simp only [tidy_mk] | split | dsimp only)

theorem markBad_tidy {Lp : List Instr} {sram : Bool} {unit addr : Nat} {s : State} (hk : Tidy Lp s) : Tidy Lp (markBad sram unit addr s) := by
  unfold markBad
  try dsimp only
  repeat' (first | with_reducible assumption | with_reducible refine Tidy.foldl _ (fun _ _ _ => ?_) ?_ | with_reducible refine Tidy.ite (fun _ => ?_) (fun _ => ?_) | simp only [tidy_mk] | split | dsimp only)

theorem mendWords_tidy {Lp : List Instr} {a n : Nat} {s : State} (hk : Tidy Lp s) : Tidy Lp (mendWords a n s) := by
  unfold mendWords
  try dsimp only
  repeat' (first | with_reducible assumption | with_reducible refine Tidy.foldl _ (fun _ _ _ => ?_) ?_ | with_reducible refine Tidy.ite (fun _ => ?_) (fun _ => ?_) | simp only [tidy_mk] | split | dsimp only)

theorem scrub_tidy {Lp : List Instr} {sram : Bool} {die syn : Nat} {find : EccFind} {s : State} (hk : Tidy Lp s) : Tidy Lp (scrub sram die syn find s) := by
  unfold scrub
  try dsimp only
  repeat' (first | with_reducible assumption | with_reducible refine State_raiseAt_tidy ?_ | with_reducible refine logEcc_tidy ?_ | with_reducible refine markBad_tidy ?_ | with_reducible refine Tidy.foldl _ (fun _ _ _ => ?_) ?_ | with_reducible refine Tidy.ite (fun _ => ?_) (fun _ => ?_) | simp only [tidy_mk] | split | dsimp only)

theorem lapOverrun_tidy {Lp : List Instr} {sram : Bool} {s : State} (hk : Tidy Lp s) : Tidy Lp (lapOverrun sram s) := by
  unfold lapOverrun
  try dsimp only
  repeat' (first | with_reducible assumption | with_reducible refine State_raise_tidy ?_ | with_reducible refine Tidy.foldl _ (fun _ _ _ => ?_) ?_ | with_reducible refine Tidy.ite (fun _ => ?_) (fun _ => ?_) | simp only [tidy_mk] | split | dsimp only)

theorem abandonLaps_tidy {Lp : List Instr} {s : State} (hk : Tidy Lp s) : Tidy Lp (abandonLaps s) := by
  unfold abandonLaps
  try dsimp only
  repeat' (first | with_reducible assumption | with_reducible refine Tidy.foldl _ (fun _ _ _ => ?_) ?_ | with_reducible refine Tidy.ite (fun _ => ?_) (fun _ => ?_) | simp only [tidy_mk] | split | dsimp only)

theorem dramcReset_tidy {Lp : List Instr} {s : State} (hk : Tidy Lp s) : Tidy Lp (dramcReset s) := by
  unfold dramcReset
  try dsimp only
  repeat' (first | with_reducible assumption | with_reducible refine abandonLaps_tidy ?_ | with_reducible refine rmapDone_tidy ?_ | with_reducible refine spareDone_tidy ?_ | with_reducible refine Tidy.foldl _ (fun _ _ _ => ?_) ?_ | with_reducible refine Tidy.ite (fun _ => ?_) (fun _ => ?_) | simp only [tidy_mk] | split | dsimp only)

theorem State_wr_tidy {Lp : List Instr} {s : State} {c : CoreId} {f : RegF} {v : Word} (hk : Tidy Lp s) : Tidy Lp (State.wr s c f v) := by
  unfold State.wr
  try dsimp only
  repeat' (first | with_reducible assumption | with_reducible refine State_setCore_tidy ?_ | with_reducible refine Tidy.foldl _ (fun _ _ _ => ?_) ?_ | with_reducible refine Tidy.ite (fun _ => ?_) (fun _ => ?_) | simp only [tidy_mk] | split | dsimp only)

theorem quarantine_tidy {Lp : List Instr} {is : List Nat} {s : State} (hk : Tidy Lp s) : Tidy Lp (quarantine is s) := by
  unfold quarantine
  try dsimp only
  repeat' (first | with_reducible assumption | with_reducible refine State_raiseAt_tidy ?_ | with_reducible refine Tidy.foldl _ (fun _ _ _ => ?_) ?_ | with_reducible refine Tidy.ite (fun _ => ?_) (fun _ => ?_) | simp only [tidy_mk] | split | dsimp only)

theorem integrityFailure_tidy {Lp : List Instr} {c : Nat} {unc : Bool} {s : State} (hk : Tidy Lp s) : Tidy Lp (integrityFailure c unc s) := by
  unfold integrityFailure
  try dsimp only
  repeat' (first | with_reducible assumption | with_reducible refine State_raiseAt_tidy ?_ | with_reducible refine logEcc_tidy ?_ | with_reducible refine quarantine_tidy ?_ | with_reducible refine Tidy.foldl _ (fun _ _ _ => ?_) ?_ | with_reducible refine Tidy.ite (fun _ => ?_) (fun _ => ?_) | simp only [tidy_mk] | split | dsimp only)

theorem cacheFill_tidy {Lp : List Instr} {kh : Word} {v : Verify} {s : State} (hk : Tidy Lp s) : Tidy Lp (cacheFill kh v s).2 := by
  unfold cacheFill
  try dsimp only
  repeat' (first | with_reducible assumption | with_reducible refine integrityFailure_tidy ?_ | with_reducible refine quarantine_tidy ?_ | with_reducible refine Tidy.foldl _ (fun _ _ _ => ?_) ?_ | with_reducible refine Tidy.ite (fun _ => ?_) (fun _ => ?_) | simp only [tidy_mk] | split | dsimp only)

theorem cacheFill_pair {Lp : List Instr} {kh : Word} {v : Verify} {s : State} {x} {t : State} (e : cacheFill kh v s = (x, t)) (hk : Tidy Lp s) : Tidy Lp t := by
  have h : Tidy Lp (cacheFill kh v s).2 := cacheFill_tidy hk
  rw [e] at h; exact h

theorem findAmong_tidy {Lp : List Instr} {oid : Oid} : ∀ {l : List Nat} {s : State}, Tidy Lp s → Tidy Lp (findAmong oid l s).2
  | [], _, hk => hk
  | _ :: _, _, hk => by
    unfold findAmong
    dsimp only
    repeat' (first | exact cacheFill_tidy hk | exact findAmong_tidy (cacheFill_tidy hk) | split)

theorem findOid_tidy {Lp : List Instr} {oid : Oid} {v : Verify} {s : State} (hk : Tidy Lp s) : Tidy Lp (findOid oid v s).2 := by
  unfold findOid
  try dsimp only
  repeat' (first | with_reducible assumption | with_reducible refine findAmong_tidy ?_ | with_reducible refine findAmong_pair (by with_reducible assumption) ?_ | with_reducible refine integrityFailure_tidy ?_ | with_reducible refine Tidy.foldl _ (fun _ _ _ => ?_) ?_ | with_reducible refine Tidy.ite (fun _ => ?_) (fun _ => ?_) | simp only [tidy_mk] | split | dsimp only)

theorem findOid_pair {Lp : List Instr} {oid : Oid} {v : Verify} {s : State} {x} {t : State} (e : findOid oid v s = (x, t)) (hk : Tidy Lp s) : Tidy Lp t := by
  have h : Tidy Lp (findOid oid v s).2 := findOid_tidy hk
  rw [e] at h; exact h

theorem spoilLine_tidy {Lp : List Instr} {a : Nat} {s : State} (hk : Tidy Lp s) : Tidy Lp (spoilLine a s) := by
  unfold spoilLine
  try dsimp only
  repeat' (first | with_reducible assumption | with_reducible refine Tidy.foldl _ (fun _ _ _ => ?_) ?_ | with_reducible refine Tidy.ite (fun _ => ?_) (fun _ => ?_) | simp only [tidy_mk] | split | dsimp only)

theorem postEventOn_tidy {Lp : List Instr} {port code : Nat} {data : BitVec 56} {s : State} (hk : Tidy Lp s) : Tidy Lp (postEventOn port code data s) := by
  unfold postEventOn
  try dsimp only
  repeat' (first | with_reducible assumption | with_reducible refine Tidy.foldl _ (fun _ _ _ => ?_) ?_ | with_reducible refine Tidy.ite (fun _ => ?_) (fun _ => ?_) | simp only [tidy_mk] | split | dsimp only)

theorem postEvent_tidy {Lp : List Instr} {code : Nat} {data : BitVec 56} {s : State} (hk : Tidy Lp s) : Tidy Lp (postEvent code data s) := by
  unfold postEvent
  try dsimp only
  repeat' (first | with_reducible assumption | with_reducible refine postEventOn_tidy ?_ | with_reducible refine Tidy.foldl _ (fun _ _ _ => ?_) ?_ | with_reducible refine Tidy.ite (fun _ => ?_) (fun _ => ?_) | simp only [tidy_mk] | split | dsimp only)

theorem appendAs_tidy {Lp : List Instr} {handle source : BitVec 16} {body : JBody} {s : State} (hk : Tidy Lp s) : Tidy Lp (appendAs handle source body s) := by
  unfold appendAs
  try dsimp only
  repeat' (first | with_reducible assumption | with_reducible refine Tidy.foldl _ (fun _ _ _ => ?_) ?_ | with_reducible refine Tidy.ite (fun _ => ?_) (fun _ => ?_) | simp only [tidy_mk] | split | dsimp only)

theorem append_tidy {Lp : List Instr} {source : BitVec 16} {body : JBody} {s : State} (hk : Tidy Lp s) : Tidy Lp (append source body s) := by
  unfold append
  try dsimp only
  repeat' (first | with_reducible assumption | with_reducible refine appendAs_tidy ?_ | with_reducible refine Tidy.foldl _ (fun _ _ _ => ?_) ?_ | with_reducible refine Tidy.ite (fun _ => ?_) (fun _ => ?_) | simp only [tidy_mk] | split | dsimp only)

theorem forwardAs_tidy {Lp : List Instr} {handle source : BitVec 16} {body : JBody} {s : State} (hk : Tidy Lp s) : Tidy Lp (forwardAs handle source body s) := by
  unfold forwardAs
  try dsimp only
  repeat' (first | with_reducible assumption | with_reducible refine Tidy.foldl _ (fun _ _ _ => ?_) ?_ | with_reducible refine Tidy.ite (fun _ => ?_) (fun _ => ?_) | simp only [tidy_mk] | split | dsimp only)

theorem forward_tidy {Lp : List Instr} {source : BitVec 16} {body : JBody} {s : State} (hk : Tidy Lp s) : Tidy Lp (forward source body s) := by
  unfold forward
  try dsimp only
  repeat' (first | with_reducible assumption | with_reducible refine forwardAs_tidy ?_ | with_reducible refine Tidy.foldl _ (fun _ _ _ => ?_) ?_ | with_reducible refine Tidy.ite (fun _ => ?_) (fun _ => ?_) | simp only [tidy_mk] | split | dsimp only)

theorem commit_tidy {Lp : List Instr} {s : State} (hk : Tidy Lp s) : Tidy Lp (commit s) := by
  unfold commit
  try dsimp only
  repeat' (first | with_reducible assumption | with_reducible refine Tidy.foldl _ (fun _ _ _ => ?_) ?_ | with_reducible refine Tidy.ite (fun _ => ?_) (fun _ => ?_) | simp only [tidy_mk] | split | dsimp only)

theorem journalEvents_tidy {Lp : List Instr} {s : State} (hk : Tidy Lp s) : Tidy Lp (journalEvents s) := by
  unfold journalEvents
  try dsimp only
  repeat' (first | with_reducible assumption | with_reducible refine postEvent_tidy ?_ | with_reducible refine Tidy.foldl _ (fun _ _ _ => ?_) ?_ | with_reducible refine Tidy.ite (fun _ => ?_) (fun _ => ?_) | simp only [tidy_mk] | split | dsimp only)

theorem flush_tidy {Lp : List Instr} {s : State} (hk : Tidy Lp s) : Tidy Lp (flush s) := by
  unfold flush
  try dsimp only
  repeat' (first | with_reducible assumption | with_reducible refine commit_tidy ?_ | with_reducible refine journalEvents_tidy ?_ | with_reducible refine Tidy.foldl _ (fun _ _ _ => ?_) ?_ | with_reducible refine Tidy.ite (fun _ => ?_) (fun _ => ?_) | simp only [tidy_mk] | split | dsimp only)

theorem applyDelta_tidy {Lp : List Instr} {recNo : Nat} {now : DWord} {s : State} {d : Delta} (hk : Tidy Lp s) : Tidy Lp (applyDelta recNo now s d) := by
  cases d <;> simp only [applyDelta] <;> (repeat' (first | assumption | simp only [tidy_mk] | split))

theorem applyDeltas_tidy {Lp : List Instr} {recNo : Nat} {now : DWord} {s : State} {ds : List Delta} (hk : Tidy Lp s) : Tidy Lp (applyDeltas recNo now s ds) :=
  Tidy.foldl _ (fun _ _ h => applyDelta_tidy h) hk

theorem State_setCommand_tidy {Lp : List Instr} {s : State} {key : Nat} {f : Inflight → Inflight} (hk : Tidy Lp s) : Tidy Lp (State.setCommand s key f) := by
  unfold State.setCommand
  try dsimp only
  repeat' (first | with_reducible assumption | with_reducible refine Tidy.foldl _ (fun _ _ _ => ?_) ?_ | with_reducible refine Tidy.ite (fun _ => ?_) (fun _ => ?_) | simp only [tidy_mk] | split | dsimp only)

theorem State_waitOn_tidy {Lp : List Instr} {s : State} {key : Nat} {w : Wait} (hk : Tidy Lp s) : Tidy Lp (State.waitOn s key w) := by
  unfold State.waitOn
  try dsimp only
  repeat' (first | with_reducible assumption | with_reducible refine State_setCommand_tidy ?_ | with_reducible refine Tidy.foldl _ (fun _ _ _ => ?_) ?_ | with_reducible refine Tidy.ite (fun _ => ?_) (fun _ => ?_) | simp only [tidy_mk] | split | dsimp only)

theorem State_passPoint_tidy {Lp : List Instr} {s : State} {key : Nat} (hk : Tidy Lp s) : Tidy Lp (State.passPoint s key) := by
  unfold State.passPoint
  try dsimp only
  repeat' (first | with_reducible assumption | with_reducible refine State_setCommand_tidy ?_ | with_reducible refine Tidy.foldl _ (fun _ _ _ => ?_) ?_ | with_reducible refine Tidy.ite (fun _ => ?_) (fun _ => ?_) | simp only [tidy_mk] | split | dsimp only)

theorem hold_tidy {Lp : List Instr} {h : Held} {s : State} (hk : Tidy Lp s) : Tidy Lp (hold h s) := by
  unfold hold
  try dsimp only
  repeat' (first | with_reducible assumption | with_reducible refine Tidy.foldl _ (fun _ _ _ => ?_) ?_ | with_reducible refine Tidy.ite (fun _ => ?_) (fun _ => ?_) | simp only [tidy_mk] | split | dsimp only)

theorem settleGrant_tidy {Lp : List Instr} {key : Nat} {ok : Bool} {s : State} (hk : Tidy Lp s) : Tidy Lp (settleGrant key ok s) := by
  unfold settleGrant
  try dsimp only
  repeat' (first | with_reducible assumption | with_reducible refine Tidy.foldl _ (fun _ _ _ => ?_) ?_ | with_reducible refine Tidy.ite (fun _ => ?_) (fun _ => ?_) | simp only [tidy_mk] | split | dsimp only)

theorem complete_tidy {Lp : List Instr} {key : Nat} {r : Result} {s : State} (hk : Tidy Lp s) : Tidy Lp (complete key r s) := by
  unfold complete
  try dsimp only
  repeat' (first | with_reducible assumption | with_reducible refine appendAs_tidy ?_ | with_reducible refine append_tidy ?_ | with_reducible refine applyDeltas_tidy ?_ | with_reducible refine flush_tidy ?_ | with_reducible refine forwardAs_tidy ?_ | with_reducible refine hold_tidy ?_ | with_reducible refine settleGrant_tidy ?_ | with_reducible refine Tidy.foldl _ (fun _ _ _ => ?_) ?_ | with_reducible refine Tidy.ite (fun _ => ?_) (fun _ => ?_) | simp only [tidy_mk] | split | dsimp only)

theorem unsolicited_tidy {Lp : List Instr} {src : Source} {tag status : BitVec 16} {seq : Word} {fields : List (Nat × Nat)} {s : State} (hk : Tidy Lp s) : Tidy Lp (unsolicited src tag status seq fields s) := by
  unfold unsolicited
  try dsimp only
  repeat' (first | with_reducible assumption | with_reducible refine hold_tidy ?_ | with_reducible refine Tidy.foldl _ (fun _ _ _ => ?_) ?_ | with_reducible refine Tidy.ite (fun _ => ?_) (fun _ => ?_) | simp only [tidy_mk] | split | dsimp only)

theorem State_setPort_tidy {Lp : List Instr} {s : State} {p : Nat} {h : HostPort} (hk : Tidy Lp s) : Tidy Lp (State.setPort s p h) := by
  unfold State.setPort
  try dsimp only
  repeat' (first | with_reducible assumption | with_reducible refine Tidy.foldl _ (fun _ _ _ => ?_) ?_ | with_reducible refine Tidy.ite (fun _ => ?_) (fun _ => ?_) | simp only [tidy_mk] | split | dsimp only)

theorem signal_tidy {Lp : List Instr} {port v : Nat} {s : State} (hk : Tidy Lp s) : Tidy Lp (signal port v s) := by
  unfold signal
  try dsimp only
  repeat' (first | with_reducible assumption | with_reducible refine State_setPort_tidy ?_ | with_reducible refine Tidy.foldl _ (fun _ _ _ => ?_) ?_ | with_reducible refine Tidy.ite (fun _ => ?_) (fun _ => ?_) | simp only [tidy_mk] | split | dsimp only)

theorem State_setQueue_tidy {Lp : List Instr} {s : State} {q : Nat} {f : Queue → Queue} (hk : Tidy Lp s) : Tidy Lp (State.setQueue s q f) := by
  unfold State.setQueue
  try dsimp only
  repeat' (first | with_reducible assumption | with_reducible refine Tidy.foldl _ (fun _ _ _ => ?_) ?_ | with_reducible refine Tidy.ite (fun _ => ?_) (fun _ => ?_) | simp only [tidy_mk] | split | dsimp only)

theorem postToQueue_tidy {Lp : List Instr} {q : Nat} {c : Completion} {s : State} (hk : Tidy Lp s) : Tidy Lp (postToQueue q c s) := by
  unfold postToQueue
  try dsimp only
  repeat' (first | with_reducible assumption | with_reducible refine State_setQueue_tidy ?_ | with_reducible refine State_writeBytes_tidy ?_ | with_reducible refine signal_tidy ?_ | with_reducible refine Tidy.foldl _ (fun _ _ _ => ?_) ?_ | with_reducible refine Tidy.ite (fun _ => ?_) (fun _ => ?_) | simp only [tidy_mk] | split | dsimp only)

theorem postMark_tidy {Lp : List Instr} {h : Held} {s : State} (hk : Tidy Lp s) : Tidy Lp (postMark h s) := by
  unfold postMark
  try dsimp only
  repeat' (first | with_reducible assumption | with_reducible refine append_tidy ?_ | with_reducible refine unsolicited_tidy ?_ | with_reducible refine Tidy.foldl _ (fun _ _ _ => ?_) ?_ | with_reducible refine Tidy.ite (fun _ => ?_) (fun _ => ?_) | simp only [tidy_mk] | split | dsimp only)

theorem intoBuffer_tidy {Lp : List Instr} {a : Nat} {bs : List Byte} {s : State} (hk : Tidy Lp s) : Tidy Lp (intoBuffer a bs s) := by
  unfold intoBuffer
  try dsimp only
  repeat' (first | with_reducible assumption | with_reducible refine State_dmaBytes_tidy ?_ | with_reducible refine mendWords_tidy ?_ | with_reducible refine Tidy.foldl _ (fun _ _ _ => ?_) ?_ | with_reducible refine Tidy.ite (fun _ => ?_) (fun _ => ?_) | simp only [tidy_mk] | split | dsimp only)

theorem beginIdle_tidy {Lp : List Instr} {h : Nat} {s : State} (hk : Tidy Lp s) : Tidy Lp (beginIdle h s) := by
  unfold beginIdle
  try dsimp only
  repeat' (first | with_reducible assumption | with_reducible refine Tidy.foldl _ (fun _ _ _ => ?_) ?_ | with_reducible refine Tidy.ite (fun _ => ?_) (fun _ => ?_) | simp only [tidy_mk] | split | dsimp only)

theorem post_tidy {Lp : List Instr} {h : Held} {s : State} (hk : Tidy Lp s) : Tidy Lp (post h s) := by
  unfold post
  try dsimp only
  repeat' (first | with_reducible assumption | with_reducible refine beginIdle_tidy ?_ | with_reducible refine intoBuffer_tidy ?_ | with_reducible refine postMark_tidy ?_ | with_reducible refine postToQueue_tidy ?_ | with_reducible refine Tidy.foldl _ (fun _ _ _ => ?_) ?_ | with_reducible refine Tidy.ite (fun _ => ?_) (fun _ => ?_) | simp only [tidy_mk] | split | dsimp only)

theorem postHeld_tidy {Lp : List Instr} : ∀ {l : List Held} {s : State}, Tidy Lp s → Tidy Lp (postHeld l s)
  | [], _, hk => hk
  | h :: hs, s, hk => by
    unfold postHeld
    split
    · exact postHeld_tidy (post_tidy (by simpa only [tidy_mk] using hk))
    · exact postHeld_tidy hk

theorem postAll_tidy {Lp : List Instr} {s : State} (hk : Tidy Lp s) : Tidy Lp (postAll s) := postHeld_tidy hk

theorem queueCheckpoint_tidy {Lp : List Instr} {kind : Nat} {s : State} (hk : Tidy Lp s) : Tidy Lp (queueCheckpoint kind s) := by
  unfold queueCheckpoint
  try dsimp only
  repeat' (first | with_reducible assumption | with_reducible refine append_tidy ?_ | with_reducible refine flush_tidy ?_ | with_reducible refine Tidy.foldl _ (fun _ _ _ => ?_) ?_ | with_reducible refine Tidy.ite (fun _ => ?_) (fun _ => ?_) | simp only [tidy_mk] | split | dsimp only)

theorem boundary_tidy {Lp : List Instr} {src : Source} {v : Option (Word × BitVec 16)} {firstSeq : Word} {cause from_ count : Nat} {time : DWord} {s : State} (hk : Tidy Lp s) : Tidy Lp (boundary src v firstSeq cause from_ count time s) := by
  unfold boundary
  try dsimp only
  repeat' (first | with_reducible assumption | with_reducible refine unsolicited_tidy ?_ | with_reducible refine Tidy.foldl _ (fun _ _ _ => ?_) ?_ | with_reducible refine Tidy.ite (fun _ => ?_) (fun _ => ?_) | simp only [tidy_mk] | split | dsimp only)

theorem reportLost_tidy {Lp : List Instr} {status : BitVec 16} {c : Inflight} {s : State} (hk : Tidy Lp s) : Tidy Lp (reportLost status c s) := by
  unfold reportLost
  try dsimp only
  repeat' (first | with_reducible assumption | with_reducible refine appendAs_tidy ?_ | with_reducible refine complete_tidy ?_ | with_reducible refine hold_tidy ?_ | with_reducible refine unsolicited_tidy ?_ | with_reducible refine Tidy.foldl _ (fun _ _ _ => ?_) ?_ | with_reducible refine Tidy.ite (fun _ => ?_) (fun _ => ?_) | simp only [tidy_mk] | split | dsimp only)

theorem abortCommands_tidy {Lp : List Instr} {status : BitVec 16} {sel : Inflight → Bool} {s : State} (hk : Tidy Lp s) : Tidy Lp (abortCommands status sel s) := by
  unfold abortCommands
  try dsimp only
  repeat' (first | with_reducible assumption | with_reducible refine reportLost_tidy ?_ | with_reducible refine Tidy.foldl _ (fun _ _ _ => ?_) ?_ | with_reducible refine Tidy.ite (fun _ => ?_) (fun _ => ?_) | simp only [tidy_mk] | split | dsimp only)

theorem spoilDdr_tidy {Lp : List Instr} {a : Nat} {s : State} (hk : Tidy Lp s) : Tidy Lp (spoilDdr a s) := by
  unfold spoilDdr
  try dsimp only
  repeat' (first | with_reducible assumption | with_reducible refine spoilLine_tidy ?_ | with_reducible refine Tidy.foldl _ (fun _ _ _ => ?_) ?_ | with_reducible refine Tidy.ite (fun _ => ?_) (fun _ => ?_) | simp only [tidy_mk] | split | dsimp only)

theorem breakFound_tidy {Lp : List Instr} {s : State} (hk : Tidy Lp s) : Tidy Lp (breakFound s) := by
  unfold breakFound
  try dsimp only
  repeat' (first | with_reducible assumption | with_reducible refine State_raise_tidy ?_ | with_reducible refine Tidy.foldl _ (fun _ _ _ => ?_) ?_ | with_reducible refine Tidy.ite (fun _ => ?_) (fun _ => ?_) | simp only [tidy_mk] | split | dsimp only)

theorem ringBreak_tidy {Lp : List Instr} {n : Nat} {s : State} (hk : Tidy Lp s) : Tidy Lp (ringBreak n s) := by
  unfold ringBreak
  try dsimp only
  repeat' (first | with_reducible assumption | with_reducible refine append_tidy ?_ | with_reducible refine breakFound_tidy ?_ | with_reducible refine Tidy.foldl _ (fun _ _ _ => ?_) ?_ | with_reducible refine Tidy.ite (fun _ => ?_) (fun _ => ?_) | simp only [tidy_mk] | split | dsimp only)

theorem scatter_tidy {Lp : List Instr} {space : Nat} {l : List (Nat × Nat)} {bs : List Byte} {s : State} (hk : Tidy Lp s) : Tidy Lp (scatter space l bs s) := by
  induction l generalizing bs s with
  | nil => exact hk
  | cons x xs ih => exact ih (State_writeBytes_tidy hk)

theorem writeOutput_eq {Lp : List Instr} {src : Source} {total : Nat} {addr : DWord} {bs : List Byte} {s t : State}
    (e : writeOutput src total addr bs s = .ok t) (hk : Tidy Lp s) : Tidy Lp t := by
  unfold writeOutput at e
  split at e
  · injection e with e; subst e; simpa only [tidy_mk] using hk
  · split at e
    · simp at e
    · injection e with e; subst e; exact scatter_tidy hk

theorem withKey_tidy {Lp : List Instr} {key : Nat} {kh : Word} {off : Nat} {body : State → State} {s : State}
    (hb : ∀ t, Tidy Lp t → Tidy Lp (body t)) (hk : Tidy Lp s) : Tidy Lp (withKey key kh off body s) := by
  unfold withKey
  dsimp only
  split
  · exact hb _ (cacheFill_tidy hk)
  · exact complete_tidy (cacheFill_tidy hk)

theorem withOid_tidy {Lp : List Instr} {key : Nat} {oid : Oid} {body : Option Nat → State → State} {s : State}
    (hb : ∀ o t, Tidy Lp t → Tidy Lp (body o t)) (hk : Tidy Lp s) : Tidy Lp (withOid key oid body s) := by
  unfold withOid
  dsimp only
  split
  · exact hb _ _ (findOid_tidy hk)
  · exact hb _ _ (findOid_tidy hk)
  · exact complete_tidy (findOid_tidy hk)

theorem completeOutput_tidy {Lp : List Instr} {key : Nat} {src : Source} {total : Nat} {addr : DWord} {bs : List Byte} {r : Result} {s : State} (hk : Tidy Lp s) : Tidy Lp (completeOutput key src total addr bs r s) := by
  unfold completeOutput
  try dsimp only
  repeat' (first | with_reducible assumption | with_reducible refine complete_tidy ?_ | with_reducible refine writeOutput_eq (by with_reducible assumption) ?_ | with_reducible refine Tidy.foldl _ (fun _ _ _ => ?_) ?_ | with_reducible refine Tidy.ite (fun _ => ?_) (fun _ => ?_) | simp only [tidy_mk] | split | dsimp only)

theorem State_setLane_tidy {Lp : List Instr} {s : State} {n : Nat} {f : Lane → Lane} (hk : Tidy Lp s) : Tidy Lp (State.setLane s n f) := by
  unfold State.setLane
  try dsimp only
  repeat' (first | with_reducible assumption | with_reducible refine Tidy.foldl _ (fun _ _ _ => ?_) ?_ | with_reducible refine Tidy.ite (fun _ => ?_) (fun _ => ?_) | simp only [tidy_mk] | split | dsimp only)

theorem State_setStream_tidy {Lp : List Instr} {s : State} {h : Nat} {f : Stream → Stream} (hk : Tidy Lp s) : Tidy Lp (State.setStream s h f) := by
  unfold State.setStream
  try dsimp only
  repeat' (first | with_reducible assumption | with_reducible refine Tidy.foldl _ (fun _ _ _ => ?_) ?_ | with_reducible refine Tidy.ite (fun _ => ?_) (fun _ => ?_) | simp only [tidy_mk] | split | dsimp only)

theorem park2_tidy {Lp : List Instr} {h : Nat} {s : State} (hk : Tidy Lp s) : Tidy Lp (park2 h s) := by
  unfold park2
  try dsimp only
  repeat' (first | with_reducible assumption | with_reducible refine State_setLane_tidy ?_ | with_reducible refine State_setStream_tidy ?_ | with_reducible refine Tidy.foldl _ (fun _ _ _ => ?_) ?_ | with_reducible refine Tidy.ite (fun _ => ?_) (fun _ => ?_) | simp only [tidy_mk] | split | dsimp only)

theorem parkWaiting_tidy {Lp : List Instr} {s : State} (hk : Tidy Lp s) : Tidy Lp (parkWaiting s) := by
  unfold parkWaiting
  try dsimp only
  repeat' (first | with_reducible assumption | with_reducible refine park2_tidy ?_ | with_reducible refine Tidy.foldl _ (fun _ _ _ => ?_) ?_ | with_reducible refine Tidy.ite (fun _ => ?_) (fun _ => ?_) | simp only [tidy_mk] | split | dsimp only)

theorem endStream_tidy {Lp : List Instr} {h : Nat} {s : State} (hk : Tidy Lp s) : Tidy Lp (endStream h s) := by
  unfold endStream
  split
  · exact hk
  · dsimp only
    repeat' (first | with_reducible refine parkWaiting_tidy ?_ | simp only [tidy_mk, id_eq] | with_reducible exact State_setLane_tidy hk | split)

theorem recordEnded_tidy {Lp : List Instr} {x : Stream} {status : BitVec 16} {s : State} (hk : Tidy Lp s) : Tidy Lp (recordEnded x status s) := by
  unfold recordEnded
  try dsimp only
  repeat' (first | with_reducible assumption | with_reducible refine Tidy.foldl _ (fun _ _ _ => ?_) ?_ | with_reducible refine Tidy.ite (fun _ => ?_) (fun _ => ?_) | simp only [tidy_mk] | split | dsimp only)

theorem reportStream_tidy {Lp : List Instr} {x : Stream} {status : BitVec 16} {s : State} (hk : Tidy Lp s) : Tidy Lp (reportStream x status s) := by
  unfold reportStream
  try dsimp only
  repeat' (first | with_reducible assumption | with_reducible refine unsolicited_tidy ?_ | with_reducible refine Tidy.foldl _ (fun _ _ _ => ?_) ?_ | with_reducible refine Tidy.ite (fun _ => ?_) (fun _ => ?_) | simp only [tidy_mk] | split | dsimp only)

theorem endStreams_tidy {Lp : List Instr} {status : BitVec 16} {sel : Stream → Bool} {s : State} (hk : Tidy Lp s) : Tidy Lp (endStreams status sel s) := by
  unfold endStreams
  try dsimp only
  repeat' (first | with_reducible assumption | with_reducible refine endStream_tidy ?_ | with_reducible refine reportStream_tidy ?_ | with_reducible refine Tidy.foldl _ (fun _ _ _ => ?_) ?_ | with_reducible refine Tidy.ite (fun _ => ?_) (fun _ => ?_) | simp only [tidy_mk] | split | dsimp only)

theorem loadBusy_tidy {Lp : List Instr} {lane : Nat} {s : State} (hk : Tidy Lp s) : Tidy Lp (loadBusy lane s) := by
  unfold loadBusy
  try dsimp only
  repeat' (first | with_reducible assumption | with_reducible refine State_setLane_tidy ?_ | with_reducible refine Tidy.foldl _ (fun _ _ _ => ?_) ?_ | with_reducible refine Tidy.ite (fun _ => ?_) (fun _ => ?_) | simp only [tidy_mk] | split | dsimp only)

theorem loadSlot_tidy {Lp : List Instr} {n slot h : Nat} {kh : Word} {s : State} (hk : Tidy Lp s) : Tidy Lp (loadSlot n slot h kh s) := by
  unfold loadSlot
  try dsimp only
  repeat' (first | with_reducible assumption | with_reducible refine State_setLane_tidy ?_ | with_reducible refine Tidy.foldl _ (fun _ _ _ => ?_) ?_ | with_reducible refine Tidy.ite (fun _ => ?_) (fun _ => ?_) | simp only [tidy_mk] | split | dsimp only)

theorem takeUnbound_tidy {Lp : List Instr} {kh : Word} {s : State} (hk : Tidy Lp s) : Tidy Lp (takeUnbound kh s).2 := by
  unfold takeUnbound
  try dsimp only
  repeat' (first | with_reducible assumption | with_reducible refine Tidy.foldl _ (fun _ _ _ => ?_) ?_ | with_reducible refine Tidy.ite (fun _ => ?_) (fun _ => ?_) | simp only [tidy_mk] | split | dsimp only)

theorem takeUnbound_pair {Lp : List Instr} {kh : Word} {s : State} {x} {t : State} (e : takeUnbound kh s = (x, t)) (hk : Tidy Lp s) : Tidy Lp t := by
  have h : Tidy Lp (takeUnbound kh s).2 := takeUnbound_tidy hk
  rw [e] at h; exact h

theorem mbResult_tidy {Lp : List Instr} {n r : Nat} {s : State} (hk : Tidy Lp s) : Tidy Lp (mbResult n r s) := by
  unfold mbResult
  try dsimp only
  repeat' (first | with_reducible assumption | with_reducible refine State_setLane_tidy ?_ | with_reducible refine Tidy.foldl _ (fun _ _ _ => ?_) ?_ | with_reducible refine Tidy.ite (fun _ => ?_) (fun _ => ?_) | simp only [tidy_mk] | split | dsimp only)

theorem holdLoads_tidy {Lp : List Instr} {s : State} (hk : Tidy Lp s) : Tidy Lp (holdLoads s) := by
  unfold holdLoads
  try dsimp only
  repeat' (first | with_reducible assumption | with_reducible refine Tidy.foldl _ (fun _ _ _ => ?_) ?_ | with_reducible refine Tidy.ite (fun _ => ?_) (fun _ => ?_) | simp only [tidy_mk] | split | dsimp only)

theorem mbLoad_tidy {Lp : List Instr} {n : Nat} {kh : Word} {s : State} (hk : Tidy Lp s) : Tidy Lp (mbLoad n kh s) := by
  unfold mbLoad
  try dsimp only
  repeat' (first | with_reducible assumption | with_reducible refine State_setLane_tidy ?_ | with_reducible refine holdLoads_tidy ?_ | with_reducible refine mbResult_tidy ?_ | with_reducible refine Tidy.foldl _ (fun _ _ _ => ?_) ?_ | with_reducible refine Tidy.ite (fun _ => ?_) (fun _ => ?_) | simp only [tidy_mk] | split | dsimp only)

theorem mailboxLoad_tidy {Lp : List Instr} {n slot : Nat} {mode : LoadMode} {entry : Nat} {kh : Word} {s : State} (hk : Tidy Lp s) : Tidy Lp (mailboxLoad n slot mode entry kh s) := by
  unfold mailboxLoad
  try dsimp only
  repeat' (first | with_reducible assumption | with_reducible refine State_raiseAt_tidy ?_ | with_reducible refine State_raise_tidy ?_ | with_reducible refine State_setLane_tidy ?_ | with_reducible refine loadSlot_tidy ?_ | with_reducible refine mbLoad_tidy ?_ | with_reducible refine mbResult_tidy ?_ | with_reducible refine takeUnbound_tidy ?_ | with_reducible refine takeUnbound_pair (by with_reducible assumption) ?_ | with_reducible refine Tidy.foldl _ (fun _ _ _ => ?_) ?_ | with_reducible refine Tidy.ite (fun _ => ?_) (fun _ => ?_) | simp only [tidy_mk] | split | dsimp only)

theorem mailboxClear_tidy {Lp : List Instr} {n slot : Nat} {release : Bool} {entry : Nat} {kh : Word} {s : State} (hk : Tidy Lp s) : Tidy Lp (mailboxClear n slot release entry kh s) := by
  unfold mailboxClear
  try dsimp only
  repeat' (first | with_reducible assumption | with_reducible refine State_raise_tidy ?_ | with_reducible refine State_setLane_tidy ?_ | with_reducible refine endStream_tidy ?_ | with_reducible refine mbResult_tidy ?_ | with_reducible refine Tidy.foldl _ (fun _ _ _ => ?_) ?_ | with_reducible refine Tidy.ite (fun _ => ?_) (fun _ => ?_) | simp only [tidy_mk] | split | dsimp only)

theorem mailboxDone_tidy {Lp : List Instr} {n : Nat} {s : State} (hk : Tidy Lp s) : Tidy Lp (mailboxDone n s) := by
  unfold mailboxDone
  try dsimp only
  repeat' (first | with_reducible assumption | with_reducible refine State_line_tidy ?_ | with_reducible refine State_setLane_tidy ?_ | with_reducible refine holdLoads_tidy ?_ | with_reducible refine Tidy.foldl _ (fun _ _ _ => ?_) ?_ | with_reducible refine Tidy.ite (fun _ => ?_) (fun _ => ?_) | simp only [tidy_mk] | split | dsimp only)

theorem park1_tidy {Lp : List Instr} {h : Nat} {s : State} (hk : Tidy Lp s) : Tidy Lp (park1 h s) := by
  unfold park1
  try dsimp only
  repeat' (first | with_reducible assumption | with_reducible refine State_setLane_tidy ?_ | with_reducible refine State_setStream_tidy ?_ | with_reducible refine Tidy.foldl _ (fun _ _ _ => ?_) ?_ | with_reducible refine Tidy.ite (fun _ => ?_) (fun _ => ?_) | simp only [tidy_mk] | split | dsimp only)

theorem bindLane_eq {Lp : List Instr} {s t : State} {n : Nat} (e : bindLane s = some (n, t)) (hk : Tidy Lp s) : Tidy Lp t := by
  unfold bindLane at e
  repeat' split at e
  all_goals simp at e
  · exact e.2 ▸ hk
  · exact e.2 ▸ park2_tidy hk

theorem reserveBlock_tidy {Lp : List Instr} {kh : Word} {s : State} (hk : Tidy Lp s) : Tidy Lp (reserveBlock kh s) := by
  unfold reserveBlock
  try dsimp only
  repeat' (first | with_reducible assumption | with_reducible refine append_tidy ?_ | with_reducible refine flush_tidy ?_ | with_reducible refine Tidy.foldl _ (fun _ _ _ => ?_) ?_ | with_reducible refine Tidy.ite (fun _ => ?_) (fun _ => ?_) | simp only [tidy_mk] | split | dsimp only)

theorem settleReserves_tidy {Lp : List Instr} {s : State} (hk : Tidy Lp s) : Tidy Lp (settleReserves s) := by
  unfold settleReserves
  try dsimp only
  repeat' (first | with_reducible assumption | with_reducible refine Tidy.foldl _ (fun _ _ _ => ?_) ?_ | with_reducible refine Tidy.ite (fun _ => ?_) (fun _ => ?_) | simp only [tidy_mk] | split | dsimp only)

theorem bindStream_tidy {Lp : List Instr} {key lane : Nat} {isSeal : Bool} {kh : Word} {seg : Word} {len life : Nat} {iv : Nat} {fixed : Word} {s : State} (hk : Tidy Lp s) : Tidy Lp (bindStream key lane isSeal kh seg len life iv fixed s) := by
  unfold bindStream
  try dsimp only
  repeat' (first | with_reducible assumption | with_reducible refine complete_tidy ?_ | with_reducible refine loadSlot_tidy ?_ | with_reducible refine Tidy.foldl _ (fun _ _ _ => ?_) ?_ | with_reducible refine Tidy.ite (fun _ => ?_) (fun _ => ?_) | simp only [tidy_mk] | split | dsimp only)

theorem sealDraw_tidy {Lp : List Instr} {key : Nat} {e : Entry} {s : State} (hk : Tidy Lp s) : Tidy Lp (sealDraw key e s) := by
  unfold sealDraw
  try dsimp only
  repeat' (first | with_reducible assumption | with_reducible refine State_waitOn_tidy ?_ | with_reducible refine bindLane_eq (by with_reducible assumption) ?_ | with_reducible refine bindStream_tidy ?_ | with_reducible refine complete_tidy ?_ | with_reducible refine loadBusy_tidy ?_ | with_reducible refine reserveBlock_tidy ?_ | with_reducible refine takeUnbound_tidy ?_ | with_reducible refine takeUnbound_pair (by with_reducible assumption) ?_ | with_reducible refine Tidy.foldl _ (fun _ _ _ => ?_) ?_ | with_reducible refine Tidy.ite (fun _ => ?_) (fun _ => ?_) | simp only [tidy_mk] | split | dsimp only)

theorem sealOpen_tidy {Lp : List Instr} {key : Nat} {e : Entry} {s : State} (hk : Tidy Lp s) : Tidy Lp (sealOpen key e s) := by
  unfold sealOpen
  try dsimp only
  repeat' (first | with_reducible assumption | with_reducible refine complete_tidy ?_ | with_reducible refine sealDraw_tidy ?_ | with_reducible refine withKey_tidy (fun _ _ => ?_) ?_ | with_reducible refine Tidy.foldl _ (fun _ _ _ => ?_) ?_ | with_reducible refine Tidy.ite (fun _ => ?_) (fun _ => ?_) | simp only [tidy_mk] | split | dsimp only)

theorem unsealBind_tidy {Lp : List Instr} {key : Nat} {e : Entry} {s : State} (hk : Tidy Lp s) : Tidy Lp (unsealBind key e s) := by
  unfold unsealBind
  try dsimp only
  repeat' (first | with_reducible assumption | with_reducible refine State_waitOn_tidy ?_ | with_reducible refine bindLane_eq (by with_reducible assumption) ?_ | with_reducible refine bindStream_tidy ?_ | with_reducible refine complete_tidy ?_ | with_reducible refine loadBusy_tidy ?_ | with_reducible refine Tidy.foldl _ (fun _ _ _ => ?_) ?_ | with_reducible refine Tidy.ite (fun _ => ?_) (fun _ => ?_) | simp only [tidy_mk] | split | dsimp only)

theorem unsealOpen_tidy {Lp : List Instr} {key : Nat} {e : Entry} {s : State} (hk : Tidy Lp s) : Tidy Lp (unsealOpen key e s) := by
  unfold unsealOpen
  try dsimp only
  repeat' (first | with_reducible assumption | with_reducible refine complete_tidy ?_ | with_reducible refine unsealBind_tidy ?_ | with_reducible refine withKey_tidy (fun _ _ => ?_) ?_ | with_reducible refine Tidy.foldl _ (fun _ _ _ => ?_) ?_ | with_reducible refine Tidy.ite (fun _ => ?_) (fun _ => ?_) | simp only [tidy_mk] | split | dsimp only)

theorem resume_tidy {Lp : List Instr} {h : Nat} {s : State} (hk : Tidy Lp s) : Tidy Lp (resume h s) := by
  unfold resume
  try dsimp only
  repeat' (first | with_reducible assumption | with_reducible refine State_setStream_tidy ?_ | with_reducible refine park1_tidy ?_ | with_reducible refine park2_tidy ?_ | with_reducible refine Tidy.foldl _ (fun _ _ _ => ?_) ?_ | with_reducible refine Tidy.ite (fun _ => ?_) (fun _ => ?_) | simp only [tidy_mk] | split | dsimp only)

theorem enterFifo_tidy {Lp : List Instr} {n : Nat} {s : State} (hk : Tidy Lp s) : Tidy Lp (enterFifo n s) := by
  unfold enterFifo
  try dsimp only
  repeat' (first | with_reducible assumption | with_reducible refine State_setStream_tidy ?_ | with_reducible refine resume_tidy ?_ | with_reducible refine Tidy.foldl _ (fun _ _ _ => ?_) ?_ | with_reducible refine Tidy.ite (fun _ => ?_) (fun _ => ?_) | simp only [tidy_mk] | split | dsimp only)

theorem steer_tidy {Lp : List Instr} {key n : Nat} {s : State} (hk : Tidy Lp s) : Tidy Lp (steer key n s) := by
  unfold steer
  try dsimp only
  repeat' (first | with_reducible assumption | with_reducible refine State_setLane_tidy ?_ | with_reducible refine State_waitOn_tidy ?_ | with_reducible refine enterFifo_tidy ?_ | with_reducible refine Tidy.foldl _ (fun _ _ _ => ?_) ?_ | with_reducible refine Tidy.ite (fun _ => ?_) (fun _ => ?_) | simp only [tidy_mk] | split | dsimp only)

theorem streamCommand_tidy {Lp : List Instr} {key : Nat} {e : Entry} {s : State} (hk : Tidy Lp s) : Tidy Lp (streamCommand key e s) := by
  unfold streamCommand
  try dsimp only
  repeat' (first | with_reducible assumption | with_reducible refine complete_tidy ?_ | with_reducible refine steer_tidy ?_ | with_reducible refine Tidy.foldl _ (fun _ _ _ => ?_) ?_ | with_reducible refine Tidy.ite (fun _ => ?_) (fun _ => ?_) | simp only [tidy_mk] | split | dsimp only)

theorem streamAbort_tidy {Lp : List Instr} {key : Nat} {e : Entry} {s : State} (hk : Tidy Lp s) : Tidy Lp (streamAbort key e s) := by
  unfold streamAbort
  try dsimp only
  repeat' (first | with_reducible assumption | with_reducible refine complete_tidy ?_ | with_reducible refine endStream_tidy ?_ | with_reducible refine steer_tidy ?_ | with_reducible refine Tidy.foldl _ (fun _ _ _ => ?_) ?_ | with_reducible refine Tidy.ite (fun _ => ?_) (fun _ => ?_) | simp only [tidy_mk] | split | dsimp only)

theorem streamQuery_tidy {Lp : List Instr} {key : Nat} {src : Source} {e : Entry} {s : State} (hk : Tidy Lp s) : Tidy Lp (streamQuery key src e s) := by
  unfold streamQuery
  try dsimp only
  repeat' (first | with_reducible assumption | with_reducible refine complete_tidy ?_ | with_reducible refine Tidy.foldl _ (fun _ _ _ => ?_) ?_ | with_reducible refine Tidy.ite (fun _ => ?_) (fun _ => ?_) | simp only [tidy_mk] | split | dsimp only)

theorem popLane_tidy {Lp : List Instr} {n : Nat} {s : State} (hk : Tidy Lp s) : Tidy Lp (popLane n s) := by
  unfold popLane
  try dsimp only
  repeat' (first | with_reducible assumption | with_reducible refine State_setLane_tidy ?_ | with_reducible refine enterFifo_tidy ?_ | with_reducible refine Tidy.foldl _ (fun _ _ _ => ?_) ?_ | with_reducible refine Tidy.ite (fun _ => ?_) (fun _ => ?_) | simp only [tidy_mk] | split | dsimp only)

theorem restStream_tidy {Lp : List Instr} {n h : Nat} {s : State} (hk : Tidy Lp s) : Tidy Lp (restStream n h s) := by
  unfold restStream
  try dsimp only
  repeat' (first | with_reducible assumption | with_reducible refine State_setStream_tidy ?_ | with_reducible refine Tidy.foldl _ (fun _ _ _ => ?_) ?_ | with_reducible refine Tidy.ite (fun _ => ?_) (fun _ => ?_) | simp only [tidy_mk] | split | dsimp only)

theorem resumeIdle_tidy {Lp : List Instr} {n h : Nat} {s : State} (hk : Tidy Lp s) : Tidy Lp (resumeIdle n h s) := by
  unfold resumeIdle
  try dsimp only
  repeat' (first | with_reducible assumption | with_reducible refine State_setStream_tidy ?_ | with_reducible refine park1_tidy ?_ | with_reducible refine Tidy.foldl _ (fun _ _ _ => ?_) ?_ | with_reducible refine Tidy.ite (fun _ => ?_) (fun _ => ?_) | simp only [tidy_mk] | split | dsimp only)

theorem laneData_tidy {Lp : List Instr} {key : Nat} {e : Entry} {x : Stream} {dek : Hash} {s : State} (hk : Tidy Lp s) : Tidy Lp (laneData key e x dek s) := by
  unfold laneData
  try dsimp only
  repeat' (first | with_reducible assumption | with_reducible refine State_setLane_tidy ?_ | with_reducible refine State_setStream_tidy ?_ | with_reducible refine complete_tidy ?_ | with_reducible refine scatter_tidy ?_ | with_reducible refine Tidy.foldl _ (fun _ _ _ => ?_) ?_ | with_reducible refine Tidy.ite (fun _ => ?_) (fun _ => ?_) | simp only [tidy_mk] | split | dsimp only)

theorem passClose_tidy {Lp : List Instr} {x : Stream} {chunks : List Hash} {tag : QWord} {s : State} (hk : Tidy Lp s) : Tidy Lp (passClose x chunks tag s) := by
  unfold passClose
  try dsimp only
  repeat' (first | with_reducible assumption | with_reducible refine State_line_tidy ?_ | with_reducible refine Tidy.foldl _ (fun _ _ _ => ?_) ?_ | with_reducible refine Tidy.ite (fun _ => ?_) (fun _ => ?_) | simp only [tidy_mk] | split | dsimp only)

theorem laneClose_tidy {Lp : List Instr} {key : Nat} {e : Entry} {x : Stream} {dek : Hash} {s : State} (hk : Tidy Lp s) : Tidy Lp (laneClose key e x dek s) := by
  unfold laneClose
  try dsimp only
  repeat' (first | with_reducible assumption | with_reducible refine State_raiseAt_tidy ?_ | with_reducible refine State_setLane_tidy ?_ | with_reducible refine State_writeBytes_tidy ?_ | with_reducible refine complete_tidy ?_ | with_reducible refine endStream_tidy ?_ | with_reducible refine passClose_tidy ?_ | with_reducible refine Tidy.foldl _ (fun _ _ _ => ?_) ?_ | with_reducible refine Tidy.ite (fun _ => ?_) (fun _ => ?_) | simp only [tidy_mk] | split | dsimp only)

theorem contextLost_tidy {Lp : List Instr} {key n : Nat} {x : Stream} {s : State} (hk : Tidy Lp s) : Tidy Lp (contextLost key n x s) := by
  unfold contextLost
  try dsimp only
  repeat' (first | with_reducible assumption | with_reducible refine State_raiseAt_tidy ?_ | with_reducible refine complete_tidy ?_ | with_reducible refine endStream_tidy ?_ | with_reducible refine Tidy.foldl _ (fun _ _ _ => ?_) ?_ | with_reducible refine Tidy.ite (fun _ => ?_) (fun _ => ?_) | simp only [tidy_mk] | split | dsimp only)

theorem laneRun_tidy {Lp : List Instr} {n : Nat} {fill : Verify} {context : Bool} {s : State} (hk : Tidy Lp s) : Tidy Lp (laneRun n fill context s) := by
  unfold laneRun
  try dsimp only
  repeat' (first | with_reducible assumption | with_reducible refine cacheFill_tidy ?_ | with_reducible refine cacheFill_pair (by with_reducible assumption) ?_ | with_reducible refine complete_tidy ?_ | with_reducible refine contextLost_tidy ?_ | with_reducible refine endStream_tidy ?_ | with_reducible refine laneClose_tidy ?_ | with_reducible refine laneData_tidy ?_ | with_reducible refine loadSlot_tidy ?_ | with_reducible refine popLane_tidy ?_ | with_reducible refine restStream_tidy ?_ | with_reducible refine resumeIdle_tidy ?_ | with_reducible refine Tidy.foldl _ (fun _ _ _ => ?_) ?_ | with_reducible refine Tidy.ite (fun _ => ?_) (fun _ => ?_) | simp only [tidy_mk] | split | dsimp only)

theorem drawParkKey_tidy {Lp : List Instr} {s : State} (hk : Tidy Lp s) : Tidy Lp (drawParkKey s) := by
  unfold drawParkKey
  try dsimp only
  repeat' (first | with_reducible assumption | with_reducible refine State_drew_tidy ?_ | with_reducible refine Tidy.foldl _ (fun _ _ _ => ?_) ?_ | with_reducible refine Tidy.ite (fun _ => ?_) (fun _ => ?_) | simp only [tidy_mk] | split | dsimp only)

end Sys2Proof.Laws
end

