-- ==== Sys2Proof/Laws/TidyEngines.lean ====
section
/-! SUPPORT. The queue and the memory form under the vault, the entropy source, the public-key engine, the flash controller, the tamper monitors. -/

namespace Sys2Proof.Laws

open Sys2Proof.Machine

theorem State_setVslot_tidy {Lp : List Instr} {s : State} {n : Nat} {k : Option Hash} (hk : Tidy Lp s) : Tidy Lp (State.setVslot s n k) := by
  unfold State.setVslot
  try dsimp only
  repeat' (first | with_reducible assumption | with_reducible refine Tidy.foldl _ (fun _ _ _ => ?_) ?_ | with_reducible refine Tidy.ite (fun _ => ?_) (fun _ => ?_) | simp only [tidy_mk] | split | dsimp only)

theorem deriveKeys_tidy {Lp : List Instr} {cr : Hash} {s : State} (hk : Tidy Lp s) : Tidy Lp (deriveKeys cr s) := by
  unfold deriveKeys
  try dsimp only
  repeat' (first | with_reducible assumption | with_reducible refine Tidy.foldl _ (fun _ _ _ => ?_) ?_ | with_reducible refine Tidy.ite (fun _ => ?_) (fun _ => ?_) | simp only [tidy_mk] | split | dsimp only)

theorem State_storeLifecycle_tidy {Lp : List Instr} {s : State} {l : Lifecycle} (hk : Tidy Lp s) : Tidy Lp (State.storeLifecycle s l) := by
  unfold State.storeLifecycle
  try dsimp only
  repeat' (first | with_reducible assumption | with_reducible refine Tidy.foldl _ (fun _ _ _ => ?_) ?_ | with_reducible refine Tidy.ite (fun _ => ?_) (fun _ => ?_) | simp only [tidy_mk] | split | dsimp only)

theorem bootKeys_tidy {Lp : List Instr} {s : State} (hk : Tidy Lp s) : Tidy Lp (bootKeys s) := by
  unfold bootKeys
  try dsimp only
  repeat' (first | with_reducible assumption | with_reducible refine State_raise_tidy ?_ | with_reducible refine deriveKeys_tidy ?_ | with_reducible refine Tidy.foldl _ (fun _ _ _ => ?_) ?_ | with_reducible refine Tidy.ite (fun _ => ?_) (fun _ => ?_) | simp only [tidy_mk] | split | dsimp only)

theorem adoptCr_tidy {Lp : List Instr} {kek cr : Hash} {s : State} (hk : Tidy Lp s) : Tidy Lp (adoptCr kek cr s) := by
  unfold adoptCr
  try dsimp only
  repeat' (first | with_reducible assumption | with_reducible refine deriveKeys_tidy ?_ | with_reducible refine Tidy.foldl _ (fun _ _ _ => ?_) ?_ | with_reducible refine Tidy.ite (fun _ => ?_) (fun _ => ?_) | simp only [tidy_mk] | split | dsimp only)

theorem engStart_tidy {Lp : List Instr} {op kslot : Nat} {kek : Bool} {dslot : Nat} {dsel : Bool} {s : State} (hk : Tidy Lp s) : Tidy Lp (engStart op kslot kek dslot dsel s) := by
  unfold engStart
  try dsimp only
  repeat' (first | with_reducible assumption | with_reducible refine State_raise_tidy ?_ | with_reducible refine Tidy.foldl _ (fun _ _ _ => ?_) ?_ | with_reducible refine Tidy.ite (fun _ => ?_) (fun _ => ?_) | simp only [tidy_mk] | split | dsimp only)

theorem engCommand_tidy {Lp : List Instr} {op : Nat} {c : EngCmd} {s : State} (hk : Tidy Lp s) : Tidy Lp (engCommand op c s) := by
  unfold engCommand
  try dsimp only
  repeat' (first | with_reducible assumption | with_reducible refine State_setReg_tidy ?_ | with_reducible refine engStart_tidy ?_ | with_reducible refine Tidy.foldl _ (fun _ _ _ => ?_) ?_ | with_reducible refine Tidy.ite (fun _ => ?_) (fun _ => ?_) | simp only [tidy_mk] | split | dsimp only)

theorem engDone_tidy {Lp : List Instr} {s : State} (hk : Tidy Lp s) : Tidy Lp (engDone s) := by
  unfold engDone
  try dsimp only
  repeat' (first | with_reducible assumption | with_reducible refine State_dmaBytes_tidy ?_ | with_reducible refine State_line_tidy ?_ | with_reducible refine State_setVslot_tidy ?_ | with_reducible refine Tidy.foldl _ (fun _ _ _ => ?_) ?_ | with_reducible refine Tidy.ite (fun _ => ?_) (fun _ => ?_) | simp only [tidy_mk] | split | dsimp only)

theorem tier1_tidy {Lp : List Instr} {s : State} (hk : Tidy Lp s) : Tidy Lp (tier1 s) := by
  unfold tier1
  try dsimp only
  repeat' (first | with_reducible assumption | with_reducible refine engDone_tidy ?_ | with_reducible refine Tidy.foldl _ (fun _ _ _ => ?_) ?_ | with_reducible refine Tidy.ite (fun _ => ?_) (fun _ => ?_) | simp only [tidy_mk] | split | dsimp only)

theorem fireKiln_tidy {Lp : List Instr} {trigger : Nat} {s : State} (hk : Tidy Lp s) : Tidy Lp (fireKiln trigger s) := by
  unfold fireKiln
  try dsimp only
  repeat' (first | with_reducible assumption | with_reducible refine tier1_tidy ?_ | with_reducible refine Tidy.foldl _ (fun _ _ _ => ?_) ?_ | with_reducible refine Tidy.ite (fun _ => ?_) (fun _ => ?_) | simp only [tidy_mk] | split | dsimp only)

theorem cellKiln_tidy {Lp : List Instr} {trigger : Nat} {s : State} (hk : Tidy Lp s) : Tidy Lp (cellKiln trigger s) := by
  unfold cellKiln
  try dsimp only
  repeat' (first | with_reducible assumption | with_reducible refine Tidy.foldl _ (fun _ _ _ => ?_) ?_ | with_reducible refine Tidy.ite (fun _ => ?_) (fun _ => ?_) | simp only [tidy_mk] | split | dsimp only)

theorem tier2_tidy {Lp : List Instr} {s : State} (hk : Tidy Lp s) : Tidy Lp (tier2 s) := by
  unfold tier2
  try dsimp only
  repeat' (first | with_reducible assumption | with_reducible refine State_clearMem_tidy ?_ | with_reducible refine Tidy.foldl _ (fun _ _ _ => ?_) ?_ | with_reducible refine Tidy.ite (fun _ => ?_) (fun _ => ?_) | simp only [tidy_mk] | split | dsimp only)

theorem State_setSession_tidy {Lp : List Instr} {s : State} {g : BitVec 16} {f : Session → Session} (hk : Tidy Lp s) : Tidy Lp (State.setSession s g f) := by
  unfold State.setSession
  try dsimp only
  repeat' (first | with_reducible assumption | with_reducible refine Tidy.foldl _ (fun _ _ _ => ?_) ?_ | with_reducible refine Tidy.ite (fun _ => ?_) (fun _ => ?_) | simp only [tidy_mk] | split | dsimp only)

theorem State_endSession_tidy {Lp : List Instr} {s : State} {g : BitVec 16} (hk : Tidy Lp s) : Tidy Lp (State.endSession s g) := by
  unfold State.endSession
  try dsimp only
  repeat' (first | with_reducible assumption | with_reducible refine Tidy.foldl _ (fun _ _ _ => ?_) ?_ | with_reducible refine Tidy.ite (fun _ => ?_) (fun _ => ?_) | simp only [tidy_mk] | split | dsimp only)

theorem reserveGrant_tidy {Lp : List Instr} {g : BitVec 16} {key : Nat} {s : State} (hk : Tidy Lp s) : Tidy Lp (reserveGrant g key s) := by
  unfold reserveGrant
  try dsimp only
  repeat' (first | with_reducible assumption | with_reducible refine State_setSession_tidy ?_ | with_reducible refine Tidy.foldl _ (fun _ _ _ => ?_) ?_ | with_reducible refine Tidy.ite (fun _ => ?_) (fun _ => ?_) | simp only [tidy_mk] | split | dsimp only)

theorem tier3_tidy {Lp : List Instr} {s : State} (hk : Tidy Lp s) : Tidy Lp (tier3 s) := by
  unfold tier3
  try dsimp only
  repeat' (first | with_reducible assumption | with_reducible refine Tidy.foldl _ (fun _ _ _ => ?_) ?_ | with_reducible refine Tidy.ite (fun _ => ?_) (fun _ => ?_) | simp only [tidy_mk] | split | dsimp only)

theorem bootPairs_tidy {Lp : List Instr} {agree : Bool} {s : State} (hk : Tidy Lp s) : Tidy Lp (bootPairs agree s) := by
  unfold bootPairs
  try dsimp only
  repeat' (first | with_reducible assumption | with_reducible refine State_raise_tidy ?_ | with_reducible refine Tidy.foldl _ (fun _ _ _ => ?_) ?_ | with_reducible refine Tidy.ite (fun _ => ?_) (fun _ => ?_) | simp only [tidy_mk] | split | dsimp only)

theorem rngAsk_tidy {Lp : List Instr} {user : RngUser} {mode len timeout : Nat} {s : State} (hk : Tidy Lp s) : Tidy Lp (rngAsk user mode len timeout s).2 := by
  unfold rngAsk
  try dsimp only
  repeat' (first | with_reducible assumption | with_reducible refine Tidy.foldl _ (fun _ _ _ => ?_) ?_ | with_reducible refine Tidy.ite (fun _ => ?_) (fun _ => ?_) | simp only [tidy_mk] | split | dsimp only)

theorem rngAsk_pair {Lp : List Instr} {user : RngUser} {mode len timeout : Nat} {s : State} {x} {t : State} (e : rngAsk user mode len timeout s = (x, t)) (hk : Tidy Lp s) : Tidy Lp t := by
  have h : Tidy Lp (rngAsk user mode len timeout s).2 := rngAsk_tidy hk
  rw [e] at h; exact h

theorem rngReqWrite_tidy {Lp : List Instr} {v : Word} {s : State} (hk : Tidy Lp s) : Tidy Lp (rngReqWrite v s) := by
  unfold rngReqWrite
  try dsimp only
  repeat' (first | with_reducible assumption | with_reducible refine setStatusBits_tidy ?_ | with_reducible refine Tidy.foldl _ (fun _ _ _ => ?_) ?_ | with_reducible refine Tidy.ite (fun _ => ?_) (fun _ => ?_) | simp only [tidy_mk] | split | dsimp only)

theorem rngFinish_tidy {Lp : List Instr} {result ticket : Nat} {s : State} (hk : Tidy Lp s) : Tidy Lp (rngFinish result ticket s) := by
  unfold rngFinish
  try dsimp only
  repeat' (first | with_reducible assumption | with_reducible refine State_line_tidy ?_ | with_reducible refine Tidy.foldl _ (fun _ _ _ => ?_) ?_ | with_reducible refine Tidy.ite (fun _ => ?_) (fun _ => ?_) | simp only [tidy_mk] | split | dsimp only)

theorem fillPool_tidy {Lp : List Instr} {s : State} (hk : Tidy Lp s) : Tidy Lp (fillPool s) := by
  unfold fillPool
  try dsimp only
  repeat' (first | with_reducible assumption | with_reducible refine Tidy.foldl _ (fun _ _ _ => ?_) ?_ | with_reducible refine Tidy.ite (fun _ => ?_) (fun _ => ?_) | simp only [tidy_mk] | split | dsimp only)

theorem reseed_tidy {Lp : List Instr} {s : State} (hk : Tidy Lp s) : Tidy Lp (reseed s) := by
  unfold reseed
  try dsimp only
  repeat' (first | with_reducible assumption | with_reducible refine fillPool_tidy ?_ | with_reducible refine Tidy.foldl _ (fun _ _ _ => ?_) ?_ | with_reducible refine Tidy.ite (fun _ => ?_) (fun _ => ?_) | simp only [tidy_mk] | split | dsimp only)

theorem instantiate_tidy {Lp : List Instr} {s : State} (hk : Tidy Lp s) : Tidy Lp (instantiate s) := by
  unfold instantiate
  try dsimp only
  repeat' (first | with_reducible assumption | with_reducible refine fillPool_tidy ?_ | with_reducible refine Tidy.foldl _ (fun _ _ _ => ?_) ?_ | with_reducible refine Tidy.ite (fun _ => ?_) (fun _ => ?_) | simp only [tidy_mk] | split | dsimp only)

theorem generateReseed_tidy {Lp : List Instr} {mode len : Nat} {s : State} (hk : Tidy Lp s) : Tidy Lp (generateReseed mode len s) := by
  unfold generateReseed
  try dsimp only
  repeat' (first | with_reducible assumption | with_reducible refine reseed_tidy ?_ | with_reducible refine Tidy.foldl _ (fun _ _ _ => ?_) ?_ | with_reducible refine Tidy.ite (fun _ => ?_) (fun _ => ?_) | simp only [tidy_mk] | split | dsimp only)

theorem rngRelease_tidy {Lp : List Instr} {r : RngReq} {s : State} (hk : Tidy Lp s) : Tidy Lp (rngRelease r s) := by
  unfold rngRelease
  try dsimp only
  repeat' (first | with_reducible assumption | with_reducible refine State_dmaBytes_tidy ?_ | with_reducible refine State_drew_tidy ?_ | with_reducible refine State_waitOn_tidy ?_ | with_reducible refine rngFinish_tidy ?_ | with_reducible refine Tidy.foldl _ (fun _ _ _ => ?_) ?_ | with_reducible refine Tidy.ite (fun _ => ?_) (fun _ => ?_) | simp only [tidy_mk] | split | dsimp only)

theorem rngServe_tidy {Lp : List Instr} {s : State} (hk : Tidy Lp s) : Tidy Lp (rngServe s) := by
  unfold rngServe
  try dsimp only
  repeat' (first | with_reducible assumption | with_reducible refine generateReseed_tidy ?_ | with_reducible refine rngRelease_tidy ?_ | with_reducible refine Tidy.foldl _ (fun _ _ _ => ?_) ?_ | with_reducible refine Tidy.ite (fun _ => ?_) (fun _ => ?_) | simp only [tidy_mk] | split | dsimp only)

theorem rngWithdraw_tidy {Lp : List Instr} {id : Nat} {s : State} (hk : Tidy Lp s) : Tidy Lp (rngWithdraw id s).2 := by
  unfold rngWithdraw
  try dsimp only
  repeat' (first | with_reducible assumption | with_reducible refine Tidy.foldl _ (fun _ _ _ => ?_) ?_ | with_reducible refine Tidy.ite (fun _ => ?_) (fun _ => ?_) | simp only [tidy_mk] | split | dsimp only)

theorem rngWithdraw_pair {Lp : List Instr} {id : Nat} {s : State} {x} {t : State} (e : rngWithdraw id s = (x, t)) (hk : Tidy Lp s) : Tidy Lp t := by
  have h : Tidy Lp (rngWithdraw id s).2 := rngWithdraw_tidy hk
  rw [e] at h; exact h

theorem rngBlock_tidy {Lp : List Instr} {kind : RngFail} {s : State} (hk : Tidy Lp s) : Tidy Lp (rngBlock kind s) := by
  unfold rngBlock
  try dsimp only
  repeat' (first | with_reducible assumption | with_reducible refine State_raise_tidy ?_ | with_reducible refine Tidy.foldl _ (fun _ _ _ => ?_) ?_ | with_reducible refine Tidy.ite (fun _ => ?_) (fun _ => ?_) | simp only [tidy_mk] | split | dsimp only)

theorem rngSeed_tidy {Lp : List Instr} {s : State} (hk : Tidy Lp s) : Tidy Lp (rngSeed s) := by
  unfold rngSeed
  try dsimp only
  repeat' (first | with_reducible assumption | with_reducible refine instantiate_tidy ?_ | with_reducible refine reseed_tidy ?_ | with_reducible refine Tidy.foldl _ (fun _ _ _ => ?_) ?_ | with_reducible refine Tidy.ite (fun _ => ?_) (fun _ => ?_) | simp only [tidy_mk] | split | dsimp only)

theorem latchSample_tidy {Lp : List Instr} {s : State} (hk : Tidy Lp s) : Tidy Lp (latchSample s) := by
  unfold latchSample
  try dsimp only
  repeat' (first | with_reducible assumption | with_reducible refine State_drew_tidy ?_ | with_reducible refine Tidy.foldl _ (fun _ _ _ => ?_) ?_ | with_reducible refine Tidy.ite (fun _ => ?_) (fun _ => ?_) | simp only [tidy_mk] | split | dsimp only)

theorem latchDrift_tidy {Lp : List Instr} {n : Nat} {s : State} (hk : Tidy Lp s) : Tidy Lp (latchDrift n s) := by
  unfold latchDrift
  try dsimp only
  repeat' (first | with_reducible assumption | with_reducible refine State_drew_tidy ?_ | with_reducible refine Tidy.foldl _ (fun _ _ _ => ?_) ?_ | with_reducible refine Tidy.ite (fun _ => ?_) (fun _ => ?_) | simp only [tidy_mk] | split | dsimp only)

theorem latchTick_tidy {Lp : List Instr} {n : Nat} {s : State} (hk : Tidy Lp s) : Tidy Lp (latchTick n s) := by
  unfold latchTick
  try dsimp only
  repeat' (first | with_reducible assumption | with_reducible refine latchDrift_tidy ?_ | with_reducible refine latchSample_tidy ?_ | with_reducible refine Tidy.foldl _ (fun _ _ _ => ?_) ?_ | with_reducible refine Tidy.ite (fun _ => ?_) (fun _ => ?_) | simp only [tidy_mk] | split | dsimp only)

theorem latchRestart_tidy {Lp : List Instr} {s : State} (hk : Tidy Lp s) : Tidy Lp (latchRestart s) := by
  unfold latchRestart
  try dsimp only
  repeat' (first | with_reducible assumption | with_reducible refine Tidy.foldl _ (fun _ _ _ => ?_) ?_ | with_reducible refine Tidy.ite (fun _ => ?_) (fun _ => ?_) | simp only [tidy_mk] | split | dsimp only)

theorem rngHealth_tidy {Lp : List Instr} {alive notLocked : Nat} {s : State} (hk : Tidy Lp s) : Tidy Lp (rngHealth alive notLocked s) := by
  unfold rngHealth
  try dsimp only
  repeat' (first | with_reducible assumption | with_reducible refine State_raise_tidy ?_ | with_reducible refine Tidy.foldl _ (fun _ _ _ => ?_) ?_ | with_reducible refine Tidy.ite (fun _ => ?_) (fun _ => ?_) | simp only [tidy_mk] | split | dsimp only)

theorem rngTakeDone_tidy {Lp : List Instr} {s : State} (hk : Tidy Lp s) : Tidy Lp (rngTakeDone s).2 := by
  unfold rngTakeDone
  try dsimp only
  repeat' (first | with_reducible assumption | with_reducible refine State_unline_tidy ?_ | with_reducible refine Tidy.foldl _ (fun _ _ _ => ?_) ?_ | with_reducible refine Tidy.ite (fun _ => ?_) (fun _ => ?_) | simp only [tidy_mk] | split | dsimp only)

theorem rngTakeDone_pair {Lp : List Instr} {s : State} {x} {t : State} (e : rngTakeDone s = (x, t)) (hk : Tidy Lp s) : Tidy Lp t := by
  have h : Tidy Lp (rngTakeDone s).2 := rngTakeDone_tidy hk
  rw [e] at h; exact h

theorem rngEndAll_tidy {Lp : List Instr} {s : State} (hk : Tidy Lp s) : Tidy Lp (rngEndAll s) := by
  unfold rngEndAll
  try dsimp only
  repeat' (first | with_reducible assumption | with_reducible refine State_line_tidy ?_ | with_reducible refine Tidy.foldl _ (fun _ _ _ => ?_) ?_ | with_reducible refine Tidy.ite (fun _ => ?_) (fun _ => ?_) | simp only [tidy_mk] | split | dsimp only)

theorem rngRestart_tidy {Lp : List Instr} {s : State} (hk : Tidy Lp s) : Tidy Lp (rngRestart s) := by
  unfold rngRestart
  try dsimp only
  repeat' (first | with_reducible assumption | with_reducible refine rngEndAll_tidy ?_ | with_reducible refine Tidy.foldl _ (fun _ _ _ => ?_) ?_ | with_reducible refine Tidy.ite (fun _ => ?_) (fun _ => ?_) | simp only [tidy_mk] | split | dsimp only)

theorem drbgFault_tidy {Lp : List Instr} {s : State} (hk : Tidy Lp s) : Tidy Lp (drbgFault s) := by
  unfold drbgFault
  try dsimp only
  repeat' (first | with_reducible assumption | with_reducible refine State_raise_tidy ?_ | with_reducible refine Tidy.foldl _ (fun _ _ _ => ?_) ?_ | with_reducible refine Tidy.ite (fun _ => ?_) (fun _ => ?_) | simp only [tidy_mk] | split | dsimp only)

theorem State_setPkeUnit_tidy {Lp : List Instr} {s : State} {u : Nat} {j : Option PkeJob} (hk : Tidy Lp s) : Tidy Lp (State.setPkeUnit s u j) := by
  unfold State.setPkeUnit
  try dsimp only
  repeat' (first | with_reducible assumption | with_reducible refine Tidy.foldl _ (fun _ _ _ => ?_) ?_ | with_reducible refine Tidy.ite (fun _ => ?_) (fun _ => ?_) | simp only [tidy_mk] | split | dsimp only)

theorem enterRing_tidy {Lp : List Instr} {s : State} {j : PkeJob} (hk : Tidy Lp s) : Tidy Lp (enterRing s j) := by
  unfold enterRing
  try dsimp only
  repeat' (first | with_reducible assumption | with_reducible refine Tidy.foldl _ (fun _ _ _ => ?_) ?_ | with_reducible refine Tidy.ite (fun _ => ?_) (fun _ => ?_) | simp only [tidy_mk] | split | dsimp only)

theorem pushJob_tidy {Lp : List Instr} {p : PkeParams} {input : List Byte} {outLen : Nat} {key : Option Nat} {s : State} (hk : Tidy Lp s) : Tidy Lp (pushJob p input outLen key s).2 := by
  unfold pushJob
  try dsimp only
  repeat' (first | with_reducible assumption | with_reducible refine enterRing_tidy ?_ | with_reducible refine Tidy.foldl _ (fun _ _ _ => ?_) ?_ | with_reducible refine Tidy.ite (fun _ => ?_) (fun _ => ?_) | simp only [tidy_mk] | split | dsimp only)

theorem pushJob_pair {Lp : List Instr} {p : PkeParams} {input : List Byte} {outLen : Nat} {key : Option Nat} {s : State} {x} {t : State} (e : pushJob p input outLen key s = (x, t)) (hk : Tidy Lp s) : Tidy Lp t := by
  have h : Tidy Lp (pushJob p input outLen key s).2 := pushJob_tidy hk
  rw [e] at h; exact h

theorem releaseOne_tidy {Lp : List Instr} {s : State} {j : PkeJob} (hk : Tidy Lp s) : Tidy Lp (releaseOne s j) := by
  unfold releaseOne
  try dsimp only
  repeat' (first | with_reducible assumption | with_reducible refine enterRing_tidy ?_ | with_reducible refine Tidy.foldl _ (fun _ _ _ => ?_) ?_ | with_reducible refine Tidy.ite (fun _ => ?_) (fun _ => ?_) | simp only [tidy_mk] | split | dsimp only)

theorem releaseHeld_tidy {Lp : List Instr} {s : State} (hk : Tidy Lp s) : Tidy Lp (releaseHeld s) := by
  unfold releaseHeld
  try dsimp only
  repeat' (first | with_reducible assumption | with_reducible refine releaseOne_tidy ?_ | with_reducible refine Tidy.foldl _ (fun _ _ _ => ?_) ?_ | with_reducible refine Tidy.ite (fun _ => ?_) (fun _ => ?_) | simp only [tidy_mk] | split | dsimp only)

theorem pushSign_tidy {Lp : List Instr} {alg key : Nat} {message : List Byte} {s : State} (hk : Tidy Lp s) : Tidy Lp (pushSign alg key message s) := by
  unfold pushSign
  try dsimp only
  repeat' (first | with_reducible assumption | with_reducible refine State_waitOn_tidy ?_ | with_reducible refine pushJob_tidy ?_ | with_reducible refine pushJob_pair (by with_reducible assumption) ?_ | with_reducible refine Tidy.foldl _ (fun _ _ _ => ?_) ?_ | with_reducible refine Tidy.ite (fun _ => ?_) (fun _ => ?_) | simp only [tidy_mk] | split | dsimp only)

theorem pushOwn_tidy {Lp : List Instr} {alg : Nat} {message : List Byte} {stage : OwnSign} {s : State} (hk : Tidy Lp s) : Tidy Lp (pushOwn alg message stage s) := by
  unfold pushOwn
  try dsimp only
  repeat' (first | with_reducible assumption | with_reducible refine pushJob_tidy ?_ | with_reducible refine pushJob_pair (by with_reducible assumption) ?_ | with_reducible refine Tidy.foldl _ (fun _ _ _ => ?_) ?_ | with_reducible refine Tidy.ite (fun _ => ?_) (fun _ => ?_) | simp only [tidy_mk] | split | dsimp only)

theorem ownEnd_tidy {Lp : List Instr} {j : PkeJob} {status : Nat} {s : State} (hk : Tidy Lp s) : Tidy Lp (ownEnd j status s) := by
  unfold ownEnd
  try dsimp only
  repeat' (first | with_reducible assumption | with_reducible refine pushOwn_tidy ?_ | with_reducible refine Tidy.foldl _ (fun _ _ _ => ?_) ?_ | with_reducible refine Tidy.ite (fun _ => ?_) (fun _ => ?_) | simp only [tidy_mk] | split | dsimp only)

theorem writeBack_tidy {Lp : List Instr} {addr status unit verdict reason done time : Nat} {s : State} (hk : Tidy Lp s) : Tidy Lp (writeBack addr status unit verdict reason done time s) := by
  unfold writeBack
  try dsimp only
  repeat' (first | with_reducible assumption | with_reducible refine State_dmaBytes_tidy ?_ | with_reducible refine State_line_tidy ?_ | with_reducible refine Tidy.foldl _ (fun _ _ _ => ?_) ?_ | with_reducible refine Tidy.ite (fun _ => ?_) (fun _ => ?_) | simp only [tidy_mk] | split | dsimp only)

theorem takeDescriptor_tidy {Lp : List Instr} {i : Nat} {s : State} (hk : Tidy Lp s) : Tidy Lp (takeDescriptor i s) := by
  unfold takeDescriptor
  try dsimp only
  repeat' (first | with_reducible assumption | with_reducible refine writeBack_tidy ?_ | with_reducible refine Tidy.foldl _ (fun _ _ _ => ?_) ?_ | with_reducible refine Tidy.ite (fun _ => ?_) (fun _ => ?_) | simp only [tidy_mk] | split | dsimp only)

theorem takeDescriptors_tidy {Lp : List Instr} {n i : Nat} {s : State} (hk : Tidy Lp s) : Tidy Lp (takeDescriptors n i s) := by
  induction n generalizing i s with
  | zero => exact hk
  | succ n ih => exact ih (takeDescriptor_tidy hk)

theorem ringTailWrite_tidy {Lp : List Instr} {v : Word} {s : State} (hk : Tidy Lp s) : Tidy Lp (ringTailWrite v s) := by
  unfold ringTailWrite
  try dsimp only
  repeat' (first | with_reducible assumption | with_reducible refine setStatusBits_tidy ?_ | with_reducible refine takeDescriptors_tidy ?_ | with_reducible refine Tidy.foldl _ (fun _ _ _ => ?_) ?_ | with_reducible refine Tidy.ite (fun _ => ?_) (fun _ => ?_) | simp only [tidy_mk] | split | dsimp only)

theorem askRandom_tidy {Lp : List Instr} {s : State} (hk : Tidy Lp s) : Tidy Lp (askRandom s) := by
  unfold askRandom
  try dsimp only
  repeat' (first | with_reducible assumption | with_reducible refine rngAsk_tidy ?_ | with_reducible refine rngAsk_pair (by with_reducible assumption) ?_ | with_reducible refine Tidy.foldl _ (fun _ _ _ => ?_) ?_ | with_reducible refine Tidy.ite (fun _ => ?_) (fun _ => ?_) | simp only [tidy_mk] | split | dsimp only)

theorem dispatch_tidy {Lp : List Instr} {s : State} (hk : Tidy Lp s) : Tidy Lp (dispatch s) := by
  unfold dispatch
  try dsimp only
  repeat' (first | with_reducible assumption | with_reducible refine State_passPoint_tidy ?_ | with_reducible refine State_setPkeUnit_tidy ?_ | with_reducible refine askRandom_tidy ?_ | with_reducible refine releaseHeld_tidy ?_ | with_reducible refine Tidy.foldl _ (fun _ _ _ => ?_) ?_ | with_reducible refine Tidy.ite (fun _ => ?_) (fun _ => ?_) | simp only [tidy_mk] | split | dsimp only)

theorem reportJob_tidy {Lp : List Instr} {j : PkeJob} {unit status : Nat} {s : State} (hk : Tidy Lp s) : Tidy Lp (reportJob j unit status s) := by
  unfold reportJob
  try dsimp only
  repeat' (first | with_reducible assumption | with_reducible refine State_dmaBytes_tidy ?_ | with_reducible refine State_drew_tidy ?_ | with_reducible refine State_waitOn_tidy ?_ | with_reducible refine completeOutput_tidy ?_ | with_reducible refine complete_tidy ?_ | with_reducible refine ownEnd_tidy ?_ | with_reducible refine pushSign_tidy ?_ | with_reducible refine writeBack_tidy ?_ | with_reducible refine Tidy.foldl _ (fun _ _ _ => ?_) ?_ | with_reducible refine Tidy.ite (fun _ => ?_) (fun _ => ?_) | simp only [tidy_mk] | split | dsimp only)

theorem rerunOrFence_tidy {Lp : List Instr} {u : Nat} {s : State} (hk : Tidy Lp s) : Tidy Lp (rerunOrFence u s) := by
  unfold rerunOrFence
  try dsimp only
  repeat' (first | with_reducible assumption | with_reducible refine State_setPkeUnit_tidy ?_ | with_reducible refine reportJob_tidy ?_ | with_reducible refine Tidy.foldl _ (fun _ _ _ => ?_) ?_ | with_reducible refine Tidy.ite (fun _ => ?_) (fun _ => ?_) | simp only [tidy_mk] | split | dsimp only)

theorem jobDone_tidy {Lp : List Instr} {u : Nat} {hw : PkeHw} {s : State} (hk : Tidy Lp s) : Tidy Lp (jobDone u hw s) := by
  unfold jobDone
  try dsimp only
  repeat' (first | with_reducible assumption | with_reducible refine State_addFence_tidy ?_ | with_reducible refine State_raiseAt_tidy ?_ | with_reducible refine State_setPkeUnit_tidy ?_ | with_reducible refine releaseHeld_tidy ?_ | with_reducible refine reportJob_tidy ?_ | with_reducible refine rerunOrFence_tidy ?_ | with_reducible refine Tidy.foldl _ (fun _ _ _ => ?_) ?_ | with_reducible refine Tidy.ite (fun _ => ?_) (fun _ => ?_) | simp only [tidy_mk] | split | dsimp only)

theorem keygenTimeout_tidy {Lp : List Instr} {u : Nat} {s : State} (hk : Tidy Lp s) : Tidy Lp (keygenTimeout u s) := by
  unfold keygenTimeout
  try dsimp only
  repeat' (first | with_reducible assumption | with_reducible refine State_setPkeUnit_tidy ?_ | with_reducible refine releaseHeld_tidy ?_ | with_reducible refine reportJob_tidy ?_ | with_reducible refine Tidy.foldl _ (fun _ _ _ => ?_) ?_ | with_reducible refine Tidy.ite (fun _ => ?_) (fun _ => ?_) | simp only [tidy_mk] | split | dsimp only)

theorem rngTimeoutOf_tidy {Lp : List Instr} {id : Nat} {s : State} (hk : Tidy Lp s) : Tidy Lp (rngTimeoutOf id s) := by
  unfold rngTimeoutOf
  try dsimp only
  repeat' (first | with_reducible assumption | with_reducible refine complete_tidy ?_ | with_reducible refine releaseHeld_tidy ?_ | with_reducible refine reportJob_tidy ?_ | with_reducible refine rngFinish_tidy ?_ | with_reducible refine rngWithdraw_tidy ?_ | with_reducible refine rngWithdraw_pair (by with_reducible assumption) ?_ | with_reducible refine Tidy.foldl _ (fun _ _ _ => ?_) ?_ | with_reducible refine Tidy.ite (fun _ => ?_) (fun _ => ?_) | simp only [tidy_mk] | split | dsimp only)

theorem stopJobs_tidy {Lp : List Instr} {sel : PkeJob → Bool} {status : Nat} {s : State} (hk : Tidy Lp s) : Tidy Lp (stopJobs sel status s) := by
  unfold stopJobs
  try dsimp only
  repeat' (first | with_reducible assumption | with_reducible refine releaseHeld_tidy ?_ | with_reducible refine writeBack_tidy ?_ | with_reducible refine Tidy.foldl _ (fun _ _ _ => ?_) ?_ | with_reducible refine Tidy.ite (fun _ => ?_) (fun _ => ?_) | simp only [tidy_mk] | split | dsimp only)

theorem State_setBank_tidy {Lp : List Instr} {s : State} {b : Nat} {f : FlashBank → FlashBank} (hk : Tidy Lp s) : Tidy Lp (State.setBank s b f) := by
  unfold State.setBank
  try dsimp only
  repeat' (first | with_reducible assumption | with_reducible refine Tidy.foldl _ (fun _ _ _ => ?_) ?_ | with_reducible refine Tidy.ite (fun _ => ?_) (fun _ => ?_) | simp only [tidy_mk] | split | dsimp only)

theorem flashEndOp_tidy {Lp : List Instr} {b result : Nat} {s : State} (hk : Tidy Lp s) : Tidy Lp (flashEndOp b result s) := by
  unfold flashEndOp
  try dsimp only
  repeat' (first | with_reducible assumption | with_reducible refine State_line_tidy ?_ | with_reducible refine State_setBank_tidy ?_ | with_reducible refine Tidy.foldl _ (fun _ _ _ => ?_) ?_ | with_reducible refine Tidy.ite (fun _ => ?_) (fun _ => ?_) | simp only [tidy_mk] | split | dsimp only)

theorem flashCommand_tidy {Lp : List Instr} {b op word : Nat} {data : DWord} {s : State} (hk : Tidy Lp s) : Tidy Lp (flashCommand b op word data s) := by
  unfold flashCommand
  try dsimp only
  repeat' (first | with_reducible assumption | with_reducible refine State_line_tidy ?_ | with_reducible refine State_raiseAt_tidy ?_ | with_reducible refine State_setBank_tidy ?_ | with_reducible refine Tidy.foldl _ (fun _ _ _ => ?_) ?_ | with_reducible refine Tidy.ite (fun _ => ?_) (fun _ => ?_) | simp only [tidy_mk] | split | dsimp only)

theorem flashRow_tidy {Lp : List Instr} {b op word : Nat} {data : DWord} {s : State} (hk : Tidy Lp s) : Tidy Lp (flashRow b op word data s) := by
  unfold flashRow
  try dsimp only
  repeat' (first | with_reducible assumption | with_reducible refine State_setBank_tidy ?_ | with_reducible refine State_setReg_tidy ?_ | with_reducible refine flashCommand_tidy ?_ | with_reducible refine Tidy.foldl _ (fun _ _ _ => ?_) ?_ | with_reducible refine Tidy.ite (fun _ => ?_) (fun _ => ?_) | simp only [tidy_mk] | split | dsimp only)

theorem eraseSector_tidy {Lp : List Instr} {b sec : Nat} {s : State} (hk : Tidy Lp s) : Tidy Lp (eraseSector b sec s) := by
  unfold eraseSector
  try dsimp only
  repeat' (first | with_reducible assumption | with_reducible refine State_clearMem_tidy ?_ | with_reducible refine State_setBank_tidy ?_ | with_reducible refine Tidy.foldl _ (fun _ _ _ => ?_) ?_ | with_reducible refine Tidy.ite (fun _ => ?_) (fun _ => ?_) | simp only [tidy_mk] | split | dsimp only)

theorem flashDone_tidy {Lp : List Instr} {b : Nat} {res : FlashEnd} {s : State} (hk : Tidy Lp s) : Tidy Lp (flashDone b res s) := by
  unfold flashDone
  try dsimp only
  repeat' (first | with_reducible assumption | with_reducible refine State_raiseAt_tidy ?_ | with_reducible refine State_raise_tidy ?_ | with_reducible refine State_setBank_tidy ?_ | with_reducible refine State_writeNat_tidy ?_ | with_reducible refine eraseSector_tidy ?_ | with_reducible refine flashEndOp_tidy ?_ | with_reducible refine Tidy.foldl _ (fun _ _ _ => ?_) ?_ | with_reducible refine Tidy.ite (fun _ => ?_) (fun _ => ?_) | simp only [tidy_mk] | split | dsimp only)

theorem suspendHonoured_tidy {Lp : List Instr} {b : Nat} {s : State} (hk : Tidy Lp s) : Tidy Lp (suspendHonoured b s) := by
  unfold suspendHonoured
  try dsimp only
  repeat' (first | with_reducible assumption | with_reducible refine State_line_tidy ?_ | with_reducible refine State_setBank_tidy ?_ | with_reducible refine Tidy.foldl _ (fun _ _ _ => ?_) ?_ | with_reducible refine Tidy.ite (fun _ => ?_) (fun _ => ?_) | simp only [tidy_mk] | split | dsimp only)

theorem pwEnd_tidy {Lp : List Instr} {result : Nat} {s : State} (hk : Tidy Lp s) : Tidy Lp (pwEnd result s) := by
  unfold pwEnd
  try dsimp only
  repeat' (first | with_reducible assumption | with_reducible refine Tidy.foldl _ (fun _ _ _ => ?_) ?_ | with_reducible refine Tidy.ite (fun _ => ?_) (fun _ => ?_) | simp only [tidy_mk] | split | dsimp only)

theorem pwClear_tidy {Lp : List Instr} {s : State} (hk : Tidy Lp s) : Tidy Lp (pwClear s) := by
  unfold pwClear
  try dsimp only
  repeat' (first | with_reducible assumption | with_reducible refine Tidy.foldl _ (fun _ _ _ => ?_) ?_ | with_reducible refine Tidy.ite (fun _ => ?_) (fun _ => ?_) | simp only [tidy_mk] | split | dsimp only)

theorem flashUnlock_tidy {Lp : List Instr} {pw : QWord} {s : State} (hk : Tidy Lp s) : Tidy Lp (flashUnlock pw s) := by
  unfold flashUnlock
  try dsimp only
  repeat' (first | with_reducible assumption | with_reducible refine State_raise_tidy ?_ | with_reducible refine pwClear_tidy ?_ | with_reducible refine pwEnd_tidy ?_ | with_reducible refine Tidy.foldl _ (fun _ _ _ => ?_) ?_ | with_reducible refine Tidy.ite (fun _ => ?_) (fun _ => ?_) | simp only [tidy_mk] | split | dsimp only)

theorem flashLock_tidy {Lp : List Instr} {s : State} (hk : Tidy Lp s) : Tidy Lp (flashLock s) := by
  unfold flashLock
  try dsimp only
  repeat' (first | with_reducible assumption | with_reducible refine pwClear_tidy ?_ | with_reducible refine pwEnd_tidy ?_ | with_reducible refine Tidy.foldl _ (fun _ _ _ => ?_) ?_ | with_reducible refine Tidy.ite (fun _ => ?_) (fun _ => ?_) | simp only [tidy_mk] | split | dsimp only)

theorem flashSetPassword_tidy {Lp : List Instr} {pw : QWord} {s : State} (hk : Tidy Lp s) : Tidy Lp (flashSetPassword pw s) := by
  unfold flashSetPassword
  try dsimp only
  repeat' (first | with_reducible assumption | with_reducible refine pwClear_tidy ?_ | with_reducible refine pwEnd_tidy ?_ | with_reducible refine Tidy.foldl _ (fun _ _ _ => ?_) ?_ | with_reducible refine Tidy.ite (fun _ => ?_) (fun _ => ?_) | simp only [tidy_mk] | split | dsimp only)

theorem passwordDone_tidy {Lp : List Instr} {s : State} (hk : Tidy Lp s) : Tidy Lp (passwordDone s) := by
  unfold passwordDone
  try dsimp only
  repeat' (first | with_reducible assumption | with_reducible refine pwEnd_tidy ?_ | with_reducible refine Tidy.foldl _ (fun _ _ _ => ?_) ?_ | with_reducible refine Tidy.ite (fun _ => ?_) (fun _ => ?_) | simp only [tidy_mk] | split | dsimp only)

theorem tornScan_tidy {Lp : List Instr} {s : State} (hk : Tidy Lp s) : Tidy Lp (tornScan s) := by
  unfold tornScan
  try dsimp only
  repeat' (first | with_reducible assumption | with_reducible refine State_raise_tidy ?_ | with_reducible refine Tidy.foldl _ (fun _ _ _ => ?_) ?_ | with_reducible refine Tidy.ite (fun _ => ?_) (fun _ => ?_) | simp only [tidy_mk] | split | dsimp only)

theorem bankInterrupt_tidy {Lp : List Instr} {b : Nat} {s : State} (hk : Tidy Lp s) : Tidy Lp (bankInterrupt b s) := by
  unfold bankInterrupt
  try dsimp only
  repeat' (first | with_reducible assumption | with_reducible refine State_setBank_tidy ?_ | with_reducible refine flashDone_tidy ?_ | with_reducible refine Tidy.foldl _ (fun _ _ _ => ?_) ?_ | with_reducible refine Tidy.ite (fun _ => ?_) (fun _ => ?_) | simp only [tidy_mk] | split | dsimp only)

theorem flashInterrupt_tidy {Lp : List Instr} {s : State} (hk : Tidy Lp s) : Tidy Lp (flashInterrupt s) := by
  unfold flashInterrupt
  try dsimp only
  repeat' (first | with_reducible assumption | with_reducible refine bankInterrupt_tidy ?_ | with_reducible refine passwordDone_tidy ?_ | with_reducible refine Tidy.foldl _ (fun _ _ _ => ?_) ?_ | with_reducible refine Tidy.ite (fun _ => ?_) (fun _ => ?_) | simp only [tidy_mk] | split | dsimp only)

theorem bankPowerLoss_tidy {Lp : List Instr} {b : Nat} {s : State} (hk : Tidy Lp s) : Tidy Lp (bankPowerLoss b s) := by
  unfold bankPowerLoss
  try dsimp only
  repeat' (first | with_reducible assumption | with_reducible refine State_drew_tidy ?_ | with_reducible refine State_setBank_tidy ?_ | with_reducible refine Tidy.foldl _ (fun _ _ _ => ?_) ?_ | with_reducible refine Tidy.ite (fun _ => ?_) (fun _ => ?_) | simp only [tidy_mk] | split | dsimp only)

theorem flashPowerLoss_tidy {Lp : List Instr} {s : State} (hk : Tidy Lp s) : Tidy Lp (flashPowerLoss s) := by
  unfold flashPowerLoss
  try dsimp only
  repeat' (first | with_reducible assumption | with_reducible refine State_drew_tidy ?_ | with_reducible refine bankPowerLoss_tidy ?_ | with_reducible refine Tidy.foldl _ (fun _ _ _ => ?_) ?_ | with_reducible refine Tidy.ite (fun _ => ?_) (fun _ => ?_) | simp only [tidy_mk] | split | dsimp only)

theorem flashReset_tidy {Lp : List Instr} {powerOn : Bool} {s : State} (hk : Tidy Lp s) : Tidy Lp (flashReset powerOn s) := by
  unfold flashReset
  try dsimp only
  repeat' (first | with_reducible assumption | with_reducible refine Tidy.foldl _ (fun _ _ _ => ?_) ?_ | with_reducible refine Tidy.ite (fun _ => ?_) (fun _ => ?_) | simp only [tidy_mk] | split | dsimp only)

theorem armTamper_tidy {Lp : List Instr} {m : BitVec 17} {s : State} (hk : Tidy Lp s) : Tidy Lp (armTamper m s) := by
  unfold armTamper
  try dsimp only
  repeat' (first | with_reducible assumption | with_reducible refine State_report_tidy ?_ | with_reducible refine Tidy.foldl _ (fun _ _ _ => ?_) ?_ | with_reducible refine Tidy.ite (fun _ => ?_) (fun _ => ?_) | simp only [tidy_mk] | split | dsimp only)

theorem armField_tidy {Lp : List Instr} {s : State} (hk : Tidy Lp s) : Tidy Lp (armField s) := by
  unfold armField
  try dsimp only
  repeat' (first | with_reducible assumption | with_reducible refine armTamper_tidy ?_ | with_reducible refine Tidy.foldl _ (fun _ _ _ => ?_) ?_ | with_reducible refine Tidy.ite (fun _ => ?_) (fun _ => ?_) | simp only [tidy_mk] | split | dsimp only)

theorem monitorAssert_tidy {Lp : List Instr} {k : Nat} {stays : Bool} {detail : Word} {s : State} (hk : Tidy Lp s) : Tidy Lp (monitorAssert k stays detail s) := by
  unfold monitorAssert
  try dsimp only
  repeat' (first | with_reducible assumption | with_reducible refine State_report_tidy ?_ | with_reducible refine Tidy.foldl _ (fun _ _ _ => ?_) ?_ | with_reducible refine Tidy.ite (fun _ => ?_) (fun _ => ?_) | simp only [tidy_mk] | split | dsimp only)

theorem cellAlarm_tidy {Lp : List Instr} {k : Nat} {stays : Bool} {s : State} (hk : Tidy Lp s) : Tidy Lp (cellAlarm k stays s) := by
  unfold cellAlarm
  try dsimp only
  repeat' (first | with_reducible assumption | with_reducible refine cellKiln_tidy ?_ | with_reducible refine Tidy.foldl _ (fun _ _ _ => ?_) ?_ | with_reducible refine Tidy.ite (fun _ => ?_) (fun _ => ?_) | simp only [tidy_mk] | split | dsimp only)

theorem stickyClear_tidy {Lp : List Instr} {v : BitVec 17} {s : State} (hk : Tidy Lp s) : Tidy Lp (stickyClear v s) := by
  unfold stickyClear
  try dsimp only
  repeat' (first | with_reducible assumption | with_reducible refine Tidy.foldl _ (fun _ _ _ => ?_) ?_ | with_reducible refine Tidy.ite (fun _ => ?_) (fun _ => ?_) | simp only [tidy_mk] | split | dsimp only)

theorem stickyWrite_tidy {Lp : List Instr} {v : Word} {s : State} (hk : Tidy Lp s) : Tidy Lp (stickyWrite v s) := by
  unfold stickyWrite
  try dsimp only
  repeat' (first | with_reducible assumption | with_reducible refine setStatusBits_tidy ?_ | with_reducible refine stickyClear_tidy ?_ | with_reducible refine Tidy.foldl _ (fun _ _ _ => ?_) ?_ | with_reducible refine Tidy.ite (fun _ => ?_) (fun _ => ?_) | simp only [tidy_mk] | split | dsimp only)

theorem rebuildCell_tidy {Lp : List Instr} {s : State} (hk : Tidy Lp s) : Tidy Lp (rebuildCell s) := by
  unfold rebuildCell
  try dsimp only
  repeat' (first | with_reducible assumption | with_reducible refine State_report_tidy ?_ | with_reducible refine stickyClear_tidy ?_ | with_reducible refine Tidy.foldl _ (fun _ _ _ => ?_) ?_ | with_reducible refine Tidy.ite (fun _ => ?_) (fun _ => ?_) | simp only [tidy_mk] | split | dsimp only)

theorem bistBegin_tidy {Lp : List Instr} {k : Nat} {s : State} (hk : Tidy Lp s) : Tidy Lp (bistBegin k s) := by
  unfold bistBegin
  try dsimp only
  repeat' (first | with_reducible assumption | with_reducible refine Tidy.foldl _ (fun _ _ _ => ?_) ?_ | with_reducible refine Tidy.ite (fun _ => ?_) (fun _ => ?_) | simp only [tidy_mk] | split | dsimp only)

theorem bistWrite_tidy {Lp : List Instr} {v : Word} {s : State} (hk : Tidy Lp s) : Tidy Lp (bistWrite v s) := by
  unfold bistWrite
  try dsimp only
  repeat' (first | with_reducible assumption | with_reducible refine bistBegin_tidy ?_ | with_reducible refine setStatusBits_tidy ?_ | with_reducible refine Tidy.foldl _ (fun _ _ _ => ?_) ?_ | with_reducible refine Tidy.ite (fun _ => ?_) (fun _ => ?_) | simp only [tidy_mk] | split | dsimp only)

theorem bistEnd_tidy {Lp : List Instr} {asserted still : Bool} {s : State} (hk : Tidy Lp s) : Tidy Lp (bistEnd asserted still s) := by
  unfold bistEnd
  try dsimp only
  repeat' (first | with_reducible assumption | with_reducible refine State_drew_tidy ?_ | with_reducible refine State_raise_tidy ?_ | with_reducible refine State_report_tidy ?_ | with_reducible refine complete_tidy ?_ | with_reducible refine Tidy.foldl _ (fun _ _ _ => ?_) ?_ | with_reducible refine Tidy.ite (fun _ => ?_) (fun _ => ?_) | simp only [tidy_mk] | split | dsimp only)

theorem calibrate_tidy {Lp : List Instr} {readings : List Word} {s : State} (hk : Tidy Lp s) : Tidy Lp (calibrate readings s) := by
  unfold calibrate
  try dsimp only
  repeat' (first | with_reducible assumption | with_reducible refine State_setReg_tidy ?_ | with_reducible refine Tidy.foldl _ (fun _ _ _ => ?_) ?_ | with_reducible refine Tidy.ite (fun _ => ?_) (fun _ => ?_) | simp only [tidy_mk] | split | dsimp only)

theorem countSplit_tidy {Lp : List Instr} {d : Nat} {s : State} (hk : Tidy Lp s) : Tidy Lp (countSplit d s) := by
  unfold countSplit
  try dsimp only
  repeat' (first | with_reducible assumption | with_reducible refine Tidy.foldl _ (fun _ _ _ => ?_) ?_ | with_reducible refine Tidy.ite (fun _ => ?_) (fun _ => ?_) | simp only [tidy_mk] | split | dsimp only)

theorem decisionSplit_tidy {Lp : List Instr} {d : Nat} {s : State} (hk : Tidy Lp s) : Tidy Lp (decisionSplit d s) := by
  unfold decisionSplit
  try dsimp only
  repeat' (first | with_reducible assumption | with_reducible refine State_raise_tidy ?_ | with_reducible refine countSplit_tidy ?_ | with_reducible refine Tidy.foldl _ (fun _ _ _ => ?_) ?_ | with_reducible refine Tidy.ite (fun _ => ?_) (fun _ => ?_) | simp only [tidy_mk] | split | dsimp only)

theorem backupLost_tidy {Lp : List Instr} {s : State} (hk : Tidy Lp s) : Tidy Lp (backupLost s) := by
  unfold backupLost
  try dsimp only
  repeat' (first | with_reducible assumption | with_reducible refine Tidy.foldl _ (fun _ _ _ => ?_) ?_ | with_reducible refine Tidy.ite (fun _ => ?_) (fun _ => ?_) | simp only [tidy_mk] | split | dsimp only)

end Sys2Proof.Laws
end

