-- ==== Sys2Proof/Laws/TidyField.lean ====
section
/-! SUPPORT. The queue and the memory form under restarts, the reader, the tag, the cards, the SPDM sessions. -/

namespace Sys2Proof.Laws

open Sys2Proof.Machine

theorem keepHeld_tidy {Lp : List Instr} {s : State} {h : Held} (hk : Tidy Lp s) : Tidy Lp (keepHeld s h) := by
  unfold keepHeld
  try dsimp only
  repeat' (first | with_reducible assumption | with_reducible refine hold_tidy ?_ | with_reducible refine unsolicited_tidy ?_ | with_reducible refine Tidy.foldl _ (fun _ _ _ => ?_) ?_ | with_reducible refine Tidy.ite (fun _ => ?_) (fun _ => ?_) | simp only [tidy_mk] | split | dsimp only)

theorem resetHeld_tidy {Lp : List Instr} {sel : Source → Bool} {s : State} (hk : Tidy Lp s) : Tidy Lp (resetHeld sel s) := by
  unfold resetHeld
  try dsimp only
  repeat' (first | with_reducible assumption | with_reducible refine keepHeld_tidy ?_ | with_reducible refine Tidy.foldl _ (fun _ _ _ => ?_) ?_ | with_reducible refine Tidy.ite (fun _ => ?_) (fun _ => ?_) | simp only [tidy_mk] | split | dsimp only)

theorem repostAll_tidy {Lp : List Instr} {s : State} (hk : Tidy Lp s) : Tidy Lp (repostAll s) := by
  unfold repostAll
  try dsimp only
  repeat' (first | with_reducible assumption | with_reducible refine hold_tidy ?_ | with_reducible refine Tidy.foldl _ (fun _ _ _ => ?_) ?_ | with_reducible refine Tidy.ite (fun _ => ?_) (fun _ => ?_) | simp only [tidy_mk] | split | dsimp only)

theorem boundaryOf_tidy {Lp : List Instr} {src : BitVec 16} {v : Option (Word × BitVec 16)} {cause from_ : Nat} {time : DWord} {s : State} (hk : Tidy Lp s) : Tidy Lp (boundaryOf src v cause from_ time s) := by
  unfold boundaryOf
  try dsimp only
  repeat' (first | with_reducible assumption | with_reducible refine boundary_tidy ?_ | with_reducible refine Tidy.foldl _ (fun _ _ _ => ?_) ?_ | with_reducible refine Tidy.ite (fun _ => ?_) (fun _ => ?_) | simp only [tidy_mk] | split | dsimp only)

theorem boundaries_tidy {Lp : List Instr} {slots : List QSlot} {cause from_ : Nat} {time : DWord} {s : State} (hk : Tidy Lp s) : Tidy Lp (boundaries slots cause from_ time s) := by
  unfold boundaries
  try dsimp only
  repeat' (first | with_reducible assumption | with_reducible refine boundaryOf_tidy ?_ | with_reducible refine Tidy.foldl _ (fun _ _ _ => ?_) ?_ | with_reducible refine Tidy.ite (fun _ => ?_) (fun _ => ?_) | simp only [tidy_mk] | split | dsimp only)

theorem failCastling_tidy {Lp : List Instr} {src : BitVec 16} {e : Word × BitVec 16} {s : State} (hk : Tidy Lp s) : Tidy Lp (failCastling src e s) := by
  unfold failCastling
  try dsimp only
  repeat' (first | with_reducible assumption | with_reducible refine append_tidy ?_ | with_reducible refine complete_tidy ?_ | with_reducible refine unsolicited_tidy ?_ | with_reducible refine Tidy.foldl _ (fun _ _ _ => ?_) ?_ | with_reducible refine Tidy.ite (fun _ => ?_) (fun _ => ?_) | simp only [tidy_mk] | split | dsimp only)

theorem loseStream_tidy {Lp : List Instr} {s : State} {m : OpenMark} (hk : Tidy Lp s) : Tidy Lp (loseStream s m) := by
  unfold loseStream
  try dsimp only
  repeat' (first | with_reducible assumption | with_reducible refine unsolicited_tidy ?_ | with_reducible refine Tidy.foldl _ (fun _ _ _ => ?_) ?_ | with_reducible refine Tidy.ite (fun _ => ?_) (fun _ => ?_) | simp only [tidy_mk] | split | dsimp only)

theorem castlingReports_tidy {Lp : List Instr} {skip : List (BitVec 16 × Word)} {s : State} (hk : Tidy Lp s) : Tidy Lp (castlingReports skip s) := by
  unfold castlingReports
  try dsimp only
  repeat' (first | with_reducible assumption | with_reducible refine boundaryOf_tidy ?_ | with_reducible refine failCastling_tidy ?_ | with_reducible refine loseStream_tidy ?_ | with_reducible refine repostAll_tidy ?_ | with_reducible refine Tidy.foldl _ (fun _ _ _ => ?_) ?_ | with_reducible refine Tidy.ite (fun _ => ?_) (fun _ => ?_) | simp only [tidy_mk] | split | dsimp only)

theorem ringEvent_tidy {Lp : List Instr} {e : RingEvent} {s : State} (hk : Tidy Lp s) : Tidy Lp (ringEvent e s) := by
  unfold ringEvent
  try dsimp only
  repeat' (first | with_reducible assumption | with_reducible refine State_line_tidy ?_ | with_reducible refine State_raise_tidy ?_ | with_reducible refine Tidy.foldl _ (fun _ _ _ => ?_) ?_ | with_reducible refine Tidy.ite (fun _ => ?_) (fun _ => ?_) | simp only [tidy_mk] | split | dsimp only)

theorem ringNote_tidy {Lp : List Instr} {k : EventKind} {obj : Nat} {s : State} (hk : Tidy Lp s) : Tidy Lp (ringNote k obj s) := by
  unfold ringNote
  try dsimp only
  repeat' (first | with_reducible assumption | with_reducible refine ringEvent_tidy ?_ | with_reducible refine Tidy.foldl _ (fun _ _ _ => ?_) ?_ | with_reducible refine Tidy.ite (fun _ => ?_) (fun _ => ?_) | simp only [tidy_mk] | split | dsimp only)

theorem shelfIbi_tidy {Lp : List Instr} {s : State} (hk : Tidy Lp s) : Tidy Lp (shelfIbi s) := by
  unfold shelfIbi
  try dsimp only
  repeat' (first | with_reducible assumption | with_reducible refine Tidy.foldl _ (fun _ _ _ => ?_) ?_ | with_reducible refine Tidy.ite (fun _ => ?_) (fun _ => ?_) | simp only [tidy_mk] | split | dsimp only)

theorem slotEventAt_tidy {Lp : List Instr} {code obj count : Nat} {time : DWord} {s : State} (hk : Tidy Lp s) : Tidy Lp (slotEventAt code obj count time s) := by
  unfold slotEventAt
  try dsimp only
  repeat' (first | with_reducible assumption | with_reducible refine postEvent_tidy ?_ | with_reducible refine ringEvent_tidy ?_ | with_reducible refine shelfIbi_tidy ?_ | with_reducible refine Tidy.foldl _ (fun _ _ _ => ?_) ?_ | with_reducible refine Tidy.ite (fun _ => ?_) (fun _ => ?_) | simp only [tidy_mk] | split | dsimp only)

theorem slotEvent_tidy {Lp : List Instr} {code obj count : Nat} {s : State} (hk : Tidy Lp s) : Tidy Lp (slotEvent code obj count s) := by
  unfold slotEvent
  try dsimp only
  repeat' (first | with_reducible assumption | with_reducible refine slotEventAt_tidy ?_ | with_reducible refine Tidy.foldl _ (fun _ _ _ => ?_) ?_ | with_reducible refine Tidy.ite (fun _ => ?_) (fun _ => ?_) | simp only [tidy_mk] | split | dsimp only)

theorem takeEvents_tidy {Lp : List Instr} {s : State} (hk : Tidy Lp s) : Tidy Lp (takeEvents s) := by
  unfold takeEvents
  try dsimp only
  repeat' (first | with_reducible assumption | with_reducible refine Tidy.foldl _ (fun _ _ _ => ?_) ?_ | with_reducible refine Tidy.ite (fun _ => ?_) (fun _ => ?_) | simp only [tidy_mk] | split | dsimp only)

theorem State_setFe_tidy {Lp : List Instr} {s : State} {n : Nat} {f : FrontEnd → FrontEnd} (hk : Tidy Lp s) : Tidy Lp (State.setFe s n f) := by
  unfold State.setFe
  try dsimp only
  repeat' (first | with_reducible assumption | with_reducible refine Tidy.foldl _ (fun _ _ _ => ?_) ?_ | with_reducible refine Tidy.ite (fun _ => ?_) (fun _ => ?_) | simp only [tidy_mk] | split | dsimp only)

theorem sendFrame_tidy {Lp : List Instr} {n : Nat} {s : State} (hk : Tidy Lp s) : Tidy Lp (sendFrame n s) := by
  unfold sendFrame
  try dsimp only
  repeat' (first | with_reducible assumption | with_reducible refine State_setFe_tidy ?_ | with_reducible refine Tidy.foldl _ (fun _ _ _ => ?_) ?_ | with_reducible refine Tidy.ite (fun _ => ?_) (fun _ => ?_) | simp only [tidy_mk] | split | dsimp only)

theorem setJob_tidy {Lp : List Instr} {n : Nat} {f : LabelJob → LabelJob} {s : State} (hk : Tidy Lp s) : Tidy Lp (setJob n f s) := by
  unfold setJob
  try dsimp only
  repeat' (first | with_reducible assumption | with_reducible refine State_setFe_tidy ?_ | with_reducible refine Tidy.foldl _ (fun _ _ _ => ?_) ?_ | with_reducible refine Tidy.ite (fun _ => ?_) (fun _ => ?_) | simp only [tidy_mk] | split | dsimp only)

theorem goOn_tidy {Lp : List Instr} {n : Nat} {f : LabelJob → LabelJob} {s : State} (hk : Tidy Lp s) : Tidy Lp (goOn n f s) := by
  unfold goOn
  try dsimp only
  repeat' (first | with_reducible assumption | with_reducible refine sendFrame_tidy ?_ | with_reducible refine setJob_tidy ?_ | with_reducible refine Tidy.foldl _ (fun _ _ _ => ?_) ?_ | with_reducible refine Tidy.ite (fun _ => ?_) (fun _ => ?_) | simp only [tidy_mk] | split | dsimp only)

theorem drivePort_tidy {Lp : List Instr} {n : Nat} {s : State} (hk : Tidy Lp s) : Tidy Lp (drivePort n s) := by
  unfold drivePort
  try dsimp only
  repeat' (first | with_reducible assumption | with_reducible refine State_setReg_tidy ?_ | with_reducible refine Tidy.foldl _ (fun _ _ _ => ?_) ?_ | with_reducible refine Tidy.ite (fun _ => ?_) (fun _ => ?_) | simp only [tidy_mk] | split | dsimp only)

theorem startLabel_tidy {Lp : List Instr} {n : Nat} {s : State} (hk : Tidy Lp s) : Tidy Lp (startLabel n s) := by
  unfold startLabel
  try dsimp only
  repeat' (first | with_reducible assumption | with_reducible refine drivePort_tidy ?_ | with_reducible refine sendFrame_tidy ?_ | with_reducible refine Tidy.foldl _ (fun _ _ _ => ?_) ?_ | with_reducible refine Tidy.ite (fun _ => ?_) (fun _ => ?_) | simp only [tidy_mk] | split | dsimp only)

theorem pushLabel_tidy {Lp : List Instr} {j : LabelJob} {s : State} (hk : Tidy Lp s) : Tidy Lp (pushLabel j s) := by
  unfold pushLabel
  try dsimp only
  repeat' (first | with_reducible assumption | with_reducible refine State_setFe_tidy ?_ | with_reducible refine startLabel_tidy ?_ | with_reducible refine Tidy.foldl _ (fun _ _ _ => ?_) ?_ | with_reducible refine Tidy.ite (fun _ => ?_) (fun _ => ?_) | simp only [tidy_mk] | split | dsimp only)

theorem popJob_tidy {Lp : List Instr} {n : Nat} {s : State} (hk : Tidy Lp s) : Tidy Lp (popJob n s) := by
  unfold popJob
  try dsimp only
  repeat' (first | with_reducible assumption | with_reducible refine State_mline_tidy ?_ | with_reducible refine State_setFe_tidy ?_ | with_reducible refine drivePort_tidy ?_ | with_reducible refine startLabel_tidy ?_ | with_reducible refine Tidy.foldl _ (fun _ _ _ => ?_) ?_ | with_reducible refine Tidy.ite (fun _ => ?_) (fun _ => ?_) | simp only [tidy_mk] | split | dsimp only)

theorem scanFinish_tidy {Lp : List Instr} {key : Nat} {s : State} (hk : Tidy Lp s) : Tidy Lp (scanFinish key s) := by
  unfold scanFinish
  try dsimp only
  repeat' (first | with_reducible assumption | with_reducible refine completeOutput_tidy ?_ | with_reducible refine Tidy.foldl _ (fun _ _ _ => ?_) ?_ | with_reducible refine Tidy.ite (fun _ => ?_) (fun _ => ?_) | simp only [tidy_mk] | split | dsimp only)

theorem scanPut_tidy {Lp : List Instr} {key port : Nat} {bytes : List Byte} {s : State} (hk : Tidy Lp s) : Tidy Lp (scanPut key port bytes s) := by
  unfold scanPut
  try dsimp only
  repeat' (first | with_reducible assumption | with_reducible refine scanFinish_tidy ?_ | with_reducible refine Tidy.foldl _ (fun _ _ _ => ?_) ?_ | with_reducible refine Tidy.ite (fun _ => ?_) (fun _ => ?_) | simp only [tidy_mk] | split | dsimp only)

theorem scanNone_tidy {Lp : List Instr} {key port : Nat} {skipped : Bool} {s : State} (hk : Tidy Lp s) : Tidy Lp (scanNone key port skipped s) := by
  unfold scanNone
  try dsimp only
  repeat' (first | with_reducible assumption | with_reducible refine scanPut_tidy ?_ | with_reducible refine Tidy.foldl _ (fun _ _ _ => ?_) ?_ | with_reducible refine Tidy.ite (fun _ => ?_) (fun _ => ?_) | simp only [tidy_mk] | split | dsimp only)

theorem endJob_tidy {Lp : List Instr} {early : Result} {skipped : Bool} {s : State} {j : LabelJob} (hk : Tidy Lp s) : Tidy Lp (endJob early skipped s j) := by
  unfold endJob
  try dsimp only
  repeat' (first | with_reducible assumption | with_reducible refine complete_tidy ?_ | with_reducible refine scanNone_tidy ?_ | with_reducible refine Tidy.foldl _ (fun _ _ _ => ?_) ?_ | with_reducible refine Tidy.ite (fun _ => ?_) (fun _ => ?_) | simp only [tidy_mk] | split | dsimp only)

theorem takeJobs_tidy {Lp : List Instr} {sel : LabelJob → Bool} {s : State} (hk : Tidy Lp s) : Tidy Lp (takeJobs sel s).2 := by
  unfold takeJobs
  try dsimp only
  repeat' (first | with_reducible assumption | with_reducible refine drivePort_tidy ?_ | with_reducible refine startLabel_tidy ?_ | with_reducible refine Tidy.foldl _ (fun _ _ _ => ?_) ?_ | with_reducible refine Tidy.ite (fun _ => ?_) (fun _ => ?_) | simp only [tidy_mk] | split | dsimp only)

theorem takeJobs_pair {Lp : List Instr} {sel : LabelJob → Bool} {s : State} {x} {t : State} (e : takeJobs sel s = (x, t)) (hk : Tidy Lp s) : Tidy Lp t := by
  have h : Tidy Lp (takeJobs sel s).2 := takeJobs_tidy hk
  rw [e] at h; exact h

theorem endJobs_tidy {Lp : List Instr} {early : Result} {skipped : Bool} {sel : LabelJob → Bool} {s : State} (hk : Tidy Lp s) : Tidy Lp (endJobs early skipped sel s) := by
  unfold endJobs
  try dsimp only
  repeat' (first | with_reducible assumption | with_reducible refine endJob_tidy ?_ | with_reducible refine takeJobs_tidy ?_ | with_reducible refine takeJobs_pair (by with_reducible assumption) ?_ | with_reducible refine Tidy.foldl _ (fun _ _ _ => ?_) ?_ | with_reducible refine Tidy.ite (fun _ => ?_) (fun _ => ?_) | simp only [tidy_mk] | split | dsimp only)

theorem frontEndFenced_tidy {Lp : List Instr} {n : Nat} {s : State} (hk : Tidy Lp s) : Tidy Lp (frontEndFenced n s) := by
  unfold frontEndFenced
  try dsimp only
  repeat' (first | with_reducible assumption | with_reducible refine endJobs_tidy ?_ | with_reducible refine Tidy.foldl _ (fun _ _ _ => ?_) ?_ | with_reducible refine Tidy.ite (fun _ => ?_) (fun _ => ?_) | simp only [tidy_mk] | split | dsimp only)

theorem dropLabelJob_tidy {Lp : List Instr} {key : Nat} {s : State} (hk : Tidy Lp s) : Tidy Lp (dropLabelJob key s) := by
  unfold dropLabelJob
  try dsimp only
  repeat' (first | with_reducible assumption | with_reducible refine takeJobs_tidy ?_ | with_reducible refine takeJobs_pair (by with_reducible assumption) ?_ | with_reducible refine Tidy.foldl _ (fun _ _ _ => ?_) ?_ | with_reducible refine Tidy.ite (fun _ => ?_) (fun _ => ?_) | simp only [tidy_mk] | split | dsimp only)

theorem dropLabelJobs_tidy {Lp : List Instr} {s : State} (hk : Tidy Lp s) : Tidy Lp (dropLabelJobs s) := by
  unfold dropLabelJobs
  try dsimp only
  repeat' (first | with_reducible assumption | with_reducible refine takeJobs_tidy ?_ | with_reducible refine takeJobs_pair (by with_reducible assumption) ?_ | with_reducible refine Tidy.foldl _ (fun _ _ _ => ?_) ?_ | with_reducible refine Tidy.ite (fun _ => ?_) (fun _ => ?_) | simp only [tidy_mk] | split | dsimp only)

theorem readerReset_tidy {Lp : List Instr} {s : State} (hk : Tidy Lp s) : Tidy Lp (readerReset s) := by
  unfold readerReset
  try dsimp only
  repeat' (first | with_reducible assumption | with_reducible refine complete_tidy ?_ | with_reducible refine dropLabelJobs_tidy ?_ | with_reducible refine Tidy.foldl _ (fun _ _ _ => ?_) ?_ | with_reducible refine Tidy.ite (fun _ => ?_) (fun _ => ?_) | simp only [tidy_mk] | split | dsimp only)

theorem finishJob_tidy {Lp : List Instr} {n : Nat} {r : Result} {s : State} (hk : Tidy Lp s) : Tidy Lp (finishJob n r s) := by
  unfold finishJob
  try dsimp only
  repeat' (first | with_reducible assumption | with_reducible refine complete_tidy ?_ | with_reducible refine popJob_tidy ?_ | with_reducible refine Tidy.foldl _ (fun _ _ _ => ?_) ?_ | with_reducible refine Tidy.ite (fun _ => ?_) (fun _ => ?_) | simp only [tidy_mk] | split | dsimp only)

theorem failJob_tidy {Lp : List Instr} {n : Nat} {r : Result} {s : State} (hk : Tidy Lp s) : Tidy Lp (failJob n r s) := by
  unfold failJob
  try dsimp only
  repeat' (first | with_reducible assumption | with_reducible refine finishJob_tidy ?_ | with_reducible refine popJob_tidy ?_ | with_reducible refine scanNone_tidy ?_ | with_reducible refine Tidy.foldl _ (fun _ _ _ => ?_) ?_ | with_reducible refine Tidy.ite (fun _ => ?_) (fun _ => ?_) | simp only [tidy_mk] | split | dsimp only)

theorem writeMissed_tidy {Lp : List Instr} {n : Nat} {j : LabelJob} {s : State} (hk : Tidy Lp s) : Tidy Lp (writeMissed n j s) := by
  unfold writeMissed
  try dsimp only
  repeat' (first | with_reducible assumption | with_reducible refine finishJob_tidy ?_ | with_reducible refine goOn_tidy ?_ | with_reducible refine Tidy.foldl _ (fun _ _ _ => ?_) ?_ | with_reducible refine Tidy.ite (fun _ => ?_) (fun _ => ?_) | simp only [tidy_mk] | split | dsimp only)

theorem writeWeak_tidy {Lp : List Instr} {n : Nat} {j : LabelJob} {s : State} (hk : Tidy Lp s) : Tidy Lp (writeWeak n j s) := by
  unfold writeWeak
  try dsimp only
  repeat' (first | with_reducible assumption | with_reducible refine finishJob_tidy ?_ | with_reducible refine goOn_tidy ?_ | with_reducible refine Tidy.foldl _ (fun _ _ _ => ?_) ?_ | with_reducible refine Tidy.ite (fun _ => ?_) (fun _ => ?_) | simp only [tidy_mk] | split | dsimp only)

theorem labelStatus_tidy {Lp : List Instr} {n : Nat} {j : LabelJob} {d : List Byte} {s : State} (hk : Tidy Lp s) : Tidy Lp (labelStatus n j d s) := by
  unfold labelStatus
  try dsimp only
  repeat' (first | with_reducible assumption | with_reducible refine State_passPoint_tidy ?_ | with_reducible refine finishJob_tidy ?_ | with_reducible refine goOn_tidy ?_ | with_reducible refine popJob_tidy ?_ | with_reducible refine scanPut_tidy ?_ | with_reducible refine Tidy.foldl _ (fun _ _ _ => ?_) ?_ | with_reducible refine Tidy.ite (fun _ => ?_) (fun _ => ?_) | simp only [tidy_mk] | split | dsimp only)

theorem labelStep_tidy {Lp : List Instr} {n : Nat} {j : LabelJob} {res : Nat} {d : List Byte} {s : State} (hk : Tidy Lp s) : Tidy Lp (labelStep n j res d s) := by
  unfold labelStep
  try dsimp only
  repeat' (first | with_reducible assumption | with_reducible refine State_drew_tidy ?_ | with_reducible refine State_raise_tidy ?_ | with_reducible refine completeOutput_tidy ?_ | with_reducible refine failJob_tidy ?_ | with_reducible refine finishJob_tidy ?_ | with_reducible refine goOn_tidy ?_ | with_reducible refine labelStatus_tidy ?_ | with_reducible refine popJob_tidy ?_ | with_reducible refine writeMissed_tidy ?_ | with_reducible refine writeWeak_tidy ?_ | with_reducible refine Tidy.foldl _ (fun _ _ _ => ?_) ?_ | with_reducible refine Tidy.ite (fun _ => ?_) (fun _ => ?_) | simp only [tidy_mk] | split | dsimp only)

theorem labelSilent_tidy {Lp : List Instr} {n : Nat} {s : State} (hk : Tidy Lp s) : Tidy Lp (labelSilent n s) := by
  unfold labelSilent
  try dsimp only
  repeat' (first | with_reducible assumption | with_reducible refine failJob_tidy ?_ | with_reducible refine finishJob_tidy ?_ | with_reducible refine goOn_tidy ?_ | with_reducible refine Tidy.foldl _ (fun _ _ _ => ?_) ?_ | with_reducible refine Tidy.ite (fun _ => ?_) (fun _ => ?_) | simp only [tidy_mk] | split | dsimp only)

theorem labelSelected_tidy {Lp : List Instr} {n : Nat} {j : LabelJob} {l : List (List Byte)} {s : State} (hk : Tidy Lp s) : Tidy Lp (labelSelected n j l s) := by
  unfold labelSelected
  try dsimp only
  repeat' (first | with_reducible assumption | with_reducible refine finishJob_tidy ?_ | with_reducible refine goOn_tidy ?_ | with_reducible refine Tidy.foldl _ (fun _ _ _ => ?_) ?_ | with_reducible refine Tidy.ite (fun _ => ?_) (fun _ => ?_) | simp only [tidy_mk] | split | dsimp only)

theorem labelResponse_tidy {Lp : List Instr} {n : Nat} {b : List Byte} {s : State} (hk : Tidy Lp s) : Tidy Lp (labelResponse n b s) := by
  unfold labelResponse
  try dsimp only
  repeat' (first | with_reducible assumption | with_reducible refine State_raise_tidy ?_ | with_reducible refine State_setFe_tidy ?_ | with_reducible refine failJob_tidy ?_ | with_reducible refine labelSelected_tidy ?_ | with_reducible refine labelSilent_tidy ?_ | with_reducible refine labelStep_tidy ?_ | with_reducible refine setJob_tidy ?_ | with_reducible refine Tidy.foldl _ (fun _ _ _ => ?_) ?_ | with_reducible refine Tidy.ite (fun _ => ?_) (fun _ => ?_) | simp only [tidy_mk] | split | dsimp only)

theorem slotScan_tidy {Lp : List Instr} {key : Nat} {src : Source} {e : Entry} {s : State} (hk : Tidy Lp s) : Tidy Lp (slotScan key src e s) := by
  unfold slotScan
  try dsimp only
  repeat' (first | with_reducible assumption | with_reducible refine State_waitOn_tidy ?_ | with_reducible refine complete_tidy ?_ | with_reducible refine pushLabel_tidy ?_ | with_reducible refine scanNone_tidy ?_ | with_reducible refine Tidy.foldl _ (fun _ _ _ => ?_) ?_ | with_reducible refine Tidy.ite (fun _ => ?_) (fun _ => ?_) | simp only [tidy_mk] | split | dsimp only)

theorem labelCommand_tidy {Lp : List Instr} {write : Bool} {key : Nat} {src : Source} {e : Entry} {s : State} (hk : Tidy Lp s) : Tidy Lp (labelCommand write key src e s) := by
  unfold labelCommand
  try dsimp only
  repeat' (first | with_reducible assumption | with_reducible refine State_waitOn_tidy ?_ | with_reducible refine complete_tidy ?_ | with_reducible refine pushLabel_tidy ?_ | with_reducible refine Tidy.foldl _ (fun _ _ _ => ?_) ?_ | with_reducible refine Tidy.ite (fun _ => ?_) (fun _ => ?_) | simp only [tidy_mk] | split | dsimp only)

theorem slotEvents_tidy {Lp : List Instr} {key : Nat} {src : Source} {e : Entry} {s : State} (hk : Tidy Lp s) : Tidy Lp (slotEvents key src e s) := by
  unfold slotEvents
  try dsimp only
  repeat' (first | with_reducible assumption | with_reducible refine complete_tidy ?_ | with_reducible refine writeOutput_eq (by with_reducible assumption) ?_ | with_reducible refine Tidy.foldl _ (fun _ _ _ => ?_) ?_ | with_reducible refine Tidy.ite (fun _ => ?_) (fun _ => ?_) | simp only [tidy_mk] | split | dsimp only)

theorem postRequest_tidy {Lp : List Instr} {key : Nat} {s : State} (hk : Tidy Lp s) : Tidy Lp (postRequest key s) := by
  unfold postRequest
  try dsimp only
  repeat' (first | with_reducible assumption | with_reducible refine State_raise_tidy ?_ | with_reducible refine State_waitOn_tidy ?_ | with_reducible refine Tidy.foldl _ (fun _ _ _ => ?_) ?_ | with_reducible refine Tidy.ite (fun _ => ?_) (fun _ => ?_) | simp only [tidy_mk] | split | dsimp only)

theorem dropRequest_tidy {Lp : List Instr} {key : Nat} {s : State} (hk : Tidy Lp s) : Tidy Lp (dropRequest key s) := by
  unfold dropRequest
  try dsimp only
  repeat' (first | with_reducible assumption | with_reducible refine Tidy.foldl _ (fun _ _ _ => ?_) ?_ | with_reducible refine Tidy.ite (fun _ => ?_) (fun _ => ?_) | simp only [tidy_mk] | split | dsimp only)

theorem State_setTag_tidy {Lp : List Instr} {s : State} {f : Tag → Tag} (hk : Tidy Lp s) : Tidy Lp (State.setTag s f) := by
  unfold State.setTag
  try dsimp only
  repeat' (first | with_reducible assumption | with_reducible refine Tidy.foldl _ (fun _ _ _ => ?_) ?_ | with_reducible refine Tidy.ite (fun _ => ?_) (fun _ => ?_) | simp only [tidy_mk] | split | dsimp only)

theorem writeWords_tidy {Lp : List Instr} {page : Nat} {bs : List Byte} {n : Nat} {s : State} (hk : Tidy Lp s) : Tidy Lp (writeWords page bs n s) := by
  unfold writeWords
  try dsimp only
  repeat' (first | with_reducible assumption | with_reducible refine State_writeBytes_tidy ?_ | with_reducible refine Tidy.foldl _ (fun _ _ _ => ?_) ?_ | with_reducible refine Tidy.ite (fun _ => ?_) (fun _ => ?_) | simp only [tidy_mk] | split | dsimp only)

theorem tagReqa_tidy {Lp : List Instr} {wake : Bool} {s : State} (hk : Tidy Lp s) : Tidy Lp (tagReqa wake s) := by
  unfold tagReqa
  try dsimp only
  repeat' (first | with_reducible assumption | with_reducible refine State_setTag_tidy ?_ | with_reducible refine Tidy.foldl _ (fun _ _ _ => ?_) ?_ | with_reducible refine Tidy.ite (fun _ => ?_) (fun _ => ?_) | simp only [tidy_mk] | split | dsimp only)

theorem tagHlta_tidy {Lp : List Instr} {s : State} (hk : Tidy Lp s) : Tidy Lp (tagHlta s) := by
  unfold tagHlta
  try dsimp only
  repeat' (first | with_reducible assumption | with_reducible refine State_endSession_tidy ?_ | with_reducible refine State_setTag_tidy ?_ | with_reducible refine Tidy.foldl _ (fun _ _ _ => ?_) ?_ | with_reducible refine Tidy.ite (fun _ => ?_) (fun _ => ?_) | simp only [tidy_mk] | split | dsimp only)

theorem tagSelect_tidy {Lp : List Instr} {uid : List Byte} {s : State} (hk : Tidy Lp s) : Tidy Lp (tagSelect uid s) := by
  unfold tagSelect
  try dsimp only
  repeat' (first | with_reducible assumption | with_reducible refine State_setTag_tidy ?_ | with_reducible refine Tidy.foldl _ (fun _ _ _ => ?_) ?_ | with_reducible refine Tidy.ite (fun _ => ?_) (fun _ => ?_) | simp only [tidy_mk] | split | dsimp only)

theorem tagRespond_tidy {Lp : List Instr} {res : Nat} {d : List Byte} {s : State} (hk : Tidy Lp s) : Tidy Lp (tagRespond res d s) := by
  unfold tagRespond
  try dsimp only
  repeat' (first | with_reducible assumption | with_reducible refine State_setTag_tidy ?_ | with_reducible refine Tidy.foldl _ (fun _ _ _ => ?_) ?_ | with_reducible refine Tidy.ite (fun _ => ?_) (fun _ => ?_) | simp only [tidy_mk] | split | dsimp only)

theorem tagFrame_tidy {Lp : List Instr} {code : Nat} {params : List Byte} {own : Bool} {mac : Option DWord} {body : State → State} {s : State}
    (hb : ∀ {t}, Tidy Lp t → Tidy Lp (body t)) (hk : Tidy Lp s) : Tidy Lp (tagFrame code params own mac body s) := by
  unfold tagFrame
  dsimp only
  repeat' (first | with_reducible assumption | with_reducible refine State_setTag_tidy ?_ | with_reducible refine tagRespond_tidy ?_ | exact hb (State_setTag_tidy hk) | with_reducible refine Tidy.ite (fun _ => ?_) (fun _ => ?_) | split)

theorem fieldChange_tidy {Lp : List Instr} {code obj : Nat} {s : State} (hk : Tidy Lp s) : Tidy Lp (fieldChange code obj s) := by
  unfold fieldChange
  try dsimp only
  repeat' (first | with_reducible assumption | with_reducible refine State_mline_tidy ?_ | with_reducible refine State_setTag_tidy ?_ | with_reducible refine slotEvent_tidy ?_ | with_reducible refine Tidy.foldl _ (fun _ _ _ => ?_) ?_ | with_reducible refine Tidy.ite (fun _ => ?_) (fun _ => ?_) | simp only [tidy_mk] | split | dsimp only)

theorem tagReadBlock_tidy {Lp : List Instr} {block count : Nat} {s : State} (hk : Tidy Lp s) : Tidy Lp (tagReadBlock block count s) := by
  unfold tagReadBlock
  try dsimp only
  repeat' (first | with_reducible assumption | with_reducible refine tagRespond_tidy ?_ | with_reducible refine Tidy.foldl _ (fun _ _ _ => ?_) ?_ | with_reducible refine Tidy.ite (fun _ => ?_) (fun _ => ?_) | simp only [tidy_mk] | split | dsimp only)

theorem copyBack_tidy {Lp : List Instr} {supply : List Nat} {s : State} (hk : Tidy Lp s) : Tidy Lp (copyBack supply s).1 := by
  unfold copyBack
  try dsimp only
  repeat' (first | with_reducible assumption | with_reducible refine writeWords_tidy ?_ | with_reducible refine Tidy.foldl _ (fun _ _ _ => ?_) ?_ | with_reducible refine Tidy.ite (fun _ => ?_) (fun _ => ?_) | simp only [tidy_mk] | split | dsimp only)

theorem copyBack_pair {Lp : List Instr} {supply : List Nat} {s : State} {x} {t : State} (e : copyBack supply s = (t, x)) (hk : Tidy Lp s) : Tidy Lp t := by
  have h : Tidy Lp (copyBack supply s).1 := copyBack_tidy hk
  rw [e] at h; exact h

theorem shadowCommit_tidy {Lp : List Instr} {page : Nat} {img : List Byte} {supply : List Nat} {s : State} (hk : Tidy Lp s) : Tidy Lp (shadowCommit page img supply s).1 := by
  unfold shadowCommit
  try dsimp only
  repeat' (first | with_reducible assumption | with_reducible refine State_writeNat_tidy ?_ | with_reducible refine writeWords_tidy ?_ | with_reducible refine Tidy.foldl _ (fun _ _ _ => ?_) ?_ | with_reducible refine Tidy.ite (fun _ => ?_) (fun _ => ?_) | simp only [tidy_mk] | split | dsimp only)

theorem shadowCommit_pair {Lp : List Instr} {page : Nat} {img : List Byte} {supply : List Nat} {s : State} {x} {t : State} (e : shadowCommit page img supply s = (t, x)) (hk : Tidy Lp s) : Tidy Lp t := by
  have h : Tidy Lp (shadowCommit page img supply s).1 := shadowCommit_tidy hk
  rw [e] at h; exact h

theorem weakAnswer_tidy {Lp : List Instr} {checking : Bool} {w : Writing} {s : State} (hk : Tidy Lp s) : Tidy Lp (weakAnswer checking w s) := by
  unfold weakAnswer
  try dsimp only
  repeat' (first | with_reducible assumption | with_reducible refine State_setTag_tidy ?_ | with_reducible refine tagRespond_tidy ?_ | with_reducible refine Tidy.foldl _ (fun _ _ _ => ?_) ?_ | with_reducible refine Tidy.ite (fun _ => ?_) (fun _ => ?_) | simp only [tidy_mk] | split | dsimp only)

theorem tagWriteBlock_tidy {Lp : List Instr} {block count : Nat} {data : List Byte} {supply : List Nat} {s : State} (hk : Tidy Lp s) : Tidy Lp (tagWriteBlock block count data supply s) := by
  unfold tagWriteBlock
  try dsimp only
  repeat' (first | with_reducible assumption | with_reducible refine State_setTag_tidy ?_ | with_reducible refine copyBack_tidy ?_ | with_reducible refine copyBack_pair (by with_reducible assumption) ?_ | with_reducible refine fieldChange_tidy ?_ | with_reducible refine shadowCommit_tidy ?_ | with_reducible refine shadowCommit_pair (by with_reducible assumption) ?_ | with_reducible refine tagRespond_tidy ?_ | with_reducible refine weakAnswer_tidy ?_ | with_reducible refine Tidy.foldl _ (fun _ _ _ => ?_) ?_ | with_reducible refine Tidy.ite (fun _ => ?_) (fun _ => ?_) | simp only [tidy_mk] | split | dsimp only)

theorem counterRepair_tidy {Lp : List Instr} {c : Nat} {s : State} (hk : Tidy Lp s) : Tidy Lp (counterRepair c s) := by
  unfold counterRepair
  try dsimp only
  repeat' (first | with_reducible assumption | with_reducible refine State_raise_tidy ?_ | with_reducible refine State_writeNat_tidy ?_ | with_reducible refine Tidy.foldl _ (fun _ _ _ => ?_) ?_ | with_reducible refine Tidy.ite (fun _ => ?_) (fun _ => ?_) | simp only [tidy_mk] | split | dsimp only)

theorem tagCounterRead_tidy {Lp : List Instr} {c : Nat} {s : State} (hk : Tidy Lp s) : Tidy Lp (tagCounterRead c s) := by
  unfold tagCounterRead
  try dsimp only
  repeat' (first | with_reducible assumption | with_reducible refine counterRepair_tidy ?_ | with_reducible refine tagRespond_tidy ?_ | with_reducible refine Tidy.foldl _ (fun _ _ _ => ?_) ?_ | with_reducible refine Tidy.ite (fun _ => ?_) (fun _ => ?_) | simp only [tidy_mk] | split | dsimp only)

theorem tagCounterInc_tidy {Lp : List Instr} {c inc : Nat} {supply : List Nat} {s : State} (hk : Tidy Lp s) : Tidy Lp (tagCounterInc c inc supply s) := by
  unfold tagCounterInc
  try dsimp only
  repeat' (first | with_reducible assumption | with_reducible refine State_setTag_tidy ?_ | with_reducible refine State_writeNat_tidy ?_ | with_reducible refine counterRepair_tidy ?_ | with_reducible refine fieldChange_tidy ?_ | with_reducible refine tagRespond_tidy ?_ | with_reducible refine Tidy.foldl _ (fun _ _ _ => ?_) ?_ | with_reducible refine Tidy.ite (fun _ => ?_) (fun _ => ?_) | simp only [tidy_mk] | split | dsimp only)

theorem tagQuiet_tidy {Lp : List Instr} {s : State} (hk : Tidy Lp s) : Tidy Lp (tagQuiet s) := by
  unfold tagQuiet
  try dsimp only
  repeat' (first | with_reducible assumption | with_reducible refine State_endSession_tidy ?_ | with_reducible refine State_setTag_tidy ?_ | with_reducible refine tagRespond_tidy ?_ | with_reducible refine Tidy.foldl _ (fun _ _ _ => ?_) ?_ | with_reducible refine Tidy.ite (fun _ => ?_) (fun _ => ?_) | simp only [tidy_mk] | split | dsimp only)

theorem tagStatus_tidy {Lp : List Instr} {supply : Nat} {s : State} (hk : Tidy Lp s) : Tidy Lp (tagStatus supply s) := by
  unfold tagStatus
  try dsimp only
  repeat' (first | with_reducible assumption | with_reducible refine State_setTag_tidy ?_ | with_reducible refine tagRespond_tidy ?_ | with_reducible refine Tidy.foldl _ (fun _ _ _ => ?_) ?_ | with_reducible refine Tidy.ite (fun _ => ?_) (fun _ => ?_) | simp only [tidy_mk] | split | dsimp only)

theorem tagAuth1_tidy {Lp : List Instr} {slot : Nat} {s : State} (hk : Tidy Lp s) : Tidy Lp (tagAuth1 slot s) := by
  unfold tagAuth1
  try dsimp only
  repeat' (first | with_reducible assumption | with_reducible refine State_drew_tidy ?_ | with_reducible refine State_endSession_tidy ?_ | with_reducible refine State_setTag_tidy ?_ | with_reducible refine tagRespond_tidy ?_ | with_reducible refine Tidy.foldl _ (fun _ _ _ => ?_) ?_ | with_reducible refine Tidy.ite (fun _ => ?_) (fun _ => ?_) | simp only [tidy_mk] | split | dsimp only)

theorem tagAuthFail_tidy {Lp : List Instr} {slot : Nat} {s : State} (hk : Tidy Lp s) : Tidy Lp (tagAuthFail slot s) := by
  unfold tagAuthFail
  try dsimp only
  repeat' (first | with_reducible assumption | with_reducible refine State_raise_tidy ?_ | with_reducible refine State_setTag_tidy ?_ | with_reducible refine slotEvent_tidy ?_ | with_reducible refine tagRespond_tidy ?_ | with_reducible refine Tidy.foldl _ (fun _ _ _ => ?_) ?_ | with_reducible refine Tidy.ite (fun _ => ?_) (fun _ => ?_) | simp only [tidy_mk] | split | dsimp only)

theorem tagAuth2_tidy {Lp : List Instr} {token : List Byte} {s : State} (hk : Tidy Lp s) : Tidy Lp (tagAuth2 token s) := by
  unfold tagAuth2
  try dsimp only
  repeat' (first | with_reducible assumption | with_reducible refine State_setTag_tidy ?_ | with_reducible refine tagAuthFail_tidy ?_ | with_reducible refine tagRespond_tidy ?_ | with_reducible refine Tidy.foldl _ (fun _ _ _ => ?_) ?_ | with_reducible refine Tidy.ite (fun _ => ?_) (fun _ => ?_) | simp only [tidy_mk] | split | dsimp only)

theorem tagRate_tidy {Lp : List Instr} {code : Nat} {s : State} (hk : Tidy Lp s) : Tidy Lp (tagRate code s) := by
  unfold tagRate
  try dsimp only
  repeat' (first | with_reducible assumption | with_reducible refine State_setTag_tidy ?_ | with_reducible refine tagRespond_tidy ?_ | with_reducible refine Tidy.foldl _ (fun _ _ _ => ?_) ?_ | with_reducible refine Tidy.ite (fun _ => ?_) (fun _ => ?_) | simp only [tidy_mk] | split | dsimp only)

theorem tagFetch_tidy {Lp : List Instr} {s : State} (hk : Tidy Lp s) : Tidy Lp (tagFetch s) := by
  unfold tagFetch
  try dsimp only
  repeat' (first | with_reducible assumption | with_reducible refine State_setTag_tidy ?_ | with_reducible refine postMark_tidy ?_ | with_reducible refine tagRespond_tidy ?_ | with_reducible refine Tidy.foldl _ (fun _ _ _ => ?_) ?_ | with_reducible refine Tidy.ite (fun _ => ?_) (fun _ => ?_) | simp only [tidy_mk] | split | dsimp only)

theorem tagOut_tidy {Lp : List Instr} {off n : Nat} {s : State} (hk : Tidy Lp s) : Tidy Lp (tagOut off n s) := by
  unfold tagOut
  try dsimp only
  repeat' (first | with_reducible assumption | with_reducible refine tagRespond_tidy ?_ | with_reducible refine Tidy.foldl _ (fun _ _ _ => ?_) ?_ | with_reducible refine Tidy.ite (fun _ => ?_) (fun _ => ?_) | simp only [tidy_mk] | split | dsimp only)

theorem tagLockoutEnd_tidy {Lp : List Instr} {s : State} (hk : Tidy Lp s) : Tidy Lp (tagLockoutEnd s) := by
  unfold tagLockoutEnd
  try dsimp only
  repeat' (first | with_reducible assumption | with_reducible refine State_setTag_tidy ?_ | with_reducible refine Tidy.foldl _ (fun _ _ _ => ?_) ?_ | with_reducible refine Tidy.ite (fun _ => ?_) (fun _ => ?_) | simp only [tidy_mk] | split | dsimp only)

theorem tagCopyBack_tidy {Lp : List Instr} {supply : List Nat} {s : State} (hk : Tidy Lp s) : Tidy Lp (tagCopyBack supply s) := by
  unfold tagCopyBack
  try dsimp only
  repeat' (first | with_reducible assumption | with_reducible refine State_setTag_tidy ?_ | with_reducible refine copyBack_tidy ?_ | with_reducible refine copyBack_pair (by with_reducible assumption) ?_ | with_reducible refine Tidy.foldl _ (fun _ _ _ => ?_) ?_ | with_reducible refine Tidy.ite (fun _ => ?_) (fun _ => ?_) | simp only [tidy_mk] | split | dsimp only)

theorem wiredStart_tidy {Lp : List Instr} {w : WiredOp} {s : State} (hk : Tidy Lp s) : Tidy Lp (wiredStart w s) := by
  unfold wiredStart
  try dsimp only
  repeat' (first | with_reducible assumption | with_reducible refine State_setTag_tidy ?_ | with_reducible refine Tidy.foldl _ (fun _ _ _ => ?_) ?_ | with_reducible refine Tidy.ite (fun _ => ?_) (fun _ => ?_) | simp only [tidy_mk] | split | dsimp only)

theorem setTagifData_tidy {Lp : List Instr} {bs : List Byte} {s : State} (hk : Tidy Lp s) : Tidy Lp (setTagifData bs s) := by
  unfold setTagifData
  try dsimp only
  repeat' (first | with_reducible assumption | with_reducible refine State_setReg_tidy ?_ | with_reducible refine Tidy.foldl _ (fun _ _ _ => ?_) ?_ | with_reducible refine Tidy.ite (fun _ => ?_) (fun _ => ?_) | simp only [tidy_mk] | split | dsimp only)

theorem wiredEffect_pair {Lp : List Instr} {w : WiredOp} {s : State} {x} {t : State} (e : wiredEffect w s = (t, x)) (hk : Tidy Lp s) : Tidy Lp t := by
  have h2 : ∀ (a b : List Nat), Tidy Lp (copyBack a (shadowCommit w.page w.data b (copyBack a s).1).1).1 :=
    fun _ _ => copyBack_tidy (shadowCommit_tidy (copyBack_tidy hk))
  unfold wiredEffect at e
  generalize List.replicate 8 2400 = a at e
  generalize List.replicate 9 2400 = b at e
  dsimp only at e
  repeat' split at e
  all_goals (injection e with e _; subst e)
  · exact setTagifData_tidy hk
  · exact hk
  · exact hk
  · exact setTagifData_tidy hk
  · exact h2 a b
  · exact State_writeBytes_tidy hk
  · exact setTagifData_tidy (State_writeBytes_tidy hk)
theorem wiredEffect_tidy {Lp : List Instr} {w : WiredOp} {s : State} (hk : Tidy Lp s) : Tidy Lp (wiredEffect w s).1 :=
  wiredEffect_pair (Prod.eta _).symm hk

theorem wiredEnd_tidy {Lp : List Instr} {res : Nat} {s : State} (hk : Tidy Lp s) : Tidy Lp (wiredEnd res s) := by
  unfold wiredEnd
  try dsimp only
  repeat' (first | with_reducible assumption | with_reducible refine State_mline_tidy ?_ | with_reducible refine State_setTag_tidy ?_ | with_reducible refine Tidy.foldl _ (fun _ _ _ => ?_) ?_ | with_reducible refine Tidy.ite (fun _ => ?_) (fun _ => ?_) | simp only [tidy_mk] | split | dsimp only)

theorem placardEnd_tidy {Lp : List Instr} {key res : Nat} {s : State} (hk : Tidy Lp s) : Tidy Lp (placardEnd key res s) := by
  unfold placardEnd
  try dsimp only
  repeat' (first | with_reducible assumption | with_reducible refine State_setTag_tidy ?_ | with_reducible refine complete_tidy ?_ | with_reducible refine Tidy.foldl _ (fun _ _ _ => ?_) ?_ | with_reducible refine Tidy.ite (fun _ => ?_) (fun _ => ?_) | simp only [tidy_mk] | split | dsimp only)

theorem tagifDone_tidy {Lp : List Instr} {s : State} (hk : Tidy Lp s) : Tidy Lp (tagifDone s) := by
  unfold tagifDone
  try dsimp only
  repeat' (first | with_reducible assumption | with_reducible refine State_passPoint_tidy ?_ | with_reducible refine placardEnd_tidy ?_ | with_reducible refine wiredEffect_tidy ?_ | with_reducible refine wiredEffect_pair (by with_reducible assumption) ?_ | with_reducible refine wiredEnd_tidy ?_ | with_reducible refine Tidy.foldl _ (fun _ _ _ => ?_) ?_ | with_reducible refine Tidy.ite (fun _ => ?_) (fun _ => ?_) | simp only [tidy_mk] | split | dsimp only)

theorem tagifTimeout_tidy {Lp : List Instr} {s : State} (hk : Tidy Lp s) : Tidy Lp (tagifTimeout s) := by
  unfold tagifTimeout
  try dsimp only
  repeat' (first | with_reducible assumption | with_reducible refine placardEnd_tidy ?_ | with_reducible refine wiredEnd_tidy ?_ | with_reducible refine Tidy.foldl _ (fun _ _ _ => ?_) ?_ | with_reducible refine Tidy.ite (fun _ => ?_) (fun _ => ?_) | simp only [tidy_mk] | split | dsimp only)

theorem placardWrite_tidy {Lp : List Instr} {key : Nat} {src : Source} {e : Entry} {s : State} (hk : Tidy Lp s) : Tidy Lp (placardWrite key src e s) := by
  unfold placardWrite
  try dsimp only
  repeat' (first | with_reducible assumption | with_reducible refine State_waitOn_tidy ?_ | with_reducible refine complete_tidy ?_ | with_reducible refine wiredStart_tidy ?_ | with_reducible refine Tidy.foldl _ (fun _ _ _ => ?_) ?_ | with_reducible refine Tidy.ite (fun _ => ?_) (fun _ => ?_) | simp only [tidy_mk] | split | dsimp only)

theorem dropWired_tidy {Lp : List Instr} {key : Nat} {s : State} (hk : Tidy Lp s) : Tidy Lp (dropWired key s) := by
  unfold dropWired
  try dsimp only
  repeat' (first | with_reducible assumption | with_reducible refine State_setTag_tidy ?_ | with_reducible refine Tidy.foldl _ (fun _ _ _ => ?_) ?_ | with_reducible refine Tidy.ite (fun _ => ?_) (fun _ => ?_) | simp only [tidy_mk] | split | dsimp only)

theorem tagPowerUp_tidy {Lp : List Instr} {s : State} (hk : Tidy Lp s) : Tidy Lp (tagPowerUp s) := by
  unfold tagPowerUp
  try dsimp only
  repeat' (first | with_reducible assumption | with_reducible refine State_raise_tidy ?_ | with_reducible refine copyBack_tidy ?_ | with_reducible refine copyBack_pair (by with_reducible assumption) ?_ | with_reducible refine Tidy.foldl _ (fun _ _ _ => ?_) ?_ | with_reducible refine Tidy.ite (fun _ => ?_) (fun _ => ?_) | simp only [tidy_mk] | split | dsimp only)

theorem tagReset_tidy {Lp : List Instr} {s : State} (hk : Tidy Lp s) : Tidy Lp (tagReset s) := by
  unfold tagReset
  try dsimp only
  repeat' (first | with_reducible assumption | with_reducible refine State_setTag_tidy ?_ | with_reducible refine Tidy.foldl _ (fun _ _ _ => ?_) ?_ | with_reducible refine Tidy.ite (fun _ => ?_) (fun _ => ?_) | simp only [tidy_mk] | split | dsimp only)

theorem State_setSlot_tidy {Lp : List Instr} {s : State} {n : Nat} {f : CardSlot → CardSlot} (hk : Tidy Lp s) : Tidy Lp (State.setSlot s n f) := by
  unfold State.setSlot
  try dsimp only
  repeat' (first | with_reducible assumption | with_reducible refine Tidy.foldl _ (fun _ _ _ => ?_) ?_ | with_reducible refine Tidy.ite (fun _ => ?_) (fun _ => ?_) | simp only [tidy_mk] | split | dsimp only)

theorem sendBlock_tidy {Lp : List Instr} {n : Nat} {pcb : Nat} {inf : List Byte} {s : State} (hk : Tidy Lp s) : Tidy Lp (sendBlock n pcb inf s) := by
  unfold sendBlock
  try dsimp only
  repeat' (first | with_reducible assumption | with_reducible refine State_setSlot_tidy ?_ | with_reducible refine Tidy.foldl _ (fun _ _ _ => ?_) ?_ | with_reducible refine Tidy.ite (fun _ => ?_) (fun _ => ?_) | simp only [tidy_mk] | split | dsimp only)

theorem slotDone_tidy {Lp : List Instr} {n res : Nat} {s : State} (hk : Tidy Lp s) : Tidy Lp (slotDone n res s) := by
  unfold slotDone
  try dsimp only
  repeat' (first | with_reducible assumption | with_reducible refine State_mline_tidy ?_ | with_reducible refine State_setSlot_tidy ?_ | with_reducible refine Tidy.foldl _ (fun _ _ _ => ?_) ?_ | with_reducible refine Tidy.ite (fun _ => ?_) (fun _ => ?_) | simp only [tidy_mk] | split | dsimp only)

theorem setEtu_tidy {Lp : List Instr} {n etu cwt : Nat} {s : State} (hk : Tidy Lp s) : Tidy Lp (setEtu n etu cwt s) := by
  unfold setEtu
  try dsimp only
  repeat' (first | with_reducible assumption | with_reducible refine State_setReg_tidy ?_ | with_reducible refine Tidy.foldl _ (fun _ _ _ => ?_) ?_ | with_reducible refine Tidy.ite (fun _ => ?_) (fun _ => ?_) | simp only [tidy_mk] | split | dsimp only)

theorem setBwt_tidy {Lp : List Instr} {n us : Nat} {s : State} (hk : Tidy Lp s) : Tidy Lp (setBwt n us s) := by
  unfold setBwt
  try dsimp only
  repeat' (first | with_reducible assumption | with_reducible refine State_setReg_tidy ?_ | with_reducible refine Tidy.foldl _ (fun _ _ _ => ?_) ?_ | with_reducible refine Tidy.ite (fun _ => ?_) (fun _ => ?_) | simp only [tidy_mk] | split | dsimp only)

theorem atrTiming_tidy {Lp : List Instr} {n : Nat} {s : State} (hk : Tidy Lp s) : Tidy Lp (atrTiming n s) := by
  unfold atrTiming
  try dsimp only
  repeat' (first | with_reducible assumption | with_reducible refine setEtu_tidy ?_ | with_reducible refine Tidy.foldl _ (fun _ _ _ => ?_) ?_ | with_reducible refine Tidy.ite (fun _ => ?_) (fun _ => ?_) | simp only [tidy_mk] | split | dsimp only)

theorem isoTiming_tidy {Lp : List Instr} {n etu : Nat} {a : Atr} {s : State} (hk : Tidy Lp s) : Tidy Lp (isoTiming n etu a s) := by
  unfold isoTiming
  try dsimp only
  repeat' (first | with_reducible assumption | with_reducible refine setBwt_tidy ?_ | with_reducible refine setEtu_tidy ?_ | with_reducible refine Tidy.foldl _ (fun _ _ _ => ?_) ?_ | with_reducible refine Tidy.ite (fun _ => ?_) (fun _ => ?_) | simp only [tidy_mk] | split | dsimp only)

theorem tokenTiming_tidy {Lp : List Instr} {n : Nat} {s : State} (hk : Tidy Lp s) : Tidy Lp (tokenTiming n s) := by
  unfold tokenTiming
  try dsimp only
  repeat' (first | with_reducible assumption | with_reducible refine setBwt_tidy ?_ | with_reducible refine setEtu_tidy ?_ | with_reducible refine Tidy.foldl _ (fun _ _ _ => ?_) ?_ | with_reducible refine Tidy.ite (fun _ => ?_) (fun _ => ?_) | simp only [tidy_mk] | split | dsimp only)

theorem activate_tidy {Lp : List Instr} {n cls : Nat} {s : State} (hk : Tidy Lp s) : Tidy Lp (activate n cls s) := by
  unfold activate
  try dsimp only
  repeat' (first | with_reducible assumption | with_reducible refine State_setSlot_tidy ?_ | with_reducible refine atrTiming_tidy ?_ | with_reducible refine Tidy.foldl _ (fun _ _ _ => ?_) ?_ | with_reducible refine Tidy.ite (fun _ => ?_) (fun _ => ?_) | simp only [tidy_mk] | split | dsimp only)

theorem deactivate_tidy {Lp : List Instr} {n : Nat} {s : State} (hk : Tidy Lp s) : Tidy Lp (deactivate n s) := by
  unfold deactivate
  try dsimp only
  repeat' (first | with_reducible assumption | with_reducible refine State_setSlot_tidy ?_ | with_reducible refine Tidy.foldl _ (fun _ _ _ => ?_) ?_ | with_reducible refine Tidy.ite (fun _ => ?_) (fun _ => ?_) | simp only [tidy_mk] | split | dsimp only)

theorem setCardJob_tidy {Lp : List Instr} {n : Nat} {f : CardJob → CardJob} {s : State} (hk : Tidy Lp s) : Tidy Lp (setCardJob n f s) := by
  unfold setCardJob
  try dsimp only
  repeat' (first | with_reducible assumption | with_reducible refine State_setSlot_tidy ?_ | with_reducible refine Tidy.foldl _ (fun _ _ _ => ?_) ?_ | with_reducible refine Tidy.ite (fun _ => ?_) (fun _ => ?_) | simp only [tidy_mk] | split | dsimp only)

theorem cardCommitted_tidy {Lp : List Instr} {n : Nat} {j : CardJob} {s : State} (hk : Tidy Lp s) : Tidy Lp (cardCommitted n j s) := by
  unfold cardCommitted
  try dsimp only
  repeat' (first | with_reducible assumption | with_reducible refine State_waitOn_tidy ?_ | with_reducible refine complete_tidy ?_ | with_reducible refine Tidy.foldl _ (fun _ _ _ => ?_) ?_ | with_reducible refine Tidy.ite (fun _ => ?_) (fun _ => ?_) | simp only [tidy_mk] | split | dsimp only)

theorem removeJob_tidy {Lp : List Instr} {n mode : Nat} {early : Result} {s : State} {j : CardJob} (hk : Tidy Lp s) : Tidy Lp (removeJob n mode early s j) := by
  unfold removeJob
  try dsimp only
  repeat' (first | with_reducible assumption | with_reducible refine cardCommitted_tidy ?_ | with_reducible refine complete_tidy ?_ | with_reducible refine Tidy.foldl _ (fun _ _ _ => ?_) ?_ | with_reducible refine Tidy.ite (fun _ => ?_) (fun _ => ?_) | simp only [tidy_mk] | split | dsimp only)

theorem endCardJobs_tidy {Lp : List Instr} {n : Nat} {early : Result} {s : State} (hk : Tidy Lp s) : Tidy Lp (endCardJobs n early s) := by
  unfold endCardJobs
  try dsimp only
  repeat' (first | with_reducible assumption | with_reducible refine State_setSlot_tidy ?_ | with_reducible refine removeJob_tidy ?_ | with_reducible refine Tidy.foldl _ (fun _ _ _ => ?_) ?_ | with_reducible refine Tidy.ite (fun _ => ?_) (fun _ => ?_) | simp only [tidy_mk] | split | dsimp only)

theorem sendChain_tidy {Lp : List Instr} {n : Nat} {s : State} (hk : Tidy Lp s) : Tidy Lp (sendChain n s) := by
  unfold sendChain
  try dsimp only
  repeat' (first | with_reducible assumption | with_reducible refine sendBlock_tidy ?_ | with_reducible refine setCardJob_tidy ?_ | with_reducible refine Tidy.foldl _ (fun _ _ _ => ?_) ?_ | with_reducible refine Tidy.ite (fun _ => ?_) (fun _ => ?_) | simp only [tidy_mk] | split | dsimp only)

theorem startCardJob_tidy {Lp : List Instr} {n : Nat} : ∀ {fuel : Nat} {s : State}, Tidy Lp s → Tidy Lp (startCardJob n fuel s)
  | 0, _, hk => hk
  | fuel + 1, s, hk => by
    unfold startCardJob
    dsimp only
    repeat' (first | with_reducible assumption | with_reducible refine startCardJob_tidy ?_ | with_reducible refine complete_tidy ?_ | with_reducible refine State_setSlot_tidy ?_ | with_reducible refine activate_tidy ?_ | with_reducible refine sendBlock_tidy ?_ | with_reducible refine sendChain_tidy ?_ | with_reducible refine setCardJob_tidy ?_ | split)

theorem goCard_tidy {Lp : List Instr} {n : Nat} {s : State} (hk : Tidy Lp s) : Tidy Lp (goCard n s) := by
  unfold goCard
  try dsimp only
  repeat' (first | with_reducible assumption | with_reducible refine startCardJob_tidy ?_ | with_reducible refine Tidy.foldl _ (fun _ _ _ => ?_) ?_ | with_reducible refine Tidy.ite (fun _ => ?_) (fun _ => ?_) | simp only [tidy_mk] | split | dsimp only)

theorem finishCard_tidy {Lp : List Instr} {n : Nat} {r : Result} {s : State} (hk : Tidy Lp s) : Tidy Lp (finishCard n r s) := by
  unfold finishCard
  try dsimp only
  repeat' (first | with_reducible assumption | with_reducible refine State_setSlot_tidy ?_ | with_reducible refine complete_tidy ?_ | with_reducible refine goCard_tidy ?_ | with_reducible refine slotDone_tidy ?_ | with_reducible refine Tidy.foldl _ (fun _ _ _ => ?_) ?_ | with_reducible refine Tidy.ite (fun _ => ?_) (fun _ => ?_) | simp only [tidy_mk] | split | dsimp only)

theorem unusable_tidy {Lp : List Instr} {n res : Nat} {s : State} (hk : Tidy Lp s) : Tidy Lp (unusable n res s) := by
  unfold unusable
  try dsimp only
  repeat' (first | with_reducible assumption | with_reducible refine State_raiseAt_tidy ?_ | with_reducible refine State_setSlot_tidy ?_ | with_reducible refine endCardJobs_tidy ?_ | with_reducible refine slotDone_tidy ?_ | with_reducible refine Tidy.foldl _ (fun _ _ _ => ?_) ?_ | with_reducible refine Tidy.ite (fun _ => ?_) (fun _ => ?_) | simp only [tidy_mk] | split | dsimp only)

theorem nextClass_tidy {Lp : List Instr} {n res : Nat} {s : State} (hk : Tidy Lp s) : Tidy Lp (nextClass n res s) := by
  unfold nextClass
  try dsimp only
  repeat' (first | with_reducible assumption | with_reducible refine State_setSlot_tidy ?_ | with_reducible refine unusable_tidy ?_ | with_reducible refine Tidy.foldl _ (fun _ _ _ => ?_) ?_ | with_reducible refine Tidy.ite (fun _ => ?_) (fun _ => ?_) | simp only [tidy_mk] | split | dsimp only)

theorem atrBad_tidy {Lp : List Instr} {n : Nat} {s : State} (hk : Tidy Lp s) : Tidy Lp (atrBad n s) := by
  unfold atrBad
  try dsimp only
  repeat' (first | with_reducible assumption | with_reducible refine State_setSlot_tidy ?_ | with_reducible refine unusable_tidy ?_ | with_reducible refine Tidy.foldl _ (fun _ _ _ => ?_) ?_ | with_reducible refine Tidy.ite (fun _ => ?_) (fun _ => ?_) | simp only [tidy_mk] | split | dsimp only)

theorem enterProtocol_tidy {Lp : List Instr} {n mode etu : Nat} {s : State} (hk : Tidy Lp s) : Tidy Lp (enterProtocol n mode etu s) := by
  unfold enterProtocol
  try dsimp only
  repeat' (first | with_reducible assumption | with_reducible refine State_setSlot_tidy ?_ | with_reducible refine goCard_tidy ?_ | with_reducible refine isoTiming_tidy ?_ | with_reducible refine sendBlock_tidy ?_ | with_reducible refine slotDone_tidy ?_ | with_reducible refine tokenTiming_tidy ?_ | with_reducible refine Tidy.foldl _ (fun _ _ _ => ?_) ?_ | with_reducible refine Tidy.ite (fun _ => ?_) (fun _ => ?_) | simp only [tidy_mk] | split | dsimp only)

theorem atrGood_tidy {Lp : List Instr} {n : Nat} {b : List Byte} {a : Atr} {s : State} (hk : Tidy Lp s) : Tidy Lp (atrGood n b a s) := by
  unfold atrGood
  try dsimp only
  repeat' (first | with_reducible assumption | with_reducible refine State_setSlot_tidy ?_ | with_reducible refine enterProtocol_tidy ?_ | with_reducible refine unusable_tidy ?_ | with_reducible refine Tidy.foldl _ (fun _ _ _ => ?_) ?_ | with_reducible refine Tidy.ite (fun _ => ?_) (fun _ => ?_) | simp only [tidy_mk] | split | dsimp only)

theorem atrReceived_tidy {Lp : List Instr} {n : Nat} {b : List Byte} {s : State} (hk : Tidy Lp s) : Tidy Lp (atrReceived n b s) := by
  unfold atrReceived
  try dsimp only
  repeat' (first | with_reducible assumption | with_reducible refine atrBad_tidy ?_ | with_reducible refine atrGood_tidy ?_ | with_reducible refine nextClass_tidy ?_ | with_reducible refine Tidy.foldl _ (fun _ _ _ => ?_) ?_ | with_reducible refine Tidy.ite (fun _ => ?_) (fun _ => ?_) | simp only [tidy_mk] | split | dsimp only)

theorem atrTimeout_tidy {Lp : List Instr} {n : Nat} {s : State} (hk : Tidy Lp s) : Tidy Lp (atrTimeout n s) := by
  unfold atrTimeout
  try dsimp only
  repeat' (first | with_reducible assumption | with_reducible refine nextClass_tidy ?_ | with_reducible refine Tidy.foldl _ (fun _ _ _ => ?_) ?_ | with_reducible refine Tidy.ite (fun _ => ?_) (fun _ => ?_) | simp only [tidy_mk] | split | dsimp only)

theorem ppsRefused_tidy {Lp : List Instr} {n : Nat} {s : State} (hk : Tidy Lp s) : Tidy Lp (ppsRefused n s) := by
  unfold ppsRefused
  try dsimp only
  repeat' (first | with_reducible assumption | with_reducible refine State_setSlot_tidy ?_ | with_reducible refine atrTiming_tidy ?_ | with_reducible refine Tidy.foldl _ (fun _ _ _ => ?_) ?_ | with_reducible refine Tidy.ite (fun _ => ?_) (fun _ => ?_) | simp only [tidy_mk] | split | dsimp only)

theorem ppsResponse_tidy {Lp : List Instr} {n : Nat} {b : List Byte} {s : State} (hk : Tidy Lp s) : Tidy Lp (ppsResponse n b s) := by
  unfold ppsResponse
  try dsimp only
  repeat' (first | with_reducible assumption | with_reducible refine enterProtocol_tidy ?_ | with_reducible refine ppsRefused_tidy ?_ | with_reducible refine Tidy.foldl _ (fun _ _ _ => ?_) ?_ | with_reducible refine Tidy.ite (fun _ => ?_) (fun _ => ?_) | simp only [tidy_mk] | split | dsimp only)

theorem sendR_tidy {Lp : List Instr} {n err : Nat} {s : State} (hk : Tidy Lp s) : Tidy Lp (sendR n err s) := by
  unfold sendR
  try dsimp only
  repeat' (first | with_reducible assumption | with_reducible refine sendBlock_tidy ?_ | with_reducible refine Tidy.foldl _ (fun _ _ _ => ?_) ?_ | with_reducible refine Tidy.ite (fun _ => ?_) (fun _ => ?_) | simp only [tidy_mk] | split | dsimp only)

theorem blockDead_tidy {Lp : List Instr} {n src res : Nat} {s : State} (hk : Tidy Lp s) : Tidy Lp (blockDead n src res s) := by
  unfold blockDead
  try dsimp only
  repeat' (first | with_reducible assumption | with_reducible refine State_raiseAt_tidy ?_ | with_reducible refine State_setSlot_tidy ?_ | with_reducible refine complete_tidy ?_ | with_reducible refine deactivate_tidy ?_ | with_reducible refine goCard_tidy ?_ | with_reducible refine slotDone_tidy ?_ | with_reducible refine Tidy.foldl _ (fun _ _ _ => ?_) ?_ | with_reducible refine Tidy.ite (fun _ => ?_) (fun _ => ?_) | simp only [tidy_mk] | split | dsimp only)

theorem blockFailure_tidy {Lp : List Instr} {n err : Nat} {s : State} (hk : Tidy Lp s) : Tidy Lp (blockFailure n err s) := by
  unfold blockFailure
  try dsimp only
  repeat' (first | with_reducible assumption | with_reducible refine State_setSlot_tidy ?_ | with_reducible refine blockDead_tidy ?_ | with_reducible refine sendR_tidy ?_ | with_reducible refine Tidy.foldl _ (fun _ _ _ => ?_) ?_ | with_reducible refine Tidy.ite (fun _ => ?_) (fun _ => ?_) | simp only [tidy_mk] | split | dsimp only)

theorem cardAnswer_tidy {Lp : List Instr} {n : Nat} {j : CardJob} {got : List Byte} {s : State} (hk : Tidy Lp s) : Tidy Lp (cardAnswer n j got s) := by
  unfold cardAnswer
  try dsimp only
  repeat' (first | with_reducible assumption | with_reducible refine State_setSlot_tidy ?_ | with_reducible refine State_waitOn_tidy ?_ | with_reducible refine completeOutput_tidy ?_ | with_reducible refine finishCard_tidy ?_ | with_reducible refine goCard_tidy ?_ | with_reducible refine slotDone_tidy ?_ | with_reducible refine wiredStart_tidy ?_ | with_reducible refine Tidy.foldl _ (fun _ _ _ => ?_) ?_ | with_reducible refine Tidy.ite (fun _ => ?_) (fun _ => ?_) | simp only [tidy_mk] | split | dsimp only)

theorem cardI_tidy {Lp : List Instr} {n : Nat} {pcb : Byte} {inf : List Byte} {edcOk : Bool} {s : State} (hk : Tidy Lp s) : Tidy Lp (cardI n pcb inf edcOk s) := by
  unfold cardI
  try dsimp only
  repeat' (first | with_reducible assumption | with_reducible refine State_setSlot_tidy ?_ | with_reducible refine blockFailure_tidy ?_ | with_reducible refine cardAnswer_tidy ?_ | with_reducible refine sendR_tidy ?_ | with_reducible refine setCardJob_tidy ?_ | with_reducible refine Tidy.foldl _ (fun _ _ _ => ?_) ?_ | with_reducible refine Tidy.ite (fun _ => ?_) (fun _ => ?_) | simp only [tidy_mk] | split | dsimp only)

theorem cardR_tidy {Lp : List Instr} {n : Nat} {pcb : Byte} {edcOk : Bool} {s : State} (hk : Tidy Lp s) : Tidy Lp (cardR n pcb edcOk s) := by
  unfold cardR
  try dsimp only
  repeat' (first | with_reducible assumption | with_reducible refine State_setSlot_tidy ?_ | with_reducible refine blockDead_tidy ?_ | with_reducible refine blockFailure_tidy ?_ | with_reducible refine sendChain_tidy ?_ | with_reducible refine setCardJob_tidy ?_ | with_reducible refine Tidy.foldl _ (fun _ _ _ => ?_) ?_ | with_reducible refine Tidy.ite (fun _ => ?_) (fun _ => ?_) | simp only [tidy_mk] | split | dsimp only)

theorem cardResynch_tidy {Lp : List Instr} {n : Nat} {response : Bool} {s : State} (hk : Tidy Lp s) : Tidy Lp (cardResynch n response s) := by
  unfold cardResynch
  try dsimp only
  repeat' (first | with_reducible assumption | with_reducible refine State_setSlot_tidy ?_ | with_reducible refine goCard_tidy ?_ | with_reducible refine sendBlock_tidy ?_ | with_reducible refine setCardJob_tidy ?_ | with_reducible refine Tidy.foldl _ (fun _ _ _ => ?_) ?_ | with_reducible refine Tidy.ite (fun _ => ?_) (fun _ => ?_) | simp only [tidy_mk] | split | dsimp only)

theorem cardIfs_tidy {Lp : List Instr} {n : Nat} {response : Bool} {size : Byte} {s : State} (hk : Tidy Lp s) : Tidy Lp (cardIfs n response size s) := by
  unfold cardIfs
  try dsimp only
  repeat' (first | with_reducible assumption | with_reducible refine State_setSlot_tidy ?_ | with_reducible refine goCard_tidy ?_ | with_reducible refine sendBlock_tidy ?_ | with_reducible refine slotDone_tidy ?_ | with_reducible refine Tidy.foldl _ (fun _ _ _ => ?_) ?_ | with_reducible refine Tidy.ite (fun _ => ?_) (fun _ => ?_) | simp only [tidy_mk] | split | dsimp only)

theorem cardAbort_tidy {Lp : List Instr} {n : Nat} {response : Bool} {s : State} (hk : Tidy Lp s) : Tidy Lp (cardAbort n response s) := by
  unfold cardAbort
  try dsimp only
  repeat' (first | with_reducible assumption | with_reducible refine finishCard_tidy ?_ | with_reducible refine sendBlock_tidy ?_ | with_reducible refine Tidy.foldl _ (fun _ _ _ => ?_) ?_ | with_reducible refine Tidy.ite (fun _ => ?_) (fun _ => ?_) | simp only [tidy_mk] | split | dsimp only)

theorem cardWtx_tidy {Lp : List Instr} {n : Nat} {mult : Byte} {s : State} (hk : Tidy Lp s) : Tidy Lp (cardWtx n mult s) := by
  unfold cardWtx
  try dsimp only
  repeat' (first | with_reducible assumption | with_reducible refine State_setSlot_tidy ?_ | with_reducible refine blockFailure_tidy ?_ | with_reducible refine sendBlock_tidy ?_ | with_reducible refine Tidy.foldl _ (fun _ _ _ => ?_) ?_ | with_reducible refine Tidy.ite (fun _ => ?_) (fun _ => ?_) | simp only [tidy_mk] | split | dsimp only)

theorem cardSleep_tidy {Lp : List Instr} {n : Nat} {s : State} (hk : Tidy Lp s) : Tidy Lp (cardSleep n s) := by
  unfold cardSleep
  try dsimp only
  repeat' (first | with_reducible assumption | with_reducible refine State_setSlot_tidy ?_ | with_reducible refine finishCard_tidy ?_ | with_reducible refine goCard_tidy ?_ | with_reducible refine slotDone_tidy ?_ | with_reducible refine Tidy.foldl _ (fun _ _ _ => ?_) ?_ | with_reducible refine Tidy.ite (fun _ => ?_) (fun _ => ?_) | simp only [tidy_mk] | split | dsimp only)

theorem cardWake_tidy {Lp : List Instr} {n : Nat} {s : State} (hk : Tidy Lp s) : Tidy Lp (cardWake n s) := by
  unfold cardWake
  try dsimp only
  repeat' (first | with_reducible assumption | with_reducible refine State_setSlot_tidy ?_ | with_reducible refine goCard_tidy ?_ | with_reducible refine slotDone_tidy ?_ | with_reducible refine Tidy.foldl _ (fun _ _ _ => ?_) ?_ | with_reducible refine Tidy.ite (fun _ => ?_) (fun _ => ?_) | simp only [tidy_mk] | split | dsimp only)

theorem cardBwt_tidy {Lp : List Instr} {n : Nat} {s : State} (hk : Tidy Lp s) : Tidy Lp (cardBwt n s) := by
  unfold cardBwt
  try dsimp only
  repeat' (first | with_reducible assumption | with_reducible refine State_setSlot_tidy ?_ | with_reducible refine activate_tidy ?_ | with_reducible refine blockFailure_tidy ?_ | with_reducible refine deactivate_tidy ?_ | with_reducible refine ppsRefused_tidy ?_ | with_reducible refine sendBlock_tidy ?_ | with_reducible refine Tidy.foldl _ (fun _ _ _ => ?_) ?_ | with_reducible refine Tidy.ite (fun _ => ?_) (fun _ => ?_) | simp only [tidy_mk] | split | dsimp only)

theorem cardCwt_tidy {Lp : List Instr} {n : Nat} {s : State} (hk : Tidy Lp s) : Tidy Lp (cardCwt n s) := by
  unfold cardCwt
  try dsimp only
  repeat' (first | with_reducible assumption | with_reducible refine atrBad_tidy ?_ | with_reducible refine blockFailure_tidy ?_ | with_reducible refine ppsRefused_tidy ?_ | with_reducible refine Tidy.foldl _ (fun _ _ _ => ?_) ?_ | with_reducible refine Tidy.ite (fun _ => ?_) (fun _ => ?_) | simp only [tidy_mk] | split | dsimp only)

theorem busyEnd_tidy {Lp : List Instr} {n : Nat} {s : State} (hk : Tidy Lp s) : Tidy Lp (busyEnd n s) := by
  unfold busyEnd
  try dsimp only
  repeat' (first | with_reducible assumption | with_reducible refine State_setSlot_tidy ?_ | with_reducible refine setCardJob_tidy ?_ | with_reducible refine Tidy.foldl _ (fun _ _ _ => ?_) ?_ | with_reducible refine Tidy.ite (fun _ => ?_) (fun _ => ?_) | simp only [tidy_mk] | split | dsimp only)

theorem busyTimeout_tidy {Lp : List Instr} {n : Nat} {s : State} (hk : Tidy Lp s) : Tidy Lp (busyTimeout n s) := by
  unfold busyTimeout
  try dsimp only
  repeat' (first | with_reducible assumption | with_reducible refine blockDead_tidy ?_ | with_reducible refine Tidy.foldl _ (fun _ _ _ => ?_) ?_ | with_reducible refine Tidy.ite (fun _ => ?_) (fun _ => ?_) | simp only [tidy_mk] | split | dsimp only)

theorem detectStable_tidy {Lp : List Instr} {n : Nat} {s : State} (hk : Tidy Lp s) : Tidy Lp (detectStable n s) := by
  unfold detectStable
  try dsimp only
  repeat' (first | with_reducible assumption | with_reducible refine activate_tidy ?_ | with_reducible refine Tidy.foldl _ (fun _ _ _ => ?_) ?_ | with_reducible refine Tidy.ite (fun _ => ?_) (fun _ => ?_) | simp only [tidy_mk] | split | dsimp only)

theorem overcurrent_tidy {Lp : List Instr} {n : Nat} {s : State} (hk : Tidy Lp s) : Tidy Lp (overcurrent n s) := by
  unfold overcurrent
  try dsimp only
  repeat' (first | with_reducible assumption | with_reducible refine State_raiseAt_tidy ?_ | with_reducible refine State_setSlot_tidy ?_ | with_reducible refine deactivate_tidy ?_ | with_reducible refine endCardJobs_tidy ?_ | with_reducible refine slotDone_tidy ?_ | with_reducible refine Tidy.foldl _ (fun _ _ _ => ?_) ?_ | with_reducible refine Tidy.ite (fun _ => ?_) (fun _ => ?_) | simp only [tidy_mk] | split | dsimp only)

theorem sleepTimer_tidy {Lp : List Instr} {n : Nat} {s : State} (hk : Tidy Lp s) : Tidy Lp (sleepTimer n s) := by
  unfold sleepTimer
  try dsimp only
  repeat' (first | with_reducible assumption | with_reducible refine sendBlock_tidy ?_ | with_reducible refine Tidy.foldl _ (fun _ _ _ => ?_) ?_ | with_reducible refine Tidy.ite (fun _ => ?_) (fun _ => ?_) | simp only [tidy_mk] | split | dsimp only)

theorem idleDeact_tidy {Lp : List Instr} {n : Nat} {s : State} (hk : Tidy Lp s) : Tidy Lp (idleDeact n s) := by
  unfold idleDeact
  try dsimp only
  repeat' (first | with_reducible assumption | with_reducible refine deactivate_tidy ?_ | with_reducible refine Tidy.foldl _ (fun _ _ _ => ?_) ?_ | with_reducible refine Tidy.ite (fun _ => ?_) (fun _ => ?_) | simp only [tidy_mk] | split | dsimp only)

theorem cmdActivate_tidy {Lp : List Instr} {n cls : Nat} {s : State} (hk : Tidy Lp s) : Tidy Lp (cmdActivate n cls s) := by
  unfold cmdActivate
  try dsimp only
  repeat' (first | with_reducible assumption | with_reducible refine activate_tidy ?_ | with_reducible refine unusable_tidy ?_ | with_reducible refine Tidy.foldl _ (fun _ _ _ => ?_) ?_ | with_reducible refine Tidy.ite (fun _ => ?_) (fun _ => ?_) | simp only [tidy_mk] | split | dsimp only)

theorem cmdDeactivate_tidy {Lp : List Instr} {n : Nat} {s : State} (hk : Tidy Lp s) : Tidy Lp (cmdDeactivate n s) := by
  unfold cmdDeactivate
  try dsimp only
  repeat' (first | with_reducible assumption | with_reducible refine deactivate_tidy ?_ | with_reducible refine endCardJobs_tidy ?_ | with_reducible refine slotDone_tidy ?_ | with_reducible refine Tidy.foldl _ (fun _ _ _ => ?_) ?_ | with_reducible refine Tidy.ite (fun _ => ?_) (fun _ => ?_) | simp only [tidy_mk] | split | dsimp only)

theorem cmdWarmReset_tidy {Lp : List Instr} {n : Nat} {s : State} (hk : Tidy Lp s) : Tidy Lp (cmdWarmReset n s) := by
  unfold cmdWarmReset
  try dsimp only
  repeat' (first | with_reducible assumption | with_reducible refine State_setSlot_tidy ?_ | with_reducible refine atrTiming_tidy ?_ | with_reducible refine endCardJobs_tidy ?_ | with_reducible refine Tidy.foldl _ (fun _ _ _ => ?_) ?_ | with_reducible refine Tidy.ite (fun _ => ?_) (fun _ => ?_) | simp only [tidy_mk] | split | dsimp only)

theorem cmdStopClock_tidy {Lp : List Instr} {n : Nat} {s : State} (hk : Tidy Lp s) : Tidy Lp (cmdStopClock n s) := by
  unfold cmdStopClock
  try dsimp only
  repeat' (first | with_reducible assumption | with_reducible refine State_setSlot_tidy ?_ | with_reducible refine slotDone_tidy ?_ | with_reducible refine Tidy.foldl _ (fun _ _ _ => ?_) ?_ | with_reducible refine Tidy.ite (fun _ => ?_) (fun _ => ?_) | simp only [tidy_mk] | split | dsimp only)

theorem cmdStartClock_tidy {Lp : List Instr} {n : Nat} {s : State} (hk : Tidy Lp s) : Tidy Lp (cmdStartClock n s) := by
  unfold cmdStartClock
  try dsimp only
  repeat' (first | with_reducible assumption | with_reducible refine State_setSlot_tidy ?_ | with_reducible refine goCard_tidy ?_ | with_reducible refine slotDone_tidy ?_ | with_reducible refine Tidy.foldl _ (fun _ _ _ => ?_) ?_ | with_reducible refine Tidy.ite (fun _ => ?_) (fun _ => ?_) | simp only [tidy_mk] | split | dsimp only)

theorem cardsAgain_tidy {Lp : List Instr} {s : State} (hk : Tidy Lp s) : Tidy Lp (cardsAgain s) := by
  unfold cardsAgain
  try dsimp only
  repeat' (first | with_reducible assumption | with_reducible refine detectStable_tidy ?_ | with_reducible refine Tidy.foldl _ (fun _ _ _ => ?_) ?_ | with_reducible refine Tidy.ite (fun _ => ?_) (fun _ => ?_) | simp only [tidy_mk] | split | dsimp only)

theorem slotFenced_tidy {Lp : List Instr} {n : Nat} {s : State} (hk : Tidy Lp s) : Tidy Lp (slotFenced n s) := by
  unfold slotFenced
  try dsimp only
  repeat' (first | with_reducible assumption | with_reducible refine deactivate_tidy ?_ | with_reducible refine endCardJobs_tidy ?_ | with_reducible refine Tidy.foldl _ (fun _ _ _ => ?_) ?_ | with_reducible refine Tidy.ite (fun _ => ?_) (fun _ => ?_) | simp only [tidy_mk] | split | dsimp only)

theorem cardsReset_tidy {Lp : List Instr} {s : State} (hk : Tidy Lp s) : Tidy Lp (cardsReset s) := by
  unfold cardsReset
  try dsimp only
  repeat' (first | with_reducible assumption | with_reducible refine State_setSlot_tidy ?_ | with_reducible refine deactivate_tidy ?_ | with_reducible refine removeJob_tidy ?_ | with_reducible refine Tidy.foldl _ (fun _ _ _ => ?_) ?_ | with_reducible refine Tidy.ite (fun _ => ?_) (fun _ => ?_) | simp only [tidy_mk] | split | dsimp only)

theorem cardsOff_tidy {Lp : List Instr} {s : State} (hk : Tidy Lp s) : Tidy Lp (cardsOff s) := by
  unfold cardsOff
  try dsimp only
  repeat' (first | with_reducible assumption | with_reducible refine deactivate_tidy ?_ | with_reducible refine Tidy.foldl _ (fun _ _ _ => ?_) ?_ | with_reducible refine Tidy.ite (fun _ => ?_) (fun _ => ?_) | simp only [tidy_mk] | split | dsimp only)

theorem dropCardJobs_tidy {Lp : List Instr} {s : State} (hk : Tidy Lp s) : Tidy Lp (dropCardJobs s) := by
  unfold dropCardJobs
  try dsimp only
  repeat' (first | with_reducible assumption | with_reducible refine State_setSlot_tidy ?_ | with_reducible refine deactivate_tidy ?_ | with_reducible refine Tidy.foldl _ (fun _ _ _ => ?_) ?_ | with_reducible refine Tidy.ite (fun _ => ?_) (fun _ => ?_) | simp only [tidy_mk] | split | dsimp only)

theorem dropCardJob_tidy {Lp : List Instr} {key : Nat} {s : State} (hk : Tidy Lp s) : Tidy Lp (dropCardJob key s) := by
  unfold dropCardJob
  try dsimp only
  repeat' (first | with_reducible assumption | with_reducible refine Tidy.foldl _ (fun _ _ _ => ?_) ?_ | with_reducible refine Tidy.ite (fun _ => ?_) (fun _ => ?_) | simp only [tidy_mk] | split | dsimp only)

theorem pushCard_tidy {Lp : List Instr} {n : Nat} {key : Nat} {w : CardWork} {s : State} (hk : Tidy Lp s) : Tidy Lp (pushCard n key w s) := by
  unfold pushCard
  try dsimp only
  repeat' (first | with_reducible assumption | with_reducible refine State_setSlot_tidy ?_ | with_reducible refine State_waitOn_tidy ?_ | with_reducible refine goCard_tidy ?_ | with_reducible refine Tidy.foldl _ (fun _ _ _ => ?_) ?_ | with_reducible refine Tidy.ite (fun _ => ?_) (fun _ => ?_) | simp only [tidy_mk] | split | dsimp only)

theorem cardStatus_tidy {Lp : List Instr} {key : Nat} {src : Source} {e : Entry} {s : State} (hk : Tidy Lp s) : Tidy Lp (cardStatus key src e s) := by
  unfold cardStatus
  try dsimp only
  repeat' (first | with_reducible assumption | with_reducible refine completeOutput_tidy ?_ | with_reducible refine complete_tidy ?_ | with_reducible refine Tidy.foldl _ (fun _ _ _ => ?_) ?_ | with_reducible refine Tidy.ite (fun _ => ?_) (fun _ => ?_) | simp only [tidy_mk] | split | dsimp only)

theorem cardApdu_tidy {Lp : List Instr} {key : Nat} {src : Source} {e : Entry} {s : State} (hk : Tidy Lp s) : Tidy Lp (cardApdu key src e s) := by
  unfold cardApdu
  try dsimp only
  repeat' (first | with_reducible assumption | with_reducible refine complete_tidy ?_ | with_reducible refine pushCard_tidy ?_ | with_reducible refine Tidy.foldl _ (fun _ _ _ => ?_) ?_ | with_reducible refine Tidy.ite (fun _ => ?_) (fun _ => ?_) | simp only [tidy_mk] | split | dsimp only)

theorem apduExpire_tidy {Lp : List Instr} {s : State} {c : Inflight} (hk : Tidy Lp s) : Tidy Lp (apduExpire s c) := by
  unfold apduExpire
  try dsimp only
  repeat' (first | with_reducible assumption | with_reducible refine State_setSlot_tidy ?_ | with_reducible refine complete_tidy ?_ | with_reducible refine deactivate_tidy ?_ | with_reducible refine dropRequest_tidy ?_ | with_reducible refine goCard_tidy ?_ | with_reducible refine Tidy.foldl _ (fun _ _ _ => ?_) ?_ | with_reducible refine Tidy.ite (fun _ => ?_) (fun _ => ?_) | simp only [tidy_mk] | split | dsimp only)

theorem apduTimeouts_tidy {Lp : List Instr} {s : State} (hk : Tidy Lp s) : Tidy Lp (apduTimeouts s) := by
  unfold apduTimeouts
  try dsimp only
  repeat' (first | with_reducible assumption | with_reducible refine apduExpire_tidy ?_ | with_reducible refine Tidy.foldl _ (fun _ _ _ => ?_) ?_ | with_reducible refine Tidy.ite (fun _ => ?_) (fun _ => ?_) | simp only [tidy_mk] | split | dsimp only)

theorem tokenOp_tidy {Lp : List Instr} {key : Nat} {src : Source} {e : Entry} {s : State} (hk : Tidy Lp s) : Tidy Lp (tokenOp key src e s) := by
  unfold tokenOp
  try dsimp only
  repeat' (first | with_reducible assumption | with_reducible refine complete_tidy ?_ | with_reducible refine pushCard_tidy ?_ | with_reducible refine Tidy.foldl _ (fun _ _ _ => ?_) ?_ | with_reducible refine Tidy.ite (fun _ => ?_) (fun _ => ?_) | simp only [tidy_mk] | split | dsimp only)

end Sys2Proof.Laws
end

