-- ==== Sys2Proof/Laws/TidyPorts.lean ====
section
/-! SUPPORT. The queue and the memory form under the ports, the resets, the fault collector, the pair. -/

namespace Sys2Proof.Laws

open Sys2Proof.Machine

theorem openQueue_tidy {Lp : List Instr} {q : Queue} {s : State} (hk : Tidy Lp s) : Tidy Lp (openQueue q s) := by
  unfold openQueue
  try dsimp only
  repeat' (first | with_reducible assumption | with_reducible refine Tidy.foldl _ (fun _ _ _ => ?_) ?_ | with_reducible refine Tidy.ite (fun _ => ?_) (fun _ => ?_) | simp only [tidy_mk] | split | dsimp only)

theorem closeQueue_tidy {Lp : List Instr} {qid : Nat} {s : State} (hk : Tidy Lp s) : Tidy Lp (closeQueue qid s) := by
  unfold closeQueue
  try dsimp only
  repeat' (first | with_reducible assumption | with_reducible refine Tidy.foldl _ (fun _ _ _ => ?_) ?_ | with_reducible refine Tidy.ite (fun _ => ?_) (fun _ => ?_) | simp only [tidy_mk] | split | dsimp only)

theorem dropLaneKeys_tidy {Lp : List Instr} {keys : List Nat} {s : State} (hk : Tidy Lp s) : Tidy Lp (dropLaneKeys keys s) := by
  unfold dropLaneKeys
  try dsimp only
  repeat' (first | with_reducible assumption | with_reducible refine Tidy.foldl _ (fun _ _ _ => ?_) ?_ | with_reducible refine Tidy.ite (fun _ => ?_) (fun _ => ?_) | simp only [tidy_mk] | split | dsimp only)

theorem abandon_tidy {Lp : List Instr} {status : BitVec 16} {sel : Inflight → Bool} {s : State} (hk : Tidy Lp s) : Tidy Lp (abandon status sel s) := by
  unfold abandon
  try dsimp only
  repeat' (first | with_reducible assumption | with_reducible refine abortCommands_tidy ?_ | with_reducible refine dropCardJob_tidy ?_ | with_reducible refine dropLabelJob_tidy ?_ | with_reducible refine dropLaneKeys_tidy ?_ | with_reducible refine dropWired_tidy ?_ | with_reducible refine settleGrant_tidy ?_ | with_reducible refine stopJobs_tidy ?_ | with_reducible refine Tidy.foldl _ (fun _ _ _ => ?_) ?_ | with_reducible refine Tidy.ite (fun _ => ?_) (fun _ => ?_) | simp only [tidy_mk] | split | dsimp only)

theorem rstCause_tidy {Lp : List Instr} {bits : Word} {s : State} (hk : Tidy Lp s) : Tidy Lp (rstCause bits s) := by
  unfold rstCause
  try dsimp only
  repeat' (first | with_reducible assumption | with_reducible refine Tidy.foldl _ (fun _ _ _ => ?_) ?_ | with_reducible refine Tidy.ite (fun _ => ?_) (fun _ => ?_) | simp only [tidy_mk] | split | dsimp only)

theorem flrPort_tidy {Lp : List Instr} {p : Nat} {s : State} (hk : Tidy Lp s) : Tidy Lp (flrPort p s) := by
  unfold flrPort
  try dsimp only
  repeat' (first | with_reducible assumption | with_reducible refine State_setPort_tidy ?_ | with_reducible refine abandon_tidy ?_ | with_reducible refine endStreams_tidy ?_ | with_reducible refine resetHeld_tidy ?_ | with_reducible refine rstCause_tidy ?_ | with_reducible refine Tidy.foldl _ (fun _ _ _ => ?_) ?_ | with_reducible refine Tidy.ite (fun _ => ?_) (fun _ => ?_) | simp only [tidy_mk] | split | dsimp only)

theorem linkGone_tidy {Lp : List Instr} {p : Nat} {s : State} (hk : Tidy Lp s) : Tidy Lp (linkGone p s) := by
  unfold linkGone
  try dsimp only
  repeat' (first | with_reducible assumption | with_reducible refine State_setPort_tidy ?_ | with_reducible refine Tidy.foldl _ (fun _ _ _ => ?_) ?_ | with_reducible refine Tidy.ite (fun _ => ?_) (fun _ => ?_) | simp only [tidy_mk] | split | dsimp only)

theorem surpriseDown_tidy {Lp : List Instr} {p : Nat} {s : State} (hk : Tidy Lp s) : Tidy Lp (surpriseDown p s) := by
  unfold surpriseDown
  try dsimp only
  repeat' (first | with_reducible assumption | with_reducible refine State_raiseAt_tidy ?_ | with_reducible refine flrPort_tidy ?_ | with_reducible refine linkGone_tidy ?_ | with_reducible refine Tidy.foldl _ (fun _ _ _ => ?_) ?_ | with_reducible refine Tidy.ite (fun _ => ?_) (fun _ => ?_) | simp only [tidy_mk] | split | dsimp only)

theorem hostFlr_tidy {Lp : List Instr} {p : Nat} {c : FlrCause} {s : State} (hk : Tidy Lp s) : Tidy Lp (hostFlr p c s) := by
  unfold hostFlr
  try dsimp only
  repeat' (first | with_reducible assumption | with_reducible refine State_setPort_tidy ?_ | with_reducible refine flrPort_tidy ?_ | with_reducible refine linkGone_tidy ?_ | with_reducible refine Tidy.foldl _ (fun _ _ _ => ?_) ?_ | with_reducible refine Tidy.ite (fun _ => ?_) (fun _ => ?_) | simp only [tidy_mk] | split | dsimp only)

theorem busMasterOff_tidy {Lp : List Instr} {p : Nat} {s : State} (hk : Tidy Lp s) : Tidy Lp (busMasterOff p s) := by
  unfold busMasterOff
  try dsimp only
  repeat' (first | with_reducible assumption | with_reducible refine State_setPort_tidy ?_ | with_reducible refine flrPort_tidy ?_ | with_reducible refine Tidy.foldl _ (fun _ _ _ => ?_) ?_ | with_reducible refine Tidy.ite (fun _ => ?_) (fun _ => ?_) | simp only [tidy_mk] | split | dsimp only)

theorem enterD3_tidy {Lp : List Instr} {p : Nat} {s : State} (hk : Tidy Lp s) : Tidy Lp (enterD3 p s) := by
  unfold enterD3
  try dsimp only
  repeat' (first | with_reducible assumption | with_reducible refine State_setPort_tidy ?_ | with_reducible refine flrPort_tidy ?_ | with_reducible refine Tidy.foldl _ (fun _ _ _ => ?_) ?_ | with_reducible refine Tidy.ite (fun _ => ?_) (fun _ => ?_) | simp only [tidy_mk] | split | dsimp only)

theorem leaveD3_tidy {Lp : List Instr} {p : Nat} {s : State} (hk : Tidy Lp s) : Tidy Lp (leaveD3 p s) := by
  unfold leaveD3
  try dsimp only
  repeat' (first | with_reducible assumption | with_reducible refine State_setPort_tidy ?_ | with_reducible refine Tidy.foldl _ (fun _ _ _ => ?_) ?_ | with_reducible refine Tidy.ite (fun _ => ?_) (fun _ => ?_) | simp only [tidy_mk] | split | dsimp only)

theorem ideFail_tidy {Lp : List Instr} {p k : Nat} {s : State} (hk : Tidy Lp s) : Tidy Lp (ideFail p k s) := by
  unfold ideFail
  try dsimp only
  repeat' (first | with_reducible assumption | with_reducible refine State_raiseAt_tidy ?_ | with_reducible refine State_setPort_tidy ?_ | with_reducible refine flrPort_tidy ?_ | with_reducible refine Tidy.foldl _ (fun _ _ _ => ?_) ?_ | with_reducible refine Tidy.ite (fun _ => ?_) (fun _ => ?_) | simp only [tidy_mk] | split | dsimp only)

theorem linkUp_tidy {Lp : List Instr} {p speed width : Nat} {s : State} (hk : Tidy Lp s) : Tidy Lp (linkUp p speed width s) := by
  unfold linkUp
  try dsimp only
  repeat' (first | with_reducible assumption | with_reducible refine State_raiseAt_tidy ?_ | with_reducible refine State_setPort_tidy ?_ | with_reducible refine Tidy.foldl _ (fun _ _ _ => ?_) ?_ | with_reducible refine Tidy.ite (fun _ => ?_) (fun _ => ?_) | simp only [tidy_mk] | split | dsimp only)

theorem enterL1_tidy {Lp : List Instr} {p : Nat} {sub : Bool} {s : State} (hk : Tidy Lp s) : Tidy Lp (enterL1 p sub s) := by
  unfold enterL1
  try dsimp only
  repeat' (first | with_reducible assumption | with_reducible refine State_setPort_tidy ?_ | with_reducible refine linkUp_tidy ?_ | with_reducible refine Tidy.foldl _ (fun _ _ _ => ?_) ?_ | with_reducible refine Tidy.ite (fun _ => ?_) (fun _ => ?_) | simp only [tidy_mk] | split | dsimp only)

theorem portControl_tidy {Lp : List Instr} {p : Nat} {v : Word} {s : State} (hk : Tidy Lp s) : Tidy Lp (portControl p v s) := by
  unfold portControl
  try dsimp only
  repeat' (first | with_reducible assumption | with_reducible refine State_setPort_tidy ?_ | with_reducible refine flrPort_tidy ?_ | with_reducible refine openQueue_tidy ?_ | with_reducible refine setStatusBits_tidy ?_ | with_reducible refine Tidy.foldl _ (fun _ _ _ => ?_) ?_ | with_reducible refine Tidy.ite (fun _ => ?_) (fun _ => ?_) | simp only [tidy_mk] | split | dsimp only)

theorem doeRespond_tidy {Lp : List Instr} {p : Nat} {req resp : List Byte} {st : Spdm} {s : State} (hk : Tidy Lp s) : Tidy Lp (doeRespond p req resp st s) := by
  unfold doeRespond
  try dsimp only
  repeat' (first | with_reducible assumption | with_reducible refine State_setPort_tidy ?_ | with_reducible refine Tidy.foldl _ (fun _ _ _ => ?_) ?_ | with_reducible refine Tidy.ite (fun _ => ?_) (fun _ => ?_) | simp only [tidy_mk] | split | dsimp only)

theorem spdmStep_tidy {Lp : List Instr} {p code : Nat} {req : List Byte} {ok : Spdm → Bool} {next : Spdm → Spdm} {s : State} (hk : Tidy Lp s) : Tidy Lp (spdmStep p code req ok next s) := by
  unfold spdmStep
  try dsimp only
  repeat' (first | with_reducible assumption | with_reducible refine State_setPort_tidy ?_ | with_reducible refine doeRespond_tidy ?_ | with_reducible refine Tidy.foldl _ (fun _ _ _ => ?_) ?_ | with_reducible refine Tidy.ite (fun _ => ?_) (fun _ => ?_) | simp only [tidy_mk] | split | dsimp only)

theorem ideStop_tidy {Lp : List Instr} {p : Nat} {s : State} (hk : Tidy Lp s) : Tidy Lp (ideStop p s) := by
  unfold ideStop
  try dsimp only
  repeat' (first | with_reducible assumption | with_reducible refine State_setPort_tidy ?_ | with_reducible refine Tidy.foldl _ (fun _ _ _ => ?_) ?_ | with_reducible refine Tidy.ite (fun _ => ?_) (fun _ => ?_) | simp only [tidy_mk] | split | dsimp only)

theorem keyProg_tidy {Lp : List Instr} {p : Nat} {inSession : Bool} {k : IdeKey} {s : State} (hk : Tidy Lp s) : Tidy Lp (keyProg p inSession k s) := by
  unfold keyProg
  try dsimp only
  repeat' (first | with_reducible assumption | with_reducible refine State_setPort_tidy ?_ | with_reducible refine ideStop_tidy ?_ | with_reducible refine Tidy.foldl _ (fun _ _ _ => ?_) ?_ | with_reducible refine Tidy.ite (fun _ => ?_) (fun _ => ?_) | simp only [tidy_mk] | split | dsimp only)

theorem keyGo_tidy {Lp : List Instr} {p stream : Nat} {ks : Bool} {sub : Nat} {tx : Bool} {s : State} (hk : Tidy Lp s) : Tidy Lp (keyGo p stream ks sub tx s) := by
  unfold keyGo
  try dsimp only
  repeat' (first | with_reducible assumption | with_reducible refine State_setPort_tidy ?_ | with_reducible refine Tidy.foldl _ (fun _ _ _ => ?_) ?_ | with_reducible refine Tidy.ite (fun _ => ?_) (fun _ => ?_) | simp only [tidy_mk] | split | dsimp only)

theorem keyStop_tidy {Lp : List Instr} {p stream : Nat} {ks : Bool} {sub : Nat} {tx : Bool} {s : State} (hk : Tidy Lp s) : Tidy Lp (keyStop p stream ks sub tx s) := by
  unfold keyStop
  try dsimp only
  repeat' (first | with_reducible assumption | with_reducible refine State_setPort_tidy ?_ | with_reducible refine Tidy.foldl _ (fun _ _ _ => ?_) ?_ | with_reducible refine Tidy.ite (fun _ => ?_) (fun _ => ?_) | simp only [tidy_mk] | split | dsimp only)

theorem State_setMgmt_tidy {Lp : List Instr} {s : State} {f : MgmtPort → MgmtPort} (hk : Tidy Lp s) : Tidy Lp (State.setMgmt s f) := by
  unfold State.setMgmt
  try dsimp only
  repeat' (first | with_reducible assumption | with_reducible refine Tidy.foldl _ (fun _ _ _ => ?_) ?_ | with_reducible refine Tidy.ite (fun _ => ?_) (fun _ => ?_) | simp only [tidy_mk] | split | dsimp only)

theorem frameError_tidy {Lp : List Instr} {crc : Bool} {s : State} (hk : Tidy Lp s) : Tidy Lp (frameError crc s) := by
  unfold frameError
  try dsimp only
  repeat' (first | with_reducible assumption | with_reducible refine State_raise_tidy ?_ | with_reducible refine State_setMgmt_tidy ?_ | with_reducible refine Tidy.foldl _ (fun _ _ _ => ?_) ?_ | with_reducible refine Tidy.ite (fun _ => ?_) (fun _ => ?_) | simp only [tidy_mk] | split | dsimp only)

theorem frameRead_tidy {Lp : List Instr} {len : Nat} {s : State} (hk : Tidy Lp s) : Tidy Lp (frameRead len s) := by
  unfold frameRead
  try dsimp only
  repeat' (first | with_reducible assumption | with_reducible refine State_setMgmt_tidy ?_ | with_reducible refine Tidy.foldl _ (fun _ _ _ => ?_) ?_ | with_reducible refine Tidy.ite (fun _ => ?_) (fun _ => ?_) | simp only [tidy_mk] | split | dsimp only)

theorem mgmtInterfaceReset_tidy {Lp : List Instr} {s : State} (hk : Tidy Lp s) : Tidy Lp (mgmtInterfaceReset s) := by
  unfold mgmtInterfaceReset
  try dsimp only
  repeat' (first | with_reducible assumption | with_reducible refine State_setMgmt_tidy ?_ | with_reducible refine Tidy.foldl _ (fun _ _ _ => ?_) ?_ | with_reducible refine Tidy.ite (fun _ => ?_) (fun _ => ?_) | simp only [tidy_mk] | split | dsimp only)

theorem cccRead_tidy {Lp : List Instr} {bs : List Byte} {s : State} (hk : Tidy Lp s) : Tidy Lp (cccRead bs s) := by
  unfold cccRead
  try dsimp only
  repeat' (first | with_reducible assumption | with_reducible refine State_setMgmt_tidy ?_ | with_reducible refine Tidy.foldl _ (fun _ _ _ => ?_) ?_ | with_reducible refine Tidy.ite (fun _ => ?_) (fun _ => ?_) | simp only [tidy_mk] | split | dsimp only)

theorem resetCores_tidy {Lp : List Instr} {s : State} (hk : Tidy Lp s) : Tidy Lp (resetCores s) := by
  unfold resetCores
  try dsimp only
  repeat' (first | with_reducible assumption | with_reducible refine Tidy.foldl _ (fun _ _ _ => ?_) ?_ | with_reducible refine Tidy.ite (fun _ => ?_) (fun _ => ?_) | simp only [tidy_mk] | split | dsimp only)

theorem wipeSpace_tidy {Lp : List Instr} {space : Nat} {s : State} (hk : Tidy Lp s) : Tidy Lp (wipeSpace space s) := by
  unfold wipeSpace
  try dsimp only
  repeat' (first | with_reducible assumption | with_reducible refine State_clearMem_tidy ?_ | with_reducible refine Tidy.foldl _ (fun _ _ _ => ?_) ?_ | with_reducible refine Tidy.ite (fun _ => ?_) (fun _ => ?_) | simp only [tidy_mk] | split | dsimp only)

theorem clearCustody_tidy {Lp : List Instr} {s : State} (hk : Tidy Lp s) : Tidy Lp (clearCustody s) := by
  unfold clearCustody
  try dsimp only
  repeat' (first | with_reducible assumption | with_reducible refine dramcReset_tidy ?_ | with_reducible refine engDone_tidy ?_ | with_reducible refine flashInterrupt_tidy ?_ | with_reducible refine flashReset_tidy ?_ | with_reducible refine resetCores_tidy ?_ | with_reducible refine rngRestart_tidy ?_ | with_reducible refine wipeSpace_tidy ?_ | with_reducible refine Tidy.foldl _ (fun _ _ _ => ?_) ?_ | with_reducible refine Tidy.ite (fun _ => ?_) (fun _ => ?_) | simp only [tidy_mk] | split | dsimp only)

theorem tagDetach_tidy {Lp : List Instr} {s : State} (hk : Tidy Lp s) : Tidy Lp (tagDetach s) := by
  unfold tagDetach
  try dsimp only
  repeat' (first | with_reducible assumption | with_reducible refine State_setTag_tidy ?_ | with_reducible refine Tidy.foldl _ (fun _ _ _ => ?_) ?_ | with_reducible refine Tidy.ite (fun _ => ?_) (fun _ => ?_) | simp only [tidy_mk] | split | dsimp only)

theorem warmReset_tidy {Lp : List Instr} {cause : Nat} {safe : Bool} {s : State} (hk : Tidy Lp s) : Tidy Lp (warmReset cause safe s) := by
  unfold warmReset
  try dsimp only
  repeat' (first | with_reducible assumption | with_reducible refine abandon_tidy ?_ | with_reducible refine clearCustody_tidy ?_ | with_reducible refine dropCardJobs_tidy ?_ | with_reducible refine dropLabelJobs_tidy ?_ | with_reducible refine endStreams_tidy ?_ | with_reducible refine resetHeld_tidy ?_ | with_reducible refine rstCause_tidy ?_ | with_reducible refine tagDetach_tidy ?_ | with_reducible refine Tidy.foldl _ (fun _ _ _ => ?_) ?_ | with_reducible refine Tidy.ite (fun _ => ?_) (fun _ => ?_) | simp only [tidy_mk] | split | dsimp only)

theorem postResync_tidy {Lp : List Instr} {s : State} (hk : Tidy Lp s) : Tidy Lp (postResync s) := by
  unfold postResync
  try dsimp only
  repeat' (first | with_reducible assumption | with_reducible refine State_line_tidy ?_ | with_reducible refine Tidy.foldl _ (fun _ _ _ => ?_) ?_ | with_reducible refine Tidy.ite (fun _ => ?_) (fun _ => ?_) | simp only [tidy_mk] | split | dsimp only)

theorem clearMgmt_tidy {Lp : List Instr} {s : State} (hk : Tidy Lp s) : Tidy Lp (clearMgmt s) := by
  unfold clearMgmt
  try dsimp only
  repeat' (first | with_reducible assumption | with_reducible refine cardsReset_tidy ?_ | with_reducible refine complete_tidy ?_ | with_reducible refine postResync_tidy ?_ | with_reducible refine readerReset_tidy ?_ | with_reducible refine tagReset_tidy ?_ | with_reducible refine wipeSpace_tidy ?_ | with_reducible refine Tidy.foldl _ (fun _ _ _ => ?_) ?_ | with_reducible refine Tidy.ite (fun _ => ?_) (fun _ => ?_) | simp only [tidy_mk] | split | dsimp only)

theorem mgmtFlash_tidy {Lp : List Instr} {s : State} (hk : Tidy Lp s) : Tidy Lp (mgmtFlash s) := by
  unfold mgmtFlash
  try dsimp only
  repeat' (first | with_reducible assumption | with_reducible refine complete_tidy ?_ | with_reducible refine flashInterrupt_tidy ?_ | with_reducible refine flashLock_tidy ?_ | with_reducible refine Tidy.foldl _ (fun _ _ _ => ?_) ?_ | with_reducible refine Tidy.ite (fun _ => ?_) (fun _ => ?_) | simp only [tidy_mk] | split | dsimp only)

theorem mgmtReset_tidy {Lp : List Instr} {s : State} (hk : Tidy Lp s) : Tidy Lp (mgmtReset s) := by
  unfold mgmtReset
  try dsimp only
  repeat' (first | with_reducible assumption | with_reducible refine cardsAgain_tidy ?_ | with_reducible refine clearMgmt_tidy ?_ | with_reducible refine mgmtFlash_tidy ?_ | with_reducible refine rstCause_tidy ?_ | with_reducible refine Tidy.foldl _ (fun _ _ _ => ?_) ?_ | with_reducible refine Tidy.ite (fun _ => ?_) (fun _ => ?_) | simp only [tidy_mk] | split | dsimp only)

theorem dropVolatile_tidy {Lp : List Instr} {s : State} (hk : Tidy Lp s) : Tidy Lp (dropVolatile s) := by
  unfold dropVolatile
  try dsimp only
  repeat' (first | with_reducible assumption | with_reducible refine engDone_tidy ?_ | with_reducible refine wipeSpace_tidy ?_ | with_reducible refine Tidy.foldl _ (fun _ _ _ => ?_) ?_ | with_reducible refine Tidy.ite (fun _ => ?_) (fun _ => ?_) | simp only [tidy_mk] | split | dsimp only)

theorem powerFailCheckpoint_tidy {Lp : List Instr} {s : State} (hk : Tidy Lp s) : Tidy Lp (powerFailCheckpoint s) := by
  unfold powerFailCheckpoint
  try dsimp only
  repeat' (first | with_reducible assumption | with_reducible refine State_drew_tidy ?_ | with_reducible refine Tidy.foldl _ (fun _ _ _ => ?_) ?_ | with_reducible refine Tidy.ite (fun _ => ?_) (fun _ => ?_) | simp only [tidy_mk] | split | dsimp only)

theorem powerLoss_tidy {Lp : List Instr} {declared : Bool} {s : State} (hk : Tidy Lp s) : Tidy Lp (powerLoss declared s) := by
  unfold powerLoss
  try dsimp only
  repeat' (first | with_reducible assumption | with_reducible refine boundaries_tidy ?_ | with_reducible refine dropVolatile_tidy ?_ | with_reducible refine flashInterrupt_tidy ?_ | with_reducible refine flashPowerLoss_tidy ?_ | with_reducible refine flashReset_tidy ?_ | with_reducible refine powerFailCheckpoint_tidy ?_ | with_reducible refine repostAll_tidy ?_ | with_reducible refine rstCause_tidy ?_ | with_reducible refine Tidy.foldl _ (fun _ _ _ => ?_) ?_ | with_reducible refine Tidy.ite (fun _ => ?_) (fun _ => ?_) | simp only [tidy_mk] | split | dsimp only)

theorem backupOnVin_tidy {Lp : List Instr} {s : State} (hk : Tidy Lp s) : Tidy Lp (backupOnVin s) := by
  unfold backupOnVin
  try dsimp only
  repeat' (first | with_reducible assumption | with_reducible refine State_raise_tidy ?_ | with_reducible refine Tidy.foldl _ (fun _ _ _ => ?_) ?_ | with_reducible refine Tidy.ite (fun _ => ?_) (fun _ => ?_) | simp only [tidy_mk] | split | dsimp only)

theorem powerOnReset_tidy {Lp : List Instr} {mv uf : Nat} {s : State} (hk : Tidy Lp s) : Tidy Lp (powerOnReset mv uf s) := by
  unfold powerOnReset
  try dsimp only
  repeat' (first | with_reducible assumption | with_reducible refine State_raise_tidy ?_ | with_reducible refine backupOnVin_tidy ?_ | with_reducible refine rstCause_tidy ?_ | with_reducible refine Tidy.foldl _ (fun _ _ _ => ?_) ?_ | with_reducible refine Tidy.ite (fun _ => ?_) (fun _ => ?_) | simp only [tidy_mk] | split | dsimp only)

theorem vinRise_tidy {Lp : List Instr} {mv uf : Nat} {pref : Bool} {bay : BitVec 6} {s : State} (hk : Tidy Lp s) : Tidy Lp (vinRise mv uf pref bay s) := by
  unfold vinRise
  try dsimp only
  repeat' (first | with_reducible assumption | with_reducible refine powerOnReset_tidy ?_ | with_reducible refine ringNote_tidy ?_ | with_reducible refine Tidy.foldl _ (fun _ _ _ => ?_) ?_ | with_reducible refine Tidy.ite (fun _ => ?_) (fun _ => ?_) | simp only [tidy_mk] | split | dsimp only)

theorem busClassFix_tidy {Lp : List Instr} {s : State} (hk : Tidy Lp s) : Tidy Lp (busClassFix s) := by
  unfold busClassFix
  try dsimp only
  repeat' (first | with_reducible assumption | with_reducible refine Tidy.foldl _ (fun _ _ _ => ?_) ?_ | with_reducible refine Tidy.ite (fun _ => ?_) (fun _ => ?_) | simp only [tidy_mk] | split | dsimp only)

theorem holdupCharged_tidy {Lp : List Instr} {s : State} (hk : Tidy Lp s) : Tidy Lp (holdupCharged s) := by
  unfold holdupCharged
  try dsimp only
  repeat' (first | with_reducible assumption | with_reducible refine Tidy.foldl _ (fun _ _ _ => ?_) ?_ | with_reducible refine Tidy.ite (fun _ => ?_) (fun _ => ?_) | simp only [tidy_mk] | split | dsimp only)

theorem powerFail_tidy {Lp : List Instr} {mv : Nat} {s : State} (hk : Tidy Lp s) : Tidy Lp (powerFail mv s) := by
  unfold powerFail
  try dsimp only
  repeat' (first | with_reducible assumption | with_reducible refine powerLoss_tidy ?_ | with_reducible refine Tidy.foldl _ (fun _ _ _ => ?_) ?_ | with_reducible refine Tidy.ite (fun _ => ?_) (fun _ => ?_) | simp only [tidy_mk] | split | dsimp only)

theorem failHoldRelease_tidy {Lp : List Instr} {mv uf : Nat} {s : State} (hk : Tidy Lp s) : Tidy Lp (failHoldRelease mv uf s) := by
  unfold failHoldRelease
  try dsimp only
  repeat' (first | with_reducible assumption | with_reducible refine powerOnReset_tidy ?_ | with_reducible refine Tidy.foldl _ (fun _ _ _ => ?_) ?_ | with_reducible refine Tidy.ite (fun _ => ?_) (fun _ => ?_) | simp only [tidy_mk] | split | dsimp only)

theorem allSupplyLost_tidy {Lp : List Instr} {s : State} (hk : Tidy Lp s) : Tidy Lp (allSupplyLost s) := by
  unfold allSupplyLost
  try dsimp only
  repeat' (first | with_reducible assumption | with_reducible refine backupLost_tidy ?_ | with_reducible refine Tidy.foldl _ (fun _ _ _ => ?_) ?_ | with_reducible refine Tidy.ite (fun _ => ?_) (fun _ => ?_) | simp only [tidy_mk] | split | dsimp only)

theorem vinLoss_tidy {Lp : List Instr} {mv : Nat} {s : State} (hk : Tidy Lp s) : Tidy Lp (vinLoss mv s) := by
  unfold vinLoss
  try dsimp only
  repeat' (first | with_reducible assumption | with_reducible refine allSupplyLost_tidy ?_ | with_reducible refine powerLoss_tidy ?_ | with_reducible refine Tidy.foldl _ (fun _ _ _ => ?_) ?_ | with_reducible refine Tidy.ite (fun _ => ?_) (fun _ => ?_) | simp only [tidy_mk] | split | dsimp only)

theorem vcellLow_tidy {Lp : List Instr} {mv : Nat} {s : State} (hk : Tidy Lp s) : Tidy Lp (vcellLow mv s) := by
  unfold vcellLow
  try dsimp only
  repeat' (first | with_reducible assumption | with_reducible refine State_raise_tidy ?_ | with_reducible refine allSupplyLost_tidy ?_ | with_reducible refine ringNote_tidy ?_ | with_reducible refine Tidy.foldl _ (fun _ _ _ => ?_) ?_ | with_reducible refine Tidy.ite (fun _ => ?_) (fun _ => ?_) | simp only [tidy_mk] | split | dsimp only)

theorem domainSwitch_tidy {Lp : List Instr} {m : PowerMode} {s : State} (hk : Tidy Lp s) : Tidy Lp (domainSwitch m s) := by
  unfold domainSwitch
  try dsimp only
  repeat' (first | with_reducible assumption | with_reducible refine abandonLaps_tidy ?_ | with_reducible refine boundaries_tidy ?_ | with_reducible refine cardsOff_tidy ?_ | with_reducible refine dropVolatile_tidy ?_ | with_reducible refine flashInterrupt_tidy ?_ | with_reducible refine flashReset_tidy ?_ | with_reducible refine resetCores_tidy ?_ | with_reducible refine rngRestart_tidy ?_ | with_reducible refine Tidy.foldl _ (fun _ _ _ => ?_) ?_ | with_reducible refine Tidy.ite (fun _ => ?_) (fun _ => ?_) | simp only [tidy_mk] | split | dsimp only)

theorem powerEntry_tidy {Lp : List Instr} {s : State} (hk : Tidy Lp s) : Tidy Lp (powerEntry s) := by
  unfold powerEntry
  try dsimp only
  repeat' (first | with_reducible assumption | with_reducible refine complete_tidy ?_ | with_reducible refine domainSwitch_tidy ?_ | with_reducible refine endStreams_tidy ?_ | with_reducible refine flush_tidy ?_ | with_reducible refine park2_tidy ?_ | with_reducible refine postAll_tidy ?_ | with_reducible refine queueCheckpoint_tidy ?_ | with_reducible refine Tidy.foldl _ (fun _ _ _ => ?_) ?_ | with_reducible refine Tidy.ite (fun _ => ?_) (fun _ => ?_) | simp only [tidy_mk] | split | dsimp only)

theorem pwrTarget_tidy {Lp : List Instr} {v : Word} {s : State} (hk : Tidy Lp s) : Tidy Lp (pwrTarget v s) := by
  unfold pwrTarget
  try dsimp only
  repeat' (first | with_reducible assumption | with_reducible refine domainSwitch_tidy ?_ | with_reducible refine Tidy.foldl _ (fun _ _ _ => ?_) ?_ | with_reducible refine Tidy.ite (fun _ => ?_) (fun _ => ?_) | simp only [tidy_mk] | split | dsimp only)

theorem recordWake_tidy {Lp : List Instr} {w : WakeSource} {obj : Nat} {s : State} (hk : Tidy Lp s) : Tidy Lp (recordWake w obj s) := by
  unfold recordWake
  try dsimp only
  repeat' (first | with_reducible assumption | with_reducible refine Tidy.foldl _ (fun _ _ _ => ?_) ?_ | with_reducible refine Tidy.ite (fun _ => ?_) (fun _ => ?_) | simp only [tidy_mk] | split | dsimp only)

theorem postWake_tidy {Lp : List Instr} {s : State} {w : WakeRec} (hk : Tidy Lp s) : Tidy Lp (postWake s w) := by
  unfold postWake
  try dsimp only
  repeat' (first | with_reducible assumption | with_reducible refine ringEvent_tidy ?_ | with_reducible refine slotEventAt_tidy ?_ | with_reducible refine Tidy.foldl _ (fun _ _ _ => ?_) ?_ | with_reducible refine Tidy.ite (fun _ => ?_) (fun _ => ?_) | simp only [tidy_mk] | split | dsimp only)

theorem drainWakes_tidy {Lp : List Instr} {s : State} (hk : Tidy Lp s) : Tidy Lp (drainWakes s) := by
  unfold drainWakes
  try dsimp only
  repeat' (first | with_reducible assumption | with_reducible refine postWake_tidy ?_ | with_reducible refine Tidy.foldl _ (fun _ _ _ => ?_) ?_ | with_reducible refine Tidy.ite (fun _ => ?_) (fun _ => ?_) | simp only [tidy_mk] | split | dsimp only)

theorem writeRegs_tidy {Lp : List Instr} {l : List (Nat × Word)} {s : State} (hk : Tidy Lp s) : Tidy Lp (writeRegs l s) := by
  unfold writeRegs
  try dsimp only
  repeat' (first | with_reducible assumption | with_reducible refine State_setReg_tidy ?_ | with_reducible refine Tidy.foldl _ (fun _ _ _ => ?_) ?_ | with_reducible refine Tidy.ite (fun _ => ?_) (fun _ => ?_) | simp only [tidy_mk] | split | dsimp only)

theorem wakeSteep_tidy {Lp : List Instr} {bit : Nat} {s : State} (hk : Tidy Lp s) : Tidy Lp (wakeSteep bit s) := by
  unfold wakeSteep
  try dsimp only
  repeat' (first | with_reducible assumption | with_reducible refine writeRegs_tidy ?_ | with_reducible refine Tidy.foldl _ (fun _ _ _ => ?_) ?_ | with_reducible refine Tidy.ite (fun _ => ?_) (fun _ => ?_) | simp only [tidy_mk] | split | dsimp only)

theorem wakeUp_tidy {Lp : List Instr} {bit : Nat} {s : State} (hk : Tidy Lp s) : Tidy Lp (wakeUp bit s) := by
  unfold wakeUp
  try dsimp only
  repeat' (first | with_reducible assumption | with_reducible refine drainWakes_tidy ?_ | with_reducible refine rstCause_tidy ?_ | with_reducible refine wakeSteep_tidy ?_ | with_reducible refine Tidy.foldl _ (fun _ _ _ => ?_) ?_ | with_reducible refine Tidy.ite (fun _ => ?_) (fun _ => ?_) | simp only [tidy_mk] | split | dsimp only)

theorem dormantEvent_tidy {Lp : List Instr} {w : WakeSource} {obj : Nat} {s : State} (hk : Tidy Lp s) : Tidy Lp (dormantEvent w obj s) := by
  unfold dormantEvent
  try dsimp only
  repeat' (first | with_reducible assumption | with_reducible refine postWake_tidy ?_ | with_reducible refine recordWake_tidy ?_ | with_reducible refine wakeUp_tidy ?_ | with_reducible refine Tidy.foldl _ (fun _ _ _ => ?_) ?_ | with_reducible refine Tidy.ite (fun _ => ?_) (fun _ => ?_) | simp only [tidy_mk] | split | dsimp only)

theorem wakeEvent_tidy {Lp : List Instr} {w : WakeSource} {obj : Nat} {s : State} (hk : Tidy Lp s) : Tidy Lp (wakeEvent w obj s) := by
  unfold wakeEvent
  try dsimp only
  repeat' (first | with_reducible assumption | with_reducible refine dormantEvent_tidy ?_ | with_reducible refine ringNote_tidy ?_ | with_reducible refine Tidy.foldl _ (fun _ _ _ => ?_) ?_ | with_reducible refine Tidy.ite (fun _ => ?_) (fun _ => ?_) | simp only [tidy_mk] | split | dsimp only)

theorem shelfInChange_tidy {Lp : List Instr} {v : BitVec 16} {s : State} (hk : Tidy Lp s) : Tidy Lp (shelfInChange v s) := by
  unfold shelfInChange
  try dsimp only
  repeat' (first | with_reducible assumption | with_reducible refine State_line_tidy ?_ | with_reducible refine wakeEvent_tidy ?_ | with_reducible refine Tidy.foldl _ (fun _ _ _ => ?_) ?_ | with_reducible refine Tidy.ite (fun _ => ?_) (fun _ => ?_) | simp only [tidy_mk] | split | dsimp only)

theorem kilnTier2_tidy {Lp : List Instr} {s : State} (hk : Tidy Lp s) : Tidy Lp (kilnTier2 s) := by
  unfold kilnTier2
  try dsimp only
  repeat' (first | with_reducible assumption | with_reducible refine tier1_tidy ?_ | with_reducible refine tier2_tidy ?_ | with_reducible refine Tidy.foldl _ (fun _ _ _ => ?_) ?_ | with_reducible refine Tidy.ite (fun _ => ?_) (fun _ => ?_) | simp only [tidy_mk] | split | dsimp only)

theorem kilnReset_tidy {Lp : List Instr} {s : State} (hk : Tidy Lp s) : Tidy Lp (kilnReset s) := by
  unfold kilnReset
  try dsimp only
  repeat' (first | with_reducible assumption | with_reducible refine abandon_tidy ?_ | with_reducible refine boundaries_tidy ?_ | with_reducible refine clearCustody_tidy ?_ | with_reducible refine clearMgmt_tidy ?_ | with_reducible refine endStreams_tidy ?_ | with_reducible refine repostAll_tidy ?_ | with_reducible refine rstCause_tidy ?_ | with_reducible refine tier2_tidy ?_ | with_reducible refine wipeSpace_tidy ?_ | with_reducible refine Tidy.foldl _ (fun _ _ _ => ?_) ?_ | with_reducible refine Tidy.ite (fun _ => ?_) (fun _ => ?_) | simp only [tidy_mk] | split | dsimp only)

theorem kilnTier3_tidy {Lp : List Instr} {s : State} (hk : Tidy Lp s) : Tidy Lp (kilnTier3 s) := by
  unfold kilnTier3
  try dsimp only
  repeat' (first | with_reducible assumption | with_reducible refine tier3_tidy ?_ | with_reducible refine Tidy.foldl _ (fun _ _ _ => ?_) ?_ | with_reducible refine Tidy.ite (fun _ => ?_) (fun _ => ?_) | simp only [tidy_mk] | split | dsimp only)

theorem finishKiln_tidy {Lp : List Instr} {s : State} (hk : Tidy Lp s) : Tidy Lp (finishKiln s) := by
  unfold finishKiln
  try dsimp only
  repeat' (first | with_reducible assumption | with_reducible refine tier2_tidy ?_ | with_reducible refine tier3_tidy ?_ | with_reducible refine Tidy.foldl _ (fun _ _ _ => ?_) ?_ | with_reducible refine Tidy.ite (fun _ => ?_) (fun _ => ?_) | simp only [tidy_mk] | split | dsimp only)

theorem katFaults_tidy {Lp : List Instr} {k : KatResults} {s : State} (hk : Tidy Lp s) : Tidy Lp (katFaults k s) := by
  unfold katFaults
  try dsimp only
  repeat' (first | with_reducible assumption | with_reducible refine State_raiseAt_tidy ?_ | with_reducible refine State_raise_tidy ?_ | with_reducible refine drbgFault_tidy ?_ | with_reducible refine Tidy.foldl _ (fun _ _ _ => ?_) ?_ | with_reducible refine Tidy.ite (fun _ => ?_) (fun _ => ?_) | simp only [tidy_mk] | split | dsimp only)

theorem startCcb_tidy {Lp : List Instr} {s : State} (hk : Tidy Lp s) : Tidy Lp (startCcb s) := by
  unfold startCcb
  try dsimp only
  repeat' (first | with_reducible assumption | with_reducible refine Tidy.foldl _ (fun _ _ _ => ?_) ?_ | with_reducible refine Tidy.ite (fun _ => ?_) (fun _ => ?_) | simp only [tidy_mk] | split | dsimp only)

theorem scanEnd_tidy {Lp : List Instr} {s : State} (hk : Tidy Lp s) : Tidy Lp (scanEnd s) := by
  unfold scanEnd
  try dsimp only
  repeat' (first | with_reducible assumption | with_reducible refine breakFound_tidy ?_ | with_reducible refine Tidy.foldl _ (fun _ _ _ => ?_) ?_ | with_reducible refine Tidy.ite (fun _ => ?_) (fun _ => ?_) | simp only [tidy_mk] | split | dsimp only)

theorem bootStart_tidy {Lp : List Instr} {e : BootEnv} {s : State} (hk : Tidy Lp s) : Tidy Lp (bootStart e s) := by
  unfold bootStart
  try dsimp only
  repeat' (first | with_reducible assumption | with_reducible refine State_raise_tidy ?_ | with_reducible refine armTamper_tidy ?_ | with_reducible refine bootKeys_tidy ?_ | with_reducible refine bootPairs_tidy ?_ | with_reducible refine cardsAgain_tidy ?_ | with_reducible refine decisionSplit_tidy ?_ | with_reducible refine drainWakes_tidy ?_ | with_reducible refine drawParkKey_tidy ?_ | with_reducible refine finishKiln_tidy ?_ | with_reducible refine katFaults_tidy ?_ | with_reducible refine reapplyRepairs_tidy ?_ | with_reducible refine rebuildCell_tidy ?_ | with_reducible refine rngSeed_tidy ?_ | with_reducible refine rstCause_tidy ?_ | with_reducible refine scanEnd_tidy ?_ | with_reducible refine startCcb_tidy ?_ | with_reducible refine tagPowerUp_tidy ?_ | with_reducible refine tornScan_tidy ?_ | with_reducible refine writeRegs_tidy ?_ | with_reducible refine Tidy.foldl _ (fun _ _ _ => ?_) ?_ | with_reducible refine Tidy.ite (fun _ => ?_) (fun _ => ?_) | simp only [tidy_mk] | split | dsimp only)

theorem recordFault_tidy {Lp : List Instr} {combined : Bool} {i : FaultIn} {s : State} (hk : Tidy Lp s) : Tidy Lp (recordFault combined i s).2 := by
  unfold recordFault
  try dsimp only
  repeat' (first | with_reducible assumption | with_reducible refine State_line_tidy ?_ | with_reducible refine State_report_tidy ?_ | with_reducible refine postEvent_tidy ?_ | with_reducible refine Tidy.foldl _ (fun _ _ _ => ?_) ?_ | with_reducible refine Tidy.ite (fun _ => ?_) (fun _ => ?_) | simp only [tidy_mk] | split | dsimp only)

theorem recordFault_pair {Lp : List Instr} {combined : Bool} {i : FaultIn} {s : State} {x} {t : State} (e : recordFault combined i s = (x, t)) (hk : Tidy Lp s) : Tidy Lp t := by
  have h : Tidy Lp (recordFault combined i s).2 := recordFault_tidy hk
  rw [e] at h; exact h

theorem recordAll_tidy {Lp : List Instr} {combined : Bool} {l : List FaultIn} {s : State} (hk : Tidy Lp s) : Tidy Lp (recordAll combined l s).2 := by
  induction l generalizing s with
  | nil => exact hk
  | cons x xs ih => exact ih (recordFault_tidy hk)

theorem fenceLane_tidy {Lp : List Instr} {n : Nat} {s : State} (hk : Tidy Lp s) : Tidy Lp (fenceLane n s) := by
  unfold fenceLane
  try dsimp only
  repeat' (first | with_reducible assumption | with_reducible refine State_setLane_tidy ?_ | with_reducible refine complete_tidy ?_ | with_reducible refine endStream_tidy ?_ | with_reducible refine recordEnded_tidy ?_ | with_reducible refine reportStream_tidy ?_ | with_reducible refine Tidy.foldl _ (fun _ _ _ => ?_) ?_ | with_reducible refine Tidy.ite (fun _ => ?_) (fun _ => ?_) | simp only [tidy_mk] | split | dsimp only)

theorem linkFalls_tidy {Lp : List Instr} {s : State} (hk : Tidy Lp s) : Tidy Lp (linkFalls s) := by
  unfold linkFalls
  try dsimp only
  repeat' (first | with_reducible assumption | with_reducible refine flush_tidy ?_ | with_reducible refine postEvent_tidy ?_ | with_reducible refine Tidy.foldl _ (fun _ _ _ => ?_) ?_ | with_reducible refine Tidy.ite (fun _ => ?_) (fun _ => ?_) | simp only [tidy_mk] | split | dsimp only)

theorem fenceLink_tidy {Lp : List Instr} {s : State} (hk : Tidy Lp s) : Tidy Lp (fenceLink s) := by
  unfold fenceLink
  try dsimp only
  repeat' (first | with_reducible assumption | with_reducible refine linkFalls_tidy ?_ | with_reducible refine Tidy.foldl _ (fun _ _ _ => ?_) ?_ | with_reducible refine Tidy.ite (fun _ => ?_) (fun _ => ?_) | simp only [tidy_mk] | split | dsimp only)

theorem fenceUnit_tidy {Lp : List Instr} {u : FUnit} {s : State} (hk : Tidy Lp s) : Tidy Lp (fenceUnit u s) := by
  unfold fenceUnit
  try dsimp only
  repeat' (first | with_reducible assumption | with_reducible refine State_addFence_tidy ?_ | with_reducible refine fenceLane_tidy ?_ | with_reducible refine fenceLink_tidy ?_ | with_reducible refine frontEndFenced_tidy ?_ | with_reducible refine releaseHeld_tidy ?_ | with_reducible refine rerunOrFence_tidy ?_ | with_reducible refine slotFenced_tidy ?_ | with_reducible refine surpriseDown_tidy ?_ | with_reducible refine Tidy.foldl _ (fun _ _ _ => ?_) ?_ | with_reducible refine Tidy.ite (fun _ => ?_) (fun _ => ?_) | simp only [tidy_mk] | split | dsimp only)

theorem wakeByFault_tidy {Lp : List Instr} {s : State} (hk : Tidy Lp s) : Tidy Lp (wakeByFault s) := by
  unfold wakeByFault
  try dsimp only
  repeat' (first | with_reducible assumption | with_reducible refine wakeUp_tidy ?_ | with_reducible refine Tidy.foldl _ (fun _ _ _ => ?_) ?_ | with_reducible refine Tidy.ite (fun _ => ?_) (fun _ => ?_) | simp only [tidy_mk] | split | dsimp only)

theorem mateAction_tidy {Lp : List Instr} {s : State} (hk : Tidy Lp s) : Tidy Lp (mateAction s) := by
  unfold mateAction
  try dsimp only
  repeat' (first | with_reducible assumption | with_reducible refine rstCause_tidy ?_ | with_reducible refine wakeByFault_tidy ?_ | with_reducible refine warmReset_tidy ?_ | with_reducible refine Tidy.foldl _ (fun _ _ _ => ?_) ?_ | with_reducible refine Tidy.ite (fun _ => ?_) (fun _ => ?_) | simp only [tidy_mk] | split | dsimp only)

theorem kilnAction_tidy {Lp : List Instr} {source : Nat} {s : State} (hk : Tidy Lp s) : Tidy Lp (kilnAction source s) := by
  unfold kilnAction
  try dsimp only
  repeat' (first | with_reducible assumption | with_reducible refine fireKiln_tidy ?_ | with_reducible refine Tidy.foldl _ (fun _ _ _ => ?_) ?_ | with_reducible refine Tidy.ite (fun _ => ?_) (fun _ => ?_) | simp only [tidy_mk] | split | dsimp only)

theorem reservoirAt_tidy {Lp : List Instr} {mv : Nat} {s : State} (hk : Tidy Lp s) : Tidy Lp (reservoirAt mv s) := by
  unfold reservoirAt
  try dsimp only
  repeat' (first | with_reducible assumption | with_reducible refine State_raise_tidy ?_ | with_reducible refine Tidy.foldl _ (fun _ _ _ => ?_) ?_ | with_reducible refine Tidy.ite (fun _ => ?_) (fun _ => ?_) | simp only [tidy_mk] | split | dsimp only)

theorem reservoirFell_tidy {Lp : List Instr} {mv : Nat} {s : State} (hk : Tidy Lp s) : Tidy Lp (reservoirFell mv s) := by
  unfold reservoirFell
  try dsimp only
  repeat' (first | with_reducible assumption | with_reducible refine kilnAction_tidy ?_ | with_reducible refine Tidy.foldl _ (fun _ _ _ => ?_) ?_ | with_reducible refine Tidy.ite (fun _ => ?_) (fun _ => ?_) | simp only [tidy_mk] | split | dsimp only)

theorem stopTimers_tidy {Lp : List Instr} {rs : List FRecord} {s : State} (hk : Tidy Lp s) : Tidy Lp (stopTimers rs s) := by
  unfold stopTimers
  try dsimp only
  repeat' (first | with_reducible assumption | with_reducible refine Tidy.foldl _ (fun _ _ _ => ?_) ?_ | with_reducible refine Tidy.ite (fun _ => ?_) (fun _ => ?_) | simp only [tidy_mk] | split | dsimp only)

theorem actOn_tidy {Lp : List Instr} {rs : List FRecord} {s : State} (hk : Tidy Lp s) : Tidy Lp (actOn rs s) := by
  unfold actOn
  try dsimp only
  repeat' (first | with_reducible assumption | with_reducible refine fenceUnit_tidy ?_ | with_reducible refine kilnAction_tidy ?_ | with_reducible refine mateAction_tidy ?_ | with_reducible refine stopTimers_tidy ?_ | with_reducible refine wakeByFault_tidy ?_ | with_reducible refine Tidy.foldl _ (fun _ _ _ => ?_) ?_ | with_reducible refine Tidy.ite (fun _ => ?_) (fun _ => ?_) | simp only [tidy_mk] | split | dsimp only)

theorem evaluate_tidy {Lp : List Instr} {ins : List FaultIn} {s : State} (hk : Tidy Lp s) : Tidy Lp (evaluate ins s) := by
  unfold evaluate
  try dsimp only
  repeat' (first | with_reducible assumption | with_reducible refine State_report_tidy ?_ | with_reducible refine actOn_tidy ?_ | with_reducible refine recordAll_tidy ?_ | with_reducible refine recordAll_pair (by with_reducible assumption) ?_ | with_reducible refine Tidy.foldl _ (fun _ _ _ => ?_) ?_ | with_reducible refine Tidy.ite (fun _ => ?_) (fun _ => ?_) | simp only [tidy_mk] | split | dsimp only)

theorem settleFaults_tidy {Lp : List Instr} : ∀ {n : Nat} {s : State}, Tidy Lp s → Tidy Lp (settleFaults n s)
  | 0, _, hk => hk
  | n + 1, s, hk => by
    unfold settleFaults
    split
    · exact hk
    · exact settleFaults_tidy (evaluate_tidy (by simpa only [tidy_mk] using hk))

theorem ackSources_tidy {Lp : List Instr} {sel : Nat → Bool} {s : State} (hk : Tidy Lp s) : Tidy Lp (ackSources sel s) := by
  unfold ackSources
  try dsimp only
  repeat' (first | with_reducible assumption | with_reducible refine Tidy.foldl _ (fun _ _ _ => ?_) ?_ | with_reducible refine Tidy.ite (fun _ => ?_) (fun _ => ?_) | simp only [tidy_mk] | split | dsimp only)

theorem faultAck_tidy {Lp : List Instr} {v : Word} {s : State} (hk : Tidy Lp s) : Tidy Lp (faultAck v s) := by
  unfold faultAck
  try dsimp only
  repeat' (first | with_reducible assumption | with_reducible refine State_unline_tidy ?_ | with_reducible refine ackSources_tidy ?_ | with_reducible refine setStatusBits_tidy ?_ | with_reducible refine Tidy.foldl _ (fun _ _ _ => ?_) ?_ | with_reducible refine Tidy.ite (fun _ => ?_) (fun _ => ?_) | simp only [tidy_mk] | split | dsimp only)

theorem checkExpiry_tidy {Lp : List Instr} {seq : Nat} {s : State} (hk : Tidy Lp s) : Tidy Lp (checkExpiry seq s) := by
  unfold checkExpiry
  try dsimp only
  repeat' (first | with_reducible assumption | with_reducible refine mateAction_tidy ?_ | with_reducible refine mgmtReset_tidy ?_ | with_reducible refine Tidy.foldl _ (fun _ _ _ => ?_) ?_ | with_reducible refine Tidy.ite (fun _ => ?_) (fun _ => ?_) | simp only [tidy_mk] | split | dsimp only)

theorem forceWrite_tidy {Lp : List Instr} {v : Word} {s : State} (hk : Tidy Lp s) : Tidy Lp (forceWrite v s) := by
  unfold forceWrite
  try dsimp only
  repeat' (first | with_reducible assumption | with_reducible refine State_report_tidy ?_ | with_reducible refine setStatusBits_tidy ?_ | with_reducible refine Tidy.foldl _ (fun _ _ _ => ?_) ?_ | with_reducible refine Tidy.ite (fun _ => ?_) (fun _ => ?_) | simp only [tidy_mk] | split | dsimp only)

theorem swRaise_tidy {Lp : List Instr} {v : Word} {s : State} (hk : Tidy Lp s) : Tidy Lp (swRaise v s) := by
  unfold swRaise
  try dsimp only
  repeat' (first | with_reducible assumption | with_reducible refine State_raiseAt_tidy ?_ | with_reducible refine setStatusBits_tidy ?_ | with_reducible refine Tidy.foldl _ (fun _ _ _ => ?_) ?_ | with_reducible refine Tidy.ite (fun _ => ?_) (fun _ => ?_) | simp only [tidy_mk] | split | dsimp only)

theorem pllUnlock_tidy {Lp : List Instr} {k : Nat} {s : State} (hk : Tidy Lp s) : Tidy Lp (pllUnlock k s) := by
  unfold pllUnlock
  try dsimp only
  repeat' (first | with_reducible assumption | with_reducible refine State_raiseAt_tidy ?_ | with_reducible refine State_raise_tidy ?_ | with_reducible refine Tidy.foldl _ (fun _ _ _ => ?_) ?_ | with_reducible refine Tidy.ite (fun _ => ?_) (fun _ => ?_) | simp only [tidy_mk] | split | dsimp only)

theorem State_setPair_tidy {Lp : List Instr} {s : State} {f : Pair → Pair} (hk : Tidy Lp s) : Tidy Lp (State.setPair s f) := by
  unfold State.setPair
  try dsimp only
  repeat' (first | with_reducible assumption | with_reducible refine Tidy.foldl _ (fun _ _ _ => ?_) ?_ | with_reducible refine Tidy.ite (fun _ => ?_) (fun _ => ?_) | simp only [tidy_mk] | split | dsimp only)

theorem sendPair_tidy {Lp : List Instr} {m : PairOut} {s : State} (hk : Tidy Lp s) : Tidy Lp (sendPair m s) := by
  unfold sendPair
  try dsimp only
  repeat' (first | with_reducible assumption | with_reducible refine State_setPair_tidy ?_ | with_reducible refine Tidy.foldl _ (fun _ _ _ => ?_) ?_ | with_reducible refine Tidy.ite (fun _ => ?_) (fun _ => ?_) | simp only [tidy_mk] | split | dsimp only)

theorem writeLastActive_tidy {Lp : List Instr} {recNo : Nat} {s : State} (hk : Tidy Lp s) : Tidy Lp (writeLastActive recNo s) := by
  unfold writeLastActive
  try dsimp only
  repeat' (first | with_reducible assumption | with_reducible refine Tidy.foldl _ (fun _ _ _ => ?_) ?_ | with_reducible refine Tidy.ite (fun _ => ?_) (fun _ => ?_) | simp only [tidy_mk] | split | dsimp only)

theorem becomeActive_tidy {Lp : List Instr} {epoch kind : Nat} {former : QWord} {s : State} (hk : Tidy Lp s) : Tidy Lp (becomeActive epoch kind former s) := by
  unfold becomeActive
  try dsimp only
  repeat' (first | with_reducible assumption | with_reducible refine State_setPair_tidy ?_ | with_reducible refine append_tidy ?_ | with_reducible refine postEvent_tidy ?_ | with_reducible refine writeLastActive_tidy ?_ | with_reducible refine Tidy.foldl _ (fun _ _ _ => ?_) ?_ | with_reducible refine Tidy.ite (fun _ => ?_) (fun _ => ?_) | simp only [tidy_mk] | split | dsimp only)

theorem takeOver_tidy {Lp : List Instr} {kind : Nat} {skip : List (BitVec 16 × Word)} {s : State} (hk : Tidy Lp s) : Tidy Lp (takeOver kind skip s) := by
  unfold takeOver
  try dsimp only
  repeat' (first | with_reducible assumption | with_reducible refine State_setPair_tidy ?_ | with_reducible refine becomeActive_tidy ?_ | with_reducible refine castlingReports_tidy ?_ | with_reducible refine flush_tidy ?_ | with_reducible refine wakeUp_tidy ?_ | with_reducible refine Tidy.foldl _ (fun _ _ _ => ?_) ?_ | with_reducible refine Tidy.ite (fun _ => ?_) (fun _ => ?_) | simp only [tidy_mk] | split | dsimp only)

theorem takeOverAlone_tidy {Lp : List Instr} {kind : Nat} {s : State} (hk : Tidy Lp s) : Tidy Lp (takeOverAlone kind s) := by
  unfold takeOverAlone
  try dsimp only
  repeat' (first | with_reducible assumption | with_reducible refine State_setPair_tidy ?_ | with_reducible refine complete_tidy ?_ | with_reducible refine takeOver_tidy ?_ | with_reducible refine Tidy.foldl _ (fun _ _ _ => ?_) ?_ | with_reducible refine Tidy.ite (fun _ => ?_) (fun _ => ?_) | simp only [tidy_mk] | split | dsimp only)

theorem dropEntropy_tidy {Lp : List Instr} {c : Inflight} {s : State} (hk : Tidy Lp s) : Tidy Lp (dropEntropy c s) := by
  unfold dropEntropy
  try dsimp only
  repeat' (first | with_reducible assumption | with_reducible refine rngWithdraw_tidy ?_ | with_reducible refine rngWithdraw_pair (by with_reducible assumption) ?_ | with_reducible refine Tidy.foldl _ (fun _ _ _ => ?_) ?_ | with_reducible refine Tidy.ite (fun _ => ?_) (fun _ => ?_) | simp only [tidy_mk] | split | dsimp only)

theorem dropJobRandom_tidy {Lp : List Instr} {job : Nat} {s : State} (hk : Tidy Lp s) : Tidy Lp (dropJobRandom job s) := by
  unfold dropJobRandom
  try dsimp only
  repeat' (first | with_reducible assumption | with_reducible refine rngWithdraw_tidy ?_ | with_reducible refine rngWithdraw_pair (by with_reducible assumption) ?_ | with_reducible refine Tidy.foldl _ (fun _ _ _ => ?_) ?_ | with_reducible refine Tidy.ite (fun _ => ?_) (fun _ => ?_) | simp only [tidy_mk] | split | dsimp only)

theorem withdraw_tidy {Lp : List Instr} {c : Inflight} {s : State} (hk : Tidy Lp s) : Tidy Lp (withdraw c s) := by
  unfold withdraw
  try dsimp only
  repeat' (first | with_reducible assumption | with_reducible refine dropCardJob_tidy ?_ | with_reducible refine dropEntropy_tidy ?_ | with_reducible refine dropJobRandom_tidy ?_ | with_reducible refine dropLabelJob_tidy ?_ | with_reducible refine dropLaneKeys_tidy ?_ | with_reducible refine dropRequest_tidy ?_ | with_reducible refine dropWired_tidy ?_ | with_reducible refine flashLock_tidy ?_ | with_reducible refine resumeIdle_tidy ?_ | with_reducible refine stopJobs_tidy ?_ | with_reducible refine Tidy.foldl _ (fun _ _ _ => ?_) ?_ | with_reducible refine Tidy.ite (fun _ => ?_) (fun _ => ?_) | simp only [tidy_mk] | split | dsimp only)

theorem beginPlanned_tidy {Lp : List Instr} {key : Option Nat} {leaving : Bool} {s : State} (hk : Tidy Lp s) : Tidy Lp (beginPlanned key leaving s) := by
  unfold beginPlanned
  try dsimp only
  repeat' (first | with_reducible assumption | with_reducible refine stopJobs_tidy ?_ | with_reducible refine withdraw_tidy ?_ | with_reducible refine Tidy.foldl _ (fun _ _ _ => ?_) ?_ | with_reducible refine Tidy.ite (fun _ => ?_) (fun _ => ?_) | simp only [tidy_mk] | split | dsimp only)

theorem tryPlanned_tidy {Lp : List Instr} {key : Option Nat} {leaving : Bool} {s : State} (hk : Tidy Lp s) : Tidy Lp (tryPlanned key leaving s) := by
  unfold tryPlanned
  try dsimp only
  repeat' (first | with_reducible assumption | with_reducible refine beginPlanned_tidy ?_ | with_reducible refine complete_tidy ?_ | with_reducible refine Tidy.foldl _ (fun _ _ _ => ?_) ?_ | with_reducible refine Tidy.ite (fun _ => ?_) (fun _ => ?_) | simp only [tidy_mk] | split | dsimp only)

theorem plannedDrained_tidy {Lp : List Instr} {s : State} (hk : Tidy Lp s) : Tidy Lp (plannedDrained s) := by
  unfold plannedDrained
  try dsimp only
  repeat' (first | with_reducible assumption | with_reducible refine postEvent_tidy ?_ | with_reducible refine sendPair_tidy ?_ | with_reducible refine warmReset_tidy ?_ | with_reducible refine Tidy.foldl _ (fun _ _ _ => ?_) ?_ | with_reducible refine Tidy.ite (fun _ => ?_) (fun _ => ?_) | simp only [tidy_mk] | split | dsimp only)

theorem completeCastle_tidy {Lp : List Instr} {s : State} (hk : Tidy Lp s) : Tidy Lp (completeCastle s) := by
  unfold completeCastle
  try dsimp only
  repeat' (first | with_reducible assumption | with_reducible refine State_setCommand_tidy ?_ | with_reducible refine complete_tidy ?_ | with_reducible refine Tidy.foldl _ (fun _ _ _ => ?_) ?_ | with_reducible refine Tidy.ite (fun _ => ?_) (fun _ => ?_) | simp only [tidy_mk] | split | dsimp only)

theorem secureUpTo_tidy {Lp : List Instr} {n : Nat} {s : State} (hk : Tidy Lp s) : Tidy Lp (secureUpTo n s) := by
  unfold secureUpTo
  try dsimp only
  repeat' (first | with_reducible assumption | with_reducible refine complete_tidy ?_ | with_reducible refine Tidy.foldl _ (fun _ _ _ => ?_) ?_ | with_reducible refine Tidy.ite (fun _ => ?_) (fun _ => ?_) | simp only [tidy_mk] | split | dsimp only)

theorem applyMirrored_tidy {Lp : List Instr} {r : JRecord} {s : State} (hk : Tidy Lp s) : Tidy Lp (applyMirrored r s) := by
  unfold applyMirrored
  try dsimp only
  repeat' (first | with_reducible assumption | with_reducible refine State_setPair_tidy ?_ | with_reducible refine applyDeltas_tidy ?_ | with_reducible refine completeCastle_tidy ?_ | with_reducible refine complete_tidy ?_ | with_reducible refine secureUpTo_tidy ?_ | with_reducible refine Tidy.foldl _ (fun _ _ _ => ?_) ?_ | with_reducible refine Tidy.ite (fun _ => ?_) (fun _ => ?_) | simp only [tidy_mk] | split | dsimp only)

theorem storeMirrored_tidy {Lp : List Instr} {s : State} {r : JRecord} (hk : Tidy Lp s) : Tidy Lp (storeMirrored s r) := by
  unfold storeMirrored
  try dsimp only
  repeat' (first | with_reducible assumption | with_reducible refine applyMirrored_tidy ?_ | with_reducible refine Tidy.foldl _ (fun _ _ _ => ?_) ?_ | with_reducible refine Tidy.ite (fun _ => ?_) (fun _ => ?_) | simp only [tidy_mk] | split | dsimp only)

theorem badMessage_tidy {Lp : List Instr} {s : State} (hk : Tidy Lp s) : Tidy Lp (badMessage s) := by
  unfold badMessage
  try dsimp only
  repeat' (first | with_reducible assumption | with_reducible refine State_raiseAt_tidy ?_ | with_reducible refine Tidy.foldl _ (fun _ _ _ => ?_) ?_ | with_reducible refine Tidy.ite (fun _ => ?_) (fun _ => ?_) | simp only [tidy_mk] | split | dsimp only)

theorem journalMessage_tidy {Lp : List Instr} {recs : List JRecord} {tagOk : Bool} {s : State} (hk : Tidy Lp s) : Tidy Lp (journalMessage recs tagOk s) := by
  unfold journalMessage
  try dsimp only
  repeat' (first | with_reducible assumption | with_reducible refine State_setPair_tidy ?_ | with_reducible refine appendAs_tidy ?_ | with_reducible refine badMessage_tidy ?_ | with_reducible refine sendPair_tidy ?_ | with_reducible refine storeMirrored_tidy ?_ | with_reducible refine Tidy.foldl _ (fun _ _ _ => ?_) ?_ | with_reducible refine Tidy.ite (fun _ => ?_) (fun _ => ?_) | simp only [tidy_mk] | split | dsimp only)

theorem ackMessage_tidy {Lp : List Instr} {n : Nat} {tagOk : Bool} {s : State} (hk : Tidy Lp s) : Tidy Lp (ackMessage n tagOk s) := by
  unfold ackMessage
  try dsimp only
  repeat' (first | with_reducible assumption | with_reducible refine State_drew_tidy ?_ | with_reducible refine badMessage_tidy ?_ | with_reducible refine commit_tidy ?_ | with_reducible refine Tidy.foldl _ (fun _ _ _ => ?_) ?_ | with_reducible refine Tidy.ite (fun _ => ?_) (fun _ => ?_) | simp only [tidy_mk] | split | dsimp only)

theorem acceptLate_tidy {Lp : List Instr} {n : Nat} {s : State} (hk : Tidy Lp s) : Tidy Lp (acceptLate n s) := by
  unfold acceptLate
  try dsimp only
  repeat' (first | with_reducible assumption | with_reducible refine State_raise_tidy ?_ | with_reducible refine Tidy.foldl _ (fun _ _ _ => ?_) ?_ | with_reducible refine Tidy.ite (fun _ => ?_) (fun _ => ?_) | simp only [tidy_mk] | split | dsimp only)

theorem liftFreeze_tidy {Lp : List Instr} {s : State} (hk : Tidy Lp s) : Tidy Lp (liftFreeze s) := by
  unfold liftFreeze
  try dsimp only
  repeat' (first | with_reducible assumption | with_reducible refine Tidy.foldl _ (fun _ _ _ => ?_) ?_ | with_reducible refine Tidy.ite (fun _ => ?_) (fun _ => ?_) | simp only [tidy_mk] | split | dsimp only)

theorem giveWay_tidy {Lp : List Instr} {s : State} (hk : Tidy Lp s) : Tidy Lp (giveWay s) := by
  unfold giveWay
  try dsimp only
  repeat' (first | with_reducible assumption | with_reducible refine boundaryOf_tidy ?_ | with_reducible refine warmReset_tidy ?_ | with_reducible refine Tidy.foldl _ (fun _ _ _ => ?_) ?_ | with_reducible refine Tidy.ite (fun _ => ?_) (fun _ => ?_) | simp only [tidy_mk] | split | dsimp only)

theorem beginFreeze_tidy {Lp : List Instr} {acked : Nat} {s : State} (hk : Tidy Lp s) : Tidy Lp (beginFreeze acked s) := by
  unfold beginFreeze
  try dsimp only
  repeat' (first | with_reducible assumption | with_reducible refine Tidy.foldl _ (fun _ _ _ => ?_) ?_ | with_reducible refine Tidy.ite (fun _ => ?_) (fun _ => ?_) | simp only [tidy_mk] | split | dsimp only)

theorem partnerLost_tidy {Lp : List Instr} {s : State} (hk : Tidy Lp s) : Tidy Lp (partnerLost s) := by
  unfold partnerLost
  try dsimp only
  repeat' (first | with_reducible assumption | with_reducible refine State_raiseAt_tidy ?_ | with_reducible refine State_setPair_tidy ?_ | with_reducible refine beginFreeze_tidy ?_ | with_reducible refine flush_tidy ?_ | with_reducible refine takeOverAlone_tidy ?_ | with_reducible refine Tidy.foldl _ (fun _ _ _ => ?_) ?_ | with_reducible refine Tidy.ite (fun _ => ?_) (fun _ => ?_) | simp only [tidy_mk] | split | dsimp only)

theorem pathFalls_tidy {Lp : List Instr} {path : HbPath} {s : State} (hk : Tidy Lp s) : Tidy Lp (pathFalls path s) := by
  unfold pathFalls
  try dsimp only
  repeat' (first | with_reducible assumption | with_reducible refine State_raiseAt_tidy ?_ | with_reducible refine State_setPair_tidy ?_ | with_reducible refine partnerLost_tidy ?_ | with_reducible refine Tidy.foldl _ (fun _ _ _ => ?_) ?_ | with_reducible refine Tidy.ite (fun _ => ?_) (fun _ => ?_) | simp only [tidy_mk] | split | dsimp only)

theorem pathSilent_tidy {Lp : List Instr} {path : HbPath} {s : State} (hk : Tidy Lp s) : Tidy Lp (pathSilent path s) := by
  unfold pathSilent
  try dsimp only
  repeat' (first | with_reducible assumption | with_reducible refine State_setPair_tidy ?_ | with_reducible refine dormantEvent_tidy ?_ | with_reducible refine partnerLost_tidy ?_ | with_reducible refine pathFalls_tidy ?_ | with_reducible refine Tidy.foldl _ (fun _ _ _ => ?_) ?_ | with_reducible refine Tidy.ite (fun _ => ?_) (fun _ => ?_) | simp only [tidy_mk] | split | dsimp only)

theorem heartbeatTick_tidy {Lp : List Instr} {s : State} (hk : Tidy Lp s) : Tidy Lp (heartbeatTick s) := by
  unfold heartbeatTick
  try dsimp only
  repeat' (first | with_reducible assumption | with_reducible refine Tidy.foldl _ (fun _ _ _ => ?_) ?_ | with_reducible refine Tidy.ite (fun _ => ?_) (fun _ => ?_) | simp only [tidy_mk] | split | dsimp only)

theorem beginSync_tidy {Lp : List Instr} {s : State} (hk : Tidy Lp s) : Tidy Lp (beginSync s) := by
  unfold beginSync
  try dsimp only
  repeat' (first | with_reducible assumption | with_reducible refine State_setPair_tidy ?_ | with_reducible refine Tidy.foldl _ (fun _ _ _ => ?_) ?_ | with_reducible refine Tidy.ite (fun _ => ?_) (fun _ => ?_) | simp only [tidy_mk] | split | dsimp only)

theorem hearRole_tidy {Lp : List Instr} {w : Word} {s : State} (hk : Tidy Lp s) : Tidy Lp (hearRole w s) := by
  unfold hearRole
  try dsimp only
  repeat' (first | with_reducible assumption | with_reducible refine State_drew_tidy ?_ | with_reducible refine State_setPair_tidy ?_ | with_reducible refine beginSync_tidy ?_ | with_reducible refine giveWay_tidy ?_ | with_reducible refine liftFreeze_tidy ?_ | with_reducible refine postEvent_tidy ?_ | with_reducible refine sendPair_tidy ?_ | with_reducible refine warmReset_tidy ?_ | with_reducible refine Tidy.foldl _ (fun _ _ _ => ?_) ?_ | with_reducible refine Tidy.ite (fun _ => ?_) (fun _ => ?_) | simp only [tidy_mk] | split | dsimp only)

theorem heartbeat_tidy {Lp : List Instr} {path : HbPath} {w : Word} {crcOk : Bool} {s : State} (hk : Tidy Lp s) : Tidy Lp (heartbeat path w crcOk s) := by
  unfold heartbeat
  try dsimp only
  repeat' (first | with_reducible assumption | with_reducible refine State_line_tidy ?_ | with_reducible refine State_setPair_tidy ?_ | with_reducible refine hearRole_tidy ?_ | with_reducible refine Tidy.foldl _ (fun _ _ _ => ?_) ?_ | with_reducible refine Tidy.ite (fun _ => ?_) (fun _ => ?_) | simp only [tidy_mk] | split | dsimp only)

theorem hello_tidy {Lp : List Instr} {m : Hello} {s : State} (hk : Tidy Lp s) : Tidy Lp (hello m s) := by
  unfold hello
  try dsimp only
  repeat' (first | with_reducible assumption | with_reducible refine State_drew_tidy ?_ | with_reducible refine State_raiseAt_tidy ?_ | with_reducible refine State_setPair_tidy ?_ | with_reducible refine sendPair_tidy ?_ | with_reducible refine Tidy.foldl _ (fun _ _ _ => ?_) ?_ | with_reducible refine Tidy.ite (fun _ => ?_) (fun _ => ?_) | simp only [tidy_mk] | split | dsimp only)

theorem helloProof_tidy {Lp : List Instr} {ecdsa mldsa ct : List Byte} {s : State} (hk : Tidy Lp s) : Tidy Lp (helloProof ecdsa mldsa ct s) := by
  unfold helloProof
  try dsimp only
  repeat' (first | with_reducible assumption | with_reducible refine State_raiseAt_tidy ?_ | with_reducible refine State_setPair_tidy ?_ | with_reducible refine hello_tidy ?_ | with_reducible refine sendPair_tidy ?_ | with_reducible refine Tidy.foldl _ (fun _ _ _ => ?_) ?_ | with_reducible refine Tidy.ite (fun _ => ?_) (fun _ => ?_) | simp only [tidy_mk] | split | dsimp only)

theorem election_tidy {Lp : List Instr} {s : State} (hk : Tidy Lp s) : Tidy Lp (election s) := by
  unfold election
  try dsimp only
  repeat' (first | with_reducible assumption | with_reducible refine becomeActive_tidy ?_ | with_reducible refine beginFreeze_tidy ?_ | with_reducible refine beginSync_tidy ?_ | with_reducible refine postEvent_tidy ?_ | with_reducible refine Tidy.foldl _ (fun _ _ _ => ?_) ?_ | with_reducible refine Tidy.ite (fun _ => ?_) (fun _ => ?_) | simp only [tidy_mk] | split | dsimp only)

theorem adoptPreferred_tidy {Lp : List Instr} {r : Option PrefRecord} {s : State} (hk : Tidy Lp s) : Tidy Lp (adoptPreferred r s) := by
  unfold adoptPreferred
  try dsimp only
  repeat' (first | with_reducible assumption | with_reducible refine Tidy.foldl _ (fun _ _ _ => ?_) ?_ | with_reducible refine Tidy.ite (fun _ => ?_) (fun _ => ?_) | simp only [tidy_mk] | split | dsimp only)

theorem controlMessage_tidy {Lp : List Instr} {m : CtlMsg} {tagOk : Bool} {s : State} (hk : Tidy Lp s) : Tidy Lp (controlMessage m tagOk s) := by
  unfold controlMessage
  try dsimp only
  repeat' (first | with_reducible assumption | with_reducible refine State_setPair_tidy ?_ | with_reducible refine adoptPreferred_tidy ?_ | with_reducible refine append_tidy ?_ | with_reducible refine badMessage_tidy ?_ | with_reducible refine takeOverAlone_tidy ?_ | with_reducible refine tryPlanned_tidy ?_ | with_reducible refine Tidy.foldl _ (fun _ _ _ => ?_) ?_ | with_reducible refine Tidy.ite (fun _ => ?_) (fun _ => ?_) | simp only [tidy_mk] | split | dsimp only)

theorem enrolGoesOn_tidy {Lp : List Instr} {s : State} (hk : Tidy Lp s) : Tidy Lp (enrolGoesOn s) := by
  unfold enrolGoesOn
  try dsimp only
  repeat' (first | with_reducible assumption | with_reducible refine Tidy.foldl _ (fun _ _ _ => ?_) ?_ | with_reducible refine Tidy.ite (fun _ => ?_) (fun _ => ?_) | simp only [tidy_mk] | split | dsimp only)

theorem syncMessage_tidy {Lp : List Instr} {img : SyncImage} {tagOk : Bool} {s : State} (hk : Tidy Lp s) : Tidy Lp (syncMessage img tagOk s) := by
  unfold syncMessage
  try dsimp only
  repeat' (first | with_reducible assumption | with_reducible refine State_drew_tidy ?_ | with_reducible refine State_raiseAt_tidy ?_ | with_reducible refine State_setPair_tidy ?_ | with_reducible refine adoptCr_tidy ?_ | with_reducible refine armField_tidy ?_ | with_reducible refine badMessage_tidy ?_ | with_reducible refine enrolGoesOn_tidy ?_ | with_reducible refine hold_tidy ?_ | with_reducible refine postEvent_tidy ?_ | with_reducible refine sendPair_tidy ?_ | with_reducible refine storeMirrored_tidy ?_ | with_reducible refine Tidy.foldl _ (fun _ _ _ => ?_) ?_ | with_reducible refine Tidy.ite (fun _ => ?_) (fun _ => ?_) | simp only [tidy_mk] | split | dsimp only)

theorem repairMessage_tidy {Lp : List Instr} {i : Nat} {r : KeyRecord} {tagOk : Bool} {s : State} (hk : Tidy Lp s) : Tidy Lp (repairMessage i r tagOk s) := by
  unfold repairMessage
  try dsimp only
  repeat' (first | with_reducible assumption | with_reducible refine badMessage_tidy ?_ | with_reducible refine quarantine_tidy ?_ | with_reducible refine Tidy.foldl _ (fun _ _ _ => ?_) ?_ | with_reducible refine Tidy.ite (fun _ => ?_) (fun _ => ?_) | simp only [tidy_mk] | split | dsimp only)

theorem handoverMessage_tidy {Lp : List Instr} {es : List Handed} {tagOk : Bool} {s : State} (hk : Tidy Lp s) : Tidy Lp (handoverMessage es tagOk s) := by
  unfold handoverMessage
  try dsimp only
  repeat' (first | with_reducible assumption | with_reducible refine State_setPair_tidy ?_ | with_reducible refine badMessage_tidy ?_ | with_reducible refine completeCastle_tidy ?_ | with_reducible refine takeOver_tidy ?_ | with_reducible refine Tidy.foldl _ (fun _ _ _ => ?_) ?_ | with_reducible refine Tidy.ite (fun _ => ?_) (fun _ => ?_) | simp only [tidy_mk] | split | dsimp only)

theorem linkReplay_tidy {Lp : List Instr} {advanced : Bool} {s : State} (hk : Tidy Lp s) : Tidy Lp (linkReplay advanced s) := by
  unfold linkReplay
  try dsimp only
  repeat' (first | with_reducible assumption | with_reducible refine State_raiseAt_tidy ?_ | with_reducible refine State_setPair_tidy ?_ | with_reducible refine Tidy.foldl _ (fun _ _ _ => ?_) ?_ | with_reducible refine Tidy.ite (fun _ => ?_) (fun _ => ?_) | simp only [tidy_mk] | split | dsimp only)

theorem messageArrives_tidy {Lp : List Instr} {b : List Byte} {s : State} (hk : Tidy Lp s) : Tidy Lp (messageArrives b s) := by
  unfold messageArrives
  try dsimp only
  repeat' (first | with_reducible assumption | with_reducible refine ackMessage_tidy ?_ | with_reducible refine badMessage_tidy ?_ | with_reducible refine heartbeat_tidy ?_ | with_reducible refine Tidy.foldl _ (fun _ _ _ => ?_) ?_ | with_reducible refine Tidy.ite (fun _ => ?_) (fun _ => ?_) | simp only [tidy_mk] | split | dsimp only)

theorem flitArrives_tidy {Lp : List Instr} {f : List Byte} {s : State} (hk : Tidy Lp s) : Tidy Lp (flitArrives f s) := by
  unfold flitArrives
  try dsimp only
  repeat' (first | with_reducible assumption | with_reducible refine State_setPair_tidy ?_ | with_reducible refine linkReplay_tidy ?_ | with_reducible refine messageArrives_tidy ?_ | with_reducible refine Tidy.foldl _ (fun _ _ _ => ?_) ?_ | with_reducible refine Tidy.ite (fun _ => ?_) (fun _ => ?_) | simp only [tidy_mk] | split | dsimp only)

theorem partnerLinkDown_tidy {Lp : List Instr} {s : State} (hk : Tidy Lp s) : Tidy Lp (partnerLinkDown s) := by
  unfold partnerLinkDown
  try dsimp only
  repeat' (first | with_reducible assumption | with_reducible refine linkFalls_tidy ?_ | with_reducible refine Tidy.foldl _ (fun _ _ _ => ?_) ?_ | with_reducible refine Tidy.ite (fun _ => ?_) (fun _ => ?_) | simp only [tidy_mk] | split | dsimp only)

theorem partnerLinkUp_tidy {Lp : List Instr} {s : State} (hk : Tidy Lp s) : Tidy Lp (partnerLinkUp s) := by
  unfold partnerLinkUp
  try dsimp only
  repeat' (first | with_reducible assumption | with_reducible refine State_drew_tidy ?_ | with_reducible refine State_setPair_tidy ?_ | with_reducible refine hello_tidy ?_ | with_reducible refine sendPair_tidy ?_ | with_reducible refine Tidy.foldl _ (fun _ _ _ => ?_) ?_ | with_reducible refine Tidy.ite (fun _ => ?_) (fun _ => ?_) | simp only [tidy_mk] | split | dsimp only)

theorem pairPrsntHigh_tidy {Lp : List Instr} {s : State} (hk : Tidy Lp s) : Tidy Lp (pairPrsntHigh s) := by
  unfold pairPrsntHigh
  try dsimp only
  repeat' (first | with_reducible assumption | with_reducible refine State_setPair_tidy ?_ | with_reducible refine liftFreeze_tidy ?_ | with_reducible refine Tidy.foldl _ (fun _ _ _ => ?_) ?_ | with_reducible refine Tidy.ite (fun _ => ?_) (fun _ => ?_) | simp only [tidy_mk] | split | dsimp only)

theorem settleHold_tidy {Lp : List Instr} {s : State} (hk : Tidy Lp s) : Tidy Lp (settleHold s) := by
  unfold settleHold
  try dsimp only
  repeat' (first | with_reducible assumption | with_reducible refine State_setPair_tidy ?_ | with_reducible refine Tidy.foldl _ (fun _ _ _ => ?_) ?_ | with_reducible refine Tidy.ite (fun _ => ?_) (fun _ => ?_) | simp only [tidy_mk] | split | dsimp only)

theorem revertiveReturn_tidy {Lp : List Instr} {s : State} (hk : Tidy Lp s) : Tidy Lp (revertiveReturn s) := by
  unfold revertiveReturn
  try dsimp only
  repeat' (first | with_reducible assumption | with_reducible refine State_setPair_tidy ?_ | with_reducible refine sendPair_tidy ?_ | with_reducible refine Tidy.foldl _ (fun _ _ _ => ?_) ?_ | with_reducible refine Tidy.ite (fun _ => ?_) (fun _ => ?_) | simp only [tidy_mk] | split | dsimp only)

theorem leverAct_tidy {Lp : List Instr} {s : State} (hk : Tidy Lp s) : Tidy Lp (leverAct s) := by
  unfold leverAct
  try dsimp only
  repeat' (first | with_reducible assumption | with_reducible refine State_setPair_tidy ?_ | with_reducible refine beginPlanned_tidy ?_ | with_reducible refine sendPair_tidy ?_ | with_reducible refine Tidy.foldl _ (fun _ _ _ => ?_) ?_ | with_reducible refine Tidy.ite (fun _ => ?_) (fun _ => ?_) | simp only [tidy_mk] | split | dsimp only)

theorem leverRise_tidy {Lp : List Instr} {s : State} (hk : Tidy Lp s) : Tidy Lp (leverRise s) := by
  unfold leverRise
  try dsimp only
  repeat' (first | with_reducible assumption | with_reducible refine dormantEvent_tidy ?_ | with_reducible refine leverAct_tidy ?_ | with_reducible refine recordWake_tidy ?_ | with_reducible refine ringNote_tidy ?_ | with_reducible refine Tidy.foldl _ (fun _ _ _ => ?_) ?_ | with_reducible refine Tidy.ite (fun _ => ?_) (fun _ => ?_) | simp only [tidy_mk] | split | dsimp only)

theorem leverClosed_tidy {Lp : List Instr} {s : State} (hk : Tidy Lp s) : Tidy Lp (leverClosed s) := by
  unfold leverClosed
  try dsimp only
  repeat' (first | with_reducible assumption | with_reducible refine Tidy.foldl _ (fun _ _ _ => ?_) ?_ | with_reducible refine Tidy.ite (fun _ => ?_) (fun _ => ?_) | simp only [tidy_mk] | split | dsimp only)

theorem withdrawalTimeout_tidy {Lp : List Instr} {s : State} (hk : Tidy Lp s) : Tidy Lp (withdrawalTimeout s) := by
  unfold withdrawalTimeout
  try dsimp only
  repeat' (first | with_reducible assumption | with_reducible refine flush_tidy ?_ | with_reducible refine queueCheckpoint_tidy ?_ | with_reducible refine Tidy.foldl _ (fun _ _ _ => ?_) ?_ | with_reducible refine Tidy.ite (fun _ => ?_) (fun _ => ?_) | simp only [tidy_mk] | split | dsimp only)

theorem settleShelf_tidy {Lp : List Instr} {s : State} (hk : Tidy Lp s) : Tidy Lp (settleShelf s) := by
  unfold settleShelf
  try dsimp only
  repeat' (first | with_reducible assumption | with_reducible refine Tidy.foldl _ (fun _ _ _ => ?_) ?_ | with_reducible refine Tidy.ite (fun _ => ?_) (fun _ => ?_) | simp only [tidy_mk] | split | dsimp only)

end Sys2Proof.Laws
end

