-- ==== Sys2Proof/Laws/TidyCommands.lean ====
section
/-! SUPPORT. The queue and the memory form under the bodies of the Yomir commands. -/

namespace Sys2Proof.Laws

open Sys2Proof.Machine

theorem withRandom_tidy {Lp : List Instr} {again : Bool} {key len : Nat} {body : State → State} {s : State}
    (hb : ∀ t, Tidy Lp t → Tidy Lp (body t)) (hk : Tidy Lp s) : Tidy Lp (withRandom again key len body s) := by
  unfold withRandom
  split
  · exact hb _ hk
  · exact State_waitOn_tidy (rngAsk_tidy hk)

theorem keyCreate_tidy {Lp : List Instr} {again : Bool} {key : Nat} {e : Entry} {s : State} (hk : Tidy Lp s) : Tidy Lp (keyCreate again key e s) := by
  unfold keyCreate
  try dsimp only
  repeat' (first | with_reducible assumption | with_reducible refine State_drew_tidy ?_ | with_reducible refine State_raise_tidy ?_ | with_reducible refine complete_tidy ?_ | with_reducible refine withOid_tidy (fun _ _ _ => ?_) ?_ | with_reducible refine withRandom_tidy (fun _ _ => ?_) ?_ | with_reducible refine Tidy.foldl _ (fun _ _ _ => ?_) ?_ | with_reducible refine Tidy.ite (fun _ => ?_) (fun _ => ?_) | simp only [tidy_mk] | split | dsimp only)

theorem keyLookup_tidy {Lp : List Instr} {key : Nat} {e : Entry} {s : State} (hk : Tidy Lp s) : Tidy Lp (keyLookup key e s) := by
  unfold keyLookup
  try dsimp only
  repeat' (first | with_reducible assumption | with_reducible refine complete_tidy ?_ | with_reducible refine withOid_tidy (fun _ _ _ => ?_) ?_ | with_reducible refine Tidy.foldl _ (fun _ _ _ => ?_) ?_ | with_reducible refine Tidy.ite (fun _ => ?_) (fun _ => ?_) | simp only [tidy_mk] | split | dsimp only)

theorem keyRotate_tidy {Lp : List Instr} {again : Bool} {key : Nat} {e : Entry} {s : State} (hk : Tidy Lp s) : Tidy Lp (keyRotate again key e s) := by
  unfold keyRotate
  try dsimp only
  repeat' (first | with_reducible assumption | with_reducible refine State_drew_tidy ?_ | with_reducible refine complete_tidy ?_ | with_reducible refine withKey_tidy (fun _ _ => ?_) ?_ | with_reducible refine withOid_tidy (fun _ _ _ => ?_) ?_ | with_reducible refine withRandom_tidy (fun _ _ => ?_) ?_ | with_reducible refine Tidy.foldl _ (fun _ _ _ => ?_) ?_ | with_reducible refine Tidy.ite (fun _ => ?_) (fun _ => ?_) | simp only [tidy_mk] | split | dsimp only)

theorem keySetState_tidy {Lp : List Instr} {key : Nat} {e : Entry} {s : State} (hk : Tidy Lp s) : Tidy Lp (keySetState key e s) := by
  unfold keySetState
  try dsimp only
  repeat' (first | with_reducible assumption | with_reducible refine complete_tidy ?_ | with_reducible refine withKey_tidy (fun _ _ => ?_) ?_ | with_reducible refine Tidy.foldl _ (fun _ _ _ => ?_) ?_ | with_reducible refine Tidy.ite (fun _ => ?_) (fun _ => ?_) | simp only [tidy_mk] | split | dsimp only)

theorem clearKeySlots_tidy {Lp : List Instr} {kh : Word} {s : State} (hk : Tidy Lp s) : Tidy Lp (clearKeySlots kh s) := by
  unfold clearKeySlots
  try dsimp only
  repeat' (first | with_reducible assumption | with_reducible refine Tidy.foldl _ (fun _ _ _ => ?_) ?_ | with_reducible refine Tidy.ite (fun _ => ?_) (fun _ => ?_) | simp only [tidy_mk] | split | dsimp only)

theorem keyShred_tidy {Lp : List Instr} {key : Nat} {e : Entry} {s : State} (hk : Tidy Lp s) : Tidy Lp (keyShred key e s) := by
  unfold keyShred
  try dsimp only
  repeat' (first | with_reducible assumption | with_reducible refine clearKeySlots_tidy ?_ | with_reducible refine complete_tidy ?_ | with_reducible refine withKey_tidy (fun _ _ => ?_) ?_ | with_reducible refine Tidy.foldl _ (fun _ _ _ => ?_) ?_ | with_reducible refine Tidy.ite (fun _ => ?_) (fun _ => ?_) | simp only [tidy_mk] | split | dsimp only)

theorem keyPin_tidy {Lp : List Instr} {key : Nat} {e : Entry} {s : State} (hk : Tidy Lp s) : Tidy Lp (keyPin key e s) := by
  unfold keyPin
  try dsimp only
  repeat' (first | with_reducible assumption | with_reducible refine complete_tidy ?_ | with_reducible refine withKey_tidy (fun _ _ => ?_) ?_ | with_reducible refine Tidy.foldl _ (fun _ _ _ => ?_) ?_ | with_reducible refine Tidy.ite (fun _ => ?_) (fun _ => ?_) | simp only [tidy_mk] | split | dsimp only)

theorem keyExport_tidy {Lp : List Instr} {again : Bool} {key : Nat} {src : Source} {e : Entry} {s : State} (hk : Tidy Lp s) : Tidy Lp (keyExport again key src e s) := by
  unfold keyExport
  try dsimp only
  repeat' (first | with_reducible assumption | with_reducible refine State_drew_tidy ?_ | with_reducible refine completeOutput_tidy ?_ | with_reducible refine complete_tidy ?_ | with_reducible refine pushSign_tidy ?_ | with_reducible refine withKey_tidy (fun _ _ => ?_) ?_ | with_reducible refine Tidy.foldl _ (fun _ _ _ => ?_) ?_ | with_reducible refine Tidy.ite (fun _ => ?_) (fun _ => ?_) | simp only [tidy_mk] | split | dsimp only)

theorem keyImport_tidy {Lp : List Instr} {key : Nat} {src : Source} {e : Entry} {s : State} (hk : Tidy Lp s) : Tidy Lp (keyImport key src e s) := by
  unfold keyImport
  try dsimp only
  repeat' (first | with_reducible assumption | with_reducible refine State_raise_tidy ?_ | with_reducible refine complete_tidy ?_ | with_reducible refine withOid_tidy (fun _ _ _ => ?_) ?_ | with_reducible refine Tidy.foldl _ (fun _ _ _ => ?_) ?_ | with_reducible refine Tidy.ite (fun _ => ?_) (fun _ => ?_) | simp only [tidy_mk] | split | dsimp only)

theorem quorumBegin_tidy {Lp : List Instr} {again : Bool} {key : Nat} {src : Source} {e : Entry} {s : State} (hk : Tidy Lp s) : Tidy Lp (quorumBegin again key src e s) := by
  unfold quorumBegin
  try dsimp only
  repeat' (first | with_reducible assumption | with_reducible refine State_drew_tidy ?_ | with_reducible refine complete_tidy ?_ | with_reducible refine withRandom_tidy (fun _ _ => ?_) ?_ | with_reducible refine writeOutput_eq (by with_reducible assumption) ?_ | with_reducible refine Tidy.foldl _ (fun _ _ _ => ?_) ?_ | with_reducible refine Tidy.ite (fun _ => ?_) (fun _ => ?_) | simp only [tidy_mk] | split | dsimp only)

theorem grantSession_tidy {Lp : List Instr} {key : Nat} {x : Session} {s : State} (hk : Tidy Lp s) : Tidy Lp (grantSession key x s) := by
  unfold grantSession
  try dsimp only
  repeat' (first | with_reducible assumption | with_reducible refine State_endSession_tidy ?_ | with_reducible refine State_raise_tidy ?_ | with_reducible refine State_setSession_tidy ?_ | with_reducible refine State_setVslot_tidy ?_ | with_reducible refine complete_tidy ?_ | with_reducible refine Tidy.foldl _ (fun _ _ _ => ?_) ?_ | with_reducible refine Tidy.ite (fun _ => ?_) (fun _ => ?_) | simp only [tidy_mk] | split | dsimp only)

theorem countApproval_tidy {Lp : List Instr} {key id : Nat} {x : Session} {blob : List Byte} {s : State} (hk : Tidy Lp s) : Tidy Lp (countApproval key id x blob s) := by
  unfold countApproval
  try dsimp only
  repeat' (first | with_reducible assumption | with_reducible refine State_raise_tidy ?_ | with_reducible refine State_setSession_tidy ?_ | with_reducible refine complete_tidy ?_ | with_reducible refine grantSession_tidy ?_ | with_reducible refine Tidy.foldl _ (fun _ _ _ => ?_) ?_ | with_reducible refine Tidy.ite (fun _ => ?_) (fun _ => ?_) | simp only [tidy_mk] | split | dsimp only)

theorem dropBlob_tidy {Lp : List Instr} {key : Nat} {s : State} (hk : Tidy Lp s) : Tidy Lp (dropBlob key s) := by
  unfold dropBlob
  try dsimp only
  repeat' (first | with_reducible assumption | with_reducible refine Tidy.foldl _ (fun _ _ _ => ?_) ?_ | with_reducible refine Tidy.ite (fun _ => ?_) (fun _ => ?_) | simp only [tidy_mk] | split | dsimp only)

theorem quorumApprove_tidy {Lp : List Instr} {again : Bool} {key : Nat} {src : Source} {e : Entry} {s : State} (hk : Tidy Lp s) : Tidy Lp (quorumApprove again key src e s) := by
  unfold quorumApprove
  try dsimp only
  repeat' (first | with_reducible assumption | with_reducible refine complete_tidy ?_ | with_reducible refine countApproval_tidy ?_ | with_reducible refine dropBlob_tidy ?_ | with_reducible refine pushCard_tidy ?_ | with_reducible refine Tidy.foldl _ (fun _ _ _ => ?_) ?_ | with_reducible refine Tidy.ite (fun _ => ?_) (fun _ => ?_) | simp only [tidy_mk] | split | dsimp only)

theorem quorumEnd_tidy {Lp : List Instr} {key : Nat} {e : Entry} {s : State} (hk : Tidy Lp s) : Tidy Lp (quorumEnd key e s) := by
  unfold quorumEnd
  try dsimp only
  repeat' (first | with_reducible assumption | with_reducible refine State_endSession_tidy ?_ | with_reducible refine complete_tidy ?_ | with_reducible refine Tidy.foldl _ (fun _ _ _ => ?_) ?_ | with_reducible refine Tidy.ite (fun _ => ?_) (fun _ => ?_) | simp only [tidy_mk] | split | dsimp only)

theorem sessionExpiry_tidy {Lp : List Instr} {g : BitVec 16} {s : State} (hk : Tidy Lp s) : Tidy Lp (sessionExpiry g s) := by
  unfold sessionExpiry
  try dsimp only
  repeat' (first | with_reducible assumption | with_reducible refine State_setSession_tidy ?_ | with_reducible refine Tidy.foldl _ (fun _ _ _ => ?_) ?_ | with_reducible refine Tidy.ite (fun _ => ?_) (fun _ => ?_) | simp only [tidy_mk] | split | dsimp only)

theorem writeCustodians_tidy {Lp : List Instr} {cr : Hash} {m n : Nat} {cs : List Custodian} {s : State} (hk : Tidy Lp s) : Tidy Lp (writeCustodians cr m n cs s) := by
  unfold writeCustodians
  try dsimp only
  repeat' (first | with_reducible assumption | with_reducible refine Tidy.foldl _ (fun _ _ _ => ?_) ?_ | with_reducible refine Tidy.ite (fun _ => ?_) (fun _ => ?_) | simp only [tidy_mk] | split | dsimp only)

theorem commission_tidy {Lp : List Instr} {key m n : Nat} {cs : List Custodian} {ref : Hash} {s : State} (hk : Tidy Lp s) : Tidy Lp (commission key m n cs ref s) := by
  unfold commission
  try dsimp only
  repeat' (first | with_reducible assumption | with_reducible refine State_storeLifecycle_tidy ?_ | with_reducible refine append_tidy ?_ | with_reducible refine complete_tidy ?_ | with_reducible refine postEvent_tidy ?_ | with_reducible refine writeCustodians_tidy ?_ | with_reducible refine Tidy.foldl _ (fun _ _ _ => ?_) ?_ | with_reducible refine Tidy.ite (fun _ => ?_) (fun _ => ?_) | simp only [tidy_mk] | split | dsimp only)

theorem enrolCommission_tidy {Lp : List Instr} {again : Bool} {key : Nat} {src : Source} {e : Entry} {s : State} (hk : Tidy Lp s) : Tidy Lp (enrolCommission again key src e s) := by
  unfold enrolCommission
  try dsimp only
  repeat' (first | with_reducible assumption | with_reducible refine State_waitOn_tidy ?_ | with_reducible refine adoptCr_tidy ?_ | with_reducible refine commission_tidy ?_ | with_reducible refine complete_tidy ?_ | with_reducible refine withRandom_tidy (fun _ _ => ?_) ?_ | with_reducible refine Tidy.foldl _ (fun _ _ _ => ?_) ?_ | with_reducible refine Tidy.ite (fun _ => ?_) (fun _ => ?_) | simp only [tidy_mk] | split | dsimp only)

theorem enrolRetire_tidy {Lp : List Instr} {key : Nat} {s : State} (hk : Tidy Lp s) : Tidy Lp (enrolRetire key s) := by
  unfold enrolRetire
  try dsimp only
  repeat' (first | with_reducible assumption | with_reducible refine State_storeLifecycle_tidy ?_ | with_reducible refine complete_tidy ?_ | with_reducible refine fireKiln_tidy ?_ | with_reducible refine flush_tidy ?_ | with_reducible refine postEvent_tidy ?_ | with_reducible refine Tidy.foldl _ (fun _ _ _ => ?_) ?_ | with_reducible refine Tidy.ite (fun _ => ?_) (fun _ => ?_) | simp only [tidy_mk] | split | dsimp only)

theorem custodianEnroll_tidy {Lp : List Instr} {again : Bool} {key : Nat} {src : Source} {e : Entry} {s : State} (hk : Tidy Lp s) : Tidy Lp (custodianEnroll again key src e s) := by
  unfold custodianEnroll
  try dsimp only
  repeat' (first | with_reducible assumption | with_reducible refine State_storeLifecycle_tidy ?_ | with_reducible refine armTamper_tidy ?_ | with_reducible refine complete_tidy ?_ | with_reducible refine enrolCommission_tidy ?_ | with_reducible refine enrolRetire_tidy ?_ | with_reducible refine postEvent_tidy ?_ | with_reducible refine withRandom_tidy (fun _ _ => ?_) ?_ | with_reducible refine writeCustodians_tidy ?_ | with_reducible refine Tidy.foldl _ (fun _ _ _ => ?_) ?_ | with_reducible refine Tidy.ite (fun _ => ?_) (fun _ => ?_) | simp only [tidy_mk] | split | dsimp only)

theorem manifestCommit_tidy {Lp : List Instr} {key : Nat} {e : Entry} {s : State} (hk : Tidy Lp s) : Tidy Lp (manifestCommit key e s) := by
  unfold manifestCommit
  try dsimp only
  repeat' (first | with_reducible assumption | with_reducible refine complete_tidy ?_ | with_reducible refine withOid_tidy (fun _ _ _ => ?_) ?_ | with_reducible refine Tidy.foldl _ (fun _ _ _ => ?_) ?_ | with_reducible refine Tidy.ite (fun _ => ?_) (fun _ => ?_) | simp only [tidy_mk] | split | dsimp only)

theorem manifestRead_tidy {Lp : List Instr} {key : Nat} {src : Source} {e : Entry} {s : State} (hk : Tidy Lp s) : Tidy Lp (manifestRead key src e s) := by
  unfold manifestRead
  try dsimp only
  repeat' (first | with_reducible assumption | with_reducible refine completeOutput_tidy ?_ | with_reducible refine complete_tidy ?_ | with_reducible refine Tidy.foldl _ (fun _ _ _ => ?_) ?_ | with_reducible refine Tidy.ite (fun _ => ?_) (fun _ => ?_) | simp only [tidy_mk] | split | dsimp only)

theorem journalRead_tidy {Lp : List Instr} {key : Nat} {src : Source} {e : Entry} {s : State} (hk : Tidy Lp s) : Tidy Lp (journalRead key src e s) := by
  unfold journalRead
  try dsimp only
  repeat' (first | with_reducible assumption | with_reducible refine completeOutput_tidy ?_ | with_reducible refine complete_tidy ?_ | with_reducible refine ringBreak_tidy ?_ | with_reducible refine Tidy.foldl _ (fun _ _ _ => ?_) ?_ | with_reducible refine Tidy.ite (fun _ => ?_) (fun _ => ?_) | simp only [tidy_mk] | split | dsimp only)

theorem writeCheckpoint_tidy {Lp : List Instr} {s : State} (hk : Tidy Lp s) : Tidy Lp (writeCheckpoint s) := by
  unfold writeCheckpoint
  try dsimp only
  repeat' (first | with_reducible assumption | with_reducible refine State_drew_tidy ?_ | with_reducible refine append_tidy ?_ | with_reducible refine Tidy.foldl _ (fun _ _ _ => ?_) ?_ | with_reducible refine Tidy.ite (fun _ => ?_) (fun _ => ?_) | simp only [tidy_mk] | split | dsimp only)

theorem journalCheckpoint_tidy {Lp : List Instr} {again : Bool} {key : Nat} {s : State} (hk : Tidy Lp s) : Tidy Lp (journalCheckpoint again key s) := by
  unfold journalCheckpoint
  try dsimp only
  repeat' (first | with_reducible assumption | with_reducible refine complete_tidy ?_ | with_reducible refine pushSign_tidy ?_ | with_reducible refine writeCheckpoint_tidy ?_ | with_reducible refine Tidy.foldl _ (fun _ _ _ => ?_) ?_ | with_reducible refine Tidy.ite (fun _ => ?_) (fun _ => ?_) | simp only [tidy_mk] | split | dsimp only)

theorem checkpointFault_tidy {Lp : List Instr} {key : Nat} {s : State} (hk : Tidy Lp s) : Tidy Lp (checkpointFault key s) := by
  unfold checkpointFault
  try dsimp only
  repeat' (first | with_reducible assumption | with_reducible refine State_raise_tidy ?_ | with_reducible refine State_setCommand_tidy ?_ | with_reducible refine complete_tidy ?_ | with_reducible refine pushSign_tidy ?_ | with_reducible refine Tidy.foldl _ (fun _ _ _ => ?_) ?_ | with_reducible refine Tidy.ite (fun _ => ?_) (fun _ => ?_) | simp only [tidy_mk] | split | dsimp only)

theorem withImageKey_tidy {Lp : List Instr} {n : Nat} {s : State} (hk : Tidy Lp s) : Tidy Lp (withImageKey n s) := by
  unfold withImageKey
  try dsimp only
  repeat' (first | with_reducible assumption | with_reducible refine State_setVslot_tidy ?_ | with_reducible refine Tidy.foldl _ (fun _ _ _ => ?_) ?_ | with_reducible refine Tidy.ite (fun _ => ?_) (fun _ => ?_) | simp only [tidy_mk] | split | dsimp only)

theorem exportImage_tidy {Lp : List Instr} {again : Bool} {full : Bool} {key : Nat} {src : Source} {e : Entry} {s : State} (hk : Tidy Lp s) : Tidy Lp (exportImage again full key src e s) := by
  unfold exportImage
  try dsimp only
  repeat' (first | with_reducible assumption | with_reducible refine State_drew_tidy ?_ | with_reducible refine State_setVslot_tidy ?_ | with_reducible refine append_tidy ?_ | with_reducible refine complete_tidy ?_ | with_reducible refine pushSign_tidy ?_ | with_reducible refine ringBreak_tidy ?_ | with_reducible refine withImageKey_tidy ?_ | with_reducible refine writeOutput_eq (by with_reducible assumption) ?_ | with_reducible refine Tidy.foldl _ (fun _ _ _ => ?_) ?_ | with_reducible refine Tidy.ite (fun _ => ?_) (fun _ => ?_) | simp only [tidy_mk] | split | dsimp only)

theorem ackImage_tidy {Lp : List Instr} {key : Nat} {e : Entry} {s : State} (hk : Tidy Lp s) : Tidy Lp (ackImage key e s) := by
  unfold ackImage
  try dsimp only
  repeat' (first | with_reducible assumption | with_reducible refine append_tidy ?_ | with_reducible refine complete_tidy ?_ | with_reducible refine journalEvents_tidy ?_ | with_reducible refine secureUpTo_tidy ?_ | with_reducible refine Tidy.foldl _ (fun _ _ _ => ?_) ?_ | with_reducible refine Tidy.ite (fun _ => ?_) (fun _ => ?_) | simp only [tidy_mk] | split | dsimp only)

theorem vaultExport_tidy {Lp : List Instr} {again : Bool} {key : Nat} {src : Source} {e : Entry} {s : State} (hk : Tidy Lp s) : Tidy Lp (vaultExport again key src e s) := by
  unfold vaultExport
  try dsimp only
  repeat' (first | with_reducible assumption | with_reducible refine ackImage_tidy ?_ | with_reducible refine complete_tidy ?_ | with_reducible refine exportImage_tidy ?_ | with_reducible refine Tidy.foldl _ (fun _ _ _ => ?_) ?_ | with_reducible refine Tidy.ite (fun _ => ?_) (fun _ => ?_) | simp only [tidy_mk] | split | dsimp only)

theorem applyImage_tidy {Lp : List Instr} {mode : Nat} {b : List Byte} {s : State} (hk : Tidy Lp s) : Tidy Lp (applyImage mode b s) := by
  unfold applyImage
  try dsimp only
  repeat' (first | with_reducible assumption | with_reducible refine hold_tidy ?_ | with_reducible refine Tidy.foldl _ (fun _ _ _ => ?_) ?_ | with_reducible refine Tidy.ite (fun _ => ?_) (fun _ => ?_) | simp only [tidy_mk] | split | dsimp only)

theorem replayRecord_tidy {Lp : List Instr} {s : State} {r : JRecord} (hk : Tidy Lp s) : Tidy Lp (replayRecord s r) := by
  unfold replayRecord
  try dsimp only
  repeat' (first | with_reducible assumption | with_reducible refine applyDeltas_tidy ?_ | with_reducible refine complete_tidy ?_ | with_reducible refine Tidy.foldl _ (fun _ _ _ => ?_) ?_ | with_reducible refine Tidy.ite (fun _ => ?_) (fun _ => ?_) | simp only [tidy_mk] | split | dsimp only)

theorem skipAll_tidy {Lp : List Instr} {s : State} (hk : Tidy Lp s) : Tidy Lp (skipAll s) := by
  unfold skipAll
  try dsimp only
  repeat' (first | with_reducible assumption | with_reducible refine Tidy.foldl _ (fun _ _ _ => ?_) ?_ | with_reducible refine Tidy.ite (fun _ => ?_) (fun _ => ?_) | simp only [tidy_mk] | split | dsimp only)

theorem tryJoin_tidy {Lp : List Instr} {chainL : Hash} {s : State} (hk : Tidy Lp s) : Tidy Lp (tryJoin chainL s).2 := by
  unfold tryJoin
  try dsimp only
  repeat' (first | with_reducible assumption | with_reducible refine append_tidy ?_ | with_reducible refine hold_tidy ?_ | with_reducible refine replayRecord_tidy ?_ | with_reducible refine skipAll_tidy ?_ | with_reducible refine Tidy.foldl _ (fun _ _ _ => ?_) ?_ | with_reducible refine Tidy.ite (fun _ => ?_) (fun _ => ?_) | simp only [tidy_mk] | split | dsimp only)

theorem tryJoin_pair {Lp : List Instr} {chainL : Hash} {s : State} {x} {t : State} (e : tryJoin chainL s = (x, t)) (hk : Tidy Lp s) : Tidy Lp t := by
  have h : Tidy Lp (tryJoin chainL s).2 := tryJoin_tidy hk
  rw [e] at h; exact h

theorem vaultImport_tidy {Lp : List Instr} {again : Bool} {key : Nat} {src : Source} {e : Entry} {s : State} (hk : Tidy Lp s) : Tidy Lp (vaultImport again key src e s) := by
  unfold vaultImport
  try dsimp only
  repeat' (first | with_reducible assumption | with_reducible refine State_drew_tidy ?_ | with_reducible refine State_raise_tidy ?_ | with_reducible refine State_setVslot_tidy ?_ | with_reducible refine adoptCr_tidy ?_ | with_reducible refine append_tidy ?_ | with_reducible refine applyImage_tidy ?_ | with_reducible refine armField_tidy ?_ | with_reducible refine breakFound_tidy ?_ | with_reducible refine complete_tidy ?_ | with_reducible refine postEvent_tidy ?_ | with_reducible refine tryJoin_tidy ?_ | with_reducible refine tryJoin_pair (by with_reducible assumption) ?_ | with_reducible refine withImageKey_tidy ?_ | with_reducible refine withRandom_tidy (fun _ _ => ?_) ?_ | with_reducible refine Tidy.foldl _ (fun _ _ _ => ?_) ?_ | with_reducible refine Tidy.ite (fun _ => ?_) (fun _ => ?_) | simp only [tidy_mk] | split | dsimp only)

theorem identify_tidy {Lp : List Instr} {key : Nat} {src : Source} {s : State} (hk : Tidy Lp s) : Tidy Lp (identify key src s) := by
  unfold identify
  try dsimp only
  repeat' (first | with_reducible assumption | with_reducible refine complete_tidy ?_ | with_reducible refine hold_tidy ?_ | with_reducible refine Tidy.foldl _ (fun _ _ _ => ?_) ?_ | with_reducible refine Tidy.ite (fun _ => ?_) (fun _ => ?_) | simp only [tidy_mk] | split | dsimp only)

theorem selftest_tidy {Lp : List Instr} {key : Nat} {s : State} (hk : Tidy Lp s) : Tidy Lp (selftest key s) := by
  unfold selftest
  try dsimp only
  repeat' (first | with_reducible assumption | with_reducible refine State_drew_tidy ?_ | with_reducible refine State_raise_tidy ?_ | with_reducible refine complete_tidy ?_ | with_reducible refine decisionSplit_tidy ?_ | with_reducible refine katFaults_tidy ?_ | with_reducible refine postAll_tidy ?_ | with_reducible refine rstCause_tidy ?_ | with_reducible refine warmReset_tidy ?_ | with_reducible refine Tidy.foldl _ (fun _ _ _ => ?_) ?_ | with_reducible refine Tidy.ite (fun _ => ?_) (fun _ => ?_) | simp only [tidy_mk] | split | dsimp only)

theorem queueCreate_tidy {Lp : List Instr} {key : Nat} {src : Source} {e : Entry} {s : State} (hk : Tidy Lp s) : Tidy Lp (queueCreate key src e s) := by
  unfold queueCreate
  try dsimp only
  repeat' (first | with_reducible assumption | with_reducible refine complete_tidy ?_ | with_reducible refine openQueue_tidy ?_ | with_reducible refine Tidy.foldl _ (fun _ _ _ => ?_) ?_ | with_reducible refine Tidy.ite (fun _ => ?_) (fun _ => ?_) | simp only [tidy_mk] | split | dsimp only)

theorem queueDrained_tidy {Lp : List Instr} {key qid : Nat} {s : State} (hk : Tidy Lp s) : Tidy Lp (queueDrained key qid s) := by
  unfold queueDrained
  try dsimp only
  repeat' (first | with_reducible assumption | with_reducible refine closeQueue_tidy ?_ | with_reducible refine complete_tidy ?_ | with_reducible refine Tidy.foldl _ (fun _ _ _ => ?_) ?_ | with_reducible refine Tidy.ite (fun _ => ?_) (fun _ => ?_) | simp only [tidy_mk] | split | dsimp only)

theorem queueDelete_tidy {Lp : List Instr} {key : Nat} {src : Source} {e : Entry} {s : State} (hk : Tidy Lp s) : Tidy Lp (queueDelete key src e s) := by
  unfold queueDelete
  try dsimp only
  repeat' (first | with_reducible assumption | with_reducible refine State_setQueue_tidy ?_ | with_reducible refine State_waitOn_tidy ?_ | with_reducible refine complete_tidy ?_ | with_reducible refine queueDrained_tidy ?_ | with_reducible refine Tidy.foldl _ (fun _ _ _ => ?_) ?_ | with_reducible refine Tidy.ite (fun _ => ?_) (fun _ => ?_) | simp only [tidy_mk] | split | dsimp only)

theorem abort_tidy {Lp : List Instr} {key : Nat} {src : Source} {e : Entry} {s : State} (hk : Tidy Lp s) : Tidy Lp (abort key src e s) := by
  unfold abort
  try dsimp only
  repeat' (first | with_reducible assumption | with_reducible refine complete_tidy ?_ | with_reducible refine withdraw_tidy ?_ | with_reducible refine Tidy.foldl _ (fun _ _ _ => ?_) ?_ | with_reducible refine Tidy.ite (fun _ => ?_) (fun _ => ?_) | simp only [tidy_mk] | split | dsimp only)

theorem setTime_tidy {Lp : List Instr} {key : Nat} {e : Entry} {s : State} (hk : Tidy Lp s) : Tidy Lp (setTime key e s) := by
  unfold setTime
  try dsimp only
  repeat' (first | with_reducible assumption | with_reducible refine complete_tidy ?_ | with_reducible refine Tidy.foldl _ (fun _ _ _ => ?_) ?_ | with_reducible refine Tidy.ite (fun _ => ?_) (fun _ => ?_) | simp only [tidy_mk] | split | dsimp only)

theorem getLog_tidy {Lp : List Instr} {key : Nat} {src : Source} {e : Entry} {s : State} (hk : Tidy Lp s) : Tidy Lp (getLog key src e s) := by
  unfold getLog
  try dsimp only
  repeat' (first | with_reducible assumption | with_reducible refine completeOutput_tidy ?_ | with_reducible refine complete_tidy ?_ | with_reducible refine Tidy.foldl _ (fun _ _ _ => ?_) ?_ | with_reducible refine Tidy.ite (fun _ => ?_) (fun _ => ?_) | simp only [tidy_mk] | split | dsimp only)

theorem powerState_tidy {Lp : List Instr} {key : Nat} {e : Entry} {s : State} (hk : Tidy Lp s) : Tidy Lp (powerState key e s) := by
  unfold powerState
  try dsimp only
  repeat' (first | with_reducible assumption | with_reducible refine State_waitOn_tidy ?_ | with_reducible refine complete_tidy ?_ | with_reducible refine Tidy.foldl _ (fun _ _ _ => ?_) ?_ | with_reducible refine Tidy.ite (fun _ => ?_) (fun _ => ?_) | simp only [tidy_mk] | split | dsimp only)

theorem wakePolicy_tidy {Lp : List Instr} {key : Nat} {e : Entry} {s : State} (hk : Tidy Lp s) : Tidy Lp (wakePolicy key e s) := by
  unfold wakePolicy
  try dsimp only
  repeat' (first | with_reducible assumption | with_reducible refine State_setReg_tidy ?_ | with_reducible refine complete_tidy ?_ | with_reducible refine Tidy.foldl _ (fun _ _ _ => ?_) ?_ | with_reducible refine Tidy.ite (fun _ => ?_) (fun _ => ?_) | simp only [tidy_mk] | split | dsimp only)

theorem faultForce_tidy {Lp : List Instr} {key : Nat} {e : Entry} {s : State} (hk : Tidy Lp s) : Tidy Lp (faultForce key e s) := by
  unfold faultForce
  try dsimp only
  repeat' (first | with_reducible assumption | with_reducible refine actOn_tidy ?_ | with_reducible refine complete_tidy ?_ | with_reducible refine postAll_tidy ?_ | with_reducible refine recordAll_tidy ?_ | with_reducible refine recordAll_pair (by with_reducible assumption) ?_ | with_reducible refine Tidy.foldl _ (fun _ _ _ => ?_) ?_ | with_reducible refine Tidy.ite (fun _ => ?_) (fun _ => ?_) | simp only [tidy_mk] | split | dsimp only)

theorem tamperTest_tidy {Lp : List Instr} {key : Nat} {e : Entry} {s : State} (hk : Tidy Lp s) : Tidy Lp (tamperTest key e s) := by
  unfold tamperTest
  try dsimp only
  repeat' (first | with_reducible assumption | with_reducible refine State_waitOn_tidy ?_ | with_reducible refine bistBegin_tidy ?_ | with_reducible refine complete_tidy ?_ | with_reducible refine Tidy.foldl _ (fun _ _ _ => ?_) ?_ | with_reducible refine Tidy.ite (fun _ => ?_) (fun _ => ?_) | simp only [tidy_mk] | split | dsimp only)

theorem rngRead_tidy {Lp : List Instr} {again : Bool} {key : Nat} {src : Source} {e : Entry} {s : State} (hk : Tidy Lp s) : Tidy Lp (rngRead again key src e s) := by
  unfold rngRead
  try dsimp only
  repeat' (first | with_reducible assumption | with_reducible refine State_drew_tidy ?_ | with_reducible refine State_waitOn_tidy ?_ | with_reducible refine completeOutput_tidy ?_ | with_reducible refine complete_tidy ?_ | with_reducible refine rngAsk_tidy ?_ | with_reducible refine rngAsk_pair (by with_reducible assumption) ?_ | with_reducible refine Tidy.foldl _ (fun _ _ _ => ?_) ?_ | with_reducible refine Tidy.ite (fun _ => ?_) (fun _ => ?_) | simp only [tidy_mk] | split | dsimp only)

theorem rngStatus_tidy {Lp : List Instr} {key : Nat} {s : State} (hk : Tidy Lp s) : Tidy Lp (rngStatus key s) := by
  unfold rngStatus
  try dsimp only
  repeat' (first | with_reducible assumption | with_reducible refine complete_tidy ?_ | with_reducible refine Tidy.foldl _ (fun _ _ _ => ?_) ?_ | with_reducible refine Tidy.ite (fun _ => ?_) (fun _ => ?_) | simp only [tidy_mk] | split | dsimp only)

theorem latchFieldRead_tidy {Lp : List Instr} {key : Nat} {src : Source} {e : Entry} {s : State} (hk : Tidy Lp s) : Tidy Lp (latchFieldRead key src e s) := by
  unfold latchFieldRead
  try dsimp only
  repeat' (first | with_reducible assumption | with_reducible refine completeOutput_tidy ?_ | with_reducible refine complete_tidy ?_ | with_reducible refine latchRestart_tidy ?_ | with_reducible refine Tidy.foldl _ (fun _ _ _ => ?_) ?_ | with_reducible refine Tidy.ite (fun _ => ?_) (fun _ => ?_) | simp only [tidy_mk] | split | dsimp only)

theorem pairStatus_tidy {Lp : List Instr} {key : Nat} {s : State} (hk : Tidy Lp s) : Tidy Lp (pairStatus key s) := by
  unfold pairStatus
  try dsimp only
  repeat' (first | with_reducible assumption | with_reducible refine complete_tidy ?_ | with_reducible refine Tidy.foldl _ (fun _ _ _ => ?_) ?_ | with_reducible refine Tidy.ite (fun _ => ?_) (fun _ => ?_) | simp only [tidy_mk] | split | dsimp only)

theorem castleNow_tidy {Lp : List Instr} {key : Nat} {s : State} (hk : Tidy Lp s) : Tidy Lp (castleNow key s) := by
  unfold castleNow
  try dsimp only
  repeat' (first | with_reducible assumption | with_reducible refine State_setPair_tidy ?_ | with_reducible refine State_waitOn_tidy ?_ | with_reducible refine complete_tidy ?_ | with_reducible refine sendPair_tidy ?_ | with_reducible refine tryPlanned_tidy ?_ | with_reducible refine Tidy.foldl _ (fun _ _ _ => ?_) ?_ | with_reducible refine Tidy.ite (fun _ => ?_) (fun _ => ?_) | simp only [tidy_mk] | split | dsimp only)

theorem castle_tidy {Lp : List Instr} {key : Nat} {e : Entry} {s : State} (hk : Tidy Lp s) : Tidy Lp (castle key e s) := by
  unfold castle
  try dsimp only
  repeat' (first | with_reducible assumption | with_reducible refine State_setPair_tidy ?_ | with_reducible refine State_waitOn_tidy ?_ | with_reducible refine castleNow_tidy ?_ | with_reducible refine complete_tidy ?_ | with_reducible refine liftFreeze_tidy ?_ | with_reducible refine Tidy.foldl _ (fun _ _ _ => ?_) ?_ | with_reducible refine Tidy.ite (fun _ => ?_) (fun _ => ?_) | simp only [tidy_mk] | split | dsimp only)

theorem drainEnd_tidy {Lp : List Instr} {s : State} (hk : Tidy Lp s) : Tidy Lp (drainEnd s) := by
  unfold drainEnd
  try dsimp only
  repeat' (first | with_reducible assumption | with_reducible refine State_setPair_tidy ?_ | with_reducible refine tryPlanned_tidy ?_ | with_reducible refine Tidy.foldl _ (fun _ _ _ => ?_) ?_ | with_reducible refine Tidy.ite (fun _ => ?_) (fun _ => ?_) | simp only [tidy_mk] | split | dsimp only)

theorem pairSetPreferred_tidy {Lp : List Instr} {key : Nat} {e : Entry} {s : State} (hk : Tidy Lp s) : Tidy Lp (pairSetPreferred key e s) := by
  unfold pairSetPreferred
  try dsimp only
  repeat' (first | with_reducible assumption | with_reducible refine complete_tidy ?_ | with_reducible refine sendPair_tidy ?_ | with_reducible refine Tidy.foldl _ (fun _ _ _ => ?_) ?_ | with_reducible refine Tidy.ite (fun _ => ?_) (fun _ => ?_) | simp only [tidy_mk] | split | dsimp only)

theorem stageErase_tidy {Lp : List Instr} {key : Nat} {s : State} (hk : Tidy Lp s) : Tidy Lp (stageErase key s) := by
  unfold stageErase
  try dsimp only
  repeat' (first | with_reducible assumption | with_reducible refine State_passPoint_tidy ?_ | with_reducible refine State_setBank_tidy ?_ | with_reducible refine complete_tidy ?_ | with_reducible refine flashCommand_tidy ?_ | with_reducible refine flashLock_tidy ?_ | with_reducible refine Tidy.foldl _ (fun _ _ _ => ?_) ?_ | with_reducible refine Tidy.ite (fun _ => ?_) (fun _ => ?_) | simp only [tidy_mk] | split | dsimp only)

theorem stageWrite_tidy {Lp : List Instr} {b : Nat} {img : List Byte} {s : State} (hk : Tidy Lp s) : Tidy Lp (stageWrite b img s) := by
  unfold stageWrite
  try dsimp only
  repeat' (first | with_reducible assumption | with_reducible refine State_clearMem_tidy ?_ | with_reducible refine State_raiseAt_tidy ?_ | with_reducible refine State_setBank_tidy ?_ | with_reducible refine State_writeBytes_tidy ?_ | with_reducible refine Tidy.foldl _ (fun _ _ _ => ?_) ?_ | with_reducible refine Tidy.ite (fun _ => ?_) (fun _ => ?_) | simp only [tidy_mk] | split | dsimp only)

theorem stageEnd_tidy {Lp : List Instr} {key : Nat} {src : Source} {e : Entry} {ok : Bool} {s : State} (hk : Tidy Lp s) : Tidy Lp (stageEnd key src e ok s) := by
  unfold stageEnd
  try dsimp only
  repeat' (first | with_reducible assumption | with_reducible refine State_setBank_tidy ?_ | with_reducible refine complete_tidy ?_ | with_reducible refine flashLock_tidy ?_ | with_reducible refine stageWrite_tidy ?_ | with_reducible refine Tidy.foldl _ (fun _ _ _ => ?_) ?_ | with_reducible refine Tidy.ite (fun _ => ?_) (fun _ => ?_) | simp only [tidy_mk] | split | dsimp only)

theorem fwStage_tidy {Lp : List Instr} {key : Nat} {src : Source} {e : Entry} {s : State} (hk : Tidy Lp s) : Tidy Lp (fwStage key src e s) := by
  unfold fwStage
  try dsimp only
  repeat' (first | with_reducible assumption | with_reducible refine State_waitOn_tidy ?_ | with_reducible refine complete_tidy ?_ | with_reducible refine flashUnlock_tidy ?_ | with_reducible refine stageErase_tidy ?_ | with_reducible refine Tidy.foldl _ (fun _ _ _ => ?_) ?_ | with_reducible refine Tidy.ite (fun _ => ?_) (fun _ => ?_) | simp only [tidy_mk] | split | dsimp only)

theorem flashOpEnd_tidy {Lp : List Instr} {b : Nat} {res : FlashEnd} {s : State} (hk : Tidy Lp s) : Tidy Lp (flashOpEnd b res s) := by
  unfold flashOpEnd
  try dsimp only
  repeat' (first | with_reducible assumption | with_reducible refine flashDone_tidy ?_ | with_reducible refine stageEnd_tidy ?_ | with_reducible refine stageErase_tidy ?_ | with_reducible refine Tidy.foldl _ (fun _ _ _ => ?_) ?_ | with_reducible refine Tidy.ite (fun _ => ?_) (fun _ => ?_) | simp only [tidy_mk] | split | dsimp only)

theorem fwActivate_tidy {Lp : List Instr} {key : Nat} {e : Entry} {s : State} (hk : Tidy Lp s) : Tidy Lp (fwActivate key e s) := by
  unfold fwActivate
  try dsimp only
  repeat' (first | with_reducible assumption | with_reducible refine State_setPair_tidy ?_ | with_reducible refine beginPlanned_tidy ?_ | with_reducible refine complete_tidy ?_ | with_reducible refine postAll_tidy ?_ | with_reducible refine warmReset_tidy ?_ | with_reducible refine Tidy.foldl _ (fun _ _ _ => ?_) ?_ | with_reducible refine Tidy.ite (fun _ => ?_) (fun _ => ?_) | simp only [tidy_mk] | split | dsimp only)

theorem pkCommand_tidy {Lp : List Instr} {op key : Nat} {src : Source} {e : Entry} {s : State} (hk : Tidy Lp s) : Tidy Lp (pkCommand op key src e s) := by
  unfold pkCommand
  try dsimp only
  repeat' (first | with_reducible assumption | with_reducible refine State_waitOn_tidy ?_ | with_reducible refine complete_tidy ?_ | with_reducible refine pushJob_tidy ?_ | with_reducible refine pushJob_pair (by with_reducible assumption) ?_ | with_reducible refine Tidy.foldl _ (fun _ _ _ => ?_) ?_ | with_reducible refine Tidy.ite (fun _ => ?_) (fun _ => ?_) | simp only [tidy_mk] | split | dsimp only)

theorem attest_tidy {Lp : List Instr} {again : Bool} {key : Nat} {src : Source} {e : Entry} {s : State} (hk : Tidy Lp s) : Tidy Lp (attest again key src e s) := by
  unfold attest
  try dsimp only
  repeat' (first | with_reducible assumption | with_reducible refine State_drew_tidy ?_ | with_reducible refine completeOutput_tidy ?_ | with_reducible refine complete_tidy ?_ | with_reducible refine pushSign_tidy ?_ | with_reducible refine Tidy.foldl _ (fun _ _ _ => ?_) ?_ | with_reducible refine Tidy.ite (fun _ => ?_) (fun _ => ?_) | simp only [tidy_mk] | split | dsimp only)

end Sys2Proof.Laws
end

