-- ==== Sys2Proof/Laws/TidySubmit.lean ====
section
/-! SUPPORT. The queue and the memory form under acceptance and what follows from a command. -/

namespace Sys2Proof.Laws

open Sys2Proof.Machine

/-- A check that refuses: what passes it is what follows. -/
theorem ok_of_guard {c : Prop} [Decidable c] {r : Result} {x : Except Result State} {t : State} (h : (if c then .error r else x) = .ok t) : x = .ok t := by
  by_cases hc : c
  · simp [hc] at h
  · simpa [hc] using h
/-- The same of a part that may itself refuse. -/
theorem ok_of_match {x : Except Result State} {f : State → Except Result State} {t : State}
    (h : (match x with | .error r => Except.error r | .ok u => f u) = .ok t) : ∃ u, x = .ok u ∧ f u = .ok t := by
  cases x with
  | error r => simp at h
  | ok u => exact ⟨u, rfl, h⟩
/-- The same of a part that is granted or refused. -/
theorem ok_of_grant {c : Prop} [Decidable c] {r : Result} {u t : State} (h : (if c then .ok u else .error r) = (.ok t : Except Result State)) : u = t := by
  by_cases hc : c
  · simpa [hc] using h
  · simp [hc] at h
theorem stateChecks_eq {Lp : List Instr} {op : Nat} {src : Source} {e : Entry} {key : Nat} {s t : State}
    (h : stateChecks op src e key s = .ok t) (hk : Tidy Lp s) : Tidy Lp t := by
  obtain ⟨u, hu, ht⟩ := ok_of_match (ok_of_guard (ok_of_guard h))
  cases ok_of_guard (ok_of_guard ht)
  revert hu
  cases grantNeeded s op src e with
  | none => exact fun hu => Except.ok.inj hu ▸ hk
  | some g => exact fun hu => ok_of_grant hu ▸ reserveGrant_tidy hk

theorem bodyLow_tidy {Lp : List Instr} {again : Bool} {op key : Nat} {src : Source} {e : Entry} {s : State} (hk : Tidy Lp s) : Tidy Lp (bodyLow again op key src e s) := by
  unfold bodyLow
  try dsimp only
  repeat' (first | with_reducible assumption | with_reducible refine abort_tidy ?_ | with_reducible refine fwActivate_tidy ?_ | with_reducible refine fwStage_tidy ?_ | with_reducible refine getLog_tidy ?_ | with_reducible refine identify_tidy ?_ | with_reducible refine journalCheckpoint_tidy ?_ | with_reducible refine journalRead_tidy ?_ | with_reducible refine keyCreate_tidy ?_ | with_reducible refine keyExport_tidy ?_ | with_reducible refine keyImport_tidy ?_ | with_reducible refine keyLookup_tidy ?_ | with_reducible refine keyPin_tidy ?_ | with_reducible refine keyRotate_tidy ?_ | with_reducible refine keySetState_tidy ?_ | with_reducible refine keyShred_tidy ?_ | with_reducible refine manifestCommit_tidy ?_ | with_reducible refine manifestRead_tidy ?_ | with_reducible refine queueCreate_tidy ?_ | with_reducible refine queueDelete_tidy ?_ | with_reducible refine sealOpen_tidy ?_ | with_reducible refine setTime_tidy ?_ | with_reducible refine streamAbort_tidy ?_ | with_reducible refine streamCommand_tidy ?_ | with_reducible refine streamQuery_tidy ?_ | with_reducible refine unsealOpen_tidy ?_ | with_reducible refine vaultExport_tidy ?_ | with_reducible refine vaultImport_tidy ?_ | with_reducible refine Tidy.foldl _ (fun _ _ _ => ?_) ?_ | with_reducible refine Tidy.ite (fun _ => ?_) (fun _ => ?_) | simp only [tidy_mk] | split | dsimp only)

theorem bodyHigh_tidy {Lp : List Instr} {again : Bool} {op key : Nat} {src : Source} {e : Entry} {s : State} (hk : Tidy Lp s) : Tidy Lp (bodyHigh again op key src e s) := by
  unfold bodyHigh
  try dsimp only
  repeat' (first | with_reducible assumption | with_reducible refine attest_tidy ?_ | with_reducible refine cardApdu_tidy ?_ | with_reducible refine cardStatus_tidy ?_ | with_reducible refine castle_tidy ?_ | with_reducible refine custodianEnroll_tidy ?_ | with_reducible refine faultForce_tidy ?_ | with_reducible refine labelCommand_tidy ?_ | with_reducible refine latchFieldRead_tidy ?_ | with_reducible refine pairSetPreferred_tidy ?_ | with_reducible refine pairStatus_tidy ?_ | with_reducible refine pkCommand_tidy ?_ | with_reducible refine placardWrite_tidy ?_ | with_reducible refine powerState_tidy ?_ | with_reducible refine quorumApprove_tidy ?_ | with_reducible refine quorumBegin_tidy ?_ | with_reducible refine quorumEnd_tidy ?_ | with_reducible refine rngRead_tidy ?_ | with_reducible refine rngStatus_tidy ?_ | with_reducible refine selftest_tidy ?_ | with_reducible refine slotEvents_tidy ?_ | with_reducible refine slotScan_tidy ?_ | with_reducible refine tamperTest_tidy ?_ | with_reducible refine tokenOp_tidy ?_ | with_reducible refine wakePolicy_tidy ?_ | with_reducible refine Tidy.foldl _ (fun _ _ _ => ?_) ?_ | with_reducible refine Tidy.ite (fun _ => ?_) (fun _ => ?_) | simp only [tidy_mk] | split | dsimp only)

theorem runBody_tidy {Lp : List Instr} {again : Bool} {c : Inflight} {s : State} (hk : Tidy Lp s) : Tidy Lp (runBody again c s) := by
  unfold runBody
  try dsimp only
  repeat' (first | with_reducible assumption | with_reducible refine bodyHigh_tidy ?_ | with_reducible refine bodyLow_tidy ?_ | with_reducible refine complete_tidy ?_ | with_reducible refine Tidy.foldl _ (fun _ _ _ => ?_) ?_ | with_reducible refine Tidy.ite (fun _ => ?_) (fun _ => ?_) | simp only [tidy_mk] | split | dsimp only)

theorem setExpected_tidy {Lp : List Instr} {v : Word} {s : State} {x : Source} (hk : Tidy Lp s) : Tidy Lp (setExpected v s x) := by
  cases x <;> simp only [setExpected] <;> first | exact State_setQueue_tidy hk | simpa only [tidy_mk] using hk

theorem countIntegrity_tidy {Lp : List Instr} {reason : Nat} {src : Source} {s : State} (hk : Tidy Lp s) : Tidy Lp (countIntegrity reason src s) := by
  unfold countIntegrity
  try dsimp only
  repeat' (first | with_reducible assumption | with_reducible refine State_raiseAt_tidy ?_ | with_reducible refine Tidy.foldl _ (fun _ _ _ => ?_) ?_ | with_reducible refine Tidy.ite (fun _ => ?_) (fun _ => ?_) | simp only [tidy_mk] | split | dsimp only)

theorem startCommand_tidy {Lp : List Instr} {c : Inflight} {s : State} (hk : Tidy Lp s) : Tidy Lp (startCommand c s) := by
  unfold startCommand
  try dsimp only
  repeat' (first | with_reducible assumption | with_reducible refine State_line_tidy ?_ | with_reducible refine State_waitOn_tidy ?_ | with_reducible refine postRequest_tidy ?_ | with_reducible refine runBody_tidy ?_ | with_reducible refine Tidy.foldl _ (fun _ _ _ => ?_) ?_ | with_reducible refine Tidy.ite (fun _ => ?_) (fun _ => ?_) | simp only [tidy_mk] | split | dsimp only)

theorem holdInterim_tidy {Lp : List Instr} {c : Inflight} {s : State} (hk : Tidy Lp s) : Tidy Lp (holdInterim c s) := by
  unfold holdInterim
  try dsimp only
  repeat' (first | with_reducible assumption | with_reducible refine hold_tidy ?_ | with_reducible refine Tidy.foldl _ (fun _ _ _ => ?_) ?_ | with_reducible refine Tidy.ite (fun _ => ?_) (fun _ => ?_) | simp only [tidy_mk] | split | dsimp only)

theorem plainly_tidy {Lp : List Instr} {key : Nat} {s : State} (hk : Tidy Lp s) : Tidy Lp (plainly key s) := by
  unfold plainly
  try dsimp only
  repeat' (first | with_reducible assumption | with_reducible refine State_setCommand_tidy ?_ | with_reducible refine Tidy.foldl _ (fun _ _ _ => ?_) ?_ | with_reducible refine Tidy.ite (fun _ => ?_) (fun _ => ?_) | simp only [tidy_mk] | split | dsimp only)

theorem judge_tidy {Lp : List Instr} {c : Inflight} {auth : Bool} {s : State} (hk : Tidy Lp s) : Tidy Lp (judge c auth s) := by
  unfold judge
  try dsimp only
  repeat' (first | with_reducible assumption | with_reducible refine complete_tidy ?_ | with_reducible refine holdInterim_tidy ?_ | with_reducible refine plainly_tidy ?_ | with_reducible refine startCommand_tidy ?_ | with_reducible refine stateChecks_eq (by with_reducible assumption) ?_ | with_reducible refine Tidy.foldl _ (fun _ _ _ => ?_) ?_ | with_reducible refine Tidy.ite (fun _ => ?_) (fun _ => ?_) | simp only [tidy_mk] | split | dsimp only)

theorem takeEntry_tidy {Lp : List Instr} {fetched : Bool} {op : BitVec 16} {src : Source} {e : Entry} {auth : Bool} {sqhead : BitVec 16} {s : State} (hk : Tidy Lp s) : Tidy Lp (takeEntry fetched op src e auth sqhead s) := by
  unfold takeEntry
  try dsimp only
  repeat' (first | with_reducible assumption | with_reducible refine appendAs_tidy ?_ | with_reducible refine complete_tidy ?_ | with_reducible refine countIntegrity_tidy ?_ | with_reducible refine forwardAs_tidy ?_ | with_reducible refine judge_tidy ?_ | with_reducible refine plainly_tidy ?_ | with_reducible refine setExpected_tidy ?_ | with_reducible refine Tidy.foldl _ (fun _ _ _ => ?_) ?_ | with_reducible refine Tidy.ite (fun _ => ?_) (fun _ => ?_) | simp only [tidy_mk] | split | dsimp only)

theorem fetchOne_tidy {Lp : List Instr} {q : Nat} {s : State} (hk : Tidy Lp s) : Tidy Lp (fetchOne q s) := by
  unfold fetchOne
  try dsimp only
  repeat' (first | with_reducible assumption | with_reducible refine State_setQueue_tidy ?_ | with_reducible refine postAll_tidy ?_ | with_reducible refine takeEntry_tidy ?_ | with_reducible refine Tidy.foldl _ (fun _ _ _ => ?_) ?_ | with_reducible refine Tidy.ite (fun _ => ?_) (fun _ => ?_) | simp only [tidy_mk] | split | dsimp only)

theorem fetchSome_tidy {Lp : List Instr} {q n : Nat} {s : State} (hk : Tidy Lp s) : Tidy Lp (fetchSome q n s) := by
  induction n generalizing s with
  | zero => exact hk
  | succ n ih => exact ih (fetchOne_tidy hk)

theorem fetchRound_tidy {Lp : List Instr} {s : State} (hk : Tidy Lp s) : Tidy Lp (fetchRound s) := by
  unfold fetchRound
  try dsimp only
  repeat' (first | with_reducible assumption | with_reducible refine fetchSome_tidy ?_ | with_reducible refine Tidy.foldl _ (fun _ _ _ => ?_) ?_ | with_reducible refine Tidy.ite (fun _ => ?_) (fun _ => ?_) | simp only [tidy_mk] | split | dsimp only)

theorem fetchRounds_tidy {Lp : List Instr} : ∀ {n : Nat} {s : State}, Tidy Lp s → Tidy Lp (fetchRounds n s)
  | 0, _, hk => hk
  | n + 1, s, hk => by
    unfold fetchRounds
    split
    · exact fetchRounds_tidy (fetchRound_tidy hk)
    · exact hk

theorem fetchAll_tidy {Lp : List Instr} {s : State} (hk : Tidy Lp s) : Tidy Lp (fetchAll s) := by
  unfold fetchAll
  try dsimp only
  repeat' (first | with_reducible assumption | with_reducible refine fetchRounds_tidy ?_ | with_reducible refine Tidy.foldl _ (fun _ _ _ => ?_) ?_ | with_reducible refine Tidy.ite (fun _ => ?_) (fun _ => ?_) | simp only [tidy_mk] | split | dsimp only)

theorem holdFrame_tidy {Lp : List Instr} {b : List Byte} {s : State} (hk : Tidy Lp s) : Tidy Lp (holdFrame b s) := by
  unfold holdFrame
  try dsimp only
  repeat' (first | with_reducible assumption | with_reducible refine State_setMgmt_tidy ?_ | with_reducible refine Tidy.foldl _ (fun _ _ _ => ?_) ?_ | with_reducible refine Tidy.ite (fun _ => ?_) (fun _ => ?_) | simp only [tidy_mk] | split | dsimp only)

theorem takeMgmt_tidy {Lp : List Instr} {op : BitVec 16} {e : Entry} {s : State} (hk : Tidy Lp s) : Tidy Lp (takeMgmt op e s) := by
  unfold takeMgmt
  try dsimp only
  repeat' (first | with_reducible assumption | with_reducible refine State_drew_tidy ?_ | with_reducible refine takeEntry_tidy ?_ | with_reducible refine Tidy.foldl _ (fun _ _ _ => ?_) ?_ | with_reducible refine Tidy.ite (fun _ => ?_) (fun _ => ?_) | simp only [tidy_mk] | split | dsimp only)

theorem mgmtArrive_tidy {Lp : List Instr} {op : BitVec 16} {e : Entry} {s : State} (hk : Tidy Lp s) : Tidy Lp (mgmtArrive op e s) := by
  unfold mgmtArrive
  try dsimp only
  repeat' (first | with_reducible assumption | with_reducible refine holdFrame_tidy ?_ | with_reducible refine takeMgmt_tidy ?_ | with_reducible refine Tidy.foldl _ (fun _ _ _ => ?_) ?_ | with_reducible refine Tidy.ite (fun _ => ?_) (fun _ => ?_) | simp only [tidy_mk] | split | dsimp only)

theorem takeFrames_tidy {Lp : List Instr} : ∀ {n : Nat} {s : State}, Tidy Lp s → Tidy Lp (takeFrames n s)
  | 0, _, hk => hk
  | n + 1, s, hk => by
    unfold takeFrames
    repeat' (first | with_reducible assumption | with_reducible refine takeFrames_tidy ?_ | with_reducible refine takeMgmt_tidy ?_ | with_reducible exact State_setMgmt_tidy hk | split)

theorem submit_tidy {Lp : List Instr} {op : BitVec 16} {src : Source} {e : Entry} {s : State} (hk : Tidy Lp s) : Tidy Lp (submit op src e s) := by
  unfold submit
  try dsimp only
  repeat' (first | with_reducible assumption | with_reducible refine State_drew_tidy ?_ | with_reducible refine State_setQueue_tidy ?_ | with_reducible refine mgmtArrive_tidy ?_ | with_reducible refine takeEntry_tidy ?_ | with_reducible refine Tidy.foldl _ (fun _ _ _ => ?_) ?_ | with_reducible refine Tidy.ite (fun _ => ?_) (fun _ => ?_) | simp only [tidy_mk] | split | dsimp only)

theorem tlpArrives_tidy {Lp : List Instr} {p : Nat} {s : State} (hk : Tidy Lp s) : Tidy Lp (tlpArrives p s) := by
  unfold tlpArrives
  try dsimp only
  repeat' (first | with_reducible assumption | with_reducible refine State_setPort_tidy ?_ | with_reducible refine wakeEvent_tidy ?_ | with_reducible refine Tidy.foldl _ (fun _ _ _ => ?_) ?_ | with_reducible refine Tidy.ite (fun _ => ?_) (fun _ => ?_) | simp only [tidy_mk] | split | dsimp only)

theorem hostTlp_tidy {Lp : List Instr} {p : Nat} {body : State → State} {s : State}
    (hb : ∀ t, Tidy Lp t → Tidy Lp (body t)) (hk : Tidy Lp s) : Tidy Lp (hostTlp p body s) := by
  unfold hostTlp
  split
  · exact hb _ (tlpArrives_tidy hk)
  · exact hk

theorem leaveL1_tidy {Lp : List Instr} {p : Nat} {s : State} (hk : Tidy Lp s) : Tidy Lp (leaveL1 p s) := by
  unfold leaveL1
  try dsimp only
  repeat' (first | with_reducible assumption | with_reducible refine tlpArrives_tidy ?_ | with_reducible refine Tidy.foldl _ (fun _ _ _ => ?_) ?_ | with_reducible refine Tidy.ite (fun _ => ?_) (fun _ => ?_) | simp only [tidy_mk] | split | dsimp only)

theorem badDoorbell_tidy {Lp : List Instr} {q : Nat} {v : Word} {before dir : Nat} {s : State} (hk : Tidy Lp s) : Tidy Lp (badDoorbell q v before dir s) := by
  unfold badDoorbell
  try dsimp only
  repeat' (first | with_reducible assumption | with_reducible refine State_raiseAt_tidy ?_ | with_reducible refine unsolicited_tidy ?_ | with_reducible refine Tidy.foldl _ (fun _ _ _ => ?_) ?_ | with_reducible refine Tidy.ite (fun _ => ?_) (fun _ => ?_) | simp only [tidy_mk] | split | dsimp only)

theorem sqTail_tidy {Lp : List Instr} {p q : Nat} {v : Word} {bad : List Nat} {s : State} (hk : Tidy Lp s) : Tidy Lp (sqTail p q v bad s) := by
  unfold sqTail
  try dsimp only
  repeat' (first | with_reducible assumption | with_reducible refine State_raiseAt_tidy ?_ | with_reducible refine State_setQueue_tidy ?_ | with_reducible refine badDoorbell_tidy ?_ | with_reducible refine Tidy.foldl _ (fun _ _ _ => ?_) ?_ | with_reducible refine Tidy.ite (fun _ => ?_) (fun _ => ?_) | simp only [tidy_mk] | split | dsimp only)

theorem sqDoorbell_tidy {Lp : List Instr} {p q : Nat} {v : Word} {stores : List HostStore} {bad : List Nat} {s : State} (hk : Tidy Lp s) : Tidy Lp (sqDoorbell p q v stores bad s) := by
  unfold sqDoorbell
  try dsimp only
  repeat' (first | with_reducible assumption | with_reducible refine State_writeBytes_tidy ?_ | with_reducible refine hostTlp_tidy (fun _ _ => ?_) ?_ | with_reducible refine sqTail_tidy ?_ | with_reducible refine Tidy.foldl _ (fun _ _ _ => ?_) ?_ | with_reducible refine Tidy.ite (fun _ => ?_) (fun _ => ?_) | simp only [tidy_mk] | split | dsimp only)

theorem cqHead_tidy {Lp : List Instr} {p q : Nat} {v : Word} {s : State} (hk : Tidy Lp s) : Tidy Lp (cqHead p q v s) := by
  unfold cqHead
  try dsimp only
  repeat' (first | with_reducible assumption | with_reducible refine State_raiseAt_tidy ?_ | with_reducible refine State_setQueue_tidy ?_ | with_reducible refine badDoorbell_tidy ?_ | with_reducible refine Tidy.foldl _ (fun _ _ _ => ?_) ?_ | with_reducible refine Tidy.ite (fun _ => ?_) (fun _ => ?_) | simp only [tidy_mk] | split | dsimp only)

theorem cqDoorbell_tidy {Lp : List Instr} {p q : Nat} {v : Word} {s : State} (hk : Tidy Lp s) : Tidy Lp (cqDoorbell p q v s) := by
  unfold cqDoorbell
  try dsimp only
  repeat' (first | with_reducible assumption | with_reducible refine cqHead_tidy ?_ | with_reducible refine hostTlp_tidy (fun _ _ => ?_) ?_ | with_reducible refine Tidy.foldl _ (fun _ _ _ => ?_) ?_ | with_reducible refine Tidy.ite (fun _ => ?_) (fun _ => ?_) | simp only [tidy_mk] | split | dsimp only)

theorem mgmtFrame_tidy {Lp : List Instr} {b : List Byte} {s : State} (hk : Tidy Lp s) : Tidy Lp (mgmtFrame b s) := by
  unfold mgmtFrame
  try dsimp only
  repeat' (first | with_reducible assumption | with_reducible refine frameError_tidy ?_ | with_reducible refine submit_tidy ?_ | with_reducible refine Tidy.foldl _ (fun _ _ _ => ?_) ?_ | with_reducible refine Tidy.ite (fun _ => ?_) (fun _ => ?_) | simp only [tidy_mk] | split | dsimp only)

theorem tagSubmit_tidy {Lp : List Instr} {frame : List Byte} {s : State} (hk : Tidy Lp s) : Tidy Lp (tagSubmit frame s) := by
  unfold tagSubmit
  try dsimp only
  repeat' (first | with_reducible assumption | with_reducible refine submit_tidy ?_ | with_reducible refine tagRespond_tidy ?_ | with_reducible refine Tidy.foldl _ (fun _ _ _ => ?_) ?_ | with_reducible refine Tidy.ite (fun _ => ?_) (fun _ => ?_) | simp only [tidy_mk] | split | dsimp only)

theorem capSample_tidy {Lp : List Instr} {s : State} {x : Nat × Nat} (hk : Tidy Lp s) : Tidy Lp (capSample s x) := by
  unfold capSample
  try dsimp only
  repeat' (first | with_reducible assumption | with_reducible refine State_mline_tidy ?_ | with_reducible refine State_raiseAt_tidy ?_ | with_reducible refine endJobs_tidy ?_ | with_reducible refine slotEvent_tidy ?_ | with_reducible refine wakeEvent_tidy ?_ | with_reducible refine Tidy.foldl _ (fun _ _ _ => ?_) ?_ | with_reducible refine Tidy.ite (fun _ => ?_) (fun _ => ?_) | simp only [tidy_mk] | split | dsimp only)

theorem capSamples_tidy {Lp : List Instr} {samples : List Nat} {s : State} (hk : Tidy Lp s) : Tidy Lp (capSamples samples s) := by
  unfold capSamples
  try dsimp only
  repeat' (first | with_reducible assumption | with_reducible refine capSample_tidy ?_ | with_reducible refine Tidy.foldl _ (fun _ _ _ => ?_) ?_ | with_reducible refine Tidy.ite (fun _ => ?_) (fun _ => ?_) | simp only [tidy_mk] | split | dsimp only)

theorem tagFieldOn_tidy {Lp : List Instr} {mv : Nat} {s : State} (hk : Tidy Lp s) : Tidy Lp (tagFieldOn mv s) := by
  unfold tagFieldOn
  try dsimp only
  repeat' (first | with_reducible assumption | with_reducible refine State_setTag_tidy ?_ | with_reducible refine copyBack_tidy ?_ | with_reducible refine copyBack_pair (by with_reducible assumption) ?_ | with_reducible refine slotEvent_tidy ?_ | with_reducible refine wakeEvent_tidy ?_ | with_reducible refine Tidy.foldl _ (fun _ _ _ => ?_) ?_ | with_reducible refine Tidy.ite (fun _ => ?_) (fun _ => ?_) | simp only [tidy_mk] | split | dsimp only)

theorem cardInsert_tidy {Lp : List Instr} {n : Nat} {s : State} (hk : Tidy Lp s) : Tidy Lp (cardInsert n s) := by
  unfold cardInsert
  try dsimp only
  repeat' (first | with_reducible assumption | with_reducible refine State_mline_tidy ?_ | with_reducible refine State_setSlot_tidy ?_ | with_reducible refine slotEvent_tidy ?_ | with_reducible refine wakeEvent_tidy ?_ | with_reducible refine Tidy.foldl _ (fun _ _ _ => ?_) ?_ | with_reducible refine Tidy.ite (fun _ => ?_) (fun _ => ?_) | simp only [tidy_mk] | split | dsimp only)

theorem cardRemoval_tidy {Lp : List Instr} {n : Nat} {s : State} (hk : Tidy Lp s) : Tidy Lp (cardRemoval n s) := by
  unfold cardRemoval
  try dsimp only
  repeat' (first | with_reducible assumption | with_reducible refine State_mline_tidy ?_ | with_reducible refine State_raiseAt_tidy ?_ | with_reducible refine State_setSlot_tidy ?_ | with_reducible refine deactivate_tidy ?_ | with_reducible refine endCardJobs_tidy ?_ | with_reducible refine slotEvent_tidy ?_ | with_reducible refine wakeEvent_tidy ?_ | with_reducible refine Tidy.foldl _ (fun _ _ _ => ?_) ?_ | with_reducible refine Tidy.ite (fun _ => ?_) (fun _ => ?_) | simp only [tidy_mk] | split | dsimp only)

theorem ownFinish_tidy {Lp : List Instr} {s : State} (hk : Tidy Lp s) : Tidy Lp (ownFinish s) := by
  unfold ownFinish
  try dsimp only
  repeat' (first | with_reducible assumption | with_reducible refine State_raise_tidy ?_ | with_reducible refine writeCheckpoint_tidy ?_ | with_reducible refine Tidy.foldl _ (fun _ _ _ => ?_) ?_ | with_reducible refine Tidy.ite (fun _ => ?_) (fun _ => ?_) | simp only [tidy_mk] | split | dsimp only)

theorem runDue_tidy {Lp : List Instr} {s : State} {key : Nat} (hk : Tidy Lp s) : Tidy Lp (runDue s key) := by
  unfold runDue
  try dsimp only
  repeat' (first | with_reducible assumption | with_reducible refine State_waitOn_tidy ?_ | with_reducible refine checkpointFault_tidy ?_ | with_reducible refine complete_tidy ?_ | with_reducible refine dropRequest_tidy ?_ | with_reducible refine queueDrained_tidy ?_ | with_reducible refine runBody_tidy ?_ | with_reducible refine startCommand_tidy ?_ | with_reducible refine Tidy.foldl _ (fun _ _ _ => ?_) ?_ | with_reducible refine Tidy.ite (fun _ => ?_) (fun _ => ?_) | simp only [tidy_mk] | split | dsimp only)

theorem settleOnce_tidy {Lp : List Instr} {s : State} (hk : Tidy Lp s) : Tidy Lp (settleOnce s) := by
  unfold settleOnce
  try dsimp only
  repeat' (first | with_reducible assumption | with_reducible refine drainEnd_tidy ?_ | with_reducible refine fetchAll_tidy ?_ | with_reducible refine leverAct_tidy ?_ | with_reducible refine mateAction_tidy ?_ | with_reducible refine ownFinish_tidy ?_ | with_reducible refine postAll_tidy ?_ | with_reducible refine pushOwn_tidy ?_ | with_reducible refine runDue_tidy ?_ | with_reducible refine settleFaults_tidy ?_ | with_reducible refine settleHold_tidy ?_ | with_reducible refine settleReserves_tidy ?_ | with_reducible refine settleShelf_tidy ?_ | with_reducible refine takeEvents_tidy ?_ | with_reducible refine takeFrames_tidy ?_ | with_reducible refine Tidy.foldl _ (fun _ _ _ => ?_) ?_ | with_reducible refine Tidy.ite (fun _ => ?_) (fun _ => ?_) | simp only [tidy_mk] | split | dsimp only)

theorem settle_tidy {Lp : List Instr} : ∀ {n : Nat} {s : State}, Tidy Lp s → Tidy Lp (settle n s)
  | 0, _, hk => hk
  | n + 1, s, hk => by
    unfold settle
    split
    · exact settle_tidy (settleOnce_tidy hk)
    · exact hk

theorem finish_tidy {Lp : List Instr} {s : State} (hk : Tidy Lp s) : Tidy Lp (finish s) := by
  unfold finish
  try dsimp only
  repeat' (first | with_reducible assumption | with_reducible refine settle_tidy ?_ | with_reducible refine Tidy.foldl _ (fun _ _ _ => ?_) ?_ | with_reducible refine Tidy.ite (fun _ => ?_) (fun _ => ?_) | simp only [tidy_mk] | split | dsimp only)

end Sys2Proof.Laws
end

