-- ==== Sys2Proof/Laws/TidyCores.lean ====
section
/-! SUPPORT. The queue and the memory form under the registers, the bus and the cores. -/

namespace Sys2Proof.Laws

open Sys2Proof.Machine

theorem setKtab_tidy {Lp : List Instr} {t : State} {k : Ktab} (h : Tidy Lp t) : Tidy Lp { t with ktab := k } := ⟨h.1, h.2⟩
theorem ktabCarry_tidy {Lp : List Instr} {op : KtabOp} {kh : Word} {oid : Oid} {v : Verify} {s : State} (hk : Tidy Lp s) : Tidy Lp (ktabCarry op kh oid v s).2 := by
  have hf : Tidy Lp (findOid oid v s).2 := findOid_tidy hk
  have hc : Tidy Lp (cacheFill kh v s).2 := cacheFill_tidy hk
  cases op <;> delta ktabCarry <;> dsimp only
  case fill => exact hc
  case invalidate => exact setKtab_tidy hk
  case pin =>
    split
    · exact hk
    · split
      · exact hk
      · split
        · exact hc
        · exact setKtab_tidy hc
  case unpin =>
    split
    · exact hk
    · exact setKtab_tidy hk
  case find =>
    split
    · exact setKtab_tidy hf
    · exact hf
  case draw =>
    split
    · exact hk
    · split
      · exact hc
      · exact setKtab_tidy hc

theorem ktabRequest_tidy {Lp : List Instr} {op : KtabOp} {kh : Word} {oid : Oid} {v : Verify} {s : State} (hk : Tidy Lp s) : Tidy Lp (ktabRequest op kh oid v s) := by
  unfold ktabRequest
  try dsimp only
  repeat' (first | with_reducible assumption | with_reducible refine ktabCarry_tidy ?_ | with_reducible refine ktabCarry_pair (by with_reducible assumption) ?_ | with_reducible refine Tidy.foldl _ (fun _ _ _ => ?_) ?_ | with_reducible refine Tidy.ite (fun _ => ?_) (fun _ => ?_) | simp only [tidy_mk] | split | dsimp only)

theorem setOidRegs_tidy {Lp : List Instr} {oid : Oid} {s : State} (hk : Tidy Lp s) : Tidy Lp (setOidRegs oid s) := by
  unfold setOidRegs
  try dsimp only
  repeat' (first | with_reducible assumption | with_reducible refine State_setReg_tidy ?_ | with_reducible refine Tidy.foldl _ (fun _ _ _ => ?_) ?_ | with_reducible refine Tidy.ite (fun _ => ?_) (fun _ => ?_) | simp only [tidy_mk] | split | dsimp only)

theorem ktabKh_tidy {Lp : List Instr} {op : KtabOp} {kh : Word} {v : Verify} {s : State} (hk : Tidy Lp s) : Tidy Lp (ktabKh op kh v s) := by
  unfold ktabKh
  try dsimp only
  repeat' (first | with_reducible assumption | with_reducible refine State_setReg_tidy ?_ | with_reducible refine ktabRequest_tidy ?_ | with_reducible refine Tidy.foldl _ (fun _ _ _ => ?_) ?_ | with_reducible refine Tidy.ite (fun _ => ?_) (fun _ => ?_) | simp only [tidy_mk] | split | dsimp only)

theorem ktabDone_tidy {Lp : List Instr} {s : State} (hk : Tidy Lp s) : Tidy Lp (ktabDone s) := by
  unfold ktabDone
  try dsimp only
  repeat' (first | with_reducible assumption | with_reducible refine State_line_tidy ?_ | with_reducible refine Tidy.foldl _ (fun _ _ _ => ?_) ?_ | with_reducible refine Tidy.ite (fun _ => ?_) (fun _ => ?_) | simp only [tidy_mk] | split | dsimp only)

theorem State_munline_tidy {Lp : List Instr} {s : State} {l : Nat} (hk : Tidy Lp s) : Tidy Lp (State.munline s l) := by
  unfold State.munline
  try dsimp only
  repeat' (first | with_reducible assumption | with_reducible refine Tidy.foldl _ (fun _ _ _ => ?_) ?_ | with_reducible refine Tidy.ite (fun _ => ?_) (fun _ => ?_) | simp only [tidy_mk] | split | dsimp only)

theorem readClears_tidy {Lp : List Instr} {blk o : Nat} {s : State} (hk : Tidy Lp s) : Tidy Lp (readClears blk o s) := by
  unfold readClears
  try dsimp only
  repeat' (first | with_reducible assumption | with_reducible refine State_munline_tidy ?_ | with_reducible refine State_setBank_tidy ?_ | with_reducible refine State_setLane_tidy ?_ | with_reducible refine State_setSlot_tidy ?_ | with_reducible refine State_setTag_tidy ?_ | with_reducible refine State_unline_tidy ?_ | with_reducible refine engDone_tidy ?_ | with_reducible refine rmapDone_tidy ?_ | with_reducible refine rngTakeDone_tidy ?_ | with_reducible refine rngTakeDone_pair (by with_reducible assumption) ?_ | with_reducible refine spareDone_tidy ?_ | with_reducible refine Tidy.foldl _ (fun _ _ _ => ?_) ?_ | with_reducible refine Tidy.ite (fun _ => ?_) (fun _ => ?_) | simp only [tidy_mk] | split | dsimp only)

theorem markOverrun_tidy {Lp : List Instr} {blk o : Nat} {s : State} (hk : Tidy Lp s) : Tidy Lp (markOverrun blk o s) := by
  unfold markOverrun
  try dsimp only
  repeat' (first | with_reducible assumption | with_reducible refine State_setBank_tidy ?_ | with_reducible refine Tidy.foldl _ (fun _ _ _ => ?_) ?_ | with_reducible refine Tidy.ite (fun _ => ?_) (fun _ => ?_) | simp only [tidy_mk] | split | dsimp only)

theorem sysctlAct_tidy {Lp : List Instr} {o : Nat} {v : Word} {s : State} (hk : Tidy Lp s) : Tidy Lp (sysctlAct o v s) := by
  unfold sysctlAct
  try dsimp only
  repeat' (first | with_reducible assumption | with_reducible refine mgmtReset_tidy ?_ | with_reducible refine pwrTarget_tidy ?_ | with_reducible refine rstCause_tidy ?_ | with_reducible refine warmReset_tidy ?_ | with_reducible refine Tidy.foldl _ (fun _ _ _ => ?_) ?_ | with_reducible refine Tidy.ite (fun _ => ?_) (fun _ => ?_) | simp only [tidy_mk] | split | dsimp only)

theorem clearSeen_tidy {Lp : List Instr} {j : Nat} {v : Word} {s : State} (hk : Tidy Lp s) : Tidy Lp (clearSeen j v s) := by
  unfold clearSeen
  try dsimp only
  repeat' (first | with_reducible assumption | with_reducible refine Tidy.foldl _ (fun _ _ _ => ?_) ?_ | with_reducible refine Tidy.ite (fun _ => ?_) (fun _ => ?_) | simp only [tidy_mk] | split | dsimp only)

theorem faultAct_tidy {Lp : List Instr} {o : Nat} {v : Word} {s : State} (hk : Tidy Lp s) : Tidy Lp (faultAct o v s) := by
  unfold faultAct
  try dsimp only
  repeat' (first | with_reducible assumption | with_reducible refine clearSeen_tidy ?_ | with_reducible refine faultAck_tidy ?_ | with_reducible refine forceWrite_tidy ?_ | with_reducible refine swRaise_tidy ?_ | with_reducible refine Tidy.foldl _ (fun _ _ _ => ?_) ?_ | with_reducible refine Tidy.ite (fun _ => ?_) (fun _ => ?_) | simp only [tidy_mk] | split | dsimp only)

theorem tamperAct_tidy {Lp : List Instr} {o : Nat} {v : Word} {s : State} (hk : Tidy Lp s) : Tidy Lp (tamperAct o v s) := by
  unfold tamperAct
  try dsimp only
  repeat' (first | with_reducible assumption | with_reducible refine State_drew_tidy ?_ | with_reducible refine bistWrite_tidy ?_ | with_reducible refine calibrate_tidy ?_ | with_reducible refine stickyWrite_tidy ?_ | with_reducible refine Tidy.foldl _ (fun _ _ _ => ?_) ?_ | with_reducible refine Tidy.ite (fun _ => ?_) (fun _ => ?_) | simp only [tidy_mk] | split | dsimp only)

theorem rngAct_tidy {Lp : List Instr} {o : Nat} {v : Word} {s : State} (hk : Tidy Lp s) : Tidy Lp (rngAct o v s) := by
  unfold rngAct
  try dsimp only
  repeat' (first | with_reducible assumption | with_reducible refine rngReqWrite_tidy ?_ | with_reducible refine Tidy.foldl _ (fun _ _ _ => ?_) ?_ | with_reducible refine Tidy.ite (fun _ => ?_) (fun _ => ?_) | simp only [tidy_mk] | split | dsimp only)

theorem kilnWrite_tidy {Lp : List Instr} {v : Word} {s : State} (hk : Tidy Lp s) : Tidy Lp (kilnWrite v s) := by
  unfold kilnWrite
  try dsimp only
  repeat' (first | with_reducible assumption | with_reducible refine fireKiln_tidy ?_ | with_reducible refine setStatusBits_tidy ?_ | with_reducible refine Tidy.foldl _ (fun _ _ _ => ?_) ?_ | with_reducible refine Tidy.ite (fun _ => ?_) (fun _ => ?_) | simp only [tidy_mk] | split | dsimp only)

theorem vaultAct_tidy {Lp : List Instr} {o : Nat} {v : Word} {s : State} (hk : Tidy Lp s) : Tidy Lp (vaultAct o v s) := by
  unfold vaultAct
  try dsimp only
  repeat' (first | with_reducible assumption | with_reducible refine engStart_tidy ?_ | with_reducible refine kilnWrite_tidy ?_ | with_reducible refine Tidy.foldl _ (fun _ _ _ => ?_) ?_ | with_reducible refine Tidy.ite (fun _ => ?_) (fun _ => ?_) | simp only [tidy_mk] | split | dsimp only)

theorem ktabAct_tidy {Lp : List Instr} {o : Nat} {v : Word} {s : State} (hk : Tidy Lp s) : Tidy Lp (ktabAct o v s) := by
  unfold ktabAct
  try dsimp only
  repeat' (first | with_reducible assumption | with_reducible refine ktabRequest_tidy ?_ | with_reducible refine Tidy.foldl _ (fun _ _ _ => ?_) ?_ | with_reducible refine Tidy.ite (fun _ => ?_) (fun _ => ?_) | simp only [tidy_mk] | split | dsimp only)

theorem laneAct_tidy {Lp : List Instr} {n o : Nat} {v : Word} {s : State} (hk : Tidy Lp s) : Tidy Lp (laneAct n o v s) := by
  unfold laneAct
  try dsimp only
  repeat' (first | with_reducible assumption | with_reducible refine State_setLane_tidy ?_ | with_reducible refine enterFifo_tidy ?_ | with_reducible refine mailboxClear_tidy ?_ | with_reducible refine mailboxLoad_tidy ?_ | with_reducible refine Tidy.foldl _ (fun _ _ _ => ?_) ?_ | with_reducible refine Tidy.ite (fun _ => ?_) (fun _ => ?_) | simp only [tidy_mk] | split | dsimp only)

theorem jrnlAct_tidy {Lp : List Instr} {o : Nat} {v : Word} {s : State} (hk : Tidy Lp s) : Tidy Lp (jrnlAct o v s) := by
  unfold jrnlAct
  try dsimp only
  repeat' (first | with_reducible assumption | with_reducible refine Tidy.foldl _ (fun _ _ _ => ?_) ?_ | with_reducible refine Tidy.ite (fun _ => ?_) (fun _ => ?_) | simp only [tidy_mk] | split | dsimp only)

theorem dramcAct_tidy {Lp : List Instr} {o : Nat} {v : Word} {s : State} (hk : Tidy Lp s) : Tidy Lp (dramcAct o v s) := by
  unfold dramcAct
  try dsimp only
  repeat' (first | with_reducible assumption | with_reducible refine State_drew_tidy ?_ | with_reducible refine logNext_tidy ?_ | with_reducible refine repairRow_tidy ?_ | with_reducible refine retire_tidy ?_ | with_reducible refine Tidy.foldl _ (fun _ _ _ => ?_) ?_ | with_reducible refine Tidy.ite (fun _ => ?_) (fun _ => ?_) | simp only [tidy_mk] | split | dsimp only)

theorem flashcAct_tidy {Lp : List Instr} {o : Nat} {v : Word} {s : State} (hk : Tidy Lp s) : Tidy Lp (flashcAct o v s) := by
  unfold flashcAct
  try dsimp only
  repeat' (first | with_reducible assumption | with_reducible refine State_setBank_tidy ?_ | with_reducible refine State_setReg_tidy ?_ | with_reducible refine flashCommand_tidy ?_ | with_reducible refine flashLock_tidy ?_ | with_reducible refine flashSetPassword_tidy ?_ | with_reducible refine flashUnlock_tidy ?_ | with_reducible refine Tidy.foldl _ (fun _ _ _ => ?_) ?_ | with_reducible refine Tidy.ite (fun _ => ?_) (fun _ => ?_) | simp only [tidy_mk] | split | dsimp only)

theorem tagifAct_tidy {Lp : List Instr} {o : Nat} {v : Word} {s : State} (hk : Tidy Lp s) : Tidy Lp (tagifAct o v s) := by
  unfold tagifAct
  try dsimp only
  repeat' (first | with_reducible assumption | with_reducible refine State_munline_tidy ?_ | with_reducible refine State_setTag_tidy ?_ | with_reducible refine wiredStart_tidy ?_ | with_reducible refine Tidy.foldl _ (fun _ _ _ => ?_) ?_ | with_reducible refine Tidy.ite (fun _ => ?_) (fun _ => ?_) | simp only [tidy_mk] | split | dsimp only)

theorem cardAct_tidy {Lp : List Instr} {o : Nat} {v : Word} {s : State} (hk : Tidy Lp s) : Tidy Lp (cardAct o v s) := by
  unfold cardAct
  try dsimp only
  repeat' (first | with_reducible assumption | with_reducible refine State_setSlot_tidy ?_ | with_reducible refine cmdActivate_tidy ?_ | with_reducible refine cmdDeactivate_tidy ?_ | with_reducible refine cmdStartClock_tidy ?_ | with_reducible refine cmdStopClock_tidy ?_ | with_reducible refine cmdWarmReset_tidy ?_ | with_reducible refine Tidy.foldl _ (fun _ _ _ => ?_) ?_ | with_reducible refine Tidy.ite (fun _ => ?_) (fun _ => ?_) | simp only [tidy_mk] | split | dsimp only)

theorem releaseCcb_tidy {Lp : List Instr} {s : State} (hk : Tidy Lp s) : Tidy Lp (releaseCcb s) := by
  unfold releaseCcb
  try dsimp only
  repeat' (first | with_reducible assumption | with_reducible refine startCcb_tidy ?_ | with_reducible refine Tidy.foldl _ (fun _ _ _ => ?_) ?_ | with_reducible refine Tidy.ite (fun _ => ?_) (fun _ => ?_) | simp only [tidy_mk] | split | dsimp only)

theorem setLine22_tidy {Lp : List Instr} {c : CoreId} {b : Bool} {s : State} (hk : Tidy Lp s) : Tidy Lp (setLine22 c b s) := by
  unfold setLine22
  try dsimp only
  repeat' (first | with_reducible assumption | with_reducible refine State_setCore_tidy ?_ | with_reducible refine Tidy.foldl _ (fun _ _ _ => ?_) ?_ | with_reducible refine Tidy.ite (fun _ => ?_) (fun _ => ?_) | simp only [tidy_mk] | split | dsimp only)

theorem ixreqWrite_tidy {Lp : List Instr} {c : CoreId} {v : Word} {s : State} (hk : Tidy Lp s) : Tidy Lp (ixreqWrite c v s) := by
  unfold ixreqWrite
  try dsimp only
  repeat' (first | with_reducible assumption | with_reducible refine setLine22_tidy ?_ | with_reducible refine Tidy.foldl _ (fun _ _ _ => ?_) ?_ | with_reducible refine Tidy.ite (fun _ => ?_) (fun _ => ?_) | simp only [tidy_mk] | split | dsimp only)

theorem corecfgAct_tidy {Lp : List Instr} {c : CoreId} {o : Nat} {v : Word} {s : State} (hk : Tidy Lp s) : Tidy Lp (corecfgAct c o v s) := by
  unfold corecfgAct
  try dsimp only
  repeat' (first | with_reducible assumption | with_reducible refine ixreqWrite_tidy ?_ | with_reducible refine releaseCcb_tidy ?_ | with_reducible refine Tidy.foldl _ (fun _ _ _ => ?_) ?_ | with_reducible refine Tidy.ite (fun _ => ?_) (fun _ => ?_) | simp only [tidy_mk] | split | dsimp only)

theorem regAct_tidy {Lp : List Instr} {c : CoreId} {blk o : Nat} {v : Word} {s : State} (hk : Tidy Lp s) : Tidy Lp (regAct c blk o v s) := by
  unfold regAct
  try dsimp only
  repeat' (first | with_reducible assumption | with_reducible refine cardAct_tidy ?_ | with_reducible refine corecfgAct_tidy ?_ | with_reducible refine dramcAct_tidy ?_ | with_reducible refine faultAct_tidy ?_ | with_reducible refine flashcAct_tidy ?_ | with_reducible refine jrnlAct_tidy ?_ | with_reducible refine ktabAct_tidy ?_ | with_reducible refine laneAct_tidy ?_ | with_reducible refine ringTailWrite_tidy ?_ | with_reducible refine rngAct_tidy ?_ | with_reducible refine sysctlAct_tidy ?_ | with_reducible refine tagifAct_tidy ?_ | with_reducible refine tamperAct_tidy ?_ | with_reducible refine vaultAct_tidy ?_ | with_reducible refine Tidy.foldl _ (fun _ _ _ => ?_) ?_ | with_reducible refine Tidy.ite (fun _ => ?_) (fun _ => ?_) | simp only [tidy_mk] | split | dsimp only)

theorem markWrite_tidy {Lp : List Instr} {c : CoreId} {blk : Nat} {m : Word} {s : State} (hk : Tidy Lp s) : Tidy Lp (markWrite c blk m s) := by
  unfold markWrite
  try dsimp only
  repeat' (first | with_reducible assumption | with_reducible refine setStatusBits_tidy ?_ | with_reducible refine Tidy.foldl _ (fun _ _ _ => ?_) ?_ | with_reducible refine Tidy.ite (fun _ => ?_) (fun _ => ?_) | simp only [tidy_mk] | split | dsimp only)

theorem regWrite_tidy {Lp : List Instr} {c : CoreId} {blk o : Nat} {v : Word} {s : State} (hk : Tidy Lp s) : Tidy Lp (regWrite c blk o v s) := by
  unfold regWrite
  try dsimp only
  repeat' (first | with_reducible assumption | with_reducible refine State_setReg_tidy ?_ | with_reducible refine markOverrun_tidy ?_ | with_reducible refine markWrite_tidy ?_ | with_reducible refine regAct_tidy ?_ | with_reducible refine Tidy.foldl _ (fun _ _ _ => ?_) ?_ | with_reducible refine Tidy.ite (fun _ => ?_) (fun _ => ?_) | simp only [tidy_mk] | split | dsimp only)

theorem msixWrite_tidy {Lp : List Instr} {p i f : Nat} {v : Word} {s : State} (hk : Tidy Lp s) : Tidy Lp (msixWrite p i f v s) := by
  unfold msixWrite
  try dsimp only
  repeat' (first | with_reducible assumption | with_reducible refine State_setPort_tidy ?_ | with_reducible refine Tidy.foldl _ (fun _ _ _ => ?_) ?_ | with_reducible refine Tidy.ite (fun _ => ?_) (fun _ => ?_) | simp only [tidy_mk] | split | dsimp only)

theorem admWrite_tidy {Lp : List Instr} {p : Nat} {f : HostPort → HostPort} {s : State} (hk : Tidy Lp s) : Tidy Lp (admWrite p f s) := by
  unfold admWrite
  try dsimp only
  repeat' (first | with_reducible assumption | with_reducible refine State_setPort_tidy ?_ | with_reducible refine Tidy.foldl _ (fun _ _ _ => ?_) ?_ | with_reducible refine Tidy.ite (fun _ => ?_) (fun _ => ?_) | simp only [tidy_mk] | split | dsimp only)

theorem barMark_tidy {Lp : List Instr} {p : Nat} {bits : Word} {s : State} (hk : Tidy Lp s) : Tidy Lp (barMark p bits s) := by
  unfold barMark
  try dsimp only
  repeat' (first | with_reducible assumption | with_reducible refine setStatusBits_tidy ?_ | with_reducible refine Tidy.foldl _ (fun _ _ _ => ?_) ?_ | with_reducible refine Tidy.ite (fun _ => ?_) (fun _ => ?_) | simp only [tidy_mk] | split | dsimp only)

theorem barWrite32_tidy {Lp : List Instr} {p o : Nat} {v : Word} {s : State} (hk : Tidy Lp s) : Tidy Lp (barWrite32 p o v s) := by
  unfold barWrite32
  try dsimp only
  repeat' (first | with_reducible assumption | with_reducible refine State_setPort_tidy ?_ | with_reducible refine State_setReg_tidy ?_ | with_reducible refine admWrite_tidy ?_ | with_reducible refine barMark_tidy ?_ | with_reducible refine cqHead_tidy ?_ | with_reducible refine msixWrite_tidy ?_ | with_reducible refine portControl_tidy ?_ | with_reducible refine sqTail_tidy ?_ | with_reducible refine Tidy.foldl _ (fun _ _ _ => ?_) ?_ | with_reducible refine Tidy.ite (fun _ => ?_) (fun _ => ?_) | simp only [tidy_mk] | split | dsimp only)

theorem barWrite_tidy {Lp : List Instr} {p o width : Nat} {v : DWord} {s : State} (hk : Tidy Lp s) : Tidy Lp (barWrite p o width v s) := by
  unfold barWrite
  try dsimp only
  repeat' (first | with_reducible assumption | with_reducible refine State_raiseAt_tidy ?_ | with_reducible refine barWrite32_tidy ?_ | with_reducible refine hostTlp_tidy (fun _ _ => ?_) ?_ | with_reducible refine Tidy.foldl _ (fun _ _ _ => ?_) ?_ | with_reducible refine Tidy.ite (fun _ => ?_) (fun _ => ?_) | simp only [tidy_mk] | split | dsimp only)

theorem hostRead_tidy {Lp : List Instr} {p o width : Nat} {s : State} (hk : Tidy Lp s) : Tidy Lp (hostRead p o width s) := by
  unfold hostRead
  try dsimp only
  repeat' (first | with_reducible assumption | with_reducible refine State_raiseAt_tidy ?_ | with_reducible refine State_setPort_tidy ?_ | with_reducible refine hostTlp_tidy (fun _ _ => ?_) ?_ | with_reducible refine Tidy.foldl _ (fun _ _ _ => ?_) ?_ | with_reducible refine Tidy.ite (fun _ => ?_) (fun _ => ?_) | simp only [tidy_mk] | split | dsimp only)

theorem hostPoisoned_tidy {Lp : List Instr} {p : Nat} {s : State} (hk : Tidy Lp s) : Tidy Lp (hostPoisoned p s) := by
  unfold hostPoisoned
  try dsimp only
  repeat' (first | with_reducible assumption | with_reducible refine State_setPort_tidy ?_ | with_reducible refine hostTlp_tidy (fun _ _ => ?_) ?_ | with_reducible refine Tidy.foldl _ (fun _ _ _ => ?_) ?_ | with_reducible refine Tidy.ite (fun _ => ?_) (fun _ => ?_) | simp only [tidy_mk] | split | dsimp only)

theorem cfgWrite32_tidy {Lp : List Instr} {p off : Nat} {v mask : Word} {s : State} (hk : Tidy Lp s) : Tidy Lp (cfgWrite32 p off v mask s) := by
  unfold cfgWrite32
  try dsimp only
  repeat' (first | with_reducible assumption | with_reducible refine State_setPort_tidy ?_ | with_reducible refine busMasterOff_tidy ?_ | with_reducible refine enterD3_tidy ?_ | with_reducible refine hostFlr_tidy ?_ | with_reducible refine leaveD3_tidy ?_ | with_reducible refine Tidy.foldl _ (fun _ _ _ => ?_) ?_ | with_reducible refine Tidy.ite (fun _ => ?_) (fun _ => ?_) | simp only [tidy_mk] | split | dsimp only)

theorem cfgRequest_tidy {Lp : List Instr} {p : Nat} {body : State → State} {s : State}
    (hb : ∀ t, Tidy Lp t → Tidy Lp (body t)) (hk : Tidy Lp s) : Tidy Lp (cfgRequest p body s) := by
  unfold cfgRequest
  dsimp only
  repeat' (first | exact hb _ (tlpArrives_tidy hk) | with_reducible refine State_setPort_tidy ?_ | exact tlpArrives_tidy hk | with_reducible assumption | split)

theorem cfgWrite_tidy {Lp : List Instr} {p o width : Nat} {v : DWord} {s : State} (hk : Tidy Lp s) : Tidy Lp (cfgWrite p o width v s) := by
  unfold cfgWrite
  try dsimp only
  repeat' (first | with_reducible assumption | with_reducible refine State_setPort_tidy ?_ | with_reducible refine cfgRequest_tidy (fun _ _ => ?_) ?_ | with_reducible refine cfgWrite32_tidy ?_ | with_reducible refine Tidy.foldl _ (fun _ _ _ => ?_) ?_ | with_reducible refine Tidy.ite (fun _ => ?_) (fun _ => ?_) | simp only [tidy_mk] | split | dsimp only)

theorem cfgRead_tidy {Lp : List Instr} {p o width : Nat} {s : State} (hk : Tidy Lp s) : Tidy Lp (cfgRead p o width s) := by
  unfold cfgRead
  try dsimp only
  repeat' (first | with_reducible assumption | with_reducible refine State_setPort_tidy ?_ | with_reducible refine cfgRequest_tidy (fun _ _ => ?_) ?_ | with_reducible refine Tidy.foldl _ (fun _ _ _ => ?_) ?_ | with_reducible refine Tidy.ite (fun _ => ?_) (fun _ => ?_) | simp only [tidy_mk] | split | dsimp only)

/-- What a bus access leaves keeps the queue and the memory form. -/
def BusTidy (Lp : List Instr) : BusRes → Prop
  | .ok _ t => Tidy Lp t
  | .err _ t => Tidy Lp t
theorem BusTidy.intro {Lp : List Instr} {r : BusRes} (h : BusTidy Lp r) : (∀ {v t}, r = .ok v t → Tidy Lp t) ∧ (∀ {d t}, r = .err d t → Tidy Lp t) :=
  ⟨fun e => by subst e; exact h, fun e => by subst e; exact h⟩
theorem sramLoad_bus {Lp : List Instr} {sp addr size : Nat} {s : State} (hk : Tidy Lp s) : BusTidy Lp (sramLoad sp addr size s) := by
  unfold sramLoad
  repeat' (first | exact demandUe_tidy hk | exact State_drew_tidy hk | exact hk | split)
theorem sramStore_bus {Lp : List Instr} {c : CoreId} {sp addr size v : Nat} {s : State} (hk : Tidy Lp s) : BusTidy Lp (sramStore c sp addr size v s) := by
  unfold sramStore
  split
  · exact demandUe_tidy hk
  · exact State_dropResv_tidy (State_writeNat_tidy hk)
theorem ddrLoad_bus {Lp : List Instr} {a size : Nat} {s : State} (hk : Tidy Lp s) : BusTidy Lp (ddrLoad a size s) := by
  unfold ddrLoad
  dsimp only
  split
  · exact demandUe_tidy hk
  · exact hk
theorem ddrStore_bus {Lp : List Instr} {c : CoreId} {a size v : Nat} {s : State} (hk : Tidy Lp s) : BusTidy Lp (ddrStore c a size v s) := by
  unfold ddrStore
  dsimp only
  split
  · exact demandUe_tidy hk
  · exact State_dropResv_tidy (State_writeNat_tidy hk)
theorem flashLoad_bus {Lp : List Instr} {b off size addr : Nat} {s : State} (hk : Tidy Lp s) : BusTidy Lp (flashLoad b off size addr s) := by
  unfold flashLoad
  dsimp only
  repeat' (first | exact State_raiseAt_tidy hk | exact State_raiseAt_tidy (State_drew_tidy hk) | exact State_drew_tidy (State_raiseAt_tidy hk) | exact State_drew_tidy hk | exact hk | split)
theorem busLoad_bus {Lp : List Instr} {c : CoreId} {addr size : Nat} {s : State} (hk : Tidy Lp s) : BusTidy Lp (busLoad c addr size s) := by
  unfold busLoad
  dsimp only
  repeat' (first | exact sramLoad_bus hk | exact flashLoad_bus hk | exact ddrLoad_bus hk | exact State_raiseAt_tidy hk | exact readClears_tidy (State_drew_tidy hk) | exact readClears_tidy hk | exact State_drew_tidy hk | exact hk | split)
theorem busLoad_tidy {Lp : List Instr} {c : CoreId} {addr size : Nat} {s : State} (hk : Tidy Lp s) :
    (∀ {v t}, busLoad c addr size s = .ok v t → Tidy Lp t) ∧ (∀ {d t}, busLoad c addr size s = .err d t → Tidy Lp t) := (busLoad_bus hk).intro

theorem busStore_bus {Lp : List Instr} {c : CoreId} {addr size v : Nat} {s : State} (hk : Tidy Lp s) : BusTidy Lp (busStore c addr size v s) := by
  unfold busStore
  repeat' (first | exact sramStore_bus hk | exact ddrStore_bus hk | exact State_raiseAt_tidy hk | exact regWrite_tidy hk | exact hk | split)
theorem busStore_tidy {Lp : List Instr} {c : CoreId} {addr size v : Nat} {s : State} (hk : Tidy Lp s) :
    (∀ {v' t}, busStore c addr size v s = .ok v' t → Tidy Lp t) ∧ (∀ {d t}, busStore c addr size v s = .err d t → Tidy Lp t) := (busStore_bus hk).intro

theorem storeWords_tidy {Lp : List Instr} {c : CoreId} : ∀ {ws : List Word} {addr : Nat} {s : State}, Tidy Lp s → Tidy Lp (storeWords c addr ws s).2
  | [], _, _, hk => hk
  | w :: ws, addr, s, hk => by
    unfold storeWords
    split
    · exact hk
    · split
      · exact (busStore_tidy hk).2 (by assumption)
      · exact storeWords_tidy ((busStore_tidy hk).1 (by assumption))
theorem storeWords_pair {Lp : List Instr} {c : CoreId} {ws : List Word} {addr : Nat} {s : State} {x} {t : State} (e : storeWords c addr ws s = (x, t)) (hk : Tidy Lp s) : Tidy Lp t := by
  have h : Tidy Lp (storeWords c addr ws s).2 := storeWords_tidy hk
  rw [e] at h; exact h

theorem loadWords_tidy {Lp : List Instr} {c : CoreId} : ∀ {n addr : Nat} {s : State}, Tidy Lp s → Tidy Lp (loadWords c addr n s).2
  | 0, _, _, hk => hk
  | n + 1, addr, s, hk => by
    unfold loadWords
    split
    · exact hk
    · split
      · exact (busLoad_tidy hk).2 (by assumption)
      · rename_i s' h1
        have h2 : Tidy Lp s' := (busLoad_tidy hk).1 h1
        have h3 : Tidy Lp (loadWords c (addr + 4) n s').2 := loadWords_tidy h2
        split <;> (rename_i h4; rw [h4] at h3; exact h3)
theorem loadWords_pair {Lp : List Instr} {c : CoreId} {n addr : Nat} {s : State} {x} {t : State} (e : loadWords c addr n s = (x, t)) (hk : Tidy Lp s) : Tidy Lp t := by
  have h : Tidy Lp (loadWords c addr n s).2 := loadWords_tidy hk
  rw [e] at h; exact h

theorem refusedStore_tidy {Lp : List Instr} {c : CoreId} {r : Refused} {s : State} (hk : Tidy Lp s) : Tidy Lp (refusedStore c r s) := by
  unfold refusedStore
  split
  · exact hk
  · split
    · exact (busStore_tidy hk).2 (by assumption)
    · exact hk

theorem refusedLoad_tidy {Lp : List Instr} {c : CoreId} {r : Refused} {s : State} (hk : Tidy Lp s) : Tidy Lp (refusedLoad c r s) := by
  unfold refusedLoad
  split
  · exact hk
  · split
    · exact (busLoad_tidy hk).2 (by assumption)
    · exact hk

theorem pushFrame_tidy {Lp : List Instr} {c : CoreId} {sp : Word} {ws : List Word} {s : State} (hk : Tidy Lp s) : Tidy Lp (pushFrame c sp ws s).2 := by
  unfold pushFrame
  try dsimp only
  repeat' (first | with_reducible assumption | with_reducible refine storeWords_tidy ?_ | with_reducible refine storeWords_pair (by with_reducible assumption) ?_ | with_reducible refine Tidy.foldl _ (fun _ _ _ => ?_) ?_ | with_reducible refine Tidy.ite (fun _ => ?_) (fun _ => ?_) | simp only [tidy_mk] | split | dsimp only)

theorem pushFrame_pair {Lp : List Instr} {c : CoreId} {sp : Word} {ws : List Word} {s : State} {x} {t : State} (e : pushFrame c sp ws s = (x, t)) (hk : Tidy Lp s) : Tidy Lp t := by
  have h : Tidy Lp (pushFrame c sp ws s).2 := pushFrame_tidy hk
  rw [e] at h; exact h

theorem secondEscalation_tidy {Lp : List Instr} {c : CoreId} {s : State} (hk : Tidy Lp s) : Tidy Lp (secondEscalation c s) := by
  unfold secondEscalation
  try dsimp only
  repeat' (first | with_reducible assumption | with_reducible refine State_raise_tidy ?_ | with_reducible refine State_setCore_tidy ?_ | with_reducible refine Tidy.foldl _ (fun _ _ _ => ?_) ?_ | with_reducible refine Tidy.ite (fun _ => ?_) (fun _ => ?_) | simp only [tidy_mk] | split | dsimp only)

theorem enterLockdown_tidy {Lp : List Instr} {c : CoreId} {cause vec : Nat} {epc eaddr : Word} {s : State} (hk : Tidy Lp s) : Tidy Lp (enterLockdown c cause vec epc eaddr s) := by
  unfold enterLockdown
  try dsimp only
  repeat' (first | with_reducible assumption | with_reducible refine State_dropResv_tidy ?_ | with_reducible refine State_report_tidy ?_ | with_reducible refine State_setCore_tidy ?_ | with_reducible refine State_writeBytes_tidy ?_ | with_reducible refine secondEscalation_tidy ?_ | with_reducible refine Tidy.foldl _ (fun _ _ _ => ?_) ?_ | with_reducible refine Tidy.ite (fun _ => ?_) (fun _ => ?_) | simp only [tidy_mk] | split | dsimp only)

theorem commitEntry_tidy {Lp : List Instr} {c : CoreId} {q : Entering} {sp handler : Word} {spilled : Bool} {s : State} (hk : Tidy Lp s) : Tidy Lp (commitEntry c q sp handler spilled s) := by
  unfold commitEntry
  try dsimp only
  repeat' (first | with_reducible assumption | with_reducible refine State_setCore_tidy ?_ | with_reducible refine Tidy.foldl _ (fun _ _ _ => ?_) ?_ | with_reducible refine Tidy.ite (fun _ => ?_) (fun _ => ?_) | simp only [tidy_mk] | split | dsimp only)

theorem entryFrom_tidy {Lp : List Instr} {c : CoreId} {q : Entering} {handler : Word} {s : State} (hk : Tidy Lp s) : Tidy Lp (entryFrom c q handler s) := by
  unfold entryFrom
  try dsimp only
  repeat' (first | with_reducible assumption | with_reducible refine commitEntry_tidy ?_ | with_reducible refine enterLockdown_tidy ?_ | with_reducible refine pushFrame_tidy ?_ | with_reducible refine pushFrame_pair (by with_reducible assumption) ?_ | with_reducible refine Tidy.foldl _ (fun _ _ _ => ?_) ?_ | with_reducible refine Tidy.ite (fun _ => ?_) (fun _ => ?_) | simp only [tidy_mk] | split | dsimp only)

theorem takeException_tidy {Lp : List Instr} {c : CoreId} {q : Entering} {s : State} (hk : Tidy Lp s) : Tidy Lp (takeException c q s) := by
  unfold takeException
  dsimp only
  repeat' (first | with_reducible assumption | exact (busLoad_tidy hk).1 (by assumption) | exact (busLoad_tidy hk).2 (by assumption)| with_reducible refine enterLockdown_tidy ?_ | with_reducible refine entryFrom_tidy ?_ | with_reducible refine secondEscalation_tidy ?_ | with_reducible refine State_drew_tidy ?_| with_reducible refine Tidy.ite (fun _ => ?_) (fun _ => ?_) | split)

theorem raiseException_tidy {Lp : List Instr} {c : CoreId} {vector detail : Nat} {eaddr : Word} {s : State} (hk : Tidy Lp s) : Tidy Lp (raiseException c vector detail eaddr s) := by
  unfold raiseException
  try dsimp only
  repeat' (first | with_reducible assumption | with_reducible refine takeException_tidy ?_ | with_reducible refine Tidy.foldl _ (fun _ _ _ => ?_) ?_ | with_reducible refine Tidy.ite (fun _ => ?_) (fun _ => ?_) | simp only [tidy_mk] | split | dsimp only)

theorem addCycles_tidy {Lp : List Instr} {c : CoreId} {n : Nat} {s : State} (hk : Tidy Lp s) : Tidy Lp (addCycles c n s) := by
  unfold addCycles
  try dsimp only
  repeat' (first | with_reducible assumption | with_reducible refine State_drew_tidy ?_ | with_reducible refine State_setCore_tidy ?_ | with_reducible refine Tidy.foldl _ (fun _ _ _ => ?_) ?_ | with_reducible refine Tidy.ite (fun _ => ?_) (fun _ => ?_) | simp only [tidy_mk] | split | dsimp only)

theorem takeInterrupt_tidy {Lp : List Instr} {c : CoreId} {l : Nat} {s : State} (hk : Tidy Lp s) : Tidy Lp (takeInterrupt c l s) := by
  unfold takeInterrupt
  try dsimp only
  repeat' (first | with_reducible assumption | with_reducible refine State_unline_tidy ?_ | with_reducible refine addCycles_tidy ?_ | with_reducible refine takeException_tidy ?_ | with_reducible refine Tidy.foldl _ (fun _ _ _ => ?_) ?_ | with_reducible refine Tidy.ite (fun _ => ?_) (fun _ => ?_) | simp only [tidy_mk] | split | dsimp only)

/-- What an instruction's own work leaves keeps the queue and the memory's form. -/
def IssueTidy (Lp : List Instr) : Issue → Prop
  | .fin s => Tidy Lp s
  | .trap _ _ _ s => Tidy Lp s
theorem deliver_tidy {Lp : List Instr} {c : CoreId} {cy : Nat} {i : Issue} (hk : IssueTidy Lp i) : Tidy Lp (deliver c cy i) := by
  cases i
  · exact addCycles_tidy hk
  · exact addCycles_tidy (raiseException_tidy hk)

theorem trap_tidy {Lp : List Instr} {c : CoreId} {cy v d : Nat} {a : Word} {s : State} (hk : Tidy Lp s) : Tidy Lp (deliver c cy (.trap v d a s)) :=
  deliver_tidy (i := .trap v d a s) hk
theorem issueNow_tidy {Lp : List Instr} {c : CoreId} {cy : Nat} {tp : Bool} {ill : Option Nat} {pr : Bool} {body : State → Issue} {s : State}
    (hb : ∀ {t}, Tidy Lp t → IssueTidy Lp (body t)) (hk : Tidy Lp s) : Tidy Lp (issueNow c cy tp ill pr body s) := by
  unfold issueNow
  dsimp only
  repeat' (first | with_reducible assumption | with_reducible refine takeInterrupt_tidy ?_ | with_reducible refine trap_tidy ?_ | with_reducible refine demandUe_tidy ?_ | with_reducible exact deliver_tidy (hb hk) | split)

theorem issue_tidy {Lp : List Instr} {c : CoreId} {cy : Nat} {tp : Bool} {ill : Option Nat} {pr : Bool} {body : State → Issue} {s : State}
    (hb : ∀ {t}, Tidy Lp t → IssueTidy Lp (body t)) (hk : Tidy Lp s) : Tidy Lp (issue c cy tp ill pr body s) := by
  unfold issue
  repeat' (first | exact hk | exact issueNow_tidy hb hk | exact issueNow_tidy hb (State_setCore_tidy hk) | split)

theorem State_advance_tidy {Lp : List Instr} {s : State} {c : CoreId} (hk : Tidy Lp s) : Tidy Lp (State.advance s c) := by
  unfold State.advance
  try dsimp only
  repeat' (first | with_reducible assumption | with_reducible refine State_setCore_tidy ?_ | with_reducible refine Tidy.foldl _ (fun _ _ _ => ?_) ?_ | with_reducible refine Tidy.ite (fun _ => ?_) (fun _ => ?_) | simp only [tidy_mk] | split | dsimp only)

theorem State_jump_tidy {Lp : List Instr} {s : State} {c : CoreId} {t : Word} (hk : Tidy Lp s) : Tidy Lp (State.jump s c t) := by
  unfold State.jump
  try dsimp only
  repeat' (first | with_reducible assumption | with_reducible refine State_setCore_tidy ?_ | with_reducible refine Tidy.foldl _ (fun _ _ _ => ?_) ?_ | with_reducible refine Tidy.ite (fun _ => ?_) (fun _ => ?_) | simp only [tidy_mk] | split | dsimp only)

end Sys2Proof.Laws
end

