-- ==== Sys2Proof/Laws/TidyRows.lean ====
section
/-! SUPPORT. The queue and the memory form under the instructions' own work and the rows' operations. -/

namespace Sys2Proof.Laws

open Sys2Proof.Machine

theorem dataLoad_tidy {Lp : List Instr} {c : CoreId} {ring addr size : Nat} {s : State} {k : Nat → State → Issue}
    (hf : ∀ v t, Tidy Lp t → IssueTidy Lp (k v t)) (hk : Tidy Lp s) : IssueTidy Lp (dataLoad c ring addr size s k) := by
  unfold dataLoad
  split
  · exact hk
  · split
    · exact hk
    · split
      · exact (busLoad_tidy hk).2 (by assumption)
      · exact hf _ _ ((busLoad_tidy hk).1 (by assumption))
theorem dataStore_tidy {Lp : List Instr} {c : CoreId} {ring addr size v : Nat} {s : State} {k : State → Issue}
    (hf : ∀ t, Tidy Lp t → IssueTidy Lp (k t)) (hk : Tidy Lp s) : IssueTidy Lp (dataStore c ring addr size v s k) := by
  unfold dataStore
  split
  · exact hk
  · split
    · exact hk
    · split
      · exact hf _ hk
      · split
        · exact (busStore_tidy hk).2 (by assumption)
        · exact hf _ ((busStore_tidy hk).1 (by assumption))
theorem writeRd_tidy {Lp : List Instr} {c : CoreId} {rd : RegF} {v : State → Word} {s : State} (hk : Tidy Lp s) : IssueTidy Lp (writeRd c rd v s) :=
  State_advance_tidy (State_wr_tidy hk)
theorem writeArith_tidy {Lp : List Instr} {c : CoreId} {rd : RegF} {f : State → Arith} {s : State} (hk : Tidy Lp s) : IssueTidy Lp (writeArith c rd f s) := by
  unfold writeArith
  dsimp only
  split
  · split
    · exact hk
    · exact State_advance_tidy (State_setCore_tidy (State_wr_tidy hk))
  · exact State_advance_tidy (State_wr_tidy hk)
theorem loadRd_tidy {Lp : List Instr} {c : CoreId} {rd rs : RegF} {imm : BitVec 16} {size : Nat} {ext : Nat → Word} {s : State} (hk : Tidy Lp s) :
    IssueTidy Lp (loadRd c rd rs imm size ext s) :=
  dataLoad_tidy (fun _ _ h => State_advance_tidy (State_wr_tidy h)) hk
theorem storeRd_tidy {Lp : List Instr} {c : CoreId} {rd rs : RegF} {imm : BitVec 16} {size : Nat} {s : State} (hk : Tidy Lp s) :
    IssueTidy Lp (storeRd c rd rs imm size s) :=
  dataStore_tidy (fun _ h => State_advance_tidy h) hk
theorem storeCond_tidy {Lp : List Instr} {c : CoreId} {rd rs rt : RegF} {s : State} (hk : Tidy Lp s) : IssueTidy Lp (storeCond c rd rs rt s) := by
  unfold storeCond
  dsimp only
  split
  · exact hk
  · split
    · exact dataStore_tidy (fun _ h => State_advance_tidy (State_wr_tidy (State_setCore_tidy h))) hk
    · exact State_advance_tidy (State_wr_tidy (State_setCore_tidy hk))
theorem branchIf_tidy {Lp : List Instr} {c : CoreId} {disp : BitVec 16} {cond : State → Bool} {s : State} (hk : Tidy Lp s) : IssueTidy Lp (branchIf c disp cond s) := by
  unfold branchIf
  split
  · exact State_jump_tidy hk
  · exact State_advance_tidy hk
theorem branch_tidy {Lp : List Instr} {c : CoreId} {disp : BitVec 16} {cond : State → Bool} {s : State} (hk : Tidy Lp s) : Tidy Lp (branch c disp cond s) :=
  issue_tidy branchIf_tidy hk
theorem jumpTo_tidy {Lp : List Instr} {c : CoreId} {t : Word} {s : State} (hk : Tidy Lp s) : IssueTidy Lp (jumpTo c t s) := by
  unfold jumpTo
  split
  · exact hk
  · exact State_jump_tidy hk
theorem callTo_tidy {Lp : List Instr} {c : CoreId} {t : Word} {s : State} (hk : Tidy Lp s) : IssueTidy Lp (callTo c t s) := by
  unfold callTo
  dsimp only
  repeat' split
  · exact hk
  · exact hk
  · exact State_jump_tidy (State_setCore_tidy (State_wr_tidy hk))
theorem returnBack_tidy {Lp : List Instr} {c : CoreId} {s : State} (hk : Tidy Lp s) : IssueTidy Lp (returnBack c s) := by
  unfold returnBack
  dsimp only
  repeat' split
  · exact hk
  · exact hk
  · exact State_jump_tidy (State_setCore_tidy hk)
theorem readSpecial_tidy {Lp : List Instr} {c : CoreId} {rd : RegF} {sel : Nat} {s : State} (hk : Tidy Lp s) : IssueTidy Lp (readSpecial c rd sel s) := by
  unfold readSpecial
  dsimp only
  repeat' split
  · exact hk
  · exact hk
  · exact State_advance_tidy (State_wr_tidy (State_setCore_tidy hk))
  · exact State_advance_tidy (State_wr_tidy hk)
theorem writeSpecial_tidy {Lp : List Instr} {c : CoreId} {rs : RegF} {sel : Nat} {s : State} (hk : Tidy Lp s) : IssueTidy Lp (writeSpecial c rs sel s) := by
  unfold writeSpecial
  dsimp only
  repeat' split
  · exact hk
  · exact hk
  · exact State_advance_tidy (State_setCore_tidy hk)
theorem returnFromException_tidy {Lp : List Instr} {c : CoreId} {s : State} (hk : Tidy Lp s) : IssueTidy Lp (returnFromException c s) := by
  unfold returnFromException eretLockdown eretPlain
  dsimp only
  split
  · repeat' split
    · exact hk
    · exact hk
    · exact State_setCore_tidy hk
  · split
    · exact hk
    · split
      · exact enterLockdown_tidy hk
      · have hp : ∀ {x t}, (if (s.core c).spillp.toNat < (s.core c).spilllim.toNat then
            ((Except.error ⟨(s.core c).spillp.toNat, 8, 5⟩ : Except Refused (List Word)), s)
            else loadWords c (s.core c).spillp.toNat 16 s) = (x, t) → Tidy Lp t := by
          intro x t e
          split at e
          · injection e with _ e; exact e ▸ hk
          · exact loadWords_pair e hk
        split
        · exact enterLockdown_tidy (hp (by assumption))
        · exact State_setCore_tidy (hp (by assumption))
theorem spillFrame_tidy {Lp : List Instr} {c : CoreId} {s : State} (hk : Tidy Lp s) : IssueTidy Lp (spillFrame c s) := by
  unfold spillFrame
  dsimp only
  repeat' split
  · exact hk
  · exact hk
  · exact refusedStore_tidy (r := _) hk
  · exact State_advance_tidy (State_setCore_tidy (storeWords_pair (by assumption) hk))
theorem fillFrame_tidy {Lp : List Instr} {c : CoreId} {s : State} (hk : Tidy Lp s) : IssueTidy Lp (fillFrame c s) := by
  unfold fillFrame
  dsimp only
  repeat' split
  · exact hk
  · exact refusedLoad_tidy (r := _) hk
  · exact State_advance_tidy (State_setCore_tidy (loadWords_pair (by assumption) hk))
theorem enterGate_tidy {Lp : List Instr} {c : CoreId} {n : Nat} {s : State} (hk : Tidy Lp s) : IssueTidy Lp (enterGate c n s) := by
  unfold enterGate
  dsimp only
  split
  · exact refusedLoad_tidy (r := _) hk
  · rename_i s' e
    have hw : Tidy Lp s' := loadWords_pair e hk
    repeat' split
    all_goals first | exact hw | exact takeException_tidy hw
theorem coreWrite_tidy {Lp : List Instr} {c : CoreId} {addr width : Nat} {v : Word} {s : State} (hk : Tidy Lp s) : Tidy Lp (coreWrite c addr v width s) := by
  unfold coreWrite
  split
  · exact hk
  · have h : IssueTidy Lp (dataStore c (s.core c).ring addr width v.toNat s (fun s => .fin s)) := dataStore_tidy (fun _ h => h) hk
    split
    · rename_i e; rw [e] at h; exact h
    · rename_i e; rw [e] at h; exact raiseException_tidy h

theorem passTime_tidy {Lp : List Instr} {n : Nat} {s : State} (hk : Tidy Lp s) : Tidy Lp (passTime n s) := by
  unfold passTime
  try dsimp only
  repeat' (first | with_reducible assumption | with_reducible refine Tidy.foldl _ (fun _ _ _ => ?_) ?_ | with_reducible refine Tidy.ite (fun _ => ?_) (fun _ => ?_) | simp only [tidy_mk] | split | dsimp only)

theorem periodicFlush_tidy {Lp : List Instr} {s : State} (hk : Tidy Lp s) : Tidy Lp (periodicFlush s) := by
  unfold periodicFlush
  try dsimp only
  repeat' (first | with_reducible assumption | with_reducible refine flush_tidy ?_ | with_reducible refine queueCheckpoint_tidy ?_ | with_reducible refine Tidy.foldl _ (fun _ _ _ => ?_) ?_ | with_reducible refine Tidy.ite (fun _ => ?_) (fun _ => ?_) | simp only [tidy_mk] | split | dsimp only)

theorem linkLine_tidy {Lp : List Instr} {m : PairOut} {s : State} (hk : Tidy Lp s) : Tidy Lp (linkLine m s) := by
  unfold linkLine
  try dsimp only
  repeat' (first | with_reducible assumption | with_reducible refine State_line_tidy ?_ | with_reducible refine State_setPair_tidy ?_ | with_reducible refine Tidy.foldl _ (fun _ _ _ => ?_) ?_ | with_reducible refine Tidy.ite (fun _ => ?_) (fun _ => ?_) | simp only [tidy_mk] | split | dsimp only)

theorem heartbeatFlit_tidy {Lp : List Instr} {path : HbPath} {w : Word} {crcOk : Bool} {s : State} (hk : Tidy Lp s) : Tidy Lp (heartbeatFlit path w crcOk s) := by
  unfold heartbeatFlit
  try dsimp only
  repeat' (first | with_reducible assumption | with_reducible refine State_setPair_tidy ?_ | with_reducible refine heartbeat_tidy ?_ | with_reducible refine Tidy.foldl _ (fun _ _ _ => ?_) ?_ | with_reducible refine Tidy.ite (fun _ => ?_) (fun _ => ?_) | simp only [tidy_mk] | split | dsimp only)

theorem unitKeeps_tidy {Lp : List Instr} {s : State} {r : Report} (hk : Tidy Lp s) : Tidy Lp (unitKeeps s r) := by
  unfold unitKeeps
  try dsimp only
  repeat' (first | with_reducible assumption | with_reducible refine State_setReg_tidy ?_ | with_reducible refine countSplit_tidy ?_ | with_reducible refine logEcc_tidy ?_ | with_reducible refine markBad_tidy ?_ | with_reducible refine spoilDdr_tidy ?_ | with_reducible refine Tidy.foldl _ (fun _ _ _ => ?_) ?_ | with_reducible refine Tidy.ite (fun _ => ?_) (fun _ => ?_) | simp only [tidy_mk] | split | dsimp only)

theorem lockstep_tidy {Lp : List Instr} {ccb : Bool} {s : State} (hk : Tidy Lp s) : Tidy Lp (lockstep ccb s) := by
  unfold lockstep
  try dsimp only
  repeat' (first | with_reducible assumption | with_reducible refine State_raise_tidy ?_ | with_reducible refine State_setCore_tidy ?_ | with_reducible refine State_setReg_tidy ?_ | with_reducible refine Tidy.foldl _ (fun _ _ _ => ?_) ?_ | with_reducible refine Tidy.ite (fun _ => ?_) (fun _ => ?_) | simp only [tidy_mk] | split | dsimp only)

theorem assignAddr_tidy {Lp : List Instr} {a : BitVec 7} {s : State} (hk : Tidy Lp s) : Tidy Lp (assignAddr a s) := by
  unfold assignAddr
  try dsimp only
  repeat' (first | with_reducible assumption | with_reducible refine State_setMgmt_tidy ?_ | with_reducible refine Tidy.foldl _ (fun _ _ _ => ?_) ?_ | with_reducible refine Tidy.ite (fun _ => ?_) (fun _ => ?_) | simp only [tidy_mk] | split | dsimp only)

theorem doe_tidy {Lp : List Instr} {p : Nat} {body : State → State} {s : State} (hb : ∀ t, Tidy Lp t → Tidy Lp (body t)) (hk : Tidy Lp s) : Tidy Lp (doe p body s) := by
  unfold doe; split
  · exact hb _ (tlpArrives_tidy hk)
  · exact hk

theorem dmaStream_tidy {Lp : List Instr} {list : Bool} {n : Nat} {c : Inflight} {s : State} (hk : Tidy Lp s) : Tidy Lp (dmaStream list n c s) := by
  unfold dmaStream
  try dsimp only
  repeat' (first | with_reducible assumption | with_reducible refine State_drew_tidy ?_ | with_reducible refine endStream_tidy ?_ | with_reducible refine enterFifo_tidy ?_ | with_reducible refine restStream_tidy ?_ | with_reducible refine scatter_tidy ?_ | with_reducible refine Tidy.foldl _ (fun _ _ _ => ?_) ?_ | with_reducible refine Tidy.ite (fun _ => ?_) (fun _ => ?_) | simp only [tidy_mk] | split | dsimp only)

theorem dmaError_tidy {Lp : List Instr} {src : Source} {tag : BitVec 16} {element : Word} {list : Bool} {how : DmaFail} {s : State} (hk : Tidy Lp s) : Tidy Lp (dmaError src tag element list how s) := by
  unfold dmaError
  try dsimp only
  repeat' (first | with_reducible assumption | with_reducible refine State_raiseAt_tidy ?_ | with_reducible refine State_setPort_tidy ?_ | with_reducible refine complete_tidy ?_ | with_reducible refine dmaStream_tidy ?_ | with_reducible refine dropCardJob_tidy ?_ | with_reducible refine dropEntropy_tidy ?_ | with_reducible refine dropLabelJob_tidy ?_ | with_reducible refine dropLaneKeys_tidy ?_ | with_reducible refine dropWired_tidy ?_ | with_reducible refine Tidy.foldl _ (fun _ _ _ => ?_) ?_ | with_reducible refine Tidy.ite (fun _ => ?_) (fun _ => ?_) | simp only [tidy_mk] | split | dsimp only)

end Sys2Proof.Laws
end

