-- ==== Sys2Proof/Tests/Slice0.lean ====
section
/-! SUPPORT. The tests: one-step tests against the examples of the spec, well-formedness, and for every statement with hypotheses the states and operands that meet them, clause by clause. -/

namespace Sys2Proof.Tests
open Sys2Proof.Machine Sys2Proof.Safety

set_option Elab.async false

/-! ### States the witnesses start from -/

/-- A host queue of 16 slots. -/
def queueOf (q sq cq : Nat) (intr : Bool) : Queue := freshQueue q (BitVec.ofNat 64 sq) (BitVec.ofNat 64 cq) 16 16 0 0 false intr 0

/-- An ACTIVE key of generation 1 with an object identifier. -/
def keyOf (oid : Oid) : KeyRecord := { emptyRecord 1 with oid := oid, state := .active, invHwm := 1000, policy := 3 }

/-- A module that has booted and runs alone: the key table there with one cached key, port 0 enabled with two queues, the entropy source seeded. -/
def up : State := { State.reset with
  power := { State.reset.power with supply := .running, booted := true, classFixed := true, holdupOk := true, leverOpen := false, pllLock := 0xFF }
  clock := { State.reset.clock with valid := true, time := 100 }
  pair := { Pair.reset with role := .solo }
  nvm := { Nvm.shipment with lifecycle := .commissioned }
  ktab := { Ktab.reset with present := true, records := [(7, keyOf 0x42)], stash := [(0x42, 7)], cache := [⟨7, 1, 1, false, 1, false⟩] }
  rng := { Rng.reset with state := .seeded }
  port0 := { HostPort.reset with linkUp := true, speed := 5, width := 8, enabled := true, cfg := [(4, 6), (0xB0, 0x80000000)] }
  cqe := { Cqe.reset with queues := [queueOf 0 0x10000 0x20000 true, queueOf 5 0x40000 0x50000 false] }
  flash := { Flash.shipment with scanDone := true, pumpOk := true }
  regs := firmwareRegs State.reset }

/-- The handle of its key. -/
def keyH : Word := khOf 7 1

/-! ### An entry from a queue that passes every check -/

/-- The parameters of an entry from their offsets. -/
def ps (l : List (Nat × Nat)) : Nat := l.foldl (fun a p => a + p.2 * 2 ^ (8 * (p.1 - 8))) 0

/-- An entry with the given tag, handle, parameters and addresses, its CRC right. -/
def entryFor (op tag handle : BitVec 16) (params : List (Nat × Nat)) (addr0 addr1 : DWord) : Entry :=
  let e : Entry := { flags := 0, byte3 := 0, tag := tag, handle := handle, params := BitVec.ofNat 256 (ps params), addr0 := addr0, addr1 := addr1, seq := 0, crc := 0 }
  { e with crc := crc32c ((entryBytes op e).take 60) }

/-- The state once the entry has been fetched from a queue, and the head its completion carries. -/
def fetched (q : Nat) (s : State) : State × BitVec 16 :=
  match s.queue q with
  | some x => (s.setQueue q (fun y => { y with
      sqHead := ringNext x.sqHead x.sqEntries, sqTail := if y.sqHead = y.sqTail then ringNext x.sqHead x.sqEntries else y.sqTail }),
      BitVec.ofNat 16 (ringNext x.sqHead x.sqEntries))
  | none => (s, 0)
/-- The command it becomes. -/
def commandOf (op : BitVec 16) (q : Nat) (e : Entry) (s : State) : Inflight := inflightOf op (.queue q) e (fetched q s).2 (fetched q s).1
/-- The state after the checks. -/
def checked (op : BitVec 16) (q : Nat) (e : Entry) (s : State) : State :=
  let c := commandOf op q e s
  match stateChecks op.toNat (.queue q) e c.key (takenIn c (fetched q s).1) with
  | .ok t => t
  | .error _ => s
/-- The state in which the command's own work begins. -/
def begins (op : BitVec 16) (q : Nat) (e : Entry) (s : State) : State :=
  let c := commandOf op q e s
  (signalled op (holdInterim c (checked op q e s))).waitOn c.key .running
/-- Does the entry pass every check now? -/
def passes (op : BitVec 16) (q : Nat) (e : Entry) (s : State) : Bool :=
  let c := commandOf op q e s
  let u := takenIn c (fetched q s).1
  cqeOpen s && (match s.queue q with | some x => queueOpen s x | none => false) && e.seq == expectedSeq (fetched q s).1 (.queue q)
    && (firstChecks (without c u) op (.queue q) e false).isNone
    && (match stateChecks op.toNat (.queue q) e c.key u with | .ok _ => true | .error _ => false)
    && !mustWait (holdInterim c (checked op q e s)) c && !(needsRequest op && !mgmtTakes (signalled op (holdInterim c (checked op q e s))))

theorem accepted_of (op : BitVec 16) (q : Nat) (e : Entry) (s : State) (hc : crc32c ((entryBytes op e).take 60) = e.crc)
    (h : passes op q e s = true) : Accepted op (.queue q) e s (commandOf op q e s) (begins op q e s) := by
  simp only [passes, Bool.and_eq_true, Bool.not_eq_true', beq_iff_eq, Option.isNone_iff_eq_none] at h
  obtain ⟨⟨⟨⟨⟨⟨h1, h2⟩, h3⟩, h4⟩, h5⟩, h6⟩, h7⟩ := h
  refine ⟨(fetched q s).1, false, (fetched q s).2, checked op q e s, ⟨h1, rfl, ?_⟩, ⟨hc, h3⟩, rfl, h4, ?_, h6, h7, rfl⟩
  · cases hq : s.queue q with
    | none => simp [hq] at h2
    | some x => rw [hq] at h2; exact ⟨x, rfl, h2, by simp [fetched, hq], by simp [fetched, hq]⟩
  · unfold checked
    dsimp only
    split at h5
    · next hk => rw [hk]
    · simp at h5
theorem entryFor_crc (op tag handle : BitVec 16) (params : List (Nat × Nat)) (addr0 addr1 : DWord) :
    crc32c ((entryBytes op (entryFor op tag handle params addr0 addr1)).take 60) = (entryFor op tag handle params addr0 addr1).crc := by
  have h (e : Entry) (v : Word) : (entryBytes op { e with crc := v }).take 60 = (entryBytes op e).take 60 := by
    simp [entryBytes, leBytes]
  exact congrArg crc32c (h ⟨0, 0, tag, handle, BitVec.ofNat 256 (ps params), addr0, addr1, 0, 0⟩ _)

/-- Core CC-A with its vectors, spill area and gate table in SRAM. -/
def inSram : State := up.setCore .ccA { up.core .ccA with vbase := 0x10001000, spillp := 0x10008000, spilllim := 0x10004000, gtbase := 0x10003000 }
/-- Core CC-A in ring 1, the whole address space open to that ring. -/
def inRing1 (s : State) : State :=
  ((s.setCore .ccA { s.core .ccA with status := 1 }).setReg (coreReg .ccA 0x404) 0xFFFFFFFF).setReg (coreReg .ccA 0x408) 0x80000077
/-- Core CC-A in ring 0 with interrupts on and line 6 asserted and enabled. -/
def intS : State := { (inSram.setCore .ccA { inSram.core .ccA with status := 4 }).setReg (coreReg .ccA 0x100) 0x01000000 with lines := bit32 6 true }
/-- Core CC-A in ring 1 with one valid gate, open to every ring. -/
def gateS : State := (inRing1 inSram).writeBytes 0 0x10003000 (leBytes 4 0x10002000 ++ leBytes 4 0x800000E0)

/-! ### Pieces of state the witnesses use -/

/-- A public-key job of a command: ECDSA P-384 verification. -/
def pkJob : PkeJob := { id := 1, slot := 0, p := { alg := 2, op := 2, scheme := 0, hash := 0, keysrc := 0, prio := 0, bits := 0, expBits := 0, ctxLen := 0 }, input := [], outLen := 0, outAddr := 0, desc := none, key := some 1, rnd := some 0, asked := true, rerun := false }
/-- A label job without a key. -/
def labelJob : LabelJob := { key := 1, kind := .read, port := 0, phase := .select, slot := none, uid := 0, block := 0, count := 1, expect := none, data := [], tries := 0, misses := 0, seq := 0, rndT := 0, rndR := 0, session := none, power := 0, boosted := false, others := 0 }
/-- A partner's HELLO. -/
def helloMsg : Hello := { serial := 9, chain := [], lastActive := none, role := .electing, preferred := false, nonce := 0 }
/-- A wrap of 16 bytes in SRAM. -/
def engCmd : EngCmd := { kslot := 1, kek := false, dslot := 2, dsel := false, src := 0x10001000, dst := 0x10002000, inLen := 16, outLen := 0 }
/-- A command in flight. -/
def waiting : Inflight := { key := 1, accRec := none, src := .queue 5, op := 0x0A02, entry := entryFor 0x0A02 3 0 [] 0 0, sqhead := 1, wait := .card 0, past := false, after := none, began := 0, faults := 0 }
/-- A stream open on lane 0 with the key of `up`. -/
def streamOf (isSeal : Bool) : Stream := { handle := 1, isSeal := isSeal, lane := 0, entry := some 0, kh := keyH, queue := 5, openTag := 1, openSeq := 0, oid := 0x42, segIdx := 0, segLen := 4096, done := 0, chunks := [], tail := [], ghash := 0, part := [], iv := 1, fixed := 0, lifetime := 3600, idleFrom := 0, state := .run, restoring := false }
/-- A synchronisation message with nothing more to come. -/
def syncImage : SyncImage := { lastRec := 0, chain := 0, crCheck := 0, crCapsule := none, pairTag := 0, held := false, records := [], manifests := [], later := [], progress := 100 }
/-- A register-driven read of tag page 0. -/
def wiredOp : WiredOp := { op := 1, page := 0, slot := 0, data := [], key := none }
/-- A result without a refusal, from its test. -/
theorem pair_of {α β : Type} {p : Option α × β} (h : p.1.isNone = true) : p = (none, p.2) := by
  obtain ⟨a, b⟩ := p; cases a <;> simp_all
/-- A module ACTIVE in a healthy pair: the session keyed, the link up, the partner STANDBY and in RUN by its heartbeat word. -/
def paired : State := { up with
  pair := { up.pair with role := .active, session := .keyed, link := .up, pathA := true, pathB := true, word := some 0x21000001 }
  nvm := { up.nvm with partner := some 9 } }

/-- A journal whose tail one long record fills. -/
def fullTail (n : Nat) : Journal := { Journal.reset with
  next := 1, flushed := 1, tailBytes := n, recs := [⟨false, 0, 0, 0, .posted (List.replicate n (0, 0)), 0⟩] }
theorem leBytes_len (n v : Nat) : (leBytes n v).length = n := by
  induction n generalizing v with
  | zero => rfl
  | succ n ih => simp [leBytes, ih]
theorem tailFull_of (n : Nat) (h : 4093 * 4040 ≤ n) (h0 : n % 4040 = 0) : tailFull (fullTail n) = true := by
  have hl : n ≤ bytesBetween (fullTail n).recs 0 1 := by
    simp only [fullTail, bytesBetween, List.foldl, recordLen, recordBytesOf]
    simp [bodyBytes, leBytes_len, pad8, padTo, List.length_flatMap]
    omega
  have hu : sectorsUsed (fullTail n) = (n + 4039) / 4040 - (n - bytesBetween (fullTail n).recs 0 1) / 4040 := rfl
  have hn : nextLen (fullTail n) = 32 := rfl
  have hb : (fullTail n).tailBytes = n := rfl
  unfold tailFull
  rw [hu, hn, hb, Nat.sub_eq_zero_of_le hl, h0]
  simp only [Bool.and_eq_true, decide_eq_true_eq]
  omega
theorem le8_of (n : Nat) : leBytes 8 (BitVec.ofNat 64 n).toNat = (leBytes 16 n).take 8 := by
  simp only [leBytes, BitVec.toNat_ofNat, List.take, List.cons.injEq, and_true]
  refine ⟨?_, ?_, ?_, ?_, ?_, ?_, ?_, ?_⟩ <;> (apply BitVec.eq_of_toNat_eq; simp only [BitVec.toNat_ofNat]; omega)
/-- The MAC a tag frame carries. -/
def macOf (sk : QWord) (ctr : Nat) (f : List Byte) : DWord := BitVec.ofNat 64 (Config.cmac128 sk (leBytes 2 ctr ++ f)).toNat
/-- The tag of `up` ACTIVE in a field, with counter 0 at 5 in both copies. -/
def tagged : State := ({ up with tag := { Tag.reset with field := true, mode := .active } }.writeBytes 6 (64 * 192) (leBytes 8 (counterWord 5))).writeBytes 6 (64 * 193) (leBytes 8 (counterWord 5))
/-- The same with a commit of page 0 whose shadow differs from the page, and with one whose shadow does not. -/
def committed (differs : Bool) : State :=
  let s := if differs then tagged.writeBytes 6 (64 * 196) [1] else tagged
  s.writeBytes 6 (64 * 194) (leBytes 8 (withCrc8 (2 ^ 16 + (crc16 (tagPage s 196)).toNat * 2 ^ 40)))
/-- The vault engine on, a key in slot 1, the first SRAM pages tagged secret. -/
def engineOn : State := { up with vault.slots := (List.replicate 32 none).set 1 (some 7), regs := [(vaultBase + 8, 1), (vaultBase + 0x100, 0xFF)] }
/-- The value of a call that answers one. -/
def okOf {ε α : Type} (f : Except ε α) (d : α) : α := match f with | .ok a => a | .error _ => d
theorem ok_of {ε α : Type} {f : Except ε α} {d : α} (h : (match f with | .ok _ => true | .error _ => false) = true) : f = .ok (okOf f d) := by
  cases f with
  | ok a => rfl
  | error e => simp at h
theorem some_of {α : Type} {f : Option α} (h : f.isSome = true) : f = some (f.get h) := (Option.some_get h).symm
/-- The state with a one-entry scatter list for `n` bytes in host memory. -/
def listed (n : Nat) (s : State) : State := s.writeBytes 4 0x30000 (leBytes 8 0x100000 ++ leBytes 4 n ++ leBytes 4 1)
/-- A quorum session for a class and target, granted or not. -/
def grantFor (cls : Nat) (target : DWord) (granted : Bool) : Session := ⟨1, cls, target, 2, 3, [], 0, 100000, [], [], [], granted, none, false⟩
/-- A journal with one record. -/
def journalS : State := { listed 200 up with journal.next := 1, journal.recs := [⟨false, 0, 0, 0, .posted [], 0⟩] }
/-- A reading of it from record 0. -/
def journalE : Entry := entryFor 771 3 0 [(8, 0), (0x18, 200)] 0x30000 0
/-- The records after the first that the reading selects. -/
def journalL : List JRecord := ((readSelection journalE (begins 771 0 journalE journalS)).getD []).tail
/-- A stream open on lane 0. -/
def openS (x : Stream) : State := { up with lanes := { Lanes.reset with streams := [x] } }
/-- A command at the head of its lane's FIFO. -/
def laneCmd (op : BitVec 16) (e : Entry) : Inflight := { waiting with op := op, entry := e, wait := .lane 0 }
/-- The state with it there. -/
def laneS (x : Stream) (op : BitVec 16) (e : Entry) : State := { up with
  lanes := { Lanes.reset with streams := [x], lanes := (List.replicate 4 Lane.reset).set 0 { Lane.reset with queue := [1] } }
  cqe.inflight := [laneCmd op e], cqe.nextKey := 2 }
/-- Scatter lists of 16 bytes for an input and an output. -/
def twoLists (s : State) : State := (listed 16 s).writeBytes 4 0x31000 (leBytes 8 0x110000 ++ leBytes 4 16 ++ leBytes 4 1)
/-- A key with room for a reservation ahead. -/
def roomy : State := { up with ktab.records := [(7, { keyOf 0x42 with invHwm := 100000 })] }
theorem someP_of {α β : Type} {f : Option (α × β)} {a : α} {d : α × β} (h : (f.map (fun p => p.1)) = some a) : f = some (a, (f.getD d).2) := by
  cases f with
  | none => simp at h
  | some p => simp at h; subst h; rfl
/-- A result with its first part. -/
theorem fst_of {α β : Type} {p : α × β} {a : α} (h : p.1 = a) : p = (a, p.2) := by rw [← h]
/-- A lookup whose first bucket is on a line known to be bad. -/
theorem find_spoilt {s : State} {o : Oid} (h : s.ktab.spoilt = [Ktab.bucketCode (Ktab.oidPlace s.indexKey o).1]) :
    (findOid o .ok s).1 = (3, (findOid o .ok s).1.2) := by
  have hf : s.ktab.failing (s.ktab.bucketReads (Ktab.oidPlace s.indexKey o).1) .ok 0 = some (Ktab.bucketCode (Ktab.oidPlace s.indexKey o).1, true) := by
    simp [Ktab.failing, Ktab.bucketReads, h]
  simp [findOid, hf]
/-- A state in which the first bucket of an object is on such a line. -/
def badIndex : State := { up with ktab.spoilt := [Ktab.bucketCode (Ktab.oidPlace 0 0x43).1] }
/-- Both mailbox slots of every lane hold keys of commands under way. -/
def slotsBusy (s : State) : State := { s with
  lanes := { s.lanes with lanes := List.replicate 4 { Lane.reset with queue := [1, 2], slot0 := some ⟨keyH, 0, 1⟩, slot1 := some ⟨keyH, 0, 2⟩ } }
  cqe.inflight := [{ laneCmd 514 (entryFor 514 9 1 [] 0 0) with key := 1 }, { laneCmd 514 (entryFor 514 8 2 [] 0 0) with key := 2 }], cqe.nextKey := 3 }

/-- IDENTIFY in a frame of the management port. -/
def mgmtFrame : List Byte :=
  let x : List Byte := leBytes 2 64 ++ entryBytes 0x0001 (entryFor 0x0001 3 0 [] 0 0)
  x ++ leBytes 2 (crc16 x).toNat
/-- The entry it carries. -/
def mgmtE : Entry := (entryOf (slice mgmtFrame 2 64)).2
/-- The command it becomes. -/
def mgmtC : Inflight := inflightOf 0x0001 .mgmt mgmtE (up.fresh.setWidth 16) up.drew
/-- The state after its checks. -/
def mgmtS : State := match stateChecks 0x0001 .mgmt mgmtE mgmtC.key (takenIn mgmtC up.drew) with | .ok t => t | .error _ => up
theorem witness_ManagementPort_frame : ∃ (b : List Byte) (s : State) (c : Inflight) (t : State), mgmtUp s = true ∧ s.power.mode = PowerMode.run ∧
    b.length = 68 ∧ fieldOf b 0 2 = 64 ∧ (crc16 (List.take 66 b)).toNat = fieldOf b 66 2 ∧
    Accepted (entryOf (slice b 2 64)).fst Source.mgmt (entryOf (slice b 2 64)).snd s c t := by
  have h : stateChecks 0x0001 .mgmt mgmtE mgmtC.key (takenIn mgmtC up.drew) = .ok mgmtS := ok_of (d := up) (by decide +kernel)
  refine ⟨mgmtFrame, up, mgmtC, (holdInterim mgmtC mgmtS).line 0 |>.waitOn mgmtC.key .running, by decide +kernel, by decide +kernel, by decide +kernel,
    by decide +kernel, by decide +kernel, up.drew, false, up.fresh.setWidth 16, mgmtS,
    ⟨by decide +kernel, rfl, by decide +kernel, by decide +kernel, by decide +kernel, rfl, rfl, rfl⟩, ⟨by decide +kernel, by decide +kernel⟩, ?_, by decide +kernel, ?_, by decide +kernel, ?_, ?_⟩
  · rw [show (entryOf (slice mgmtFrame 2 64)).1 = 0x0001 by decide +kernel]; rfl
  · rw [show (entryOf (slice mgmtFrame 2 64)).1 = 0x0001 by decide +kernel]; exact h
  · rw [show (entryOf (slice mgmtFrame 2 64)).1 = 0x0001 by decide +kernel]; rfl
  · rw [show (entryOf (slice mgmtFrame 2 64)).1 = 0x0001 by decide +kernel]; rfl

/-- The state of a tick of `n` units before its journal work (`v` of `Obligations.StartUpAndTime`). -/
def tickedUp (n : Nat) (s : State) : State :=
  latchTick n (wakeEvent .timer 0 (apduTimeouts { s with clock := { s.clock with
    time := s.clock.time + BitVec.ofNat 64 n, lfclk := s.clock.lfclk + n, ckptAge := s.clock.ckptAge + n, signAge := s.clock.signAge + n, tryAge := s.clock.tryAge + n } }))
/-- The same with the timer line asserted, flushed (`f` there). -/
def tickFlushed (n : Nat) (s : State) : State := flush { tickedUp n s with lines := (tickedUp n s).lines ||| 0x200000 }
/-- A journal under way 8,192 units after its last queue checkpoint, with what that held. -/
def checkpointed (l : List QSlot) : State := { up with journal.next := 1, journal.flushed := 1, journal.qckptSlots := l, clock.ckptAge := 8192 }
theorem witness_StartUpAndTime_unchanged : ∃ (n : Nat) (s : State), awake (tickedUp n s) = true ∧ (tickedUp n s).journals = true ∧ 0 < (tickedUp n s).journal.next ∧
    8192 ≤ (tickedUp n s).clock.ckptAge ∧ (tickFlushed n s).journal.qckptSlots ≠ [] ∧
    queueSlots (tickFlushed n s) (tickFlushed n s).journal.flushed = (tickFlushed n s).journal.qckptSlots :=
  ⟨0, checkpointed (queueSlots (tickFlushed 0 (checkpointed [])) 1), by decide +kernel⟩
theorem witness_StartUpAndTime_changed : ∃ (n : Nat) (s : State), awake (tickedUp n s) = true ∧ (tickedUp n s).journals = true ∧ 0 < (tickedUp n s).journal.next ∧
    8192 ≤ (tickedUp n s).clock.ckptAge ∧ (tickFlushed n s).journal.qckptSlots ≠ [] ∧
    queueSlots (tickFlushed n s) (tickFlushed n s).journal.flushed ≠ (tickFlushed n s).journal.qckptSlots :=
  ⟨0, checkpointed [⟨0, 0, false, false⟩], by decide +kernel⟩

/-! ### Well-formed terms: one ill-formed term for each check, and its neighbour inside the range -/

theorem test_wf_undefinedOpcode : Instr.wellFormed (.undefinedOpcode 0x0001 .mgmt mgmtE) = false ∧ Instr.wellFormed (.undefinedOpcode 0x00FF (.queue 128) mgmtE) = false ∧
    Instr.wellFormed (.undefinedOpcode 0x00FF (.internal 4 0) mgmtE) = false ∧ Instr.wellFormed (.undefinedOpcode 0x00FF (.internal 3 0) mgmtE) = true := by decide +kernel
theorem test_wf_undefinedInstruction : Instr.wellFormed (.undefinedInstruction .ccA 0x04000000) = false ∧ Instr.wellFormed (.undefinedInstruction .ccA 0xFC000000) = true := by decide +kernel
theorem test_wf_registerWrite : Instr.wellFormed (.registerWrite (.core .ccA) 0x100000000 0 4) = false ∧ Instr.wellFormed (.registerWrite (.core .ccA) 0x40000000 0 3) = false ∧
    Instr.wellFormed (.registerWrite (.host 2) 0 0 4) = false ∧ Instr.wellFormed (.registerWrite (.host 0) 0x40000 0 4) = false ∧
    Instr.wellFormed (.registerWrite (.host 0) 0 0 9) = false ∧ Instr.wellFormed (.registerWrite (.config 0) 0x1000 0 4) = false ∧ Instr.wellFormed (.registerWrite (.config 0) 2 0 4) = false ∧ Instr.wellFormed (.registerWrite (.host 1) 0x3FFFF 0 1) = true := by decide +kernel
theorem test_wf_dmaReadError : Instr.wellFormed (.dmaReadError (.queue 128) 3 ⟨0, false, .unsupported⟩) = false ∧ Instr.wellFormed (.dmaReadError .mgmt 3 ⟨0, false, .unsupported⟩) = false := by decide +kernel
theorem test_wf_load : Instr.wellFormed (.load 0 0 .openSeal 64 0) = false ∧ Instr.wellFormed (.clear 0 0 false 64 0) = false ∧ Instr.wellFormed (.load 0 0 .openSeal 63 0) = true := by decide +kernel
theorem test_wf_faultRaise : Instr.wellFormed (.faultRaise []) = false ∧ Instr.wellFormed (.faultRaise [⟨256, ⟨0, 0⟩, 0, 0⟩]) = false := by decide +kernel
theorem test_wf_tamper : Instr.wellFormed (.tamperMonitorAssert 127 false 0) = false ∧ Instr.wellFormed (.cellTamperAlarm 145 false) = false ∧
    Instr.wellFormed (.capSenseSample []) = false ∧ Instr.wellFormed (.tamperCalibrate [0, 0, 0]) = false := by decide +kernel
theorem test_wf_flash : Instr.wellFormed (.program 0 0x1000004 0) = false ∧ Instr.wellFormed (.program 0 4 0) = false ∧ Instr.wellFormed (.program 0 0xFFFFF8 0) = true ∧
    Instr.wellFormed (.erase 0 4096) = false ∧ Instr.wellFormed (.flashQuery 0 4096) = false ∧ Instr.wellFormed (.protect 64) = false ∧ Instr.wellFormed (.unprotect 64) = false := by decide +kernel
theorem test_wf_repair : Instr.wellFormed (.retire 0x2000000 0 0) = false ∧ Instr.wellFormed (.retire 0 4096 0) = false ∧ Instr.wellFormed (.retire 0x1FFFFFF 4095 0) = true ∧
    Instr.wellFormed (.repair 64 0) = false ∧ Instr.wellFormed (.repair 0 2048) = false := by decide +kernel
theorem test_wf_hostLinkUp : Instr.wellFormed (.hostLinkUp 0 6 8) = false ∧ Instr.wellFormed (.hostLinkUp 0 0 8) = false ∧ Instr.wellFormed (.hostLinkUp 0 5 3) = false := by decide +kernel
theorem test_wf_tagBlocks : Instr.wellFormed (.readBlock 65536 0 none) = false ∧ Instr.wellFormed (.readBlock 0 256 none) = false := by decide +kernel
theorem test_wf_tagRest : Instr.wellFormed (.counterRead 256 none) = false ∧ Instr.wellFormed (.auth1 256) = false ∧ Instr.wellFormed (.rate 256 none) = false ∧
    Instr.wellFormed (.yomirOut 65536 0 none) = false ∧ Instr.wellFormed (.yomirOut 0 256 none) = false := by decide +kernel
theorem test_wf_tagif : Instr.wellFormed (.tagifReadPage 256) = false ∧ Instr.wellFormed (.tagifWritePlacardPage 256) = false ∧ Instr.wellFormed (.tagifWriteKeySlot 4) = false := by decide +kernel
theorem test_wf_cards : Instr.wellFormed (.cardActivate 0 4) = false ∧ Instr.wellFormed (.flitNak (List.replicate 63 0)) = false := by decide +kernel

/-! ### One step of one command, against the spec's worked examples and tables -/

/-- The next state of an outcome. -/
def after (o : Host.Outcome State Fault Refusal) : State := match o with | .next t => t | .fault _ => State.reset | .refused _ => State.reset
/-- Core CC-A at an address with w8 = 5 and w10 = 0. -/
def arithS (pc ctrl : Word) : State := inSram.setCore .ccA { (inSram.core .ccA).write .ccA 8 5 with pc := pc, ctrl := ctrl }

/-- 12_mbovor_core_isa.md, the example under R398, first line: DIVU by zero in deferred mode. -/
theorem test_divu_deferred :
    let k := (after (exec (.divu .ccA 9 8 10) (arithS 0x10004200 0))).core .ccA
    k.read .ccA 9 = 0xFFFFFFFF ∧ bitAt k.status 8 = true ∧ bitAt k.status 9 = false ∧ k.afAddr = 0x10004200 ∧ k.pc = 0x10004204 := by decide +kernel
/-- The same example, last line: the trap at the branch. -/
theorem test_beq_deferred_trap :
    let s := arithS 0x10004208 0
    let k := (after (exec (.beq .ccA 11 24 4) (s.setCore .ccA { s.core .ccA with status := 0x100, afAddr := 0x10004200 }))).core .ccA
    k.epc = 0x10004208 ∧ k.eaddr = 0x10004200 ∧ k.ecause = 0x0000010B := by decide +kernel
/-- The same example in precise mode. -/
theorem test_divu_precise :
    let k := (after (exec (.divu .ccA 9 8 10) (arithS 0x10004200 1))).core .ccA
    k.ecause = 0x0000810B ∧ k.epc = 0x10004200 ∧ k.eaddr = 0x10004200 ∧ k.rf = ((arithS 0x10004200 1).core .ccA).rf := by decide +kernel
/-- Core CC-A before GATE 4 of the example of 13_rings_exceptions.md. -/
def exampleGate : State :=
  let s := (inRing1 inSram).setReg (coreReg .ccA 0x408) 0x80007777
  let k := { s.core .ccA with status := 7, wstate := 0x00030005, spillp := 0x10600000, spilllim := 0x10500000, gtbase := 0x10008000, pc := 0x10340A10, shadow := [] }
  (s.setCore .ccA k).writeBytes 0 0x10008020 (leBytes 4 0x10012000 ++ leBytes 4 0x80000083)
/-- That example, steps 1 to 3. -/
theorem test_gate_example :
    let k := (after (exec (.gate .ccA 4) exampleGate)).core .ccA
    k.spillp = 0x105FFFC0 ∧ k.epc = 0x10340A14 ∧ k.estatus = 7 ∧ k.ecause = 0x400 ∧ k.shadow = [3] ∧ k.status = 0 ∧ k.pc = 0x10012000 ∧
      k.wstate = 0x00040006 := by decide +kernel
/-- That example, steps 4 and 5: ERET below the shadow value is refused: lockdown, with XSP at 0xF000_3FC0. -/
theorem test_eret_example :
    let s := after (exec (.gate .ccA 4) exampleGate)
    let t := after (exec (.eret .ccA) (s.setCore .ccA { s.core .ccA with estatus := 5, pc := 0x10012040 }))
    (t.core .ccA).lockdown = true ∧ (t.core .ccA).xsp = 0xF0003FC0 := by decide +kernel
/-- R390: addition wraps; rd may be a source. -/
theorem test_add_wraps :
    let s := inSram.setCore .ccA ((inSram.core .ccA).write .ccA 8 0xFFFFFFFF)
    ((after (exec (.addi .ccA 8 8 1) s)).core .ccA).read .ccA 8 = 0 ∧ ((after (exec (.add .ccA 8 8 8) s)).core .ccA).read .ccA 8 = 0xFFFFFFFE := by decide +kernel
/-- R394: BFXS copies the top bit of the field upwards. -/
theorem test_bfxs_sign :
    let s := inSram.setCore .ccA ((inSram.core .ccA).write .ccA 8 0x00000F00)
    ((after (exec (.bfxs .ccA 9 8 8 3) s)).core .ccA).read .ccA 9 = 0xFFFFFFFF ∧ ((after (exec (.bfxu .ccA 9 8 8 3) s)).core .ccA).read .ccA 9 = 0xF := by decide +kernel
/-- R375: g0 discards a write and reads zero. -/
theorem test_g0_discards : ((after (exec (.addi .ccA 24 24 7) inSram)).core .ccA).read .ccA 24 = 0 := by decide +kernel
/-- R4, R389: a stored word lies low byte first. -/
theorem test_store_little_endian :
    let s := inSram.setCore .ccA (((inSram.core .ccA).write .ccA 8 0x10002000).write .ccA 9 0x11223344)
    (after (exec (.stw .ccA 9 8 0) s)).readBytes 0 0x10002000 4 = [0x44, 0x33, 0x22, 0x11] := by decide +kernel
/-- 00_scope.md, the example of R15: SEAL_DATA with byte 3 at 1 and a reserved flag bit set completes INVALID_FIELD, offset 2. -/
theorem test_invalid_field_example :
    firstChecks up 0x0202 (.queue 0) { entryFor 0x0202 0x0101 1 [(8, 16)] 0x30000 0x31000 with byte3 := 1, flags := 0x20 } false = some (answer 0x2002 [(12, 2)]) := by decide +kernel
/-- 10_public_key_engine.md, the worked example: R324 passes, and a base equal to the modulus is out of range (R336). -/
theorem test_modexp_example :
    let e := entryFor 0x0408 0x0720 0 [(8, 1), (9, 3), (0xC, 0x1000), (0xE, 0x11), (0x10, 0x403), (0x14, 0x200)] 0x30000 0x31000
    let n := 1 :: List.replicate 510 0 ++ [1]
    pkeCheck (pkParams 7 e) 0x403 0x200 false = none ∧ pkeJudgement (pkParams 7 e) (n ++ [1, 0, 1] ++ n) = 1 := by decide +kernel
/-- 01_system_view.md: key handle 0x0020_1A4C is index 0x01A4C, generation 1. -/
theorem test_key_handle : khIndex 0x00201A4C = 0x01A4C ∧ khGen 0x00201A4C = 1 ∧ khOf 0x0F3A2 3 = 0x0060F3A2 := by decide +kernel
/-- 04_yomir_command_protocol.md, the worked example: QUEUE_CREATE of qid 5. -/
theorem test_queue_create_example :
    let e := entryFor 0x0002 1 0 [(8, 5), (0xA, 256), (0xC, 256), (0xE, 5), (0x10, 1), (0x11, 2)] 0x840010000 0x840020000
    let s := { up with cqe.queues := [queueOf 0 0x10000 0x20000 true] }
    ((after (exec (.queueCreate (.queue 0) e) s)).queue 5).map (fun x => (x.sqBase, x.sqEntries, x.cqBase, x.cqEntries)) =
      some (0x840010000, 256, 0x840020000, 256) := by decide +kernel
/-- The check values of the two CRCs over the digits 1 to 9. PRESUMED: the common check values of CRC-32C and CRC-16/CCITT, from outside the spec. -/
theorem test_crcs :
    let d : List Byte := [0x31, 0x32, 0x33, 0x34, 0x35, 0x36, 0x37, 0x38, 0x39]
    crc32c d = 0xE3069283 ∧ crc16 d = 0x29B1 := by decide +kernel
/-- R172: BCR, DCR and the IBI after reset of the management port. -/
theorem test_getbcr : (after (exec .getbcr up)).mgmtp.readBytes = [0x06] := by decide +kernel
/-- An idle step changes nothing (log 3); a waiting command is run on the rest of the queue. -/
theorem test_step : step State.reset = .next State.reset ∧
    (match step { up with pending := [.getdcr, .getbcr] } with | .next t => t.pending.length | _ => 9) = 1 := by
  exact ⟨rfl, by decide +kernel⟩

/-! ### Witnesses of the statements' hypotheses

Each theorem is a list of claims that there are states and operands which meet the hypotheses of one clause of the statement it is named after. A claim of the form
`fact → ∃ …` takes a fact about an opaque constant of `Config` as its premise: no value of it can be computed, and the clause is about the runs in which it has that value. -/
theorem witness_LaneUnits_1 :
    (∃ (n : Fin 4) (s : Machine.State), (s.lane ↑n).mbRun = true) ∧
    (∃ (n : Nat), 4 ≤ n) ∧
    (∃ (n : Nat) (kh : Word) (s : Machine.State) (e : CacheEntry), n < 4 ∧ s.lanes.lanes.length = 4 ∧ e ∈ (mbLoad n kh s).ktab.cache ∧ e.index = khIndex kh) ∧
    (∃ (n : Nat) (slot : Nat) (s : Machine.State) (m : Nat), n < 4 ∧ s.lanes.lanes.length = 4 ∧ slot < 2 ∧ m ≠ n) ∧
    (∃ (n : Nat) (slot : Nat) (entry : Nat) (kh : Word) (s : Machine.State), n < 4 ∧ slot < 2 ∧ entry < 64 ∧ wrongGeneration s kh = false) ∧
    (∃ (n : Nat) (slot : Nat) (entry : Nat) (kh : Word) (s : Machine.State), n < 4 ∧ slot < 2 ∧ entry < 64 ∧ ¬(entry = 63 ∧ kh = 0) ∧ List.find? (fun e => e.index == khIndex kh) s.ktab.cache = none) :=
  ⟨⟨0, { up with lanes.lanes := List.replicate 4 { Lane.reset with mbRun := true } }, by decide +kernel⟩,
   ⟨4, by decide +kernel⟩,
   ⟨0, keyH, up, ⟨7, 1, 1, false, 1, true⟩, by decide +kernel⟩,
   ⟨0, 0, up, 1, by decide +kernel⟩,
   ⟨0, 0, 0, 0, up, by decide +kernel⟩,
   ⟨0, 0, 0, 0, up, by decide +kernel⟩⟩
theorem witness_LaneUnits_2 :
    (∃ (n : Nat) (slot : Nat) (entry : Nat) (kh : Word) (e : CacheEntry) (s : Machine.State), n < 4 ∧ slot < 2 ∧ entry < 64 ∧ ¬(entry = 63 ∧ kh = 0) ∧ List.find? (fun e => e.index == khIndex kh) s.ktab.cache = some e ∧ e.gen = khGen kh ∧ slotIdle s n ((s.lane n).slot slot) = false) ∧
    (∃ (n : Nat) (slot : Nat) (entry : Nat) (kh : Word) (e : CacheEntry) (s : Machine.State), n < 4 ∧ slot < 2 ∧ entry < 64 ∧ ¬(entry = 63 ∧ kh = 0) ∧ List.find? (fun e => e.index == khIndex kh) s.ktab.cache = some e ∧ e.gen = khGen kh ∧ slotIdle s n ((s.lane n).slot slot) = true ∧ contextAt s n entry = none ∧ 2 ^ 48 - 1 ≤ BitVec.toNat ((s.setReg (laneBase n + 20) kh).reg (laneBase n + 24) 0) + BitVec.toNat ((s.setReg (laneBase n + 20) kh).reg (laneBase n + 28) 0) * 2 ^ 32) ∧
    (∃ (n : Nat) (slot : Nat) (entry : Nat) (kh : Word) (e : CacheEntry) (s : Machine.State), n < 4 ∧ slot < 2 ∧ entry < 64 ∧ ¬(entry = 63 ∧ kh = 0) ∧ List.find? (fun e => e.index == khIndex kh) s.ktab.cache = some e ∧ e.gen = khGen kh ∧ slotIdle s n ((s.lane n).slot slot) = true ∧ contextAt s n entry = none ∧ BitVec.toNat ((s.setReg (laneBase n + 20) kh).reg (laneBase n + 24) 0) + BitVec.toNat ((s.setReg (laneBase n + 20) kh).reg (laneBase n + 28) 0) * 2 ^ 32 < 2 ^ 48 - 1) ∧
    (∃ (n : Nat) (slot : Nat) (entry : Nat) (kh : Word) (e : CacheEntry) (s : Machine.State), n < 4 ∧ slot < 2 ∧ entry < 64 ∧ ¬(entry = 63 ∧ kh = 0) ∧ List.find? (fun e => e.index == khIndex kh) s.ktab.cache = some e ∧ e.gen = khGen kh ∧ slotIdle s n ((s.lane n).slot slot) = true ∧ contextAt s n entry = none ∧ takeUnbound kh (s.setReg (laneBase n + 20) kh) = (none, s.setReg (laneBase n + 20) kh)) ∧
    (∃ (n : Nat) (slot : Nat) (entry : Nat) (kh : Word) (e : CacheEntry) (s : Machine.State) (v : Nat) (t : Machine.State), n < 4 ∧ slot < 2 ∧ entry < 64 ∧ ¬(entry = 63 ∧ kh = 0) ∧ List.find? (fun e => e.index == khIndex kh) s.ktab.cache = some e ∧ e.gen = khGen kh ∧ slotIdle s n ((s.lane n).slot slot) = true ∧ contextAt s n entry = none ∧ takeUnbound kh (s.setReg (laneBase n + 20) kh) = (some v, t) ∧ v < 2 ^ 48 - 1) ∧
    (∃ (n : Nat) (slot : Nat) (entry : Nat) (kh : Word) (e : CacheEntry) (s : Machine.State) (x : Machine.Stream), n < 4 ∧ slot < 2 ∧ entry < 64 ∧ ¬(entry = 63 ∧ kh = 0) ∧ List.find? (fun e => e.index == khIndex kh) s.ktab.cache = some e ∧ e.gen = khGen kh ∧ slotIdle s n ((s.lane n).slot slot) = true ∧ contextAt s n entry = some x ∧ x.kh = kh) :=
  ⟨⟨0, 0, 0, keyH, ⟨7, 1, 1, false, 1, false⟩, { up with lanes.lanes := List.replicate 4 { Lane.reset with slot0 := some ⟨keyH, 0, 0⟩, queue := [1] }, cqe.inflight := [waiting] }, by decide +kernel⟩,
   ⟨0, 0, 0, keyH, ⟨7, 1, 1, false, 1, false⟩, { up with regs := [(laneBase 0 + 24, 0xFFFFFFFF), (laneBase 0 + 28, 0xFFFF)] }, by decide +kernel⟩,
   ⟨0, 0, 0, keyH, ⟨7, 1, 1, false, 1, false⟩, up, by decide +kernel⟩,
   (by refine ⟨0, 0, 0, keyH, ⟨7, 1, 1, false, 1, false⟩, up, ?_, ?_, ?_, ?_, ?_, ?_, ?_, ?_, by rfl⟩ <;> decide +kernel),
   ⟨0, 0, 0, keyH, ⟨7, 1, 1, false, 1, false⟩, { up with ktab.unbound := [(keyH, 5)] }, 5, (takeUnbound keyH (State.setReg { up with ktab.unbound := [(keyH, 5)] } (laneBase 0 + 20) keyH)).2, by decide +kernel⟩,
   ⟨0, 0, 0, keyH, ⟨7, 1, 1, false, 1, false⟩, { up with lanes.streams := [streamOf true] }, streamOf true, by decide +kernel⟩⟩
theorem witness_LaneUnits_3 :
    (∃ (n : Nat) (slot : Nat) (entry : Nat) (kh : Word) (e : CacheEntry) (s : Machine.State), n < 4 ∧ slot < 2 ∧ entry < 64 ∧ ¬(entry = 63 ∧ kh = 0) ∧ List.find? (fun e => e.index == khIndex kh) s.ktab.cache = some e ∧ e.gen ≠ khGen kh) ∧
    (∃ (n : Nat) (slot : Nat) (kh : Word) (s : Machine.State), n < 4 ∧ slot < 2 ∧ wrongGeneration s kh = true) ∧
    (∃ (h : BitVec 16) (x : Machine.Stream) (s : Machine.State), s.stream h.toNat = some x ∧ awake s = true ∧ x.state ≠ StreamState.run ∧ h ≠ 0 ∧ 32768 * x.lifetime < idleTime s x ∧ parkedCount s < 4096) ∧
    (∃ (n : Fin 4) (h : BitVec 16) (x : Machine.Stream) (s : Machine.State), s.stream h.toNat = some x ∧ lanesRun s = true ∧ (s.lane ↑n).queue ≠ []) ∧
    (∃ (h : BitVec 16) (x : Machine.Stream) (s : Machine.State), s.stream h.toNat = some x ∧ lanesRun s = true ∧ x.state = StreamState.idle) ∧
    (∃ (h : BitVec 16) (x : Machine.Stream) (s : Machine.State), s.stream h.toNat = some x ∧ lanesRun s = true ∧ x.state = StreamState.park1 ∧ parkedCount s < 4096) :=
  ⟨⟨0, 0, 0, khOf 7 2, ⟨7, 1, 1, false, 1, false⟩, up, by decide +kernel⟩,
   ⟨0, 0, khOf 7 2, up, by decide +kernel⟩,
   ⟨1, { streamOf true with state := .idle, lifetime := 0, idleFrom := 0 }, { up with lanes.streams := [{ streamOf true with state := .idle, lifetime := 0, idleFrom := 0 }], clock.time := 40000 }, by decide +kernel⟩,
   ⟨0, 1, streamOf true, { up with lanes.streams := [streamOf true], lanes.lanes := List.replicate 4 { Lane.reset with queue := [1] } }, by decide +kernel⟩,
   ⟨1, { streamOf true with state := .idle }, { up with lanes.streams := [{ streamOf true with state := .idle }] }, by decide +kernel⟩,
   ⟨1, { streamOf true with state := .park1 }, { up with lanes.streams := [{ streamOf true with state := .park1 }] }, by decide +kernel⟩⟩
theorem witness_FlashOutcomes_1 :
    (∃ (b : Fin 4) (s : Machine.State) (sec : Nat), (∀ (c : Inflight), c ∈ s.cqe.inflight → c.wait ≠ Wait.flash) ∧ s.flash.banks.length = 4 ∧ (s.bank ↑b).run = some (FlashRun.erase sec)) ∧
    (∃ (b : Fin 4) (s : Machine.State) (w : Nat) (d : DWord), (∀ (c : Inflight), c ∈ s.cqe.inflight → c.wait ≠ Wait.flash) ∧ s.flash.banks.length = 4 ∧ (s.bank ↑b).run = some (FlashRun.program w d)) ∧
    (∃ (s : Machine.State) (k : FlashBank), k ∈ s.flash.banks ∧ k.started ≠ []) ∧
    (∃ (pw : QWord) (s : Machine.State), s.flash.pwRun = none ∧ s.flash.lockout = false ∧ pw = s.flash.password) ∧
    (∃ (pw : QWord) (s : Machine.State), s.flash.pwRun = none ∧ s.flash.lockout = false ∧ pw ≠ s.flash.password ∧ s.flash.tries = 7) ∧
    (∃ (pw : QWord) (s : Machine.State), s.flash.pwRun = none ∧ s.flash.lockout = false ∧ pw ≠ s.flash.password ∧ s.flash.tries ≠ 7) :=
  ⟨⟨0, { up with flash.banks := List.replicate 4 { FlashBank.reset 0 with run := some (FlashRun.erase (0)) } }, 0, by decide +kernel⟩,
   ⟨0, { up with flash.banks := List.replicate 4 { FlashBank.reset 0 with run := some (FlashRun.program (0) (0)) } }, 0, 0, by decide +kernel⟩,
   ⟨{ up with flash.banks := [{ FlashBank.reset 0 with started := [1] }] }, { FlashBank.reset 0 with started := [1] }, by decide +kernel⟩,
   ⟨({ up with flash.pwRun := none, flash.lockout := false }).flash.password, { up with flash.pwRun := none, flash.lockout := false }, by decide +kernel⟩,
   ⟨1, { up with flash.pwRun := none, flash.lockout := false, flash.tries := 7 }, by decide +kernel⟩,
   ⟨1, { up with flash.pwRun := none, flash.lockout := false }, by decide +kernel⟩⟩
theorem witness_FlashOutcomes_2 :
    (∃ (s : Machine.State), s.flash.pwRun = none ∧ s.flash.lockout = true) ∧
    (∃ (s : Machine.State), s.flash.pwRun = none ∧ s.flash.unlocked = false) ∧
    (∃ (s : Machine.State), s.flash.pwRun = none ∧ s.flash.unlocked = true) ∧
    (∃ (s : Machine.State) (new : QWord), s.flash.pwRun = some new) ∧
    (∃ (s : Machine.State), ∀ (k : FlashBank), k ∈ s.flash.banks → k.started = []) :=
  ⟨⟨{ up with flash.pwRun := none, flash.lockout := true }, by decide +kernel⟩,
   ⟨{ up with flash.pwRun := none, flash.unlocked := false }, by decide +kernel⟩,
   ⟨{ up with flash.pwRun := none, flash.unlocked := true }, by decide +kernel⟩,
   ⟨{ up with flash.pwRun := some (0) }, 0, by decide +kernel⟩,
   ⟨up, by decide +kernel⟩⟩
theorem witness_SupplyChanges_1 :
    (∃ (mv : Nat) (s : Machine.State), (s.power.supply = Supply.starting ∨ s.power.supply = Supply.failHold) ∧ 2700 ≤ mv) ∧
    (∃ (mv : Nat) (s : Machine.State), (s.power.supply = Supply.starting ∨ s.power.supply = Supply.failHold) ∧ mv < 2700) ∧
    (∃ (mv : Nat) (s : Machine.State), (s.power.supply = Supply.starting ∨ s.power.supply = Supply.running) ∧ mv < 7800) ∧
    (∃ (mv : Nat) (s : Machine.State), s.power.supply = Supply.dark ∧ 8600 ≤ mv) ∧
    (∃ (mv : Nat) (s : Machine.State), s.power.supply = Supply.dark ∧ mv < 8600) ∧
    (∃ (mv : Nat) (s : Machine.State), s.power.supply = Supply.dark ∧ mv ≠ 0) :=
  ⟨⟨2700, { up with power.supply := .starting }, by decide +kernel⟩,
   ⟨2600, { up with power.supply := .starting }, by decide +kernel⟩,
   ⟨0, up, by decide +kernel⟩,
   ⟨8600, { up with power.supply := Supply.dark }, by decide +kernel⟩,
   ⟨0, { up with power.supply := Supply.dark }, by decide +kernel⟩,
   ⟨1, { up with power.supply := Supply.dark }, by decide +kernel⟩⟩
theorem witness_SupplyChanges_2 :
    (∃ (mv : Nat) (s : Machine.State), s.power.supply = Supply.dark ∨ 7800 ≤ mv) ∧
    (∃ (s : Machine.State), s.power.supply = Supply.dark ∨ s.power.supply = Supply.failHold) ∧
    (∃ (mv : Nat) (s : Machine.State), s.power.supply = Supply.failHold ∧ (if s.power.classHigh = true then 36000 else 8600) < mv) ∧
    (∃ (mv : Nat) (s : Machine.State), s.power.supply = Supply.failHold ∧ mv < 7800 ∧ s.power.vcell ≠ 0) ∧
    (∃ (mv : Nat) (s : Machine.State), s.power.supply = Supply.failHold ∧ mv ≤ if s.power.classHigh = true then 36000 else 8600) ∧
    (∃ (mv : Nat) (s : Machine.State), s.power.supply = Supply.running ∧ 2700 ≤ mv) :=
  ⟨⟨7800, up, by decide +kernel⟩,
   ⟨{ up with power.supply := .dark }, by decide +kernel⟩,
   ⟨8601, { up with power.supply := Supply.failHold }, by decide +kernel⟩,
   ⟨0, { up with power.supply := Supply.failHold }, by decide +kernel⟩,
   ⟨8600, { up with power.supply := .failHold }, by decide +kernel⟩,
   ⟨2700, up, by decide +kernel⟩⟩
theorem witness_SupplyChanges_3 :
    (∃ (mv : Nat) (s : Machine.State), s.power.supply = Supply.running ∧ mv < 2700) ∧
    (∃ (s : Machine.State), s.power.supply = Supply.starting ∧ s.power.classFixed = false) ∧
    (∃ (s : Machine.State), s.power.supply = Supply.starting ∨ s.power.supply = Supply.running) ∧
    (∃ (s : Machine.State), s.power.supply ≠ Supply.failHold) ∧
    (∃ (s : Machine.State), s.power.supply ≠ Supply.starting ∨ s.power.classFixed = true) :=
  ⟨⟨0, { up with power.supply := Supply.running }, by decide +kernel⟩,
   ⟨{ up with power.supply := Supply.starting, power.classFixed := false }, by decide +kernel⟩,
   ⟨up, by decide +kernel⟩,
   ⟨up, by decide +kernel⟩,
   ⟨up, by decide +kernel⟩⟩
theorem witness_CoreStoresComplete_1 :
    (∃ (c : CoreId) (rs : RegF) (s : Machine.State) (sp : Nat), Issues c s ∧ BitVec.toNat (s.rd c rs) % 4 = 0 ∧ (s.core c).resv = some (granuleOf c (BitVec.toNat (s.rd c rs)) s) ∧ regionOf c (BitVec.toNat (s.rd c rs)) = Region.sram sp ∧ (sp = 0 → sramBad s (BitVec.toNat (s.rd c rs)) = false) ∧ mpuCheck s c (s.core c).ring 1 (BitVec.toNat (s.rd c rs)) = none) ∧
    (∃ (c : CoreId) (rs : RegF) (s : Machine.State), Issues c s ∧ BitVec.toNat (s.rd c rs) % 4 = 0 ∧ (s.core c).resv ≠ some (granuleOf c (BitVec.toNat (s.rd c rs)) s)) ∧
    (∃ (c : CoreId) (rd : RegF) (rs : RegF) (imm : BitVec 16) (s : Machine.State) (u : Nat) (t : Machine.State), Issues c s ∧ mpuCheck s c (s.core c).ring 1 (BitVec.toNat (s.rd c rs + BitVec.signExtend 32 imm)) = none ∧ ((s.core c).ring = 0 ∨ ringZeroOnly c (BitVec.toNat (s.rd c rs + BitVec.signExtend 32 imm)) = false) ∧ BitVec.toNat (s.rd c rs + BitVec.signExtend 32 imm) % 2 = 0 ∧ busStore c (BitVec.toNat (s.rd c rs + BitVec.signExtend 32 imm)) 2 (BitVec.toNat (s.rd c rd) % 2 ^ 16) s = BusRes.ok u t) ∧
    (∃ (c : CoreId) (rd : RegF) (rs : RegF) (imm : BitVec 16) (s : Machine.State) (u : Nat) (t : Machine.State), Issues c s ∧ mpuCheck s c (s.core c).ring 1 (BitVec.toNat (s.rd c rs + BitVec.signExtend 32 imm)) = none ∧ ((s.core c).ring = 0 ∨ ringZeroOnly c (BitVec.toNat (s.rd c rs + BitVec.signExtend 32 imm)) = false) ∧ BitVec.toNat (s.rd c rs + BitVec.signExtend 32 imm) % 4 = 0 ∧ busStore c (BitVec.toNat (s.rd c rs + BitVec.signExtend 32 imm)) 4 (BitVec.toNat (s.rd c rd)) s = BusRes.ok u t) ∧
    (∃ (c : CoreId) (rd : RegF) (rs : RegF) (imm : BitVec 16) (s : Machine.State) (u : Nat) (t : Machine.State), Issues c s ∧ mpuCheck s c (s.core c).ring 1 (BitVec.toNat (s.rd c rs + BitVec.signExtend 32 imm)) = none ∧ ((s.core c).ring = 0 ∨ ringZeroOnly c (BitVec.toNat (s.rd c rs + BitVec.signExtend 32 imm)) = false) ∧ busStore c (BitVec.toNat (s.rd c rs + BitVec.signExtend 32 imm)) 1 (BitVec.toNat (s.rd c rd) % 2 ^ 8) s = BusRes.ok u t) ∧
    (∃ (c : CoreId) (rs : RegF) (imm : BitVec 16) (s : Machine.State) (sp : Nat), Issues c s ∧ regionOf c (BitVec.toNat (s.rd c rs + BitVec.signExtend 32 imm)) = Region.sram sp ∧ (sp = 0 → sramBad s (BitVec.toNat (s.rd c rs + BitVec.signExtend 32 imm)) = false) ∧ mpuCheck s c (s.core c).ring 1 (BitVec.toNat (s.rd c rs + BitVec.signExtend 32 imm)) = none ∧ BitVec.toNat (s.rd c rs + BitVec.signExtend 32 imm) % 2 = 0) :=
  ⟨⟨.ccA, 8, ((up).wr .ccA 8 0x10000000).setCore .ccA { ((up).wr .ccA 8 0x10000000).core .ccA with resv := some 0x400000 }, 0, by unfold Issues; decide +kernel⟩,
   ⟨.ccA, 0, up, by unfold Issues; decide +kernel⟩,
   ⟨.ccA, 0, 8, 0, (up).wr .ccA 8 0x10000000, 0, (match busStore .ccA 0x10000000 2 0 ((up).wr .ccA 8 0x10000000) with | .ok _ t => t | _ => up), ⟨by decide +kernel, by decide +kernel, by decide +kernel, by decide +kernel, by decide +kernel⟩, by decide +kernel, .inl (by decide +kernel), by decide +kernel, rfl⟩,
   ⟨.ccA, 0, 8, 0, (up).wr .ccA 8 0x10000000, 0, (match busStore .ccA 0x10000000 4 0 ((up).wr .ccA 8 0x10000000) with | .ok _ t => t | _ => up), ⟨by decide +kernel, by decide +kernel, by decide +kernel, by decide +kernel, by decide +kernel⟩, by decide +kernel, .inl (by decide +kernel), by decide +kernel, rfl⟩,
   ⟨.ccA, 0, 8, 0, (up).wr .ccA 8 0x10000000, 0, (match busStore .ccA 0x10000000 1 0 ((up).wr .ccA 8 0x10000000) with | .ok _ t => t | _ => up), ⟨by decide +kernel, by decide +kernel, by decide +kernel, by decide +kernel, by decide +kernel⟩, by decide +kernel, .inl (by decide +kernel), rfl⟩,
   ⟨.ccA, 8, 0, (up).wr .ccA 8 0x10000000, 0, by unfold Issues; decide +kernel⟩⟩
theorem witness_CoreStoresComplete_2 : ∃ (c : CoreId) (rs : RegF) (imm : BitVec 16) (s : Machine.State) (sp : Nat), Issues c s ∧ regionOf c (BitVec.toNat (s.rd c rs + BitVec.signExtend 32 imm)) = Region.sram sp ∧ (sp = 0 → sramBad s (BitVec.toNat (s.rd c rs + BitVec.signExtend 32 imm)) = false) ∧ mpuCheck s c (s.core c).ring 1 (BitVec.toNat (s.rd c rs + BitVec.signExtend 32 imm)) = none ∧ BitVec.toNat (s.rd c rs + BitVec.signExtend 32 imm) % 4 = 0 :=
  ⟨.ccA, 8, 0, (up).wr .ccA 8 0x10000000, 0, by unfold Issues; decide +kernel⟩
theorem witness_YomirStreams_1 :
    (∃ (turn : LaneTurn) (key : Nat) (h : Nat) (s : Machine.State) (d : Inflight) (x : Machine.Stream), lanesRun s = true ∧ laneEnabled s ↑turn.lane = true ∧ (s.lane ↑turn.lane).queue.head? = some key ∧ s.command key = some d ∧ d.entry.handle.toNat = h ∧ s.stream h = some x ∧ x.lane = ↑turn.lane ∧ d.op = 519) ∧
    (∃ (turn : LaneTurn) (key : Nat) (h : Nat) (s : Machine.State) (d : Inflight) (x : Machine.Stream), lanesRun s = true ∧ laneEnabled s ↑turn.lane = true ∧ (s.lane ↑turn.lane).queue.head? = some key ∧ s.command key = some d ∧ d.entry.handle.toNat = h ∧ s.stream h = some x ∧ x.lane = ↑turn.lane ∧ d.op ≠ 519 ∧ x.restoring = true ∧ turn.context = false) ∧
    (∃ (turn : LaneTurn) (key : Nat) (h : Nat) (s : Machine.State) (d : Inflight) (x : Machine.Stream) (i : Nat) (s1 : Machine.State) (ins : List (Nat × Nat)) (outs : List (Nat × Nat)), lanesRun s = true ∧ laneEnabled s ↑turn.lane = true ∧ (s.lane ↑turn.lane).queue.head? = some key ∧ s.command key = some d ∧ d.entry.handle.toNat = h ∧ s.stream h = some x ∧ x.lane = ↑turn.lane ∧ d.op ≠ 519 ∧ ¬(x.restoring = true ∧ turn.context = false) ∧ cacheFill x.kh turn.fill s = (0, s1) ∧ slotFor s1 (↑turn.lane) h = some i ∧ (d.op = if x.isSeal = true then 514 else 517) ∧ 0 < d.entry.param 8 4 ∧ d.entry.param 8 4 ≤ 16777216 ∧ d.entry.param 8 4 ≤ x.segLen - x.done ∧ scatterList (loadSlot (↑turn.lane) i h x.kh s1) (4 + x.queue / 64) (d.entry.param 8 4) d.entry.addr0 = Except.ok ins ∧ scatterList (loadSlot (↑turn.lane) i h x.kh s1) (4 + x.queue / 64) (d.entry.param 8 4) d.entry.addr1 = Except.ok outs) ∧
    (∃ (turn : LaneTurn) (key : Nat) (h : Nat) (s : Machine.State) (d : Inflight) (x : Machine.Stream) (i : Nat) (s1 : Machine.State) (g : Segment), lanesRun s = true ∧ laneEnabled s ↑turn.lane = true ∧ (s.lane ↑turn.lane).queue.head? = some key ∧ s.command key = some d ∧ d.entry.handle.toNat = h ∧ s.stream h = some x ∧ x.lane = ↑turn.lane ∧ d.op ≠ 519 ∧ ¬(x.restoring = true ∧ turn.context = false) ∧ cacheFill x.kh turn.fill s = (0, s1) ∧ slotFor s1 (↑turn.lane) h = some i ∧ d.op = 515 ∧ x.isSeal = true ∧ x.done = x.segLen ∧ d.entry.addr1 = 0 ∧ g = { x with index := x.segIdx, length := BitVec.ofNat 64 x.segLen, tag := gcmTagOf ((loadSlot (↑turn.lane) i h x.kh s1).ktab.record (khIndex x.kh)).dek x, time := s.clock.time, chunks := if x.tail.isEmpty = true then x.chunks else x.chunks ++ [Config.sha3 x.tail] }) ∧
    ((BitVec.toNat (gcmTagOf ((loadSlot 0 0 1 keyH (cacheFill keyH .ok (laneS ({ streamOf false with done := 4096 }) 518 (entryFor 518 3 1 [] 0 0))).2).ktab.record (khIndex keyH)).dek ({ streamOf false with done := 4096 })) = (entryFor 518 3 1 [] 0 0).param 8 16) → ∃ (turn : LaneTurn) (key : Nat) (h : Nat) (s : Machine.State) (d : Inflight) (x : Machine.Stream) (i : Nat) (s1 : Machine.State), lanesRun s = true ∧ laneEnabled s ↑turn.lane = true ∧ (s.lane ↑turn.lane).queue.head? = some key ∧ s.command key = some d ∧ d.entry.handle.toNat = h ∧ s.stream h = some x ∧ x.lane = ↑turn.lane ∧ d.op ≠ 519 ∧ ¬(x.restoring = true ∧ turn.context = false) ∧ cacheFill x.kh turn.fill s = (0, s1) ∧ slotFor s1 (↑turn.lane) h = some i ∧ d.op = 518 ∧ x.isSeal = false ∧ x.done = x.segLen ∧ d.entry.addr1 = 0 ∧ BitVec.toNat (gcmTagOf ((loadSlot (↑turn.lane) i h x.kh s1).ktab.record (khIndex x.kh)).dek x) = d.entry.param 8 16) ∧
    ((BitVec.toNat (gcmTagOf ((loadSlot 0 0 1 keyH (cacheFill keyH .ok (laneS ({ streamOf false with done := 4096 }) 518 (entryFor 518 3 1 [] 0 0))).2).ktab.record (khIndex keyH)).dek ({ streamOf false with done := 4096 })) ≠ (entryFor 518 3 1 [] 0 0).param 8 16) → ∃ (turn : LaneTurn) (key : Nat) (h : Nat) (s : Machine.State) (d : Inflight) (x : Machine.Stream) (i : Nat) (s1 : Machine.State), lanesRun s = true ∧ laneEnabled s ↑turn.lane = true ∧ (s.lane ↑turn.lane).queue.head? = some key ∧ s.command key = some d ∧ d.entry.handle.toNat = h ∧ s.stream h = some x ∧ x.lane = ↑turn.lane ∧ d.op ≠ 519 ∧ ¬(x.restoring = true ∧ turn.context = false) ∧ cacheFill x.kh turn.fill s = (0, s1) ∧ slotFor s1 (↑turn.lane) h = some i ∧ d.op = 518 ∧ x.isSeal = false ∧ x.done = x.segLen ∧ d.entry.addr1 = 0 ∧ BitVec.toNat (gcmTagOf ((loadSlot (↑turn.lane) i h x.kh s1).ktab.record (khIndex x.kh)).dek x) ≠ d.entry.param 8 16) :=
  ⟨(by refine ⟨⟨0, .ok, true⟩, 1, 1, laneS (streamOf true) 519 (entryFor 519 3 1 [] 0 0), laneCmd 519 (entryFor 519 3 1 [] 0 0), streamOf true, ?_, ?_, ?_, ?_, ?_, ?_, ?_, ?_⟩ <;> decide +kernel),
   (by refine ⟨⟨0, .ok, false⟩, 1, 1, laneS ({ streamOf true with restoring := true }) 514 (entryFor 514 3 1 [(8, 16)] 0x30000 0x31000), laneCmd 514 (entryFor 514 3 1 [(8, 16)] 0x30000 0x31000), { streamOf true with restoring := true }, ?_, ?_, ?_, ?_, ?_, ?_, ?_, ?_, ?_, ?_⟩ <;> decide +kernel),
   (by refine ⟨⟨0, .ok, true⟩, 1, 1, twoLists (laneS (streamOf true) 514 (entryFor 514 3 1 [(8, 16)] 0x30000 0x31000)), laneCmd 514 (entryFor 514 3 1 [(8, 16)] 0x30000 0x31000), streamOf true, 0, (cacheFill keyH .ok (twoLists (laneS (streamOf true) 514 (entryFor 514 3 1 [(8, 16)] 0x30000 0x31000)))).2, okOf (scatterList (loadSlot 0 0 1 keyH (cacheFill keyH .ok (twoLists (laneS (streamOf true) 514 (entryFor 514 3 1 [(8, 16)] 0x30000 0x31000)))).2) 4 16 0x30000) [], okOf (scatterList (loadSlot 0 0 1 keyH (cacheFill keyH .ok (twoLists (laneS (streamOf true) 514 (entryFor 514 3 1 [(8, 16)] 0x30000 0x31000)))).2) 4 16 0x31000) [], ?_, ?_, ?_, ?_, ?_, ?_, ?_, ?_, ?_, fst_of (by decide +kernel), ?_, ?_, ?_, ?_, ?_, ok_of (by decide +kernel), ok_of (by decide +kernel)⟩ <;> decide +kernel),
   (by refine ⟨⟨0, .ok, true⟩, 1, 1, laneS ({ streamOf true with done := 4096 }) 515 (entryFor 515 3 1 [] 0 0), laneCmd 515 (entryFor 515 3 1 [] 0 0), { streamOf true with done := 4096 }, 0, (cacheFill keyH .ok (laneS ({ streamOf true with done := 4096 }) 515 (entryFor 515 3 1 [] 0 0))).2, { ({ streamOf true with done := 4096 } : Stream) with index := 0, length := BitVec.ofNat 64 4096, tag := gcmTagOf ((loadSlot 0 0 1 keyH (cacheFill keyH .ok (laneS ({ streamOf true with done := 4096 }) 515 (entryFor 515 3 1 [] 0 0))).2).ktab.record (khIndex keyH)).dek ({ streamOf true with done := 4096 }), time := 100, chunks := [] }, ?_, ?_, ?_, ?_, ?_, ?_, ?_, ?_, ?_, fst_of (by decide +kernel), ?_, ?_, ?_, ?_, ?_, rfl⟩ <;> decide +kernel),
   (by intro h; refine ⟨⟨0, .ok, true⟩, 1, 1, laneS ({ streamOf false with done := 4096 }) 518 (entryFor 518 3 1 [] 0 0), laneCmd 518 (entryFor 518 3 1 [] 0 0), { streamOf false with done := 4096 }, 0, (cacheFill keyH .ok (laneS ({ streamOf false with done := 4096 }) 518 (entryFor 518 3 1 [] 0 0))).2, ?_, ?_, ?_, ?_, ?_, ?_, ?_, ?_, ?_, fst_of (by decide +kernel), ?_, ?_, ?_, ?_, ?_, h⟩ <;> decide +kernel),
   (by intro h; refine ⟨⟨0, .ok, true⟩, 1, 1, laneS ({ streamOf false with done := 4096 }) 518 (entryFor 518 3 1 [] 0 0), laneCmd 518 (entryFor 518 3 1 [] 0 0), { streamOf false with done := 4096 }, 0, (cacheFill keyH .ok (laneS ({ streamOf false with done := 4096 }) 518 (entryFor 518 3 1 [] 0 0))).2, ?_, ?_, ?_, ?_, ?_, ?_, ?_, ?_, ?_, fst_of (by decide +kernel), ?_, ?_, ?_, ?_, ?_, h⟩ <;> decide +kernel)⟩
theorem witness_YomirStreams_2 :
    (∃ (turn : LaneTurn) (key : Nat) (h : Nat) (s : Machine.State) (d : Inflight) (x : Machine.Stream) (r : Nat) (s1 : Machine.State), lanesRun s = true ∧ laneEnabled s ↑turn.lane = true ∧ (s.lane ↑turn.lane).queue.head? = some key ∧ s.command key = some d ∧ d.entry.handle.toNat = h ∧ s.stream h = some x ∧ x.lane = ↑turn.lane ∧ d.op ≠ 519 ∧ ¬(x.restoring = true ∧ turn.context = false) ∧ r ≠ 0 ∧ cacheFill x.kh turn.fill s = (r, s1)) ∧
    (∃ (src : Source) (e : Entry) (s : Machine.State) (t : Machine.State) (c : Inflight) (t' : Machine.State) (lane : Nat) (sb : Machine.State) (k : Ktab) (v : Nat) (u : Machine.State), Accepted 513 src e s c t ∧ cacheFill (BitVec.ofNat 32 (e.param 8 4)) Verify.ok t = (0, t') ∧ bindLane t' = some (lane, sb) ∧ t'.ktab.drawNext (drawEnabled t') t'.clock.time (BitVec.ofNat 32 (e.param 8 4)) = (0, k) ∧ takeUnbound (BitVec.ofNat 32 (e.param 8 4)) { sb with ktab := k } = (some v, u) ∧ openLanes t ≠ [] ∧ t.isFenced 5 0 = false ∧ e.param 16 8 ≤ 67108864 ∧ (e.param 24 4 ≤ 2592000 ∧ (t'.ktab.record (khIndex (BitVec.ofNat 32 (e.param 8 4)))).state = KeyState.active ∧ t'.ktab.held (t'.ktab.record (khIndex (BitVec.ofNat 32 (e.param 8 4)))) = false ∧ t'.journal.reserved + t'.journal.staged.length < 1048576) ∧ (slotFor sb lane 0).isSome = true ∧ reserveAhead { sb with ktab := k } ≤ (k.record (khIndex (BitVec.ofNat 32 (e.param 8 4)))).invHwm - (Option.map (fun x => x.next) (k.entry (khIndex (BitVec.ofNat 32 (e.param 8 4))))).getD 0) ∧
    (∃ (src : Source) (e : Entry) (s : Machine.State) (t : Machine.State) (c : Inflight) (t' : Machine.State) (lane : Nat) (sb : Machine.State), Accepted 513 src e s c t ∧ cacheFill (BitVec.ofNat 32 (e.param 8 4)) Verify.ok t = (0, t') ∧ bindLane t' = some (lane, sb) ∧ openLanes t ≠ [] ∧ t.isFenced 5 0 = false ∧ e.param 16 8 ≤ 67108864 ∧ (e.param 24 4 ≤ 2592000 ∧ (t'.ktab.record (khIndex (BitVec.ofNat 32 (e.param 8 4)))).state = KeyState.active ∧ t'.ktab.held (t'.ktab.record (khIndex (BitVec.ofNat 32 (e.param 8 4)))) = false ∧ t'.journal.reserved + t'.journal.staged.length < 1048576) ∧ slotFor sb lane 0 = none) ∧
    (∃ (src : Source) (e : Entry) (s : Machine.State) (t : Machine.State) (c : Inflight) (t' : Machine.State) (lane : Nat) (sb : Machine.State), Accepted 516 src e s c t ∧ cacheFill (BitVec.ofNat 32 (e.param 8 4)) Verify.ok t = (0, t') ∧ bindLane t' = some (lane, sb) ∧ openLanes t ≠ [] ∧ t.isFenced 5 0 = false ∧ e.param 16 8 ≤ 67108864 ∧ (e.param 36 4 ≤ 2592000 ∧ e.param 24 8 < 2 ^ 48 - 1 ∧ fieldAt (BitVec.ofNat 32 (e.param 32 4)) 10 0 = khGen (BitVec.ofNat 32 (e.param 8 4)) ∧ (t'.ktab.record (khIndex (BitVec.ofNat 32 (e.param 8 4)))).state ≠ KeyState.shredded) ∧ (slotFor sb lane 0).isSome = true) ∧
    (∃ (src : Source) (e : Entry) (s : Machine.State) (t : Machine.State) (c : Inflight) (t' : Machine.State) (lane : Nat) (sb : Machine.State), Accepted 516 src e s c t ∧ cacheFill (BitVec.ofNat 32 (e.param 8 4)) Verify.ok t = (0, t') ∧ bindLane t' = some (lane, sb) ∧ openLanes t ≠ [] ∧ t.isFenced 5 0 = false ∧ e.param 16 8 ≤ 67108864 ∧ (e.param 36 4 ≤ 2592000 ∧ e.param 24 8 < 2 ^ 48 - 1 ∧ fieldAt (BitVec.ofNat 32 (e.param 32 4)) 10 0 = khGen (BitVec.ofNat 32 (e.param 8 4)) ∧ (t'.ktab.record (khIndex (BitVec.ofNat 32 (e.param 8 4)))).state ≠ KeyState.shredded) ∧ slotFor sb lane 0 = none) ∧
    (∃ (src : Source) (e : Entry) (s : Machine.State) (t : Machine.State) (c : Inflight), Accepted 514 src e s c t ∧ t.stream e.handle.toNat = none) :=
  ⟨(by refine ⟨⟨0, .ok, true⟩, 1, 1, { laneS (streamOf true) 514 (entryFor 514 3 1 [(8, 16)] 0x30000 0x31000) with ktab.quarantine := [7] }, laneCmd 514 (entryFor 514 3 1 [(8, 16)] 0x30000 0x31000), streamOf true, 4, (cacheFill keyH .ok ({ laneS (streamOf true) 514 (entryFor 514 3 1 [(8, 16)] 0x30000 0x31000) with ktab.quarantine := [7] })).2, ?_, ?_, ?_, ?_, ?_, ?_, ?_, ?_, ?_, ?_, fst_of (by decide +kernel)⟩ <;> decide +kernel),
   ⟨Source.queue 0, entryFor 513 3 0 [(8, 2097159), (0x10, 4096), (0x18, 60)] 0 0, roomy, begins 513 0 (entryFor 513 3 0 [(8, 2097159), (0x10, 4096), (0x18, 60)] 0 0) (roomy), commandOf 513 0 (entryFor 513 3 0 [(8, 2097159), (0x10, 4096), (0x18, 60)] 0 0) (roomy), (cacheFill (BitVec.ofNat 32 ((entryFor 513 3 0 [(8, 2097159), (0x10, 4096), (0x18, 60)] 0 0).param 8 4)) Verify.ok (begins 513 0 (entryFor 513 3 0 [(8, 2097159), (0x10, 4096), (0x18, 60)] 0 0) (roomy))).2, ((bindLane ((cacheFill (BitVec.ofNat 32 ((entryFor 513 3 0 [(8, 2097159), (0x10, 4096), (0x18, 60)] 0 0).param 8 4)) Verify.ok (begins 513 0 (entryFor 513 3 0 [(8, 2097159), (0x10, 4096), (0x18, 60)] 0 0) (roomy))).2)).getD (0, up)).1, ((bindLane ((cacheFill (BitVec.ofNat 32 ((entryFor 513 3 0 [(8, 2097159), (0x10, 4096), (0x18, 60)] 0 0).param 8 4)) Verify.ok (begins 513 0 (entryFor 513 3 0 [(8, 2097159), (0x10, 4096), (0x18, 60)] 0 0) (roomy))).2)).getD (0, up)).2, (((cacheFill (BitVec.ofNat 32 ((entryFor 513 3 0 [(8, 2097159), (0x10, 4096), (0x18, 60)] 0 0).param 8 4)) Verify.ok (begins 513 0 (entryFor 513 3 0 [(8, 2097159), (0x10, 4096), (0x18, 60)] 0 0) (roomy))).2).ktab.drawNext (drawEnabled ((cacheFill (BitVec.ofNat 32 ((entryFor 513 3 0 [(8, 2097159), (0x10, 4096), (0x18, 60)] 0 0).param 8 4)) Verify.ok (begins 513 0 (entryFor 513 3 0 [(8, 2097159), (0x10, 4096), (0x18, 60)] 0 0) (roomy))).2)) ((cacheFill (BitVec.ofNat 32 ((entryFor 513 3 0 [(8, 2097159), (0x10, 4096), (0x18, 60)] 0 0).param 8 4)) Verify.ok (begins 513 0 (entryFor 513 3 0 [(8, 2097159), (0x10, 4096), (0x18, 60)] 0 0) (roomy))).2).clock.time (BitVec.ofNat 32 ((entryFor 513 3 0 [(8, 2097159), (0x10, 4096), (0x18, 60)] 0 0).param 8 4))).2, 1, (takeUnbound (BitVec.ofNat 32 ((entryFor 513 3 0 [(8, 2097159), (0x10, 4096), (0x18, 60)] 0 0).param 8 4)) { (((bindLane ((cacheFill (BitVec.ofNat 32 ((entryFor 513 3 0 [(8, 2097159), (0x10, 4096), (0x18, 60)] 0 0).param 8 4)) Verify.ok (begins 513 0 (entryFor 513 3 0 [(8, 2097159), (0x10, 4096), (0x18, 60)] 0 0) (roomy))).2)).getD (0, up)).2) with ktab := ((((cacheFill (BitVec.ofNat 32 ((entryFor 513 3 0 [(8, 2097159), (0x10, 4096), (0x18, 60)] 0 0).param 8 4)) Verify.ok (begins 513 0 (entryFor 513 3 0 [(8, 2097159), (0x10, 4096), (0x18, 60)] 0 0) (roomy))).2).ktab.drawNext (drawEnabled ((cacheFill (BitVec.ofNat 32 ((entryFor 513 3 0 [(8, 2097159), (0x10, 4096), (0x18, 60)] 0 0).param 8 4)) Verify.ok (begins 513 0 (entryFor 513 3 0 [(8, 2097159), (0x10, 4096), (0x18, 60)] 0 0) (roomy))).2)) ((cacheFill (BitVec.ofNat 32 ((entryFor 513 3 0 [(8, 2097159), (0x10, 4096), (0x18, 60)] 0 0).param 8 4)) Verify.ok (begins 513 0 (entryFor 513 3 0 [(8, 2097159), (0x10, 4096), (0x18, 60)] 0 0) (roomy))).2).clock.time (BitVec.ofNat 32 ((entryFor 513 3 0 [(8, 2097159), (0x10, 4096), (0x18, 60)] 0 0).param 8 4))).2) }).2, accepted_of _ _ _ _ (entryFor_crc ..) (by decide +kernel), fst_of (by decide +kernel), someP_of (by decide +kernel), fst_of (by decide +kernel), fst_of (by decide +kernel), by decide +kernel⟩,
   ⟨Source.queue 0, entryFor 513 3 0 [(8, 2097159), (0x10, 4096), (0x18, 60)] 0 0, slotsBusy roomy, begins 513 0 (entryFor 513 3 0 [(8, 2097159), (0x10, 4096), (0x18, 60)] 0 0) (slotsBusy roomy), commandOf 513 0 (entryFor 513 3 0 [(8, 2097159), (0x10, 4096), (0x18, 60)] 0 0) (slotsBusy roomy), (cacheFill (BitVec.ofNat 32 ((entryFor 513 3 0 [(8, 2097159), (0x10, 4096), (0x18, 60)] 0 0).param 8 4)) Verify.ok (begins 513 0 (entryFor 513 3 0 [(8, 2097159), (0x10, 4096), (0x18, 60)] 0 0) (slotsBusy roomy))).2, ((bindLane ((cacheFill (BitVec.ofNat 32 ((entryFor 513 3 0 [(8, 2097159), (0x10, 4096), (0x18, 60)] 0 0).param 8 4)) Verify.ok (begins 513 0 (entryFor 513 3 0 [(8, 2097159), (0x10, 4096), (0x18, 60)] 0 0) (slotsBusy roomy))).2)).getD (0, up)).1, ((bindLane ((cacheFill (BitVec.ofNat 32 ((entryFor 513 3 0 [(8, 2097159), (0x10, 4096), (0x18, 60)] 0 0).param 8 4)) Verify.ok (begins 513 0 (entryFor 513 3 0 [(8, 2097159), (0x10, 4096), (0x18, 60)] 0 0) (slotsBusy roomy))).2)).getD (0, up)).2, accepted_of _ _ _ _ (entryFor_crc ..) (by decide +kernel), fst_of (by decide +kernel), someP_of (by decide +kernel), by decide +kernel⟩,
   ⟨Source.queue 0, entryFor 516 3 0 [(8, 2097159), (0x10, 4096), (0x18, 5), (0x20, 1), (0x24, 60)] 0 0, up, begins 516 0 (entryFor 516 3 0 [(8, 2097159), (0x10, 4096), (0x18, 5), (0x20, 1), (0x24, 60)] 0 0) (up), commandOf 516 0 (entryFor 516 3 0 [(8, 2097159), (0x10, 4096), (0x18, 5), (0x20, 1), (0x24, 60)] 0 0) (up), (cacheFill (BitVec.ofNat 32 ((entryFor 516 3 0 [(8, 2097159), (0x10, 4096), (0x18, 5), (0x20, 1), (0x24, 60)] 0 0).param 8 4)) Verify.ok (begins 516 0 (entryFor 516 3 0 [(8, 2097159), (0x10, 4096), (0x18, 5), (0x20, 1), (0x24, 60)] 0 0) (up))).2, ((bindLane ((cacheFill (BitVec.ofNat 32 ((entryFor 516 3 0 [(8, 2097159), (0x10, 4096), (0x18, 5), (0x20, 1), (0x24, 60)] 0 0).param 8 4)) Verify.ok (begins 516 0 (entryFor 516 3 0 [(8, 2097159), (0x10, 4096), (0x18, 5), (0x20, 1), (0x24, 60)] 0 0) (up))).2)).getD (0, up)).1, ((bindLane ((cacheFill (BitVec.ofNat 32 ((entryFor 516 3 0 [(8, 2097159), (0x10, 4096), (0x18, 5), (0x20, 1), (0x24, 60)] 0 0).param 8 4)) Verify.ok (begins 516 0 (entryFor 516 3 0 [(8, 2097159), (0x10, 4096), (0x18, 5), (0x20, 1), (0x24, 60)] 0 0) (up))).2)).getD (0, up)).2, accepted_of _ _ _ _ (entryFor_crc ..) (by decide +kernel), fst_of (by decide +kernel), someP_of (by decide +kernel), by decide +kernel⟩,
   ⟨Source.queue 0, entryFor 516 3 0 [(8, 2097159), (0x10, 4096), (0x18, 5), (0x20, 1), (0x24, 60)] 0 0, slotsBusy up, begins 516 0 (entryFor 516 3 0 [(8, 2097159), (0x10, 4096), (0x18, 5), (0x20, 1), (0x24, 60)] 0 0) (slotsBusy up), commandOf 516 0 (entryFor 516 3 0 [(8, 2097159), (0x10, 4096), (0x18, 5), (0x20, 1), (0x24, 60)] 0 0) (slotsBusy up), (cacheFill (BitVec.ofNat 32 ((entryFor 516 3 0 [(8, 2097159), (0x10, 4096), (0x18, 5), (0x20, 1), (0x24, 60)] 0 0).param 8 4)) Verify.ok (begins 516 0 (entryFor 516 3 0 [(8, 2097159), (0x10, 4096), (0x18, 5), (0x20, 1), (0x24, 60)] 0 0) (slotsBusy up))).2, ((bindLane ((cacheFill (BitVec.ofNat 32 ((entryFor 516 3 0 [(8, 2097159), (0x10, 4096), (0x18, 5), (0x20, 1), (0x24, 60)] 0 0).param 8 4)) Verify.ok (begins 516 0 (entryFor 516 3 0 [(8, 2097159), (0x10, 4096), (0x18, 5), (0x20, 1), (0x24, 60)] 0 0) (slotsBusy up))).2)).getD (0, up)).1, ((bindLane ((cacheFill (BitVec.ofNat 32 ((entryFor 516 3 0 [(8, 2097159), (0x10, 4096), (0x18, 5), (0x20, 1), (0x24, 60)] 0 0).param 8 4)) Verify.ok (begins 516 0 (entryFor 516 3 0 [(8, 2097159), (0x10, 4096), (0x18, 5), (0x20, 1), (0x24, 60)] 0 0) (slotsBusy up))).2)).getD (0, up)).2, accepted_of _ _ _ _ (entryFor_crc ..) (by decide +kernel), fst_of (by decide +kernel), someP_of (by decide +kernel), by decide +kernel⟩,
   ⟨Source.queue 0, entryFor 514 3 7 [(8, 16)] 0x30000 0x31000, up, begins 514 0 (entryFor 514 3 7 [(8, 16)] 0x30000 0x31000) (up), commandOf 514 0 (entryFor 514 3 7 [(8, 16)] 0x30000 0x31000) (up), accepted_of _ _ _ _ (entryFor_crc ..) (by decide +kernel), by decide +kernel⟩⟩
theorem witness_YomirStreams_3 :
    (∃ (src : Source) (e : Entry) (s : Machine.State) (t : Machine.State) (c : Inflight), Accepted 518 src e s c t ∧ t.stream e.handle.toNat = none) ∧
    (∃ (src : Source) (e : Entry) (s : Machine.State) (t : Machine.State) (c : Inflight), Accepted 519 src e s c t ∧ t.stream e.handle.toNat = none) ∧
    (∃ (e : Entry) (t : Machine.State), t.stream e.handle.toNat = none ∧ List.find? (fun z => z.handle == e.handle.toNat) t.lanes.ended = none) ∧
    (∃ (src : Source) (e : Entry) (s : Machine.State) (t : Machine.State) (c : Inflight) (x : Machine.Stream), Accepted 519 src e s c t ∧ t.stream e.handle.toNat = some x ∧ (t.lane x.lane).queue = []) ∧
    (∃ (src : Source) (e : Entry) (s : Machine.State) (t : Machine.State) (c : Inflight) (x : Machine.Stream) (q : Nat), Accepted 520 src e s c t ∧ t.stream e.handle.toNat = some x ∧ src = Source.queue q) ∧
    (∃ (src : Source) (e : Entry) (s : Machine.State) (t : Machine.State) (c : Inflight) (x : Machine.Stream) (d : Inflight), Accepted 514 src e s c t ∧ t.stream e.handle.toNat = some x ∧ t.command c.key = some d ∧ d.op = c.op ∧ x.isSeal = false) :=
  ⟨⟨Source.queue 0, entryFor 518 3 7 [] 0 0, up, begins 518 0 (entryFor 518 3 7 [] 0 0) (up), commandOf 518 0 (entryFor 518 3 7 [] 0 0) (up), accepted_of _ _ _ _ (entryFor_crc ..) (by decide +kernel), by decide +kernel⟩,
   ⟨Source.queue 0, entryFor 519 3 7 [] 0 0, up, begins 519 0 (entryFor 519 3 7 [] 0 0) (up), commandOf 519 0 (entryFor 519 3 7 [] 0 0) (up), accepted_of _ _ _ _ (entryFor_crc ..) (by decide +kernel), by decide +kernel⟩,
   ⟨entryFor 1 3 0 [] 0 0, up, by decide +kernel⟩,
   ⟨Source.queue 0, entryFor 519 3 1 [] 0 0, openS { streamOf true with queue := 0 }, begins 519 0 (entryFor 519 3 1 [] 0 0) (openS { streamOf true with queue := 0 }), commandOf 519 0 (entryFor 519 3 1 [] 0 0) (openS { streamOf true with queue := 0 }), ((begins 519 0 (entryFor 519 3 1 [] 0 0) (openS { streamOf true with queue := 0 })).stream (entryFor 519 3 1 [] 0 0).handle.toNat).get (by decide +kernel), accepted_of _ _ _ _ (entryFor_crc ..) (by decide +kernel), some_of _, by decide +kernel⟩,
   ⟨Source.queue 0, entryFor 520 3 1 [] 0 0, openS { streamOf true with queue := 0 }, begins 520 0 (entryFor 520 3 1 [] 0 0) (openS { streamOf true with queue := 0 }), commandOf 520 0 (entryFor 520 3 1 [] 0 0) (openS { streamOf true with queue := 0 }), ((begins 520 0 (entryFor 520 3 1 [] 0 0) (openS { streamOf true with queue := 0 })).stream (entryFor 520 3 1 [] 0 0).handle.toNat).get (by decide +kernel), 0, accepted_of _ _ _ _ (entryFor_crc ..) (by decide +kernel), some_of _, by decide +kernel⟩,
   ⟨Source.queue 0, entryFor 514 3 1 [(8, 16)] 0x30000 0x31000, openS { streamOf false with queue := 0 }, begins 514 0 (entryFor 514 3 1 [(8, 16)] 0x30000 0x31000) (openS { streamOf false with queue := 0 }), commandOf 514 0 (entryFor 514 3 1 [(8, 16)] 0x30000 0x31000) (openS { streamOf false with queue := 0 }), ((begins 514 0 (entryFor 514 3 1 [(8, 16)] 0x30000 0x31000) (openS { streamOf false with queue := 0 })).stream (entryFor 514 3 1 [(8, 16)] 0x30000 0x31000).handle.toNat).get (by decide +kernel), ((begins 514 0 (entryFor 514 3 1 [(8, 16)] 0x30000 0x31000) (openS { streamOf false with queue := 0 })).command (commandOf 514 0 (entryFor 514 3 1 [(8, 16)] 0x30000 0x31000) (openS { streamOf false with queue := 0 })).key).get (by decide +kernel), accepted_of _ _ _ _ (entryFor_crc ..) (by decide +kernel), some_of _, some_of _, by decide +kernel⟩⟩
theorem witness_YomirStreams_4 :
    (∃ (src : Source) (e : Entry) (s : Machine.State) (t : Machine.State) (c : Inflight) (x : Machine.Stream) (d : Inflight), Accepted 514 src e s c t ∧ t.stream e.handle.toNat = some x ∧ t.command c.key = some d ∧ d.op = c.op ∧ x.isSeal = true) ∧
    (∃ (src : Source) (e : Entry) (s : Machine.State) (t : Machine.State) (c : Inflight) (x : Machine.Stream) (d : Inflight), Accepted 515 src e s c t ∧ t.stream e.handle.toNat = some x ∧ t.command c.key = some d ∧ d.op = c.op ∧ x.isSeal = true) ∧
    (∃ (src : Source) (e : Entry) (s : Machine.State) (t : Machine.State) (c : Inflight) (x : Machine.Stream) (d : Inflight), Accepted 517 src e s c t ∧ t.stream e.handle.toNat = some x ∧ t.command c.key = some d ∧ d.op = c.op ∧ x.isSeal = false) ∧
    (∃ (src : Source) (e : Entry) (s : Machine.State) (t : Machine.State) (c : Inflight) (x : Machine.Stream) (d : Inflight), Accepted 518 src e s c t ∧ t.stream e.handle.toNat = some x ∧ t.command c.key = some d ∧ d.op = c.op ∧ x.isSeal = false) ∧
    (∃ (key : Nat) (lane : Nat) (v : Nat) (u : Machine.State) (c : Inflight) (i : Nat), u.command key = some c ∧ freeEntry u lane = some i ∧ v ≠ 2 ^ 48 - 2) :=
  ⟨⟨Source.queue 0, entryFor 514 3 1 [(8, 16)] 0x30000 0x31000, openS { streamOf true with queue := 0 }, begins 514 0 (entryFor 514 3 1 [(8, 16)] 0x30000 0x31000) (openS { streamOf true with queue := 0 }), commandOf 514 0 (entryFor 514 3 1 [(8, 16)] 0x30000 0x31000) (openS { streamOf true with queue := 0 }), ((begins 514 0 (entryFor 514 3 1 [(8, 16)] 0x30000 0x31000) (openS { streamOf true with queue := 0 })).stream (entryFor 514 3 1 [(8, 16)] 0x30000 0x31000).handle.toNat).get (by decide +kernel), ((begins 514 0 (entryFor 514 3 1 [(8, 16)] 0x30000 0x31000) (openS { streamOf true with queue := 0 })).command (commandOf 514 0 (entryFor 514 3 1 [(8, 16)] 0x30000 0x31000) (openS { streamOf true with queue := 0 })).key).get (by decide +kernel), accepted_of _ _ _ _ (entryFor_crc ..) (by decide +kernel), some_of _, some_of _, by decide +kernel⟩,
   ⟨Source.queue 0, entryFor 515 3 1 [] 0 0, openS { streamOf true with queue := 0 }, begins 515 0 (entryFor 515 3 1 [] 0 0) (openS { streamOf true with queue := 0 }), commandOf 515 0 (entryFor 515 3 1 [] 0 0) (openS { streamOf true with queue := 0 }), ((begins 515 0 (entryFor 515 3 1 [] 0 0) (openS { streamOf true with queue := 0 })).stream (entryFor 515 3 1 [] 0 0).handle.toNat).get (by decide +kernel), ((begins 515 0 (entryFor 515 3 1 [] 0 0) (openS { streamOf true with queue := 0 })).command (commandOf 515 0 (entryFor 515 3 1 [] 0 0) (openS { streamOf true with queue := 0 })).key).get (by decide +kernel), accepted_of _ _ _ _ (entryFor_crc ..) (by decide +kernel), some_of _, some_of _, by decide +kernel⟩,
   ⟨Source.queue 0, entryFor 517 3 1 [(8, 16)] 0x30000 0x31000, openS { streamOf false with queue := 0 }, begins 517 0 (entryFor 517 3 1 [(8, 16)] 0x30000 0x31000) (openS { streamOf false with queue := 0 }), commandOf 517 0 (entryFor 517 3 1 [(8, 16)] 0x30000 0x31000) (openS { streamOf false with queue := 0 }), ((begins 517 0 (entryFor 517 3 1 [(8, 16)] 0x30000 0x31000) (openS { streamOf false with queue := 0 })).stream (entryFor 517 3 1 [(8, 16)] 0x30000 0x31000).handle.toNat).get (by decide +kernel), ((begins 517 0 (entryFor 517 3 1 [(8, 16)] 0x30000 0x31000) (openS { streamOf false with queue := 0 })).command (commandOf 517 0 (entryFor 517 3 1 [(8, 16)] 0x30000 0x31000) (openS { streamOf false with queue := 0 })).key).get (by decide +kernel), accepted_of _ _ _ _ (entryFor_crc ..) (by decide +kernel), some_of _, some_of _, by decide +kernel⟩,
   ⟨Source.queue 0, entryFor 518 3 1 [] 0 0, openS { streamOf false with queue := 0 }, begins 518 0 (entryFor 518 3 1 [] 0 0) (openS { streamOf false with queue := 0 }), commandOf 518 0 (entryFor 518 3 1 [] 0 0) (openS { streamOf false with queue := 0 }), ((begins 518 0 (entryFor 518 3 1 [] 0 0) (openS { streamOf false with queue := 0 })).stream (entryFor 518 3 1 [] 0 0).handle.toNat).get (by decide +kernel), ((begins 518 0 (entryFor 518 3 1 [] 0 0) (openS { streamOf false with queue := 0 })).command (commandOf 518 0 (entryFor 518 3 1 [] 0 0) (openS { streamOf false with queue := 0 })).key).get (by decide +kernel), accepted_of _ _ _ _ (entryFor_crc ..) (by decide +kernel), some_of _, some_of _, by decide +kernel⟩,
   ⟨1, 0, 5, { up with cqe.inflight := [waiting], cqe.nextKey := 2 }, waiting, 0, by decide +kernel⟩⟩
theorem witness_CoreSpecials :
    (∃ (c : CoreId) (sel : BitVec 12) (s : Machine.State), Issues c s ∧ (s.core c).ring = 0 ∧ 1 ≤ sel.toNat ∧ sel.toNat ≤ 15 ∧ sel.toNat ≠ 14) ∧
    (∃ (c : CoreId) (sel : BitVec 12) (s : Machine.State), Issues c s ∧ (s.core c).ring = 0 ∧ sel.toNat = 14) ∧
    (∃ (c : CoreId) (rs : RegF) (sel : BitVec 12) (s : Machine.State) (n : Nat), Issues c s ∧ (s.core c).ring = 0 ∧ specialBad c (s.core c) sel.toNat (s.rd c rs) = false ∧ n ≠ sel.toNat) ∧
    (∃ (c : CoreId) (rs : RegF) (sel : BitVec 12) (s : Machine.State), Issues c s ∧ (s.core c).ring ≠ 0 ∧ specialBad c (s.core c) sel.toNat (s.rd c rs) = false) ∧
    (∃ (c : CoreId) (sel : BitVec 12) (s : Machine.State), Issues c s ∧ (sel.toNat = 0 ∨ 16 ≤ sel.toNat)) ∧
    (∃ (c : CoreId) (rs : RegF) (sel : BitVec 12) (s : Machine.State), Issues c s ∧ specialBad c (s.core c) sel.toNat (s.rd c rs) = true) :=
  ⟨⟨.ccA, 1, up, by unfold Issues; decide +kernel⟩,
   ⟨.ccA, 14, up, by unfold Issues; decide +kernel⟩,
   ⟨.ccA, 0, 1, up, 0, by unfold Issues; decide +kernel⟩,
   ⟨.ccA, 0, 2, inRing1 up, by unfold Issues; decide +kernel⟩,
   ⟨.ccA, 0, up, by unfold Issues; decide +kernel⟩,
   ⟨.ccA, 0, 0, up, by unfold Issues; decide +kernel⟩⟩
theorem witness_CoreBranches :
    (∃ (c : CoreId) (ra : RegF) (s : Machine.State), IssuesClean c s ∧ BitVec.toNat (s.rd c ra) % 4 = 0) ∧
    (∃ (c : CoreId) (ra : RegF) (s : Machine.State), IssuesClean c s ∧ BitVec.toNat (s.rd c ra) % 4 ≠ 0) :=
  ⟨⟨.ccA, 0, up, by unfold IssuesClean Issues; decide +kernel⟩,
   ⟨.ccA, 8, (up).wr .ccA 8 2, by unfold IssuesClean Issues; decide +kernel⟩⟩
theorem witness_CoreAccessTraps :
    (∃ (c : CoreId) (rs : RegF) (imm : BitVec 16) (s : Machine.State), Issues c s ∧ BitVec.toNat (s.rd c rs + BitVec.signExtend 32 imm) % 2 ≠ 0) ∧
    (∃ (c : CoreId) (rs : RegF) (imm : BitVec 16) (d : Nat) (s : Machine.State) (t : Machine.State), Issues c s ∧ BitVec.toNat (s.rd c rs + BitVec.signExtend 32 imm) % 4 = 0 ∧ mpuCheck s c (s.core c).ring 0 (BitVec.toNat (s.rd c rs + BitVec.signExtend 32 imm)) = none ∧ busLoad c (BitVec.toNat (s.rd c rs + BitVec.signExtend 32 imm)) 4 s = BusRes.err d t) ∧
    (∃ (c : CoreId) (rs : RegF) (imm : BitVec 16) (d : Nat) (s : Machine.State), Issues c s ∧ BitVec.toNat (s.rd c rs + BitVec.signExtend 32 imm) % 4 = 0 ∧ mpuCheck s c (s.core c).ring 0 (BitVec.toNat (s.rd c rs + BitVec.signExtend 32 imm)) = some d) ∧
    (∃ (c : CoreId) (rd : RegF) (rs : RegF) (imm : BitVec 16) (d : Nat) (s : Machine.State) (t : Machine.State), Issues c s ∧ BitVec.toNat (s.rd c rs + BitVec.signExtend 32 imm) % 4 = 0 ∧ mpuCheck s c (s.core c).ring 1 (BitVec.toNat (s.rd c rs + BitVec.signExtend 32 imm)) = none ∧ ((s.core c).ring = 0 ∨ ringZeroOnly c (BitVec.toNat (s.rd c rs + BitVec.signExtend 32 imm)) = false) ∧ busStore c (BitVec.toNat (s.rd c rs + BitVec.signExtend 32 imm)) 4 (BitVec.toNat (s.rd c rd)) s = BusRes.err d t) ∧
    (∃ (c : CoreId) (rs : RegF) (imm : BitVec 16) (d : Nat) (s : Machine.State), Issues c s ∧ BitVec.toNat (s.rd c rs + BitVec.signExtend 32 imm) % 4 = 0 ∧ mpuCheck s c (s.core c).ring 1 (BitVec.toNat (s.rd c rs + BitVec.signExtend 32 imm)) = some d) ∧
    (∃ (c : CoreId) (rs : RegF) (imm : BitVec 16) (s : Machine.State), Issues c s ∧ BitVec.toNat (s.rd c rs + BitVec.signExtend 32 imm) % 4 ≠ 0) :=
  ⟨⟨.ccA, 0, 1, up, by unfold Issues; decide +kernel⟩,
   ⟨.ccA, 8, 0, 1, (up).wr .ccA 8 0x70000000, (up).wr .ccA 8 0x70000000, ⟨by decide +kernel, by decide +kernel, by decide +kernel, by decide +kernel, by decide +kernel⟩, by decide +kernel, by decide +kernel, rfl⟩,
   ⟨.ccA, 0, 0, 0, (inRing1 up).setReg (coreReg .ccA 0x408) 0x80000044, ⟨by decide +kernel, by decide +kernel, by decide +kernel, by decide +kernel, by decide +kernel⟩, by decide +kernel, by decide +kernel⟩,
   ⟨.ccA, 8, 8, 0, 1, (up).wr .ccA 8 0x70000000, (up).wr .ccA 8 0x70000000, ⟨by decide +kernel, by decide +kernel, by decide +kernel, by decide +kernel, by decide +kernel⟩, by decide +kernel, by decide +kernel, .inl (by decide +kernel), rfl⟩,
   ⟨.ccA, 0, 0, 1, (inRing1 up).setReg (coreReg .ccA 0x408) 0x80000044, ⟨by decide +kernel, by decide +kernel, by decide +kernel, by decide +kernel, by decide +kernel⟩, by decide +kernel, by decide +kernel⟩,
   ⟨.ccA, 0, 2, up, by unfold Issues; decide +kernel⟩⟩
theorem witness_CoreRegisterWriteReads :
    (∃ (f : RegF), 24 < BitVec.toNat f) ∧
    (∃ (f : RegF), BitVec.toNat f < 24) ∧
    (∃ (f : RegF), BitVec.toNat f = 24) ∧
    (∃ (c : CoreId) (k : Core) (f : RegF), k.rf.length = 16 * c.frames ∧ k.g.length = 7 ∧ BitVec.toNat f ≠ 24) ∧
    (∃ (c : CoreId) (k : Core) (f : RegF) (h : RegF), k.rf.length = 16 * c.frames ∧ k.g.length = 7 ∧ h ≠ f) :=
  ⟨⟨25, by decide +kernel⟩,
   ⟨0, by decide +kernel⟩,
   ⟨24, by decide +kernel⟩,
   ⟨.ccA, Core.reset .ccA, 31, by decide +kernel⟩,
   ⟨.ccA, Core.reset .ccA, 31, 24, by decide +kernel⟩⟩
theorem witness_HeartbeatsAndLink_1 :
    (∃ (s : Machine.State) (a : BitVec 16), (a - s.pair.txAck).toNat = 0 ∨ min 512 s.pair.flits.length < (a - s.pair.txAck).toNat) ∧
    (∃ (s : Machine.State) (path : HbPath) (d : DWord) (ok : Bool), (ok = true ∧ fieldAt (BitVec.setWidth 32 d) 21 16 = 0 ∧ fieldAt (BitVec.setWidth 32 d) 31 28 ≤ 4 ∧ fieldAt (BitVec.setWidth 32 d) 27 26 ≠ 3 ∧ (match path with | HbPath.a => s.pair.countA | HbPath.b => s.pair.countB) ≠ some (fieldAt (BitVec.setWidth 32 d) 15 0) ∧ (path = HbPath.a → linkUsable s = true) ∧ s.power.supply = Supply.running) ∧ (s.power.booted = false ∨ s.power.safe = true)) ∧
    (∃ (s : Machine.State) (path : HbPath) (d : DWord) (ok : Bool), (ok = true ∧ fieldAt (BitVec.setWidth 32 d) 21 16 = 0 ∧ fieldAt (BitVec.setWidth 32 d) 31 28 ≤ 4 ∧ fieldAt (BitVec.setWidth 32 d) 27 26 ≠ 3 ∧ (match path with | HbPath.a => s.pair.countA | HbPath.b => s.pair.countB) ≠ some (fieldAt (BitVec.setWidth 32 d) 15 0) ∧ (path = HbPath.a → linkUsable s = true) ∧ s.power.supply = Supply.running) ∧ s.power.booted = true ∧ s.power.safe = false) ∧
    (∃ (s : Machine.State), (s.power.supply = Supply.running ∨ s.power.supply = Supply.starting) ∧ (s.power.mode = PowerMode.steep ∨ s.power.mode = PowerMode.lager) ∧ s.pair.pathB = false) ∧
    (∃ (s : Machine.State), (s.power.supply = Supply.running ∨ s.power.supply = Supply.starting) ∧ (s.power.mode = PowerMode.steep ∨ s.power.mode = PowerMode.lager) ∧ s.pair.pathB = true) ∧
    (∃ (s : Machine.State), (s.power.supply = Supply.running ∨ s.power.supply = Supply.starting) ∧ s.power.mode = PowerMode.run ∧ s.pair.pathA = false ∧ s.pair.pathB = false) :=
  ⟨⟨up, 0, by decide +kernel⟩,
   ⟨{ up with power.supply := Supply.running, power.booted := false }, .b, 0x10000001, true, by decide +kernel⟩,
   ⟨{ up with power.supply := Supply.running, power.booted := true, power.safe := false }, .b, 0x10000001, true, by decide +kernel⟩,
   ⟨{ up with power.mode := .steep }, by decide +kernel⟩,
   ⟨{ up with power.mode := .lager, pair.pathB := true }, by decide +kernel⟩,
   ⟨{ up with power.mode := PowerMode.run, pair.pathA := false, pair.pathB := false }, by decide +kernel⟩⟩
theorem witness_HeartbeatsAndLink_2 :
    (∃ (s : Machine.State), (s.power.supply = Supply.running ∨ s.power.supply = Supply.starting) ∧ s.power.mode = PowerMode.run ∧ s.pair.pathA = false ∧ s.pair.pathB = true) ∧
    (∃ (s : Machine.State), (s.power.supply = Supply.running ∨ s.power.supply = Supply.starting) ∧ s.power.mode = PowerMode.run ∧ s.pair.pathA = true ∧ s.pair.pathB = false) ∧
    (∃ (s : Machine.State) (x : Word), (s.power.supply = Supply.running ∨ s.power.supply = Supply.starting) ∧ s.power.mode = PowerMode.run ∧ s.pair.pathA = true ∧ s.pair.pathB = true ∧ s.pair.word = some x ∧ fieldAt x 27 26 = 0) ∧
    (∃ (s : Machine.State) (x : Word), (s.power.supply = Supply.running ∨ s.power.supply = Supply.starting) ∧ s.power.mode = PowerMode.run ∧ s.pair.pathA = true ∧ s.pair.pathB = true ∧ s.pair.word = some x ∧ fieldAt x 27 26 ≠ 0) ∧
    (∃ (s : Machine.State) (a : BitVec 16), 0 < (a - s.pair.txAck).toNat ∧ (a - s.pair.txAck).toNat ≤ min 512 s.pair.flits.length) ∧
    (∃ (s : Machine.State) (path : HbPath), path = HbPath.a ∧ linkUsable s = true) :=
  ⟨⟨{ up with power.mode := PowerMode.run, pair.pathA := false, pair.pathB := true }, by decide +kernel⟩,
   ⟨{ up with power.mode := PowerMode.run, pair.pathA := true, pair.pathB := false }, by decide +kernel⟩,
   ⟨{ up with power.mode := PowerMode.run, pair.pathA := true, pair.pathB := true, pair.word := some (0) }, 0, by decide +kernel⟩,
   ⟨{ paired with pair.word := some 0x25000001 }, 0x25000001, by decide +kernel⟩,
   ⟨{ up with pair.flits := [⟨.nak, 0, 0⟩] }, 1, by decide +kernel⟩,
   ⟨{ up with pair.link := .up }, .a, by decide +kernel⟩⟩
theorem witness_HeartbeatsAndLink_3 :
    (∃ (s : Machine.State) (path : HbPath), path = HbPath.b ∨ linkUsable s = false) ∧
    (∃ (s : Machine.State), s.isFenced 4 0 = false ∧ bitAt (pairCtl s) 0 = true ∧ s.power.booted = true) ∧
    (∃ (s : Machine.State), s.isFenced 4 0 = true ∨ bitAt (pairCtl s) 0 = false ∨ s.power.booted = false) ∧
    (∃ (s : Machine.State), s.kiln.latch = false ∧ s.power.supply = Supply.running ∧ (s.power.mode ≠ PowerMode.run ∨ linkUsable s = false)) ∧
    (∃ (s : Machine.State), s.kiln.latch = false ∧ s.power.supply = Supply.running ∧ s.power.mode = PowerMode.run ∧ linkUsable s = true) ∧
    (∃ (s : Machine.State), s.kiln.latch = true ∨ s.power.supply ≠ Supply.running) :=
  ⟨⟨up, .b, by decide +kernel⟩,
   ⟨{ up with power.booted := true }, by decide +kernel⟩,
   ⟨{ up with power.booted := false }, by decide +kernel⟩,
   ⟨{ up with kiln.latch := false, power.supply := Supply.running }, by decide +kernel⟩,
   ⟨{ up with kiln.latch := false, power.supply := Supply.running, power.mode := PowerMode.run, pair.link := .up }, by decide +kernel⟩,
   ⟨{ up with kiln.latch := true }, by decide +kernel⟩⟩
theorem witness_HeartbeatsAndLink_4 :
    (∃ (s : Machine.State) (x : Word), s.pair.castling = Castling.none ∧ s.pair.frozen = false ∧ s.pair.role = Role.active ∧ fieldAt x 31 28 = 3 ∧ s.pair.session = PairSession.keyed ∧ s.pair.syncing = false) ∧
    (∃ (s : Machine.State) (x : Word), s.pair.castling = Castling.none ∧ s.pair.frozen = false ∧ s.pair.role = Role.electing ∧ fieldAt x 31 28 = 1) ∧
    (∃ (s : Machine.State) (x : Word), s.pair.castling = Castling.none ∧ s.pair.frozen = false ∧ s.pair.role = Role.solo ∧ fieldAt x 31 28 = 1) ∧
    (∃ (s : Machine.State) (x : Word), s.pair.castling = Castling.none ∧ s.pair.frozen = false ∧ s.pair.role = Role.solo ∧ fieldAt x 31 28 = 3 ∧ s.ktab.present = true) ∧
    (∃ (s : Machine.State) (f : List Byte), s.pair.link = LinkPhase.up ∧ (f.length = 64 ∧ crc32 (List.take 60 f) = BitVec.ofNat 32 (fieldOf f 60 4)) ∧ (flitFormed f = true ∧ BitVec.ofNat 16 (fieldOf f 0 2) = if fieldOf f 4 1 = 0 then s.pair.rxNext - 1 else s.pair.rxNext) ∧ fieldOf f 4 1 = 0) ∧
    (∃ (s : Machine.State) (f : List Byte), s.pair.link = LinkPhase.up ∧ (f.length = 64 ∧ crc32 (List.take 60 f) = BitVec.ofNat 32 (fieldOf f 60 4)) ∧ (flitFormed f = true ∧ BitVec.ofNat 16 (fieldOf f 0 2) = if fieldOf f 4 1 = 0 then s.pair.rxNext - 1 else s.pair.rxNext) ∧ fieldOf f 4 1 = 1 ∧ bitAt (BitVec.ofNat 32 (fieldOf f 5 1)) 1 = false) :=
  ⟨⟨{ up with pair.castling := Castling.none, pair.frozen := false, pair.role := Role.active, pair.session := PairSession.keyed, pair.syncing := false }, 0x30000000, by decide +kernel⟩,
   ⟨{ up with pair.castling := Castling.none, pair.frozen := false, pair.role := Role.electing }, 0x10000000, by decide +kernel⟩,
   ⟨{ up with pair.castling := Castling.none, pair.frozen := false, pair.role := Role.solo }, 0x10000000, by decide +kernel⟩,
   ⟨{ up with pair.castling := Castling.none, pair.frozen := false, pair.role := Role.solo, ktab.present := true }, 0x30000000, by decide +kernel⟩,
   ⟨{ up with pair := { up.pair with link := .up, rxNext := 1 } }, flitBytes 0 0 0 0 0 [], by decide +kernel⟩,
   ⟨{ up with pair := { up.pair with link := .up, rxNext := 1 } }, flitBytes 1 0 1 0 1 [], by decide +kernel⟩⟩
theorem witness_HeartbeatsAndLink_5 :
    (∃ (s : Machine.State) (f : List Byte), s.pair.link = LinkPhase.up ∧ (f.length = 64 ∧ crc32 (List.take 60 f) = BitVec.ofNat 32 (fieldOf f 60 4)) ∧ (flitFormed f = true ∧ BitVec.ofNat 16 (fieldOf f 0 2) = if fieldOf f 4 1 = 0 then s.pair.rxNext - 1 else s.pair.rxNext) ∧ fieldOf f 4 1 = 2 ∧ (takeFlitAck (BitVec.ofNat 16 (fieldOf f 2 2)) s.pair).flits = []) ∧
    (∃ (s : Machine.State) (f : List Byte), s.pair.link = LinkPhase.up ∧ (f.length = 64 ∧ crc32 (List.take 60 f) = BitVec.ofNat 32 (fieldOf f 60 4)) ∧ (flitFormed f = true ∧ BitVec.ofNat 16 (fieldOf f 0 2) = if fieldOf f 4 1 = 0 then s.pair.rxNext - 1 else s.pair.rxNext) ∧ fieldOf f 4 1 = 2 ∧ (takeFlitAck (BitVec.ofNat 16 (fieldOf f 2 2)) s.pair).flits ≠ [] ∧ (takeFlitAck (BitVec.ofNat 16 (fieldOf f 2 2)) s.pair).txAck = s.pair.txAck ∧ (takeFlitAck (BitVec.ofNat 16 (fieldOf f 2 2)) s.pair).sameReplays < 7) ∧
    (∃ (s : Machine.State) (f : List Byte), s.pair.link = LinkPhase.up ∧ (f.length = 64 ∧ crc32 (List.take 60 f) = BitVec.ofNat 32 (fieldOf f 60 4)) ∧ (flitFormed f = true ∧ BitVec.ofNat 16 (fieldOf f 0 2) = if fieldOf f 4 1 = 0 then s.pair.rxNext - 1 else s.pair.rxNext) ∧ fieldOf f 4 1 = 2 ∧ (takeFlitAck (BitVec.ofNat 16 (fieldOf f 2 2)) s.pair).flits ≠ [] ∧ (takeFlitAck (BitVec.ofNat 16 (fieldOf f 2 2)) s.pair).txAck ≠ s.pair.txAck) ∧
    (∃ (s : Machine.State) (f : List Byte), s.pair.link = LinkPhase.up ∧ (f.length = 64 ∧ crc32 (List.take 60 f) = BitVec.ofNat 32 (fieldOf f 60 4)) ∧ ¬(flitFormed f = true ∧ BitVec.ofNat 16 (fieldOf f 0 2) = if fieldOf f 4 1 = 0 then s.pair.rxNext - 1 else s.pair.rxNext)) ∧
    (∃ (s : Machine.State), s.pair.link = LinkPhase.up ∧ s.pair.flits ≠ [] ∧ s.pair.sameReplays < 7) ∧
    (∃ (s : Machine.State), s.pair.link = LinkPhase.up ∧ s.pair.flits ≠ [] ∧ s.pair.sameReplays = 7) :=
  ⟨⟨{ up with pair := { up.pair with link := .up, rxNext := 1 } }, flitBytes 1 0 2 0 0 [], by decide +kernel⟩,
   ⟨{ up with pair := { up.pair with link := .up, rxNext := 1, flits := [⟨.nak, 0, 0⟩, ⟨.nak, 0, 0⟩], txAck := 3 } }, flitBytes 1 3 2 0 0 [], by decide +kernel⟩,
   ⟨{ up with pair := { up.pair with link := .up, rxNext := 1, flits := [⟨.nak, 0, 0⟩, ⟨.nak, 0, 0⟩], txAck := 3 } }, flitBytes 1 4 2 0 0 [], by decide +kernel⟩,
   ⟨{ up with pair := { up.pair with link := .up, rxNext := 1 } }, flitBytes 5 0 1 0 1 [], by decide +kernel⟩,
   ⟨{ up with pair := { up.pair with link := .up, rxNext := 1, flits := [⟨.nak, 0, 0⟩, ⟨.nak, 0, 0⟩], txAck := 3 } }, by decide +kernel⟩,
   ⟨{ up with pair := { up.pair with link := .up, rxNext := 1, flits := [⟨.nak, 0, 0⟩, ⟨.nak, 0, 0⟩], txAck := 3, sameReplays := 7 } }, by decide +kernel⟩⟩
theorem witness_HeartbeatsAndLink_6 :
    (∃ (s : Machine.State) (f : List Byte), s.pair.link = LinkPhase.up ∧ ¬(f.length = 64 ∧ crc32 (List.take 60 f) = BitVec.ofNat 32 (fieldOf f 60 4))) ∧
    (∃ (s : Machine.State), s.pair.link ≠ LinkPhase.up) ∧
    (∃ (s : Machine.State), s.pair.link ≠ LinkPhase.up ∨ s.pair.flits = []) ∧
    (∃ (s : Machine.State), s.pair.role = Role.standby ∧ s.pair.pathB = false) ∧
    (∃ (s : Machine.State), s.pair.role = Role.standby ∧ s.pair.pathB = true) ∧
    (∃ (s : Machine.State), s.pair.role ≠ Role.standby ∧ s.pair.role ≠ Role.active) :=
  ⟨⟨{ up with pair.link := LinkPhase.up }, [], by decide +kernel⟩,
   ⟨up, by decide +kernel⟩,
   ⟨up, by decide +kernel⟩,
   ⟨{ up with pair.role := Role.standby, pair.pathB := false }, by decide +kernel⟩,
   ⟨{ up with pair.role := Role.standby, pair.pathB := true }, by decide +kernel⟩,
   ⟨up, by decide +kernel⟩⟩
theorem witness_HeartbeatsAndLink_7 :
    (∃ (s : Machine.State) (x : Word), s.pair.word = some x ∧ (s.pair.role = Role.active ∨ s.pair.role = Role.solo) ∧ bitAt x 25 = false ∧ s.pair.prsntHigh = false ∧ s.pair.frozen = false) ∧
    (∃ (s : Machine.State) (x : Word), s.pair.word = some x ∧ s.pair.role = Role.standby ∧ takeoverOk s = false ∧ (bitAt x 25 = true ∨ s.pair.prsntHigh = true)) ∧
    (∃ (s : Machine.State) (x : Word), s.pair.word = some x ∧ s.pair.role = Role.standby ∧ takeoverOk s = true ∧ bitAt x 25 = true) ∧
    (∃ (s : Machine.State) (x : Word), s.pair.word = some x ∧ s.pair.role = Role.syncing ∧ (bitAt x 25 = true ∨ s.pair.prsntHigh = true) ∧ bitAt x 25 = false) ∧
    (∃ (s : Machine.State) (x : Word), s.pair.word = some x ∧ s.pair.role = Role.syncing ∧ (bitAt x 25 = true ∨ s.pair.prsntHigh = true) ∧ bitAt x 25 = true) ∧
    (∃ (s : Machine.State), s.power.supply = Supply.dark ∨ s.power.supply = Supply.failHold) :=
  ⟨⟨{ up with pair.word := some (0), pair.prsntHigh := false, pair.frozen := false }, 0, by decide +kernel⟩,
   ⟨{ up with pair.word := some (0), pair.role := Role.standby }, 0, by decide +kernel⟩,
   ⟨{ up with pair.word := some (0x13000000), pair.role := Role.standby }, 0x13000000, by decide +kernel⟩,
   ⟨{ up with pair.word := some (0), pair.role := Role.syncing }, 0, by decide +kernel⟩,
   ⟨{ up with pair.word := some (0x02000000), pair.role := Role.syncing }, 0x02000000, by decide +kernel⟩,
   ⟨{ up with power.supply := .dark }, by decide +kernel⟩⟩
theorem witness_HeartbeatsAndLink_8 : ∃ (s : Machine.State) (path : HbPath) (d : DWord) (ok : Bool), ¬(ok = true ∧ fieldAt (BitVec.setWidth 32 d) 21 16 = 0 ∧ fieldAt (BitVec.setWidth 32 d) 31 28 ≤ 4 ∧ fieldAt (BitVec.setWidth 32 d) 27 26 ≠ 3 ∧ (match path with | HbPath.a => s.pair.countA | HbPath.b => s.pair.countB) ≠ some (fieldAt (BitVec.setWidth 32 d) 15 0) ∧ (path = HbPath.a → linkUsable s = true) ∧ s.power.supply = Supply.running) :=
  ⟨up, .a, 0, false, by decide +kernel⟩
theorem witness_SettledStatesStand :
    (∃ (s : Machine.State), s.fault.inputs = [] ∧ (s.fault.mateAfterCastling = true → castlingRuns s = true) ∧ revertive s = s.pair.holdFrom.isSome ∧ (∀ (e : RingEvent), e ∈ s.reader.events → e.isSlot = true) ∧ leverReady s = false ∧ s.mgmtp.frames = [] ∧ s.cqe.held = [] ∧ s.cqe.inflight = [] ∧ s.ktab.reserves = [] ∧ s.pair.shelfWait = [] ∧ s.pair.castling = Castling.none ∧ s.pke.ownSign = OwnSign.idle ∧ s.journal.sinceCkpt = s.journal.next ∧ ∀ (q : Queue), q ∈ s.cqe.queues → q.sqHead = q.sqTail) ∧
    (∃ (s : Machine.State), s.fault.inputs = [] ∧ (s.fault.mateAfterCastling = true → castlingRuns s = true) ∧ revertive s = s.pair.holdFrom.isSome ∧ awake s = false) :=
  ⟨⟨{ up with fault.inputs := [], mgmtp.frames := [], cqe.held := [], cqe.inflight := [], ktab.reserves := [], pair.shelfWait := [], pair.castling := Castling.none, pke.ownSign := OwnSign.idle }, by decide +kernel⟩,
   ⟨{ up with fault.inputs := [], power.mode := .lager }, by decide +kernel⟩⟩
theorem witness_ResetStandsAsStated : ∃ (v : MsixVector), v ∈ State.reset.port0.msix :=
  ⟨(State.reset.port0.msix).head (by decide +kernel), by decide +kernel⟩
theorem witness_CoreRegisterFrame :
    (∃ (rd : RegF) (s : Machine.State), Quiet s ∧ BitVec.toNat rd = 24) ∧
    (∃ (c : CoreId) (s : Machine.State) (d : CoreId), Quiet s ∧ d ≠ c) ∧
    (∃ (rd : RegF) (s : Machine.State) (f : RegF), Quiet s ∧ f ≠ rd) :=
  ⟨⟨24, up, by unfold Quiet; decide +kernel⟩,
   ⟨.ccA, up, .ccB, by unfold Quiet; decide +kernel⟩,
   ⟨9, up, 8, by unfold Quiet; decide +kernel⟩⟩
theorem witness_PowerStates_1 :
    (∃ (w : WakeSource) (s : Machine.State), (s.power.supply = Supply.running ∨ s.power.supply = Supply.starting) ∧ s.power.mode = PowerMode.lager ∧ (w = WakeSource.timer → timerDue s = true) ∧ (w = WakeSource.host ∧ s.power.mode = PowerMode.steep ∨ w = WakeSource.perst ∧ (s.power.mode = PowerMode.steep ∨ bitAt (s.reg 1073741844 43) 0 = true) ∨ w = WakeSource.capSlot ∧ bitAt (s.reg 1073741844 43) 1 = true ∨ w = WakeSource.field ∧ bitAt (s.reg 1073741844 43) 2 = true ∨ w = WakeSource.card ∧ bitAt (s.reg 1073741844 43) 3 = true ∨ w = WakeSource.timer ∧ bitAt (s.reg 1073741844 43) 4 = true ∨ w = WakeSource.heartbeat ∧ (s.power.mode = PowerMode.steep ∨ bitAt (s.reg 1073741844 43) 5 = true) ∨ w = WakeSource.lever ∧ s.power.mode = PowerMode.steep)) ∧
    (∃ (w : WakeSource) (s : Machine.State), (s.power.supply = Supply.running ∨ s.power.supply = Supply.starting) ∧ s.power.mode = PowerMode.lager ∧ (w = WakeSource.timer → timerDue s = true) ∧ ¬(w = WakeSource.host ∧ s.power.mode = PowerMode.steep ∨ w = WakeSource.perst ∧ (s.power.mode = PowerMode.steep ∨ bitAt (s.reg 1073741844 43) 0 = true) ∨ w = WakeSource.capSlot ∧ bitAt (s.reg 1073741844 43) 1 = true ∨ w = WakeSource.field ∧ bitAt (s.reg 1073741844 43) 2 = true ∨ w = WakeSource.card ∧ bitAt (s.reg 1073741844 43) 3 = true ∨ w = WakeSource.timer ∧ bitAt (s.reg 1073741844 43) 4 = true ∨ w = WakeSource.heartbeat ∧ (s.power.mode = PowerMode.steep ∨ bitAt (s.reg 1073741844 43) 5 = true) ∨ w = WakeSource.lever ∧ s.power.mode = PowerMode.steep)) ∧
    (∃ (w : WakeSource) (s : Machine.State), (s.power.supply = Supply.running ∨ s.power.supply = Supply.starting) ∧ s.power.mode = PowerMode.run ∧ w = WakeSource.timer ∧ (w = WakeSource.timer → timerDue s = true)) ∧
    (∃ (w : WakeSource) (s : Machine.State), (s.power.supply = Supply.running ∨ s.power.supply = Supply.starting) ∧ s.power.mode = PowerMode.run ∧ w ≠ WakeSource.timer) ∧
    (∃ (w : WakeSource) (s : Machine.State), (s.power.supply = Supply.running ∨ s.power.supply = Supply.starting) ∧ s.power.mode = PowerMode.steep ∧ (w = WakeSource.timer → timerDue s = true) ∧ (w = WakeSource.host ∧ s.power.mode = PowerMode.steep ∨ w = WakeSource.perst ∧ (s.power.mode = PowerMode.steep ∨ bitAt (s.reg 1073741844 43) 0 = true) ∨ w = WakeSource.capSlot ∧ bitAt (s.reg 1073741844 43) 1 = true ∨ w = WakeSource.field ∧ bitAt (s.reg 1073741844 43) 2 = true ∨ w = WakeSource.card ∧ bitAt (s.reg 1073741844 43) 3 = true ∨ w = WakeSource.timer ∧ bitAt (s.reg 1073741844 43) 4 = true ∨ w = WakeSource.heartbeat ∧ (s.power.mode = PowerMode.steep ∨ bitAt (s.reg 1073741844 43) 5 = true) ∨ w = WakeSource.lever ∧ s.power.mode = PowerMode.steep)) ∧
    (∃ (w : WakeSource) (s : Machine.State), (s.power.supply = Supply.running ∨ s.power.supply = Supply.starting) ∧ s.power.mode = PowerMode.steep ∧ (w = WakeSource.timer → timerDue s = true) ∧ ¬(w = WakeSource.host ∧ s.power.mode = PowerMode.steep ∨ w = WakeSource.perst ∧ (s.power.mode = PowerMode.steep ∨ bitAt (s.reg 1073741844 43) 0 = true) ∨ w = WakeSource.capSlot ∧ bitAt (s.reg 1073741844 43) 1 = true ∨ w = WakeSource.field ∧ bitAt (s.reg 1073741844 43) 2 = true ∨ w = WakeSource.card ∧ bitAt (s.reg 1073741844 43) 3 = true ∨ w = WakeSource.timer ∧ bitAt (s.reg 1073741844 43) 4 = true ∨ w = WakeSource.heartbeat ∧ (s.power.mode = PowerMode.steep ∨ bitAt (s.reg 1073741844 43) 5 = true) ∨ w = WakeSource.lever ∧ s.power.mode = PowerMode.steep)) :=
  ⟨⟨.heartbeat, { up with power.mode := .lager, regs := [(0x40000014, 0x20)] }, by decide +kernel⟩,
   ⟨.lever, { up with power.mode := .lager }, by decide +kernel⟩,
   ⟨.timer, { up with regs := [(0x4000001C, 1)] }, by decide +kernel⟩,
   ⟨.host, up, by decide +kernel⟩,
   ⟨.lever, { up with power.mode := .steep }, by decide +kernel⟩,
   ⟨.card, { up with power.mode := .steep, regs := [(0x40000014, 0)] }, by decide +kernel⟩⟩
theorem witness_PowerStates_2 :
    (∃ (s : Machine.State) (v : Word), BitVec.toNat v < 64 ∧ (fieldAt v 5 4 = 0 ∨ fieldAt v 5 4 ≠ 3 ∧ s.power.mode ≠ PowerMode.run)) ∧
    (∃ (s : Machine.State) (v : Word), BitVec.toNat v < 64 ∧ fieldAt v 5 4 = 1 ∧ s.power.mode = PowerMode.run) ∧
    (∃ (s : Machine.State) (v : Word), BitVec.toNat v < 64 ∧ fieldAt v 5 4 = 2 ∧ s.power.mode = PowerMode.run) ∧
    (∃ (v : Word), BitVec.toNat v < 64 ∧ fieldAt v 5 4 = 3) ∧
    (∃ (s : Machine.State), s.power.entering = none) ∧
    (∃ (s : Machine.State) (m : PowerMode) (key : Nat), s.power.entering = some (m, key) ∧ ∀ (c : Inflight), c ∈ s.cqe.inflight → c.key = key) :=
  ⟨⟨up, 0, by decide +kernel⟩,
   ⟨{ up with power.mode := PowerMode.run }, 16, by decide +kernel⟩,
   ⟨{ up with power.mode := PowerMode.run }, 32, by decide +kernel⟩,
   ⟨48, by decide +kernel⟩,
   ⟨{ up with power.entering := none }, by decide +kernel⟩,
   ⟨{ up with power.entering := some ((.steep), (0)) }, .steep, 0, by decide +kernel⟩⟩
theorem witness_PowerStates_3 :
    (∃ (s : Machine.State) (m : PowerMode) (key : Nat), s.power.entering = some (m, key) ∧ ∃ c, c ∈ s.cqe.inflight ∧ c.key ≠ key) ∧
    (∃ (s : Machine.State), s.power.mode = PowerMode.run ∧ s.power.supply = Supply.running) ∧
    (∃ (s : Machine.State), s.power.supply = Supply.dark ∨ s.power.supply = Supply.failHold) ∧
    (∃ (s : Machine.State), s.power.wakeLog.length < 64) ∧
    (∃ (w : WakeSource) (s : Machine.State), ¬(s.power.supply = Supply.running ∨ s.power.supply = Supply.starting) ∨ s.power.mode = PowerMode.cell ∨ ¬(w = WakeSource.timer → timerDue s = true)) :=
  ⟨⟨{ up with power.entering := some (.steep, 5), cqe.inflight := [waiting] }, .steep, 5, by decide +kernel⟩,
   ⟨{ up with power.mode := PowerMode.run, power.supply := Supply.running }, by decide +kernel⟩,
   ⟨{ up with power.supply := .dark }, by decide +kernel⟩,
   ⟨up, by decide +kernel⟩,
   ⟨.timer, up, by decide +kernel⟩⟩
theorem witness_SpdmSession_1 :
    (∃ (p : Fin 2) (s : Machine.State), (linkOpen s ↑p && s.power.booted) = false) ∧
    (∃ (p : Fin 2) (s : Machine.State), linkOpen s ↑p = true ∧ s.power.booted = true ∧ (((tlpArrives (↑p) s).port ↑p).spdm = Spdm.negotiated ∨ ((tlpArrives (↑p) s).port ↑p).spdm = Spdm.exchanged ∨ ((tlpArrives (↑p) s).port ↑p).spdm = Spdm.secured)) ∧
    (∃ (p : Fin 2) (s : Machine.State), linkOpen s ↑p = true ∧ s.power.booted = true ∧ ((tlpArrives (↑p) s).port ↑p).spdm = Spdm.capable) ∧
    ((Config.spdmFinishOk [] [] = false) → ∃ (p : Fin 2) (req : List Byte) (s : Machine.State), linkOpen s ↑p = true ∧ s.power.booted = true ∧ ((tlpArrives (↑p) s).port ↑p).spdm = Spdm.exchanged ∧ Config.spdmFinishOk ((tlpArrives (↑p) s).port ↑p).transcript req = false) ∧
    ((Config.spdmFinishOk [] [] = true) → ∃ (p : Fin 2) (req : List Byte) (s : Machine.State), linkOpen s ↑p = true ∧ s.power.booted = true ∧ ((tlpArrives (↑p) s).port ↑p).spdm = Spdm.exchanged ∧ Config.spdmFinishOk ((tlpArrives (↑p) s).port ↑p).transcript req = true) ∧
    (∃ (p : Fin 2) (s : Machine.State), linkOpen s ↑p = true ∧ s.power.booted = true ∧ ((tlpArrives (↑p) s).port ↑p).spdm = Spdm.negotiated) :=
  ⟨⟨0, { up with port0.linkUp := false }, by decide +kernel⟩,
   ⟨0, { up with port0.spdm := .negotiated }, by decide +kernel⟩,
   ⟨0, { up with port0.spdm := .capable }, by decide +kernel⟩,
   (fun h => ⟨0, [], { up with port0.spdm := .exchanged }, by decide +kernel, by decide +kernel, by decide +kernel, h⟩),
   (fun h => ⟨0, [], { up with port0.spdm := .exchanged }, by decide +kernel, by decide +kernel, by decide +kernel, h⟩),
   ⟨0, { up with port0.spdm := .negotiated }, by decide +kernel⟩⟩
theorem witness_SpdmSession_2 :
    (∃ (p : Fin 2) (s : Machine.State) (st : Nat) (sub : Nat), linkOpen s ↑p = true ∧ s.power.booted = true ∧ ((tlpArrives (↑p) s).port ↑p).spdm = Spdm.secured ∧ (2 ≤ st ∨ 3 ≤ sub)) ∧
    (∃ (p : Fin 2) (s : Machine.State) (st : Nat) (sub : Nat), linkOpen s ↑p = true ∧ s.power.booted = true ∧ ((tlpArrives (↑p) s).port ↑p).spdm = Spdm.secured ∧ st < 2 ∧ sub < 3) ∧
    (∃ (p : Fin 2) (s : Machine.State) (st : Nat) (sub : Nat) (ks : Bool) (tx : Bool), linkOpen s ↑p = true ∧ s.power.booted = true ∧ ((tlpArrives (↑p) s).port ↑p).spdm = Spdm.secured ∧ ¬∃ e, e ∈ ((tlpArrives (↑p) s).port ↑p).ide ∧ (e.stream = st ∧ e.sub = sub ∧ e.tx = tx) ∧ e.keySet = ks) ∧
    (∃ (p : Fin 2) (s : Machine.State) (st : Nat) (sub : Nat) (ks : Bool) (tx : Bool), linkOpen s ↑p = true ∧ s.power.booted = true ∧ ((tlpArrives (↑p) s).port ↑p).spdm = Spdm.secured ∧ ∃ e, e ∈ ((tlpArrives (↑p) s).port ↑p).ide ∧ (e.stream = st ∧ e.sub = sub ∧ e.tx = tx) ∧ e.keySet = ks) ∧
    (∃ (p : Fin 2) (s : Machine.State), linkOpen s ↑p = true ∧ s.power.booted = true ∧ ((tlpArrives (↑p) s).port ↑p).spdm = Spdm.versioned) ∧
    (∃ (p : Fin 2) (s : Machine.State), linkOpen s ↑p = true ∧ s.power.booted = true ∧ ((tlpArrives (↑p) s).port ↑p).spdm ≠ Spdm.versioned) :=
  ⟨⟨0, { up with port0.spdm := .secured }, 0, 3, by decide +kernel⟩,
   ⟨0, { up with port0.spdm := .secured }, 1, 2, by decide +kernel⟩,
   ⟨0, { up with port0.spdm := .secured, port0.ide := [⟨0, true, 1, false, 0, 0, false⟩] }, 0, 1, false, false, by decide +kernel⟩,
   ⟨0, { up with port0.spdm := .secured, port0.ide := [⟨0, true, 1, false, 0, 0, false⟩] }, 0, 1, true, false, by decide +kernel⟩,
   ⟨0, { up with port0.spdm := .versioned }, by decide +kernel⟩,
   ⟨0, { up with power.booted := true }, by decide +kernel⟩⟩
theorem witness_SpdmSession_3 :
    (∃ (p : Fin 2) (s : Machine.State) (i : Nat), linkOpen s ↑p = true ∧ s.power.booted = true ∧ 3 ≤ i) ∧
    (∃ (p : Fin 2) (s : Machine.State) (i : Nat), linkOpen s ↑p = true ∧ s.power.booted = true ∧ i < 3) :=
  ⟨⟨0, up, 3, by decide +kernel⟩,
   ⟨0, { up with power.booted := true }, 0, by decide +kernel⟩⟩
theorem witness_CardSlots_1 :
    (∃ (n : Fin 4) (s : Machine.State), s.cards.length = 4 ∧ (s.slot ↑n).jobs = [] ∧ ((s.slot ↑n).mode ≠ 2 ∨ (s.slot ↑n).phase ≠ CardPhase.ready)) ∧
    (∃ (n : Fin 4) (s : Machine.State), s.cards.length = 4 ∧ (s.slot ↑n).jobs = [] ∧ ((s.slot ↑n).phase = CardPhase.present ∨ (s.slot ↑n).phase = CardPhase.unusable) ∧ (s.slot ↑n).det = true ∧ (s.slot ↑n).blocked = false ∧ s.isFenced 7 ↑n = false) ∧
    (∃ (n : Fin 4) (s : Machine.State), s.cards.length = 4 ∧ (s.slot ↑n).jobs = [] ∧ ((s.slot ↑n).phase = CardPhase.present ∨ (s.slot ↑n).phase = CardPhase.unusable) ∧ ¬((s.slot ↑n).det = true ∧ (s.slot ↑n).blocked = false ∧ s.isFenced 7 ↑n = false)) ∧
    (∃ (n : Fin 4) (s : Machine.State), s.cards.length = 4 ∧ (s.slot ↑n).jobs = [] ∧ (s.slot ↑n).det = false ∧ s.power.mode = PowerMode.run ∧ s.power.supply = Supply.running) ∧
    (∃ (n : Fin 4) (s : Machine.State), s.cards.length = 4 ∧ (s.slot ↑n).jobs = [] ∧ (s.slot ↑n).det = true ∧ (s.power.mode = PowerMode.run ∧ s.power.supply = Supply.running) ∧ (s.slot ↑n).active = false) ∧
    (∃ (n : Fin 4) (s : Machine.State), s.cards.length = 4 ∧ (s.slot ↑n).jobs = [] ∧ (s.slot ↑n).det = true ∧ (s.power.mode = PowerMode.run ∧ s.power.supply = Supply.running) ∧ (s.slot ↑n).active = true) :=
  ⟨⟨0, { up with cards := List.replicate 4 { CardSlot.reset with jobs := [] } }, by decide +kernel⟩,
   ⟨0, { up with cards := List.replicate 4 { CardSlot.reset with phase := .present, det := true } }, by decide +kernel⟩,
   ⟨0, { up with cards := List.replicate 4 { CardSlot.reset with phase := .unusable, det := true, blocked := true } }, by decide +kernel⟩,
   ⟨0, { up with power.mode := PowerMode.run, power.supply := Supply.running, cards := List.replicate 4 { CardSlot.reset with jobs := [], det := false } }, by decide +kernel⟩,
   ⟨0, { up with cards := List.replicate 4 { CardSlot.reset with phase := .present, det := true } }, by decide +kernel⟩,
   ⟨0, { up with cards := List.replicate 4 { CardSlot.reset with phase := .ready, det := true, mode := 1 } }, by decide +kernel⟩⟩
theorem witness_CardSlots_2 :
    (∃ (n : Fin 4) (s : Machine.State), s.cards.length = 4 ∧ (s.slot ↑n).jobs = [] ∧ (s.slot ↑n).mode = 1 ∧ (s.slot ↑n).phase = CardPhase.ready ∧ (s.slot ↑n).stopInd = 0 ∧ (s.slot ↑n).det = true) ∧
    (∃ (n : Fin 4) (s : Machine.State), s.cards.length = 4 ∧ (s.slot ↑n).jobs = [] ∧ (s.slot ↑n).mode = 2 ∧ (s.slot ↑n).phase = CardPhase.ready) ∧
    (∃ (n : Fin 4) (s : Machine.State), s.cards.length = 4 ∧ (s.slot ↑n).jobs = [] ∧ (s.slot ↑n).phase = CardPhase.atr ∧ (s.slot ↑n).fixed = false ∧ 1 < (s.slot ↑n).cls) ∧
    (∃ (n : Fin 4) (s : Machine.State) (b : List Byte), s.cards.length = 4 ∧ (s.slot ↑n).jobs = [] ∧ (s.slot ↑n).phase = CardPhase.atr ∧ atrOf b = none ∧ (s.slot ↑n).badAtr = false) ∧
    (∃ (n : Fin 4) (s : Machine.State) (b : List Byte), s.cards.length = 4 ∧ (s.slot ↑n).jobs = [] ∧ (s.slot ↑n).phase = CardPhase.atr ∧ atrOf b = none ∧ (s.slot ↑n).badAtr = true) ∧
    (∃ (n : Fin 4) (s : Machine.State) (b : List Byte) (a : Atr) (a_1 : Nat), s.cards.length = 4 ∧ (s.slot ↑n).jobs = [] ∧ (s.slot ↑n).phase = CardPhase.atr ∧ atrOf b = some a ∧ a.permits (s.slot ↑n).cls = true ∧ (a.token = false ∨ (s.slot ↑n).noPps = true) ∧ a.protos.contains 1 = true ∧ a.t1 = none ∧ a.classByte = none ∧ a.ta2 = none ∧ a.ta1 = none ∧ a_1 ≠ 1075052544 + 32 * ↑n + 264 ∧ a_1 ≠ 1075052544 + 32 * ↑n + 268 ∧ a_1 ≠ 1075052544 + 32 * ↑n + 272) :=
  ⟨⟨0, { up with cards := List.replicate 4 { CardSlot.reset with jobs := [], mode := 1, phase := CardPhase.ready, stopInd := 0, det := true } }, by decide +kernel⟩,
   ⟨0, { up with cards := List.replicate 4 { CardSlot.reset with jobs := [], mode := 2, phase := CardPhase.ready } }, by decide +kernel⟩,
   ⟨0, { up with cards := List.replicate 4 { CardSlot.reset with cls := 3, jobs := [], phase := CardPhase.atr, fixed := false } }, by decide +kernel⟩,
   ⟨0, { up with cards := List.replicate 4 { CardSlot.reset with jobs := [], phase := CardPhase.atr, badAtr := false } }, [], by decide +kernel⟩,
   ⟨0, { up with cards := List.replicate 4 { CardSlot.reset with jobs := [], phase := CardPhase.atr, badAtr := true } }, [], by decide +kernel⟩,
   ⟨0, { up with cards := List.replicate 4 { CardSlot.reset with jobs := [], phase := CardPhase.atr } }, [0x3B, 0x81, 0x01, 0, 0x80], (atrOf [0x3B, 0x81, 0x01, 0, 0x80]).get (by decide +kernel), 0, by decide +kernel⟩⟩
theorem witness_CardSlots_3 :
    (∃ (n : Fin 4) (s : Machine.State) (b : List Byte) (a : Atr), s.cards.length = 4 ∧ (s.slot ↑n).jobs = [] ∧ (s.slot ↑n).phase = CardPhase.atr ∧ atrOf b = some a ∧ a.permits (s.slot ↑n).cls = true ∧ a.token = true ∧ (s.slot ↑n).noPps = false ∧ a.t1 = none ∧ a.classByte = none) ∧
    (∃ (n : Fin 4) (s : Machine.State), s.cards.length = 4 ∧ (s.slot ↑n).jobs = [] ∧ (s.slot ↑n).phase = CardPhase.pps ∧ (s.slot ↑n).tx.getLast? = some [255, 30, 151, 118]) ∧
    (∃ (n : Fin 4) (s : Machine.State) (b : List Byte), s.cards.length = 4 ∧ (s.slot ↑n).jobs = [] ∧ (s.slot ↑n).phase = CardPhase.pps ∧ (s.slot ↑n).tx.getLast? ≠ some b) ∧
    (∃ (n : Fin 4) (s : Machine.State), s.cards.length = 4 ∧ (s.slot ↑n).jobs = [] ∧ (s.slot ↑n).phase = CardPhase.present ∧ bitAt (s.reg (cardBase + 8) 3944975) ↑n = true ∧ (s.slot ↑n).det = true ∧ (s.slot ↑n).blocked = false ∧ s.isFenced 7 ↑n = false) ∧
    (∃ (n : Fin 4) (s : Machine.State), s.cards.length = 4 ∧ (s.slot ↑n).jobs = [] ∧ (s.slot ↑n).phase = CardPhase.ready ∧ ((s.slot ↑n).mode = 2 ∨ (s.slot ↑n).stopInd ≠ 0)) ∧
    (∃ (n : Fin 4) (s : Machine.State), s.cards.length = 4 ∧ (s.slot ↑n).jobs = [] ∧ (s.slot ↑n).phase = CardPhase.stopped) :=
  ⟨⟨0, { up with cards := List.replicate 4 { CardSlot.reset with cls := 1, jobs := [], phase := CardPhase.atr, noPps := false } }, [0x3B, 0x86, 0x0E, 0x80, 0x64, 0x43, 0x4C, 0x54, 1, 0x36], (atrOf ([0x3B, 0x86, 0x0E, 0x80, 0x64, 0x43, 0x4C, 0x54, 1, 0x36])).get (by decide +kernel), by decide +kernel⟩,
   ⟨0, { up with cards := List.replicate 4 { CardSlot.reset with phase := .pps, tx := [[255, 30, 151, 118]] } }, by decide +kernel⟩,
   ⟨0, { up with cards := List.replicate 4 { CardSlot.reset with jobs := [], phase := CardPhase.pps } }, [], by decide +kernel⟩,
   ⟨0, { up with cards := List.replicate 4 { CardSlot.reset with jobs := [], phase := CardPhase.present, det := true, blocked := false } }, by decide +kernel⟩,
   ⟨0, { up with cards := List.replicate 4 { CardSlot.reset with mode := 2, jobs := [], phase := CardPhase.ready } }, by decide +kernel⟩,
   ⟨0, { up with cards := List.replicate 4 { CardSlot.reset with jobs := [], phase := CardPhase.stopped } }, by decide +kernel⟩⟩
theorem witness_CardSlots_4 :
    (∃ (n : Fin 4) (s : Machine.State), s.cards.length = 4 ∧ (s.slot ↑n).jobs = [] ∧ (s.slot ↑n).phase = CardPhase.waking ∧ (s.slot ↑n).mode = 2 ∧ (s.slot ↑n).wakes = 0) ∧
    (∃ (n : Fin 4) (s : Machine.State), s.cards.length = 4 ∧ (s.slot ↑n).jobs = [] ∧ (s.slot ↑n).phase ≠ CardPhase.atr) ∧
    (∃ (n : Fin 4) (s : Machine.State), s.cards.length = 4 ∧ (s.slot ↑n).jobs = [] ∧ (s.slot ↑n).phase ≠ CardPhase.present ∧ (s.slot ↑n).phase ≠ CardPhase.unusable) ∧
    (∃ (n : Fin 4) (s : Machine.State), s.cards.length = 4 ∧ (s.slot ↑n).jobs = [] ∧ (s.slot ↑n).phase ≠ CardPhase.ready) ∧
    (∃ (n : Fin 4) (s : Machine.State), s.cards.length = 4 ∧ (s.slot ↑n).jobs = [] ∧ (s.slot ↑n).phase ≠ CardPhase.stopped) ∧
    (∃ (n : Fin 4) (s : Machine.State), s.cards.length = 4 ∧ (s.slot ↑n).jobs = [] ∧ (s.slot ↑n).phase ≠ CardPhase.waking) :=
  ⟨⟨0, { up with cards := List.replicate 4 { CardSlot.reset with jobs := [], phase := CardPhase.waking, mode := 2, wakes := 0 } }, by decide +kernel⟩,
   ⟨0, { up with cards := List.replicate 4 { CardSlot.reset with jobs := [] } }, by decide +kernel⟩,
   ⟨0, { up with cards := List.replicate 4 { CardSlot.reset with jobs := [] } }, by decide +kernel⟩,
   ⟨0, { up with cards := List.replicate 4 { CardSlot.reset with jobs := [] } }, by decide +kernel⟩,
   ⟨0, { up with cards := List.replicate 4 { CardSlot.reset with jobs := [] } }, by decide +kernel⟩,
   ⟨0, { up with cards := List.replicate 4 { CardSlot.reset with jobs := [] } }, by decide +kernel⟩⟩
theorem witness_CardSlots_5 :
    (∃ (n : Fin 4) (s : Machine.State), s.cards.length = 4 ∧ (s.slot ↑n).jobs = [] ∧ (s.slot ↑n).stopInd ≠ 0) ∧
    (∃ (n : Fin 4) (s : Machine.State) (a : Nat), s.cards.length = 4 ∧ (s.slot ↑n).jobs = [] ∧ a ≠ 1075052544 + 32 * ↑n + 264 ∧ a ≠ 1075052544 + 32 * ↑n + 268 ∧ a ≠ 1075052544 + 32 * ↑n + 272) :=
  ⟨⟨0, { up with cards := List.replicate 4 { CardSlot.reset with stopInd := 3, jobs := [] } }, by decide +kernel⟩,
   ⟨0, { up with cards := List.replicate 4 { CardSlot.reset with jobs := [] } }, 0, by decide +kernel⟩⟩
theorem witness_CoreGateAndReturn :
    (∃ (c : CoreId) (s : Machine.State), Issues c s ∧ (s.core c).ring ≠ 0) ∧
    (∃ (c : CoreId) (n : Byte) (h : Nat) (target : Word) (ctl : Word) (s : Machine.State) (t : Machine.State), IssuesClean c s ∧ loadWords c (BitVec.toNat (s.core c).gtbase + 8 * BitVec.toNat n) 2 s = (Except.ok [target, ctl], s) ∧ bitAt ctl 31 = true ∧ fieldAt target 1 0 = 0 ∧ fieldAt ctl 30 9 = 0 ∧ fieldAt ctl 4 2 = 0 ∧ (s.core c).ring ≠ 0 ∧ bitAt ctl (4 + (s.core c).ring) = true ∧ fetchable c (BitVec.toNat target) = true ∧ (s.core c).res < c.frames - 2 ∧ EntryOpen c { vector := 0, detail := BitVec.toNat n, eaddr := 0, epc := (s.core c).pc + 4, target := some target, shadow := BitVec.ofNat 2 (min (s.core c).ring (fieldAt ctl 1 0)), ie := if bitAt ctl 8 = true then IeMode.keep else IeMode.clear, ipl := none } h s t) ∧
    (∃ (c : CoreId) (ws : List Word) (s : Machine.State) (u : Machine.State), IssuesRing0 c s ∧ (s.core c).lockdown = false ∧ 2 ≤ (s.core c).res ∧ (s.core c).shadowTop ≤ fieldAt (s.core c).estatus 1 0 ∧ BitVec.toNat (s.core c).spilllim ≤ BitVec.toNat (s.core c).spillp ∧ loadWords c (BitVec.toNat (s.core c).spillp) 16 s = (Except.ok ws, u)) ∧
    (∃ (c : CoreId) (s : Machine.State), IssuesRing0 c s ∧ (s.core c).res ≤ 1) :=
  ⟨⟨.ccA, inRing1 up, by unfold Issues; decide +kernel⟩,
   (by refine ⟨.ccA, 0, 0x10002000, 0x10002000, 0x800000E0, gateS, (pushFrame .ccA (gateS.core .ccA).spillp (entryFrame (gateS.core .ccA) 0) gateS).2, ⟨⟨by decide +kernel, by decide +kernel, by decide +kernel, by decide +kernel, by decide +kernel⟩, by decide +kernel⟩, rfl, ?_, ?_, ?_, ?_, ?_, ?_, ?_, ?_, ⟨by decide +kernel, by decide +kernel, by decide +kernel, by decide +kernel, by decide +kernel, by decide +kernel⟩⟩ <;> decide +kernel),
   (by refine ⟨.ccA, List.replicate 16 0, (inSram.setCore .ccA { inSram.core .ccA with wstate := 0x00030002 }), (inSram.setCore .ccA { inSram.core .ccA with wstate := 0x00030002 }), ⟨⟨by decide +kernel, by decide +kernel, by decide +kernel, by decide +kernel, by decide +kernel⟩, by decide +kernel⟩, ?_, ?_, ?_, ?_, rfl⟩ <;> decide +kernel),
   ⟨.ccA, up, by unfold IssuesRing0 Issues; decide +kernel⟩⟩
theorem witness_PublicKeyEngine_1 :
    (∃ (v : Word) (s : Machine.State), bitAt ((if BitVec.toNat v < 1024 then s else setStatusBits pkeBase 1 s).reg (pkeBase + 8) 0) 0 = false) ∧
    (∃ (v : Word) (s : Machine.State), bitAt ((if BitVec.toNat v < 1024 then s else setStatusBits pkeBase 1 s).reg (pkeBase + 8) 0) 0 = true) ∧
    (∃ (n : Nat) (j : PkeJob) (s : Machine.State), bitAt (s.reg (pkeBase + 8) 0) 0 = true ∧ bitAt (s.reg (pkeBase + 8) 0) 1 = false ∧ idleUnit (askRandom s) = some n ∧ nextJob (askRandom s).pke.jobs = some j ∧ j.key = none) ∧
    (∃ (n : Nat) (j : PkeJob) (s : Machine.State) (k : Nat), bitAt (s.reg (pkeBase + 8) 0) 0 = true ∧ bitAt (s.reg (pkeBase + 8) 0) 1 = false ∧ idleUnit (askRandom s) = some n ∧ nextJob (askRandom s).pke.jobs = some j ∧ j.key = some k) ∧
    (∃ (n : Nat) (j : PkeJob) (s : Machine.State) (x : PkeJob), bitAt (s.reg (pkeBase + 8) 0) 0 = true ∧ bitAt (s.reg (pkeBase + 8) 0) 1 = false ∧ idleUnit (askRandom s) = some n ∧ nextJob (askRandom s).pke.jobs = some j ∧ x ∈ (askRandom s).pke.jobs ∧ jobReady x = true ∧ x.p.prio = 1) ∧
    (∃ (i : Nat) (s : Machine.State), descOk (s.readBytes 0 (BitVec.toNat (s.reg (pkeBase + 16) 0) + 64 * i) 64) = false) :=
  ⟨⟨0, { up with regs := [] }, by decide +kernel⟩,
   ⟨0, up, by decide +kernel⟩,
   ⟨(idleUnit (askRandom ({ up with pke.jobs := [{ pkJob with key := none }] }))).get (by decide +kernel), { pkJob with key := none }, { up with pke.jobs := [{ pkJob with key := none }] }, by decide +kernel⟩,
   ⟨(idleUnit (askRandom ({ up with pke.jobs := [pkJob] }))).get (by decide +kernel), pkJob, { up with pke.jobs := [pkJob] }, 1, by decide +kernel⟩,
   ⟨(idleUnit (askRandom ({ up with pke.jobs := [pkJob, { pkJob with p := { pkJob.p with prio := 1 } }] }))).get (by decide +kernel), { pkJob with p := { pkJob.p with prio := 1 } }, { up with pke.jobs := [pkJob, { pkJob with p := { pkJob.p with prio := 1 } }] }, { pkJob with p := { pkJob.p with prio := 1 } }, by decide +kernel⟩,
   ⟨0, up, by decide +kernel⟩⟩
theorem witness_PublicKeyEngine_2 :
    (∃ (i : Nat) (s : Machine.State), descOk (s.readBytes 0 (BitVec.toNat (s.reg (pkeBase + 16) 0) + 64 * i) 64) = true) ∧
    (∃ (j : PkeJob) (time : Nat) (a : Nat) (b : Nat), jobTime j.p j.input = some time ∧ (b < memKey 0 (a + 32) ∨ memKey 0 (a + 48) ≤ b)) ∧
    (∃ (j : PkeJob) (time : Nat), jobTime j.p j.input = some time ∧ j.desc = none ∧ j.key = none) ∧
    (∃ (j : PkeJob) (time : Nat) (s : Machine.State) (key : Nat) (c : Inflight), jobTime j.p j.input = some time ∧ j.desc = none ∧ j.key = some key ∧ s.command key = some c ∧ signsFor c.op = false ∧ pkeResult j.p j.input (j.rnd.getD 0) = []) ∧
    (∃ (j : PkeJob) (time : Nat) (s : Machine.State) (key : Nat) (c : Inflight), jobTime j.p j.input = some time ∧ j.desc = none ∧ j.key = some key ∧ s.command key = some c ∧ signsFor c.op = false ∧ pkeResult j.p j.input (j.rnd.getD 0) ≠ []) ∧
    (∃ (j : PkeJob) (status : Nat) (time : Nat) (a : Nat), jobTime j.p j.input = some time ∧ j.desc = some a ∧ 3 ≤ status) :=
  ⟨⟨0, ({ up with regs := [(pkeBase + 16, 0x10001000)] } : State).writeBytes 0 0x10001000 (leBytes 4 0x00000201 ++ leBytes 8 0 ++ leBytes 4 1 ++ leBytes 4 0x10000000 ++ leBytes 4 16 ++ leBytes 4 0x10000100 ++ leBytes 4 16 ++ leBytes 32 0), by decide +kernel⟩,
   ⟨pkJob, (jobTime (pkJob).p (pkJob).input).get (by decide +kernel), 0x10001000, 0x10000000, by decide +kernel⟩,
   ⟨{ pkJob with key := none }, (jobTime ({ pkJob with key := none }).p ({ pkJob with key := none }).input).get (by decide +kernel), by decide +kernel⟩,
   ⟨{ pkJob with p := { pkJob.p with alg := 1, op := 7, bits := 0, expBits := 8 }, input := [] }, (jobTime ({ pkJob with p := { pkJob.p with alg := 1, op := 7, bits := 0, expBits := 8 }, input := [] }).p ({ pkJob with p := { pkJob.p with alg := 1, op := 7, bits := 0, expBits := 8 }, input := [] }).input).get (by decide +kernel), { up with cqe.inflight := [waiting] }, 1, waiting, by decide +kernel⟩,
   ⟨{ pkJob with p := { pkJob.p with alg := 1, op := 7, bits := 8, expBits := 8 }, input := [5, 3, 2] }, (jobTime ({ pkJob with p := { pkJob.p with alg := 1, op := 7, bits := 8, expBits := 8 }, input := [5, 3, 2] }).p ({ pkJob with p := { pkJob.p with alg := 1, op := 7, bits := 8, expBits := 8 }, input := [5, 3, 2] }).input).get (by decide +kernel), { up with cqe.inflight := [waiting] }, 1, waiting, by decide +kernel⟩,
   ⟨{ pkJob with desc := some 0x10001000 }, 3, (jobTime ({ pkJob with desc := some 0x10001000 }).p ({ pkJob with desc := some 0x10001000 }).input).get (by decide +kernel), 0x10001000, by decide +kernel⟩⟩
theorem witness_PublicKeyEngine_3 :
    (∃ (j : PkeJob) (status : Nat) (time : Nat) (a : Nat), jobTime j.p j.input = some time ∧ j.desc = some a ∧ status = 0) ∧
    (∃ (n : Fin 2) (j : PkeJob) (s : Machine.State), s.pkeUnit ↑n = some j ∧ (if j.p.op = 6 then 0 else pkeJudgement j.p j.input) = 0 ∧ releaseChecked j.p = true) ∧
    (∃ (n : Fin 2) (j : PkeJob) (s : Machine.State), s.pkeUnit ↑n = some j ∧ j.p.op = 1 ∧ 10 ≤ j.p.alg) ∧
    (∃ (n : Fin 2) (j : PkeJob) (s : Machine.State), s.pkeUnit ↑n = some j ∧ j.rerun = false ∧ s.isFenced 2 (1 - ↑n) = false) ∧
    (∃ (n : Fin 2) (j : PkeJob) (s : Machine.State), s.pkeUnit ↑n = some j ∧ j.rsaKeygen = true) :=
  ⟨⟨{ pkJob with desc := some 0x10001000 }, 0, (jobTime ({ pkJob with desc := some 0x10001000 }).p ({ pkJob with desc := some 0x10001000 }).input).get (by decide +kernel), 0x10001000, by decide +kernel⟩,
   ⟨0, { pkJob with p := { pkJob.p with op := 6, alg := 2 } }, { up with pke.unit0 := some { pkJob with p := { pkJob.p with op := 6, alg := 2 } } }, by decide +kernel⟩,
   ⟨0, { pkJob with p := { pkJob.p with alg := 10, op := 1 } }, { up with pke.unit0 := some { pkJob with p := { pkJob.p with alg := 10, op := 1 } } }, by decide +kernel⟩,
   ⟨0, pkJob, { up with pke.unit0 := some pkJob }, by decide +kernel⟩,
   ⟨0, { pkJob with p := { pkJob.p with op := 6, alg := 1 } }, { up with pke.unit0 := some { pkJob with p := { pkJob.p with op := 6, alg := 1 } } }, by decide +kernel⟩⟩
theorem witness_CoreExceptionEntry :
    (∃ (c : CoreId) (h : Nat) (s : Machine.State) (t : Machine.State), Issues c s ∧ EntryOpen c ((fun v d => { vector := v, detail := d, eaddr := 0, epc := (s.core c).pc, target := none, shadow := BitVec.ofNat 2 (s.core c).ring, ie := IeMode.clear, ipl := none }) 12 0) h s t) ∧
    (∃ (c : CoreId) (h : Nat) (s : Machine.State) (t : Machine.State) (l : Nat), coreOn s c = true ∧ interruptNow s c = some l ∧ EntryOpen c { vector := 16 + l, detail := l, eaddr := 0, epc := (s.core c).pc, target := none, shadow := BitVec.ofNat 2 (s.core c).ring, ie := IeMode.keep, ipl := some (linePriority (if (l ≤ 2 ∨ l = 14 ∨ l = 15 ∨ l = 21) ∧ c ≠ CoreId.mgt then s.unline l else s) c l) } h (if (l ≤ 2 ∨ l = 14 ∨ l = 15 ∨ l = 21) ∧ c ≠ CoreId.mgt then s.unline l else s) t) ∧
    (∃ (c : CoreId) (h : Nat) (s : Machine.State) (t : Machine.State) (w : Word) (d : Nat), illegalWord w = some d ∧ Issues c s ∧ EntryOpen c ((fun v d => { vector := v, detail := d, eaddr := 0, epc := (s.core c).pc, target := none, shadow := BitVec.ofNat 2 (s.core c).ring, ie := IeMode.clear, ipl := none }) 1 d) h s t) :=
  ⟨⟨.ccA, 0, inSram, (pushFrame .ccA (inSram.core .ccA).spillp (entryFrame (inSram.core .ccA) 0) inSram).2, ⟨by decide +kernel, by decide +kernel, by decide +kernel, by decide +kernel, by decide +kernel⟩, ⟨by decide +kernel, by decide +kernel, by decide +kernel, ⟨by decide +kernel, rfl, by decide +kernel, by decide +kernel, by decide +kernel⟩, pair_of (by decide +kernel), by decide +kernel⟩⟩,
   ⟨.ccA, 0, intS, (pushFrame .ccA (intS.core .ccA).spillp (entryFrame (intS.core .ccA) 0) intS).2, 6, by decide +kernel, by decide +kernel, ⟨by decide +kernel, by decide +kernel, by decide +kernel, ⟨by decide +kernel, rfl, by decide +kernel, by decide +kernel, by decide +kernel⟩, pair_of (by decide +kernel), by decide +kernel⟩⟩,
   ⟨.ccA, 0, inSram, (pushFrame .ccA (inSram.core .ccA).spillp (entryFrame (inSram.core .ccA) 0) inSram).2, 0xFFFFFFFF, (illegalWord 0xFFFFFFFF).get (by decide +kernel), by decide +kernel, ⟨by decide +kernel, by decide +kernel, by decide +kernel, by decide +kernel, by decide +kernel⟩, ⟨by decide +kernel, by decide +kernel, by decide +kernel, ⟨by decide +kernel, rfl, by decide +kernel, by decide +kernel, by decide +kernel⟩, pair_of (by decide +kernel), by decide +kernel⟩⟩⟩
theorem witness_CoreWindows :
    (∃ (c : CoreId) (s : Machine.State), IssuesClean c s ∧ (s.core c).res + 1 < 16) ∧
    (∃ (c : CoreId) (rs : RegF) (s : Machine.State), IssuesClean c s ∧ (s.core c).res < c.frames - 2 ∧ BitVec.toNat (s.rd c rs) % 4 = 0) ∧
    (∃ (c : CoreId) (s : Machine.State), IssuesClean c s ∧ (s.core c).res ≤ 1) ∧
    (∃ (c : CoreId) (s : Machine.State), IssuesClean c s ∧ 2 ≤ (s.core c).res ∧ BitVec.toNat (s.rd c 7) % 4 = 0) ∧
    (∃ (c : CoreId) (s : Machine.State), IssuesClean c s ∧ c.frames - 2 ≤ (s.core c).res) :=
  ⟨⟨.ccA, up, by unfold IssuesClean Issues; decide +kernel⟩,
   ⟨.ccA, 0, up, by unfold IssuesClean Issues; decide +kernel⟩,
   ⟨.ccA, up, by unfold IssuesClean Issues; decide +kernel⟩,
   ⟨.ccA, (inSram.setCore .ccA { inSram.core .ccA with wstate := 0x00030002 }), by unfold IssuesClean Issues; decide +kernel⟩,
   ⟨.ccA, (inSram.setCore .ccA { inSram.core .ccA with wstate := 0x000A0009 }), by unfold IssuesClean Issues; decide +kernel⟩⟩
theorem witness_CoreArithmeticFaults_1 :
    (∃ (c : CoreId) (rs : RegF) (imm : BitVec 16) (s : Machine.State), Issues c s ∧ ((arithAddv (s.rd c rs) (BitVec.signExtend 32 imm)).div = true ∨ (arithAddv (s.rd c rs) (BitVec.signExtend 32 imm)).ovf = true) ∧ bitAt (s.core c).ctrl 0 = false) ∧
    (∃ (c : CoreId) (rs : RegF) (imm : BitVec 16) (s : Machine.State), Issues c s ∧ ((arithAddv (s.rd c rs) (BitVec.signExtend 32 imm)).div = true ∨ (arithAddv (s.rd c rs) (BitVec.signExtend 32 imm)).ovf = true) ∧ bitAt (s.core c).ctrl 0 = true) ∧
    (∃ (c : CoreId) (rs : RegF) (rt : RegF) (s : Machine.State), Issues c s ∧ ((arithAddv (s.rd c rs) (s.rd c rt)).div = true ∨ (arithAddv (s.rd c rs) (s.rd c rt)).ovf = true) ∧ bitAt (s.core c).ctrl 0 = false) ∧
    (∃ (c : CoreId) (rs : RegF) (rt : RegF) (s : Machine.State), Issues c s ∧ ((arithAddv (s.rd c rs) (s.rd c rt)).div = true ∨ (arithAddv (s.rd c rs) (s.rd c rt)).ovf = true) ∧ bitAt (s.core c).ctrl 0 = true) ∧
    (∃ (c : CoreId) (rs : RegF) (rt : RegF) (s : Machine.State), Issues c s ∧ ((arithDivs (s.rd c rs) (s.rd c rt)).div = true ∨ (arithDivs (s.rd c rs) (s.rd c rt)).ovf = true) ∧ bitAt (s.core c).ctrl 0 = false) ∧
    (∃ (c : CoreId) (rs : RegF) (rt : RegF) (s : Machine.State), Issues c s ∧ ((arithDivs (s.rd c rs) (s.rd c rt)).div = true ∨ (arithDivs (s.rd c rs) (s.rd c rt)).ovf = true) ∧ bitAt (s.core c).ctrl 0 = true) :=
  ⟨⟨.ccA, 8, 1, ((up).wr .ccA 8 0x7FFFFFFF).wr .ccA 9 1, by unfold Issues; decide +kernel⟩,
   ⟨.ccA, 8, 1, (((up).wr .ccA 8 0x7FFFFFFF).wr .ccA 9 1).setCore .ccA { (((up).wr .ccA 8 0x7FFFFFFF).wr .ccA 9 1).core .ccA with ctrl := 1 }, by unfold Issues; decide +kernel⟩,
   ⟨.ccA, 8, 9, ((up).wr .ccA 8 0x7FFFFFFF).wr .ccA 9 1, by unfold Issues; decide +kernel⟩,
   ⟨.ccA, 8, 9, (((up).wr .ccA 8 0x7FFFFFFF).wr .ccA 9 1).setCore .ccA { (((up).wr .ccA 8 0x7FFFFFFF).wr .ccA 9 1).core .ccA with ctrl := 1 }, by unfold Issues; decide +kernel⟩,
   ⟨.ccA, 0, 0, up, by unfold Issues; decide +kernel⟩,
   ⟨.ccA, 8, 9, (((up).wr .ccA 8 5).wr .ccA 9 0).setCore .ccA { (((up).wr .ccA 8 5).wr .ccA 9 0).core .ccA with ctrl := 1 }, by unfold Issues; decide +kernel⟩⟩
theorem witness_CoreArithmeticFaults_2 :
    (∃ (c : CoreId) (rs : RegF) (rt : RegF) (s : Machine.State), Issues c s ∧ ((arithDivu (s.rd c rs) (s.rd c rt)).div = true ∨ (arithDivu (s.rd c rs) (s.rd c rt)).ovf = true) ∧ bitAt (s.core c).ctrl 0 = false) ∧
    (∃ (c : CoreId) (rs : RegF) (rt : RegF) (s : Machine.State), Issues c s ∧ ((arithDivu (s.rd c rs) (s.rd c rt)).div = true ∨ (arithDivu (s.rd c rs) (s.rd c rt)).ovf = true) ∧ bitAt (s.core c).ctrl 0 = true) ∧
    (∃ (c : CoreId) (rs : RegF) (rt : RegF) (s : Machine.State), Issues c s ∧ ((arithRems (s.rd c rs) (s.rd c rt)).div = true ∨ (arithRems (s.rd c rs) (s.rd c rt)).ovf = true) ∧ bitAt (s.core c).ctrl 0 = false) ∧
    (∃ (c : CoreId) (rs : RegF) (rt : RegF) (s : Machine.State), Issues c s ∧ ((arithRems (s.rd c rs) (s.rd c rt)).div = true ∨ (arithRems (s.rd c rs) (s.rd c rt)).ovf = true) ∧ bitAt (s.core c).ctrl 0 = true) ∧
    (∃ (c : CoreId) (rs : RegF) (rt : RegF) (s : Machine.State), Issues c s ∧ ((arithRemu (s.rd c rs) (s.rd c rt)).div = true ∨ (arithRemu (s.rd c rs) (s.rd c rt)).ovf = true) ∧ bitAt (s.core c).ctrl 0 = false) ∧
    (∃ (c : CoreId) (rs : RegF) (rt : RegF) (s : Machine.State), Issues c s ∧ ((arithRemu (s.rd c rs) (s.rd c rt)).div = true ∨ (arithRemu (s.rd c rs) (s.rd c rt)).ovf = true) ∧ bitAt (s.core c).ctrl 0 = true) :=
  ⟨⟨.ccA, 0, 0, up, by unfold Issues; decide +kernel⟩,
   ⟨.ccA, 8, 9, (((up).wr .ccA 8 5).wr .ccA 9 0).setCore .ccA { (((up).wr .ccA 8 5).wr .ccA 9 0).core .ccA with ctrl := 1 }, by unfold Issues; decide +kernel⟩,
   ⟨.ccA, 0, 0, up, by unfold Issues; decide +kernel⟩,
   ⟨.ccA, 8, 9, (((up).wr .ccA 8 5).wr .ccA 9 0).setCore .ccA { (((up).wr .ccA 8 5).wr .ccA 9 0).core .ccA with ctrl := 1 }, by unfold Issues; decide +kernel⟩,
   ⟨.ccA, 0, 0, up, by unfold Issues; decide +kernel⟩,
   ⟨.ccA, 8, 9, (((up).wr .ccA 8 5).wr .ccA 9 0).setCore .ccA { (((up).wr .ccA 8 5).wr .ccA 9 0).core .ccA with ctrl := 1 }, by unfold Issues; decide +kernel⟩⟩
theorem witness_CoreArithmeticFaults_3 :
    (∃ (c : CoreId) (rs : RegF) (rt : RegF) (s : Machine.State), Issues c s ∧ ((arithSubv (s.rd c rs) (s.rd c rt)).div = true ∨ (arithSubv (s.rd c rs) (s.rd c rt)).ovf = true) ∧ bitAt (s.core c).ctrl 0 = false) ∧
    (∃ (c : CoreId) (rs : RegF) (rt : RegF) (s : Machine.State), Issues c s ∧ ((arithSubv (s.rd c rs) (s.rd c rt)).div = true ∨ (arithSubv (s.rd c rs) (s.rd c rt)).ovf = true) ∧ bitAt (s.core c).ctrl 0 = true) ∧
    (∃ (c : CoreId) (rs : RegF) (imm : BitVec 16) (s : Machine.State), Issues c s ∧ (arithAddv (s.rd c rs) (BitVec.signExtend 32 imm)).div = false ∧ (arithAddv (s.rd c rs) (BitVec.signExtend 32 imm)).ovf = false) ∧
    (∃ (c : CoreId) (rs : RegF) (rt : RegF) (s : Machine.State), Issues c s ∧ (arithAddv (s.rd c rs) (s.rd c rt)).div = false ∧ (arithAddv (s.rd c rs) (s.rd c rt)).ovf = false) ∧
    (∃ (c : CoreId) (rs : RegF) (rt : RegF) (s : Machine.State), Issues c s ∧ (arithDivs (s.rd c rs) (s.rd c rt)).div = false ∧ (arithDivs (s.rd c rs) (s.rd c rt)).ovf = false) ∧
    (∃ (c : CoreId) (rs : RegF) (rt : RegF) (s : Machine.State), Issues c s ∧ (arithDivu (s.rd c rs) (s.rd c rt)).div = false ∧ (arithDivu (s.rd c rs) (s.rd c rt)).ovf = false) :=
  ⟨⟨.ccA, 8, 9, ((up).wr .ccA 8 0x80000000).wr .ccA 9 1, by unfold Issues; decide +kernel⟩,
   ⟨.ccA, 8, 9, (((up).wr .ccA 8 0x80000000).wr .ccA 9 1).setCore .ccA { (((up).wr .ccA 8 0x80000000).wr .ccA 9 1).core .ccA with ctrl := 1 }, by unfold Issues; decide +kernel⟩,
   ⟨.ccA, 0, 0, up, by unfold Issues; decide +kernel⟩,
   ⟨.ccA, 0, 0, up, by unfold Issues; decide +kernel⟩,
   ⟨.ccA, 8, 9, ((up).wr .ccA 8 7).wr .ccA 9 2, by unfold Issues; decide +kernel⟩,
   ⟨.ccA, 8, 9, ((up).wr .ccA 8 7).wr .ccA 9 2, by unfold Issues; decide +kernel⟩⟩
theorem witness_CoreArithmeticFaults_4 :
    (∃ (c : CoreId) (rs : RegF) (rt : RegF) (s : Machine.State), Issues c s ∧ (arithRems (s.rd c rs) (s.rd c rt)).div = false ∧ (arithRems (s.rd c rs) (s.rd c rt)).ovf = false) ∧
    (∃ (c : CoreId) (rs : RegF) (rt : RegF) (s : Machine.State), Issues c s ∧ (arithRemu (s.rd c rs) (s.rd c rt)).div = false ∧ (arithRemu (s.rd c rs) (s.rd c rt)).ovf = false) ∧
    (∃ (c : CoreId) (rs : RegF) (rt : RegF) (s : Machine.State), Issues c s ∧ (arithSubv (s.rd c rs) (s.rd c rt)).div = false ∧ (arithSubv (s.rd c rs) (s.rd c rt)).ovf = false) ∧
    (∃ (a : Word) (b : Word), b ≠ 0 ∧ ¬(a = 2147483648 ∧ b = 4294967295)) :=
  ⟨⟨.ccA, 8, 9, ((up).wr .ccA 8 7).wr .ccA 9 2, by unfold Issues; decide +kernel⟩,
   ⟨.ccA, 8, 9, ((up).wr .ccA 8 7).wr .ccA 9 2, by unfold Issues; decide +kernel⟩,
   ⟨.ccA, 0, 0, up, by unfold Issues; decide +kernel⟩,
   ⟨7, 2, by decide +kernel⟩⟩
theorem witness_StepRunsFront : ∃ (s : Machine.State), s.pending = [] :=
  ⟨{ up with pending := [] }, by decide +kernel⟩
theorem witness_CoreSystem :
    (∃ (c : CoreId) (s : Machine.State), Issues c s ∧ (s.core c).arithFlags = 0) ∧
    (∃ (c : CoreId) (ws : List Word) (s : Machine.State) (t : Machine.State), Issues c s ∧ (s.core c).ring = 0 ∧ (s.core c).res ≤ c.frames - 2 ∧ loadWords c (BitVec.toNat (s.core c).spillp) 16 s = (Except.ok ws, t)) ∧
    (∃ (c : CoreId) (s : Machine.State) (t : Machine.State), Issues c s ∧ (s.core c).ring = 0 ∧ 3 ≤ (s.core c).res ∧ BitVec.toNat (s.core c).spilllim ≤ BitVec.toNat ((s.core c).spillp - 64) ∧ storeWords c (BitVec.toNat ((s.core c).spillp - 64)) ((s.core c).frame (Core.oldest c (s.core c))) s = (none, t)) ∧
    (∃ (c : CoreId) (s : Machine.State), Issues c s ∧ (s.core c).ring ≠ 0) :=
  ⟨⟨.ccA, up, by unfold Issues; decide +kernel⟩,
   ⟨.ccA, List.replicate 16 0, inSram, inSram, ⟨by decide +kernel, by decide +kernel, by decide +kernel, by decide +kernel, by decide +kernel⟩, by decide +kernel, by decide +kernel, rfl⟩,
   ⟨.ccA, (inSram.setCore .ccA { inSram.core .ccA with wstate := 0x00030002 }), (storeWords .ccA (BitVec.toNat (((inSram.setCore .ccA { inSram.core .ccA with wstate := 0x00030002 }).core .ccA).spillp - 64)) (((inSram.setCore .ccA { inSram.core .ccA with wstate := 0x00030002 }).core .ccA).frame (Core.oldest .ccA ((inSram.setCore .ccA { inSram.core .ccA with wstate := 0x00030002 }).core .ccA))) (inSram.setCore .ccA { inSram.core .ccA with wstate := 0x00030002 })).2, ⟨by decide +kernel, by decide +kernel, by decide +kernel, by decide +kernel, by decide +kernel⟩, by decide +kernel, by decide +kernel, by decide +kernel, pair_of (by decide +kernel)⟩,
   ⟨.ccA, inRing1 up, by unfold Issues; decide +kernel⟩⟩
theorem witness_TagFrames_1 :
    (∃ (s : Machine.State), copyPending s = none) ∧
    (∃ (s : Machine.State) (p : Nat) (sh : Nat) (sup : List Nat), copyPending s = some (p, sh) ∧ 8 ≤ sup.length ∧ ∀ (x : Nat), x ∈ sup → 2400 ≤ x) ∧
    (∃ (mv : Nat), mv < 1800) ∧
    (∃ (s : Machine.State) (mv : Nat), s.tag.field = false ∧ 1800 ≤ mv ∧ tagRun s = true) ∧
    (∃ (s : Machine.State), s.tag.field = true ∧ (s.tag.mode = TagMode.ready ∨ s.tag.mode = TagMode.active)) ∧
    (∃ (s : Machine.State) (off : Nat) (n : Nat), s.tag.field = true ∧ s.tag.mode = TagMode.active ∧ s.tag.session = none ∧ (∀ (k : Nat), s.tag.yEntry ≠ some (true, k)) ∧ off < 65536 ∧ 1 ≤ n ∧ n ≤ 48 ∧ off + n ≤ 8192) :=
  ⟨⟨up, by decide +kernel⟩,
   ⟨committed true, 0, 0, List.replicate 12 2400, by decide +kernel⟩,
   ⟨0, by decide +kernel⟩,
   ⟨{ up with tag.field := false }, 1800, by decide +kernel⟩,
   ⟨tagged, by decide +kernel⟩,
   (by refine ⟨tagged, 8144, 48, ?_, ?_, ?_, (fun _ h => by cases h), ?_⟩ <;> decide +kernel)⟩
theorem witness_TagFrames_2 :
    (∃ (s : Machine.State) (code : Nat), s.tag.field = true ∧ s.tag.mode = TagMode.active ∧ s.tag.session = none ∧ 2 < code ∧ code < 256) ∧
    (∃ (s : Machine.State) (c : Nat), s.tag.field = true ∧ s.tag.mode = TagMode.active ∧ s.tag.session = none ∧ 8 ≤ c ∧ c < 256) ∧
    (∃ (s : Machine.State) (block : Nat) (count : Nat), s.tag.field = true ∧ s.tag.mode = TagMode.active ∧ s.tag.session = none ∧ block < 65536 ∧ count < 256 ∧ (count = 0 ∨ 4 < count ∨ 768 < block + count)) ∧
    (∃ (s : Machine.State) (block : Nat) (count : Nat), s.tag.field = true ∧ s.tag.mode = TagMode.active ∧ s.tag.session = none ∧ block < 65536 ∧ count < 256 ∧ 1 ≤ count ∧ count ≤ 4 ∧ block + count ≤ 768 ∧ (block + count ≤ 256 ∨ tagConfig { s with tag := { s.tag with response := [], frames := satInc 16 s.tag.frames } } % 2 = 0)) ∧
    (∃ (s : Machine.State) (block : Nat) (count : Nat), s.tag.field = true ∧ s.tag.mode = TagMode.active ∧ s.tag.session = none ∧ block < 65536 ∧ count < 256 ∧ 1 ≤ count ∧ count ≤ 4 ∧ block + count ≤ 768 ∧ 256 < block + count ∧ tagConfig { s with tag := { s.tag with response := [], frames := satInc 16 s.tag.frames } } % 2 = 1) ∧
    (∃ (s : Machine.State) (c : Nat), s.tag.field = true ∧ s.tag.mode = TagMode.active ∧ s.tag.session = none ∧ c < 8 ∧ counterValue { s with tag := { s.tag with response := [], frames := satInc 16 s.tag.frames } } c = none) :=
  ⟨⟨tagged, 3, by decide +kernel⟩,
   ⟨tagged, 8, by decide +kernel⟩,
   ⟨tagged, 0, 0, by decide +kernel⟩,
   ⟨tagged, 252, 4, by decide +kernel⟩,
   ⟨tagged.writeBytes 6 (64 * 195) [1], 764, 4, by decide +kernel⟩,
   ⟨{ up with tag.field := true, tag.mode := TagMode.active, tag.session := none }, 0, by decide +kernel⟩⟩
theorem witness_TagFrames_3 :
    (∃ (s : Machine.State) (c : Nat) (v : Nat), s.tag.field = true ∧ s.tag.mode = TagMode.active ∧ s.tag.session = none ∧ c < 8 ∧ counterValue { s with tag := { s.tag with response := [], frames := satInc 16 s.tag.frames } } c = some v ∧ (counterCopy { s with tag := { s.tag with response := [], frames := satInc 16 s.tag.frames } } 192 c = some v ∧ counterCopy { s with tag := { s.tag with response := [], frames := satInc 16 s.tag.frames } } 193 c = some v ∨ 0 < s.tag.supply ∧ s.tag.supply < 2400)) ∧
    (∃ (s : Machine.State) (c : Nat) (v : Nat), s.tag.field = true ∧ s.tag.mode = TagMode.active ∧ s.tag.session = none ∧ c < 8 ∧ counterValue { s with tag := { s.tag with response := [], frames := satInc 16 s.tag.frames } } c = some v ∧ (counterCopy { s with tag := { s.tag with response := [], frames := satInc 16 s.tag.frames } } 192 c ≠ some v ∨ counterCopy { s with tag := { s.tag with response := [], frames := satInc 16 s.tag.frames } } 193 c ≠ some v) ∧ (s.tag.supply = 0 ∨ 2400 ≤ s.tag.supply)) ∧
    (∃ (s : Machine.State) (code : Nat), s.tag.field = true ∧ s.tag.mode = TagMode.active ∧ s.tag.session = none ∧ code ≤ 2) ∧
    (∃ (s : Machine.State) (count : Nat) (data : List Byte), s.tag.field = true ∧ s.tag.mode = TagMode.active ∧ s.tag.session = none ∧ data.length = 16 * (count % 256)) ∧
    (∃ (s : Machine.State) (frame : List Byte), s.tag.field = true ∧ s.tag.mode = TagMode.active ∧ s.tag.session = none ∧ frame.length = 64 ∧ tagRun s = false) ∧
    (∃ (s : Machine.State) (frame : List Byte), s.tag.field = true ∧ s.tag.mode = TagMode.active ∧ s.tag.session = none ∧ frame.length = 64 ∧ tagRun s = true ∧ cqeOpen { s with tag := { s.tag with response := [], frames := satInc 16 s.tag.frames } } = true ∧ 2 ≤ pseudoEnable { s with tag := { s.tag with response := [], frames := satInc 16 s.tag.frames } } ∧ s.tag.yEntry = none) :=
  ⟨⟨tagged, 0, 5, by decide +kernel⟩,
   ⟨(tagged.writeBytes 6 (64 * 193) (leBytes 8 (counterWord 4))), 0, 5, by decide +kernel⟩,
   ⟨{ up with tag.field := true, tag.mode := TagMode.active, tag.session := none }, 0, by decide +kernel⟩,
   ⟨{ up with tag.field := true, tag.mode := TagMode.active, tag.session := none }, 0, [], by decide +kernel⟩,
   ⟨{ tagged with power.mode := .steep }, leBytes 64 0, by decide +kernel⟩,
   ⟨tagged, leBytes 64 0, by decide +kernel⟩⟩
theorem witness_TagFrames_4 :
    (∃ (s : Machine.State) (frame : List Byte), s.tag.field = true ∧ s.tag.mode = TagMode.active ∧ s.tag.session = none ∧ frame.length = 64 ∧ tagRun s = true ∧ cqeOpen { s with tag := { s.tag with response := [], frames := satInc 16 s.tag.frames } } = true ∧ 2 ≤ pseudoEnable { s with tag := { s.tag with response := [], frames := satInc 16 s.tag.frames } } ∧ s.tag.yEntry.isSome = true) ∧
    (∃ (s : Machine.State), s.tag.field = true ∧ s.tag.mode = TagMode.active ∧ s.tag.session = none ∧ s.tag.lockout = true) ∧
    (∃ (s : Machine.State), s.tag.field = true ∧ s.tag.mode = TagMode.active ∧ s.tag.session = none ∧ s.tag.yDone = none ∧ ∀ (k : Nat), s.tag.yEntry ≠ some (true, k)) ∧
    (∃ (s : Machine.State) (b : List Byte) (k : Nat), s.tag.field = true ∧ s.tag.mode = TagMode.active ∧ s.tag.session = none ∧ s.tag.yEntry = some (false, k) ∧ s.tag.yDone = some b) ∧
    (∃ (s : Machine.State) (k : Nat), s.tag.field = true ∧ s.tag.mode = TagMode.active ∧ s.tag.session = none ∧ s.tag.yEntry = some (true, k)) ∧
    (∃ (s : Machine.State) (slot : Nat), s.tag.field = true ∧ s.tag.mode = TagMode.active ∧ s.tag.session = none ∧ slot < 4 ∧ s.tag.lockout = false) :=
  ⟨⟨{ tagged with tag.yEntry := some (false, 3) }, leBytes 64 0, by decide +kernel⟩,
   ⟨{ up with tag.field := true, tag.mode := TagMode.active, tag.session := none, tag.lockout := true }, by decide +kernel⟩,
   (by refine ⟨tagged, ?_, ?_, ?_, ?_, fun _ h => by cases h⟩ <;> decide +kernel),
   ⟨{ up with tag.field := true, tag.mode := TagMode.active, tag.session := none, tag.yEntry := some (false, (0)), tag.yDone := some ([]) }, [], 0, by decide +kernel⟩,
   ⟨{ up with tag.field := true, tag.mode := TagMode.active, tag.session := none, tag.yEntry := some (true, (0)) }, 0, by decide +kernel⟩,
   ⟨{ up with tag.field := true, tag.mode := TagMode.active, tag.session := none, tag.lockout := false }, 0, by decide +kernel⟩⟩
theorem witness_TagFrames_5 :
    (∃ (s : Machine.State) (token : List Byte), s.tag.field = true ∧ s.tag.mode = TagMode.active ∧ s.tag.session = none ∧ token.length = 32 ∧ s.tag.pendingT = none) ∧
    (∃ (s : Machine.State) (token : List Byte) (slot : Nat) (r : QWord), s.tag.field = true ∧ s.tag.mode = TagMode.active ∧ s.tag.session = none ∧ token.length = 32 ∧ s.tag.pendingT = some (slot, r) ∧ List.drop 16 token = aesBytes (tagKey s slot) (rotLeft (leBytes 16 (BitVec.toNat r)))) ∧
    ((aesBytes (tagKey { tagged with tag.pendingT := some (0, 5), power.mode := .steep } 0) (rotLeft (leBytes 16 (BitVec.toNat (5 : QWord)))) ≠ leBytes 16 0) → ∃ (s : Machine.State) (token : List Byte) (slot : Nat) (r : QWord), s.tag.field = true ∧ s.tag.mode = TagMode.active ∧ s.tag.session = none ∧ token.length = 32 ∧ s.tag.pendingT = some (slot, r) ∧ List.drop 16 token ≠ aesBytes (tagKey s slot) (rotLeft (leBytes 16 (BitVec.toNat r))) ∧ tagRun s = false) ∧
    (∃ (s : Machine.State) (sk : QWord) (ctr : Nat) (m : DWord) (c : Nat) (inc : Nat) (v : Nat) (sup : List Nat), s.tag.field = true ∧ s.tag.mode = TagMode.active ∧ s.tag.session = some (sk, ctr) ∧ (fun f => leBytes 8 (BitVec.toNat m) = frameMac sk ctr f) [115, BitVec.ofNat 8 c, BitVec.ofNat 8 inc] ∧ c < 8 ∧ 1 ≤ inc ∧ inc < 256 ∧ counterValue { s with tag := { s.tag with response := [], frames := satInc 16 s.tag.frames } } c = some v ∧ v + inc < 2 ^ 24 ∧ 3 ≤ sup.length ∧ ∀ (x : Nat), x ∈ sup → 2400 ≤ x) ∧
    (∃ (s : Machine.State) (sk : QWord) (ctr : Nat) (m : DWord) (sup : List Nat) (c : Nat) (inc : Nat) (v : Nat), s.tag.field = true ∧ s.tag.mode = TagMode.active ∧ s.tag.session = some (sk, ctr) ∧ (fun f => leBytes 8 (BitVec.toNat m) = frameMac sk ctr f) [115, BitVec.ofNat 8 c, BitVec.ofNat 8 inc] ∧ c < 8 ∧ 1 ≤ inc ∧ inc < 256 ∧ counterValue { s with tag := { s.tag with response := [], frames := satInc 16 s.tag.frames } } c = some v ∧ v + inc < 2 ^ 24 ∧ ∃ mv l, sup = mv :: l ∧ 1800 ≤ mv ∧ mv < 2400) ∧
    (∃ (s : Machine.State) (sk : QWord) (ctr : Nat) (m : DWord) (block : Nat) (count : Nat) (data : List Byte) (sup : List Nat), s.tag.field = true ∧ s.tag.mode = TagMode.active ∧ s.tag.session = some (sk, ctr) ∧ data.length = 16 * count ∧ (fun f => leBytes 8 (BitVec.toNat m) = frameMac sk ctr f) (114 :: (leBytes 2 block ++ leBytes 1 count ++ data)) ∧ 1 ≤ count ∧ count ≤ 4 ∧ block / 4 = (block + count - 1) / 4 ∧ 256 ≤ block ∧ block ≤ 767 ∧ copyPending { s with tag := { s.tag with response := [], frames := satInc 16 s.tag.frames } } = none ∧ 10 ≤ sup.length ∧ ∀ (x : Nat), x ∈ sup → 2400 ≤ x) :=
  ⟨⟨tagged, leBytes 32 0, by decide +kernel⟩,
   (by refine ⟨{ tagged with tag.pendingT := some (0, 5) }, leBytes 16 0 ++ aesBytes (tagKey { tagged with tag.pendingT := some (0, 5) } 0) (rotLeft (leBytes 16 (BitVec.toNat (5 : QWord)))), 0, 5, ?_, ?_, ?_, rfl, ?_, rfl⟩ <;> decide +kernel),
   (by intro h; refine ⟨{ tagged with tag.pendingT := some (0, 5), power.mode := .steep }, leBytes 32 0, 0, 5, ?_, ?_, ?_, ?_, ?_, (fun e => h e.symm), ?_⟩ <;> decide +kernel),
   (by refine ⟨{ tagged with tag.session := some (1, 0) }, 1, 0, macOf 1 0 [115, BitVec.ofNat 8 0, BitVec.ofNat 8 1], 0, 1, 5, List.replicate 12 2400, ?_, ?_, ?_, le8_of _, ?_⟩ <;> decide +kernel),
   (by refine ⟨{ tagged with tag.session := some (1, 0) }, 1, 0, macOf 1 0 [115, BitVec.ofNat 8 0, BitVec.ofNat 8 1], [1800], 0, 1, 5, ?_, ?_, ?_, le8_of _, ?_, ?_, ?_, ?_, ?_, ⟨1800, [], by decide +kernel⟩⟩ <;> decide +kernel),
   (by refine ⟨{ tagged with tag.session := some (1, 0) }, 1, 0, macOf 1 0 (114 :: (leBytes 2 256 ++ leBytes 1 1 ++ leBytes 16 0)), 256, 1, leBytes 16 0, List.replicate 12 2400, ?_, ?_, ?_, ?_, le8_of _, ?_⟩ <;> decide +kernel)⟩
theorem witness_TagFrames_6 :
    ((leBytes 8 5 ≠ frameMac 1 0 [125]) → ∃ (s : Machine.State) (sk : QWord) (ctr : Nat) (m : DWord), s.tag.field = true ∧ s.tag.mode = TagMode.active ∧ s.tag.session = some (sk, ctr) ∧ ¬(fun f => leBytes 8 (BitVec.toNat m) = frameMac sk ctr f) [125]) ∧
    (∃ (s : Machine.State), s.tag.field = true ∧ s.tag.mode = TagMode.halt) ∧
    (∃ (s : Machine.State), s.tag.field = true ∧ s.tag.mode = TagMode.idle ∧ s.tag.quiet = false) ∧
    (∃ (s : Machine.State), s.tag.field = true ∧ s.tag.mode = TagMode.idle ∧ s.tag.quiet = true) ∧
    (∃ (s : Machine.State) (uid : List Byte), s.tag.field = true ∧ s.tag.mode = TagMode.ready ∧ uid ≠ tagUid) :=
  ⟨(fun h => ⟨{ tagged with tag.session := some (1, 0) }, 1, 0, 5, by decide +kernel, by decide +kernel, by decide +kernel, h⟩),
   ⟨{ up with tag.field := true, tag.mode := TagMode.halt }, by decide +kernel⟩,
   ⟨{ up with tag.field := true, tag.mode := TagMode.idle, tag.quiet := false }, by decide +kernel⟩,
   ⟨{ up with tag.field := true, tag.mode := TagMode.idle, tag.quiet := true }, by decide +kernel⟩,
   ⟨{ up with tag.field := true, tag.mode := TagMode.ready }, [], by decide +kernel⟩⟩
theorem witness_PortDoorbells_1 :
    (∃ (p : Fin 2) (q : Fin 64) (stores : List HostStore) (s : Machine.State), portAlive s ↑p = true ∧ (tlpArrives (↑p) (List.foldl (fun u x => u.writeBytes (4 + ↑p) x.addr x.bytes) s stores)).queue (64 * ↑p + ↑q) = none) ∧
    (∃ (p : Fin 2) (q : Fin 64) (v : Word) (stores : List HostStore) (s : Machine.State) (x : Queue), portAlive s ↑p = true ∧ (tlpArrives (↑p) (List.foldl (fun u x => u.writeBytes (4 + ↑p) x.addr x.bytes) s stores)).queue (64 * ↑p + ↑q) = some x ∧ BitVec.toNat v < x.sqEntries) ∧
    (∃ (p : Fin 2) (q : Fin 64) (v : Word) (stores : List HostStore) (s : Machine.State) (x : Queue), portAlive s ↑p = true ∧ (tlpArrives (↑p) (List.foldl (fun u x => u.writeBytes (4 + ↑p) x.addr x.bytes) s stores)).queue (64 * ↑p + ↑q) = some x ∧ x.sqEntries ≤ BitVec.toNat v) ∧
    (∃ (p : Fin 2) (q : Fin 64) (s : Machine.State), portAlive s ↑p = true ∧ (tlpArrives (↑p) s).queue (64 * ↑p + ↑q) = none) ∧
    (∃ (p : Fin 2) (q : Fin 64) (v : Word) (s : Machine.State) (x : Queue), portAlive s ↑p = true ∧ (tlpArrives (↑p) s).queue (64 * ↑p + ↑q) = some x ∧ BitVec.toNat v < x.cqEntries ∧ x.cqHead < x.cqEntries) ∧
    (∃ (p : Fin 2) (q : Fin 64) (v : Word) (s : Machine.State) (x : Queue), portAlive s ↑p = true ∧ (tlpArrives (↑p) s).queue (64 * ↑p + ↑q) = some x ∧ x.cqEntries ≤ BitVec.toNat v) :=
  ⟨⟨0, 1, [], up, by decide +kernel⟩,
   ⟨0, 0, 15, [], up, queueOf 0 0x10000 0x20000 true, by decide +kernel⟩,
   ⟨0, 0, 16, [], up, queueOf 0 0x10000 0x20000 true, by decide +kernel⟩,
   ⟨0, 1, up, by decide +kernel⟩,
   ⟨0, 0, 1, up, queueOf 0 0x10000 0x20000 true, by decide +kernel⟩,
   ⟨0, 0, 16, up, queueOf 0 0x10000 0x20000 true, by decide +kernel⟩⟩
theorem witness_PortDoorbells_2 : ∃ (p : Fin 2) (s : Machine.State), portAlive s ↑p = true ∧ s.power.mode = PowerMode.run :=
  ⟨0, { up with power.mode := PowerMode.run }, by decide +kernel⟩
theorem witness_FlashCommands_1 :
    (∃ (b : Fin 4) (sec : Nat) (s : Machine.State), (s.bank ↑b).run = some (FlashRun.erase sec) ∧ (s.bank ↑b).pendingSuspend = false) ∧
    (∃ (b : Fin 4) (sec : Nat) (s : Machine.State), (s.bank ↑b).run = some (FlashRun.erase sec) ∧ (s.bank ↑b).pendingSuspend = true) ∧
    (∃ (b : Fin 4) (addr : Nat) (sec : Nat) (s : Machine.State) (x : Nat), addr < 2 ^ 24 ∧ addr % 8 = 0 ∧ sec < 4096 ∧ (s.bank ↑b).run = none ∧ (s.bank ↑b).suspended = some x) ∧
    (∃ (b : Fin 4) (addr : Nat) (sec : Nat) (s : Machine.State), addr < 2 ^ 24 ∧ addr % 8 = 0 ∧ sec < 4096 ∧ (s.bank ↑b).run = none ∧ flashWrites s = false) ∧
    (∃ (b : Fin 4) (addr : Nat) (sec : Nat) (s : Machine.State), addr < 2 ^ 24 ∧ addr % 8 = 0 ∧ sec < 4096 ∧ (s.bank ↑b).run = none ∧ flashWrites s = true ∧ (addr / 4096 ∈ (s.bank ↑b).torn ∨ addr / 4096 ∈ (s.bank ↑b).started ∧ (s.bank ↑b).suspended ≠ some (addr / 4096))) ∧
    (∃ (b : Fin 4) (addr : Nat) (sec : Nat) (s : Machine.State), addr < 2 ^ 24 ∧ addr % 8 = 0 ∧ sec < 4096 ∧ (s.bank ↑b).run = none ∧ flashWrites s = true ∧ (s.bank ↑b).suspended = none ∧ sectorProtected (s.bank ↑b) sec = false ∧ (assocGet sec (s.bank ↑b).counts).getD 0 + 1 ≠ 100000) :=
  ⟨⟨0, 0, { up with flash.banks := List.replicate 4 { FlashBank.reset 0 with run := some (FlashRun.erase (0)), pendingSuspend := false } }, by decide +kernel⟩,
   ⟨0, 0, { up with flash.banks := List.replicate 4 { FlashBank.reset 0 with run := some (FlashRun.erase (0)), pendingSuspend := true } }, by decide +kernel⟩,
   ⟨0, 0, 0, { up with flash.banks := List.replicate 4 { FlashBank.reset 0 with run := none, suspended := some (0) } }, 0, by decide +kernel⟩,
   ⟨0, 0, 0, { up with flash.banks := List.replicate 4 (FlashBank.reset 0), regs := [(flashBase + 8, 0)] }, by decide +kernel⟩,
   ⟨0, 0, 0, { up with flash.banks := List.replicate 4 { FlashBank.reset 0 with torn := [0] } }, by decide +kernel⟩,
   ⟨0, 0, 0, { up with flash.banks := List.replicate 4 { FlashBank.reset 0 with run := none, suspended := none } }, by decide +kernel⟩⟩
theorem witness_FlashCommands_2 :
    (∃ (b : Fin 4) (addr : Nat) (sec : Nat) (s : Machine.State), addr < 2 ^ 24 ∧ addr % 8 = 0 ∧ sec < 4096 ∧ (s.bank ↑b).run = none ∧ flashWrites s = true ∧ (s.bank ↑b).suspended = none ∧ sectorProtected (s.bank ↑b) sec = true) ∧
    (∃ (b : Fin 4) (addr : Nat) (sec : Nat) (s : Machine.State), addr < 2 ^ 24 ∧ addr % 8 = 0 ∧ sec < 4096 ∧ (s.bank ↑b).run = none ∧ flashWrites s = true ∧ ¬addr / 4096 ∈ (s.bank ↑b).torn ∧ ¬addr / 4096 ∈ (s.bank ↑b).started ∧ (s.bank ↑b).suspended ≠ some (addr / 4096) ∧ sectorProtected (s.bank ↑b) (addr / 4096) = false ∧ wordErased s (↑b) (addr / 8) = true) ∧
    (∃ (b : Fin 4) (addr : Nat) (sec : Nat) (s : Machine.State), addr < 2 ^ 24 ∧ addr % 8 = 0 ∧ sec < 4096 ∧ (s.bank ↑b).run = none ∧ flashWrites s = true ∧ ¬addr / 4096 ∈ (s.bank ↑b).torn ∧ ¬addr / 4096 ∈ (s.bank ↑b).started ∧ (s.bank ↑b).suspended ≠ some (addr / 4096) ∧ sectorProtected (s.bank ↑b) (addr / 4096) = true) ∧
    (∃ (g : Nat) (s : Machine.State), g < 64 ∧ flashWrites s = true ∧ (s.bank (g / 16)).run = none ∧ (s.bank (g / 16)).suspended = none ∧ s.flash.unlocked = false) ∧
    (∃ (g : Nat) (s : Machine.State), g < 64 ∧ flashWrites s = true ∧ (s.bank (g / 16)).run = none ∧ (s.bank (g / 16)).suspended = none ∧ s.flash.unlocked = true) :=
  ⟨⟨0, 0, 0, { up with flash.banks := List.replicate 4 (FlashBank.reset 0xFFFF) }, by decide +kernel⟩,
   ⟨0, 0, 0, { up with flash.banks := List.replicate 4 { FlashBank.reset 0 with run := none } }, by decide +kernel⟩,
   ⟨0, 0, 0, { up with flash.banks := List.replicate 4 (FlashBank.reset 0xFFFF) }, by decide +kernel⟩,
   ⟨0, { up with flash.unlocked := false }, by decide +kernel⟩,
   ⟨0, { up with flash.unlocked := true }, by decide +kernel⟩⟩
theorem witness_PairControl_1 :
    (∃ (s : Machine.State), pairHears s = true ∧ castlingRuns s = false) ∧
    (∃ (s : Machine.State), pairHears s = true ∧ castlingRuns s = true) ∧
    (∃ (s : Machine.State) (r : PrefRecord) (q : PrefRecord), pairHears s = true ∧ s.nvm.preferred = some q ∧ r.epoch < q.epoch) ∧
    (∃ (s : Machine.State), pairHears s = true ∧ s.pair.role = Role.active) ∧
    (∃ (s : Machine.State) (i : SyncImage), pairHears s = true ∧ s.pair.role = Role.syncing ∧ (i.crCapsule.bind (openCapsule s) = none ∨ crPresent s = true ∨ takesCr s = false) ∧ (i.crCheck = s.nvm.crCheck ∧ s.nvm.pairTag = some i.pairTag) ∧ 100 ≤ i.progress ∧ i.later = []) ∧
    (∃ (s : Machine.State) (i : SyncImage), pairHears s = true ∧ s.pair.role = Role.syncing ∧ (i.crCapsule.bind (openCapsule s) = none ∨ crPresent s = true ∨ takesCr s = false) ∧ (i.crCheck = s.nvm.crCheck ∧ s.nvm.pairTag = some i.pairTag) ∧ i.progress < 100) :=
  ⟨⟨paired, by decide +kernel⟩,
   ⟨{ paired with pair.castling := .fault }, by decide +kernel⟩,
   ⟨{ paired with nvm.preferred := some ⟨0, 1⟩ }, ⟨0, 0⟩, ⟨0, 1⟩, by decide +kernel⟩,
   ⟨paired, by decide +kernel⟩,
   ⟨{ paired with pair.role := .syncing, nvm.pairTag := some 0 }, syncImage, by decide +kernel⟩,
   ⟨{ paired with pair.role := .syncing, nvm.pairTag := some 0 }, { syncImage with progress := 50 }, by decide +kernel⟩⟩
theorem witness_PairControl_2 :
    (∃ (s : Machine.State) (i : SyncImage), pairHears s = true ∧ s.pair.role = Role.syncing ∧ (i.crCapsule.bind (openCapsule s) = none ∨ crPresent s = true ∨ takesCr s = false) ∧ ¬(i.crCheck = s.nvm.crCheck ∧ s.nvm.pairTag = some i.pairTag)) ∧
    ((openCapsule ({ paired with pair.role := .syncing, nvm.lifecycle := .blank, cqe.inflight := [{ waiting with op := 0x0604, wait := .running }] }) [] = some 5) → ∃ (s : Machine.State) (i : SyncImage) (cr : Hash), pairHears s = true ∧ s.pair.role = Role.syncing ∧ i.crCapsule.bind (openCapsule s) = some cr ∧ crPresent s = false ∧ takesCr s = true ∧ (s.lifecycle = Lifecycle.blank ∨ checkValue cr = s.nvm.crCheck) ∧ i.crCheck = checkValue cr ∧ (s.nvm.pairTag = none ∨ s.nvm.pairTag = some i.pairTag) ∧ i.progress < 100) ∧
    (∃ (s : Machine.State), pairHears s = true ∧ s.pair.role ≠ Role.active) ∧
    (∃ (s : Machine.State), pairHears s = true ∧ s.pair.role ≠ Role.syncing) ∧
    (∃ (s : Machine.State), pairHears s = true ∧ s.power.mode = PowerMode.run ∧ 0 < s.journal.next) ∧
    (∃ (s : Machine.State), pairHears s = true ∧ takeoverOk s = false) :=
  ⟨⟨{ paired with pair.role := .syncing, nvm.pairTag := some 0 }, { syncImage with pairTag := 5 }, by decide +kernel⟩,
   (by intro h; refine ⟨{ paired with pair.role := .syncing, nvm.lifecycle := .blank, cqe.inflight := [{ waiting with op := 0x0604, wait := .running }] }, { syncImage with crCapsule := some [], crCheck := checkValue 5, progress := 50 }, 5, ?_, ?_, h, ?_, ?_, .inl (by decide +kernel), rfl, .inl (by decide +kernel), ?_⟩ <;> decide +kernel),
   ⟨{ paired with pair.role := .syncing }, by decide +kernel⟩,
   ⟨paired, by decide +kernel⟩,
   ⟨{ paired with journal.next := 1 }, by decide +kernel⟩,
   ⟨paired, by decide +kernel⟩⟩
theorem witness_PairControl_3 :
    (∃ (s : Machine.State), pairHears s = true ∧ takeoverOk s = true ∧ s.power.mode = PowerMode.run ∧ s.pair.castling = Castling.none) ∧
    (∃ (s : Machine.State) (r : PrefRecord), pairHears s = true ∧ ∀ (q : PrefRecord), s.nvm.preferred = some q → q.epoch ≤ r.epoch) :=
  ⟨⟨{ paired with pair.role := .standby, pair.word := some 0x11000001 }, by decide +kernel⟩,
   ⟨paired, ⟨0, 0⟩, by decide +kernel, by intro _ h; cases h⟩⟩
theorem witness_PortBusEvents_1 :
    (∃ (p : Fin 2) (s : Machine.State), (s.port ↑p).enabled = false) ∧
    (∃ (p : Fin 2) (s : Machine.State), (s.port ↑p).enabled = true) ∧
    (∃ (p : Fin 2) (s : Machine.State), (s.port ↑p).linkUp = true ∧ (s.port ↑p).aspmL1 = true ∧ bitAt (s.reg (hostpBase ↑p + 8) 2) 1 = true ∧ portIdle s ↑p = true) ∧
    (∃ (p : Fin 2) (s : Machine.State), ideRequired s ↑p = false) ∧
    (∃ (p : Fin 2) (s : Machine.State), ideRequired s ↑p = true) ∧
    (∃ (p : Fin 2) (s : Machine.State), linkOpen s ↑p = true ∧ s.power.mode = PowerMode.run) :=
  ⟨⟨0, { up with port0.enabled := false }, by decide +kernel⟩,
   ⟨0, { up with port0.enabled := true }, by decide +kernel⟩,
   ⟨0, { up with port0.cfg := [(4, 6), (0x80, 2)] }, by decide +kernel⟩,
   ⟨0, up, by decide +kernel⟩,
   ⟨0, { up with regs := [(hostpBase 0 + 8, 3)] }, by decide +kernel⟩,
   ⟨0, { up with power.mode := PowerMode.run }, by decide +kernel⟩⟩
theorem witness_PortBusEvents_2 :
    (∃ (q : Nat) (tag : BitVec 16) (c : Inflight) (s : Machine.State), q < 128 ∧ List.find? (fun c => c.src == Source.queue q && c.entry.tag == tag) s.cqe.inflight = some c) ∧
    (∃ (p : Fin 2) (s : Machine.State) (q : Queue), q ∈ (flrPort (↑p) s).cqe.queues) ∧
    (∃ (p : Fin 2) (speed : Nat) (s : Machine.State), s.isFenced 3 ↑p = false ∧ (s.port ↑p).linkUp = false ∧ s.power.supply = Supply.running ∧ s.power.mode = PowerMode.run ∧ portClock s ↑p = true ∧ 1 ≤ speed) :=
  ⟨⟨5, 3, waiting, { up with cqe.inflight := [waiting] }, by decide +kernel⟩,
   ⟨1, up, queueOf 0 0x10000 0x20000 true, by decide +kernel⟩,
   ⟨1, 5, { up with port0.linkUp := false, power.supply := Supply.running, power.mode := PowerMode.run }, by decide +kernel⟩⟩
theorem witness_RegisterWrites_1 :
    (∃ (p : Nat) (o : Nat) (n : Nat) (s : Machine.State), (p < 2 ∧ portAlive s p = true) ∧ n = 4 ∧ o % 4 = 0) ∧
    (∃ (p : Nat) (o : Nat) (n : Nat) (s : Machine.State), (p < 2 ∧ portAlive s p = true) ∧ n = 8 ∧ o % 8 = 0) ∧
    (∃ (p : Nat) (o : Nat) (n : Nat) (s : Machine.State), (p < 2 ∧ portAlive s p = true) ∧ ¬(n = 4 ∧ o % 4 = 0 ∨ n = 8 ∧ o % 8 = 0)) ∧
    (∃ (p : Nat) (s : Machine.State), 2 ≤ p ∨ linkOpen s p = false) ∧
    (∃ (c : CoreId) (a : Nat) (n : Nat) (s : Machine.State), a < 2 ^ 32 ∧ (coreOn s c = false ∨ ¬(n = 1 ∨ n = 2 ∨ n = 4))) ∧
    (∃ (c : CoreId) (a : Nat) (n : Nat) (s : Machine.State), a < 2 ^ 32 ∧ coreOn s c = true ∧ (n = 1 ∨ n = 2 ∨ n = 4) ∧ a % n = 0 ∧ mpuCheck s c (s.core c).ring 1 a = none ∧ (regionOf c a = Region.rom ∨ regionOf c a = Region.hole) ∧ ringZeroOnly c a = false) :=
  ⟨⟨0, 0, 4, up, by decide +kernel⟩,
   ⟨0, 0, 8, up, by decide +kernel⟩,
   ⟨0, 0, 0, up, by decide +kernel⟩,
   ⟨2, up, by decide +kernel⟩,
   ⟨.ccA, 0, 0, up, by decide +kernel⟩,
   ⟨.ccA, 0, 1, up, by decide +kernel⟩⟩
theorem witness_RegisterWrites_2 :
    (∃ (c : CoreId) (a : Nat) (n : Nat) (s : Machine.State) (sp : Nat), a < 2 ^ 32 ∧ coreOn s c = true ∧ (n = 1 ∨ n = 2 ∨ n = 4) ∧ a % n = 0 ∧ mpuCheck s c (s.core c).ring 1 a = none ∧ regionOf c a = Region.sram sp ∧ (sp = 0 → sramBad s a = false)) ∧
    (∃ (c : CoreId) (a : Nat) (n : Nat) (d : Nat) (s : Machine.State), a < 2 ^ 32 ∧ coreOn s c = true ∧ (n = 1 ∨ n = 2 ∨ n = 4) ∧ a % n = 0 ∧ mpuCheck s c (s.core c).ring 1 a = some d) ∧
    (∃ (c : CoreId) (a : Nat) (n : Nat) (s : Machine.State), a < 2 ^ 32 ∧ coreOn s c = true ∧ (n = 1 ∨ n = 2 ∨ n = 4) ∧ a % n ≠ 0) ∧
    (∃ (c : CoreId) (blk : Nat) (o : Nat) (v : Word) (r : RegSpec) (s : Machine.State), coreOn s c = true ∧ mpuCheck s c (s.core c).ring 1 (1073741824 + 65536 * blk + o) = none ∧ blk ≤ 22 ∧ o < 65536 ∧ o % 4 = 0 ∧ regSpec blk o = some r ∧ (c = CoreId.mgt ∧ ((blk = 0 ∨ 18 ≤ blk ∧ blk ≤ 21) ∨ blk = 22) ∨ c ≠ CoreId.mgt ∧ ¬(blk = 0 ∨ 18 ≤ blk ∧ blk ≤ 21) ∧ (s.core c).ring = 0) ∧ heldOff blk o v s = false ∧ r.bad v = false) ∧
    (∃ (c : CoreId) (blk : Nat) (o : Nat) (v : Word) (r : RegSpec) (s : Machine.State), coreOn s c = true ∧ mpuCheck s c (s.core c).ring 1 (1073741824 + 65536 * blk + o) = none ∧ blk ≤ 22 ∧ o < 65536 ∧ o % 4 = 0 ∧ regSpec blk o = some r ∧ (c = CoreId.mgt ∧ ((blk = 0 ∨ 18 ≤ blk ∧ blk ≤ 21) ∨ blk = 22) ∨ c ≠ CoreId.mgt ∧ ¬(blk = 0 ∨ 18 ≤ blk ∧ blk ≤ 21) ∧ (s.core c).ring = 0) ∧ heldOff blk o v s = false ∧ r.bad v = true) ∧
    (∃ (c : CoreId) (blk : Nat) (o : Nat) (v : Word) (r : RegSpec) (s : Machine.State), coreOn s c = true ∧ mpuCheck s c (s.core c).ring 1 (1073741824 + 65536 * blk + o) = none ∧ blk ≤ 22 ∧ o < 65536 ∧ o % 4 = 0 ∧ regSpec blk o = some r ∧ (c = CoreId.mgt ∧ ((blk = 0 ∨ 18 ≤ blk ∧ blk ≤ 21) ∨ blk = 22) ∨ c ≠ CoreId.mgt ∧ ¬(blk = 0 ∨ 18 ≤ blk ∧ blk ≤ 21) ∧ (s.core c).ring = 0) ∧ heldOff blk o v s = true) :=
  ⟨⟨.ccA, 0x10000000, 1, up, 0, by decide +kernel⟩,
   (by refine ⟨.ccA, 0x10000000, 1, (mpuCheck (up.setCore .ccA { up.core .ccA with status := 1 }) .ccA 1 1 0x10000000).get (by decide +kernel), (up.setCore .ccA { up.core .ccA with status := 1 }), ?_, ?_, ?_, ?_, some_of _⟩ <;> decide +kernel),
   ⟨.ccA, 1, 2, up, by decide +kernel⟩,
   (by refine ⟨.ccA, 5, 8, 1, (regSpec 5 8).get (by decide +kernel), up, ?_, ?_, ?_, ?_, ?_, (Option.some_get (by decide +kernel)).symm, ?_, ?_, ?_⟩ <;> decide +kernel),
   (by refine ⟨.mgt, 0, 16, 0x30, (regSpec 0 16).get (by decide +kernel), up, ?_, ?_, ?_, ?_, ?_, (Option.some_get (by decide +kernel)).symm, ?_, ?_, ?_⟩ <;> decide +kernel),
   (by refine ⟨.ccA, 6, 20, 1, (regSpec 6 20).get (by decide +kernel), { up with ktab.busy := true }, ?_, ?_, ?_, ?_, ?_, (Option.some_get (by decide +kernel)).symm, ?_, ?_⟩ <;> decide +kernel)⟩
theorem witness_RegisterWrites_3 :
    (∃ (c : CoreId) (blk : Nat) (o : Nat) (r : RegSpec) (s : Machine.State), coreOn s c = true ∧ mpuCheck s c (s.core c).ring 1 (1073741824 + 65536 * blk + o) = none ∧ blk ≤ 22 ∧ o < 65536 ∧ o % 4 = 0 ∧ regSpec blk o = some r ∧ c ≠ CoreId.mgt ∧ ((blk = 0 ∨ 18 ≤ blk ∧ blk ≤ 21) ∨ (s.core c).ring ≠ 0)) ∧
    (∃ (p : Nat) (s : Machine.State), p < 2 ∧ linkOpen s p = true ∧ (tlpArrives p s).power.booted = false) ∧
    (∃ (p : Nat) (o : Nat) (n : Nat) (s : Machine.State), p < 2 ∧ linkOpen s p = true ∧ (tlpArrives p s).power.booted = true ∧ n = 4 ∧ o % 4 = 0) ∧
    (∃ (p : Nat) (s : Machine.State), p < 2 ∧ portAlive s p = true) ∧
    (∃ (s : Machine.State), s.power.mode = PowerMode.run) ∧
    (∃ (p : Nat) (s : Machine.State), ¬(p < 2 ∧ portAlive s p = true)) :=
  ⟨(by refine ⟨.ccA, 18, 72, (regSpec 18 72).get (by decide +kernel), up, ?_, ?_, ?_, ?_, ?_, (Option.some_get (by decide +kernel)).symm, ?_, ?_⟩ <;> decide +kernel),
   ⟨0, { up with power.booted := false }, by decide +kernel⟩,
   ⟨0, 0, 4, up, by decide +kernel⟩,
   ⟨0, up, by decide +kernel⟩,
   ⟨{ up with power.mode := PowerMode.run }, by decide +kernel⟩,
   ⟨2, up, by decide +kernel⟩⟩
theorem witness_EntryRefused_1 :
    (∃ (op : BitVec 16) (e : Entry) (x : Word), crc32c (List.take 60 (entryBytes op e)) = e.crc ∧ e.seq = x) ∧
    (∃ (op : BitVec 16) (e : Entry) (x : Word), crc32c (List.take 60 (entryBytes op e)) = e.crc ∧ e.seq ≠ x) ∧
    (∃ (op : BitVec 16) (e : Entry), crc32c (List.take 60 (entryBytes op e)) ≠ e.crc) ∧
    (∃ (c : Inflight) (auth : Bool) (r : Result) (s : Machine.State), firstChecks (without c s) c.op c.src c.entry auth = none ∧ stateChecks c.op.toNat c.src c.entry c.key s = Except.error r) ∧
    (∃ (c : Inflight) (auth : Bool) (r : Result) (s : Machine.State), firstChecks (without c s) c.op c.src c.entry auth = some r ∧ r.status ≠ 8193 ∧ r.status ≠ 12296) ∧
    (∃ (op : BitVec 16), opRow op = none) :=
  ⟨⟨1, entryFor 1 3 0 [] 0 0, 0, entryFor_crc .., rfl⟩,
   ⟨1, entryFor 1 3 0 [] 0 0, 1, entryFor_crc .., by decide +kernel⟩,
   ⟨1, { entryFor 1 3 0 [] 0 0 with tag := 4 }, by decide +kernel⟩,
   ⟨{ waiting with src := .queue 5, op := 0x0102, wait := .start, entry := entryFor 0x0102 3 0 [] 0 0 }, false, answer 0x4004 [], { up with nvm.lifecycle := .keyless }, by decide +kernel, rfl⟩,
   ⟨{ waiting with src := .queue 5, op := 0x0102, wait := .start, entry := entryFor 0x0102 0xFFFF 0 [] 0 0 }, false, invalidField 4, up, by decide +kernel⟩,
   ⟨0, by decide +kernel⟩⟩
theorem witness_EntryRefused_2 :
    (∃ (op : BitVec 16) (src : Source) (e : Entry) (auth : Bool) (r : OpRow) (s : Machine.State), opRow op = some r ∧ s.power.safe = false ∧ transportRefusal op r auth src = none ∧ reservedOffset (setTimeGranted s e) op src e = none ∧ (e.tag = 65535 ∨ tagInUse s src e.tag = true)) ∧
    (∃ (op : BitVec 16) (src : Source) (e : Entry) (auth : Bool) (r : OpRow) (s : Machine.State), opRow op = some r ∧ s.power.safe = false ∧ transportRefusal op r auth src = none ∧ reservedOffset (setTimeGranted s e) op src e = none ∧ e.tag ≠ 65535 ∧ tagInUse s src e.tag = false ∧ wrongQueue s op src e = false ∧ (e.durable = true → s.clock.valid = true ∨ op = 4) ∧ e.durable = true ∧ tailFull s.journal = true) ∧
    (∃ (op : BitVec 16) (src : Source) (e : Entry) (auth : Bool) (r : OpRow) (s : Machine.State), opRow op = some r ∧ s.power.safe = false ∧ transportRefusal op r auth src = none ∧ reservedOffset (setTimeGranted s e) op src e = none ∧ e.tag ≠ 65535 ∧ tagInUse s src e.tag = false ∧ wrongQueue s op src e = false ∧ e.durable = true ∧ s.clock.valid = false ∧ op ≠ 4) ∧
    (∃ (op : BitVec 16) (src : Source) (e : Entry) (auth : Bool) (r : OpRow) (s : Machine.State), opRow op = some r ∧ s.power.safe = false ∧ transportRefusal op r auth src = none ∧ reservedOffset (setTimeGranted s e) op src e = none ∧ e.tag ≠ 65535 ∧ tagInUse s src e.tag = false ∧ wrongQueue s op src e = true) ∧
    (∃ (op : BitVec 16) (src : Source) (e : Entry) (auth : Bool) (r : OpRow) (s : Machine.State) (off : Nat), opRow op = some r ∧ s.power.safe = false ∧ transportRefusal op r auth src = none ∧ reservedOffset (setTimeGranted s e) op src e = some off) ∧
    (∃ (op : BitVec 16) (src : Source) (auth : Bool) (r : OpRow) (s : Machine.State) (n : Nat), opRow op = some r ∧ s.power.safe = false ∧ transportRefusal op r auth src = some n) :=
  ⟨⟨1, .queue 0, entryFor 1 0xFFFF 0 [] 0 0, false, (opRow (1)).get (by decide +kernel), { up with power.safe := false }, (Option.some_get _).symm, by decide +kernel⟩,
   (by refine ⟨1, .queue 0, { entryFor 1 3 0 [] 0 0 with flags := 1 }, false, (opRow (1)).get (by decide +kernel), { up with power.safe := false, journal := fullTail 16535720 }, (Option.some_get _).symm, ?_, ?_, ?_, ?_, ?_, ?_, ?_, ?_, tailFull_of _ (by decide) (by decide)⟩ <;> decide +kernel),
   ⟨1, .queue 0, { entryFor 1 3 0 [] 0 0 with flags := 1 }, false, (opRow (1)).get (by decide +kernel), { up with power.safe := false, clock.valid := false }, (Option.some_get _).symm, by decide +kernel⟩,
   ⟨0x0202, .queue 0, entryFor 0x0202 3 1 [(8, 64)] 0x100000 0x200000, false, (opRow (0x0202)).get (by decide +kernel), { up with power.safe := false, lanes.streams := [streamOf true] }, (Option.some_get _).symm, by decide +kernel⟩,
   ⟨1, .queue 0, entryFor 1 3 0 [(8, 1)] 0 0, false, (opRow (1)).get (by decide +kernel), { up with power.safe := false }, (reservedOffset (setTimeGranted ({ up with power.safe := false }) (entryFor 1 3 0 [(8, 1)] 0 0)) (1) (.queue 0) (entryFor 1 3 0 [(8, 1)] 0 0)).get (by decide +kernel), (Option.some_get _).symm, by decide +kernel⟩,
   ⟨0x0602, .tag, false, (opRow (0x0602)).get (by decide +kernel), { up with power.safe := false }, (transportRefusal (0x0602) ((opRow (0x0602)).get (by decide +kernel)) (false) (.tag)).get (by decide +kernel), (Option.some_get _).symm, by decide +kernel⟩⟩
theorem witness_EntryRefused_3 : ∃ (op : BitVec 16) (r : OpRow) (s : Machine.State), opRow op = some r ∧ s.power.safe = true ∧ op ≠ 1 ∧ op ≠ 5 ∧ op ≠ 1793 ∧ op ≠ 3841 :=
  ⟨0x0102, (opRow (0x0102)).get (by decide +kernel), { up with power.safe := true }, (Option.some_get _).symm, by decide +kernel⟩
theorem witness_StepKeepsMemoryForm : ∃ (s : Machine.State) (t : Machine.State), Memory.wf s.mem = true ∧ step s = Host.Outcome.next t :=
  ⟨{ up with pending := [.leverClosed] }, _, by decide +kernel, rfl⟩
theorem witness_ManagementPort_1 :
    (∃ (s : Machine.State), mgmtUp s = true ∧ 8 ≤ mgmtPending s) ∧
    (∃ (s : Machine.State) (a : Byte), mgmtUp s = true ∧ a ≠ 0) ∧
    (∃ (ev : Byte) (s : Machine.State), mgmtUp s = true ∧ bitAt ev 0 = true) ∧
    (∃ (s : Machine.State), mgmtUp s = true ∧ s.mgmtp.dynAddr = none ∧ i2cOnly s = false) ∧
    (∃ (s : Machine.State), mgmtUp s = true ∧ s.mgmtp.responses = []) ∧
    (∃ (s : Machine.State) (r : List Byte) (rs : List (List Byte)), mgmtUp s = true ∧ s.mgmtp.responses = r :: rs) :=
  ⟨⟨{ up with regs := [(mgmtpBase + 8, 1)], mgmtp.frames := List.replicate 8 [] }, by decide +kernel⟩,
   ⟨up, 8, by decide +kernel⟩,
   ⟨1, up, by decide +kernel⟩,
   ⟨{ up with mgmtp.dynAddr := none }, by decide +kernel⟩,
   ⟨{ up with mgmtp.responses := [] }, by decide +kernel⟩,
   ⟨{ up with mgmtp.responses := ([]) :: ([]) }, [], [], by decide +kernel⟩⟩
theorem witness_ManagementPort_2 :
    (∃ (b : List Byte) (s : Machine.State), mgmtUp s = true ∧ s.power.mode = PowerMode.run ∧ mgmtPending s < 8 ∧ b.length = 68 ∧ fieldOf b 0 2 = 64 ∧ (crc16 (List.take 66 b)).toNat ≠ fieldOf b 66 2) ∧
    (∃ (b : List Byte) (s : Machine.State), mgmtUp s = true ∧ s.power.mode = PowerMode.run ∧ mgmtPending s < 8 ∧ b.length ≠ 68) ∧
    (∃ (s : Machine.State), mgmtUp s = true ∧ s.power.mode = PowerMode.run ∧ mgmtPending s < 8 ∧ s.mgmtp.dynAddr.isSome = true) :=
  ⟨⟨leBytes 68 0x40, { up with power.mode := PowerMode.run }, by decide +kernel⟩,
   ⟨[], { up with power.mode := PowerMode.run }, by decide +kernel⟩,
   ⟨{ up with mgmtp.dynAddr := some 9 }, by decide +kernel⟩⟩
theorem witness_CoreImmediateResults : ∃ (c : CoreId) (s : Machine.State), Issues c s :=
  ⟨.ccA, up, by unfold Issues; decide +kernel⟩
theorem witness_YomirAdmin_1 :
    (∃ (src : Source) (e : Entry) (s : Machine.State) (t : Machine.State) (c : Inflight), Accepted 1 src e s c t) ∧
    (∃ (src : Source) (e : Entry) (s : Machine.State) (t : Machine.State) (c : Inflight), Accepted 1281 src e s c t ∧ 1 ≤ e.param 8 4 ∧ e.param 8 4 ≤ 65536 ∧ e.param 14 2 ≤ 1000 ∧ (e.param 12 1 = 2 → t.lifecycle = Lifecycle.commissioned ∧ rawTap t = true)) ∧
    (∃ (src : Source) (e : Entry) (s : Machine.State) (t : Machine.State) (c : Inflight), Accepted 1282 src e s c t) ∧
    (∃ (src : Source) (e : Entry) (s : Machine.State) (t : Machine.State) (c : Inflight), Accepted 2049 src e s c t ∧ e.param 8 1 = 0) ∧
    (∃ (src : Source) (e : Entry) (s : Machine.State) (t : Machine.State) (c : Inflight), Accepted 2049 src e s c t ∧ e.param 8 1 ≠ 0 ∧ powerRefusal t (e.param 8 1) (e.param 9 1 % 2 == 1) = none) ∧
    (∃ (src : Source) (e : Entry) (s : Machine.State) (t : Machine.State) (c : Inflight), Accepted 2050 src e s c t ∧ bitAt (t.reg 1073742076 0) 0 = false ∧ (e.param 8 1 / 16 % 2 = 1 → BitVec.toNat t.clock.time < e.param 16 8)) :=
  ⟨⟨Source.queue 0, entryFor 1 3 0 [] 0 0, up, begins 1 0 (entryFor 1 3 0 [] 0 0) (up), commandOf 1 0 (entryFor 1 3 0 [] 0 0) (up), accepted_of _ _ _ _ (entryFor_crc ..) (by decide +kernel)⟩,
   ⟨Source.queue 0, entryFor 1281 3 0 [(8, 65536)] 0x30000 0, up, begins 1281 0 (entryFor 1281 3 0 [(8, 65536)] 0x30000 0) (up), commandOf 1281 0 (entryFor 1281 3 0 [(8, 65536)] 0x30000 0) (up), accepted_of _ _ _ _ (entryFor_crc ..) (by decide +kernel), by decide +kernel⟩,
   ⟨Source.queue 0, entryFor 1282 3 0 [] 0 0, up, begins 1282 0 (entryFor 1282 3 0 [] 0 0) (up), commandOf 1282 0 (entryFor 1282 3 0 [] 0 0) (up), accepted_of _ _ _ _ (entryFor_crc ..) (by decide +kernel)⟩,
   ⟨Source.queue 0, entryFor 2049 3 0 [] 0 0, up, begins 2049 0 (entryFor 2049 3 0 [] 0 0) (up), commandOf 2049 0 (entryFor 2049 3 0 [] 0 0) (up), accepted_of _ _ _ _ (entryFor_crc ..) (by decide +kernel), by decide +kernel⟩,
   ⟨Source.queue 0, entryFor 2049 3 0 [(8, 1)] 0 0, up, begins 2049 0 (entryFor 2049 3 0 [(8, 1)] 0 0) (up), commandOf 2049 0 (entryFor 2049 3 0 [(8, 1)] 0 0) (up), accepted_of _ _ _ _ (entryFor_crc ..) (by decide +kernel), by decide +kernel⟩,
   ⟨Source.queue 0, entryFor 2050 3 0 [(8, 0x10), (0x10, 200)] 0 0, up, begins 2050 0 (entryFor 2050 3 0 [(8, 0x10), (0x10, 200)] 0 0) (up), commandOf 2050 0 (entryFor 2050 3 0 [(8, 0x10), (0x10, 200)] 0 0) (up), accepted_of _ _ _ _ (entryFor_crc ..) (by decide +kernel), by decide +kernel⟩⟩
theorem witness_YomirAdmin_2 :
    ((((((((bitN 0 !(begins 3841 0 (entryFor 3841 3 0 [] 0 0) ({ up with power.safe := true, power.rstCause := 4 })).fresh.getLsbD 8) + bitN 1 !(katsFound (begins 3841 0 (entryFor 3841 3 0 [] 0 0) ({ up with power.safe := true, power.rstCause := 4 })).fresh (begins 3841 0 (entryFor 3841 3 0 [] 0 0) ({ up with power.safe := true, power.rstCause := 4 }))).lanes.all id) + bitN 2 !(katsFound (begins 3841 0 (entryFor 3841 3 0 [] 0 0) ({ up with power.safe := true, power.rstCause := 4 })).fresh (begins 3841 0 (entryFor 3841 3 0 [] 0 0) ({ up with power.safe := true, power.rstCause := 4 }))).pkes.all id) + bitN 3 !(katsFound (begins 3841 0 (entryFor 3841 3 0 [] 0 0) ({ up with power.safe := true, power.rstCause := 4 })).fresh (begins 3841 0 (entryFor 3841 3 0 [] 0 0) ({ up with power.safe := true, power.rstCause := 4 }))).vault) + bitN 4 !(katsFound (begins 3841 0 (entryFor 3841 3 0 [] 0 0) ({ up with power.safe := true, power.rstCause := 4 })).fresh (begins 3841 0 (entryFor 3841 3 0 [] 0 0) ({ up with power.safe := true, power.rstCause := 4 }))).drbg) + bitN 5 !((begins 3841 0 (entryFor 3841 3 0 [] 0 0) ({ up with power.safe := true, power.rstCause := 4 })).fresh.getLsbD 9 && (begins 3841 0 (entryFor 3841 3 0 [] 0 0) ({ up with power.safe := true, power.rstCause := 4 })).fresh.getLsbD 10)) ||| fencedChecks (begins 3841 0 (entryFor 3841 3 0 [] 0 0) ({ up with power.safe := true, power.rstCause := 4 })) = 0) → ∃ (src : Source) (e : Entry) (s : Machine.State) (t : Machine.State) (c : Inflight), Accepted 3841 src e s c t ∧ ((((((bitN 0 !t.fresh.getLsbD 8) + bitN 1 !(katsFound t.fresh t).lanes.all id) + bitN 2 !(katsFound t.fresh t).pkes.all id) + bitN 3 !(katsFound t.fresh t).vault) + bitN 4 !(katsFound t.fresh t).drbg) + bitN 5 !(t.fresh.getLsbD 9 && t.fresh.getLsbD 10)) ||| fencedChecks t = 0 ∧ t.power.safe = true ∧ bitAt t.power.rstCause 2 = true) ∧
    (∃ (src : Source) (e : Entry) (s : Machine.State) (t : Machine.State) (c : Inflight), Accepted 3841 src e s c t ∧ ¬(t.power.safe = true ∧ bitAt t.power.rstCause 2 = true ∧ ((((((bitN 0 !t.fresh.getLsbD 8) + bitN 1 !(katsFound t.fresh t).lanes.all id) + bitN 2 !(katsFound t.fresh t).pkes.all id) + bitN 3 !(katsFound t.fresh t).vault) + bitN 4 !(katsFound t.fresh t).drbg) + bitN 5 !(t.fresh.getLsbD 9 && t.fresh.getLsbD 10)) ||| fencedChecks t = 0)) ∧
    (∃ (src : Source) (e : Entry) (s : Machine.State) (t : Machine.State) (c : Inflight) (i : FaultIn) (r : FRecord) (u : Machine.State), Accepted 3842 src e s c t ∧ forcedInput (e.param 8 2) (e.param 10 1) = some i ∧ recordFault false i t = (r, u) ∧ r.applied ≠ Level.mate ∧ r.applied ≠ Level.kiln) ∧
    (∃ (src : Source) (e : Entry) (s : Machine.State) (t : Machine.State) (c : Inflight) (k : Nat), Accepted 3843 src e s c t ∧ k ≤ 16 ∧ e.param 8 1 = 128 + k ∧ bistRefusal t k = none) ∧
    (∃ (src : Source) (e : Entry) (s : Machine.State) (t : Machine.State) (c : Inflight) (u : Machine.State), Accepted 3844 src e s c t ∧ writeOutput src (e.param 12 4) e.addr0 (leBytes 8 (BitVec.toNat t.rng.lfTime) ++ leBytes 4 t.rng.lfCount ++ leBytes 4 0 ++ List.flatMap (fun k => leBytes 2 (t.rng.lfCodes.getD k 0) ++ leBytes 2 (t.rng.lfLow.getD k 0) ++ leBytes 2 (t.rng.lfHigh.getD k 0) ++ leBytes 2 (t.rng.lfBig.getD k 0) ++ leBytes 2 (Config.lfBaseline k).toNat ++ [BitVec.ofNat 8 k] ++ leBytes 5 0) (List.range 16)) (if e.param 8 1 % 2 = 1 then latchRestart t else t) = Except.ok u ∧ 272 ≤ e.param 12 4) ∧
    (∃ (src : Source) (e : Entry) (s : Machine.State) (t : Machine.State) (c : Inflight), Accepted 4 src e s c t) :=
  ⟨(fun h => ⟨Source.queue 0, entryFor 3841 3 0 [] 0 0, { up with power.safe := true, power.rstCause := 4 }, begins 3841 0 (entryFor 3841 3 0 [] 0 0) ({ up with power.safe := true, power.rstCause := 4 }), commandOf 3841 0 (entryFor 3841 3 0 [] 0 0) ({ up with power.safe := true, power.rstCause := 4 }), accepted_of _ _ _ _ (entryFor_crc ..) (by decide +kernel), h, by decide +kernel⟩),
   ⟨Source.queue 0, entryFor 3841 3 0 [] 0 0, up, begins 3841 0 (entryFor 3841 3 0 [] 0 0) (up), commandOf 3841 0 (entryFor 3841 3 0 [] 0 0) (up), accepted_of _ _ _ _ (entryFor_crc ..) (by decide +kernel), fun h => absurd h.1 (by decide +kernel)⟩,
   ⟨Source.queue 0, entryFor 3842 3 0 [(8, 16)] 0 0, up, begins 3842 0 (entryFor 3842 3 0 [(8, 16)] 0 0) (up), commandOf 3842 0 (entryFor 3842 3 0 [(8, 16)] 0 0) (up), (forcedInput 16 0).get (by decide +kernel), (recordFault false ((forcedInput 16 0).get (by decide +kernel)) (begins 0x0F02 0 (entryFor 0x0F02 3 0 [(8, 16)] 0 0) (up))).1, (recordFault false ((forcedInput 16 0).get (by decide +kernel)) (begins 0x0F02 0 (entryFor 0x0F02 3 0 [(8, 16)] 0 0) (up))).2, accepted_of _ _ _ _ (entryFor_crc ..) (by decide +kernel), by decide +kernel, rfl, by decide +kernel⟩,
   ⟨Source.queue 0, entryFor 3843 3 0 [(8, 128)] 0 0, { up with tamper.armed := 1 }, begins 3843 0 (entryFor 3843 3 0 [(8, 128)] 0 0) ({ up with tamper.armed := 1 }), commandOf 3843 0 (entryFor 3843 3 0 [(8, 128)] 0 0) ({ up with tamper.armed := 1 }), 0, accepted_of _ _ _ _ (entryFor_crc ..) (by decide +kernel), by decide +kernel⟩,
   ⟨Source.queue 0, entryFor 3844 3 0 [(0xC, 272)] 0x30000 0, listed 272 up, begins 3844 0 (entryFor 3844 3 0 [(0xC, 272)] 0x30000 0) (listed 272 up), commandOf 3844 0 (entryFor 3844 3 0 [(0xC, 272)] 0x30000 0) (listed 272 up), okOf (writeOutput (Source.queue 0) ((entryFor 3844 3 0 [(0xC, 272)] 0x30000 0).param 12 4) (entryFor 3844 3 0 [(0xC, 272)] 0x30000 0).addr0 (leBytes 8 (BitVec.toNat (begins 3844 0 (entryFor 3844 3 0 [(0xC, 272)] 0x30000 0) (listed 272 up)).rng.lfTime) ++ leBytes 4 (begins 3844 0 (entryFor 3844 3 0 [(0xC, 272)] 0x30000 0) (listed 272 up)).rng.lfCount ++ leBytes 4 0 ++ List.flatMap (fun k => leBytes 2 ((begins 3844 0 (entryFor 3844 3 0 [(0xC, 272)] 0x30000 0) (listed 272 up)).rng.lfCodes.getD k 0) ++ leBytes 2 ((begins 3844 0 (entryFor 3844 3 0 [(0xC, 272)] 0x30000 0) (listed 272 up)).rng.lfLow.getD k 0) ++ leBytes 2 ((begins 3844 0 (entryFor 3844 3 0 [(0xC, 272)] 0x30000 0) (listed 272 up)).rng.lfHigh.getD k 0) ++ leBytes 2 ((begins 3844 0 (entryFor 3844 3 0 [(0xC, 272)] 0x30000 0) (listed 272 up)).rng.lfBig.getD k 0) ++ leBytes 2 (Config.lfBaseline k).toNat ++ [BitVec.ofNat 8 k] ++ leBytes 5 0) (List.range 16)) (if (entryFor 3844 3 0 [(0xC, 272)] 0x30000 0).param 8 1 % 2 = 1 then latchRestart (begins 3844 0 (entryFor 3844 3 0 [(0xC, 272)] 0x30000 0) (listed 272 up)) else (begins 3844 0 (entryFor 3844 3 0 [(0xC, 272)] 0x30000 0) (listed 272 up)))) up, accepted_of _ _ _ _ (entryFor_crc ..) (by decide +kernel), ok_of (by decide +kernel), by decide +kernel⟩,
   ⟨Source.queue 0, entryFor 4 3 0 [(8, 200)] 0 0, up, begins 4 0 (entryFor 4 3 0 [(8, 200)] 0 0) (up), commandOf 4 0 (entryFor 4 3 0 [(8, 200)] 0 0) (up), accepted_of _ _ _ _ (entryFor_crc ..) (by decide +kernel)⟩⟩
theorem witness_YomirAdmin_3 :
    (∃ (src : Source) (e : Entry) (s : Machine.State) (t : Machine.State) (c : Inflight) (out : List Byte) (u : Machine.State), Accepted 5 src e s c t ∧ out = List.flatMap frecordBytes (List.take (e.param 24 4 / 32) (List.filter (fun r => decide (e.param 16 4 ≤ r.seq)) t.fault.log)) ∧ writeOutput src (e.param 24 4) e.addr0 out t = Except.ok u ∧ e.param 24 4 ≤ 16777216 ∧ (src = Source.tag → e.param 24 4 ≤ 8192) ∧ e.param 8 1 = 1 ∧ 32 ≤ e.param 24 4 ∧ logHead t ≤ e.param 16 4) ∧
    (∃ (src : Source) (e : Entry) (s : Machine.State) (t : Machine.State) (c : Inflight) (u : Machine.State), Accepted 5 src e s c t ∧ writeOutput src (e.param 24 4) e.addr0 (faultSummary t) t = Except.ok u ∧ e.param 24 4 ≤ 16777216 ∧ (src = Source.tag → e.param 24 4 ≤ 8192) ∧ e.param 8 1 = 2 ∧ 128 ≤ e.param 24 4) ∧
    (∃ (src : Source) (e : Entry) (s : Machine.State) (t : Machine.State) (c : Inflight) (img : List Byte), Accepted 8 src e s c t ∧ readInput t src (e.param 8 4) e.addr0 = Except.ok img ∧ 4096 ≤ e.param 8 4 ∧ e.param 8 4 ≤ 16773120 ∧ e.param 8 4 % 8 = 0 ∧ firmwareBusy t c.key = false ∧ t.flash.lockout = false ∧ flashWrites t = true ∧ targetBank t < t.flash.banks.length ∧ t.flash.pwRun = none ∧ BitVec.ofNat 128 (e.param 16 16) = t.flash.password ∧ (t.bank (targetBank t)).run = none) ∧
    ((Config.imageOk (bankImage (begins 9 0 (entryFor 9 3 1 [(8, 5)] 0 0) ({ up with vault.sessions := [grantFor 2 5 true] })) (targetBank (begins 9 0 (entryFor 9 3 1 [(8, 5)] 0 0) ({ up with vault.sessions := [grantFor 2 5 true] })))) = true ∧ (entryFor 9 3 1 [(8, 5)] 0 0).param 8 16 = (Config.imageDigest (bankImage (begins 9 0 (entryFor 9 3 1 [(8, 5)] 0 0) ({ up with vault.sessions := [grantFor 2 5 true] })) (targetBank (begins 9 0 (entryFor 9 3 1 [(8, 5)] 0 0) ({ up with vault.sessions := [grantFor 2 5 true] }))))).toNat % 2 ^ 128) → ∃ (src : Source) (e : Entry) (s : Machine.State) (t : Machine.State) (c : Inflight), Accepted 9 src e s c t ∧ Config.imageOk (bankImage t (targetBank t)) = true ∧ e.param 8 16 = (Config.imageDigest (bankImage t (targetBank t))).toNat % 2 ^ 128 ∧ firmwareBusy t c.key = false ∧ t.pair.role = Role.solo) ∧
    (∃ (src : Source) (e : Entry) (s : Machine.State) (op : BitVec 16) (s0 : Machine.State) (auth : Bool) (hd : BitVec 16), opRow op = none ∧ Arrives src s s0 auth hd ∧ Sound op src e s0) ∧
    (∃ (src : Source) (e : Entry) (s : Machine.State) (t : Machine.State) (c : Inflight) (q : Nat), Accepted 2 src e s c t ∧ src = Source.queue q ∧ e.param 8 2 / 64 = q / 64 ∧ (e.param 8 2 % 64 = 0 ∨ (t.queue (e.param 8 2)).isSome = true)) :=
  ⟨⟨Source.queue 0, entryFor 5 3 0 [(8, 1), (0x18, 32)] 0x30000 0, listed 32 up, begins 5 0 (entryFor 5 3 0 [(8, 1), (0x18, 32)] 0x30000 0) (listed 32 up), commandOf 5 0 (entryFor 5 3 0 [(8, 1), (0x18, 32)] 0x30000 0) (listed 32 up), List.flatMap frecordBytes (List.take ((entryFor 5 3 0 [(8, 1), (0x18, 32)] 0x30000 0).param 24 4 / 32) (List.filter (fun r => decide ((entryFor 5 3 0 [(8, 1), (0x18, 32)] 0x30000 0).param 16 4 ≤ r.seq)) (begins 5 0 (entryFor 5 3 0 [(8, 1), (0x18, 32)] 0x30000 0) (listed 32 up)).fault.log)), okOf (writeOutput (Source.queue 0) ((entryFor 5 3 0 [(8, 1), (0x18, 32)] 0x30000 0).param 24 4) (entryFor 5 3 0 [(8, 1), (0x18, 32)] 0x30000 0).addr0 (List.flatMap frecordBytes (List.take ((entryFor 5 3 0 [(8, 1), (0x18, 32)] 0x30000 0).param 24 4 / 32) (List.filter (fun r => decide ((entryFor 5 3 0 [(8, 1), (0x18, 32)] 0x30000 0).param 16 4 ≤ r.seq)) (begins 5 0 (entryFor 5 3 0 [(8, 1), (0x18, 32)] 0x30000 0) (listed 32 up)).fault.log))) (begins 5 0 (entryFor 5 3 0 [(8, 1), (0x18, 32)] 0x30000 0) (listed 32 up))) up, accepted_of _ _ _ _ (entryFor_crc ..) (by decide +kernel), rfl, ok_of (by decide +kernel), by decide +kernel⟩,
   ⟨Source.queue 0, entryFor 5 3 0 [(8, 2), (0x18, 128)] 0x30000 0, listed 128 up, begins 5 0 (entryFor 5 3 0 [(8, 2), (0x18, 128)] 0x30000 0) (listed 128 up), commandOf 5 0 (entryFor 5 3 0 [(8, 2), (0x18, 128)] 0x30000 0) (listed 128 up), okOf (writeOutput (Source.queue 0) ((entryFor 5 3 0 [(8, 2), (0x18, 128)] 0x30000 0).param 24 4) (entryFor 5 3 0 [(8, 2), (0x18, 128)] 0x30000 0).addr0 (faultSummary (begins 5 0 (entryFor 5 3 0 [(8, 2), (0x18, 128)] 0x30000 0) (listed 128 up))) (begins 5 0 (entryFor 5 3 0 [(8, 2), (0x18, 128)] 0x30000 0) (listed 128 up))) up, accepted_of _ _ _ _ (entryFor_crc ..) (by decide +kernel), ok_of (by decide +kernel), by decide +kernel⟩,
   ⟨Source.queue 0, entryFor 8 3 0 [(8, 4096)] 0x30000 0, listed 4096 up, begins 8 0 (entryFor 8 3 0 [(8, 4096)] 0x30000 0) (listed 4096 up), commandOf 8 0 (entryFor 8 3 0 [(8, 4096)] 0x30000 0) (listed 4096 up), okOf (readInput (begins 8 0 (entryFor 8 3 0 [(8, 4096)] 0x30000 0) (listed 4096 up)) (Source.queue 0) ((entryFor 8 3 0 [(8, 4096)] 0x30000 0).param 8 4) (entryFor 8 3 0 [(8, 4096)] 0x30000 0).addr0) [], accepted_of _ _ _ _ (entryFor_crc ..) (by decide +kernel), ok_of (by decide +kernel), by decide +kernel⟩,
   (fun h => ⟨Source.queue 0, entryFor 9 3 1 [(8, 5)] 0 0, { up with vault.sessions := [grantFor 2 5 true] }, begins 9 0 (entryFor 9 3 1 [(8, 5)] 0 0) ({ up with vault.sessions := [grantFor 2 5 true] }), commandOf 9 0 (entryFor 9 3 1 [(8, 5)] 0 0) ({ up with vault.sessions := [grantFor 2 5 true] }), accepted_of _ _ _ _ (entryFor_crc ..) (by decide +kernel), h.1, h.2, by decide +kernel⟩),
   ⟨.queue 0, entryFor 0x00FF 3 0 [] 0 0, up, 0x00FF, (fetched 0 up).1, false, (fetched 0 up).2, by decide +kernel, ⟨by decide +kernel, rfl, queueOf 0 0x10000 0x20000 true, rfl, by decide +kernel, rfl, rfl⟩, entryFor_crc .., rfl⟩,
   ⟨Source.queue 0, entryFor 2 3 0 [(8, 5), (0xA, 4096), (0xC, 2), (0xE, 127), (0x10, 3)] 0x60000 0x70000, up, begins 2 0 (entryFor 2 3 0 [(8, 5), (0xA, 4096), (0xC, 2), (0xE, 127), (0x10, 3)] 0x60000 0x70000) (up), commandOf 2 0 (entryFor 2 3 0 [(8, 5), (0xA, 4096), (0xC, 2), (0xE, 127), (0x10, 3)] 0x60000 0x70000) (up), 0, accepted_of _ _ _ _ (entryFor_crc ..) (by decide +kernel), by decide +kernel⟩⟩
theorem witness_YomirAdmin_4 :
    (∃ (src : Source) (e : Entry) (s : Machine.State) (t : Machine.State) (c : Inflight) (q : Nat), Accepted 2 src e s c t ∧ src = Source.queue q ∧ e.param 8 2 / 64 = q / 64 ∧ e.param 8 2 % 64 ≠ 0 ∧ t.queue (e.param 8 2) = none ∧ 2 ≤ e.param 10 2 ∧ e.param 10 2 ≤ 4096 ∧ 2 ≤ e.param 12 2 ∧ e.param 12 2 ≤ 4096 ∧ e.param 14 2 ≤ 127 ∧ e.param 16 1 ≤ 3 ∧ BitVec.toNat e.addr0 % 4096 = 0 ∧ BitVec.toNat e.addr1 % 4096 = 0) ∧
    (∃ (src : Source) (e : Entry) (s : Machine.State) (t : Machine.State) (c : Inflight) (q : Nat), Accepted 2 src e s c t ∧ src = Source.queue q ∧ e.param 8 2 / 64 ≠ q / 64) ∧
    (∃ (src : Source) (e : Entry) (s : Machine.State) (t : Machine.State) (c : Inflight) (q : Nat) (x : Queue), Accepted 3 src e s c t ∧ src = Source.queue q ∧ t.queue (e.param 8 2) = some x ∧ e.param 8 2 / 64 = q / 64 ∧ e.param 8 2 % 64 ≠ 0 ∧ x.deleting = false ∧ queueQuiet t (e.param 8 2) = true) ∧
    (∃ (src : Source) (e : Entry) (s : Machine.State) (t : Machine.State) (c : Inflight) (q : Nat), Accepted 6 src e s c t ∧ src = Source.queue q ∧ e.param 8 2 / 64 = q / 64 ∧ List.find? (fun d => d.entry.tag == BitVec.ofNat 16 (e.param 10 2) && d.key != c.key && d.src == Source.queue (e.param 8 2)) t.cqe.inflight = none) ∧
    (∃ (src : Source) (e : Entry) (s : Machine.State) (t : Machine.State) (c : Inflight) (q : Nat) (d : Inflight), Accepted 6 src e s c t ∧ src = Source.queue q ∧ e.param 8 2 / 64 = q / 64 ∧ List.find? (fun d => d.entry.tag == BitVec.ofNat 16 (e.param 10 2) && d.key != c.key && d.src == Source.queue (e.param 8 2)) t.cqe.inflight = some d ∧ d.op ≠ 6 ∧ abortable t d = false) ∧
    (∃ (src : Source) (e : Entry) (s : Machine.State) (t : Machine.State) (c : Inflight) (q : Nat) (d : Inflight), Accepted 6 src e s c t ∧ src = Source.queue q ∧ e.param 8 2 / 64 = q / 64 ∧ List.find? (fun d => d.entry.tag == BitVec.ofNat 16 (e.param 10 2) && d.key != c.key && d.src == Source.queue (e.param 8 2)) t.cqe.inflight = some d ∧ d.op ≠ 6 ∧ abortable t d = true) :=
  ⟨⟨Source.queue 0, entryFor 2 3 0 [(8, 7), (0xA, 4096), (0xC, 2), (0xE, 127), (0x10, 3)] 0x60000 0x70000, up, begins 2 0 (entryFor 2 3 0 [(8, 7), (0xA, 4096), (0xC, 2), (0xE, 127), (0x10, 3)] 0x60000 0x70000) (up), commandOf 2 0 (entryFor 2 3 0 [(8, 7), (0xA, 4096), (0xC, 2), (0xE, 127), (0x10, 3)] 0x60000 0x70000) (up), 0, accepted_of _ _ _ _ (entryFor_crc ..) (by decide +kernel), by decide +kernel⟩,
   ⟨Source.queue 0, entryFor 2 3 0 [(8, 71), (0xA, 4096), (0xC, 2), (0xE, 127), (0x10, 3)] 0x60000 0x70000, up, begins 2 0 (entryFor 2 3 0 [(8, 71), (0xA, 4096), (0xC, 2), (0xE, 127), (0x10, 3)] 0x60000 0x70000) (up), commandOf 2 0 (entryFor 2 3 0 [(8, 71), (0xA, 4096), (0xC, 2), (0xE, 127), (0x10, 3)] 0x60000 0x70000) (up), 0, accepted_of _ _ _ _ (entryFor_crc ..) (by decide +kernel), by decide +kernel⟩,
   ⟨Source.queue 0, entryFor 3 3 0 [(8, 5)] 0 0, up, begins 3 0 (entryFor 3 3 0 [(8, 5)] 0 0) (up), commandOf 3 0 (entryFor 3 3 0 [(8, 5)] 0 0) (up), 0, queueOf 5 0x40000 0x50000 false, accepted_of _ _ _ _ (entryFor_crc ..) (by decide +kernel), by decide +kernel⟩,
   ⟨Source.queue 0, entryFor 6 3 0 [(8, 5), (0xA, 9)] 0 0, up, begins 6 0 (entryFor 6 3 0 [(8, 5), (0xA, 9)] 0 0) (up), commandOf 6 0 (entryFor 6 3 0 [(8, 5), (0xA, 9)] 0 0) (up), 0, accepted_of _ _ _ _ (entryFor_crc ..) (by decide +kernel), by decide +kernel⟩,
   ⟨Source.queue 0, entryFor 6 4 0 [(8, 5), (0xA, 3)] 0 0, { up with cqe.inflight := [{ waiting with past := true }], cqe.nextKey := 2 }, begins 6 0 (entryFor 6 4 0 [(8, 5), (0xA, 3)] 0 0) ({ up with cqe.inflight := [{ waiting with past := true }], cqe.nextKey := 2 }), commandOf 6 0 (entryFor 6 4 0 [(8, 5), (0xA, 3)] 0 0) ({ up with cqe.inflight := [{ waiting with past := true }], cqe.nextKey := 2 }), 0, { waiting with past := true }, accepted_of _ _ _ _ (entryFor_crc ..) (by decide +kernel), by decide +kernel⟩,
   ⟨Source.queue 0, entryFor 6 4 0 [(8, 5), (0xA, 3)] 0 0, { up with cqe.inflight := [waiting], cqe.nextKey := 2 }, begins 6 0 (entryFor 6 4 0 [(8, 5), (0xA, 3)] 0 0) ({ up with cqe.inflight := [waiting], cqe.nextKey := 2 }), commandOf 6 0 (entryFor 6 4 0 [(8, 5), (0xA, 3)] 0 0) ({ up with cqe.inflight := [waiting], cqe.nextKey := 2 }), 0, waiting, accepted_of _ _ _ _ (entryFor_crc ..) (by decide +kernel), by decide +kernel⟩⟩
theorem witness_FaultCollectorCommands_1 :
    (∃ (v : Word) (u : FUnit), (sourceInfo (fieldAt v 7 0)).isSome = true ∧ unitFor (fieldAt v 7 0) (fieldAt v 15 8) = some u) ∧
    (∃ (v : Word), 224 ≤ fieldAt v 7 0) ∧
    (∃ (seq : Nat) (u : Unacked) (s : Machine.State), List.find? (fun u => u.seq == seq && u.timer) s.fault.unacked = some u) ∧
    (∃ (v : Word), fieldAt v 7 0 < 224) ∧
    (∃ (r : Report), r.source = 119) ∧
    (∃ (r : Report), r.source = 127) :=
  ⟨⟨16, ⟨0, 0⟩, by decide +kernel⟩,
   ⟨0xE0, by decide +kernel⟩,
   ⟨1, ⟨1, 16, .software, .log, true⟩, { up with fault.unacked := [⟨1, 16, .software, .log, true⟩] }, by decide +kernel⟩,
   ⟨0, by decide +kernel⟩,
   ⟨⟨119, ⟨0, 0⟩, 0, 0⟩, by decide +kernel⟩,
   ⟨⟨127, ⟨0, 0⟩, 0, 0⟩, by decide +kernel⟩⟩
theorem witness_FaultCollectorCommands_2 :
    (∃ (r : Report), r.source = 18) ∧
    (∃ (r : Report), r.source = 34) ∧
    (∃ (r : Report), r.source = 50) ∧
    (∃ (r : Report), r.source ∈ [16, 17, 32, 33]) ∧
    (∃ (s : Machine.State), s.cores.ccA.released = true ∧ s.cores.ccA.halted = false) ∧
    (∃ (s : Machine.State), s.cores.ccB.released = true ∧ s.cores.ccB.halted = false) :=
  ⟨⟨⟨18, ⟨0, 0⟩, 0, 0⟩, by decide +kernel⟩,
   ⟨⟨34, ⟨0, 0⟩, 0, 0⟩, by decide +kernel⟩,
   ⟨⟨50, ⟨0, 0⟩, 0, 0⟩, by decide +kernel⟩,
   ⟨⟨16, ⟨0, 0⟩, 0, 0⟩, by decide +kernel⟩,
   ⟨{ up with cores.ccA.released := true, cores.ccA.halted := false }, by decide +kernel⟩,
   ⟨{ up with cores.ccB.released := true, cores.ccB.halted := false }, by decide +kernel⟩⟩
theorem witness_FaultCollectorCommands_3 :
    (∃ (v : Word), sourceInfo (fieldAt v 7 0) = none ∨ unitFor (fieldAt v 7 0) (fieldAt v 15 8) = none) ∧
    (∃ (reports : List Report), ∀ (r : Report), r ∈ reports → ¬r.source ∈ [16, 17, 18, 32, 33, 34, 50, 119, 127]) :=
  ⟨⟨0xFF, by decide +kernel⟩,
   ⟨[], by decide +kernel⟩⟩
theorem witness_ElectionAndCastling_1 :
    (∃ (s : Machine.State), (s.pair.role = Role.electing ∧ s.power.booted = true ∧ s.power.safe = false ∧ bitAt (pairCtl s) 0 = true) ∧ s.nvm.partner = none) ∧
    (∃ (s : Machine.State), (s.pair.role = Role.electing ∧ s.power.booted = true ∧ s.power.safe = false ∧ bitAt (pairCtl s) 0 = true) ∧ s.nvm.partner ≠ none ∧ (s.pair.session ≠ PairSession.keyed ∨ s.pair.peer = none) ∧ s.pair.prsntHigh = false) ∧
    (∃ (s : Machine.State), (s.pair.role = Role.electing ∧ s.power.booted = true ∧ s.power.safe = false ∧ bitAt (pairCtl s) 0 = true) ∧ s.nvm.partner ≠ none ∧ (s.pair.session ≠ PairSession.keyed ∨ s.pair.peer = none) ∧ s.pair.prsntHigh = true) ∧
    (∃ (s : Machine.State) (m : Hello), (s.pair.role = Role.electing ∧ s.power.booted = true ∧ s.power.safe = false ∧ bitAt (pairCtl s) 0 = true) ∧ s.nvm.partner ≠ none ∧ s.pair.session = PairSession.keyed ∧ s.pair.peer = some m ∧ (m.role = Role.active ∨ m.role = Role.solo)) ∧
    (∃ (s : Machine.State) (m : Hello), (s.pair.role = Role.electing ∧ s.power.booted = true ∧ s.power.safe = false ∧ bitAt (pairCtl s) 0 = true) ∧ s.nvm.partner ≠ none ∧ s.pair.session = PairSession.keyed ∧ s.pair.peer = some m ∧ lastActive s = none ∧ m.lastActive = none) ∧
    (∃ (s : Machine.State) (m : Hello), (s.pair.role = Role.electing ∧ s.power.booted = true ∧ s.power.safe = false ∧ bitAt (pairCtl s) 0 = true) ∧ s.nvm.partner ≠ none ∧ s.pair.session = PairSession.keyed ∧ s.pair.peer = some m ∧ m.role ≠ Role.active ∧ m.role ≠ Role.solo ∧ electionWon s m = false) :=
  ⟨⟨{ up with pair.role := Role.electing, power.booted := true, power.safe := false, nvm.partner := none }, by decide +kernel⟩,
   ⟨{ up with pair.role := Role.electing, power.booted := true, power.safe := false, pair.prsntHigh := false, nvm.partner := some 9 }, by decide +kernel⟩,
   ⟨{ up with pair.role := Role.electing, power.booted := true, power.safe := false, pair.prsntHigh := true, nvm.partner := some 9 }, by decide +kernel⟩,
   ⟨{ up with pair.role := Role.electing, power.booted := true, power.safe := false, pair.session := PairSession.keyed, pair.peer := some ({ helloMsg with role := .active }), nvm.partner := some 9 }, { helloMsg with role := .active }, by decide +kernel⟩,
   ⟨{ up with pair.role := Role.electing, power.booted := true, power.safe := false, pair.session := PairSession.keyed, pair.peer := some (helloMsg), nvm.partner := some 9 }, helloMsg, by decide +kernel⟩,
   ⟨{ up with pair.role := Role.electing, power.booted := true, power.safe := false, pair.session := PairSession.keyed, pair.peer := some ({ helloMsg with preferred := true }), nvm.partner := some 9 }, { helloMsg with preferred := true }, by decide +kernel⟩⟩
theorem witness_ElectionAndCastling_2 :
    (∃ (s : Machine.State) (m : Hello), (s.pair.role = Role.electing ∧ s.power.booted = true ∧ s.power.safe = false ∧ bitAt (pairCtl s) 0 = true) ∧ s.nvm.partner ≠ none ∧ s.pair.session = PairSession.keyed ∧ s.pair.peer = some m ∧ m.role ≠ Role.active ∧ m.role ≠ Role.solo ∧ electionWon s m = true) ∧
    (∃ (s : Machine.State), (s.pair.role = Role.standby ∧ preferredUnit s = true ∧ healthy s = true ∧ s.power.mode = PowerMode.run ∧ s.power.leverOpen = false ∧ bitAt (pairCtl s) 1 = true) ∧ (∃ t, s.pair.holdFrom = some t ∧ fieldAt (pairCtl s) 19 4 ≤ (s.clock.lfclk - t) / 32768) ∧ s.pair.castling = Castling.none) ∧
    (∃ (s : Machine.State), castleReady s = false) ∧
    (∃ (s : Machine.State) (leaving : Bool) (c : Inflight) (d : Inflight), castleReady s = true ∧ (∀ (c : Inflight), c ∈ s.cqe.inflight → c.op ≠ 9) ∧ c ∈ (tryPlanned none leaving s).cqe.inflight ∧ d ∈ s.cqe.inflight ∧ handsOver s d = true) ∧
    (∃ (s : Machine.State), castleReady s = true ∧ ∀ (c : Inflight), c ∈ s.cqe.inflight → c.op ≠ 9) ∧
    (∃ (s : Machine.State) (key : Option Nat), s.pair.castling = Castling.draining key) :=
  ⟨⟨{ up with pair.role := Role.electing, power.booted := true, power.safe := false, pair.session := PairSession.keyed, pair.peer := some (helloMsg), nvm.partner := some 9, power.pref := true }, helloMsg, by decide +kernel⟩,
   ⟨{ up with pair := { up.pair with role := .standby, holdFrom := some 0 }, power := { up.power with pref := true }, clock := { up.clock with lfclk := 32768000 } }, ⟨by decide +kernel, by decide +kernel, by decide +kernel, by decide +kernel, by decide +kernel, by decide +kernel⟩, ⟨0, by decide +kernel, by decide +kernel⟩, by decide +kernel⟩,
   ⟨up, by decide +kernel⟩,
   ⟨{ paired with cqe.inflight := [{ waiting with past := true, op := 0x0101 }, { waiting with wait := .start, key := 2 }] }, true, { waiting with past := true, op := 0x0101 }, { waiting with wait := .start, key := 2 }, by decide +kernel⟩,
   ⟨paired, by decide +kernel⟩,
   ⟨{ up with pair.castling := Castling.draining (none) }, none, by decide +kernel⟩⟩
theorem witness_ElectionAndCastling_3 :
    (∃ (s : Machine.State) (key : Option Nat) (leaving : Bool), s.pair.castling = Castling.planned key leaving ∧ (∀ (c : Inflight), c ∈ s.cqe.inflight → key = some c.key) ∧ s.fault.mateAfterCastling = false ∧ s.pair.activating = false) ∧
    (∃ (s : Machine.State) (key : Option Nat) (leaving : Bool), s.pair.castling = Castling.planned key leaving ∧ ∃ c, c ∈ s.cqe.inflight ∧ key ≠ some c.key) ∧
    (∃ (s : Machine.State), s.pair.frozen = false) ∧
    (∃ (s : Machine.State), s.pair.frozen = true) ∧
    (∃ (s : Machine.State), ¬(s.pair.role = Role.electing ∧ s.power.booted = true ∧ s.power.safe = false ∧ bitAt (pairCtl s) 0 = true)) ∧
    (∃ (s : Machine.State), ¬(s.pair.role = Role.standby ∧ preferredUnit s = true ∧ healthy s = true ∧ s.power.mode = PowerMode.run ∧ s.power.leverOpen = false ∧ bitAt (pairCtl s) 1 = true) ∨ (¬∃ t, s.pair.holdFrom = some t ∧ fieldAt (pairCtl s) 19 4 ≤ (s.clock.lfclk - t) / 32768) ∧ fieldAt (pairCtl s) 19 4 ≠ 0 ∨ s.pair.castling ≠ Castling.none) :=
  ⟨⟨{ up with pair.castling := Castling.planned (none) (false), fault.mateAfterCastling := false, pair.activating := false }, none, false, by decide +kernel⟩,
   ⟨{ up with pair.castling := Castling.planned (none) (false), cqe.inflight := [waiting] }, none, false, by decide +kernel⟩,
   ⟨{ up with pair.frozen := false }, by decide +kernel⟩,
   ⟨{ up with pair.frozen := true }, by decide +kernel⟩,
   ⟨up, by decide +kernel⟩,
   ⟨up, by decide +kernel⟩⟩
theorem witness_ElectionAndCastling_4 :
    (∃ (s : Machine.State), ∀ (k : Option Nat) (l : Bool), s.pair.castling ≠ Castling.planned k l) ∧
    (∃ (s : Machine.State), ∀ (k : Option Nat), s.pair.castling ≠ Castling.draining k) :=
  ⟨⟨up, by intro _ _ h; cases h⟩,
   ⟨up, by intro _ h; cases h⟩⟩
theorem witness_KeyTableRequests_1 :
    (∃ (k : Ktab) (i : Nat), (k.setOf i).length < 8 ∨ ∃ e, e ∈ k.setOf i ∧ e.index ≠ i ∧ e.pinned = false ∧ e.held = false) ∧
    (∃ (s : Machine.State), ktabEnabled s = true ∧ s.isFenced 5 0 = false ∧ s.ktab.busy = false ∧ drawEnabled s = false) ∧
    (∃ (kh : Word) (e : CacheEntry) (s : Machine.State), ktabEnabled s = true ∧ s.isFenced 5 0 = false ∧ s.ktab.busy = false ∧ s.ktab.khResult kh = 0 ∧ s.ktab.spoilt = [] ∧ (s.ktab.record (khIndex kh)).state = KeyState.active ∧ drawEnabled s = true ∧ s.ktab.held (s.ktab.record (khIndex kh)) = false ∧ ((s.ktab.keepNodes (if (s.ktab.entry (khIndex kh)).isSome = true then [] else s.ktab.fillReads (khIndex kh))).fill (khIndex kh)).entry (khIndex kh) = some e ∧ (s.ktab.record (khIndex kh)).invHwm ≤ e.next) ∧
    (∃ (kh : Word) (e : CacheEntry) (s : Machine.State), ktabEnabled s = true ∧ s.isFenced 5 0 = false ∧ s.ktab.busy = false ∧ s.ktab.khResult kh = 0 ∧ s.ktab.spoilt = [] ∧ (s.ktab.record (khIndex kh)).state = KeyState.active ∧ drawEnabled s = true ∧ s.ktab.held (s.ktab.record (khIndex kh)) = false ∧ ((s.ktab.keepNodes (if (s.ktab.entry (khIndex kh)).isSome = true then [] else s.ktab.fillReads (khIndex kh))).fill (khIndex kh)).entry (khIndex kh) = some e ∧ e.next < (s.ktab.record (khIndex kh)).invHwm ∧ e.next ≠ 2 ^ 48 - 2) ∧
    (∃ (kh : Word) (s : Machine.State), ktabEnabled s = true ∧ s.isFenced 5 0 = false ∧ s.ktab.busy = false ∧ s.ktab.khResult kh = 0 ∧ s.ktab.spoilt = [] ∧ s.ktab.pinRoom (khIndex kh) = false) ∧
    (∃ (kh : Word) (s : Machine.State), ktabEnabled s = true ∧ s.isFenced 5 0 = false ∧ s.ktab.busy = false ∧ s.ktab.khResult kh = 0 ∧ s.ktab.spoilt = [] ∧ s.ktab.pinRoom (khIndex kh) = true) :=
  ⟨⟨up.ktab, 7, by decide +kernel⟩,
   ⟨{ up with ktab.busy := false, regs := [(0x40060008, 1)] }, by decide +kernel⟩,
   ⟨keyH, ⟨7, 1, 1000, false, 1, false⟩, { up with ktab.cache := [⟨7, 1, 1000, false, 1, false⟩] }, by decide +kernel⟩,
   ⟨keyH, ⟨7, 1, 1, false, 1, false⟩, up, by decide +kernel⟩,
   ⟨keyH, { up with ktab.cache := (List.range 6).map (fun i => ⟨7 + 4096 * (i + 1), 1, 1, true, 1, false⟩) }, by decide +kernel⟩,
   ⟨keyH, up, by decide +kernel⟩⟩
theorem witness_KeyTableRequests_2 :
    (∃ (kh : Word) (s : Machine.State), ktabEnabled s = true ∧ s.isFenced 5 0 = false ∧ s.ktab.busy = false ∧ s.ktab.khResult kh ≠ 0 ∧ s.ktab.spoilt = [] ∧ drawEnabled s = true) ∧
    (∃ (s : Machine.State), ktabEnabled s = true ∧ s.isFenced 5 0 = false ∧ s.ktab.busy = false ∧ s.ktab.spoilt = [] ∧ s.ktab.quarantine = [] ∧ ∀ (b : Nat) (x : Nat × Nat × Nat), x ∈ s.ktab.bucket b → khIndex (khOf x.snd.snd (s.ktab.record x.snd.snd).gen) = x.snd.snd ∧ s.ktab.khResult (khOf x.snd.snd (s.ktab.record x.snd.snd).gen) = 0) ∧
    (∃ (s : Machine.State), ktabEnabled s = true ∧ s.isFenced 5 0 = false ∧ s.ktab.busy = false ∧ s.ktab.spoilt = [] ∧ s.ktab.quarantine.length ≤ 64) ∧
    (∃ (kh : Word) (s : Machine.State), ktabEnabled s = true ∧ s.isFenced 5 0 = false ∧ s.ktab.busy = false ∧ ¬khIndex kh ∈ s.ktab.quarantine ∧ s.ktab.quarantine.length < 64 ∧ s.ktab.spoilt = [] ∧ s.ktab.entry (khIndex kh) = none) ∧
    (∃ (s : Machine.State), s.ktab.busy = true) :=
  ⟨⟨0, { up with ktab.busy := false, ktab.spoilt := [] }, by decide +kernel⟩,
   (by refine ⟨{ up with ktab := { up.ktab with buckets := [] } }, ?_, ?_, ?_, ?_, ?_, by intro b x h; simp [Ktab.bucket, assocGet] at h⟩ <;> decide +kernel),
   ⟨{ up with ktab.busy := false, ktab.spoilt := [] }, by decide +kernel⟩,
   ⟨0, { up with ktab.busy := false, ktab.spoilt := [] }, by decide +kernel⟩,
   ⟨{ up with ktab.busy := true }, by decide +kernel⟩⟩
theorem witness_LeverEvents_1 :
    (∃ (s : Machine.State), s.kiln.latch = false ∧ (s.power.supply = Supply.running ∨ s.power.supply = Supply.starting) ∧ s.power.mode = PowerMode.lager) ∧
    (∃ (s : Machine.State), s.kiln.latch = false ∧ (s.power.supply = Supply.running ∨ s.power.supply = Supply.starting) ∧ s.power.mode = PowerMode.run ∧ s.power.booted = false) ∧
    (∃ (s : Machine.State), s.kiln.latch = false ∧ (s.power.supply = Supply.running ∨ s.power.supply = Supply.starting) ∧ s.power.mode = PowerMode.run ∧ s.power.booted = true ∧ leverWaits s = false) ∧
    (∃ (s : Machine.State), s.kiln.latch = false ∧ (s.power.supply = Supply.running ∨ s.power.supply = Supply.starting) ∧ s.power.mode = PowerMode.run ∧ s.power.booted = true ∧ leverWaits s = true) ∧
    (∃ (s : Machine.State), s.kiln.latch = false ∧ (s.power.supply = Supply.running ∨ s.power.supply = Supply.starting) ∧ s.power.mode = PowerMode.steep) ∧
    (∃ (s : Machine.State), s.kiln.latch = true ∨ s.power.supply = Supply.failHold ∨ s.power.supply = Supply.dark) :=
  ⟨⟨{ up with kiln.latch := false, power.mode := PowerMode.lager }, by decide +kernel⟩,
   ⟨{ up with kiln.latch := false, power.mode := PowerMode.run, power.booted := false }, by decide +kernel⟩,
   ⟨{ up with kiln.latch := false, power.mode := PowerMode.run, power.booted := true }, by decide +kernel⟩,
   ⟨{ up with kiln.latch := false, power.mode := PowerMode.run, power.booted := true, pair.castling := .draining none }, by decide +kernel⟩,
   ⟨{ up with kiln.latch := false, power.mode := PowerMode.steep }, by decide +kernel⟩,
   ⟨{ up with kiln.latch := true }, by decide +kernel⟩⟩
theorem witness_LeverEvents_2 :
    (∃ (s : Machine.State), s.power.withdrawing = false ∨ s.power.drainDone = true) ∧
    (∃ (s : Machine.State), s.power.withdrawing = true ∧ s.power.drainDone = false) :=
  ⟨⟨up, by decide +kernel⟩,
   ⟨{ up with power.withdrawing := true, power.drainDone := false }, by decide +kernel⟩⟩
theorem witness_CorePlainResults : ∃ (c : CoreId) (s : Machine.State), Issues c s :=
  ⟨.ccA, up, by unfold Issues; decide +kernel⟩
theorem witness_EntropySource_1 :
    (∃ (windows : List (Nat × Nat)) (ratios : List Nat) (s : Machine.State), aliveFailures windows + lockFailures 0 0 ratios < fieldAt (s.reg (rngBase + 36) 263144) 23 16) ∧
    (∃ (windows : List (Nat × Nat)) (ratios : List Nat) (s : Machine.State), fieldAt (s.reg (rngBase + 36) 263144) 23 16 ≤ aliveFailures windows + lockFailures 0 0 ratios) ∧
    (∃ (v : Word) (s : Machine.State), fieldAt v 31 30 ≠ 3 ∧ 32 ≤ s.rng.queue.length) ∧
    (∃ (v : Word) (s : Machine.State), fieldAt v 31 30 ≠ 3 ∧ s.rng.queue.length < 32) ∧
    (∃ (k : RngFail), rngFailed k = false) ∧
    (∃ (k : RngFail) (s : Machine.State), rngFailed k = true ∧ ({ s.rng with pool := [] }).state = RngState.seeded) :=
  ⟨⟨[], [], up, by decide +kernel⟩,
   ⟨List.replicate 8 (0, 0), List.replicate 4 0, up, by decide +kernel⟩,
   ⟨0, { up with rng.queue := List.replicate 32 ⟨1, .command 1, 0, 32, 0⟩ }, by decide +kernel⟩,
   ⟨0, up, by decide +kernel⟩,
   ⟨.starve 9, by decide +kernel⟩,
   ⟨.rct (List.replicate 51 true), up, by decide +kernel⟩⟩
theorem witness_EntropySource_2 :
    (∃ (k : RngFail) (s : Machine.State), rngFailed k = true ∧ ({ s.rng with pool := [] }).state ≠ RngState.seeded ∧ ({ s.rng with pool := [] }).startFails = 3) ∧
    (∃ (k : RngFail) (s : Machine.State), rngFailed k = true ∧ ({ s.rng with pool := [] }).state ≠ RngState.seeded ∧ ({ s.rng with pool := [] }).startFails ≠ 3) ∧
    (∃ (id : Nat) (t : Nat) (a : Nat) (len : Nat) (tmo : Nat) (rest : List RngReq) (s : Machine.State), rngReady s = true ∧ s.rng.queue = { id := id, user := RngUser.ticket t a, mode := 0, len := len, timeout := tmo } :: rest) ∧
    (∃ (s : Machine.State), s.rng.faulted = false ∧ s.rng.state = RngState.blocked) ∧
    (∃ (s : Machine.State), s.rng.faulted = false ∧ s.rng.state = RngState.starting) ∧
    (∃ (r : Nat) (t : Nat) (l : List (Nat × Nat)) (s : Machine.State), s.rng.finished = (r, t) :: l) :=
  ⟨⟨.starve 10, { up with rng.state := .starting, rng.startFails := 3 }, by decide +kernel⟩,
   ⟨.apt (List.replicate 1024 true), { up with rng.state := .starting }, by decide +kernel⟩,
   ⟨1, 2, 0x10001000, 32, 0, [], { up with rng := { up.rng with queue := [{ id := 1, user := RngUser.ticket 2 0x10001000, mode := 0, len := 32, timeout := 0 }] } }, by decide +kernel⟩,
   ⟨{ up with rng.faulted := false, rng.state := RngState.blocked }, by decide +kernel⟩,
   ⟨{ up with rng.faulted := false, rng.state := RngState.starting }, by decide +kernel⟩,
   ⟨0, 0, [], { up with rng.finished := ((0), (0)) :: ([]) }, by decide +kernel⟩⟩
theorem witness_EntropySource_3 :
    (∃ (s : Machine.State), s.rng.pool = []) ∧
    (∃ (id : Nat) (t : Nat) (a : Nat) (mode : Nat) (len : Nat) (tmo : Nat) (s : Machine.State), s.rng.queue = [{ id := id, user := RngUser.ticket t a, mode := mode, len := len, timeout := tmo }] ∧ s.rng.waiting = []) ∧
    (∃ (s : Machine.State), s.rng.state = RngState.starting ∧ s.power.supply = Supply.running ∧ s.power.mode = PowerMode.run) :=
  ⟨⟨{ up with rng.pool := [] }, by decide +kernel⟩,
   ⟨1, 2, 0x10001000, 0, 32, 0, { up with rng := { up.rng with queue := [{ id := 1, user := RngUser.ticket 2 0x10001000, mode := 0, len := 32, timeout := 0 }] } }, by decide +kernel⟩,
   ⟨{ up with rng.state := RngState.starting, power.supply := Supply.running, power.mode := PowerMode.run }, by decide +kernel⟩⟩
theorem witness_MemoryRepair_1 :
    (∃ (a : Nat) (row : Nat) (s : Machine.State), a < 64 ∧ row < 2048 ∧ s.dramc.spareRun = none ∧ (22 < a ∨ arrayRows a ≤ row)) ∧
    (∃ (a : Nat) (row : Nat) (s : Machine.State), a < 64 ∧ row < 2048 ∧ s.dramc.spareRun = none ∧ a ≤ 22 ∧ row < arrayRows a ∧ (List.filter (fun p => p.fst == a) s.dramc.spares).length < 4) ∧
    (∃ (a : Nat) (row : Nat) (s : Machine.State), a < 64 ∧ row < 2048 ∧ s.dramc.spareRun = none ∧ a ≤ 22 ∧ row < arrayRows a ∧ 4 ≤ (List.filter (fun p => p.fst == a) s.dramc.spares).length) ∧
    (∃ (a : Nat) (row : Nat) (s : Machine.State), a < 64 ∧ row < 2048 ∧ s.dramc.spareRun ≠ none) ∧
    (∃ (v : Word), bitAt v 0 = true) ∧
    (∃ (sram : Bool) (unc : Bool) (unit : Nat) (addr : Nat) (s : Machine.State), s.dramc.log.length < 64 ∧ (unc = true ∨ ∀ (e : EccEntry), e ∈ s.dramc.log → ¬(e.sram = sram ∧ e.addr = addr ∧ (sram = true → e.unit = unit)))) :=
  ⟨⟨23, 0, { up with dramc.spareRun := none }, by decide +kernel⟩,
   ⟨0, 0, { up with dramc.spareRun := none }, by decide +kernel⟩,
   ⟨0, 0, { up with dramc.spareRun := none, dramc.spares := [(0, 0), (0, 1), (0, 2), (0, 3)] }, by decide +kernel⟩,
   ⟨0, 0, { up with dramc.spareRun := some (0, 0) }, by decide +kernel⟩,
   ⟨1, by decide +kernel⟩,
   ⟨false, true ∨ ∀ (e : EccEntry), e ∈ (up).dramc.log → ¬(e.sram = (false) ∧ e.addr = (0) ∧ ((false) = true → e.unit = (0))), 0, 0, up, by decide +kernel⟩⟩
theorem witness_MemoryRepair_2 :
    (∃ (slot : Nat) (page : Nat) (bad : Nat) (s : Machine.State), s.dramc.rmapRun = some (slot, page, bad) ∧ s.power.mode = PowerMode.run ∧ Memory.wf s.mem = true) ∧
    (∃ (p : Nat × Nat) (s : Machine.State), s.dramc.spareRun = some p ∧ s.power.mode = PowerMode.run) ∧
    (∃ (s : Machine.State), scrubbing s = true ∧ s.dramc.dover = false) ∧
    (∃ (s : Machine.State), scrubbing s = true ∧ s.dramc.dpos + 1 ≠ ddrLap) ∧
    (∃ (s : Machine.State), scrubbing s = true ∧ s.dramc.sover = false) ∧
    (∃ (s : Machine.State), scrubbing s = true ∧ s.dramc.sover = true) :=
  ⟨⟨0, 0, 0, { up with dramc.rmapRun := some ((0), (0), (0)), power.mode := PowerMode.run }, by decide +kernel⟩,
   ⟨(0, 0), { up with dramc.spareRun := some (0, 0) }, by decide +kernel⟩,
   ⟨{ up with dramc.dover := false }, by decide +kernel⟩,
   ⟨up, by decide +kernel⟩,
   ⟨{ up with dramc.sover := false }, by decide +kernel⟩,
   ⟨{ up with dramc.sover := true }, by decide +kernel⟩⟩
theorem witness_MemoryRepair_3 :
    (∃ (s : Machine.State), scrubbing s = true ∧ s.dramc.spos + 1 = sramLap) ∧
    (∃ (s : Machine.State), scrubbing s = true ∧ s.dramc.spos + 1 ≠ sramLap) ∧
    (∃ (page : Word) (slot : Nat) (s : Machine.State), slot < 4096 ∧ BitVec.toNat page < 2 ^ 25 ∧ s.dramc.rmapRun = none ∧ slot ∈ s.dramc.used) ∧
    (∃ (page : Word) (slot : Nat) (s : Machine.State), slot < 4096 ∧ BitVec.toNat page < 2 ^ 25 ∧ s.dramc.rmapRun = none ∧ ¬slot ∈ s.dramc.used ∧ (2 ^ 37 ≤ BitVec.toNat page * 4096 ∨ reserveBase (s.setReg (dramcBase + 112) page) ≤ BitVec.toNat page * 4096 ∧ BitVec.toNat page * 4096 < reserveBase (s.setReg (dramcBase + 112) page) + 2 ^ 24)) ∧
    ((Config.ddrOwner ((1 : Word).toNat * 4096) = 1) → ∃ (page : Word) (slot : Nat) (s : Machine.State), slot < 4096 ∧ BitVec.toNat page < 2 ^ 25 ∧ s.dramc.rmapRun = none ∧ ¬slot ∈ s.dramc.used ∧ ¬(2 ^ 37 ≤ BitVec.toNat page * 4096 ∨ reserveBase (s.setReg (dramcBase + 112) page) ≤ BitVec.toNat page * 4096 ∧ BitVec.toNat page * 4096 < reserveBase (s.setReg (dramcBase + 112) page) + 2 ^ 24) ∧ Config.ddrOwner (BitVec.toNat page * 4096) = 1) ∧
    ((Config.ddrOwner ((1 : Word).toNat * 4096) ≠ 1) → ∃ (page : Word) (slot : Nat) (s : Machine.State), slot < 4096 ∧ BitVec.toNat page < 2 ^ 25 ∧ s.dramc.rmapRun = none ∧ ¬slot ∈ s.dramc.used ∧ ¬(2 ^ 37 ≤ BitVec.toNat page * 4096 ∨ reserveBase (s.setReg (dramcBase + 112) page) ≤ BitVec.toNat page * 4096 ∧ BitVec.toNat page * 4096 < reserveBase (s.setReg (dramcBase + 112) page) + 2 ^ 24) ∧ Config.ddrOwner (BitVec.toNat page * 4096) ≠ 1 ∧ s.dramc.used.length ≠ 4095) :=
  ⟨⟨{ up with dramc.spos := sramLap - 1 }, by decide +kernel⟩,
   ⟨up, by decide +kernel⟩,
   ⟨1, 0, { up with dramc.rmapRun := none, dramc.used := [0] }, by decide +kernel⟩,
   ⟨0, 0, { up with dramc.rmapRun := none }, by decide +kernel⟩,
   (by intro h; refine ⟨1, 0, { up with dramc.rmapRun := none, regs := [(dramcBase + 0x80, 1)] }, ?_, ?_, ?_, ?_, ?_, h⟩ <;> decide +kernel),
   (by intro h; refine ⟨1, 0, { up with dramc.rmapRun := none, regs := [(dramcBase + 0x80, 1)] }, ?_, ?_, ?_, ?_, ?_, h, ?_⟩ <;> decide +kernel)⟩
theorem witness_MemoryRepair_4 : ∃ (page : Word) (slot : Nat) (s : Machine.State), slot < 4096 ∧ BitVec.toNat page < 2 ^ 25 ∧ s.dramc.rmapRun ≠ none :=
  ⟨0, 0, { up with dramc.rmapRun := some (0, 0, 0) }, by decide +kernel⟩
theorem witness_CoreLoadsComplete :
    (∃ (c : CoreId) (rs : RegF) (imm : BitVec 16) (v : Nat) (s : Machine.State) (t : Machine.State), Issues c s ∧ mpuCheck s c (s.core c).ring 0 (BitVec.toNat (s.rd c rs + BitVec.signExtend 32 imm)) = none ∧ BitVec.toNat (s.rd c rs + BitVec.signExtend 32 imm) % 2 = 0 ∧ busLoad c (BitVec.toNat (s.rd c rs + BitVec.signExtend 32 imm)) 2 s = BusRes.ok v t) ∧
    (∃ (c : CoreId) (rs : RegF) (imm : BitVec 16) (v : Nat) (s : Machine.State) (t : Machine.State), Issues c s ∧ mpuCheck s c (s.core c).ring 0 (BitVec.toNat (s.rd c rs + BitVec.signExtend 32 imm)) = none ∧ BitVec.toNat (s.rd c rs + BitVec.signExtend 32 imm) % 4 = 0 ∧ busLoad c (BitVec.toNat (s.rd c rs + BitVec.signExtend 32 imm)) 4 s = BusRes.ok v t) ∧
    (∃ (c : CoreId) (rs : RegF) (imm : BitVec 16) (v : Nat) (s : Machine.State) (t : Machine.State), Issues c s ∧ mpuCheck s c (s.core c).ring 0 (BitVec.toNat (s.rd c rs + BitVec.signExtend 32 imm)) = none ∧ busLoad c (BitVec.toNat (s.rd c rs + BitVec.signExtend 32 imm)) 1 s = BusRes.ok v t) :=
  ⟨⟨.ccA, 8, 0, 0, (up).wr .ccA 8 0x10000000, (up).wr .ccA 8 0x10000000, ⟨by decide +kernel, by decide +kernel, by decide +kernel, by decide +kernel, by decide +kernel⟩, by decide +kernel, by decide +kernel, rfl⟩,
   ⟨.ccA, 8, 0, 0, (up).wr .ccA 8 0x10000000, (up).wr .ccA 8 0x10000000, ⟨by decide +kernel, by decide +kernel, by decide +kernel, by decide +kernel, by decide +kernel⟩, by decide +kernel, by decide +kernel, rfl⟩,
   ⟨.ccA, 8, 0, 0, (up).wr .ccA 8 0x10000000, (up).wr .ccA 8 0x10000000, ⟨by decide +kernel, by decide +kernel, by decide +kernel, by decide +kernel, by decide +kernel⟩, by decide +kernel, rfl⟩⟩
theorem witness_ReaderAndWiredTag_1 :
    (∃ (n : Fin 6) (s : Machine.State), (s.fe ↑n).jobs = []) ∧
    (∃ (n : Fin 6) (j : LabelJob) (l : List LabelJob) (s : Machine.State), (s.fe ↑n).jobs = j :: l ∧ (j.phase = LabelPhase.judge ∨ j.phase = LabelPhase.readback) ∧ 2 ≤ j.tries) ∧
    (∃ (n : Fin 6) (bs : List Byte) (j : LabelJob) (l : List LabelJob) (s : Machine.State) (d : List Byte), (s.fe ↑n).jobs = j :: l ∧ j.phase = LabelPhase.read ∧ j.session = none ∧ bs = 0 :: d ∧ (j.data ++ d).length / 16 < j.count) ∧
    (∃ (n : Fin 6) (bs : List Byte) (j : LabelJob) (l : List LabelJob) (s : Machine.State) (d : List Byte) (c : Inflight), (s.fe ↑n).jobs = j :: l ∧ j.phase = LabelPhase.read ∧ j.session = none ∧ bs = 0 :: d ∧ j.count ≤ (j.data ++ d).length / 16 ∧ s.command j.key = some c) ∧
    (∃ (n : Fin 6) (bs : List Byte) (j : LabelJob) (l : List LabelJob) (s : Machine.State) (u : List Byte), (s.fe ↑n).jobs = j :: l ∧ j.phase = LabelPhase.select ∧ 7 ≤ bs.length ∧ j.kind = LabelKind.scan ∧ u ∈ uidsOf bs.length bs) ∧
    (∃ (n : Fin 6) (bs : List Byte) (j : LabelJob) (l : List LabelJob) (s : Machine.State), (s.fe ↑n).jobs = j :: l ∧ j.phase = LabelPhase.select ∧ 7 ≤ bs.length ∧ j.kind ≠ LabelKind.scan ∧ ∀ (u : List Byte), u ∈ uidsOf bs.length bs → BitVec.ofNat 56 (leNat u) ≠ j.uid) :=
  ⟨⟨0, { up with reader.fes := List.replicate 6 { (⟨[], 0, 0⟩ : FrontEnd) with jobs := [] } }, by decide +kernel⟩,
   ⟨0, { labelJob with phase := .judge, tries := 2 }, [], { up with reader.fes := List.replicate 6 ⟨[{ labelJob with phase := .judge, tries := 2 }], 0, 0⟩ }, by decide +kernel⟩,
   ⟨0, [0], { labelJob with phase := .read }, [], { up with reader.fes := List.replicate 6 ⟨[{ labelJob with phase := .read }], 0, 0⟩ }, [], by decide +kernel⟩,
   ⟨0, 0 :: leBytes 16 0, { labelJob with phase := .read }, [], { up with reader.fes := List.replicate 6 ⟨[{ labelJob with phase := .read }], 0, 0⟩, cqe.inflight := [waiting] }, leBytes 16 0, waiting, by decide +kernel⟩,
   ⟨0, [1, 2, 3, 4, 5, 6, 7], { labelJob with kind := .scan, phase := .select }, [], { up with reader.fes := List.replicate 6 ⟨[{ labelJob with kind := .scan, phase := .select }], 0, 0⟩ }, [1, 2, 3, 4, 5, 6, 7], by decide +kernel⟩,
   ⟨0, [2, 0, 0, 0, 0, 0, 0], { labelJob with uid := 1 }, [], { up with reader.fes := List.replicate 6 ⟨[{ labelJob with uid := 1 }], 0, 0⟩ }, by decide +kernel⟩⟩
theorem witness_ReaderAndWiredTag_2 :
    (∃ (n : Fin 6) (bs : List Byte) (j : LabelJob) (l : List LabelJob) (s : Machine.State), (s.fe ↑n).jobs = j :: l ∧ j.phase = LabelPhase.select ∧ 7 ≤ bs.length ∧ j.kind ≠ LabelKind.scan ∧ ∃ u, u ∈ uidsOf bs.length bs ∧ BitVec.ofNat 56 (leNat u) = j.uid) ∧
    (∃ (n : Fin 6) (bs : List Byte) (j : LabelJob) (l : List LabelJob) (s : Machine.State) (k : Nat), (s.fe ↑n).jobs = j :: l ∧ j.phase = LabelPhase.select ∧ 7 ≤ bs.length ∧ k < (uidsOf bs.length bs).length) ∧
    (∃ (n : Fin 6) (bs : List Byte) (j : LabelJob) (l : List LabelJob) (s : Machine.State), (s.fe ↑n).jobs = j :: l ∧ j.phase = LabelPhase.select ∧ bs.length < 7) ∧
    (∃ (n : Fin 6) (bs : List Byte) (j : LabelJob) (l : List LabelJob) (s : Machine.State) (d : List Byte), (s.fe ↑n).jobs = j :: l ∧ j.phase = LabelPhase.write ∧ j.session = none ∧ bs = 0 :: d) ∧
    (∃ (n : Fin 6) (bs : List Byte) (j : LabelJob) (l : List LabelJob) (s : Machine.State) (d : List Byte), (s.fe ↑n).jobs = j :: l ∧ j.phase = LabelPhase.write ∧ j.session = none ∧ bs = 1 :: d ∧ (j.boosted = true ∨ 200 ≤ j.power)) ∧
    (∃ (n : Fin 6) (bs : List Byte) (j : LabelJob) (l : List LabelJob) (s : Machine.State) (d : List Byte), (s.fe ↑n).jobs = j :: l ∧ j.phase = LabelPhase.write ∧ j.session = none ∧ bs = 1 :: d ∧ j.boosted = false ∧ j.power < 200) :=
  ⟨(by refine ⟨0, [1, 0, 0, 0, 0, 0, 0], { labelJob with uid := 1 }, [], { up with reader.fes := List.replicate 6 ⟨[{ labelJob with uid := 1 }], 0, 0⟩ }, ?_, ?_, ?_, ?_, ⟨[1, 0, 0, 0, 0, 0, 0], by decide +kernel, by decide +kernel⟩⟩ <;> decide +kernel),
   ⟨0, [1, 0, 0, 0, 0, 0, 0], { labelJob with uid := 1 }, [], { up with reader.fes := List.replicate 6 ⟨[{ labelJob with uid := 1 }], 0, 0⟩ }, 0, by decide +kernel⟩,
   ⟨0, [], labelJob, [], { up with reader.fes := List.replicate 6 { (⟨[], 0, 0⟩ : FrontEnd) with jobs := (labelJob) :: ([]) } }, by decide +kernel⟩,
   ⟨0, [0], { labelJob with phase := .write }, [], { up with reader.fes := List.replicate 6 ⟨[{ labelJob with phase := .write }], 0, 0⟩ }, [], by decide +kernel⟩,
   ⟨0, [1, 3], { labelJob with phase := .write, boosted := true }, [], { up with reader.fes := List.replicate 6 ⟨[{ labelJob with phase := .write, boosted := true }], 0, 0⟩ }, [3], by decide +kernel⟩,
   ⟨0, [1, 3], { labelJob with phase := .write, power := 100 }, [], { up with reader.fes := List.replicate 6 ⟨[{ labelJob with phase := .write, power := 100 }], 0, 0⟩ }, [3], by decide +kernel⟩⟩
theorem witness_ReaderAndWiredTag_3 :
    (∃ (n : Fin 6) (j : LabelJob) (l : List LabelJob) (s : Machine.State), (s.fe ↑n).jobs = j :: l ∧ j.phase ≠ LabelPhase.write ∧ j.phase ≠ LabelPhase.judge ∧ j.phase ≠ LabelPhase.readback ∧ j.kind ≠ LabelKind.scan ∧ 2 ≤ j.tries) ∧
    (∃ (n : Fin 6) (j : LabelJob) (l : List LabelJob) (s : Machine.State), (s.fe ↑n).jobs = j :: l ∧ j.phase ≠ LabelPhase.write ∧ j.tries < 2) ∧
    (∃ (page : Nat) (slot : Nat) (s : Machine.State) (w : WiredOp), page < 256 ∧ slot < 4 ∧ s.tag.wired = some w ∧ w.key = none ∧ w.op = 1 ∧ 191 < w.page) ∧
    (∃ (page : Nat) (slot : Nat) (s : Machine.State) (w : WiredOp), page < 256 ∧ slot < 4 ∧ s.tag.wired = some w ∧ w.key = none ∧ w.op = 1 ∧ w.page ≤ 191) ∧
    (∃ (page : Nat) (slot : Nat) (s : Machine.State) (w : WiredOp), page < 256 ∧ slot < 4 ∧ s.tag.wired = some w ∧ w.key = none ∧ w.op = 2 ∧ 63 < w.page) ∧
    (∃ (page : Nat) (slot : Nat) (s : Machine.State) (w : WiredOp), page < 256 ∧ slot < 4 ∧ s.tag.wired = some w ∧ w.key = none ∧ w.op = 2 ∧ w.page ≤ 63 ∧ w.data.length = 64 ∧ copyPending s = none ∧ latestCommit s ≠ none) :=
  ⟨⟨0, { labelJob with tries := 2 }, [], { up with reader.fes := List.replicate 6 ⟨[{ labelJob with tries := 2 }], 0, 0⟩ }, by decide +kernel⟩,
   ⟨0, labelJob, [], { up with reader.fes := List.replicate 6 { (⟨[], 0, 0⟩ : FrontEnd) with jobs := (labelJob) :: ([]) } }, by decide +kernel⟩,
   ⟨0, 0, { up with tag.wired := some { wiredOp with op := 1, page := 192 } }, { wiredOp with op := 1, page := 192 }, by decide +kernel⟩,
   ⟨0, 0, { up with tag.wired := some (wiredOp) }, wiredOp, by decide +kernel⟩,
   ⟨0, 0, { up with tag.wired := some { wiredOp with op := 2, page := 64 } }, { wiredOp with op := 2, page := 64 }, by decide +kernel⟩,
   ⟨0, 0, { committed false with tag.wired := some { wiredOp with op := 2, page := 63, data := leBytes 64 0 } }, { wiredOp with op := 2, page := 63, data := leBytes 64 0 }, by decide +kernel⟩⟩
theorem witness_ReaderAndWiredTag_4 :
    (∃ (page : Nat) (slot : Nat) (s : Machine.State) (w : WiredOp), page < 256 ∧ slot < 4 ∧ s.tag.wired = some w ∧ w.key = none ∧ w.op = 3 ∧ WiredOp.locked s w = false) ∧
    (∃ (page : Nat) (slot : Nat) (s : Machine.State) (w : WiredOp), page < 256 ∧ slot < 4 ∧ s.tag.wired = some w ∧ w.key = none ∧ w.op = 3 ∧ WiredOp.locked s w = true) ∧
    (∃ (page : Nat) (slot : Nat) (s : Machine.State) (w : WiredOp), page < 256 ∧ slot < 4 ∧ s.tag.wired = some w ∧ w.key = none ∧ w.op = 4 ∧ WiredOp.locked s w = false) ∧
    (∃ (page : Nat) (slot : Nat) (s : Machine.State) (w : WiredOp), page < 256 ∧ slot < 4 ∧ s.tag.wired = some w ∧ w.key = none ∧ w.op = 4 ∧ WiredOp.locked s w = true) ∧
    (∃ (page : Nat) (slot : Nat) (s : Machine.State), page < 256 ∧ slot < 4 ∧ tagRun s = false) ∧
    (∃ (page : Nat) (slot : Nat) (s : Machine.State), page < 256 ∧ slot < 4 ∧ tagRun s = true ∧ s.tag.wired = none) :=
  ⟨⟨0, 0, { up with tag.wired := some { wiredOp with op := 3, page := 0 } }, { wiredOp with op := 3, page := 0 }, by decide +kernel⟩,
   ⟨0, 0, { up with tag.wired := some { wiredOp with op := 3, page := 0 }, regs := [(tagifBase + 0xFC, 1)] }, { wiredOp with op := 3, page := 0 }, by decide +kernel⟩,
   ⟨0, 0, { up with tag.wired := some { wiredOp with op := 4, page := 0 } }, { wiredOp with op := 4, page := 0 }, by decide +kernel⟩,
   ⟨0, 0, { up with tag.wired := some { wiredOp with op := 4, page := 0 }, regs := [(tagifBase + 0xFC, 1)] }, { wiredOp with op := 4, page := 0 }, by decide +kernel⟩,
   ⟨0, 0, { up with power.mode := .steep }, by decide +kernel⟩,
   ⟨0, 0, { up with tag.wired := none }, by decide +kernel⟩⟩
theorem witness_ReaderAndWiredTag_5 :
    (∃ (page : Nat) (slot : Nat) (s : Machine.State), page < 256 ∧ slot < 4 ∧ tagRun s = true ∧ s.tag.wired ≠ none) ∧
    (∃ (s : Machine.State), s.power.supply = Supply.running ∨ s.power.mode = PowerMode.lager) ∧
    (∃ (s : Machine.State), s.power.supply ≠ Supply.running ∧ s.power.mode ≠ PowerMode.lager) ∧
    (∃ (v : Nat) (p : Nat) (k : CapPort) (s : Machine.State), s.reader.ports[p]? = some k ∧ portDriven s p = false ∧ 500 ≤ v ∧ v ≤ 50000 ∧ k.base ≠ 0) ∧
    (∃ (v : Nat) (p : Nat) (k : CapPort) (s : Machine.State), s.reader.ports[p]? = some k ∧ portDriven s p = false ∧ 50000 < v ∧ k.out = 7) :=
  ⟨⟨0, 0, { up with tag.wired := some wiredOp }, by decide +kernel⟩,
   ⟨up, by decide +kernel⟩,
   ⟨{ up with power.supply := .failHold }, by decide +kernel⟩,
   ⟨500, 0, ⟨5, 0, false, 0, 0, 0, false⟩, { up with reader.ports := [⟨5, 0, false, 0, 0, 0, false⟩] }, by decide +kernel⟩,
   ⟨50001, 0, ⟨5, 0, false, 0, 0, 7, false⟩, { up with reader.ports := [⟨5, 0, false, 0, 0, 7, false⟩] }, by decide +kernel⟩⟩
theorem witness_CompletionRecordedAndPosted :
    (∃ (key : Nat) (r : Result) (c : Inflight) (s : Machine.State) (x : Session), s.command key = some c ∧ s.journals = true ∧ 0 < s.journal.next ∧ s.journal.recovery = false ∧ c.entry.durable = false ∧ r.deltas = [] ∧ x ∈ (complete key r s).vault.sessions) ∧
    (∃ (q : Nat) (x : Queue) (s : Machine.State) (a : Nat), s.queue q = some x ∧ (a < memKey (4 + q / 64) (BitVec.toNat x.cqBase + 32 * x.cqTail) ∨ memKey (4 + q / 64) (BitVec.toNat x.cqBase + 32 * x.cqTail) + 32 ≤ a)) ∧
    (∃ (q : Nat) (x : Queue) (s : Machine.State), s.queue q = some x ∧ (x.intr = false ∨ (s.port (q / 64)).msixEnable = false)) ∧
    (∃ (q : Nat) (x : Queue) (s : Machine.State) (k : Nat), s.queue q = some x ∧ k < 32) ∧
    (∃ (q : Nat) (x : Queue) (s : Machine.State) (v : MsixVector), s.queue q = some x ∧ x.intr = true ∧ (s.port (q / 64)).msixEnable = true ∧ (s.port (q / 64)).msix[x.vector]? = some v ∧ (v.masked = true ∨ (s.port (q / 64)).functionMask = true)) ∧
    (∃ (q : Nat) (x : Queue) (s : Machine.State) (v : MsixVector), s.queue q = some x ∧ x.intr = true ∧ (s.port (q / 64)).msixEnable = true ∧ (s.port (q / 64)).msix[x.vector]? = some v ∧ v.masked = false ∧ (s.port (q / 64)).functionMask = false) :=
  ⟨⟨1, answer 0 [], { key := 1, accRec := none, src := .queue 5, op := 0x0A02, entry := entryFor 0x0A02 3 0 [] 0 0, sqhead := 1, wait := .card 0, past := false, after := none, began := 0, faults := 0 }, { up with journal.recovery := false, journal.next := 1, cqe.inflight := [{ key := 1, accRec := none, src := .queue 5, op := 0x0A02, entry := entryFor 0x0A02 3 0 [] 0 0, sqhead := 1, wait := .card 0, past := false, after := none, began := 0, faults := 0 }], vault.sessions := [(⟨1, 4, 0, 2, 3, [], 0, 100, [], [], [], false, none, false⟩ : Session)] }, (⟨1, 4, 0, 2, 3, [], 0, 100, [], [], [], false, none, false⟩ : Session), by decide +kernel⟩,
   ⟨0, ((up).queue (0)).get (by decide +kernel), up, 0, by decide +kernel⟩,
   ⟨5, ((up).queue (5)).get (by decide +kernel), up, by decide +kernel⟩,
   ⟨0, ((up).queue (0)).get (by decide +kernel), up, 0, by decide +kernel⟩,
   ⟨0, ((up).queue (0)).get (by decide +kernel), up, (((up).port ((0) / 64)).msix[(((up).queue (0)).get (by decide +kernel)).vector]?).get (by decide +kernel), by decide +kernel⟩,
   ⟨0, queueOf 0 0x10000 0x20000 true, { up with port0.msix := List.replicate 128 ⟨0x1000, 5, false, false⟩ }, ⟨0x1000, 5, false, false⟩, by decide +kernel⟩⟩
theorem witness_StepGoesOn :
    (∃ (w : Word), illegalWord w = none) ∧
    (∃ (c : Instr) (rest : List Instr) (s : Machine.State), s.pending = c :: rest ∧ c.wellFormed = true) :=
  ⟨⟨0x08000000, by decide +kernel⟩,
   ⟨.leverClosed, [], { up with pending := [.leverClosed] }, by decide +kernel⟩⟩
theorem witness_EntryAccepted : ∃ (op : BitVec 16) (src : Source) (e : Entry) (s : Machine.State) (t : Machine.State) (c : Inflight), Accepted op src e s c t ∧ ∀ (d : Inflight), d ∈ s.cqe.inflight → d.key ≠ c.key :=
  ⟨1, Source.queue 0, entryFor 1 3 0 [] 0 0, up, begins 1 0 (entryFor 1 3 0 [] 0 0) (up), commandOf 1 0 (entryFor 1 3 0 [] 0 0) (up), accepted_of _ _ _ _ (entryFor_crc ..) (by decide +kernel), by decide +kernel⟩
theorem witness_YomirPublicKeysAndCustody_1 :
    (∃ (src : Source) (e : Entry) (s : Machine.State) (t : Machine.State) (c : Inflight) (op : Nat) (code : BitVec 16) (i : Instr) (input : List Byte), Accepted code src e s c t ∧ readInput t src (e.param 16 4) e.addr0 = Except.ok input ∧ (op, code, i) ∈ [(1, 1025#16, Instr.pkSign src e), (2, 1026#16, Instr.pkVerify src e), (3, 1027#16, Instr.pkKemEncap src e), (4, 1028#16, Instr.pkKemDecap src e), (5, 1029#16, Instr.pkEcdh src e), (6, 1030#16, Instr.pkKeygen src e), (7, 1032#16, Instr.pkModexp src e)] ∧ pkeCheck (pkParams op e) (e.param 16 4) (e.param 20 4) src.kernel = none ∧ anyPkeFenced t = false) ∧
    (∃ (src : Source) (e : Entry) (s : Machine.State) (t : Machine.State) (c : Inflight) (op : Nat) (code : BitVec 16) (i : Instr) (r : Result), Accepted code src e s c t ∧ pkeCheck (pkParams op e) (e.param 16 4) (e.param 20 4) src.kernel = some r ∧ (op, code, i) ∈ [(1, 1025#16, Instr.pkSign src e), (2, 1026#16, Instr.pkVerify src e), (3, 1027#16, Instr.pkKemEncap src e), (4, 1028#16, Instr.pkKemDecap src e), (5, 1029#16, Instr.pkEcdh src e), (6, 1030#16, Instr.pkKeygen src e), (7, 1032#16, Instr.pkModexp src e)]) ∧
    (∃ (src : Source) (e : Entry) (s : Machine.State) (t : Machine.State) (c : Inflight), Accepted 1031 src e s c t ∧ (if e.param 24 1 % 2 = 1 then 23224 else 4952) ≤ e.param 28 4 ∧ (src = Source.tag → e.param 28 4 ≤ 8192) ∧ pkeFenced t = false) ∧
    (∃ (src : Source) (e : Entry) (s : Machine.State) (t : Machine.State) (c : Inflight) (st : List Byte) (u : Machine.State), Accepted 1537 src e s c t ∧ st = statementOf t (if t.vault.lastGrant = 65534 then 1 else t.vault.lastGrant + 1) (e.param 8 1) (e.param 28 4) (BitVec.ofNat 64 (e.param 16 8)) t.fresh [] ∧ writeOutput src (e.param 24 4) e.addr0 st t = Except.ok u ∧ 1 ≤ e.param 8 1 ∧ e.param 8 1 ≤ 4 ∧ t.lifecycle ≠ Lifecycle.keyless ∧ 0 < e.param 28 4 ∧ e.param 28 4 ≤ 3600 ∧ openCount t < 8 ∧ 128 ≤ e.param 24 4 ∧ rngReady t = true) ∧
    (∃ (src : Source) (e : Entry) (s : Machine.State) (t : Machine.State) (c : Inflight), Accepted 1540 src e s c t ∧ e.param 8 1 = 3 ∧ t.lifecycle = Lifecycle.commissioned) ∧
    (∃ (src : Source) (e : Entry) (s : Machine.State) (t : Machine.State) (c : Inflight), Accepted 1540 src e s c t ∧ e.param 8 1 = 3 ∧ t.lifecycle ≠ Lifecycle.commissioned) :=
  ⟨⟨Source.queue 0, entryFor 0x0402 3 0 [(8, 2), (9, 1), (0xA, 1), (0x10, 160)] 0x30000 0, listed 160 up, begins 0x0402 0 (entryFor 0x0402 3 0 [(8, 2), (9, 1), (0xA, 1), (0x10, 160)] 0x30000 0) (listed 160 up), commandOf 0x0402 0 (entryFor 0x0402 3 0 [(8, 2), (9, 1), (0xA, 1), (0x10, 160)] 0x30000 0) (listed 160 up), 2, 0x0402, .pkVerify (.queue 0) (entryFor 0x0402 3 0 [(8, 2), (9, 1), (0xA, 1), (0x10, 160)] 0x30000 0), okOf (readInput (begins 0x0402 0 (entryFor 0x0402 3 0 [(8, 2), (9, 1), (0xA, 1), (0x10, 160)] 0x30000 0) (listed 160 up)) (Source.queue 0) ((entryFor 0x0402 3 0 [(8, 2), (9, 1), (0xA, 1), (0x10, 160)] 0x30000 0).param 16 4) (entryFor 0x0402 3 0 [(8, 2), (9, 1), (0xA, 1), (0x10, 160)] 0x30000 0).addr0) [], accepted_of _ _ _ _ (entryFor_crc ..) (by decide +kernel), ok_of (by decide +kernel), by simp, by decide +kernel⟩,
   ⟨Source.queue 0, entryFor 0x0402 3 0 [(8, 1)] 0 0, up, begins 0x0402 0 (entryFor 0x0402 3 0 [(8, 1)] 0 0) (up), commandOf 0x0402 0 (entryFor 0x0402 3 0 [(8, 1)] 0 0) (up), 2, 0x0402, .pkVerify (.queue 0) (entryFor 0x0402 3 0 [(8, 1)] 0 0), (pkeCheck (pkParams (2) (entryFor 0x0402 3 0 [(8, 1)] 0 0)) ((entryFor 0x0402 3 0 [(8, 1)] 0 0).param 16 4) ((entryFor 0x0402 3 0 [(8, 1)] 0 0).param 20 4) (Source.queue 0).kernel).get (by decide +kernel), accepted_of _ _ _ _ (entryFor_crc ..) (by decide +kernel), some_of _, by simp⟩,
   ⟨Source.queue 0, entryFor 1031 3 0 [(0x1C, 4952)] 0x30000 0, up, begins 1031 0 (entryFor 1031 3 0 [(0x1C, 4952)] 0x30000 0) (up), commandOf 1031 0 (entryFor 1031 3 0 [(0x1C, 4952)] 0x30000 0) (up), accepted_of _ _ _ _ (entryFor_crc ..) (by decide +kernel), by decide +kernel⟩,
   ⟨Source.queue 0, entryFor 1537 3 0 [(8, 1), (0x1C, 3600), (0x18, 128)] 0x30000 0, listed 128 up, begins 1537 0 (entryFor 1537 3 0 [(8, 1), (0x1C, 3600), (0x18, 128)] 0x30000 0) (listed 128 up), commandOf 1537 0 (entryFor 1537 3 0 [(8, 1), (0x1C, 3600), (0x18, 128)] 0x30000 0) (listed 128 up), statementOf (begins 1537 0 (entryFor 1537 3 0 [(8, 1), (0x1C, 3600), (0x18, 128)] 0x30000 0) (listed 128 up)) (if (begins 1537 0 (entryFor 1537 3 0 [(8, 1), (0x1C, 3600), (0x18, 128)] 0x30000 0) (listed 128 up)).vault.lastGrant = 65534 then 1 else (begins 1537 0 (entryFor 1537 3 0 [(8, 1), (0x1C, 3600), (0x18, 128)] 0x30000 0) (listed 128 up)).vault.lastGrant + 1) ((entryFor 1537 3 0 [(8, 1), (0x1C, 3600), (0x18, 128)] 0x30000 0).param 8 1) ((entryFor 1537 3 0 [(8, 1), (0x1C, 3600), (0x18, 128)] 0x30000 0).param 28 4) (BitVec.ofNat 64 ((entryFor 1537 3 0 [(8, 1), (0x1C, 3600), (0x18, 128)] 0x30000 0).param 16 8)) (begins 1537 0 (entryFor 1537 3 0 [(8, 1), (0x1C, 3600), (0x18, 128)] 0x30000 0) (listed 128 up)).fresh [], okOf (writeOutput (Source.queue 0) ((entryFor 1537 3 0 [(8, 1), (0x1C, 3600), (0x18, 128)] 0x30000 0).param 24 4) (entryFor 1537 3 0 [(8, 1), (0x1C, 3600), (0x18, 128)] 0x30000 0).addr0 (statementOf (begins 1537 0 (entryFor 1537 3 0 [(8, 1), (0x1C, 3600), (0x18, 128)] 0x30000 0) (listed 128 up)) (if (begins 1537 0 (entryFor 1537 3 0 [(8, 1), (0x1C, 3600), (0x18, 128)] 0x30000 0) (listed 128 up)).vault.lastGrant = 65534 then 1 else (begins 1537 0 (entryFor 1537 3 0 [(8, 1), (0x1C, 3600), (0x18, 128)] 0x30000 0) (listed 128 up)).vault.lastGrant + 1) ((entryFor 1537 3 0 [(8, 1), (0x1C, 3600), (0x18, 128)] 0x30000 0).param 8 1) ((entryFor 1537 3 0 [(8, 1), (0x1C, 3600), (0x18, 128)] 0x30000 0).param 28 4) (BitVec.ofNat 64 ((entryFor 1537 3 0 [(8, 1), (0x1C, 3600), (0x18, 128)] 0x30000 0).param 16 8)) (begins 1537 0 (entryFor 1537 3 0 [(8, 1), (0x1C, 3600), (0x18, 128)] 0x30000 0) (listed 128 up)).fresh []) (begins 1537 0 (entryFor 1537 3 0 [(8, 1), (0x1C, 3600), (0x18, 128)] 0x30000 0) (listed 128 up))) up, accepted_of _ _ _ _ (entryFor_crc ..) (by decide +kernel), rfl, ok_of (by decide +kernel), by decide +kernel⟩,
   ⟨Source.queue 0, entryFor 1540 3 1 [(8, 3)] 0 0, { up with vault.sessions := [grantFor 4 3 true] }, begins 1540 0 (entryFor 1540 3 1 [(8, 3)] 0 0) ({ up with vault.sessions := [grantFor 4 3 true] }), commandOf 1540 0 (entryFor 1540 3 1 [(8, 3)] 0 0) ({ up with vault.sessions := [grantFor 4 3 true] }), accepted_of _ _ _ _ (entryFor_crc ..) (by decide +kernel), by decide +kernel⟩,
   ⟨Source.queue 0, entryFor 1540 3 1 [(8, 3)] 0 0, { up with nvm.lifecycle := .field, vault.sessions := [grantFor 4 3 true] }, begins 1540 0 (entryFor 1540 3 1 [(8, 3)] 0 0) ({ up with nvm.lifecycle := .field, vault.sessions := [grantFor 4 3 true] }), commandOf 1540 0 (entryFor 1540 3 1 [(8, 3)] 0 0) ({ up with nvm.lifecycle := .field, vault.sessions := [grantFor 4 3 true] }), accepted_of _ _ _ _ (entryFor_crc ..) (by decide +kernel), by decide +kernel⟩⟩
theorem witness_YomirPublicKeysAndCustody_2 :
    (∃ (src : Source) (e : Entry) (s : Machine.State) (t : Machine.State) (c : Inflight) (b : List Byte), Accepted 1540 src e s c t ∧ readInput t src 2704 e.addr0 = Except.ok b ∧ e.param 8 1 = 5 ∧ e.param 16 4 = 2704) ∧
    (∃ (src : Source) (e : Entry) (s : Machine.State) (t : Machine.State) (c : Inflight), Accepted 1793 src e s c t) ∧
    (∃ (src : Source) (e : Entry) (s : Machine.State) (t : Machine.State) (c : Inflight), Accepted 1794 src e s c t ∧ t.nvm.partner = none) ∧
    (∃ (src : Source) (e : Entry) (s : Machine.State) (t : Machine.State) (c : Inflight), Accepted 1794 src e s c t ∧ t.nvm.partner.isSome = true ∧ e.param 8 1 = 1 ∧ castlingNow t = false ∧ (t.cqe.inflight.any fun d => d.op == 9) = false ∧ t.pair.role = Role.active ∧ castleReady t = true) ∧
    (∃ (src : Source) (e : Entry) (s : Machine.State) (t : Machine.State) (c : Inflight), Accepted 1794 src e s c t ∧ t.nvm.partner.isSome = true ∧ e.param 8 1 = 3 ∧ t.pair.pathA = false ∧ t.pair.pathB = false) ∧
    (∃ (src : Source) (e : Entry) (s : Machine.State) (t : Machine.State) (c : Inflight), Accepted 1795 src e s c t ∧ e.param 8 1 ≤ 2) :=
  ⟨⟨Source.queue 0, entryFor 1540 3 1 [(8, 5), (0x10, 2704), (0x28, 0x30000)] 0x30000 0, { listed 2704 up with vault.sessions := [grantFor 4 5 true] }, begins 1540 0 (entryFor 1540 3 1 [(8, 5), (0x10, 2704), (0x28, 0x30000)] 0x30000 0) ({ listed 2704 up with vault.sessions := [grantFor 4 5 true] }), commandOf 1540 0 (entryFor 1540 3 1 [(8, 5), (0x10, 2704), (0x28, 0x30000)] 0x30000 0) ({ listed 2704 up with vault.sessions := [grantFor 4 5 true] }), okOf (readInput (begins 1540 0 (entryFor 1540 3 1 [(8, 5), (0x10, 2704), (0x28, 0x30000)] 0x30000 0) ({ listed 2704 up with vault.sessions := [grantFor 4 5 true] })) (Source.queue 0) 2704 (entryFor 1540 3 1 [(8, 5), (0x10, 2704), (0x28, 0x30000)] 0x30000 0).addr0) [], accepted_of _ _ _ _ (entryFor_crc ..) (by decide +kernel), ok_of (by decide +kernel), by decide +kernel⟩,
   ⟨Source.queue 0, entryFor 1793 3 0 [] 0 0, up, begins 1793 0 (entryFor 1793 3 0 [] 0 0) (up), commandOf 1793 0 (entryFor 1793 3 0 [] 0 0) (up), accepted_of _ _ _ _ (entryFor_crc ..) (by decide +kernel)⟩,
   ⟨Source.queue 0, entryFor 1794 3 0 [(8, 1)] 0 0, up, begins 1794 0 (entryFor 1794 3 0 [(8, 1)] 0 0) (up), commandOf 1794 0 (entryFor 1794 3 0 [(8, 1)] 0 0) (up), accepted_of _ _ _ _ (entryFor_crc ..) (by decide +kernel), by decide +kernel⟩,
   ⟨Source.queue 0, entryFor 1794 3 0 [(8, 1)] 0 0, paired, begins 1794 0 (entryFor 1794 3 0 [(8, 1)] 0 0) (paired), commandOf 1794 0 (entryFor 1794 3 0 [(8, 1)] 0 0) (paired), accepted_of _ _ _ _ (entryFor_crc ..) (by decide +kernel), by decide +kernel⟩,
   ⟨Source.queue 0, entryFor 1794 3 0 [(8, 3)] 0 0, { up with nvm.partner := some 9 }, begins 1794 0 (entryFor 1794 3 0 [(8, 3)] 0 0) ({ up with nvm.partner := some 9 }), commandOf 1794 0 (entryFor 1794 3 0 [(8, 3)] 0 0) ({ up with nvm.partner := some 9 }), accepted_of _ _ _ _ (entryFor_crc ..) (by decide +kernel), by decide +kernel⟩,
   ⟨Source.queue 0, entryFor 1795 3 0 [(8, 2)] 0 0, up, begins 1795 0 (entryFor 1795 3 0 [(8, 2)] 0 0) (up), commandOf 1795 0 (entryFor 1795 3 0 [(8, 2)] 0 0) (up), accepted_of _ _ _ _ (entryFor_crc ..) (by decide +kernel), by decide +kernel⟩⟩
theorem witness_YomirPublicKeysAndCustody_3 :
    ((Config.sigOk [] [] (slice (leBytes 4736 1) 8 4723) = false) → ∃ (t : Machine.State) (x : Session) (id : Nat) (blob : List Byte) (cu : Custodian), List.find? (fun k => k.id == id) t.nvm.custodians = some cu ∧ x.cls ≠ 5 ∧ x.approved.contains id = false ∧ blobFormed id blob = true ∧ Config.sigOk (List.take 2688 cu.keys) x.statement (slice blob 8 4723) = false) ∧
    ((Config.sigOk [] [] (slice (leBytes 4736 1) 8 4723) = true) → ∃ (t : Machine.State) (x : Session) (id : Nat) (blob : List Byte) (cu : Custodian), List.find? (fun k => k.id == id) t.nvm.custodians = some cu ∧ x.cls ≠ 5 ∧ x.approved.contains id = false ∧ blobFormed id blob = true ∧ Config.sigOk (List.take 2688 cu.keys) x.statement (slice blob 8 4723) = true ∧ x.approved.length + 1 < x.m) ∧
    (∃ (t : Machine.State) (p : PkeParams), ringSize t ≤ t.pke.jobs.length ∨ p.alg = 1 ∧ p.op = 6 ∧ keygenBusy t = true) ∧
    (∃ (t : Machine.State) (p : PkeParams), t.pke.jobs.length < ringSize t ∧ (p.alg = 1 ∧ p.op = 6 → keygenBusy t = false)) ∧
    (∃ (src : Source) (e : Entry) (s : Machine.State) (t : Machine.State) (c : Inflight) (x : Session) (blob : List Byte), Accepted 1538 src e s c t ∧ readInput t src (e.param 16 4) e.addr0 = Except.ok blob ∧ t.session e.handle = some x ∧ x.granted = false ∧ x.used = false ∧ expired t x = false ∧ e.param 8 1 = 0 ∧ (e.param 16 4 = 4736 ∨ e.param 16 4 = 6352)) ∧
    (∃ (src : Source) (e : Entry) (s : Machine.State) (t : Machine.State) (c : Inflight) (x : Session), Accepted 1539 src e s c t ∧ t.session e.handle = some x) :=
  ⟨(by intro h; refine ⟨{ up with nvm.custodians := [⟨1, 0, 0, []⟩] }, grantFor 4 3 false, 1, (leBytes 4736 1), ⟨1, 0, 0, []⟩, ?_, ?_, ?_, ?_, h⟩ <;> decide +kernel),
   (by intro h; refine ⟨{ up with nvm.custodians := [⟨1, 0, 0, []⟩] }, grantFor 4 3 false, 1, (leBytes 4736 1), ⟨1, 0, 0, []⟩, ?_, ?_, ?_, ?_, h, ?_⟩ <;> decide +kernel),
   ⟨{ up with pke.unit0 := some { pkJob with p := { pkJob.p with alg := 1, op := 6 } } }, { pkJob.p with alg := 1, op := 6 }, by decide +kernel⟩,
   ⟨up, pkJob.p, by decide +kernel⟩,
   ⟨Source.queue 0, entryFor 1538 3 1 [(8, 0), (0x10, 4736)] 0x30000 0, { listed 4736 up with vault.sessions := [grantFor 4 3 false] }, begins 1538 0 (entryFor 1538 3 1 [(8, 0), (0x10, 4736)] 0x30000 0) ({ listed 4736 up with vault.sessions := [grantFor 4 3 false] }), commandOf 1538 0 (entryFor 1538 3 1 [(8, 0), (0x10, 4736)] 0x30000 0) ({ listed 4736 up with vault.sessions := [grantFor 4 3 false] }), grantFor 4 3 false, okOf (readInput (begins 1538 0 (entryFor 1538 3 1 [(8, 0), (0x10, 4736)] 0x30000 0) ({ listed 4736 up with vault.sessions := [grantFor 4 3 false] })) (Source.queue 0) ((entryFor 1538 3 1 [(8, 0), (0x10, 4736)] 0x30000 0).param 16 4) (entryFor 1538 3 1 [(8, 0), (0x10, 4736)] 0x30000 0).addr0) [], accepted_of _ _ _ _ (entryFor_crc ..) (by decide +kernel), ok_of (by decide +kernel), by decide +kernel⟩,
   ⟨Source.queue 0, entryFor 1539 3 1 [] 0 0, { up with vault.sessions := [grantFor 4 3 false] }, begins 1539 0 (entryFor 1539 3 1 [] 0 0) ({ up with vault.sessions := [grantFor 4 3 false] }), commandOf 1539 0 (entryFor 1539 3 1 [] 0 0) ({ up with vault.sessions := [grantFor 4 3 false] }), grantFor 4 3 false, accepted_of _ _ _ _ (entryFor_crc ..) (by decide +kernel), by decide +kernel⟩⟩
theorem witness_VaultEngine_1 :
    (∃ (n : Fin 32) (s : Machine.State), bitAt (s.reg (vaultBase + 8) 0) 0 = true ∧ s.vault.run = none ∧ (bitAt (s.reg (vaultBase + 8) 0) 1 = false ∨ 8 ≤ ↑n)) ∧
    (∃ (n : Fin 32) (s : Machine.State), bitAt (s.reg (vaultBase + 8) 0) 0 = true ∧ s.vault.run = none ∧ bitAt (s.reg (vaultBase + 8) 0) 1 = true ∧ ↑n < 8) ∧
    (∃ (cmd : EngCmd) (key : Hash) (s : Machine.State), bitAt (s.reg (vaultBase + 8) 0) 0 = true ∧ s.vault.run = none ∧ cmd.kslot < 32 ∧ cmd.dslot < 32 ∧ cmd.inLen < 2048 ∧ cmd.outLen < 2048 ∧ (if cmd.kek = true then s.vault.kek else s.vslot cmd.kslot) = some key ∧ cmd.dsel = false ∧ engLengthOk 1 cmd.inLen 0 = false) ∧
    (∃ (cmd : EngCmd) (key : Hash) (s : Machine.State), bitAt (s.reg (vaultBase + 8) 0) 0 = true ∧ s.vault.run = none ∧ cmd.kslot < 32 ∧ cmd.dslot < 32 ∧ cmd.inLen < 2048 ∧ cmd.outLen < 2048 ∧ (if cmd.kek = true then s.vault.kek else s.vslot cmd.kslot) = some key ∧ cmd.dsel = false ∧ engLengthOk 1 cmd.inLen 0 = true) ∧
    (∃ (cmd : EngCmd) (key : Hash) (s : Machine.State), bitAt (s.reg (vaultBase + 8) 0) 0 = true ∧ s.vault.run = none ∧ cmd.kslot < 32 ∧ cmd.dslot < 32 ∧ cmd.inLen < 2048 ∧ cmd.outLen < 2048 ∧ (if cmd.kek = true then s.vault.kek else s.vslot cmd.kslot) = some key ∧ engLengthOk 2 cmd.inLen 0 = true ∧ cmd.dsel = false ∧ secretRange s (BitVec.toNat (cmd.dst &&& 4294967288)) (cmd.inLen - 8) = false) ∧
    ((Config.kwUnwrap 7 (leBytes 24 0) = none) → ∃ (cmd : EngCmd) (key : Hash) (s : Machine.State), bitAt (s.reg (vaultBase + 8) 0) 0 = true ∧ s.vault.run = none ∧ cmd.kslot < 32 ∧ cmd.dslot < 32 ∧ cmd.inLen < 2048 ∧ cmd.outLen < 2048 ∧ (if cmd.kek = true then s.vault.kek else s.vslot cmd.kslot) = some key ∧ engLengthOk 2 cmd.inLen 0 = true ∧ cmd.dsel = false ∧ secretRange s (BitVec.toNat (cmd.dst &&& 4294967288)) (cmd.inLen - 8) = true ∧ Config.kwUnwrap key (s.readBytes 0 (BitVec.toNat (cmd.src &&& 4294967288)) cmd.inLen) = none) :=
  ⟨⟨0, { up with vault.run := none }, by decide +kernel⟩,
   ⟨7, { up with regs := [(vaultBase + 8, 3)] }, by decide +kernel⟩,
   ⟨{ engCmd with inLen := 8 }, 7, engineOn, by decide +kernel⟩,
   ⟨engCmd, 7, engineOn, by decide +kernel⟩,
   ⟨{ engCmd with inLen := 24, dst := 0x10010000 }, 7, engineOn, by decide +kernel⟩,
   (by intro h; refine ⟨{ engCmd with inLen := 24 }, 7, engineOn, ?_, ?_, ?_, ?_, ?_, ?_, ?_, ?_, ?_, ?_, h⟩ <;> decide +kernel)⟩
theorem witness_VaultEngine_2 :
    ((Config.kwUnwrap 7 (leBytes 24 0) = some [1]) → ∃ (cmd : EngCmd) (key : Hash) (s : Machine.State) (o : List (BitVec 8)), bitAt (s.reg (vaultBase + 8) 0) 0 = true ∧ s.vault.run = none ∧ cmd.kslot < 32 ∧ cmd.dslot < 32 ∧ cmd.inLen < 2048 ∧ cmd.outLen < 2048 ∧ (if cmd.kek = true then s.vault.kek else s.vslot cmd.kslot) = some key ∧ engLengthOk 2 cmd.inLen 0 = true ∧ cmd.dsel = false ∧ secretRange s (BitVec.toNat (cmd.dst &&& 4294967288)) (cmd.inLen - 8) = true ∧ Config.kwUnwrap key (s.readBytes 0 (BitVec.toNat (cmd.src &&& 4294967288)) cmd.inLen) = some o) ∧
    ((Config.kwUnwrap 7 (leBytes 24 0) = some [1]) → ∃ (cmd : EngCmd) (key : Hash) (s : Machine.State) (o : List (BitVec 8)), bitAt (s.reg (vaultBase + 8) 0) 0 = true ∧ s.vault.run = none ∧ cmd.kslot < 32 ∧ cmd.dslot < 32 ∧ cmd.inLen < 2048 ∧ cmd.outLen < 2048 ∧ (if cmd.kek = true then s.vault.kek else s.vslot cmd.kslot) = some key ∧ engLengthOk 2 cmd.inLen 0 = true ∧ cmd.dsel = true ∧ ¬(bitAt (s.reg (vaultBase + 8) 0) 1 = true ∧ cmd.dslot < 8) ∧ Config.kwUnwrap key (s.readBytes 0 (BitVec.toNat (cmd.src &&& 4294967288)) cmd.inLen) = some o) ∧
    (∃ (cmd : EngCmd) (key : Hash) (s : Machine.State), bitAt (s.reg (vaultBase + 8) 0) 0 = true ∧ s.vault.run = none ∧ cmd.kslot < 32 ∧ cmd.dslot < 32 ∧ cmd.inLen < 2048 ∧ cmd.outLen < 2048 ∧ (if cmd.kek = true then s.vault.kek else s.vslot cmd.kslot) = some key ∧ engLengthOk 3 cmd.inLen cmd.outLen = true ∧ cmd.dsel = false ∧ secretRange s (BitVec.toNat (cmd.dst &&& 4294967288)) cmd.outLen = true) ∧
    (∃ (cmd : EngCmd) (key : Hash) (s : Machine.State), bitAt (s.reg (vaultBase + 8) 0) 0 = true ∧ s.vault.run = none ∧ cmd.kslot < 32 ∧ cmd.dslot < 32 ∧ cmd.inLen < 2048 ∧ cmd.outLen < 2048 ∧ (if cmd.kek = true then s.vault.kek else s.vslot cmd.kslot) = some key ∧ engLengthOk 3 cmd.inLen cmd.outLen = true ∧ cmd.dsel = true ∧ ¬(bitAt (s.reg (vaultBase + 8) 0) 1 = true ∧ cmd.dslot < 8)) ∧
    (∃ (cmd : EngCmd) (key : Hash) (s : Machine.State), bitAt (s.reg (vaultBase + 8) 0) 0 = true ∧ s.vault.run = none ∧ cmd.kslot < 32 ∧ cmd.dslot < 32 ∧ cmd.inLen < 2048 ∧ cmd.outLen < 2048 ∧ (if cmd.kek = true then s.vault.kek else s.vslot cmd.kslot) = some key ∧ engLengthOk 4 cmd.inLen 0 = true) ∧
    (∃ (r : EngRun) (s : Machine.State), s.vault.run = some r ∧ r.toMem = none ∧ r.toSlot = none) :=
  ⟨(by intro h; refine ⟨{ engCmd with inLen := 24 }, 7, engineOn, [1], ?_, ?_, ?_, ?_, ?_, ?_, ?_, ?_, ?_, ?_, h⟩ <;> decide +kernel),
   (by intro h; refine ⟨{ engCmd with inLen := 24, dsel := true }, 7, engineOn, [1], ?_, ?_, ?_, ?_, ?_, ?_, ?_, ?_, ?_, ?_, h⟩ <;> decide +kernel),
   ⟨{ engCmd with inLen := 8, outLen := 16 }, 7, engineOn, by decide +kernel⟩,
   ⟨{ engCmd with inLen := 8, outLen := 16, dsel := true }, 7, engineOn, by decide +kernel⟩,
   ⟨{ engCmd with inLen := 8 }, 7, engineOn, by decide +kernel⟩,
   ⟨(⟨0, none, none⟩ : EngRun), { up with vault.run := some (⟨0, none, none⟩ : EngRun) }, by decide +kernel⟩⟩
theorem witness_VaultEngine_3 :
    (∃ (r : EngRun) (s : Machine.State) (n : Nat) (k : Option Hash), s.vault.run = some r ∧ r.toMem = none ∧ r.toSlot = some (n, k)) ∧
    (∃ (r : EngRun) (s : Machine.State) (a : Nat) (bs : List Byte), s.vault.run = some r ∧ r.toMem = some (a, bs) ∧ r.toSlot = none) :=
  ⟨⟨(⟨0, none, some (3, some 5)⟩ : EngRun), { up with vault.run := some (⟨0, none, some (3, some 5)⟩ : EngRun) }, 3, some 5, by decide +kernel⟩,
   ⟨(⟨0, some (0x10001000, [1]), none⟩ : EngRun), { up with vault.run := some (⟨0, some (0x10001000, [1]), none⟩ : EngRun) }, 0x10001000, [1], by decide +kernel⟩⟩
theorem witness_YomirReaderAndCards_1 :
    (∃ (src : Source) (e : Entry) (s : Machine.State) (t : Machine.State) (c : Inflight), Accepted 2305 src e s c t ∧ maskPorts (e.param 8 8) = []) ∧
    (∃ (src : Source) (e : Entry) (s : Machine.State) (t : Machine.State) (c : Inflight) (n : Nat), Accepted 2305 src e s c t ∧ maskPorts (e.param 8 8) ≠ [] ∧ listTotal t (bufferSpace src) 4096 (BitVec.toNat e.addr0) 0 = some n ∧ 32 * (maskPorts (e.param 8 8)).length ≤ n ∧ e.param 16 1 % 2 = 0 ∧ ∀ (p : Nat), p ∈ maskPorts (e.param 8 8) → t.isFenced 6 (p / 8) = false) ∧
    (∃ (src : Source) (e : Entry) (s : Machine.State) (t : Machine.State) (c : Inflight) (n : Nat), Accepted 2305 src e s c t ∧ maskPorts (e.param 8 8) ≠ [] ∧ listTotal t (bufferSpace src) 4096 (BitVec.toNat e.addr0) 0 = some n ∧ n < 32 * (maskPorts (e.param 8 8)).length) ∧
    (∃ (src : Source) (e : Entry) (s : Machine.State) (t : Machine.State) (c : Inflight) (off : Nat), Accepted 2306 src e s c t ∧ labelRange e false = some off) ∧
    (∃ (src : Source) (e : Entry) (s : Machine.State) (t : Machine.State) (c : Inflight) (off : Nat), Accepted 2307 src e s c t ∧ labelRange e true = some off) ∧
    (∃ (src : Source) (e : Entry) (s : Machine.State) (t : Machine.State) (c : Inflight) (data : List Byte), Accepted 2308 src e s c t ∧ readInput t src (e.param 12 2) e.addr0 = Except.ok data ∧ e.param 8 2 % 64 = 0 ∧ e.param 8 2 < 4096 ∧ 0 < e.param 12 2 ∧ e.param 12 2 % 64 = 0 ∧ e.param 12 2 ≤ 4096 - e.param 8 2) :=
  ⟨⟨Source.queue 0, entryFor 2305 3 0 [] 0 0, up, begins 2305 0 (entryFor 2305 3 0 [] 0 0) (up), commandOf 2305 0 (entryFor 2305 3 0 [] 0 0) (up), accepted_of _ _ _ _ (entryFor_crc ..) (by decide +kernel), by decide +kernel⟩,
   ⟨Source.queue 0, entryFor 2305 3 0 [(8, 1)] 0x30000 0, listed 32 up, begins 2305 0 (entryFor 2305 3 0 [(8, 1)] 0x30000 0) (listed 32 up), commandOf 2305 0 (entryFor 2305 3 0 [(8, 1)] 0x30000 0) (listed 32 up), 32, accepted_of _ _ _ _ (entryFor_crc ..) (by decide +kernel), by decide +kernel⟩,
   ⟨Source.queue 0, entryFor 2305 3 0 [(8, 1)] 0x30000 0, listed 31 up, begins 2305 0 (entryFor 2305 3 0 [(8, 1)] 0x30000 0) (listed 31 up), commandOf 2305 0 (entryFor 2305 3 0 [(8, 1)] 0x30000 0) (listed 31 up), 31, accepted_of _ _ _ _ (entryFor_crc ..) (by decide +kernel), by decide +kernel⟩,
   ⟨Source.queue 0, entryFor 2306 3 0 [(8, 48), (9, 255), (0xC, 1)] 0x30000 0, up, begins 2306 0 (entryFor 2306 3 0 [(8, 48), (9, 255), (0xC, 1)] 0x30000 0) (up), commandOf 2306 0 (entryFor 2306 3 0 [(8, 48), (9, 255), (0xC, 1)] 0x30000 0) (up), (labelRange (entryFor 2306 3 0 [(8, 48), (9, 255), (0xC, 1)] 0x30000 0) false).get (by decide +kernel), accepted_of _ _ _ _ (entryFor_crc ..) (by decide +kernel), some_of _⟩,
   ⟨Source.queue 0, entryFor 2307 3 0 [(8, 0), (9, 255), (0xC, 5)] 0x30000 0, up, begins 2307 0 (entryFor 2307 3 0 [(8, 0), (9, 255), (0xC, 5)] 0x30000 0) (up), commandOf 2307 0 (entryFor 2307 3 0 [(8, 0), (9, 255), (0xC, 5)] 0x30000 0) (up), (labelRange (entryFor 2307 3 0 [(8, 0), (9, 255), (0xC, 5)] 0x30000 0) true).get (by decide +kernel), accepted_of _ _ _ _ (entryFor_crc ..) (by decide +kernel), some_of _⟩,
   ⟨Source.queue 0, entryFor 2308 3 0 [(8, 4032), (0xC, 64)] 0x30000 0, listed 64 up, begins 2308 0 (entryFor 2308 3 0 [(8, 4032), (0xC, 64)] 0x30000 0) (listed 64 up), commandOf 2308 0 (entryFor 2308 3 0 [(8, 4032), (0xC, 64)] 0x30000 0) (listed 64 up), okOf (readInput (begins 2308 0 (entryFor 2308 3 0 [(8, 4032), (0xC, 64)] 0x30000 0) (listed 64 up)) (Source.queue 0) ((entryFor 2308 3 0 [(8, 4032), (0xC, 64)] 0x30000 0).param 12 2) (entryFor 2308 3 0 [(8, 4032), (0xC, 64)] 0x30000 0).addr0) [], accepted_of _ _ _ _ (entryFor_crc ..) (by decide +kernel), ok_of (by decide +kernel), by decide +kernel⟩⟩
theorem witness_YomirReaderAndCards_2 :
    (∃ (src : Source) (e : Entry) (s : Machine.State) (t : Machine.State) (c : Inflight) (u : Machine.State), Accepted 2309 src e s c t ∧ writeOutput src (e.param 8 4) e.addr0 (List.flatMap slotEventBytes (List.take (e.param 8 4 / 16) (List.filter RingEvent.isSlot t.reader.events))) t = Except.ok u ∧ 0 < e.param 8 4 ∧ e.param 8 4 % 16 = 0 ∧ e.param 8 4 ≤ 16384) ∧
    (∃ (src : Source) (e : Entry) (s : Machine.State) (t : Machine.State) (c : Inflight), Accepted 2561 src e s c t ∧ 4 ≤ e.param 8 1) ∧
    (∃ (src : Source) (e : Entry) (s : Machine.State) (t : Machine.State) (c : Inflight), Accepted 2561 src e s c t ∧ e.param 8 1 < 4 ∧ e.addr0 = 0) ∧
    (∃ (src : Source) (e : Entry) (s : Machine.State) (t : Machine.State) (c : Inflight) (b : List Byte), Accepted 2562 src e s c t ∧ readInput t src (e.param 12 4) e.addr0 = Except.ok b ∧ slotRefusal t (e.param 8 1) false = none ∧ 4 ≤ e.param 12 4 ∧ e.param 12 4 ≤ 65544 ∧ 2 ≤ e.param 16 4 ∧ e.param 16 4 ≤ 65538) ∧
    (∃ (src : Source) (e : Entry) (s : Machine.State) (t : Machine.State) (c : Inflight) (r : Result), Accepted 2562 src e s c t ∧ slotRefusal t (e.param 8 1) false = some r) ∧
    (∃ (src : Source) (e : Entry) (s : Machine.State) (t : Machine.State) (c : Inflight), Accepted 2563 src e s c t ∧ slotRefusal t (e.param 8 1) true = none ∧ (e.param 9 1 = 1 ∨ e.param 9 1 = 2 ∨ e.param 9 1 = 6)) :=
  ⟨⟨Source.queue 0, entryFor 2309 3 0 [(8, 16)] 0x30000 0, listed 16 up, begins 2309 0 (entryFor 2309 3 0 [(8, 16)] 0x30000 0) (listed 16 up), commandOf 2309 0 (entryFor 2309 3 0 [(8, 16)] 0x30000 0) (listed 16 up), okOf (writeOutput (Source.queue 0) ((entryFor 2309 3 0 [(8, 16)] 0x30000 0).param 8 4) (entryFor 2309 3 0 [(8, 16)] 0x30000 0).addr0 (List.flatMap slotEventBytes (List.take ((entryFor 2309 3 0 [(8, 16)] 0x30000 0).param 8 4 / 16) (List.filter RingEvent.isSlot (begins 2309 0 (entryFor 2309 3 0 [(8, 16)] 0x30000 0) (listed 16 up)).reader.events))) (begins 2309 0 (entryFor 2309 3 0 [(8, 16)] 0x30000 0) (listed 16 up))) up, accepted_of _ _ _ _ (entryFor_crc ..) (by decide +kernel), ok_of (by decide +kernel), by decide +kernel⟩,
   ⟨Source.queue 0, entryFor 2561 3 0 [(8, 4)] 0 0, up, begins 2561 0 (entryFor 2561 3 0 [(8, 4)] 0 0) (up), commandOf 2561 0 (entryFor 2561 3 0 [(8, 4)] 0 0) (up), accepted_of _ _ _ _ (entryFor_crc ..) (by decide +kernel), by decide +kernel⟩,
   ⟨Source.queue 0, entryFor 2561 3 0 [(8, 3)] 0 0, up, begins 2561 0 (entryFor 2561 3 0 [(8, 3)] 0 0) (up), commandOf 2561 0 (entryFor 2561 3 0 [(8, 3)] 0 0) (up), accepted_of _ _ _ _ (entryFor_crc ..) (by decide +kernel), by decide +kernel⟩,
   ⟨Source.queue 0, entryFor 2562 3 0 [(8, 0), (0xC, 4), (0x10, 65538)] 0x30000 0, { listed 4 up with cards := List.replicate 4 { CardSlot.reset with phase := .ready, det := true, mode := 1 } }, begins 2562 0 (entryFor 2562 3 0 [(8, 0), (0xC, 4), (0x10, 65538)] 0x30000 0) ({ listed 4 up with cards := List.replicate 4 { CardSlot.reset with phase := .ready, det := true, mode := 1 } }), commandOf 2562 0 (entryFor 2562 3 0 [(8, 0), (0xC, 4), (0x10, 65538)] 0x30000 0) ({ listed 4 up with cards := List.replicate 4 { CardSlot.reset with phase := .ready, det := true, mode := 1 } }), okOf (readInput (begins 2562 0 (entryFor 2562 3 0 [(8, 0), (0xC, 4), (0x10, 65538)] 0x30000 0) ({ listed 4 up with cards := List.replicate 4 { CardSlot.reset with phase := .ready, det := true, mode := 1 } })) (Source.queue 0) ((entryFor 2562 3 0 [(8, 0), (0xC, 4), (0x10, 65538)] 0x30000 0).param 12 4) (entryFor 2562 3 0 [(8, 0), (0xC, 4), (0x10, 65538)] 0x30000 0).addr0) [], accepted_of _ _ _ _ (entryFor_crc ..) (by decide +kernel), ok_of (by decide +kernel), by decide +kernel⟩,
   ⟨Source.queue 0, entryFor 2562 3 0 [(8, 0), (0xC, 4), (0x10, 2)] 0x30000 0, up, begins 2562 0 (entryFor 2562 3 0 [(8, 0), (0xC, 4), (0x10, 2)] 0x30000 0) (up), commandOf 2562 0 (entryFor 2562 3 0 [(8, 0), (0xC, 4), (0x10, 2)] 0x30000 0) (up), (slotRefusal (begins 2562 0 (entryFor 2562 3 0 [(8, 0), (0xC, 4), (0x10, 2)] 0x30000 0) (up)) ((entryFor 2562 3 0 [(8, 0), (0xC, 4), (0x10, 2)] 0x30000 0).param 8 1) false).get (by decide +kernel), accepted_of _ _ _ _ (entryFor_crc ..) (by decide +kernel), some_of _⟩,
   ⟨Source.queue 0, entryFor 2563 3 0 [(8, 0), (9, 1)] 0 0, { listed 4 up with cards := List.replicate 4 { CardSlot.reset with phase := .ready, det := true, mode := 2 } }, begins 2563 0 (entryFor 2563 3 0 [(8, 0), (9, 1)] 0 0) ({ listed 4 up with cards := List.replicate 4 { CardSlot.reset with phase := .ready, det := true, mode := 2 } }), commandOf 2563 0 (entryFor 2563 3 0 [(8, 0), (9, 1)] 0 0) ({ listed 4 up with cards := List.replicate 4 { CardSlot.reset with phase := .ready, det := true, mode := 2 } }), accepted_of _ _ _ _ (entryFor_crc ..) (by decide +kernel), by decide +kernel⟩⟩
theorem witness_YomirReaderAndCards_3 :
    (∃ (src : Source) (e : Entry) (s : Machine.State) (t : Machine.State) (c : Inflight) (b : List Byte), Accepted 2563 src e s c t ∧ readInput t src (e.param 12 4) e.addr0 = Except.ok b ∧ slotRefusal t (e.param 8 1) true = none ∧ e.param 9 1 = 3) ∧
    (∃ (src : Source) (e : Entry) (s : Machine.State) (t : Machine.State) (c : Inflight), Accepted 2563 src e s c t ∧ slotRefusal t (e.param 8 1) true = none ∧ e.param 9 1 = 4 ∧ 0 < e.param 12 4 ∧ e.param 12 4 ≤ 16 ∧ e.param 10 2 + e.param 12 4 ≤ 16) ∧
    (∃ (src : Source) (e : Entry) (s : Machine.State) (t : Machine.State) (c : Inflight), Accepted 2563 src e s c t ∧ slotRefusal t (e.param 8 1) true = none ∧ e.param 9 1 = 5 ∧ bitAt (t.reg (tagifBase + 252) 0) 0 = false) ∧
    (∃ (src : Source) (e : Entry) (s : Machine.State) (t : Machine.State) (c : Inflight), Accepted 2563 src e s c t ∧ slotRefusal t (e.param 8 1) true = none ∧ e.param 9 1 = 5 ∧ bitAt (t.reg (tagifBase + 252) 0) 0 = true) ∧
    (∃ (j : LabelJob) (u : Machine.State), j.port / 8 < 6 ∧ u.reader.fes.length = 6 ∧ (u.fe (j.port / 8)).jobs ≠ []) ∧
    (∃ (src : Source) (e : Entry) (s : Machine.State) (t : Machine.State) (c : Inflight), Accepted 2306 src e s c t ∧ t.isFenced 6 (e.param 8 1 / 8) = false ∧ (e.param 9 1 = 255 ∨ (t.reader.keys.getD (e.param 9 1) none).isSome = true) ∧ labelRange e false = none) :=
  ⟨⟨Source.queue 0, entryFor 2563 3 0 [(8, 0), (9, 3), (0xC, 4)] 0x30000 0, { listed 4 up with cards := List.replicate 4 { CardSlot.reset with phase := .ready, det := true, mode := 2 } }, begins 2563 0 (entryFor 2563 3 0 [(8, 0), (9, 3), (0xC, 4)] 0x30000 0) ({ listed 4 up with cards := List.replicate 4 { CardSlot.reset with phase := .ready, det := true, mode := 2 } }), commandOf 2563 0 (entryFor 2563 3 0 [(8, 0), (9, 3), (0xC, 4)] 0x30000 0) ({ listed 4 up with cards := List.replicate 4 { CardSlot.reset with phase := .ready, det := true, mode := 2 } }), okOf (readInput (begins 2563 0 (entryFor 2563 3 0 [(8, 0), (9, 3), (0xC, 4)] 0x30000 0) ({ listed 4 up with cards := List.replicate 4 { CardSlot.reset with phase := .ready, det := true, mode := 2 } })) (Source.queue 0) ((entryFor 2563 3 0 [(8, 0), (9, 3), (0xC, 4)] 0x30000 0).param 12 4) (entryFor 2563 3 0 [(8, 0), (9, 3), (0xC, 4)] 0x30000 0).addr0) [], accepted_of _ _ _ _ (entryFor_crc ..) (by decide +kernel), ok_of (by decide +kernel), by decide +kernel⟩,
   ⟨Source.queue 0, entryFor 2563 3 0 [(8, 0), (9, 4), (0xA, 0), (0xC, 16)] 0 0, { listed 16 up with cards := List.replicate 4 { CardSlot.reset with phase := .ready, det := true, mode := 2 } }, begins 2563 0 (entryFor 2563 3 0 [(8, 0), (9, 4), (0xA, 0), (0xC, 16)] 0 0) ({ listed 16 up with cards := List.replicate 4 { CardSlot.reset with phase := .ready, det := true, mode := 2 } }), commandOf 2563 0 (entryFor 2563 3 0 [(8, 0), (9, 4), (0xA, 0), (0xC, 16)] 0 0) ({ listed 16 up with cards := List.replicate 4 { CardSlot.reset with phase := .ready, det := true, mode := 2 } }), accepted_of _ _ _ _ (entryFor_crc ..) (by decide +kernel), by decide +kernel⟩,
   ⟨Source.queue 0, entryFor 2563 3 0 [(8, 0), (9, 5)] 0 0, { listed 4 up with cards := List.replicate 4 { CardSlot.reset with phase := .ready, det := true, mode := 2 } }, begins 2563 0 (entryFor 2563 3 0 [(8, 0), (9, 5)] 0 0) ({ listed 4 up with cards := List.replicate 4 { CardSlot.reset with phase := .ready, det := true, mode := 2 } }), commandOf 2563 0 (entryFor 2563 3 0 [(8, 0), (9, 5)] 0 0) ({ listed 4 up with cards := List.replicate 4 { CardSlot.reset with phase := .ready, det := true, mode := 2 } }), accepted_of _ _ _ _ (entryFor_crc ..) (by decide +kernel), by decide +kernel⟩,
   ⟨Source.queue 0, entryFor 2563 3 0 [(8, 0), (9, 5)] 0 0, { listed 4 up with cards := List.replicate 4 { CardSlot.reset with phase := .ready, det := true, mode := 2 }, regs := (tagifBase + 252, 1) :: firmwareRegs State.reset }, begins 2563 0 (entryFor 2563 3 0 [(8, 0), (9, 5)] 0 0) ({ listed 4 up with cards := List.replicate 4 { CardSlot.reset with phase := .ready, det := true, mode := 2 }, regs := (tagifBase + 252, 1) :: firmwareRegs State.reset }), commandOf 2563 0 (entryFor 2563 3 0 [(8, 0), (9, 5)] 0 0) ({ listed 4 up with cards := List.replicate 4 { CardSlot.reset with phase := .ready, det := true, mode := 2 }, regs := (tagifBase + 252, 1) :: firmwareRegs State.reset }), accepted_of _ _ _ _ (entryFor_crc ..) (by decide +kernel), by decide +kernel⟩,
   ⟨labelJob, { up with reader.fes := List.replicate 6 ⟨[labelJob], 0, 0⟩ }, by decide +kernel⟩,
   ⟨Source.queue 0, entryFor 2306 3 0 [(8, 47), (9, 255), (0xC, 64)] 0x30000 0, up, begins 2306 0 (entryFor 2306 3 0 [(8, 47), (9, 255), (0xC, 64)] 0x30000 0) (up), commandOf 2306 0 (entryFor 2306 3 0 [(8, 47), (9, 255), (0xC, 64)] 0x30000 0) (up), accepted_of _ _ _ _ (entryFor_crc ..) (by decide +kernel), by decide +kernel⟩⟩
theorem witness_YomirReaderAndCards_4 : ∃ (src : Source) (e : Entry) (s : Machine.State) (t : Machine.State) (c : Inflight) (data : List Byte), Accepted 2307 src e s c t ∧ readInput t src (16 * e.param 12 2) e.addr0 = Except.ok data ∧ t.isFenced 6 (e.param 8 1 / 8) = false ∧ (e.param 9 1 = 255 ∨ (t.reader.keys.getD (e.param 9 1) none).isSome = true) ∧ labelRange e true = none :=
  ⟨Source.queue 0, entryFor 2307 3 0 [(8, 0), (9, 255), (0xC, 1)] 0x30000 0, listed 16 up, begins 2307 0 (entryFor 2307 3 0 [(8, 0), (9, 255), (0xC, 1)] 0x30000 0) (listed 16 up), commandOf 2307 0 (entryFor 2307 3 0 [(8, 0), (9, 255), (0xC, 1)] 0x30000 0) (listed 16 up), okOf (readInput (begins 2307 0 (entryFor 2307 3 0 [(8, 0), (9, 255), (0xC, 1)] 0x30000 0) (listed 16 up)) (Source.queue 0) (16 * (entryFor 2307 3 0 [(8, 0), (9, 255), (0xC, 1)] 0x30000 0).param 12 2) (entryFor 2307 3 0 [(8, 0), (9, 255), (0xC, 1)] 0x30000 0).addr0) [], accepted_of _ _ _ _ (entryFor_crc ..) (by decide +kernel), ok_of (by decide +kernel), by decide +kernel⟩
theorem witness_WarmAndManagementResets_1 :
    (∃ (a : Nat), a < 1074921472 ∨ 1075118080 ≤ a) ∧
    (∃ (v : Word), bitAt v 0 = false ∧ bitAt v 1 = false) ∧
    (∃ (v : Word), bitAt v 0 = false ∧ bitAt v 1 = true) ∧
    (∃ (v : Word), bitAt v 0 = true ∧ bitAt v 1 = false) ∧
    (∃ (v : Word), bitAt v 0 = true ∧ bitAt v 1 = true) ∧
    (∃ (cause : Nat) (a : Nat), cause < 11 ∧ a < 2 ^ 64) :=
  ⟨⟨0, by decide +kernel⟩,
   ⟨0, by decide +kernel⟩,
   ⟨2, by decide +kernel⟩,
   ⟨1, by decide +kernel⟩,
   ⟨3, by decide +kernel⟩,
   ⟨0, 0, by decide +kernel⟩⟩
theorem witness_WarmAndManagementResets_2 :
    (∃ (cause : Nat) (s : Machine.State) (k : Nat), cause < 11 ∧ bitAt s.power.rstCause k = true) ∧
    (∃ (cause : Nat) (safe : Bool) (s : Machine.State) (l : Lane), cause < 11 ∧ l ∈ (warmReset cause safe s).lanes.lanes) ∧
    (∃ (u : Machine.State), coreOn u CoreId.mgt = false) ∧
    (∃ (u : Machine.State), coreOn u CoreId.mgt = true) ∧
    (∃ (k : Nat), k < 4) ∧
    (∃ (k : Nat), k < 6) :=
  ⟨⟨0, up, 0, by decide +kernel⟩,
   ⟨0, false, up, ((warmReset (0) (false) (up)).lanes.lanes).head (by decide +kernel), by decide +kernel⟩,
   ⟨{ up with power.mode := .lager }, by decide +kernel⟩,
   ⟨up, by decide +kernel⟩,
   ⟨0, by decide +kernel⟩,
   ⟨0, by decide +kernel⟩⟩
theorem witness_TamperMonitors_1 :
    (∃ (k : Nat), 17 ≤ k ∧ k < 32) ∧
    (∃ (k : Nat) (s : Machine.State), k < 17 ∧ (s.power.supply = Supply.dark ∨ s.power.supply = Supply.starting ∧ s.tamper.armed = 0 ∧ k ≠ 15) ∧ cellMonitors.getLsbD k = true ∧ (s.tamper.cellMark = 0 ∨ s.vault.kek.isSome = true)) ∧
    (∃ (k : Nat) (s : Machine.State), k < 17 ∧ (s.power.supply = Supply.dark ∨ s.power.supply = Supply.starting ∧ s.tamper.armed = 0 ∧ k ≠ 15) ∧ cellMonitors.getLsbD k = true ∧ s.tamper.cellMark ≠ 0 ∧ s.vault.kek = none) ∧
    (∃ (k : Nat), k < 17 ∧ cellMonitors.getLsbD k = false) ∧
    (∃ (k : Nat) (s : Machine.State), k < 17 ∧ k = 16 ∧ s.power.supply ≠ Supply.dark ∧ s.tamper.armed.getLsbD k = false) ∧
    (∃ (k : Nat) (s : Machine.State), k < 17 ∧ k ≠ 16 ∧ s.tamper.armed.getLsbD k = false) :=
  ⟨⟨17, by decide +kernel⟩,
   ⟨0, { up with power.supply := .dark }, by decide +kernel⟩,
   ⟨0, { up with power.supply := .dark, tamper.cellMark := 1 }, by decide +kernel⟩,
   ⟨6, by decide +kernel⟩,
   ⟨16, up, by decide +kernel⟩,
   ⟨0, up, by decide +kernel⟩⟩
theorem witness_TamperMonitors_2 :
    (∃ (k : Nat) (s : Machine.State), k < 17 ∧ s.power.supply = Supply.starting ∧ (s.tamper.armed ≠ 0 ∨ k = 15)) ∧
    (∃ (k : Nat) (s : Machine.State), k < 17 ∧ s.power.supply ≠ Supply.dark ∧ s.tamper.armed.getLsbD k = true ∧ s.tamper.bist = some k) ∧
    (∃ (k : Nat) (det : Word) (s : Machine.State), k < 17 ∧ s.power.supply ≠ Supply.dark ∧ s.tamper.armed.getLsbD k = true ∧ s.tamper.bist ≠ some k ∧ (k = 13 → fieldAt (s.reg 1073938496 32) 7 0 ≤ fieldAt det 29 20)) ∧
    (∃ (k : Nat) (det : Word) (s : Machine.State), k < 17 ∧ s.tamper.armed.getLsbD k = true ∧ k = 13 ∧ s.tamper.bist ≠ some 13 ∧ fieldAt det 29 20 < fieldAt (s.reg 1073938496 32) 7 0) ∧
    (∃ (k : Nat) (s : Machine.State), k < 17 ∧ s.tamper.armed.getLsbD k = true ∧ s.tamper.bist = none ∧ s.tamper.raw.getLsbD k = false) ∧
    (∃ (k : Nat) (s : Machine.State), k < 17 ∧ s.tamper.armed.getLsbD k = true ∧ s.tamper.bist = none ∧ s.tamper.raw.getLsbD k = true) :=
  ⟨⟨15, { up with power.supply := .starting }, by decide +kernel⟩,
   ⟨0, { up with tamper.armed := 1, tamper.bist := some 0 }, by decide +kernel⟩,
   ⟨13, 0x3FF00000, { up with tamper.armed := 0x2000, regs := [(rngBase + 0x40, 32)] }, by decide +kernel⟩,
   ⟨13, 0, { up with tamper.armed := 0x2000, tamper.bist := none, regs := [(rngBase + 0x40, 32)] }, by decide +kernel⟩,
   ⟨0, { up with tamper.bist := none, tamper.armed := 1 }, by decide +kernel⟩,
   ⟨0, { up with tamper.bist := none, tamper.armed := 1, tamper.raw := 1 }, by decide +kernel⟩⟩
theorem witness_TamperMonitors_3 :
    (∃ (k : Nat) (s : Machine.State), k < 17 ∧ s.tamper.armed.getLsbD k = true ∧ s.tamper.bist ≠ none) ∧
    (∃ (k : Nat) (s : Machine.State) (c : Inflight), k < 17 ∧ s.tamper.bist = some k ∧ List.find? (fun c => c.wait == Wait.tamperTest (128 + k)) s.cqe.inflight = some c) ∧
    (∃ (k : Nat) (s : Machine.State), k < 17 ∧ s.tamper.bist = some k ∧ ∀ (c : Inflight), c ∈ s.cqe.inflight → c.wait ≠ Wait.tamperTest (128 + k)) ∧
    (∃ (s : Machine.State), s.lifecycle = Lifecycle.commissioned ∧ tamperLocked s = false) :=
  ⟨⟨0, { up with tamper.armed := 1, tamper.bist := some 0 }, by decide +kernel⟩,
   ⟨0, { up with tamper.bist := some 0, cqe.inflight := [{ waiting with wait := .tamperTest 128 }] }, { waiting with wait := .tamperTest 128 }, by decide +kernel⟩,
   ⟨0, { up with tamper.bist := some (0) }, by decide +kernel⟩,
   ⟨up, by decide +kernel⟩⟩
theorem witness_YomirKeys_1 :
    ((importDek (okOf (readInput (begins 0x0107 0 (entryFor 0x0107 3 0 [(8, 6520), (0xC, 18272)] 0x30000 0x200000) ((listed 6520 up).writeBytes 4 0x100018 [1])) (.queue 0) 6520 0x30000) []) (directBytes (begins 263 0 (entryFor 263 3 0 [(8, 6520), (0xC, 18272)] 0x30000 0x200000) ((listed 6520 up).writeBytes 4 0x100018 [1])) (Source.queue 0) (entryFor 263 3 0 [(8, 6520), (0xC, 18272)] 0x30000 0x200000).addr1 18272) (begins 263 0 (entryFor 263 3 0 [(8, 6520), (0xC, 18272)] 0x30000 0x200000) ((listed 6520 up).writeBytes 4 0x100018 [1])) = some (3)) → ∃ (src : Source) (e : Entry) (s : Machine.State) (t : Machine.State) (c : Inflight) (blob : List Byte) (dek : Hash) (i : Nat) (g : Nat) (t' : Machine.State) (x : Nat), Accepted 263 src e s c t ∧ findOid (BitVec.ofNat 128 (fieldOf blob 8 16)) Verify.ok t = ((5, x), t') ∧ importDek blob (directBytes t src e.addr1 18272) t = some dek ∧ ktabFenced t = false ∧ e.param 8 4 = 6520 ∧ e.param 12 4 = 18272 ∧ readInput t src 6520 e.addr0 = Except.ok blob ∧ t'.ktab.allocate (some (fieldAt (BitVec.ofNat 32 (fieldOf blob 24 4)) 10 0)) = some (i, g) ∧ t'.ktab.indexRoom t'.indexKey (BitVec.ofNat 128 (fieldOf blob 8 16)) = true) ∧
    (∃ (src : Source) (e : Entry) (s : Machine.State) (t : Machine.State) (c : Inflight) (m : Manifest) (u : Machine.State), Accepted 770 src e s c t ∧ writeOutput src (e.param 32 4) e.addr0 (slice (manifestBytes m) (e.param 24 8) (e.param 32 4)) t = Except.ok u ∧ ktabFenced t = false ∧ 1 ≤ e.param 32 4 ∧ e.param 32 4 ≤ 16777216 ∧ bitAt e.handle 0 = false ∧ t.manifest (BitVec.ofNat 128 (e.param 8 16)) = some m ∧ e.param 24 8 < (manifestBytes m).length) ∧
    (∃ (src : Source) (e : Entry) (s : Machine.State) (t : Machine.State) (c : Inflight) (x : JRecord) (l : List JRecord) (u : Machine.State), Accepted 771 src e s c t ∧ writeOutput src (e.param 24 4) e.addr0 (leBytes 32 (BitVec.toNat (chainBefore t x.number)) ++ List.flatMap (fun y => recordBytesOf t.journalKey y.mirrored y) (fitRecords t.journalKey (e.param 24 4 - 32) (x :: l))) t = Except.ok u ∧ ktabFenced t = false ∧ e.param 24 4 ≤ 16777216 ∧ readSelection e t = some (x :: l) ∧ 32 + recordLen x ≤ e.param 24 4 ∧ (∀ (y : JRecord), y ∈ fitRecords t.journalKey (e.param 24 4 - 32) (x :: l) → t.journal.spoilt.contains y.number = false)) ∧
    (∃ (src : Source) (e : Entry) (s : Machine.State) (t : Machine.State) (c : Inflight), Accepted 772 src e s c t ∧ ktabFenced t = false ∧ 0 < t.journal.next ∧ pkeFenced t = false) ∧
    (∃ (src : Source) (e : Entry) (s : Machine.State) (t : Machine.State) (c : Inflight), Accepted 773 src e s c t ∧ ktabFenced t = false ∧ e.param 8 1 = 0) ∧
    (∃ (src : Source) (e : Entry) (s : Machine.State) (t : Machine.State) (c : Inflight), Accepted 773 src e s c t ∧ ktabFenced t = false ∧ e.param 8 1 = 1 ∧ t.journal.exporting = none ∧ pkeFenced t = false ∧ brokenIn t (imageBytes (withImageKey (nextImage t) t) true (BitVec.setWidth 128 t.fresh)).fst.first t.journal.next = none ∧ (imageBytes (withImageKey (nextImage t) t) true (BitVec.setWidth 128 t.fresh)).snd.length + 4768 ≤ e.param 24 8) :=
  ⟨(by intro h; refine ⟨Source.queue 0, entryFor 263 3 0 [(8, 6520), (0xC, 18272)] 0x30000 0x200000, (listed 6520 up).writeBytes 4 0x100018 [1], begins 263 0 (entryFor 263 3 0 [(8, 6520), (0xC, 18272)] 0x30000 0x200000) ((listed 6520 up).writeBytes 4 0x100018 [1]), commandOf 263 0 (entryFor 263 3 0 [(8, 6520), (0xC, 18272)] 0x30000 0x200000) ((listed 6520 up).writeBytes 4 0x100018 [1]), okOf (readInput (begins 0x0107 0 (entryFor 0x0107 3 0 [(8, 6520), (0xC, 18272)] 0x30000 0x200000) ((listed 6520 up).writeBytes 4 0x100018 [1])) (.queue 0) 6520 0x30000) [], 3, 0, 1, (findOid (BitVec.ofNat 128 (fieldOf (okOf (readInput (begins 0x0107 0 (entryFor 0x0107 3 0 [(8, 6520), (0xC, 18272)] 0x30000 0x200000) ((listed 6520 up).writeBytes 4 0x100018 [1])) (.queue 0) 6520 0x30000) []) 8 16)) Verify.ok (begins 263 0 (entryFor 263 3 0 [(8, 6520), (0xC, 18272)] 0x30000 0x200000) ((listed 6520 up).writeBytes 4 0x100018 [1]))).2, (findOid (BitVec.ofNat 128 (fieldOf (okOf (readInput (begins 0x0107 0 (entryFor 0x0107 3 0 [(8, 6520), (0xC, 18272)] 0x30000 0x200000) ((listed 6520 up).writeBytes 4 0x100018 [1])) (.queue 0) 6520 0x30000) []) 8 16)) Verify.ok (begins 263 0 (entryFor 263 3 0 [(8, 6520), (0xC, 18272)] 0x30000 0x200000) ((listed 6520 up).writeBytes 4 0x100018 [1]))).1.2, accepted_of _ _ _ _ (entryFor_crc ..) (by decide +kernel), fst_of (by decide +kernel), h, ?_, ?_, ?_, ok_of (by decide +kernel), ?_⟩ <;> decide +kernel),
   ⟨Source.queue 0, entryFor 770 3 0 [(8, 0x42), (0x20, 1)] 0x30000 0, { listed 1 up with journal.manifests := [⟨0x42, 1, 0, 0, 0, 0, 0, []⟩] }, begins 770 0 (entryFor 770 3 0 [(8, 0x42), (0x20, 1)] 0x30000 0) ({ listed 1 up with journal.manifests := [⟨0x42, 1, 0, 0, 0, 0, 0, []⟩] }), commandOf 770 0 (entryFor 770 3 0 [(8, 0x42), (0x20, 1)] 0x30000 0) ({ listed 1 up with journal.manifests := [⟨0x42, 1, 0, 0, 0, 0, 0, []⟩] }), ⟨0x42, 1, 0, 0, 0, 0, 0, []⟩, okOf (writeOutput (Source.queue 0) ((entryFor 770 3 0 [(8, 0x42), (0x20, 1)] 0x30000 0).param 32 4) (entryFor 770 3 0 [(8, 0x42), (0x20, 1)] 0x30000 0).addr0 (slice (manifestBytes (⟨0x42, 1, 0, 0, 0, 0, 0, []⟩)) ((entryFor 770 3 0 [(8, 0x42), (0x20, 1)] 0x30000 0).param 24 8) ((entryFor 770 3 0 [(8, 0x42), (0x20, 1)] 0x30000 0).param 32 4)) (begins 770 0 (entryFor 770 3 0 [(8, 0x42), (0x20, 1)] 0x30000 0) ({ listed 1 up with journal.manifests := [⟨0x42, 1, 0, 0, 0, 0, 0, []⟩] }))) up, accepted_of _ _ _ _ (entryFor_crc ..) (by decide +kernel), ok_of (by decide +kernel), by decide +kernel⟩,
   ⟨.queue 0, journalE, journalS, begins 771 0 journalE journalS, commandOf 771 0 journalE journalS, ⟨false, 0, 0, 0, .posted [], 0⟩, journalL, _, accepted_of _ _ _ _ (entryFor_crc ..) (by decide +kernel), ok_of (d := up) (by decide +kernel), by decide +kernel, by decide +kernel, by decide +kernel, by decide +kernel⟩,
   ⟨Source.queue 0, entryFor 772 3 0 [] 0 0, { up with journal.next := 1 }, begins 772 0 (entryFor 772 3 0 [] 0 0) ({ up with journal.next := 1 }), commandOf 772 0 (entryFor 772 3 0 [] 0 0) ({ up with journal.next := 1 }), accepted_of _ _ _ _ (entryFor_crc ..) (by decide +kernel), by decide +kernel⟩,
   ⟨Source.queue 0, entryFor 773 3 0 [(8, 0)] 0 0, up, begins 773 0 (entryFor 773 3 0 [(8, 0)] 0 0) (up), commandOf 773 0 (entryFor 773 3 0 [(8, 0)] 0 0) (up), accepted_of _ _ _ _ (entryFor_crc ..) (by decide +kernel), by decide +kernel⟩,
   ⟨Source.queue 0, entryFor 773 3 0 [(8, 1), (0x18, 1000000)] 0 0, up, begins 773 0 (entryFor 773 3 0 [(8, 1), (0x18, 1000000)] 0 0) (up), commandOf 773 0 (entryFor 773 3 0 [(8, 1), (0x18, 1000000)] 0 0) (up), accepted_of _ _ _ _ (entryFor_crc ..) (by decide +kernel), by decide +kernel⟩⟩
theorem witness_YomirKeys_2 :
    (∃ (src : Source) (e : Entry) (s : Machine.State) (t : Machine.State) (c : Inflight), Accepted 774 src e s c t ∧ ktabFenced t = false ∧ e.param 8 1 = 3 ∧ t.journal.recovery = false) ∧
    (∃ (src : Source) (e : Entry) (s : Machine.State) (t : Machine.State) (c : Inflight), Accepted 774 src e s c t ∧ ktabFenced t = false ∧ e.param 8 1 = 3 ∧ t.journal.recovery = true) ∧
    (∃ (src : Source) (e : Entry) (s : Machine.State) (t : Machine.State) (c : Inflight) (t' : Machine.State) (t'' : Machine.State) (i : Nat) (g : Nat), Accepted 259 src e s c t ∧ cacheFill (BitVec.ofNat 32 (e.param 8 4)) Verify.ok t = (0, t') ∧ findOid (t'.ktab.record (khIndex (BitVec.ofNat 32 (e.param 8 4)))).oid Verify.ok t' = ((0, khIndex (BitVec.ofNat 32 (e.param 8 4))), t'') ∧ ktabFenced t = false ∧ (t'.ktab.record (khIndex (BitVec.ofNat 32 (e.param 8 4)))).state = KeyState.active ∧ rngReady t'' = true ∧ t''.ktab.allocate none = some (i, g)) ∧
    (∃ (src : Source) (e : Entry) (s : Machine.State) (t : Machine.State) (c : Inflight) (t' : Machine.State), Accepted 260 src e s c t ∧ cacheFill (BitVec.ofNat 32 (e.param 8 4)) Verify.ok t = (0, t') ∧ ktabFenced t = false ∧ ((t'.ktab.record (khIndex (BitVec.ofNat 32 (e.param 8 4)))).state = KeyState.active ∨ (t'.ktab.record (khIndex (BitVec.ofNat 32 (e.param 8 4)))).state = KeyState.decryptOnly) ∧ e.param 12 1 = 3 ∧ (BitVec.ofNat 64 (e.param 16 8)).toNat ≤ BitVec.toNat t'.clock.time) ∧
    (∃ (src : Source) (e : Entry) (s : Machine.State) (t : Machine.State) (c : Inflight) (t' : Machine.State), Accepted 260 src e s c t ∧ cacheFill (BitVec.ofNat 32 (e.param 8 4)) Verify.ok t = (0, t') ∧ ktabFenced t = false ∧ ((t'.ktab.record (khIndex (BitVec.ofNat 32 (e.param 8 4)))).state = KeyState.active ∨ (t'.ktab.record (khIndex (BitVec.ofNat 32 (e.param 8 4)))).state = KeyState.decryptOnly) ∧ e.param 12 1 = 3 ∧ BitVec.toNat t'.clock.time < (BitVec.ofNat 64 (e.param 16 8)).toNat) ∧
    (∃ (src : Source) (e : Entry) (s : Machine.State) (t : Machine.State) (c : Inflight) (t' : Machine.State), Accepted 260 src e s c t ∧ cacheFill (BitVec.ofNat 32 (e.param 8 4)) Verify.ok t = (0, t') ∧ ktabFenced t = false ∧ (t'.ktab.record (khIndex (BitVec.ofNat 32 (e.param 8 4)))).state = KeyState.active ∧ e.param 12 1 = 1) :=
  ⟨⟨Source.queue 0, entryFor 774 3 0 [(8, 3)] 0 0, up, begins 774 0 (entryFor 774 3 0 [(8, 3)] 0 0) (up), commandOf 774 0 (entryFor 774 3 0 [(8, 3)] 0 0) (up), accepted_of _ _ _ _ (entryFor_crc ..) (by decide +kernel), by decide +kernel⟩,
   ⟨Source.queue 0, entryFor 774 3 0 [(8, 3)] 0 0, { up with journal.recovery := true }, begins 774 0 (entryFor 774 3 0 [(8, 3)] 0 0) ({ up with journal.recovery := true }), commandOf 774 0 (entryFor 774 3 0 [(8, 3)] 0 0) ({ up with journal.recovery := true }), accepted_of _ _ _ _ (entryFor_crc ..) (by decide +kernel), by decide +kernel⟩,
   ⟨Source.queue 0, entryFor 259 3 0 [(8, 2097159)] 0 0, up, begins 259 0 (entryFor 259 3 0 [(8, 2097159)] 0 0) (up), commandOf 259 0 (entryFor 259 3 0 [(8, 2097159)] 0 0) (up), (cacheFill (BitVec.ofNat 32 ((entryFor 259 3 0 [(8, 2097159)] 0 0).param 8 4)) Verify.ok (begins 259 0 (entryFor 259 3 0 [(8, 2097159)] 0 0) (up))).2, (findOid (((cacheFill (BitVec.ofNat 32 ((entryFor 259 3 0 [(8, 2097159)] 0 0).param 8 4)) Verify.ok (begins 259 0 (entryFor 259 3 0 [(8, 2097159)] 0 0) (up))).2).ktab.record (khIndex (BitVec.ofNat 32 ((entryFor 259 3 0 [(8, 2097159)] 0 0).param 8 4)))).oid Verify.ok ((cacheFill (BitVec.ofNat 32 ((entryFor 259 3 0 [(8, 2097159)] 0 0).param 8 4)) Verify.ok (begins 259 0 (entryFor 259 3 0 [(8, 2097159)] 0 0) (up))).2)).2, 0, 1, accepted_of _ _ _ _ (entryFor_crc ..) (by decide +kernel), fst_of (by decide +kernel), fst_of (by decide +kernel), by decide +kernel⟩,
   ⟨Source.queue 0, entryFor 260 3 0 [(8, 2097159), (0xC, 3), (0x10, 100)] 0 0, up, begins 260 0 (entryFor 260 3 0 [(8, 2097159), (0xC, 3), (0x10, 100)] 0 0) (up), commandOf 260 0 (entryFor 260 3 0 [(8, 2097159), (0xC, 3), (0x10, 100)] 0 0) (up), (cacheFill (BitVec.ofNat 32 ((entryFor 260 3 0 [(8, 2097159), (0xC, 3), (0x10, 100)] 0 0).param 8 4)) Verify.ok (begins 260 0 (entryFor 260 3 0 [(8, 2097159), (0xC, 3), (0x10, 100)] 0 0) (up))).2, accepted_of _ _ _ _ (entryFor_crc ..) (by decide +kernel), fst_of (by decide +kernel), by decide +kernel⟩,
   ⟨Source.queue 0, entryFor 260 3 0 [(8, 2097159), (0xC, 3), (0x10, 101)] 0 0, up, begins 260 0 (entryFor 260 3 0 [(8, 2097159), (0xC, 3), (0x10, 101)] 0 0) (up), commandOf 260 0 (entryFor 260 3 0 [(8, 2097159), (0xC, 3), (0x10, 101)] 0 0) (up), (cacheFill (BitVec.ofNat 32 ((entryFor 260 3 0 [(8, 2097159), (0xC, 3), (0x10, 101)] 0 0).param 8 4)) Verify.ok (begins 260 0 (entryFor 260 3 0 [(8, 2097159), (0xC, 3), (0x10, 101)] 0 0) (up))).2, accepted_of _ _ _ _ (entryFor_crc ..) (by decide +kernel), fst_of (by decide +kernel), by decide +kernel⟩,
   ⟨Source.queue 0, entryFor 260 3 0 [(8, 2097159), (0xC, 1)] 0 0, up, begins 260 0 (entryFor 260 3 0 [(8, 2097159), (0xC, 1)] 0 0) (up), commandOf 260 0 (entryFor 260 3 0 [(8, 2097159), (0xC, 1)] 0 0) (up), (cacheFill (BitVec.ofNat 32 ((entryFor 260 3 0 [(8, 2097159), (0xC, 1)] 0 0).param 8 4)) Verify.ok (begins 260 0 (entryFor 260 3 0 [(8, 2097159), (0xC, 1)] 0 0) (up))).2, accepted_of _ _ _ _ (entryFor_crc ..) (by decide +kernel), fst_of (by decide +kernel), by decide +kernel⟩⟩
theorem witness_YomirKeys_3 :
    (∃ (src : Source) (e : Entry) (s : Machine.State) (t : Machine.State) (c : Inflight) (t' : Machine.State), Accepted 260 src e s c t ∧ cacheFill (BitVec.ofNat 32 (e.param 8 4)) Verify.ok t = (0, t') ∧ ktabFenced t = false ∧ (t'.ktab.record (khIndex (BitVec.ofNat 32 (e.param 8 4)))).state = KeyState.active ∧ e.param 12 1 = 2) ∧
    (∃ (src : Source) (e : Entry) (s : Machine.State) (t : Machine.State) (c : Inflight) (t' : Machine.State), Accepted 260 src e s c t ∧ cacheFill (BitVec.ofNat 32 (e.param 8 4)) Verify.ok t = (0, t') ∧ ktabFenced t = false ∧ (t'.ktab.record (khIndex (BitVec.ofNat 32 (e.param 8 4)))).state = KeyState.decryptOnly ∧ e.param 12 1 = 1) ∧
    (∃ (src : Source) (e : Entry) (s : Machine.State) (t : Machine.State) (c : Inflight) (t' : Machine.State), Accepted 261 src e s c t ∧ cacheFill (BitVec.ofNat 32 (e.param 8 4)) Verify.ok t = (0, t') ∧ ktabFenced t = false ∧ (t'.ktab.record (khIndex (BitVec.ofNat 32 (e.param 8 4)))).state ≠ KeyState.shredded ∧ (∀ (x : Machine.Stream), x ∈ t'.lanes.streams → x.kh ≠ BitVec.ofNat 32 (e.param 8 4)) ∧ ((t'.ktab.record (khIndex (BitVec.ofNat 32 (e.param 8 4)))).state = KeyState.retained ∨ BitVec.toNat (t'.ktab.record (khIndex (BitVec.ofNat 32 (e.param 8 4)))).retainUntil ≤ BitVec.toNat t'.clock.time)) ∧
    ((passes 262 0 (entryFor 262 3 0 [(8, 2097159), (0x10, 6520)] 0 0) ({ up with ktab.records := [(7, { keyOf 0x42 with policy := 0 })] }) = true) → ∃ (src : Source) (e : Entry) (s : Machine.State) (t : Machine.State) (c : Inflight) (t' : Machine.State), Accepted 262 src e s c t ∧ cacheFill (BitVec.ofNat 32 (e.param 8 4)) Verify.ok t = (0, t') ∧ ktabFenced t = false ∧ bitAt (t'.ktab.record (khIndex (BitVec.ofNat 32 (e.param 8 4)))).policy 0 = false) ∧
    ((passes 262 0 (entryFor 262 3 0 [(8, 2097159), (0x10, 6520)] 0 0) (up) = true) → ∃ (src : Source) (e : Entry) (s : Machine.State) (t : Machine.State) (c : Inflight) (t' : Machine.State), Accepted 262 src e s c t ∧ cacheFill (BitVec.ofNat 32 (e.param 8 4)) Verify.ok t = (0, t') ∧ ktabFenced t = false ∧ bitAt (t'.ktab.record (khIndex (BitVec.ofNat 32 (e.param 8 4)))).policy 0 = true ∧ (t'.ktab.record (khIndex (BitVec.ofNat 32 (e.param 8 4)))).state ≠ KeyState.shredded ∧ 6520 ≤ e.param 16 4 ∧ pkeFenced t' = false) ∧
    (∃ (src : Source) (e : Entry) (s : Machine.State) (t : Machine.State) (c : Inflight) (t' : Machine.State), Accepted 264 src e s c t ∧ cacheFill (BitVec.ofNat 32 (e.param 8 4)) Verify.ok t = (0, t') ∧ ktabFenced t = false ∧ (t'.ktab.record (khIndex (BitVec.ofNat 32 (e.param 8 4)))).state ≠ KeyState.shredded ∧ (e.param 12 1 = 0 ∨ e.param 12 1 = 1 ∧ t'.ktab.pinRoom (khIndex (BitVec.ofNat 32 (e.param 8 4))) = true)) :=
  ⟨⟨Source.queue 0, entryFor 260 3 0 [(8, 2097159), (0xC, 2)] 0 0, up, begins 260 0 (entryFor 260 3 0 [(8, 2097159), (0xC, 2)] 0 0) (up), commandOf 260 0 (entryFor 260 3 0 [(8, 2097159), (0xC, 2)] 0 0) (up), (cacheFill (BitVec.ofNat 32 ((entryFor 260 3 0 [(8, 2097159), (0xC, 2)] 0 0).param 8 4)) Verify.ok (begins 260 0 (entryFor 260 3 0 [(8, 2097159), (0xC, 2)] 0 0) (up))).2, accepted_of _ _ _ _ (entryFor_crc ..) (by decide +kernel), fst_of (by decide +kernel), by decide +kernel⟩,
   ⟨Source.queue 0, entryFor 260 3 0 [(8, 2097159), (0xC, 1)] 0 0, { up with ktab.records := [(7, { keyOf 0x42 with state := .decryptOnly })] }, begins 260 0 (entryFor 260 3 0 [(8, 2097159), (0xC, 1)] 0 0) ({ up with ktab.records := [(7, { keyOf 0x42 with state := .decryptOnly })] }), commandOf 260 0 (entryFor 260 3 0 [(8, 2097159), (0xC, 1)] 0 0) ({ up with ktab.records := [(7, { keyOf 0x42 with state := .decryptOnly })] }), (cacheFill (BitVec.ofNat 32 ((entryFor 260 3 0 [(8, 2097159), (0xC, 1)] 0 0).param 8 4)) Verify.ok (begins 260 0 (entryFor 260 3 0 [(8, 2097159), (0xC, 1)] 0 0) ({ up with ktab.records := [(7, { keyOf 0x42 with state := .decryptOnly })] }))).2, accepted_of _ _ _ _ (entryFor_crc ..) (by decide +kernel), fst_of (by decide +kernel), by decide +kernel⟩,
   ⟨Source.queue 0, entryFor 261 3 0 [(8, 2097159)] 0 0, up, begins 261 0 (entryFor 261 3 0 [(8, 2097159)] 0 0) (up), commandOf 261 0 (entryFor 261 3 0 [(8, 2097159)] 0 0) (up), (cacheFill (BitVec.ofNat 32 ((entryFor 261 3 0 [(8, 2097159)] 0 0).param 8 4)) Verify.ok (begins 261 0 (entryFor 261 3 0 [(8, 2097159)] 0 0) (up))).2, accepted_of _ _ _ _ (entryFor_crc ..) (by decide +kernel), fst_of (by decide +kernel), by decide +kernel⟩,
   (fun h => ⟨Source.queue 0, entryFor 262 3 0 [(8, 2097159), (0x10, 6520)] 0 0, { up with ktab.records := [(7, { keyOf 0x42 with policy := 0 })] }, begins 262 0 (entryFor 262 3 0 [(8, 2097159), (0x10, 6520)] 0 0) ({ up with ktab.records := [(7, { keyOf 0x42 with policy := 0 })] }), commandOf 262 0 (entryFor 262 3 0 [(8, 2097159), (0x10, 6520)] 0 0) ({ up with ktab.records := [(7, { keyOf 0x42 with policy := 0 })] }), (cacheFill (BitVec.ofNat 32 ((entryFor 262 3 0 [(8, 2097159), (0x10, 6520)] 0 0).param 8 4)) Verify.ok (begins 262 0 (entryFor 262 3 0 [(8, 2097159), (0x10, 6520)] 0 0) ({ up with ktab.records := [(7, { keyOf 0x42 with policy := 0 })] }))).2, accepted_of _ _ _ _ (entryFor_crc ..) h, fst_of (by decide +kernel), by decide +kernel⟩),
   (fun h => ⟨Source.queue 0, entryFor 262 3 0 [(8, 2097159), (0x10, 6520)] 0 0, up, begins 262 0 (entryFor 262 3 0 [(8, 2097159), (0x10, 6520)] 0 0) (up), commandOf 262 0 (entryFor 262 3 0 [(8, 2097159), (0x10, 6520)] 0 0) (up), (cacheFill (BitVec.ofNat 32 ((entryFor 262 3 0 [(8, 2097159), (0x10, 6520)] 0 0).param 8 4)) Verify.ok (begins 262 0 (entryFor 262 3 0 [(8, 2097159), (0x10, 6520)] 0 0) (up))).2, accepted_of _ _ _ _ (entryFor_crc ..) h, fst_of (by decide +kernel), by decide +kernel⟩),
   ⟨Source.queue 0, entryFor 264 3 0 [(8, 2097159), (0xC, 1)] 0 0, up, begins 264 0 (entryFor 264 3 0 [(8, 2097159), (0xC, 1)] 0 0) (up), commandOf 264 0 (entryFor 264 3 0 [(8, 2097159), (0xC, 1)] 0 0) (up), (cacheFill (BitVec.ofNat 32 ((entryFor 264 3 0 [(8, 2097159), (0xC, 1)] 0 0).param 8 4)) Verify.ok (begins 264 0 (entryFor 264 3 0 [(8, 2097159), (0xC, 1)] 0 0) (up))).2, accepted_of _ _ _ _ (entryFor_crc ..) (by decide +kernel), fst_of (by decide +kernel), by decide +kernel⟩⟩
theorem witness_YomirKeys_4 :
    (∃ (src : Source) (e : Entry) (s : Machine.State) (t : Machine.State) (c : Inflight) (t' : Machine.State) (n : Nat), Accepted 261 src e s c t ∧ cacheFill (BitVec.ofNat 32 (e.param 8 4)) Verify.ok t = (n, t') ∧ ktabFenced t = false ∧ n ≠ 0) ∧
    (∃ (src : Source) (e : Entry) (s : Machine.State) (t : Machine.State) (c : Inflight) (t' : Machine.State) (i : Nat), Accepted 257 src e s c t ∧ findOid (BitVec.ofNat 128 (e.param 8 16)) Verify.ok t = ((0, i), t') ∧ ktabFenced t = false) ∧
    (∃ (src : Source) (e : Entry) (s : Machine.State) (t : Machine.State) (c : Inflight) (t' : Machine.State) (i : Nat), Accepted 258 src e s c t ∧ findOid (BitVec.ofNat 128 (e.param 8 16)) Verify.ok t = ((0, i), t') ∧ ktabFenced t = false) ∧
    ((Config.manifestRoom (storeBytes (begins 769 0 (entryFor 769 3 0 [(8, 0x42)] 0 0) ({ up with journal.staged := [(0x42, ⟨0, keyH, 64, 1, 0, 0, 0, []⟩)] }))) = true) → ∃ (src : Source) (e : Entry) (s : Machine.State) (t : Machine.State) (c : Inflight) (t' : Machine.State) (i : Nat), Accepted 769 src e s c t ∧ findOid (BitVec.ofNat 128 (e.param 8 16)) Verify.ok t = ((0, i), t') ∧ Config.manifestRoom (storeBytes t) = true ∧ ktabFenced t = false ∧ bitAt e.handle 0 = false ∧ bitAt e.handle 1 = false ∧ t.manifest (BitVec.ofNat 128 (e.param 8 16)) = none ∧ pendingOf t (BitVec.ofNat 128 (e.param 8 16)) ≠ [] ∧ (pendingOf t (BitVec.ofNat 128 (e.param 8 16))).length ≤ 4096 ∧ (List.foldl (fun l g => putSegment g l) [] (pendingOf t (BitVec.ofNat 128 (e.param 8 16)))).length ≤ 65536) ∧
    (∃ (src : Source) (e : Entry) (s : Machine.State) (t : Machine.State) (c : Inflight) (t' : Machine.State) (i : Nat), Accepted 769 src e s c t ∧ findOid (BitVec.ofNat 128 (e.param 8 16)) Verify.ok t = ((0, i), t') ∧ ktabFenced t = false ∧ bitAt e.handle 0 = true) ∧
    (∃ (src : Source) (e : Entry) (s : Machine.State) (t : Machine.State) (c : Inflight) (t' : Machine.State) (x : Nat) (i : Nat) (g : Nat), Accepted 257 src e s c t ∧ findOid (BitVec.ofNat 128 (e.param 8 16)) Verify.ok t = ((5, x), t') ∧ ktabFenced t = false ∧ t'.ktab.indexRoom t'.indexKey (BitVec.ofNat 128 (e.param 8 16)) = true ∧ rngReady t' = true ∧ t'.ktab.allocate none = some (i, g)) :=
  ⟨⟨Source.queue 0, entryFor 261 3 0 [(8, 2097159)] 0 0, { up with ktab.quarantine := [7] }, begins 261 0 (entryFor 261 3 0 [(8, 2097159)] 0 0) ({ up with ktab.quarantine := [7] }), commandOf 261 0 (entryFor 261 3 0 [(8, 2097159)] 0 0) ({ up with ktab.quarantine := [7] }), (cacheFill (BitVec.ofNat 32 ((entryFor 261 3 0 [(8, 2097159)] 0 0).param 8 4)) Verify.ok (begins 261 0 (entryFor 261 3 0 [(8, 2097159)] 0 0) ({ up with ktab.quarantine := [7] }))).2, (cacheFill (BitVec.ofNat 32 ((entryFor 261 3 0 [(8, 2097159)] 0 0).param 8 4)) Verify.ok (begins 261 0 (entryFor 261 3 0 [(8, 2097159)] 0 0) ({ up with ktab.quarantine := [7] }))).1, accepted_of _ _ _ _ (entryFor_crc ..) (by decide +kernel), fst_of (by decide +kernel), by decide +kernel⟩,
   ⟨Source.queue 0, entryFor 257 3 0 [(8, 0x42)] 0 0, up, begins 257 0 (entryFor 257 3 0 [(8, 0x42)] 0 0) (up), commandOf 257 0 (entryFor 257 3 0 [(8, 0x42)] 0 0) (up), (findOid (BitVec.ofNat 128 ((entryFor 257 3 0 [(8, 0x42)] 0 0).param 8 16)) Verify.ok (begins 257 0 (entryFor 257 3 0 [(8, 0x42)] 0 0) (up))).2, (findOid (BitVec.ofNat 128 ((entryFor 257 3 0 [(8, 0x42)] 0 0).param 8 16)) Verify.ok (begins 257 0 (entryFor 257 3 0 [(8, 0x42)] 0 0) (up))).1.2, accepted_of _ _ _ _ (entryFor_crc ..) (by decide +kernel), fst_of (by decide +kernel), by decide +kernel⟩,
   ⟨Source.queue 0, entryFor 258 3 0 [(8, 0x42)] 0 0, up, begins 258 0 (entryFor 258 3 0 [(8, 0x42)] 0 0) (up), commandOf 258 0 (entryFor 258 3 0 [(8, 0x42)] 0 0) (up), (findOid (BitVec.ofNat 128 ((entryFor 258 3 0 [(8, 0x42)] 0 0).param 8 16)) Verify.ok (begins 258 0 (entryFor 258 3 0 [(8, 0x42)] 0 0) (up))).2, (findOid (BitVec.ofNat 128 ((entryFor 258 3 0 [(8, 0x42)] 0 0).param 8 16)) Verify.ok (begins 258 0 (entryFor 258 3 0 [(8, 0x42)] 0 0) (up))).1.2, accepted_of _ _ _ _ (entryFor_crc ..) (by decide +kernel), fst_of (by decide +kernel), by decide +kernel⟩,
   (fun h => ⟨Source.queue 0, entryFor 769 3 0 [(8, 0x42)] 0 0, { up with journal.staged := [(0x42, ⟨0, keyH, 64, 1, 0, 0, 0, []⟩)] }, begins 769 0 (entryFor 769 3 0 [(8, 0x42)] 0 0) ({ up with journal.staged := [(0x42, ⟨0, keyH, 64, 1, 0, 0, 0, []⟩)] }), commandOf 769 0 (entryFor 769 3 0 [(8, 0x42)] 0 0) ({ up with journal.staged := [(0x42, ⟨0, keyH, 64, 1, 0, 0, 0, []⟩)] }), (findOid (BitVec.ofNat 128 ((entryFor 769 3 0 [(8, 0x42)] 0 0).param 8 16)) Verify.ok (begins 769 0 (entryFor 769 3 0 [(8, 0x42)] 0 0) ({ up with journal.staged := [(0x42, ⟨0, keyH, 64, 1, 0, 0, 0, []⟩)] }))).2, (findOid (BitVec.ofNat 128 ((entryFor 769 3 0 [(8, 0x42)] 0 0).param 8 16)) Verify.ok (begins 769 0 (entryFor 769 3 0 [(8, 0x42)] 0 0) ({ up with journal.staged := [(0x42, ⟨0, keyH, 64, 1, 0, 0, 0, []⟩)] }))).1.2, accepted_of _ _ _ _ (entryFor_crc ..) (by decide +kernel), fst_of (by decide +kernel), h, by decide +kernel⟩),
   ⟨Source.queue 0, entryFor 769 3 1 [(8, 0x42)] 0 0, up, begins 769 0 (entryFor 769 3 1 [(8, 0x42)] 0 0) (up), commandOf 769 0 (entryFor 769 3 1 [(8, 0x42)] 0 0) (up), (findOid (BitVec.ofNat 128 ((entryFor 769 3 1 [(8, 0x42)] 0 0).param 8 16)) Verify.ok (begins 769 0 (entryFor 769 3 1 [(8, 0x42)] 0 0) (up))).2, (findOid (BitVec.ofNat 128 ((entryFor 769 3 1 [(8, 0x42)] 0 0).param 8 16)) Verify.ok (begins 769 0 (entryFor 769 3 1 [(8, 0x42)] 0 0) (up))).1.2, accepted_of _ _ _ _ (entryFor_crc ..) (by decide +kernel), fst_of (by decide +kernel), by decide +kernel⟩,
   ⟨Source.queue 0, entryFor 257 3 0 [(8, 0x43)] 0 0, up, begins 257 0 (entryFor 257 3 0 [(8, 0x43)] 0 0) (up), commandOf 257 0 (entryFor 257 3 0 [(8, 0x43)] 0 0) (up), (findOid (BitVec.ofNat 128 ((entryFor 257 3 0 [(8, 0x43)] 0 0).param 8 16)) Verify.ok (begins 257 0 (entryFor 257 3 0 [(8, 0x43)] 0 0) (up))).2, (findOid (BitVec.ofNat 128 ((entryFor 257 3 0 [(8, 0x43)] 0 0).param 8 16)) Verify.ok (begins 257 0 (entryFor 257 3 0 [(8, 0x43)] 0 0) (up))).1.2, 0, 1, accepted_of _ _ _ _ (entryFor_crc ..) (by decide +kernel), fst_of (by decide +kernel), by decide +kernel⟩⟩
theorem witness_YomirKeys_5 :
    (∃ (src : Source) (e : Entry) (s : Machine.State) (t : Machine.State) (c : Inflight) (t' : Machine.State) (x : Nat), Accepted 258 src e s c t ∧ findOid (BitVec.ofNat 128 (e.param 8 16)) Verify.ok t = ((5, x), t') ∧ ktabFenced t = false) ∧
    (∃ (src : Source) (e : Entry) (s : Machine.State) (t : Machine.State) (c : Inflight) (t' : Machine.State) (i : Nat) (n : Nat), Accepted 258 src e s c t ∧ ktabFenced t = false ∧ findOid (BitVec.ofNat 128 (e.param 8 16)) Verify.ok t = ((i, n), t') ∧ (i = 2 ∨ i = 3 ∨ i = 4)) ∧
    (∃ (t : Machine.State) (t' : Machine.State) (o : Oid) (x : Nat × Nat), ktabFenced t = false ∧ findOid o Verify.ok t = (x, t') ∧ (x.fst = 0 ∨ x.fst = 5)) :=
  ⟨⟨Source.queue 0, entryFor 258 3 0 [(8, 0x43)] 0 0, up, begins 258 0 (entryFor 258 3 0 [(8, 0x43)] 0 0) (up), commandOf 258 0 (entryFor 258 3 0 [(8, 0x43)] 0 0) (up), (findOid (BitVec.ofNat 128 ((entryFor 258 3 0 [(8, 0x43)] 0 0).param 8 16)) Verify.ok (begins 258 0 (entryFor 258 3 0 [(8, 0x43)] 0 0) (up))).2, (findOid (BitVec.ofNat 128 ((entryFor 258 3 0 [(8, 0x43)] 0 0).param 8 16)) Verify.ok (begins 258 0 (entryFor 258 3 0 [(8, 0x43)] 0 0) (up))).1.2, accepted_of _ _ _ _ (entryFor_crc ..) (by decide +kernel), fst_of (by decide +kernel), by decide +kernel⟩,
   ⟨Source.queue 0, entryFor 0x0102 3 0 [(8, 0x43)] 0 0, badIndex, begins 0x0102 0 (entryFor 0x0102 3 0 [(8, 0x43)] 0 0) (badIndex), commandOf 0x0102 0 (entryFor 0x0102 3 0 [(8, 0x43)] 0 0) (badIndex), (findOid 0x43 .ok (begins 0x0102 0 (entryFor 0x0102 3 0 [(8, 0x43)] 0 0) badIndex)).2, 3, (findOid 0x43 .ok (begins 0x0102 0 (entryFor 0x0102 3 0 [(8, 0x43)] 0 0) badIndex)).1.2, accepted_of _ _ _ _ (entryFor_crc ..) (by decide +kernel), by decide +kernel, Prod.ext (find_spoilt rfl) rfl, by decide +kernel⟩,
   ⟨up, (findOid 0x42 .ok up).2, 0x42, (0, 7), by decide +kernel, fst_of (by decide +kernel), by decide +kernel⟩⟩
theorem witness_PortBringUp :
    (∃ (p : Fin 2) (v : Word) (u : Machine.State), portAlive u ↑p = true ∧ bitAt v 0 = false) ∧
    (∃ (p : Fin 2) (v : Word) (u : Machine.State), portAlive u ↑p = true ∧ bitAt v 0 = true ∧ ((if BitVec.toNat v < 2 then tlpArrives (↑p) u else setStatusBits (barBase ↑p) 1 (tlpArrives (↑p) u)).port ↑p).enabled = false ∧ portReady (if BitVec.toNat v < 2 then tlpArrives (↑p) u else setStatusBits (barBase ↑p) 1 (tlpArrives (↑p) u)) = true ∧ fieldAt ((if BitVec.toNat v < 2 then tlpArrives (↑p) u else setStatusBits (barBase ↑p) 1 (tlpArrives (↑p) u)).port ↑p).admSize 27 16 ≠ 0 ∧ fieldAt ((if BitVec.toNat v < 2 then tlpArrives (↑p) u else setStatusBits (barBase ↑p) 1 (tlpArrives (↑p) u)).port ↑p).admSize 11 0 ≠ 0 ∧ BitVec.toNat ((if BitVec.toNat v < 2 then tlpArrives (↑p) u else setStatusBits (barBase ↑p) 1 (tlpArrives (↑p) u)).port ↑p).admSq % 4096 = 0 ∧ BitVec.toNat ((if BitVec.toNat v < 2 then tlpArrives (↑p) u else setStatusBits (barBase ↑p) 1 (tlpArrives (↑p) u)).port ↑p).admCq % 4096 = 0) ∧
    (∃ (p : Fin 2) (v : Word) (u : Machine.State), portAlive u ↑p = true ∧ bitAt v 0 = true ∧ ((if BitVec.toNat v < 2 then tlpArrives (↑p) u else setStatusBits (barBase ↑p) 1 (tlpArrives (↑p) u)).port ↑p).enabled = false ∧ ¬(portReady (if BitVec.toNat v < 2 then tlpArrives (↑p) u else setStatusBits (barBase ↑p) 1 (tlpArrives (↑p) u)) = true ∧ fieldAt ((if BitVec.toNat v < 2 then tlpArrives (↑p) u else setStatusBits (barBase ↑p) 1 (tlpArrives (↑p) u)).port ↑p).admSize 27 16 ≠ 0 ∧ fieldAt ((if BitVec.toNat v < 2 then tlpArrives (↑p) u else setStatusBits (barBase ↑p) 1 (tlpArrives (↑p) u)).port ↑p).admSize 11 0 ≠ 0 ∧ BitVec.toNat ((if BitVec.toNat v < 2 then tlpArrives (↑p) u else setStatusBits (barBase ↑p) 1 (tlpArrives (↑p) u)).port ↑p).admSq % 4096 = 0 ∧ BitVec.toNat ((if BitVec.toNat v < 2 then tlpArrives (↑p) u else setStatusBits (barBase ↑p) 1 (tlpArrives (↑p) u)).port ↑p).admCq % 4096 = 0)) ∧
    (∃ (p : Fin 2) (v : Word) (u : Machine.State), portAlive u ↑p = true ∧ bitAt v 0 = true ∧ ((if BitVec.toNat v < 2 then tlpArrives (↑p) u else setStatusBits (barBase ↑p) 1 (tlpArrives (↑p) u)).port ↑p).enabled = true) ∧
    (∃ (q : Queue) (s : Machine.State) (x : Queue), q.events = false ∧ x ∈ (openQueue q s).cqe.queues) ∧
    (∃ (n : Nat) (s : Machine.State), s.pairMode = true ∧ s.journal.acked ≤ n ∧ n < s.journal.next ∧ ¬n ∈ s.cqe.lateAcks) :=
  ⟨⟨0, 0, up, by decide +kernel⟩,
   ⟨0, 1, { up with port0.enabled := false, port0.admSize := 0x000F000F, port0.admSq := 0x10000, port0.admCq := 0x20000 }, by decide +kernel⟩,
   ⟨0, 1, { up with port0.enabled := false }, by decide +kernel⟩,
   ⟨0, 1, up, by decide +kernel⟩,
   ⟨queueOf 9 0 0 false, up, queueOf 9 0 0 false, by decide +kernel⟩,
   ⟨0, { paired with journal.next := 1 }, by decide +kernel⟩⟩
theorem witness_CardBlocks_1 :
    (∃ (n : Fin 4) (s : Machine.State), s.cards.length = 4 ∧ (s.slot ↑n).jobs = [] ∧ (s.slot ↑n).mode ≠ 0 ∧ (s.slot ↑n).phase = CardPhase.ifs) ∧
    (∃ (n : Fin 4) (s : Machine.State) (j : CardJob) (l : List CardJob) (pcb : Byte), s.cards.length = 4 ∧ (s.slot ↑n).jobs = j :: l ∧ (s.slot ↑n).phase = CardPhase.ready ∧ j.begun = true ∧ (s.slot ↑n).retries < 3 ∧ bitAt pcb 6 ≠ (s.slot ↑n).nr) ∧
    (∃ (n : Fin 4) (s : Machine.State) (j : CardJob) (l : List CardJob) (m : Byte), s.cards.length = 4 ∧ (s.slot ↑n).jobs = j :: l ∧ (s.slot ↑n).phase = CardPhase.ready ∧ j.begun = true ∧ (s.slot ↑n).wtx + BitVec.toNat m * fieldAt (s.reg (cardBase + 272 + 32 * ↑n) 20000) 23 0 ≤ 10000000) ∧
    (∃ (n : Fin 4) (s : Machine.State) (j : CardJob) (l : List CardJob) (m : Byte), s.cards.length = 4 ∧ (s.slot ↑n).jobs = j :: l ∧ (s.slot ↑n).phase = CardPhase.ready ∧ j.begun = true ∧ 10000000 < (s.slot ↑n).wtx + BitVec.toNat m * fieldAt (s.reg (cardBase + 272 + 32 * ↑n) 20000) 23 0 ∧ (s.slot ↑n).retries < 3) ∧
    (∃ (n : Fin 4) (s : Machine.State) (j : CardJob) (l : List CardJob), s.cards.length = 4 ∧ (s.slot ↑n).jobs = j :: l ∧ (s.slot ↑n).phase = CardPhase.ready ∧ j.begun = true ∧ 3 ≤ (s.slot ↑n).retries) ∧
    (∃ (n : Fin 4) (s : Machine.State) (j : CardJob) (l : List CardJob) (pcb : Byte) (a : List Byte) (b : List Byte) (r : List (List Byte)), s.cards.length = 4 ∧ (s.slot ↑n).jobs = j :: l ∧ (s.slot ↑n).phase = CardPhase.ready ∧ j.begun = true ∧ bitAt pcb 4 ≠ (s.slot ↑n).ns ∧ j.out = a :: b :: r) :=
  ⟨⟨0, { up with cards := List.replicate 4 { CardSlot.reset with mode := 1, jobs := [], phase := CardPhase.ifs } }, by decide +kernel⟩,
   ⟨0, { up with cards := List.replicate 4 { CardSlot.reset with jobs := [(⟨1, .apdu [0, 1] 300, [[1], [2]], [], true, false, false⟩ : CardJob)], phase := CardPhase.ready } }, (⟨1, .apdu [0, 1] 300, [[1], [2]], [], true, false, false⟩ : CardJob), [], 0x40, by decide +kernel⟩,
   ⟨0, { up with cards := List.replicate 4 { CardSlot.reset with jobs := [(⟨1, .apdu [0, 1] 300, [[1], [2]], [], true, false, false⟩ : CardJob)], phase := CardPhase.ready } }, (⟨1, .apdu [0, 1] 300, [[1], [2]], [], true, false, false⟩ : CardJob), [], 1, by decide +kernel⟩,
   ⟨0, { up with cards := List.replicate 4 { CardSlot.reset with wtx := 9999999, jobs := [(⟨1, .apdu [0, 1] 300, [[1], [2]], [], true, false, false⟩ : CardJob)], phase := CardPhase.ready } }, (⟨1, .apdu [0, 1] 300, [[1], [2]], [], true, false, false⟩ : CardJob), [], 255, by decide +kernel⟩,
   ⟨0, { up with cards := List.replicate 4 { CardSlot.reset with retries := 3, jobs := [(⟨1, .apdu [0, 1] 300, [[1], [2]], [], true, false, false⟩ : CardJob)], phase := CardPhase.ready } }, (⟨1, .apdu [0, 1] 300, [[1], [2]], [], true, false, false⟩ : CardJob), [], by decide +kernel⟩,
   ⟨0, { up with cards := List.replicate 4 { CardSlot.reset with jobs := [(⟨1, .apdu [0, 1] 300, [[1], [2]], [], true, false, false⟩ : CardJob)], phase := CardPhase.ready } }, (⟨1, .apdu [0, 1] 300, [[1], [2]], [], true, false, false⟩ : CardJob), [], 0x10, [1], [2], [], by decide +kernel⟩⟩
theorem witness_CardBlocks_2 :
    (∃ (n : Fin 4) (s : Machine.State) (j : CardJob) (l : List CardJob) (pcb : Byte), s.cards.length = 4 ∧ (s.slot ↑n).jobs = j :: l ∧ (s.slot ↑n).phase = CardPhase.ready ∧ j.begun = true ∧ bitAt pcb 6 = (s.slot ↑n).nr ∧ bitAt pcb 7 = false ∧ j.sent = true ∧ bitAt pcb 5 = false) ∧
    (∃ (n : Fin 4) (s : Machine.State) (j : CardJob) (l : List CardJob) (pcb : Byte), s.cards.length = 4 ∧ (s.slot ↑n).jobs = j :: l ∧ (s.slot ↑n).phase = CardPhase.ready ∧ j.begun = true ∧ bitAt pcb 6 = (s.slot ↑n).nr ∧ bitAt pcb 7 = false ∧ j.sent = true ∧ bitAt pcb 5 = true) ∧
    (∃ (n : Fin 4) (s : Machine.State) (j : CardJob) (l : List CardJob) (b : List Byte) (room : Nat) (c : Inflight) (got : List Byte) (u : Machine.State), s.cards.length = 4 ∧ (s.slot ↑n).jobs = j :: l ∧ (s.slot ↑n).phase = CardPhase.ready ∧ j.begun = true ∧ j.work = CardWork.apdu b room ∧ u.command j.key = some c ∧ got.length ≤ room) ∧
    (∃ (n : Fin 4) (s : Machine.State) (j : CardJob) (l : List CardJob) (target : Nat) (len : Nat) (b : List Byte) (c : Inflight) (u : Machine.State), s.cards.length = 4 ∧ (s.slot ↑n).jobs = j :: l ∧ (s.slot ↑n).phase = CardPhase.ready ∧ j.begun = true ∧ j.work = CardWork.token 3 target len b ∧ u.command j.key = some c) ∧
    (∃ (n : Fin 4) (s : Machine.State) (j : CardJob) (l : List CardJob), s.cards.length = 4 ∧ (s.slot ↑n).jobs = j :: l ∧ (s.slot ↑n).phase = CardPhase.ready ∧ j.begun = true ∧ tokenBusy s ↑n = true) ∧
    (∃ (n : Fin 4) (s : Machine.State), s.cards.length = 4 ∧ (s.slot ↑n).mode = 0) :=
  ⟨⟨0, { up with cards := List.replicate 4 { CardSlot.reset with nr := false, jobs := [(⟨1, .apdu [0, 1] 300, [[1], [2]], [], true, true, false⟩ : CardJob)], phase := CardPhase.ready } }, (⟨1, .apdu [0, 1] 300, [[1], [2]], [], true, true, false⟩ : CardJob), [], 0, by decide +kernel⟩,
   ⟨0, { up with cards := List.replicate 4 { CardSlot.reset with nr := false, jobs := [(⟨1, .apdu [0, 1] 300, [[1], [2]], [], true, true, false⟩ : CardJob)], phase := CardPhase.ready } }, (⟨1, .apdu [0, 1] 300, [[1], [2]], [], true, true, false⟩ : CardJob), [], 0x20, by decide +kernel⟩,
   ⟨0, { up with cards := List.replicate 4 { CardSlot.reset with jobs := [(⟨1, .apdu [0, 1] 300, [[1], [2]], [], true, false, false⟩ : CardJob)], phase := CardPhase.ready } }, (⟨1, .apdu [0, 1] 300, [[1], [2]], [], true, false, false⟩ : CardJob), [], [0, 1], 300, { key := 1, accRec := none, src := .queue 5, op := 0x0A02, entry := entryFor 0x0A02 3 0 [] 0 0, sqhead := 1, wait := .card 0, past := false, after := none, began := 0, faults := 0 }, [0x90, 0], { up with cqe.inflight := [{ key := 1, accRec := none, src := .queue 5, op := 0x0A02, entry := entryFor 0x0A02 3 0 [] 0 0, sqhead := 1, wait := .card 0, past := false, after := none, began := 0, faults := 0 }] }, by decide +kernel⟩,
   ⟨0, { up with cards := List.replicate 4 { CardSlot.reset with mode := 2, jobs := [(⟨1, .token 3 0 4 [], [], [], true, true, false⟩ : CardJob)], phase := CardPhase.ready } }, (⟨1, .token 3 0 4 [], [], [], true, true, false⟩ : CardJob), [], 0, 4, [], { key := 1, accRec := none, src := .queue 5, op := 0x0A02, entry := entryFor 0x0A02 3 0 [] 0 0, sqhead := 1, wait := .card 0, past := false, after := none, began := 0, faults := 0 }, { up with cqe.inflight := [{ key := 1, accRec := none, src := .queue 5, op := 0x0A02, entry := entryFor 0x0A02 3 0 [] 0 0, sqhead := 1, wait := .card 0, past := false, after := none, began := 0, faults := 0 }] }, by decide +kernel⟩,
   ⟨0, { up with cards := List.replicate 4 { CardSlot.reset with mode := 2, jobs := [(⟨1, .token 3 0 4 [], [], [], true, true, false⟩ : CardJob)], phase := CardPhase.ready } }, (⟨1, .token 3 0 4 [], [], [], true, true, false⟩ : CardJob), [], by decide +kernel⟩,
   ⟨0, { up with cards := List.replicate 4 { CardSlot.reset with mode := 0 } }, by decide +kernel⟩⟩
theorem witness_CardBlocks_3 : ∃ (n : Fin 4) (s : Machine.State), s.cards.length = 4 ∧ tokenBusy s ↑n = false :=
  ⟨0, up, by decide +kernel⟩
theorem witness_CoreBitFields :
    (∃ (c : CoreId) (s : Machine.State) (lsb : BitVec 5) (wm1 : BitVec 5), Issues c s ∧ 31 < lsb.toNat + wm1.toNat) ∧
    (∃ (c : CoreId) (s : Machine.State) (lsb : BitVec 5) (wm1 : BitVec 5), Issues c s ∧ lsb.toNat + wm1.toNat ≤ 31) ∧
    (∃ (c : CoreId) (s : Machine.State) (sel : BitVec 16), Issues c s ∧ permBad sel = false) ∧
    (∃ (c : CoreId) (s : Machine.State) (sel : BitVec 16), Issues c s ∧ permBad sel = true) :=
  ⟨⟨.ccA, up, 31, 1, by unfold Issues; decide +kernel⟩,
   ⟨.ccA, up, 0, 0, by unfold Issues; decide +kernel⟩,
   ⟨.ccA, up, 0, by unfold Issues; decide +kernel⟩,
   ⟨.ccA, up, 0xFFFF, by unfold Issues; decide +kernel⟩⟩
theorem witness_StepTakesFromFront : ∃ (s : Machine.State) (t : Machine.State), step s = Host.Outcome.next t :=
  ⟨{ up with pending := [.leverClosed] }, _, rfl⟩
theorem witness_StartUpAndTime_1 :
    (∃ (n : Nat) (s : Machine.State), (∀ (c : Inflight), c ∈ s.cqe.inflight → apduLate { s with clock := { time := s.clock.time + BitVec.ofNat 64 n, valid := s.clock.valid, lfclk := s.clock.lfclk + n, ckptAge := s.clock.ckptAge + n, signAge := s.clock.signAge + n, tryAge := s.clock.tryAge + n } } c = false) ∧ timerDue { s with clock := { time := s.clock.time + BitVec.ofNat 64 n, valid := s.clock.valid, lfclk := s.clock.lfclk + n, ckptAge := s.clock.ckptAge + n, signAge := s.clock.signAge + n, tryAge := s.clock.tryAge + n } } = false ∧ rngPowered { s with clock := { time := s.clock.time + BitVec.ofNat 64 n, valid := s.clock.valid, lfclk := s.clock.lfclk + n, ckptAge := s.clock.ckptAge + n, signAge := s.clock.signAge + n, tryAge := s.clock.tryAge + n } } = false) ∧
    (∃ (v : Word) (s : Machine.State), BitVec.toNat v < 2 ∧ bitAt v 0 = true ∧ s.cores.ccB.released = false) ∧
    (∃ (v : Word) (s : Machine.State), BitVec.toNat v < 2 ∧ bitAt v 0 = true ∧ s.cores.ccB.released = true) ∧
    (∃ (n : Nat) (s : Machine.State), awake (latchTick n (wakeEvent WakeSource.timer 0 (apduTimeouts { s with clock := { time := s.clock.time + BitVec.ofNat 64 n, valid := s.clock.valid, lfclk := s.clock.lfclk + n, ckptAge := s.clock.ckptAge + n, signAge := s.clock.signAge + n, tryAge := s.clock.tryAge + n } }))) = false) ∧
    (∃ (n : Nat) (s : Machine.State), awake (latchTick n (wakeEvent WakeSource.timer 0 (apduTimeouts { s with clock := { time := s.clock.time + BitVec.ofNat 64 n, valid := s.clock.valid, lfclk := s.clock.lfclk + n, ckptAge := s.clock.ckptAge + n, signAge := s.clock.signAge + n, tryAge := s.clock.tryAge + n } }))) = true ∧ ((latchTick n (wakeEvent WakeSource.timer 0 (apduTimeouts { s with clock := { time := s.clock.time + BitVec.ofNat 64 n, valid := s.clock.valid, lfclk := s.clock.lfclk + n, ckptAge := s.clock.ckptAge + n, signAge := s.clock.signAge + n, tryAge := s.clock.tryAge + n } }))).journals = false ∨ (latchTick n (wakeEvent WakeSource.timer 0 (apduTimeouts { s with clock := { time := s.clock.time + BitVec.ofNat 64 n, valid := s.clock.valid, lfclk := s.clock.lfclk + n, ckptAge := s.clock.ckptAge + n, signAge := s.clock.signAge + n, tryAge := s.clock.tryAge + n } }))).journal.next = 0 ∨ (latchTick n (wakeEvent WakeSource.timer 0 (apduTimeouts { s with clock := { time := s.clock.time + BitVec.ofNat 64 n, valid := s.clock.valid, lfclk := s.clock.lfclk + n, ckptAge := s.clock.ckptAge + n, signAge := s.clock.signAge + n, tryAge := s.clock.tryAge + n } }))).clock.ckptAge < 8192)) ∧
    (∃ (pll : Fin 8) (k : Nat), k ≠ ↑pll) :=
  ⟨⟨1, { up with power.mode := .steep }, by decide +kernel⟩,
   ⟨1, { up with cores.ccB.released := false }, by decide +kernel⟩,
   ⟨1, { up with cores.ccB.released := true }, by decide +kernel⟩,
   ⟨1, { up with power.mode := .steep }, by decide +kernel⟩,
   ⟨0, up, by decide +kernel⟩,
   ⟨0, 1, by decide +kernel⟩⟩
theorem witness_StartUpAndTime_2 :
    (∃ (s : Machine.State), s.power.booted = false ∧ s.power.mode = PowerMode.run ∧ (s.power.supply = Supply.running ∨ s.power.supply = Supply.starting ∧ (s.power.prev = PowerMode.lager ∨ s.power.classFixed = true ∧ s.power.leverOpen = false))) ∧
    (∃ (s : Machine.State), ¬(s.power.booted = false ∧ s.power.mode = PowerMode.run ∧ (s.power.supply = Supply.running ∨ s.power.supply = Supply.starting ∧ (s.power.prev = PowerMode.lager ∨ s.power.classFixed = true ∧ s.power.leverOpen = false)))) :=
  ⟨⟨{ up with power.booted := false, power.mode := PowerMode.run, power.leverOpen := false }, by decide +kernel⟩,
   ⟨up, by decide +kernel⟩⟩
theorem witness_FaultRecordRules_1 :
    (∃ (s : Machine.State), s.fault.log.length < 256) ∧
    (∃ (i : FaultIn) (s : Machine.State), srcMasked s i.report.source = false ∧ (¬∃ u, u ∈ s.fault.unacked ∧ u.cls = srcClass s i.report.source) ∧ checkTimers s < 16) ∧
    (∃ (i : FaultIn) (s : Machine.State), srcMasked s i.report.source = false ∧ (∃ u, u ∈ s.fault.unacked ∧ u.cls = srcClass s i.report.source) ∧ checkTimers s < 16) ∧
    (∃ (i : FaultIn) (s : Machine.State), srcMasked s i.report.source = false ∧ 16 ≤ checkTimers s) ∧
    (∃ (i : FaultIn) (s : Machine.State), srcMasked s i.report.source = false ∧ srcClass s i.report.source ≠ FClass.security ∧ srcLevel s i.report.source ≠ Level.kiln) ∧
    (∃ (i : FaultIn) (s : Machine.State), srcMasked s i.report.source = false ∧ srcLevel s i.report.source = Level.log) :=
  ⟨⟨up, by decide +kernel⟩,
   ⟨plainReport 16, up, by decide +kernel⟩,
   ⟨plainReport 16, { up with fault.unacked := [⟨0, 16, srcClass up 16, .fence, false⟩] }, by decide +kernel⟩,
   ⟨plainReport 16, { up with fault.unacked := List.replicate 16 ⟨0, 16, .memCe, .check, true⟩ }, by decide +kernel⟩,
   ⟨plainReport 16, up, by decide +kernel⟩,
   ⟨plainReport 16, up, by decide +kernel⟩⟩
theorem witness_FaultRecordRules_2 : ∃ (i : FaultIn) (s : Machine.State), srcMasked s i.report.source = true :=
  ⟨plainReport 16, { up with regs := [(srcAddr 16, 0x801)] }, by decide +kernel⟩
theorem witness_KilnTiers_1 :
    (∃ (v : Word), fieldAt v 15 0 ≠ 19278 ∧ fieldAt v 31 16 = 0) ∧
    (∃ (s : Machine.State), s.kiln.stage = KilnStage.reset) ∧
    (∃ (s : Machine.State), s.kiln.stage = KilnStage.tier1) ∧
    (∃ (s : Machine.State), s.kiln.stage = KilnStage.tier2) ∧
    (∃ (mv : Nat) (s : Machine.State), s.power.supply ≠ Supply.dark ∧ mv < 2900) ∧
    (∃ (mv : Nat) (s : Machine.State), s.power.supply ≠ Supply.dark ∧ s.kiln.latch = false ∧ mv < 2600) :=
  ⟨⟨0, by decide +kernel⟩,
   ⟨{ up with kiln.stage := KilnStage.reset }, by decide +kernel⟩,
   ⟨{ up with kiln.stage := KilnStage.tier1 }, by decide +kernel⟩,
   ⟨{ up with kiln.stage := KilnStage.tier2 }, by decide +kernel⟩,
   ⟨0, up, by decide +kernel⟩,
   ⟨0, { up with kiln.latch := false }, by decide +kernel⟩⟩
theorem witness_KilnTiers_2 : ∃ (s : Machine.State), ∀ (x : Session), x ∈ s.vault.sessions → x.begin ≤ s.clock.lfclk :=
  ⟨up, by decide +kernel⟩
theorem witness_PairMessages_1 :
    ((chainOk [] 9 = true) → ∃ (s : Machine.State) (m : Hello), (s.pair.link = LinkPhase.up ∧ s.isFenced 4 0 = false) ∧ s.power.booted = true ∧ s.power.safe = false ∧ s.nvm.partner = some m.serial ∧ chainOk m.chain m.serial = true ∧ helloKeys m = List.drop 16 s.nvm.partnerRec) ∧
    (∃ (s : Machine.State) (m : Hello), (s.pair.link = LinkPhase.up ∧ s.isFenced 4 0 = false) ∧ s.power.booted = true ∧ s.power.safe = false ∧ ¬(s.nvm.partner = some m.serial ∧ chainOk m.chain m.serial = true ∧ helloKeys m = List.drop 16 s.nvm.partnerRec)) ∧
    (∃ (s : Machine.State), (s.pair.session = PairSession.keyed ∧ (s.pair.link = LinkPhase.up ∧ s.isFenced 4 0 = false) ∧ s.power.safe = false ∧ s.power.booted = true ∧ BitVec.getLsbD s.power.pllLost 5 = false) ∧ s.pair.role = Role.active) ∧
    (∃ (s : Machine.State), (s.pair.session = PairSession.keyed ∧ (s.pair.link = LinkPhase.up ∧ s.isFenced 4 0 = false) ∧ s.power.safe = false ∧ s.power.booted = true ∧ BitVec.getLsbD s.power.pllLost 5 = false) ∧ s.pair.role = Role.standby) ∧
    (∃ (s : Machine.State), (s.pair.session = PairSession.keyed ∧ (s.pair.link = LinkPhase.up ∧ s.isFenced 4 0 = false) ∧ s.power.safe = false ∧ s.power.booted = true ∧ BitVec.getLsbD s.power.pllLost 5 = false) ∧ s.pair.role ≠ Role.standby ∧ s.pair.role ≠ Role.active) ∧
    (∃ (s : Machine.State) (r : JRecord) (x : JRecord), r.number = s.journal.next ∧ s.pair.role = Role.standby ∧ x ∈ s.journal.recs) :=
  ⟨(by intro h; refine ⟨{ up with pair.link := .up, nvm.partner := some 9, nvm.partnerRec := List.replicate 16 0 ++ helloKeys helloMsg }, helloMsg, ?_, ?_, ?_, ?_, h, ?_⟩ <;> decide +kernel),
   ⟨{ up with pair.link := LinkPhase.up, power.booted := true, power.safe := false }, helloMsg, by decide +kernel⟩,
   ⟨{ up with pair.session := PairSession.keyed, pair.link := LinkPhase.up, power.safe := false, power.booted := true, pair.role := Role.active }, by decide +kernel⟩,
   ⟨{ up with pair.session := PairSession.keyed, pair.link := LinkPhase.up, power.safe := false, power.booted := true, pair.role := Role.standby }, by decide +kernel⟩,
   ⟨{ up with pair.session := PairSession.keyed, pair.link := LinkPhase.up, power.safe := false, power.booted := true }, by decide +kernel⟩,
   ⟨{ up with pair.role := .standby, journal.next := 1, journal.recs := [⟨false, 0, 0, 0, .posted [], 0⟩] }, ⟨false, 0, 1, 0, .posted [], 0⟩, ⟨false, 0, 0, 0, .posted [], 0⟩, by decide +kernel⟩⟩
theorem witness_PairMessages_2 :
    (∃ (s : Machine.State) (r : JRecord), r.number ≠ s.journal.next) ∧
    (∃ (s : Machine.State), s.pair.link = LinkPhase.up ∧ s.isFenced 4 0 = false) ∧
    (∃ (s : Machine.State) (m : Hello) (ec : List Byte) (ml : List Byte) (ct : List Byte), s.pair.session = PairSession.hello ∧ s.pair.peer = some m ∧ (Config.sigOk (helloKeys m) (leBytes 32 (BitVec.toNat s.pair.nonce) ++ leBytes 16 (BitVec.toNat m.serial)) (ec ++ ml) = false ∨ kemOpen s.pairs.transportKem ct = none)) ∧
    ((Config.sigOk (helloKeys helloMsg) (leBytes 32 (BitVec.toNat (0 : Hash)) ++ leBytes 16 (BitVec.toNat (9 : QWord))) ([] ++ []) = true) → ∃ (s : Machine.State) (m : Hello) (ec : List Byte) (ml : List Byte) (ct : List Byte) (mine : Hash), s.pair.session = PairSession.hello ∧ s.pair.peer = some m ∧ Config.sigOk (helloKeys m) (leBytes 32 (BitVec.toNat s.pair.nonce) ++ leBytes 16 (BitVec.toNat m.serial)) (ec ++ ml) = true ∧ kemOpen s.pairs.transportKem ct = some mine) ∧
    (∃ (s : Machine.State), s.pair.session = PairSession.keyed ∧ (s.pair.link = LinkPhase.up ∧ s.isFenced 4 0 = false) ∧ s.power.safe = false ∧ s.power.booted = true ∧ BitVec.getLsbD s.power.pllLost 5 = false) ∧
    (∃ (s : Machine.State), s.pair.session ≠ PairSession.hello) :=
  ⟨⟨up, ⟨false, 0, 1, 0, .posted [], 0⟩, by decide +kernel⟩,
   ⟨{ up with pair.link := LinkPhase.up }, by decide +kernel⟩,
   ⟨{ up with pair.session := .hello, pair.peer := some helloMsg }, helloMsg, [], [], [], by decide +kernel, by decide +kernel, .inr rfl⟩,
   (fun h => ⟨{ up with pair.session := .hello, pair.peer := some helloMsg }, helloMsg, [], [], List.replicate 1568 0, Config.kemDecap ({ up with pair.session := .hello, pair.peer := some helloMsg } : State).pairs.transportKem (List.replicate 1568 0), by decide +kernel, by decide +kernel, h, if_pos List.length_replicate⟩),
   ⟨{ up with pair.session := PairSession.keyed, pair.link := LinkPhase.up, power.safe := false, power.booted := true }, by decide +kernel⟩,
   ⟨up, by decide +kernel⟩⟩
theorem witness_PairMessages_3 :
    (∃ (s : Machine.State), ¬(s.pair.link = LinkPhase.up ∧ s.isFenced 4 0 = false)) ∧
    (∃ (s : Machine.State), ¬(s.pair.link = LinkPhase.up ∧ s.isFenced 4 0 = false) ∨ s.power.booted = false ∨ s.power.safe = true) ∧
    (∃ (s : Machine.State), ¬(s.pair.session = PairSession.keyed ∧ (s.pair.link = LinkPhase.up ∧ s.isFenced 4 0 = false) ∧ s.power.safe = false ∧ s.power.booted = true ∧ BitVec.getLsbD s.power.pllLost 5 = false)) :=
  ⟨⟨up, by decide +kernel⟩,
   ⟨up, by decide +kernel⟩,
   ⟨up, by decide +kernel⟩⟩

end Sys2Proof.Tests
end

section
/-! SUPPORT. Folds that keep a view of the state, what memory reads after a space is cleared, and a command's answer by its effect. -/

namespace Sys2Proof.Frame

open Sys2Proof.Machine

/-- A fold keeps what each of its steps keeps. -/
theorem foldl_keeps {α β : Type} {view : State → β} {f : State → α → State} (hf : ∀ s x, view (f s x) = view s)
    (xs : List α) (s : State) : view (xs.foldl f s) = view s := by
  induction xs generalizing s with
  | nil => rfl
  | cons x xs ih => exact (ih (f s x)).trans (hf s x)

/-- A cleared key reads as an unlisted byte, every other key as before. -/
theorem memGet_memClear (m : List Host.Cell) (lo hi k : Nat) :
    memGet (memClear m lo hi) k = if lo ≤ k ∧ k < hi then memDefault k else memGet m k := by
  induction m with
  | nil => simp [memClear, memGet]
  | cons c t ih =>
    obtain ⟨a, b⟩ := c
    have hcons : memClear ((a, b) :: t) lo hi = if lo ≤ a ∧ a < hi then memClear t lo hi else (a, b) :: memClear t lo hi := by
      by_cases h : lo ≤ a ∧ a < hi
      · simp [memClear, h]
      · simp only [memClear, if_neg h]
        exact List.filter_cons_of_pos (by simp; omega)
    rw [hcons]
    by_cases hk : a = k
    · subst hk
      by_cases h : lo ≤ a ∧ a < hi
      · simp [h, ih]
      · simp [h, memGet]
    · by_cases h : lo ≤ a ∧ a < hi
      · simp [h, ih, memGet, hk]
      · simp [h, ih, memGet, hk]

/-- A wiped space reads as unlisted bytes do. -/
theorem readByte_wipeSpace_same {n a : Nat} (ha : a < 2 ^ 64) (s : State) : (wipeSpace n s).readByte n a = memDefault (memKey n a) := by
  have hin : memKey n 0 ≤ memKey n a ∧ memKey n a < memKey n (2 ^ 64) := by unfold memKey; omega
  exact (memGet_memClear ..).trans (if_pos hin)

/-- Wiping a space leaves the others alone. -/
theorem readByte_wipeSpace_ne {m n a : Nat} (hmn : m ≠ n) (ha : a < 2 ^ 64) (s : State) : (wipeSpace n s).readByte m a = s.readByte m a := by
  have hout : ¬ (memKey n 0 ≤ memKey m a ∧ memKey m a < memKey n (2 ^ 64)) := by unfold memKey; omega
  exact (memGet_memClear ..).trans (if_neg hout)

/-- The wiped spaces of a power loss read zero. -/
theorem memDefault_memKey {n a : Nat} (ha : a < 2 ^ 64) (h1 : n ≠ 1) (h6 : n ≠ 6) : memDefault (memKey n a) = 0 := by
  have hspace : memKey n a / 2 ^ 64 = n := by unfold memKey; omega
  simp only [memDefault, hspace, h1, h6, false_and, or_self, if_false]

/-- A command's effect as the answer of `exec`. -/
theorem next_finish {x y : State} (h : x = y) : (Host.Outcome.next (finish x) : Out) = .next (finish y) := 
  congrArg (fun t => Host.Outcome.next (finish t)) h

end Sys2Proof.Frame
end

section
/-! SUPPORT. The supply: what a power loss keeps and what it clears, and what each supply event does by the state of the supply (02_module_contacts_supply.md, R46, R53 to R59; 03_power_clocks_reset.md, R68, R85, R88, R103). -/

namespace Sys2Proof.Supply

open Sys2Proof.Machine Sys2Proof.Frame

/-! ### What a power loss keeps (R88) -/

/-- What a loss of the switched supplies leaves as it was: always-on state, backup domain, fused values, and the power-fail area. -/
structure Kept where
  nvm       : Nvm
  kilnCount : Nat
  kek       : Option Hash
  clock     : Clock
  sticky    : BitVec 17
  classHigh : Bool
  vcell     : Nat
  pf        : Option PfArea

/-- That part of a state. -/
def kept (s : State) : Kept := ⟨s.nvm, s.kiln.count, s.vault.kek, s.clock, s.tamper.sticky, s.power.classHigh, s.power.vcell, s.journal.pf⟩

/-- Two states of one kept part agree in each of its fields. -/
theorem fields_of_kept {t : State} {k : Kept} (h : kept t = k) :
    t.nvm = k.nvm ∧ t.kiln.count = k.kilnCount ∧ t.vault.kek = k.kek ∧ t.clock = k.clock ∧ t.tamper.sticky = k.sticky ∧
    t.power.classHigh = k.classHigh ∧ t.power.vcell = k.vcell ∧ t.journal.pf = k.pf := by
  subst h; exact ⟨rfl, rfl, rfl, rfl, rfl, rfl, rfl, rfl⟩

theorem kept_passwordDone (s : State) : kept (passwordDone s) = kept s := by
  unfold passwordDone; split <;> rfl
@[simp] theorem kept_setBank (s : State) (b : Nat) (f : FlashBank → FlashBank) : kept (s.setBank b f) = kept s := rfl
@[simp] theorem kept_writeNat (s : State) (space addr n v : Nat) : kept (s.writeNat space addr n v) = kept s := rfl
@[simp] theorem kept_drew (s : State) : kept s.drew = kept s := rfl
@[simp] theorem kept_flashEndOp (b result : Nat) (s : State) : kept (flashEndOp b result s) = kept s := rfl
/-- The end of a program, an update or a query changes nothing but flash. -/
theorem kept_flashDone_ok {b : Nat} {s : State} (h : ∀ sec, (s.bank b).run ≠ some (.erase sec)) : kept (flashDone b .ok s) = kept s := by
  unfold flashDone
  split
  case h_1 => rfl
  case h_2 => exact (kept_flashEndOp ..).trans ((kept_setBank ..).trans (kept_writeNat ..))
  case h_3 sec hrun => exact absurd hrun (h sec)
  case h_4 => exact (kept_flashEndOp ..).trans (kept_setBank ..)
  case h_5 => exact (kept_flashEndOp ..).trans (kept_setBank ..)
/-- A reset ends a bank's operation with nothing but flash changed; an erase is abandoned, so the power-fail area stays (R466). -/
theorem kept_bankInterrupt (b : Nat) (s : State) : kept (bankInterrupt b s) = kept s := by
  unfold bankInterrupt
  refine (kept_setBank ..).trans ?_
  split
  case h_1 => exact kept_setBank ..
  case h_2 op herase hrun => exact kept_flashDone_ok (fun sec h => herase sec (Option.some.inj (hrun.symm.trans h)))
  case h_3 => rfl
theorem kept_flashInterrupt (s : State) : kept (flashInterrupt s) = kept s :=
  (foldl_keeps (fun s b => kept_bankInterrupt b s) _ _).trans (kept_passwordDone s)
theorem kept_bankPowerLoss (b : Nat) (s : State) : kept (bankPowerLoss b s) = kept s := by
  unfold bankPowerLoss
  cases hrun : (s.bank b).run with
  | none => simp only [kept_setBank]
  | some op => cases op <;> simp only [kept_setBank, kept_drew]
theorem kept_flashPowerLoss (s : State) : kept (flashPowerLoss s) = kept s := by
  have hbanks : kept ((List.range 4).foldl (fun s b => bankPowerLoss b s) s) = kept s := foldl_keeps (fun s b => kept_bankPowerLoss b s) _ _
  unfold flashPowerLoss
  refine Eq.trans ?_ hbanks
  generalize (List.range 4).foldl (fun s b => bankPowerLoss b s) s = x
  dsimp only
  split <;> rfl

theorem kept_repostAll (s : State) : kept (repostAll s) = kept s :=
  foldl_keeps (fun s r => by split <;> rfl) _ _
theorem kept_boundaryOf (src : BitVec 16) (v : Option (Word × BitVec 16)) (cause from_ : Nat) (time : DWord) (s : State) :
    kept (boundaryOf src v cause from_ time s) = kept s := rfl
/-- Continuity boundaries are completions held for later, and no more. -/
theorem kept_boundaries (slots : List QSlot) (cause from_ : Nat) (time : DWord) (s : State) :
    kept (boundaries slots cause from_ time s) = kept s := by
  unfold boundaries
  dsimp only
  refine (foldl_keeps (fun s c => ?_) _ _).trans (foldl_keeps (fun s q => ?_) _ _)
  · split
    · rfl
    · exact kept_boundaryOf ..
  · split
    · exact kept_boundaryOf ..
    · rfl

theorem flushRun_pf (n : Nat) (j : Journal) : (flushRun n j).pf = j.pf := by
  induction n generalizing j with
  | zero => rfl
  | succ n ih =>
    have hone : (flushOne j).pf = j.pf := by
      unfold flushOne
      dsimp only
      split
      · rfl
      · split <;> rfl
    exact (ih _).trans hone
/-- The power-fail checkpoint writes the queue slots of that moment where the area can be programmed (R272, R273). -/
theorem kept_powerFailCheckpoint (s : State) : kept (powerFailCheckpoint s) =
    { kept s with pf := if pfWritable s then some ⟨s.nvm.powerOns % 64, queueSlots s s.journal.flushed⟩ else none } := by
  unfold powerFailCheckpoint kept
  simp only [flushRun_pf]
  rfl

/-- Re-posts and continuity boundaries leave it too. -/
theorem kept_accounts (slots : List QSlot) (cause from_ : Nat) (time : DWord) (s : State) :
    kept (if s.journal.next = 0 then s else boundaries slots cause from_ time (repostAll s)) = kept s := by
  split
  · rfl
  · exact (kept_boundaries ..).trans (kept_repostAll s)
/-- Dropping what is volatile, flash registers included, leaves it too. -/
theorem kept_dropVolatile (s : State) : kept (flashReset true (dropVolatile s)) = kept s := rfl

/-- The state whose kept part outlives a power loss: that of a declaration in class HIGH has written the checkpoint. -/
def checkpointed (declared : Bool) (s : State) : State :=
  if declared && s.power.classHigh && !(s.power.mode == .steep) && s.power.booted then powerFailCheckpoint s else s

/-- A power loss keeps what `Kept` lists, but for the checkpoint of a declaration. -/
theorem kept_powerLoss (declared : Bool) (s : State) : kept (powerLoss declared s) = kept (checkpointed declared s) := by
  unfold powerLoss
  extract_lets steep kind paired checked slots from_ ended _ _ recovered accounted dropped
  calc
    _ = kept dropped := rfl
    _ = kept accounted := kept_dropVolatile accounted
    _ = kept recovered := kept_accounts slots 1 from_ ended.clock.time recovered
    _ = kept ended := rfl
    _ = kept checked := by
      cases declared with
      | false => exact kept_flashPowerLoss checked
      | true => exact kept_flashInterrupt checked

/-- But for the power-fail area a declaration keeps the same. -/
theorem kept_checkpointed (declared : Bool) (s : State) : ∃ pf, kept (checkpointed declared s) = { kept s with pf := pf } := by
  unfold checkpointed
  split
  · exact ⟨_, kept_powerFailCheckpoint s⟩
  · exact ⟨_, rfl⟩
/-- Flash and fused values, the backup domain, the bus class and VCELL outlive a power loss. -/
theorem powerLoss_keeps (declared : Bool) (s : State) :
    (powerLoss declared s).nvm = s.nvm ∧ (powerLoss declared s).kiln.count = s.kiln.count ∧ (powerLoss declared s).vault.kek = s.vault.kek ∧
    (powerLoss declared s).clock = s.clock ∧ (powerLoss declared s).tamper.sticky = s.tamper.sticky ∧
    (powerLoss declared s).power.classHigh = s.power.classHigh ∧ (powerLoss declared s).power.vcell = s.power.vcell := by
  obtain ⟨pf, hpf⟩ := kept_checkpointed declared s
  obtain ⟨hnvm, hcount, hkek, hclock, hsticky, hclass, hcell, -⟩ := fields_of_kept ((kept_powerLoss declared s).trans hpf)
  exact ⟨hnvm, hcount, hkek, hclock, hsticky, hclass, hcell⟩
/-- A declaration in class HIGH with a booted module outside STEEP writes the queue slots of its moment. -/
theorem powerLoss_declared_pf {s : State} (hh : s.power.classHigh = true) (hb : s.power.booted = true) (hm : s.power.mode ≠ .steep) :
    (powerLoss true s).journal.pf = if pfWritable s then some ⟨s.nvm.powerOns % 64, queueSlots s s.journal.flushed⟩ else none := by
  have hcheck : checkpointed true s = powerFailCheckpoint s := if_pos (by simp [hh, hb, hm])
  have hkept := (kept_powerLoss true s).trans ((congrArg kept hcheck).trans (kept_powerFailCheckpoint s))
  obtain ⟨-, -, -, -, -, -, -, hpf⟩ := fields_of_kept hkept
  exact hpf
/-- A loss without a declaration writes no checkpoint. -/
theorem powerLoss_undeclared_pf (s : State) : (powerLoss false s).journal.pf = s.journal.pf := by
  have hcheck : checkpointed false s = s := if_neg (by simp)
  obtain ⟨-, -, -, -, -, -, -, hpf⟩ := fields_of_kept ((kept_powerLoss false s).trans (congrArg kept hcheck))
  exact hpf

/-! ### What a power loss clears (R88) -/

/-- Every volatile unit stands as at power-on, the memories read zero; flash and fused values and the bus class stay. -/
def SupplyLost (s t : State) : Prop :=
  t.power.booted = false ∧ t.power.safe = false ∧ t.power.holdupOk = false ∧ t.cores = ⟨Core.reset .ccA, Core.reset .ccB, Core.reset .mgt⟩ ∧ t.lines = 0 ∧ t.mlines = 0 ∧
  t.cqe.inflight = [] ∧ t.cqe.queues = [] ∧ t.port0 = HostPort.reset ∧ t.port1 = HostPort.reset ∧ t.mgmtp = MgmtPort.reset ∧
  t.ktab = Ktab.reset ∧ t.lanes = Lanes.reset ∧ t.pke = Pke.reset ∧ t.regs = [] ∧ t.dramc = Dramc.reset ∧ t.power.pllLock = 0 ∧
  (∀ a, a < 2 ^ 64 → t.readByte 0 a = 0 ∧ t.readByte 2 a = 0 ∧ t.readByte 3 a = 0) ∧
  t.nvm = s.nvm ∧ t.kiln.count = s.kiln.count ∧ t.power.classHigh = s.power.classHigh

/-- The SRAMs, DDR5 and the management core's memory read zero after a loss. -/
theorem readByte_dropVolatile (s : State) {a : Nat} (ha : a < 2 ^ 64) :
    (dropVolatile s).readByte 0 a = 0 ∧ (dropVolatile s).readByte 2 a = 0 ∧ (dropVolatile s).readByte 3 a = 0 := by
  have h0 : (wipeSpace 3 (wipeSpace 2 (wipeSpace 0 s))).readByte 0 a = 0 := by
    rw [readByte_wipeSpace_ne (by decide) ha, readByte_wipeSpace_ne (by decide) ha, readByte_wipeSpace_same ha]
    exact memDefault_memKey ha (by decide) (by decide)
  have h2 : (wipeSpace 3 (wipeSpace 2 (wipeSpace 0 s))).readByte 2 a = 0 := by
    rw [readByte_wipeSpace_ne (by decide) ha, readByte_wipeSpace_same ha]
    exact memDefault_memKey ha (by decide) (by decide)
  have h3 : (wipeSpace 3 (wipeSpace 2 (wipeSpace 0 s))).readByte 3 a = 0 :=
    (readByte_wipeSpace_same ha _).trans (memDefault_memKey ha (by decide) (by decide))
  exact ⟨h0, h2, h3⟩

theorem supplyLost_powerLoss (declared : Bool) (s : State) : SupplyLost s (powerLoss declared s) := by
  obtain ⟨hnvm, hcount, -, -, -, hclass, -⟩ := powerLoss_keeps declared s
  exact ⟨rfl, rfl, rfl, rfl, rfl, rfl, rfl, rfl, rfl, rfl, rfl, rfl, rfl, rfl, rfl, rfl, rfl, fun a ha => readByte_dropVolatile _ ha, hnvm, hcount, hclass⟩
/-- The backup domain is no part of what `SupplyLost` speaks of. -/
theorem supplyLost_allSupplyLost {s t : State} (h : SupplyLost s t) : SupplyLost s (allSupplyLost t) := h
/-- Nor is where the supply stands, its voltage, or the mode. -/
theorem supplyLost_setSupply {s t : State} {supply : Supply} {mv : Nat} {mode : PowerMode} (h : SupplyLost s t) :
    SupplyLost s { t with power := { t.power with supply := supply, vin := mv, mode := mode } } := h

/-! ### The supply's events, by the state of the supply -/

/-- A supply that stands is neither dark nor held after a power-fail declaration. -/
theorem not_down_of_standing {p : Power} (h : p.supply = .starting ∨ p.supply = .running) : p.supply ≠ .dark ∧ p.supply ≠ .failHold := by
  rcases h with h | h <;> simp [h]

theorem powerFail_standing {mv : Nat} {s : State} (h : s.power.supply = .starting ∨ s.power.supply = .running) :
    powerFail mv s = { powerLoss true s with power := { (powerLoss true s).power with supply := .failHold, vin := mv } } :=
  if_neg (by rcases h with h | h <;> simp [h])
theorem powerFail_down {mv : Nat} {s : State} (h : s.power.supply = .dark ∨ s.power.supply = .failHold) : powerFail mv s = s :=
  if_pos (by rcases h with h | h <;> simp [h])
theorem holdupCharged_down {s : State} (h : s.power.supply = .dark ∨ s.power.supply = .failHold) : holdupCharged s = s :=
  if_neg (by rcases h with h | h <;> simp [h])

/-- The module stands dark on its backup cell. -/
def onCell (mv : Nat) (t : State) : State := { t with power := { t.power with supply := .dark, vin := mv, mode := .cell } }

theorem vinLoss_kept {mv : Nat} {s : State} (h : s.power.supply = .dark ∨ 7800 ≤ mv) :
    vinLoss mv s = { s with power := { s.power with vin := mv } } := if_pos h
theorem vinLoss_standing {mv : Nat} {s : State} (h : s.power.supply = .starting ∨ s.power.supply = .running) (hmv : mv < 7800) :
    vinLoss mv s = if s.power.vcell = 0 then allSupplyLost (onCell mv (powerLoss false s)) else onCell mv (powerLoss false s) := by
  obtain ⟨hdark, hhold⟩ := not_down_of_standing h
  obtain ⟨-, -, -, -, -, -, hcell⟩ := powerLoss_keeps false s
  have hgo : ¬ (s.power.supply = .dark ∨ 7800 ≤ mv) := by simp [hdark, hmv]
  unfold vinLoss
  rw [if_neg hgo, if_neg hhold]
  generalize powerLoss false s = t at hcell ⊢
  rw [← hcell]
  rfl
theorem vinLoss_held {mv : Nat} {s : State} (h : s.power.supply = .failHold) (hmv : mv < 7800) (hcell : s.power.vcell ≠ 0) :
    vinLoss mv s = onCell mv s := by
  have hgo : ¬ (s.power.supply = .dark ∨ 7800 ≤ mv) := by simp [h, hmv]
  unfold vinLoss
  rw [if_neg hgo, if_pos h]
  exact if_neg hcell

theorem vcellLow_dark {mv : Nat} {s : State} (h : s.power.supply = .dark) :
    vcellLow mv s = if mv = 0 then allSupplyLost { s with power := { s.power with vcell := mv } } else { s with power := { s.power with vcell := mv } } := by
  simp only [vcellLow, h]
theorem vcellLow_running {mv : Nat} {s : State} (h : s.power.supply = .running) :
    vcellLow mv s = ringNote .supply 1 (if mv < 2700 then ({ s with power := { s.power with vcell := mv } } : State).raise 8 else { s with power := { s.power with vcell := mv } }) := by
  simp only [vcellLow, h]
theorem vcellLow_other {mv : Nat} {s : State} (h : s.power.supply = .starting ∨ s.power.supply = .failHold) :
    vcellLow mv s = if mv < 2700 then ({ s with power := { s.power with vcell := mv } } : State).raise 8 else { s with power := { s.power with vcell := mv } } := by
  rcases h with h | h <;> simp only [vcellLow, h]

/-- The state in which a power-on reset starts the supply: class and charge open, the bank measured, the straps read, the cause set. -/
def supplyStarts (mv uf : Nat) (s : State) : State := { s with power := { s.power with
  supply := .starting, mode := .run, vin := mv, holdupUf := uf, classFixed := false, classHigh := false, holdupOk := false
  rstCause := if s.power.mode = .cell then 0x101 else 1, pref := s.power.pinPref, bayId := s.power.pinBay } }

/-- VCELL's monitor sees a good supply. -/
def cellSeenGood (t : State) : State := { t with tamper := { t.tamper with raw := t.tamper.raw &&& ~~~ 0x8000 } }

/-- The supply starts; a small bank and a weak cell are reported (R56, R58, R85). -/
theorem powerOnReset_eq (mv uf : Nat) (s : State) :
    powerOnReset mv uf s =
      if s.power.vcell < 2700 then (cellSeenGood (if uf < 200 then (supplyStarts mv uf s).raise 9 else supplyStarts mv uf s)).raise 8
      else cellSeenGood (if uf < 200 then (supplyStarts mv uf s).raise 9 else supplyStarts mv uf s) := by
  have hcause : bit32 0 true ||| bit32 8 (s.power.mode == .cell) = if s.power.mode = .cell then (0x101 : Word) else 1 := by
    cases s.power.mode <;> rfl
  have hstarts : powerOnReset mv uf s = backupOnVin (if uf < 200 then (supplyStarts mv uf s).raise 9 else supplyStarts mv uf s) := by
    simp only [powerOnReset, supplyStarts, hcause]
  rw [hstarts]
  by_cases huf : uf < 200
  · simp only [if_pos huf]; rfl
  · simp only [if_neg huf]; rfl

theorem failHoldRelease_released {mv uf : Nat} {s : State} (h : s.power.supply = .failHold) (hmv : (if s.power.classHigh then 36000 else 8600) < mv) :
    failHoldRelease mv uf s = powerOnReset mv uf s := if_pos ⟨h, hmv⟩
theorem failHoldRelease_waits {mv uf : Nat} {s : State} (h : s.power.supply = .failHold → mv ≤ (if s.power.classHigh then 36000 else 8600)) :
    failHoldRelease mv uf s = s := if_neg (fun hc => absurd hc.2 (Nat.not_lt.mpr (h hc.1)))

/-- The levels that the bay puts on the straps. -/
def strapsPut (pref : Bool) (bay : BitVec 6) (s : State) : State := { s with power := { s.power with pinPref := pref, pinBay := bay } }
/-- VIN reads as a voltage. -/
def vinAt (mv : Nat) (s : State) : State := { s with power := { s.power with vin := mv } }

section VinRise
variable {mv uf : Nat} {pref : Bool} {bay : BitVec 6} {s : State}

theorem vinRise_dark_low (h : s.power.supply = .dark) (hmv : mv < 8600) : vinRise mv uf pref bay s = vinAt mv (strapsPut pref bay s) := by
  simp only [vinRise, h, if_pos hmv, vinAt, strapsPut]
theorem vinRise_dark_high (h : s.power.supply = .dark) (hmv : 8600 ≤ mv) : vinRise mv uf pref bay s = powerOnReset mv uf (strapsPut pref bay s) := by
  simp only [vinRise, h, if_neg (Nat.not_lt.mpr hmv), strapsPut]
theorem vinRise_running (h : s.power.supply = .running) : vinRise mv uf pref bay s = ringNote .supply 0 (vinAt mv (strapsPut pref bay s)) := by
  simp only [vinRise, h, vinAt, strapsPut]
theorem vinRise_starting (h : s.power.supply = .starting) : vinRise mv uf pref bay s =
    { s with power := { s.power with pinPref := pref, pinBay := bay, vin := mv, holdupUf := if s.power.classFixed = true then s.power.holdupUf else uf } } := by
  simp only [vinRise, h]
theorem vinRise_failHold (h : s.power.supply = .failHold) : vinRise mv uf pref bay s = vinAt mv (strapsPut pref bay s) := by
  simp only [vinRise, h, vinAt, strapsPut]

end VinRise

theorem busClassFix_starting {s : State} (h : s.power.supply = .starting) (hc : s.power.classFixed = false) :
    busClassFix s = { s with power := { s.power with classFixed := true, classHigh := decide (36000 ≤ s.power.vin ∧ 200 ≤ s.power.holdupUf) } } := by
  rw [Bool.decide_and]; exact if_pos ⟨h, hc⟩
theorem busClassFix_fixed {s : State} (h : s.power.supply ≠ .starting ∨ s.power.classFixed = true) : busClassFix s = s :=
  if_neg (by rcases h with h | h <;> simp [h])
theorem holdupCharged_standing {s : State} (h : s.power.supply = .starting ∨ s.power.supply = .running) :
    holdupCharged s = { s with power := { s.power with holdupOk := true } } := if_pos h

/-- Settles O42: each event of the supply by the state it finds, the power loss by what it keeps and what it clears. -/
theorem supplyChanges : Obligations.SupplyChanges := by
  unfold Obligations.SupplyChanges
  intro mv uf pref bay s p strapped volt on sees up lost
  refine ⟨?riseLow, ?riseUp, ?riseRunning, ?riseStarting, ?riseHeld, ?released, ?stillHeld, ?notHeld, ?classFixes, ?classFixed, ?charged, ?down,
    ?powerFails, ?vinGone, ?heldGone, ?vinKept, ?cellDark, ?cellGone, ?cellRunLow, ?cellRun, ?cellLow, ?cellFell⟩
  case riseLow => exact fun h hmv => next_finish (vinRise_dark_low h hmv)
  case riseUp => exact fun h hmv => next_finish ((vinRise_dark_high h hmv).trans (powerOnReset_eq ..))
  case riseRunning => exact fun h => next_finish (vinRise_running h)
  case riseStarting => exact fun h => next_finish (vinRise_starting h)
  case riseHeld => exact fun h => next_finish (vinRise_failHold h)
  case released => exact fun h hmv => next_finish ((failHoldRelease_released h hmv).trans (powerOnReset_eq ..))
  case stillHeld => exact fun _ hmv => next_finish (failHoldRelease_waits fun _ => hmv)
  case notHeld => exact fun h => next_finish (failHoldRelease_waits fun hc => absurd hc h)
  case classFixes => exact fun h hc => next_finish (busClassFix_starting h hc)
  case classFixed => exact fun h => next_finish (busClassFix_fixed h)
  case charged => exact fun h => next_finish (holdupCharged_standing h)
  case down => exact fun h => ⟨next_finish (holdupCharged_down h), next_finish (powerFail_down h)⟩
  case powerFails =>
    intro h
    have hlost := supplyLost_powerLoss true s
    have hmode : (powerLoss true s).power.mode = .run := rfl
    have hpf := powerLoss_declared_pf (s := s)
    obtain ⟨-, -, hkek, hclock, hsticky, -, -⟩ := powerLoss_keeps true s
    refine ⟨_, next_finish (powerFail_standing h), ?_⟩
    generalize powerLoss true s = t at hlost hmode hpf hkek hclock hsticky ⊢
    exact ⟨supplyLost_setSupply hlost, rfl, hmode, rfl, hkek, hclock, hsticky, fun hh hb hm => hpf hh hb hm⟩
  case vinGone =>
    intro h hmv
    have hlost := supplyLost_powerLoss false s
    have hpf := powerLoss_undeclared_pf s
    obtain ⟨-, -, hkek, hclock, hsticky, -, -⟩ := powerLoss_keeps false s
    refine ⟨_, next_finish (vinLoss_standing h hmv), ?_⟩
    generalize powerLoss false s = t at hlost hpf hkek hclock hsticky ⊢
    by_cases hcell : s.power.vcell = 0
    · rw [if_pos hcell]
      exact ⟨supplyLost_allSupplyLost (supplyLost_setSupply hlost), rfl, rfl, hpf, fun h0 => absurd hcell h0, fun _ => ⟨rfl, rfl, rfl, rfl⟩⟩
    · rw [if_neg hcell]
      exact ⟨supplyLost_setSupply hlost, rfl, rfl, hpf, fun _ => ⟨rfl, hkek, hclock, hsticky⟩, fun h0 => absurd h0 hcell⟩
  case heldGone => exact fun h hmv hcell => next_finish (vinLoss_held h hmv hcell)
  case vinKept => exact fun h => next_finish (vinLoss_kept h)
  case cellDark => exact fun h hmv => next_finish ((vcellLow_dark h).trans (if_neg hmv))
  case cellGone => exact fun h => ⟨_, next_finish ((vcellLow_dark h).trans (if_pos rfl)), rfl, rfl, rfl, rfl, rfl⟩
  case cellRunLow => exact fun h hmv => next_finish ((vcellLow_running h).trans (congrArg (ringNote .supply 1) (if_pos hmv)))
  case cellRun => exact fun h hmv => next_finish ((vcellLow_running h).trans (congrArg (ringNote .supply 1) (if_neg (Nat.not_lt.mpr hmv))))
  case cellLow => exact fun h hmv => next_finish ((vcellLow_other h).trans (if_pos hmv))
  case cellFell => exact fun h hmv => next_finish ((vcellLow_other h).trans (if_neg (Nat.not_lt.mpr hmv)))

end Sys2Proof.Supply
end

section
/-! SUPPORT. The bay lever: what an event of the ring, the withdrawal of commands and a queue checkpoint leave alone, and what the lever's rise does in each power state (02_module_contacts_supply.md, R45, R48, R49). -/

namespace Sys2Proof.Lever

open Sys2Proof.Machine Sys2Proof.Frame

/-! ### Power state and queue table through the withdrawal of commands -/

/-- Power state and queue table: what withdrawing commands and posting events leaves alone. -/
def powerQueues (s : State) : Power × List Queue := (s.power, s.cqe.queues)

@[simp] theorem powerQueues_ringEvent (e : RingEvent) (s : State) : powerQueues (ringEvent e s) = powerQueues s := by
  unfold ringEvent; dsimp only; split <;> rfl
@[simp] theorem powerQueues_shelfIbi (s : State) : powerQueues (shelfIbi s) = powerQueues s := by
  unfold shelfIbi; split <;> rfl
@[simp] theorem powerQueues_postEventOn (port code : Nat) (data : BitVec 56) (s : State) : powerQueues (postEventOn port code data s) = powerQueues s := by
  unfold postEventOn
  split
  · rfl
  · split <;> rfl
@[simp] theorem powerQueues_slotEventAt (code obj count : Nat) (time : DWord) (s : State) :
    powerQueues (slotEventAt code obj count time s) = powerQueues s := by
  simp [slotEventAt, postEvent]
@[simp] theorem powerQueues_postWake (s : State) (w : WakeRec) : powerQueues (postWake s w) = powerQueues s := by
  unfold postWake; dsimp only; split <;> simp

@[simp] theorem powerQueues_drivePort (n : Nat) (s : State) : powerQueues (drivePort n s) = powerQueues s := by
  unfold drivePort; dsimp only; split <;> rfl
@[simp] theorem powerQueues_startLabel (n : Nat) (s : State) : powerQueues (startLabel n s) = powerQueues s := powerQueues_drivePort n s
@[simp] theorem powerQueues_takeJobs (sel : LabelJob → Bool) (s : State) : powerQueues (takeJobs sel s).2 = powerQueues s :=
  foldl_keeps (fun s n => by split <;> simp) _ _
@[simp] theorem powerQueues_dropLabelJob (key : Nat) (s : State) : powerQueues (dropLabelJob key s) = powerQueues s := powerQueues_takeJobs _ s

@[simp] theorem powerQueues_rngWithdraw (id : Nat) (s : State) : powerQueues (rngWithdraw id s).2 = powerQueues s := by
  unfold rngWithdraw; split <;> rfl
@[simp] theorem powerQueues_dropEntropy (c : Inflight) (s : State) : powerQueues (dropEntropy c s) = powerQueues s := by
  unfold dropEntropy; split <;> simp
@[simp] theorem powerQueues_dropJobRandom (job : Nat) (s : State) : powerQueues (dropJobRandom job s) = powerQueues s := by
  unfold dropJobRandom; split <;> simp

@[simp] theorem powerQueues_releaseHeld (s : State) : powerQueues (releaseHeld s) = powerQueues s :=
  foldl_keeps (fun s j => by unfold releaseOne; split <;> rfl) _ _
@[simp] theorem powerQueues_stopJobs (sel : PkeJob → Bool) (status : Nat) (s : State) : powerQueues (stopJobs sel status s) = powerQueues s :=
  (powerQueues_releaseHeld _).trans (foldl_keeps (fun s j => by split <;> rfl) _ _)

@[simp] theorem powerQueues_park1 (h : Nat) (s : State) : powerQueues (park1 h s) = powerQueues s := by
  unfold park1; split <;> rfl
@[simp] theorem powerQueues_resumeIdle (n h : Nat) (s : State) : powerQueues (resumeIdle n h s) = powerQueues s := by
  unfold resumeIdle
  split
  · rfl
  · split
    · rfl
    · split
      · rfl
      · exact powerQueues_park1 h s
@[simp] theorem powerQueues_flashLock (s : State) : powerQueues (flashLock s) = powerQueues s := by
  unfold flashLock; dsimp only; split <;> rfl

@[simp] theorem powerQueues_dropCardJob (key : Nat) (s : State) : powerQueues (dropCardJob key s) = powerQueues s := rfl
@[simp] theorem powerQueues_dropWired (key : Nat) (s : State) : powerQueues (dropWired key s) = powerQueues s := rfl
@[simp] theorem powerQueues_dropLaneKeys (keys : List Nat) (s : State) : powerQueues (dropLaneKeys keys s) = powerQueues s := rfl
@[simp] theorem powerQueues_dropRequest (key : Nat) (s : State) : powerQueues (dropRequest key s) = powerQueues s := rfl

/-- Taking back a command that has not begun changes neither, whatever it waits for. -/
theorem powerQueues_withdraw (c : Inflight) (s : State) : powerQueues (withdraw c s) = powerQueues s := by
  unfold withdraw
  cases c.wait <;> simp

/-- A planned castling begins with power state and queue table as they are. -/
theorem powerQueues_beginPlanned (key : Option Nat) (leaving : Bool) (s : State) : powerQueues (beginPlanned key leaving s) = powerQueues s :=
  (foldl_keeps (fun s c => powerQueues_withdraw c s) _ _).trans (powerQueues_stopJobs _ _ s)

/-! ### The lever's rise -/

/-- The lever is noted as open and its action as due. -/
def leverNoted (s : State) : State := { s with power := { s.power with leverOpen := true, leverDue := true } }
/-- The action of R48 at once where nothing holds it up. -/
def leverDecision (n : State) : State := if n.power.booted = false ∨ leverWaits n = true then n else leverAct n
/-- The module refuses new commands (R48). -/
def leverRefuses (n : State) : State := { n with power := { n.power with leverDue := false, withdrawing := true } }

/-- What R48 asks for in each role, and that it waits before the boot and during a castling. -/
def LeverActed (n t : State) : Prop :=
  (n.power.booted = false ∨ leverWaits n = true → t = n) ∧
  (n.power.booted = true → leverWaits n = false →
    (n.pair.role = .active → castleReady n = true → t = beginPlanned none true { n with power := { n.power with leverDue := false } }) ∧
    (n.pair.role = .active → castleReady n = false → t = leverRefuses n) ∧
    (n.pair.role = .standby → t = { n with power := { n.power with leverDue := false }, pair := ({ n.pair with leaving := true } : Pair).send (.control .withdrawal) }) ∧
    (n.pair.role ≠ .active → n.pair.role ≠ .standby → t = leverRefuses n))

theorem leverAct_active_ready {n : State} (hr : n.pair.role = .active) (hc : castleReady n = true) :
    leverAct n = beginPlanned none true { n with power := { n.power with leverDue := false } } := by
  unfold leverAct; dsimp only; rw [hr]; exact if_pos hc
theorem leverAct_active_alone {n : State} (hr : n.pair.role = .active) (hc : castleReady n = false) : leverAct n = leverRefuses n := by
  unfold leverAct; dsimp only; rw [hr]; exact if_neg (ne_true_of_eq_false hc)
theorem leverAct_standby {n : State} (hr : n.pair.role = .standby) :
    leverAct n = { n with power := { n.power with leverDue := false }, pair := ({ n.pair with leaving := true } : Pair).send (.control .withdrawal) } := by
  unfold leverAct; dsimp only
  split
  case h_1 ha => exact absurd (hr.symm.trans ha) (by decide)
  case h_2 => rfl
  case h_3 _ hs => exact absurd hr hs
theorem leverAct_other {n : State} (ha : n.pair.role ≠ .active) (hs : n.pair.role ≠ .standby) : leverAct n = leverRefuses n := by
  unfold leverAct; dsimp only
  split
  case h_1 h => exact absurd h ha
  case h_2 h => exact absurd h hs
  case h_3 => rfl

theorem leverDecision_waits {n : State} (h : n.power.booted = false ∨ leverWaits n = true) : leverDecision n = n := if_pos h
theorem leverDecision_acts {n : State} (hb : n.power.booted = true) (hw : leverWaits n = false) : leverDecision n = leverAct n :=
  if_neg (by simp [hb, hw])

theorem leverActed_leverDecision (n : State) : LeverActed n (leverDecision n) := by
  refine ⟨leverDecision_waits, fun hb hw => ?_⟩
  rw [leverDecision_acts hb hw]
  exact ⟨leverAct_active_ready, leverAct_active_alone, leverAct_standby, leverAct_other⟩

/-- Of the power state the lever's action touches its own two flags only. -/
theorem leverAct_power (n : State) : ∃ w, (leverAct n).power = { n.power with leverDue := false, withdrawing := w } := by
  by_cases ha : n.pair.role = .active
  · cases hc : castleReady n with
    | true => rw [leverAct_active_ready ha hc]; exact ⟨_, congrArg Prod.fst (powerQueues_beginPlanned none true _)⟩
    | false => rw [leverAct_active_alone ha hc]; exact ⟨_, rfl⟩
  · by_cases hs : n.pair.role = .standby
    · rw [leverAct_standby hs]; exact ⟨_, rfl⟩
    · rw [leverAct_other ha hs]; exact ⟨_, rfl⟩
theorem leverDecision_power (n : State) : ∃ d w, (leverDecision n).power = { n.power with leverDue := d, withdrawing := w } := by
  unfold leverDecision
  split
  · exact ⟨_, _, rfl⟩
  · exact ⟨_, leverAct_power n⟩

/-! #### An event of the ring does not change whether the lever waits -/

@[simp] theorem ringEvent_pair (e : RingEvent) (s : State) : (ringEvent e s).pair = s.pair := by
  unfold ringEvent; dsimp only; split <;> rfl
@[simp] theorem leverWaits_ringEvent (e : RingEvent) (s : State) : leverWaits (ringEvent e s) = leverWaits s := by
  unfold ringEvent; dsimp only; split <;> rfl
@[simp] theorem castleReady_ringEvent (e : RingEvent) (s : State) : castleReady (ringEvent e s) = castleReady s := by
  unfold ringEvent; dsimp only; split <;> rfl
theorem ringEvent_power (e : RingEvent) (s : State) : (ringEvent e s).power = s.power := congrArg Prod.fst (powerQueues_ringEvent e s)
theorem ringEvent_queues (e : RingEvent) (s : State) : (ringEvent e s).cqe.queues = s.cqe.queues := congrArg Prod.snd (powerQueues_ringEvent e s)

/-- LEVER_N is read as open where nothing can act: a kiln, no supply, a power-fail hold. -/
theorem leverRise_powerless {s : State} (h : s.kiln.latch = true ∨ s.power.supply = .failHold ∨ s.power.supply = .dark) :
    leverRise s = { s with power := { s.power with leverOpen := true } } := if_pos h

section Powered
variable {s : State} (hl : s.kiln.latch = false) (hp : s.power.supply = .running ∨ s.power.supply = .starting)
include hl hp

theorem lever_powered : ¬ (s.kiln.latch = true ∨ s.power.supply = .failHold ∨ s.power.supply = .dark) := by
  rcases hp with h | h <;> simp [hl, h]
/-- In LAGER the rise is recorded only. -/
theorem leverRise_lager (hm : s.power.mode = .lager) : leverRise s = recordWake .lever 0 (leverNoted s) := by
  refine (if_neg (lever_powered hl hp)).trans ?_
  simp [hm, leverNoted]
/-- Before the boot it is noted only. -/
theorem leverRise_unbooted (hm : s.power.mode = .run) (hb : s.power.booted = false) : leverRise s = leverNoted s := by
  refine (if_neg (lever_powered hl hp)).trans ?_
  simp [hm, hb, leverNoted]
/-- A module in RUN posts the event and acts where nothing holds it up. -/
theorem leverRise_run (hm : s.power.mode = .run) (hb : s.power.booted = true) : leverRise s = leverDecision (ringNote .lever 0 (leverNoted s)) := by
  refine (if_neg (lever_powered hl hp)).trans ?_
  simp [hm, hb, leverNoted, leverDecision]
/-- A module in STEEP wakes first. -/
theorem leverRise_steep (hm : s.power.mode = .steep) : leverRise s = leverDecision (dormantEvent .lever 0 (leverNoted s)) := by
  refine (if_neg (lever_powered hl hp)).trans ?_
  simp [hm, leverNoted, leverDecision]

end Powered

/-! ### The action of a module in RUN -/

theorem leverNote_power (s : State) : (ringNote .lever 0 (leverNoted s)).power = { s.power with leverOpen := true, leverDue := true } :=
  ringEvent_power _ _
theorem leverNote_pair (s : State) : (ringNote .lever 0 (leverNoted s)).pair = s.pair := ringEvent_pair _ _
theorem leverNote_waits (s : State) : leverWaits (ringNote .lever 0 (leverNoted s)) = leverWaits s := leverWaits_ringEvent _ _
theorem leverNote_ready (s : State) : castleReady (ringNote .lever 0 (leverNoted s)) = castleReady s := castleReady_ringEvent _ _

/-- A module that is no standby and starts no castling refuses new commands. -/
theorem leverAct_note_refuses {s : State} (hs : s.pair.role ≠ .standby) (hc : s.pair.role = .active → castleReady s = false) :
    (leverAct (ringNote .lever 0 (leverNoted s))).power = { s.power with leverOpen := true, withdrawing := true, leverDue := false } := by
  have hact : leverAct (ringNote .lever 0 (leverNoted s)) = leverRefuses (ringNote .lever 0 (leverNoted s)) := by
    by_cases ha : s.pair.role = .active
    · exact leverAct_active_alone (by rw [leverNote_pair, ha]) (by rw [leverNote_ready, hc ha])
    · exact leverAct_other (by rwa [leverNote_pair]) (by rwa [leverNote_pair])
  simp only [hact, leverRefuses, leverNote_power]
/-- An active whose partner may take over begins a castling that ends in its withdrawal; the queues stay. -/
theorem leverAct_note_castles {s : State} (ha : s.pair.role = .active) (hc : castleReady s = true) :
    (leverAct (ringNote .lever 0 (leverNoted s))).pair.castling = .planned none true ∧
    (leverAct (ringNote .lever 0 (leverNoted s))).cqe.queues = s.cqe.queues := by
  rw [leverAct_active_ready (by rw [leverNote_pair, ha]) (by rw [leverNote_ready, hc])]
  exact ⟨rfl, (congrArg Prod.snd (powerQueues_beginPlanned none true _)).trans (ringEvent_queues ..)⟩
/-- Sending a message does not change that the module is leaving. -/
theorem send_leaving (p : Pair) (m : PairOut) : (p.send m).leaving = p.leaving := by
  unfold Pair.send; dsimp only; split <;> rfl
/-- A standby tells its partner and refuses nothing. -/
theorem leverAct_note_standby {s : State} (hs : s.pair.role = .standby) :
    (leverAct (ringNote .lever 0 (leverNoted s))).pair.leaving = true ∧
    (leverAct (ringNote .lever 0 (leverNoted s))).power.withdrawing = s.power.withdrawing := by
  rw [leverAct_standby (by rw [leverNote_pair, hs])]
  exact ⟨send_leaving .., by simp only [leverNote_power]⟩

/-! ### The wake from STEEP -/

/-- The wake record is emptied; the rest of the power state stays. -/
theorem drainWakes_power (s : State) : (drainWakes s).power = { s.power with wakeLog := [] } :=
  congrArg Prod.fst (foldl_keeps powerQueues_postWake _ _)
/-- A wake from STEEP returns to RUN with its source as the cause. -/
theorem wakeUp_steep_power {b : Nat} {s : State} (hm : s.power.mode = .steep) :
    (wakeUp b s).power.mode = .run ∧ (wakeUp b s).power.prev = .steep ∧ (wakeUp b s).power.wakeCause = bit32 b true := by
  have hwake : wakeUp b s = drainWakes (wakeSteep b s) := by unfold wakeUp; rw [hm]
  rw [hwake, drainWakes_power]
  exact ⟨rfl, rfl, rfl⟩
/-- The lever always wakes a module in STEEP. -/
theorem dormantEvent_lever_steep {s : State} (hm : s.power.mode = .steep) :
    ∃ n, n.power.mode = .steep ∧ dormantEvent .lever 0 s = wakeUp 6 n := by
  have hwakes : wakes (recordWake .lever 0 s) .lever = true := by
    have hm' : (recordWake .lever 0 s).power.mode = .steep := hm
    unfold wakes; rw [hm']
  refine ⟨_, ?_, if_pos hwakes⟩
  exact hm

/-! ### The end of a drain -/

/-- What a flush leaves alone besides the journal. -/
def drainKept (s : State) : Power × Clock × List Queue × List Inflight × List Host.Cell × Ktab :=
  (s.power, s.clock, s.cqe.queues, s.cqe.inflight, s.mem, s.ktab)

theorem drainKept_postEventOn (port code : Nat) (data : BitVec 56) (s : State) : drainKept (postEventOn port code data s) = drainKept s := by
  unfold postEventOn
  split
  · rfl
  · split <;> rfl
theorem drainKept_postEvent (code : Nat) (data : BitVec 56) (s : State) : drainKept (postEvent code data s) = drainKept s :=
  (drainKept_postEventOn ..).trans (drainKept_postEventOn ..)
theorem drainKept_journalEvents (s : State) : drainKept (journalEvents s) = drainKept s := by
  have hevent (b : Bool) (code : Nat) (s : State) : drainKept (if b = true then postEvent code 0 s else s) = drainKept s := by
    split
    · exact drainKept_postEvent ..
    · rfl
  exact (hevent _ 7 _).trans ((hevent _ 2 _).trans (hevent _ 1 _))
theorem drainKept_flush (s : State) : drainKept (flush s) = drainKept s := by
  unfold flush
  split
  · exact drainKept_journalEvents _
  · rfl
theorem drainKept_append (source : BitVec 16) (body : JBody) (s : State) : drainKept (append source body s) = drainKept s := by
  unfold append appendAs
  exact (apply_ite drainKept _ _ _).trans (ite_self _)
/-- A queue checkpoint restarts its own period. -/
theorem drainKept_queueCheckpoint (kind : Nat) (s : State) :
    drainKept (queueCheckpoint kind s) = drainKept { s with clock := { s.clock with ckptAge := 0 } } := by
  refine (drainKept_flush _).trans ?_
  have happ := drainKept_append 0xFFFF (.queueCkpt kind (BitVec.ofNat 64 (s.journal.flushed - 1)) (queueSlots s s.journal.flushed)) s
  exact congrArg (fun k : Power × Clock × List Queue × List Inflight × List Host.Cell × Ktab => (k.1, { k.2.1 with ckptAge := 0 }, k.2.2)) happ

theorem withdrawalTimeout_due {s : State} (hw : s.power.withdrawing = true) (hd : s.power.drainDone = false) :
    withdrawalTimeout s = queueCheckpoint 0 (flush { s with power := { s.power with drainDone := true } }) := if_pos ⟨hw, hd⟩
theorem withdrawalTimeout_idle {s : State} (h : s.power.withdrawing = false ∨ s.power.drainDone = true) : withdrawalTimeout s = s :=
  if_neg (by rcases h with h | h <;> simp [h])

/-- The end of a drain leaves queues, commands, memory and the key table as they are. -/
theorem drainKept_drain (s : State) :
    drainKept (queueCheckpoint 0 (flush { s with power := { s.power with drainDone := true } })) =
      ({ s.power with drainDone := true }, { s.clock with ckptAge := 0 }, s.cqe.queues, s.cqe.inflight, s.mem, s.ktab) := by
  have hflush := drainKept_flush { s with power := { s.power with drainDone := true } }
  refine (drainKept_queueCheckpoint 0 _).trans ?_
  exact congrArg (fun k : Power × Clock × List Queue × List Inflight × List Host.Cell × Ktab => (k.1, { k.2.1 with ckptAge := 0 }, k.2.2)) hflush

/-- Settles O43: the rise of the lever by power state and role, its close, and the end of the drain. -/
theorem leverEvents : Obligations.LeverEvents := by
  unfold Obligations.LeverEvents
  intro s p go noted refuses acted
  refine ⟨fun h => ?_, fun hl hp => ⟨fun hm => ?_, fun hm hb => ?_, fun hm hb => ⟨fun hw => ?_, fun hw => ?_⟩, fun hm => ?_⟩, rfl, fun hw hd => ?_, fun h => ?_⟩
  · exact next_finish (leverRise_powerless h)
  · exact next_finish (leverRise_lager hl hp hm)
  · exact next_finish (leverRise_unbooted hl hp hm hb)
  · have hwait : leverRise s = ringNote .lever 0 (leverNoted s) :=
      (leverRise_run hl hp hm hb).trans (leverDecision_waits (.inr ((leverNote_waits s).trans hw)))
    exact next_finish hwait
  · have hact : leverRise s = leverAct (ringNote .lever 0 (leverNoted s)) :=
      (leverRise_run hl hp hm hb).trans (leverDecision_acts ((congrArg Power.booted (leverNote_power s)).trans hb) ((leverNote_waits s).trans hw))
    refine ⟨leverRise s, rfl, ?_, ?_⟩
    · rw [leverRise_run hl hp hm hb]; exact leverActed_leverDecision _
    · rw [hact]; exact ⟨leverAct_note_refuses, leverAct_note_castles, leverAct_note_standby⟩
  · obtain ⟨n, hn, hdormant⟩ := dormantEvent_lever_steep (s := leverNoted s) hm
    obtain ⟨hrun, hprev, hcause⟩ := wakeUp_steep_power (b := 6) hn
    obtain ⟨d, w, hpow⟩ := leverDecision_power (dormantEvent .lever 0 (leverNoted s))
    refine ⟨leverRise s, rfl, ?_⟩
    rw [leverRise_steep hl hp hm, hpow]
    exact ⟨leverActed_leverDecision _, hdormant ▸ hrun, hdormant ▸ hprev, hdormant ▸ hcause⟩
  · have hk := drainKept_drain s
    simp only [drainKept, Prod.mk.injEq] at hk
    obtain ⟨hpower, hclock, hqueues, hinflight, hmem, hktab⟩ := hk
    exact ⟨next_finish (withdrawalTimeout_due hw hd), hpower, hqueues, hinflight, hclock, hmem, hktab⟩
  · exact next_finish (withdrawalTimeout_idle h)

end Sys2Proof.Lever
end

section
/-! SUPPORT. How an entry is taken in: what the sequence number and the acceptance record leave alone, what an accepted entry becomes, what each check of R120 answers (04_yomir_command_protocol.md, R120 to R123). -/

namespace Sys2Proof.Acceptance

open Sys2Proof.Machine Sys2Proof.Safety

/-! ### Steps 1 to 3 (R120, R121) -/

theorem integrity_unfetched (op : BitVec 16) (e : Entry) (x : Word) : integrity false op e x = 3 := rfl
theorem integrity_wrongCrc {op : BitVec 16} {e : Entry} {x : Word} (h : crc32c ((entryBytes op e).take 60) ≠ e.crc) :
    integrity true op e x = 1 := by
  simp [integrity, h]
theorem integrity_wrongSeq {op : BitVec 16} {e : Entry} {x : Word} (hc : crc32c ((entryBytes op e).take 60) = e.crc) (hs : e.seq ≠ x) :
    integrity true op e x = 2 := by
  simp [integrity, hc, hs]
theorem integrity_passes {op : BitVec 16} {e : Entry} {x : Word} (hc : crc32c ((entryBytes op e).take 60) = e.crc) (hs : e.seq = x) :
    integrity true op e x = 0 := by
  simp [integrity, hc, hs]

/-! ### What the sequence number and the acceptance record leave alone -/

section Expected
variable (v : Word) (s : State) (src : Source)

@[simp] theorem setExpected_journal : (setExpected v s src).journal = s.journal := by cases src <;> rfl
@[simp] theorem setExpected_clock : (setExpected v s src).clock = s.clock := by cases src <;> rfl
@[simp] theorem setExpected_journals : (setExpected v s src).journals = s.journals := by cases src <;> rfl
@[simp] theorem setExpected_nextKey : (setExpected v s src).cqe.nextKey = s.cqe.nextKey := by cases src <;> rfl
@[simp] theorem setExpected_inflight : (setExpected v s src).cqe.inflight = s.cqe.inflight := by cases src <;> rfl
@[simp] theorem previousKey_setExpected (issuer : Source) : previousKey (setExpected v s src) issuer = previousKey s issuer := by cases src <;> rfl

end Expected

section Recorded
variable (handle source : BitVec 16) (body : JBody) (s : State)

@[simp] theorem appendAs_cqe : (appendAs handle source body s).cqe = s.cqe := by
  unfold appendAs; exact (apply_ite State.cqe _ _ _).trans (ite_self _)
@[simp] theorem appendAs_clock : (appendAs handle source body s).clock = s.clock := by
  unfold appendAs; exact (apply_ite State.clock _ _ _).trans (ite_self _)
@[simp] theorem forwardAs_cqe : (forwardAs handle source body s).cqe = s.cqe := by
  unfold forwardAs; split <;> rfl
@[simp] theorem forwardAs_clock : (forwardAs handle source body s).clock = s.clock := by
  unfold forwardAs; split <;> rfl

end Recorded

/-- The previous entry of a source is read off the command queue engine alone. -/
theorem previousKey_congr {s t : State} (h : t.cqe = s.cqe) (src : Source) : previousKey t src = previousKey s src := by
  unfold previousKey; rw [h]

@[simp] theorem previousKey_appendAs (handle source : BitVec 16) (body : JBody) (s : State) (src : Source) :
    previousKey (appendAs handle source body s) src = previousKey s src := previousKey_congr (appendAs_cqe ..) src
@[simp] theorem previousKey_forwardAs (handle source : BitVec 16) (body : JBody) (s : State) (src : Source) :
    previousKey (forwardAs handle source body s) src = previousKey s src := previousKey_congr (forwardAs_cqe ..) src
/-- Nothing is counted for an entry whose integrity stands. -/
@[simp] theorem countIntegrity_zero (src : Source) (s : State) : countIntegrity 0 src s = s := rfl

/-! ### A sound entry is taken in -/

/-- A sound entry enters steps 4 to 11 on the state that has it accepted (R122, R123). -/
theorem takeEntry_sound {op : BitVec 16} {src : Source} {e : Entry} {auth : Bool} {hd : BitVec 16} {s0 : State} (h : Sound op src e s0) :
    takeEntry true op src e auth hd s0 = judge (inflightOf op src e hd s0) auth (takenIn (inflightOf op src e hd s0) s0) := by
  obtain ⟨hcrc, hseq⟩ := h
  have hpass : integrity true op e (expectedSeq s0 src) = 0 := integrity_passes hcrc hseq
  unfold takeEntry takenIn inflightOf
  -- A module that numbers its records appends the acceptance record; another sends it to the active, or has no journal yet.
  cases hlive : decide (0 < s0.journal.next) && s0.journals with
  | true => simp [hpass, hlive]
  | false => simp [hpass, hlive]

/-- A source that can give an entry gives it to the engine as `Arrives` says (R109 to R111, R144 to R147). -/
theorem submit_arrives {op : BitVec 16} {src : Source} {e : Entry} {s s0 : State} {auth : Bool} {hd : BitVec 16} (h : Arrives src s s0 auth hd) :
    submit op src e s = takeEntry true op src e auth hd s0 := by
  obtain ⟨hopen, h⟩ := h
  cases src with
  | queue q =>
    obtain ⟨rfl, x, hx, hq, rfl, rfl⟩ := h
    simp [submit, hopen, hx, hq]
  | mgmt =>
    obtain ⟨rfl, hen, hup, hroom, hframes, rfl, rfl⟩ := h
    simp [submit, mgmtArrive, mgmtTaken, takeMgmt, hopen, hen, hup, hframes, Nat.not_le.mpr hroom]
  | tag =>
    obtain ⟨rfl, hen, hfree, hfield, rfl, rfl⟩ := h
    simp [submit, hopen, hfree, hfield, Nat.not_lt.mpr hen]
  | internal n a =>
    obtain ⟨rfl, hen, hn, rfl, rfl⟩ := h
    simp [submit, hopen, Nat.not_lt.mpr hen, Nat.not_le.mpr hn]

/-- The entry taken from its source leaves the commands in flight as they are. -/
theorem arrives_inflight {src : Source} {s s0 : State} {auth : Bool} {hd : BitVec 16} (h : Arrives src s s0 auth hd) :
    s0.cqe.inflight = s.cqe.inflight := by
  obtain ⟨-, h⟩ := h
  cases src with
  | queue q => obtain ⟨-, x, -, -, -, rfl⟩ := h; rfl
  | mgmt => obtain ⟨-, -, -, -, -, -, rfl⟩ := h; rfl
  | tag => obtain ⟨-, -, -, -, -, rfl⟩ := h; rfl
  | internal n a => obtain ⟨-, -, -, -, rfl⟩ := h; rfl

/-- A command that waits for nothing has its work begun (R28, R114). -/
theorem startCommand_runs {c : Inflight} {s : State} (h : (needsRequest c.op && !mgmtTakes (signalled c.op s)) = false) :
    startCommand c s = runBody false c ((signalled c.op s).waitOn c.key .running) :=
  if_neg (ne_true_of_eq_false h)

/-- Steps 4 to 11 of an entry that passes every check and waits for nothing (R120). -/
theorem judge_passes {c : Inflight} {auth : Bool} {s u : State} (hfirst : firstChecks (without c s) c.op c.src c.entry auth = none)
    (hstate : stateChecks c.op.toNat c.src c.entry c.key s = .ok u) (hwait : mustWait (holdInterim c u) c = false)
    (hreq : (needsRequest c.op && !mgmtTakes (signalled c.op (holdInterim c u))) = false) :
    judge c auth s = runBody false c ((signalled c.op (holdInterim c u)).waitOn c.key .running) := by
  unfold without at hfirst
  simp only [judge, hfirst, hstate, hwait, Bool.false_eq_true, if_false]
  exact startCommand_runs hreq

/-- An accepted entry has its command carried out (R120 to R123). -/
theorem submit_accepted {op : BitVec 16} {src : Source} {e : Entry} {s t : State} {c : Inflight} (h : Accepted op src e s c t) :
    submit op src e s = runBody false c t := by
  obtain ⟨s0, auth, hd, s4, harrives, hsound, rfl, hfirst, hstate, hwait, hreq, rfl⟩ := h
  rw [submit_arrives harrives, takeEntry_sound hsound]
  exact judge_passes hfirst hstate hwait hreq

/-- The command in flight is the entry as it came. -/
theorem accepted_command {op : BitVec 16} {src : Source} {e : Entry} {s t : State} {c : Inflight} (h : Accepted op src e s c t) :
    c.op = op ∧ c.src = src ∧ c.entry = e := by
  obtain ⟨s0, auth, hd, s4, -, -, rfl, -⟩ := h
  exact ⟨rfl, rfl, rfl⟩

/-! ### The command in flight -/

@[simp] theorem takenIn_inflight (c : Inflight) (s : State) : (takenIn c s).cqe.inflight = s.cqe.inflight ++ [c] := by
  unfold takenIn
  cases c.accRec.isSome <;> simp
@[simp] theorem holdInterim_inflight (c : Inflight) (s : State) : (holdInterim c s).cqe.inflight = s.cqe.inflight := by
  unfold holdInterim; split <;> rfl
@[simp] theorem signalled_inflight (op : BitVec 16) (s : State) : (signalled op s).cqe.inflight = s.cqe.inflight := by
  unfold signalled; split <;> rfl
/-- Step 10 changes no more than the reservation of a grant (R305). -/
theorem stateChecks_ok {op key : Nat} {src : Source} {e : Entry} {s t : State} (h : stateChecks op src e key s = .ok t) :
    t = s ∨ t = reserveGrant e.handle key s := by
  unfold stateChecks at h
  split at h
  · cases h
  split at h
  · cases h
  cases hgrant : grantNeeded s op src e with
  | none => simp only [hgrant] at h; grind
  | some g =>
    cases husable : grantUsable s e.handle g.1 g.2 with
    | false => simp only [hgrant, husable] at h; grind
    | true => simp only [hgrant, husable] at h; grind
theorem stateChecks_cqe {op key : Nat} {src : Source} {e : Entry} {s t : State} (h : stateChecks op src e key s = .ok t) : t.cqe = s.cqe := by
  rcases stateChecks_ok h with rfl | rfl <;> rfl

/-- A command whose key no other has is found under it. -/
theorem command_waitOn {c : Inflight} {w : Wait} {l : List Inflight} {s : State} (hs : s.cqe.inflight = l ++ [c]) (hl : ∀ d ∈ l, d.key ≠ c.key) :
    (s.waitOn c.key w).command c.key = some { c with wait := w } := by
  have hothers : (l.map (fun d => if d.key = c.key then { d with wait := w } else d)).find? (fun d => d.key == c.key) = none := by
    simp only [List.find?_eq_none, List.mem_map, beq_iff_eq]
    rintro x ⟨d, hd, rfl⟩
    rw [if_neg (hl d hd)]
    exact hl d hd
  simp [State.command, State.waitOn, State.setCommand, hs, hothers]

/-- Settles O23: arrival, acceptance and the checks in turn lead to the command's body on the state that has it in flight. -/
theorem entryAccepted : Obligations.EntryAccepted := by
  unfold Obligations.EntryAccepted
  intro op src e s t c h
  obtain ⟨hop, hsrc, hentry⟩ := accepted_command h
  refine ⟨submit_accepted h, hop, hsrc, hentry, fun hfresh => ?_⟩
  obtain ⟨s0, auth, hd, s4, harrives, -, -, -, hstate, -, -, rfl⟩ := h
  refine command_waitOn (l := s.cqe.inflight) ?_ hfresh
  rw [signalled_inflight, holdInterim_inflight, stateChecks_cqe hstate, takenIn_inflight, arrives_inflight harrives]

/-! ### Steps 4 to 9, each where those before it pass (R120) -/

theorem firstChecks_undefined {s : State} {op : BitVec 16} {src : Source} {e : Entry} {auth : Bool} (h : opRow op = none) :
    firstChecks s op src e auth = some (answer 0x2001 []) := by
  simp only [firstChecks, h]

section FirstChecks
variable {s : State} {op : BitVec 16} {src : Source} {e : Entry} {auth : Bool} {r : OpRow} (hrow : opRow op = some r)
include hrow

theorem firstChecks_unsafe (hsafe : s.power.safe = true) (hop : safeOp op = false) : firstChecks s op src e auth = some (answer 0x6001 []) := by
  simp only [firstChecks, hrow, hsafe, hop, and_self, if_true]

variable (hsafe : s.power.safe = false)
include hsafe

theorem firstChecks_transport {n : Nat} (h : transportRefusal op r auth src = some n) :
    firstChecks s op src e auth = some (notAuthorized n) := by
  simp [firstChecks, hrow, hsafe, h]

variable (htransport : transportRefusal op r auth src = none)
include htransport

theorem firstChecks_reserved {off : Nat} (h : reservedOffset (setTimeGranted s e) op src e = some off) :
    firstChecks s op src e auth = some (invalidField off) := by
  simp [firstChecks, hrow, hsafe, htransport, h]

variable (hfields : reservedOffset (setTimeGranted s e) op src e = none)
include hfields

theorem firstChecks_tag (h : e.tag = 0xFFFF ∨ tagInUse s src e.tag = true) : firstChecks s op src e auth = some (invalidField 4) := by
  simp only [firstChecks, hrow, hsafe, htransport, hfields, Bool.false_eq_true, false_and, if_false, if_pos h]

variable (htag : ¬ (e.tag = 0xFFFF ∨ tagInUse s src e.tag = true))
include htag

theorem firstChecks_queue (h : wrongQueue s op src e = true) : firstChecks s op src e auth = some (conflict 7) := by
  simp only [firstChecks, hrow, hsafe, htransport, hfields, Bool.false_eq_true, false_and, if_false, if_neg htag, if_pos h]

variable (hqueue : wrongQueue s op src e = false)
include hqueue

theorem firstChecks_time (hdurable : e.durable = true) (htime : s.clock.valid = false) (hop : op ≠ 0x0004) :
    firstChecks s op src e auth = some (conflict 6) := by
  have hlate : e.durable = true ∧ s.clock.valid = false ∧ op ≠ 0x0004 := ⟨hdurable, htime, hop⟩
  simp only [firstChecks, hrow, hsafe, htransport, hfields, hqueue, Bool.false_eq_true, false_and, if_false, if_neg htag, if_pos hlate]
theorem firstChecks_tail (htime : e.durable = true → s.clock.valid = true ∨ op = 0x0004) (hdurable : e.durable = true)
    (hfull : tailFull s.journal = true) : firstChecks s op src e auth = some (answer 0x3008 []) := by
  have htimed : ¬ (s.clock.valid = false ∧ op ≠ 0x0004) := by grind
  simp only [firstChecks, hrow, hsafe, htransport, hfields, hqueue, hdurable, hfull, Bool.false_eq_true, false_and, true_and, if_false,
    if_neg htag, if_neg htimed, Bool.and_self, Bool.true_or, if_true]

end FirstChecks

/-- An entry that steps 4 to 9 fail completes with their status; the body is not run. -/
theorem judge_refused {c : Inflight} {auth : Bool} {r : Result} {s : State} (h : firstChecks (without c s) c.op c.src c.entry auth = some r) :
    judge c auth s = complete c.key r (if r.status = 0x2001 ∨ r.status = 0x3008 then plainly c.key s else s) := by
  unfold without at h
  simp only [judge, h]
/-- Nor is it run where step 10 fails. -/
theorem judge_stateRefused {c : Inflight} {auth : Bool} {r : Result} {s : State} (hfirst : firstChecks (without c s) c.op c.src c.entry auth = none)
    (h : stateChecks c.op.toNat c.src c.entry c.key s = .error r) : judge c auth s = complete c.key r s := by
  unfold without at hfirst
  simp only [judge, hfirst, h]

/-- Settles O24: the answer of each check where those before it pass, and the completion with it. -/
theorem entryRefused : Obligations.EntryRefused := by
  unfold Obligations.EntryRefused
  refine ⟨fun op e x => ?integrity, fun op src e auth r s => ⟨?undefined, ?safe, ?checks⟩, fun c auth r s => ⟨?refused, ?stateRefused⟩⟩
  case integrity => exact ⟨integrity_unfetched op e x, integrity_wrongCrc, integrity_wrongSeq, integrity_passes⟩
  case undefined => exact firstChecks_undefined
  case safe =>
    intro hrow hsafe h1 h5 h701 hF01
    exact firstChecks_unsafe hrow hsafe (by
      simp only [safeOp, beq_eq_false_iff_ne.mpr h1, beq_eq_false_iff_ne.mpr h5, beq_eq_false_iff_ne.mpr h701, beq_eq_false_iff_ne.mpr hF01, Bool.or_self])
  case checks =>
    refine fun hrow hsafe => ⟨fun n => firstChecks_transport hrow hsafe, fun htransport => ⟨fun off => firstChecks_reserved hrow hsafe htransport,
      firstChecks_tag hrow hsafe htransport, fun hfields htag huse => ?_⟩⟩
    have hfree : ¬ (e.tag = 0xFFFF ∨ tagInUse s src e.tag = true) := not_or.mpr ⟨htag, ne_true_of_eq_false huse⟩
    exact ⟨firstChecks_queue hrow hsafe htransport hfields hfree, firstChecks_time hrow hsafe htransport hfields hfree,
      firstChecks_tail hrow hsafe htransport hfields hfree⟩
  case refused =>
    intro h h2001 h3008
    exact (judge_refused h).trans (congrArg (complete c.key r) (if_neg (not_or.mpr ⟨h2001, h3008⟩)))
  case stateRefused => exact judge_stateRefused

end Sys2Proof.Acceptance
end

section
/-! SUPPORT. Doorbells of a host queue: what stores in host memory leave alone, the arrival of a TLP in RUN, and the two doorbells by their value (04_yomir_command_protocol.md, R109, R110, R122; 05_host_and_management_ports.md, R166). -/

namespace Sys2Proof.Doorbells

open Sys2Proof.Machine Sys2Proof.Frame

/-- What decides whether a port answers: supply, power, and the port records. -/
def reachView (s : State) : Power × HostPort × HostPort := (s.power, s.port0, s.port1)

/-- The host's stores land in its memory and change nothing else that a port looks at. -/
theorem reachView_stores (n : Nat) (stores : List HostStore) (s : State) :
    reachView (stores.foldl (fun (u : State) (x : HostStore) => u.writeBytes n x.addr x.bytes) s) = reachView s :=
  foldl_keeps (view := reachView) (f := fun u (x : HostStore) => u.writeBytes n x.addr x.bytes) (fun _ _ => rfl) stores s

/-- Whether a port is in a host's reach is read off that view alone. -/
theorem portAlive_congr {s t : State} (h : reachView t = reachView s) (p : Nat) : portAlive t p = portAlive s p := by
  simp only [reachView, Prod.mk.injEq] at h
  obtain ⟨hpower, hport0, hport1⟩ := h
  simp only [portAlive, linkOpen, portClock, State.port, hpower, hport0, hport1]
theorem port_congr {s t : State} (h : reachView t = reachView s) (p : Nat) : t.port p = s.port p := by
  simp only [reachView, Prod.mk.injEq] at h
  obtain ⟨-, hport0, hport1⟩ := h
  simp only [State.port, hport0, hport1]

/-- In RUN a TLP does no more than bring the link to L0 (R165, R166). -/
theorem tlpArrives_run {s : State} (h : s.power.mode = .run) (p : Nat) : tlpArrives p s = s.setPort p { s.port p with lstate := .l0 } := by
  have hwake : wakeEvent .host p s = s := by simp [wakeEvent, h]
  unfold tlpArrives; rw [hwake]

theorem hostTlp_alive {p : Nat} {body : State → State} {s : State} (h : portAlive s p = true) : hostTlp p body s = body (tlpArrives p s) :=
  if_pos h
/-- The doorbell of a port in reach acts after the host's stores and the TLP's arrival. -/
theorem sqDoorbell_alive {p q : Nat} {v : Word} {stores : List HostStore} {bad : List Nat} {s : State} (h : portAlive s p = true) :
    sqDoorbell p q v stores bad s =
      sqTail p q v bad (tlpArrives p (stores.foldl (fun (u : State) (x : HostStore) => u.writeBytes (4 + p) x.addr x.bytes) s)) :=
  hostTlp_alive ((portAlive_congr (reachView_stores ..) p).trans h)
theorem cqDoorbell_alive {p q : Nat} {v : Word} {s : State} (h : portAlive s p = true) : cqDoorbell p q v s = cqHead p q v (tlpArrives p s) :=
  hostTlp_alive h

/-- In a ring of `n` places two indices are at no distance only where they are equal. -/
theorem ring_distance_eq_zero {a b n : Nat} (ha : a < n) (hb : b < n) : (a + n - b) % n = 0 ↔ a = b := by
  rcases Nat.lt_or_ge a b with hlt | hge
  · rw [Nat.mod_eq_of_lt (by omega)]; omega
  · rw [show a + n - b = a - b + n by omega, Nat.add_mod_right, Nat.mod_eq_of_lt (by omega)]; omega

section Doorbell
variable {p q : Nat} {v : Word} {bad : List Nat} {s : State} {x : Queue}

theorem sqTail_noQueue (h : s.queue (64 * p + q) = none) : sqTail p q v bad s = s.raiseAt 183 (.port p) 0 0 := by
  simp only [sqTail, h]
theorem sqTail_inRange (h : s.queue (64 * p + q) = some x) (hv : v.toNat < x.sqEntries) :
    sqTail p q v bad s = { s with cqe := { s.cqe with
      queues := s.cqe.queues.map (fun y => if y.qid = 64 * p + q then { y with sqTail := v.toNat } else y)
      poison := s.cqe.poison ++ bad.map (fun i => (64 * p + q, i)) } } := by
  simp only [sqTail, h, if_neg (Nat.not_le.mpr hv)]
  rfl
theorem sqTail_outOfRange (h : s.queue (64 * p + q) = some x) (hv : x.sqEntries ≤ v.toNat) :
    sqTail p q v bad s = badDoorbell (64 * p + q) v x.sqTail 0 s := by
  simp only [sqTail, h, if_pos hv]

theorem cqHead_noQueue (h : s.queue (64 * p + q) = none) : cqHead p q v s = s.raiseAt 183 (.port p) 0 0 := by
  simp only [cqHead, h]
/-- A head inside the range releases the entries from the old head up to it: none or all of them where the two are equal. -/
theorem cqHead_inRange (h : s.queue (64 * p + q) = some x) (hv : v.toNat < x.cqEntries) (hhead : x.cqHead < x.cqEntries) :
    cqHead p q v s = { s with cqe := { s.cqe with
      queues := s.cqe.queues.map (fun y => if y.qid = 64 * p + q then { y with
        cqHead := v.toNat
        unreleased := y.unreleased -
          if v.toNat = x.cqHead ∧ x.cqEntries ≤ x.unreleased then x.cqEntries else (v.toNat + x.cqEntries - x.cqHead) % x.cqEntries } else y) } } := by
  simp only [cqHead, h, if_neg (Nat.not_le.mpr hv), ring_distance_eq_zero hv hhead]
  rfl
theorem cqHead_outOfRange (h : s.queue (64 * p + q) = some x) (hv : x.cqEntries ≤ v.toNat) :
    cqHead p q v s = badDoorbell (64 * p + q) v x.cqHead 1 s := by
  simp only [cqHead, h, if_pos hv]

end Doorbell

/-- Settles O26: both doorbells reach the queue behind the TLP that carries them, then act by their value. -/
theorem portDoorbells : Obligations.PortDoorbells := by
  unfold Obligations.PortDoorbells
  intro p q v stores bad s qid u w d halive
  have hsq : sqDoorbell p.val q.val v stores bad s = sqTail p.val q.val v bad w := sqDoorbell_alive halive
  have hcq : cqDoorbell p.val q.val v s = cqHead p.val q.val v d := cqDoorbell_alive halive
  refine ⟨fun hrun => ⟨?stores, tlpArrives_run hrun p.val⟩, fun x hx => ⟨fun hv => ?_, fun hv => ?_⟩, fun x hx => ⟨fun hv hhead => ?_, fun hv => ?_⟩,
    fun hw => ?_, fun hd => ?_⟩
  case stores =>
    have hview : reachView u = reachView s := reachView_stores ..
    refine (tlpArrives_run ((congrArg (fun k => k.1.mode) hview).trans hrun) p.val).trans ?_
    rw [port_congr hview]
  · exact next_finish (hsq.trans (sqTail_inRange hx hv))
  · exact next_finish (hsq.trans (sqTail_outOfRange hx hv))
  · exact next_finish (hcq.trans (cqHead_inRange hx hv hhead))
  · exact next_finish (hcq.trans (cqHead_outOfRange hx hv))
  · exact next_finish (hsq.trans (sqTail_noQueue hw))
  · exact next_finish (hcq.trans (cqHead_noQueue hd))

end Sys2Proof.Doorbells
end

section
/-! SUPPORT. The management port: a command frame by what is wrong with it, a read of the oldest response, the address assignments and the CCCs of a port that is up (04_yomir_command_protocol.md, R144, R145; 05_host_and_management_ports.md, R172 to R177). -/

namespace Sys2Proof.ManagementPort

open Sys2Proof.Machine Sys2Proof.Safety Sys2Proof.Frame Sys2Proof.Acceptance

section Frames
variable {b : List Byte} {s : State}

/-- The port acknowledges a write in RUN with fewer than 8 commands uncompleted. -/
theorem mgmtTaking_open (hup : mgmtUp s = true) (hrun : s.power.mode = .run) (hroom : mgmtPending s < 8) : mgmtTaking s = true := by
  simp [mgmtTaking, hup, hrun, hroom]
theorem mgmtTaking_full (hfull : 8 ≤ mgmtPending s) : mgmtTaking s = false := by
  simp [mgmtTaking, hfull]

theorem mgmtFrame_refused (h : mgmtTaking s = false) : mgmtFrame b s = s := if_pos h
theorem mgmtFrame_length (h : mgmtTaking s = true) (hlen : b.length ≠ 68) : mgmtFrame b s = frameError false s := by
  simp [mgmtFrame, h, hlen]
theorem mgmtFrame_crc (h : mgmtTaking s = true) (hlen : b.length = 68) (hfield : fieldOf b 0 2 = 64)
    (hcrc : (crc16 (b.take 66)).toNat ≠ fieldOf b 0x42 2) : mgmtFrame b s = frameError true s := by
  simp [mgmtFrame, h, hlen, hfield, hcrc]
theorem mgmtFrame_sound (h : mgmtTaking s = true) (hlen : b.length = 68) (hfield : fieldOf b 0 2 = 64)
    (hcrc : (crc16 (b.take 66)).toNat = fieldOf b 0x42 2) :
    mgmtFrame b s = submit (entryOf (slice b 2 64)).1 .mgmt (entryOf (slice b 2 64)).2 s := by
  simp [mgmtFrame, h, hlen, hfield, hcrc]

/-- An entry can arrive on the management port only while fewer than 8 of its commands are uncompleted. -/
theorem mgmtPending_of_accepted {op : BitVec 16} {e : Entry} {t : State} {c : Inflight} (h : Accepted op .mgmt e s c t) : mgmtPending s < 8 := by
  obtain ⟨s0, auth, hd, s4, ⟨-, -, -, -, hroom, -⟩, -⟩ := h
  exact hroom

/-- The bytes of a response frame: length, response, CRC (R144). -/
def responseFrame (x : List Byte) : List Byte := (leBytes 2 x.length ++ x) ++ leBytes 2 (crc16 (leBytes 2 x.length ++ x)).toNat
/-- What a read of `n` bytes takes of a frame: in I²C mode zeros follow it (R173). -/
def readCut (m : MgmtPort) (n : Nat) (y : List Byte) : List Byte := (if m.dynAddr.isSome then y else padTo n y).take n

theorem frameRead_response {n : Nat} {r : List Byte} {rs : List (List Byte)} (hup : mgmtUp s = true) (h : s.mgmtp.responses = r :: rs) :
    frameRead n s = { s with mgmtp := { s.mgmtp with responses := rs, readBytes := readCut s.mgmtp n (responseFrame r) } } := by
  simp only [frameRead, hup, h, Bool.true_eq_false, if_false]
  rfl
theorem frameRead_empty {n : Nat} (hup : mgmtUp s = true) (h : s.mgmtp.responses = []) :
    frameRead n s = { s with mgmtp := { s.mgmtp with readBytes := readCut s.mgmtp n (responseFrame []) } } := by
  unfold frameRead
  rw [if_neg (by simp [hup])]
  dsimp only
  split
  case h_1 => rfl
  case h_2 hr => exact absurd (h.symm.trans hr) (List.cons_ne_nil _ _).symm

end Frames

/-- A CCC that reads bytes, on a port that is up. -/
theorem cccRead_up {bs : List Byte} {s : State} (h : mgmtUp s = true) : cccRead bs s = { s with mgmtp := { s.mgmtp with readBytes := bs } } := if_pos h
/-- An address is assigned where none is set and I3C is not held off (R172, R177). -/
theorem assignAddr_taken {a : BitVec 7} {s : State} (hup : mgmtUp s = true) (hnone : s.mgmtp.dynAddr = none) (hi3c : i2cOnly s = false) :
    assignAddr a s = { s with mgmtp := { s.mgmtp with dynAddr := some a } } :=
  if_neg (by simp [hup, hnone, hi3c])
/-- The port is up whatever free values have been drawn. -/
theorem mgmtUp_drew (s : State) : mgmtUp s.drew = mgmtUp s := rfl

/-- Settles O29: frames by their errors, reads by the oldest response, each bus command by its own rule. -/
theorem managementPort : Obligations.ManagementPort := by
  unfold Obligations.ManagementPort
  intro b n addr ev s hup m frame cut x reads
  refine ⟨?taken, ?full, ?broken, ?length, ?crc, ?response, ?empty, ?timeout, ?assigned, ?rstdaa, ?events, ?pid, ?bcr, ?dcr, ?mwl, ?mrl, ?status, ?reset, ?nack⟩
  case taken =>
    intro c t hrun hlen hfield hcrc haccepted
    have htaking := mgmtTaking_open hup hrun (mgmtPending_of_accepted haccepted)
    exact next_finish ((mgmtFrame_sound htaking hlen hfield hcrc).trans (submit_accepted haccepted))
  case full => exact fun h => next_finish (mgmtFrame_refused (mgmtTaking_full h))
  case broken => exact fun hrun hroom hdyn => next_finish (if_pos ⟨mgmtTaking_open hup hrun hroom, hdyn⟩)
  case length => exact fun hrun hroom hlen => next_finish (mgmtFrame_length (mgmtTaking_open hup hrun hroom) hlen)
  case crc => exact fun hrun hroom hlen hfield hcrc => next_finish (mgmtFrame_crc (mgmtTaking_open hup hrun hroom) hlen hfield hcrc)
  case response => exact fun r rs h => next_finish (frameRead_response hup h)
  case empty => exact fun h => next_finish (frameRead_empty hup h)
  case timeout => exact fun h => next_finish (if_pos ⟨hup, h⟩)
  case assigned =>
    exact fun hnone hi3c => ⟨next_finish (assignAddr_taken hup hnone hi3c), next_finish (assignAddr_taken hup hnone hi3c),
      next_finish (assignAddr_taken hup hnone hi3c)⟩
  case rstdaa => exact next_finish (if_pos hup)
  case events => exact fun h => ⟨next_finish (if_pos ⟨hup, h⟩), next_finish (if_pos ⟨hup, h⟩)⟩
  case pid => exact next_finish (cccRead_up hup)
  case bcr => exact next_finish (cccRead_up hup)
  case dcr => exact next_finish (cccRead_up hup)
  case mwl => exact next_finish (cccRead_up hup)
  case mrl => exact next_finish (cccRead_up hup)
  case status =>
    refine next_finish ?_
    rw [if_pos hup]
    exact cccRead_up ((mgmtUp_drew s).trans hup)
  case reset => exact next_finish (if_pos ⟨hup, rfl⟩)
  case nack => exact fun a ha => next_finish (if_neg fun h => ha h.2)

end Sys2Proof.ManagementPort
end

section
/-! SUPPORT. The queue table as pairs are made and removed, the embedded flash as a staging starts, and the bodies of the administrative, power, diagnostic and entropy commands by case (04_yomir_command_protocol.md, R106 to R108, R134, R606, R607; 03_power_clocks_reset.md, R69, R70, R78, R608; 11_entropy_source.md, R363; 15_embedded_flash.md, R609, R610; 16_tamper_monitors.md, R486; 17_fault_collector.md, R507, R512). -/

namespace Sys2Proof.AdminCommands

open Sys2Proof.Machine Sys2Proof.Safety Sys2Proof.Frame Sys2Proof.Acceptance

/-! ### From the accepted entry to the command's body -/

theorem runBody_low {c : Inflight} {s : State} (hlow : c.op.toNat < 0x0400) (hout : c.src = .tag → tagOutLength c.op.toNat c.entry ≤ 8192) :
    runBody false c s = bodyLow false c.op.toNat c.key c.src c.entry s := by
  have hfits : ¬ (c.src = .tag ∧ 8192 < tagOutLength c.op.toNat c.entry) := fun h => absurd (hout h.1) (Nat.not_le.mpr h.2)
  exact (if_neg hfits).trans (if_pos hlow)
theorem runBody_high {c : Inflight} {s : State} (hhigh : 0x0400 ≤ c.op.toNat) (hout : c.src = .tag → tagOutLength c.op.toNat c.entry ≤ 8192) :
    runBody false c s = bodyHigh false c.op.toNat c.key c.src c.entry s := by
  have hfits : ¬ (c.src = .tag ∧ 8192 < tagOutLength c.op.toNat c.entry) := fun h => absurd (hout h.1) (Nat.not_le.mpr h.2)
  exact (if_neg hfits).trans (if_neg (Nat.not_lt.mpr hhigh))

/-- An accepted command of the lower opcodes does what its body does; one of the tag interface keeps to that interface's output (R578). -/
theorem submit_low {op : BitVec 16} {src : Source} {e : Entry} {s t : State} {c : Inflight} (h : Accepted op src e s c t)
    (hlow : op.toNat < 0x0400) (hout : src = .tag → tagOutLength op.toNat e ≤ 8192) :
    submit op src e s = bodyLow false op.toNat c.key src e t := by
  obtain ⟨rfl, rfl, rfl⟩ := accepted_command h
  exact (submit_accepted h).trans (runBody_low hlow hout)
/-- The same for the higher opcodes. -/
theorem submit_high {op : BitVec 16} {src : Source} {e : Entry} {s t : State} {c : Inflight} (h : Accepted op src e s c t)
    (hhigh : 0x0400 ≤ op.toNat) (hout : src = .tag → tagOutLength op.toNat e ≤ 8192) :
    submit op src e s = bodyHigh false op.toNat c.key src e t := by
  obtain ⟨rfl, rfl, rfl⟩ := accepted_command h
  exact (submit_accepted h).trans (runBody_high hhigh hout)

/-- A sound entry of no defined opcode completes UNDEFINED_OPCODE. -/
theorem submit_undefined {op : BitVec 16} {src : Source} {e : Entry} {s s0 : State} {auth : Bool} {hd : BitVec 16} (hop : opRow op = none)
    (harrives : Arrives src s s0 auth hd) (hsound : Sound op src e s0) :
    submit op src e s = complete (inflightOf op src e hd s0).key (answer 0x2001 [])
      (plainly (inflightOf op src e hd s0).key (takenIn (inflightOf op src e hd s0) s0)) :=
  calc submit op src e s
    _ = takeEntry true op src e auth hd s0 := submit_arrives harrives
    _ = judge (inflightOf op src e hd s0) auth (takenIn (inflightOf op src e hd s0) s0) := takeEntry_sound hsound
    _ = _ := (judge_refused (firstChecks_undefined hop)).trans (congrArg _ (if_pos (.inl rfl)))

/-- A command whose output is written completes with its result. -/
theorem completeOutput_written {key total : Nat} {src : Source} {addr : DWord} {bs : List Byte} {r : Result} {s u : State}
    (h : writeOutput src total addr bs s = .ok u) : completeOutput key src total addr bs r s = complete key r u := by
  simp only [completeOutput, h]

/-! ### Queues (R106 to R108) -/

theorem find_insertQueue_same {q : Queue} {l : List Queue} (h : ∀ x ∈ l, x.qid ≠ q.qid) : (insertQueue q l).find? (fun x => x.qid == q.qid) = some q := by
  induction l with
  | nil => simp [insertQueue]
  | cons x t ih =>
    have hx : x.qid ≠ q.qid := h x (List.mem_cons_self ..)
    unfold insertQueue
    split
    · simp
    · rw [List.find?_cons_of_neg (by simpa using hx)]
      exact ih fun y hy => h y (List.mem_cons_of_mem _ hy)
theorem find_insertQueue_ne {q : Queue} {r : Nat} (hr : r ≠ q.qid) (l : List Queue) :
    (insertQueue q l).find? (fun x => x.qid == r) = l.find? (fun x => x.qid == r) := by
  have hq : ¬ (q.qid == r) = true := by simpa using hr.symm
  induction l with
  | nil => simp [insertQueue, hr.symm]
  | cons x t ih =>
    unfold insertQueue
    split
    · exact List.find?_cons_of_neg hq
    · simp only [List.find?_cons, ih]

/-- A queue pair as it stands once it is open (R107). -/
def opened (q : Queue) (s : State) : Queue := { q with since := s.journal.next, keyless := s.vault.keyless }

/-- What opening a queue pair leaves alone. -/
def openKept (s : State) : List Host.Cell × Journal × List Inflight := (s.mem, s.journal, s.cqe.inflight)

theorem openQueue_queues (q : Queue) (s : State) : (openQueue q s).cqe.queues = insertQueue (opened q s) s.cqe.queues := by
  unfold openQueue; dsimp only
  split
  · split <;> rfl
  · rfl
theorem openKept_openQueue (q : Queue) (s : State) : openKept (openQueue q s) = openKept s := by
  unfold openQueue; dsimp only
  split
  · split <;> rfl
  · rfl
theorem openQueue_queue_same {q : Queue} {s : State} (h : s.queue q.qid = none) : (openQueue q s).queue q.qid = some (opened q s) := by
  unfold State.queue
  rw [openQueue_queues]
  exact find_insertQueue_same (q := opened q s) (by simpa [State.queue, opened] using h)
theorem openQueue_queue_ne {q : Queue} {r : Nat} (hr : r ≠ q.qid) (s : State) : (openQueue q s).queue r = s.queue r := by
  unfold State.queue
  rw [openQueue_queues]
  exact find_insertQueue_ne (q := opened q s) hr _

/-- The queue pair that QUEUE_CREATE asks for. -/
def askedQueue (e : Entry) : Queue :=
  freshQueue (e.param 8 2) e.addr0 e.addr1 (e.param 0xA 2) (e.param 0xC 2) (e.param 0xE 2) (e.param 0x10 1) (bitAt (BitVec.ofNat 8 (e.param 0x11 1)) 0)
    (bitAt (BitVec.ofNat 8 (e.param 0x11 1)) 1) (BitVec.ofNat 32 (e.param 0x14 4))

section QueueCreate
variable {key q : Nat} {e : Entry} {s : State}

theorem queueCreate_otherPort (h : e.param 8 2 / 64 ≠ q / 64) : queueCreate key (.queue q) e s = complete key (invalidHandle 8) s := if_pos h
theorem queueCreate_taken (hport : e.param 8 2 / 64 = q / 64) (h : e.param 8 2 % 64 = 0 ∨ (s.queue (e.param 8 2)).isSome = true) :
    queueCreate key (.queue q) e s = complete key (conflict 8) s := (if_neg (not_not_intro hport)).trans (if_pos h)
theorem queueCreate_opens (hport : e.param 8 2 / 64 = q / 64) (hadmin : e.param 8 2 % 64 ≠ 0) (hfree : s.queue (e.param 8 2) = none)
    (hsq : 2 ≤ e.param 0xA 2 ∧ e.param 0xA 2 ≤ 4096) (hcq : 2 ≤ e.param 0xC 2 ∧ e.param 0xC 2 ≤ 4096) (hvector : e.param 0xE 2 ≤ 127)
    (hprio : e.param 0x10 1 ≤ 3) (haddr0 : e.addr0.toNat % 4096 = 0) (haddr1 : e.addr1.toNat % 4096 = 0) :
    queueCreate key (.queue q) e s = complete key (okay []) (openQueue (askedQueue e) s) := by
  have hport' : ¬ e.param 8 2 / 64 ≠ ((Source.queue q).port).getD 0 := not_not_intro hport
  have hnew : ¬ (e.param 8 2 % 64 = 0 ∨ (s.queue (e.param 8 2)).isSome = true) := by simp [hadmin, hfree]
  unfold queueCreate
  dsimp only
  rw [if_neg hport', if_neg hnew, if_neg (by omega), if_neg (by omega), if_neg (by omega), if_neg (by omega), if_neg (by omega), if_neg (by omega)]
  rfl

end QueueCreate

/-- Whether a queue is quiet does not change with what its commands wait for, nor with its own flags. -/
theorem queueQuiet_deleting (s : State) (q key : Nat) (f : Queue → Queue) (w : Wait) (r : Nat) :
    queueQuiet ((s.setQueue q f).waitOn key w) r = queueQuiet s r := by
  have hsrc : ∀ c : Inflight, (if c.key = key then { c with wait := w } else c).src = c.src := fun c => by split <;> rfl
  simp only [queueQuiet, State.waitOn, State.setCommand, State.setQueue, List.any_map, Function.comp_def, hsrc]

/-- The state in which QUEUE_DELETE has removed its pair. -/
def queueRemoved (key qid : Nat) (s : State) : State :=
  closeQueue qid ((s.setQueue qid (fun x => { x with deleting := true })).waitOn key (.queueDrain qid))

theorem queueRemoved_queue_same (key qid : Nat) (s : State) : (queueRemoved key qid s).queue qid = none := by
  simp [queueRemoved, closeQueue, State.queue]
/-- Marking a queue and then leaving it out is leaving it out. -/
theorem filter_map_marked {f : Queue → Queue} (hf : ∀ x, (f x).qid = x.qid) (qid : Nat) (l : List Queue) :
    (l.map (fun x => if x.qid = qid then f x else x)).filter (fun x => x.qid != qid) = l.filter (fun x => x.qid != qid) := by
  induction l with
  | nil => rfl
  | cons x t ih =>
    by_cases hx : x.qid = qid
    · simpa [hx, hf] using ih
    · simpa [hx] using ih
theorem queueRemoved_queue_ne {r qid : Nat} (hr : r ≠ qid) (key : Nat) (s : State) : (queueRemoved key qid s).queue r = s.queue r := by
  have hqueues : (queueRemoved key qid s).cqe.queues = s.cqe.queues.filter (fun x => x.qid != qid) :=
    filter_map_marked (f := fun x => { x with deleting := true }) (fun _ => rfl) qid _
  have hboth : (fun x : Queue => decide ((x.qid != qid) = true ∧ (x.qid == r) = true)) = fun x => x.qid == r := by
    funext x; grind
  unfold State.queue
  rw [hqueues, List.find?_filter, hboth]

section QueueDelete
variable {key q : Nat} {e : Entry} {s : State} {x : Queue}

theorem queueDelete_removes (hx : s.queue (e.param 8 2) = some x) (hport : e.param 8 2 / 64 = q / 64) (hadmin : e.param 8 2 % 64 ≠ 0)
    (hdel : x.deleting = false) (hquiet : queueQuiet s (e.param 8 2) = true) :
    queueDelete key (.queue q) e s = complete key (okay []) (queueRemoved key (e.param 8 2) s) := by
  have hown : ¬ (e.param 8 2 / 64 ≠ ((Source.queue q).port).getD 0 ∨ e.param 8 2 % 64 = 0) := not_or.mpr ⟨not_not_intro hport, hadmin⟩
  simp only [queueDelete, hx, if_neg hown, hdel, Bool.false_eq_true, if_false]
  exact if_pos ((queueQuiet_deleting ..).trans hquiet)

end QueueDelete

/-! ### Custody time and logs (R608, R512) -/

/-- The delta of subkind 3 sets custody time as it is carried out. -/
theorem applyDelta_setTime (s : State) (key n : Nat) (old new now : DWord) (u : State) :
    (applyDelta n now u (custodyDelta s key 3 old new 0)).clock = { u.clock with time := new, valid := true } := by
  unfold custodyDelta
  split <;> rfl

section GetLog
variable {key : Nat} {src : Source} {e : Entry} {s u : State}

theorem getLog_records (hmode : e.param 8 1 = 1) (hleast : 32 ≤ e.param 0x18 4) (hmost : e.param 0x18 4 ≤ 16777216) (hhead : logHead s ≤ e.param 0x10 4)
    {out : List Byte} (hout : out = ((s.fault.log.filter (fun r => decide (e.param 0x10 4 ≤ r.seq))).take (e.param 0x18 4 / 32)).flatMap frecordBytes)
    (hwritten : writeOutput src (e.param 0x18 4) e.addr0 out s = .ok u) : getLog key src e s = complete key (okay [(12, out.length)]) u := by
  subst hout
  simp only [getLog, hmode, if_true, if_neg (Nat.not_lt.mpr hleast), if_neg (Nat.not_lt.mpr hmost), if_neg (Nat.not_lt.mpr hhead), ne_eq, not_true,
    if_false]
  exact completeOutput_written hwritten
theorem getLog_summary (hmode : e.param 8 1 = 2) (hleast : 128 ≤ e.param 0x18 4) (hmost : e.param 0x18 4 ≤ 16777216)
    (hwritten : writeOutput src (e.param 0x18 4) e.addr0 (faultSummary s) s = .ok u) : getLog key src e s = complete key (okay [(12, 128)]) u := by
  have hother : e.param 8 1 ≠ 1 := by omega
  simp only [getLog, if_neg hother, if_neg (Nat.not_lt.mpr hleast), if_neg (Nat.not_lt.mpr hmost), if_pos hother]
  exact completeOutput_written hwritten

end GetLog

/-! ### ABORT (R134, R135) -/

section Abort
variable {key q : Nat} {e : Entry} {s : State} (hport : e.param 8 2 / 64 = q / 64)

/-- The entry that an ABORT names on a queue of its port. -/
def aborted (key : Nat) (e : Entry) (s : State) : Option Inflight :=
  s.cqe.inflight.find? (fun d => d.entry.tag == BitVec.ofNat 16 (e.param 0xA 2) && d.key != key && d.src == .queue (e.param 8 2))

include hport
theorem abort_none (h : aborted key e s = none) : abort key (.queue q) e s = complete key (okay [(12, 1)]) s := by
  unfold aborted at h
  simp only [abort, hport, h, decide_true, Bool.true_eq_false, if_false]
theorem abort_withdraws {d : Inflight} (h : aborted key e s = some d) (hop : d.op ≠ 0x0006) (hable : abortable s d = true) :
    abort key (.queue q) e s = complete key (okay [(12, 0)]) (complete d.key (conflict 5) (withdraw d s)) := by
  unfold aborted at h
  simp only [abort, hport, h, decide_true, Bool.true_eq_false, if_false, if_neg hop, hable, if_true]
theorem abort_begun {d : Inflight} (h : aborted key e s = some d) (hop : d.op ≠ 0x0006) (hable : abortable s d = false) :
    abort key (.queue q) e s = complete key (okay [(12, 2)]) s := by
  unfold aborted at h
  simp only [abort, hport, h, decide_true, Bool.true_eq_false, Bool.false_eq_true, if_false, if_neg hop, hable]

end Abort

/-! ### Power (R69, R70, R78) -/

section Power
variable {key : Nat} {e : Entry} {s : State}

theorem powerState_stays (h : e.param 8 1 = 0) : powerState key e s = complete key (okay []) s := if_pos h
theorem powerState_enters (h : e.param 8 1 ≠ 0) (hgo : powerRefusal s (e.param 8 1) (e.param 9 1 % 2 == 1) = none) :
    powerState key e s =
      ({ s with power := { s.power with entering := some (if e.param 8 1 = 2 then .lager else .steep, key) } } : State).waitOn key .power := by
  simp only [powerState, if_neg h, hgo]
theorem wakePolicy_written (hunlocked : bitAt (s.reg 0x400000FC 0) 0 = false) (htimer : e.param 8 1 / 16 % 2 = 1 → s.clock.time.toNat < e.param 0x10 8) :
    wakePolicy key e s = complete key (okay []) (((({ s with power := { s.power with timerFired := false } } : State).setReg 0x40000014
      (BitVec.ofNat 32 (e.param 8 1))).setReg 0x4000001C (BitVec.ofNat 32 (e.param 0x10 8))).setReg 0x40000020 (BitVec.ofNat 32 (e.param 0x10 8 / 2 ^ 32))) := by
  have hahead : ¬ (e.param 8 1 / 16 % 2 = 1 ∧ e.param 0x10 8 ≤ s.clock.time.toNat) := fun h => Nat.not_lt.mpr h.2 (htimer h.1)
  unfold wakePolicy
  dsimp only
  rw [if_neg (ne_true_of_eq_false hunlocked), if_neg hahead]

end Power

/-! ### Diagnosis (R368, R486, R507) -/

section Diagnosis
variable {key : Nat} {src : Source} {e : Entry} {s u : State}

/-- A source that can be forced is one that the collector has. -/
theorem sourceInfo_of_forced {n k : Nat} {i : FaultIn} (h : forcedInput n k = some i) : (sourceInfo n).isSome = true := by
  unfold forcedInput at h
  split at h
  case h_1 hinfo _ => rw [hinfo]; rfl
  case h_2 => cases h
/-- A forced record below MATE: the record, the completion that names it, the level's action. -/
theorem faultForce_acts {i : FaultIn} {r : FRecord} (hforced : forcedInput (e.param 8 2) (e.param 0xA 1) = some i) (hrecord : recordFault false i s = (r, u))
    (hmate : r.applied ≠ .mate) (hkiln : r.applied ≠ .kiln) :
    faultForce key e s = actOn [r] (complete key (okayWith [(12, Level.code r.applied), (16, r.seq)] (grantDelta s key 0 0)) u) := by
  obtain ⟨info, hinfo⟩ := Option.isSome_iff_exists.mp (sourceInfo_of_forced hforced)
  have hall : recordAll false [i] s = ([r], u) := by simp only [recordAll, hrecord]
  have hbelow : ¬ ([r].any (fun r => r.applied == .mate || r.applied == .kiln)) = true := by simp [hmate, hkiln]
  simp only [faultForce, hinfo, hforced, hall, if_neg hbelow]

theorem tamperTest_begins {k : Nat} (hk : k ≤ 16) (hsource : e.param 8 1 = 128 + k) (hquiet : bistRefusal s k = none) :
    tamperTest key e s = { (s.waitOn key (.tamperTest (128 + k))) with tamper := { s.tamper with bist := some k, bistDone := false } } := by
  have hmonitor : ¬ (128 + k < 128 ∨ 144 < 128 + k) := by omega
  simp only [tamperTest, hsource, if_neg hmonitor, Nat.add_sub_cancel_left, hquiet]
  rfl

/-- The 16 bytes of one sample's record. -/
def sampleRecord (g : Rng) (k : Nat) : List Byte :=
  leBytes 2 (g.lfCodes.getD k 0) ++ leBytes 2 (g.lfLow.getD k 0) ++ leBytes 2 (g.lfHigh.getD k 0) ++ leBytes 2 (g.lfBig.getD k 0) ++
    leBytes 2 (Config.lfBaseline k).toNat ++ [BitVec.ofNat 8 k] ++ leBytes 5 0
/-- The output of LATCH_FIELD_READ: time and count of the samples, then their records (R368). -/
def sampleOutput (g : Rng) : List Byte := leBytes 8 g.lfTime.toNat ++ leBytes 4 g.lfCount ++ leBytes 4 0 ++ (List.range 16).flatMap (sampleRecord g)
theorem latchFieldRead_written (hroom : 272 ≤ e.param 0xC 4)
    (hwritten : writeOutput src (e.param 0xC 4) e.addr0 (sampleOutput s.rng) (if e.param 8 1 % 2 = 1 then latchRestart s else s) = .ok u) :
    latchFieldRead key src e s = complete key (okay [(12, 272)]) u :=
  (if_neg (Nat.not_lt.mpr hroom)).trans (completeOutput_written hwritten)

end Diagnosis

/-! ### Entropy (R363) -/

theorem rngRead_asks {key : Nat} {src : Source} {e : Entry} {s : State} (hleast : 1 ≤ e.param 8 4) (hmost : e.param 8 4 ≤ 65536) (htime : e.param 0xE 2 ≤ 1000)
    (hraw : e.param 0xC 1 = 2 → s.lifecycle = .commissioned ∧ rawTap s = true) :
    rngRead false key src e s =
      ((rngAsk (.command key) (e.param 0xC 1) (e.param 8 4) (e.param 0xE 2) s).2).waitOn key (.entropy s.rng.nextId) := by
  have hlen : ¬ (e.param 8 4 = 0 ∨ 65536 < e.param 8 4) := by omega
  have htap : ¬ (e.param 0xC 1 = 2 ∧ (s.lifecycle ≠ .commissioned ∨ rawTap s = false)) := by grind
  simp only [rngRead, if_neg hlen, if_neg (Nat.not_lt.mpr htime), if_neg htap, Bool.false_eq_true, if_false]
  rfl

/-! ### SELFTEST (R607) -/

theorem getD_of_all {l : List Bool} (h : l.all id = true) (n : Nat) : l.getD n true = true := by
  induction l generalizing n with
  | nil => rfl
  | cons b l ih =>
    rw [List.all_cons, Bool.and_eq_true] at h
    cases n with
    | zero => exact h.1
    | succ n => exact ih h.2 n
/-- Tests that all pass raise nothing. -/
theorem katFaults_passed {k : KatResults} (hlanes : k.lanes.all id = true) (hpkes : k.pkes.all id = true) (hvault : k.vault = true) (hdrbg : k.drbg = true)
    (s : State) : katFaults k s = s := by
  simp only [katFaults, getD_of_all hlanes, getD_of_all hpkes, hvault, hdrbg, if_true]
  rfl
/-- Whatever they find, the power state stays. -/
theorem katFaults_power (k : KatResults) (s : State) : (katFaults k s).power = s.power := by
  have hlanes : ∀ s : State, ((List.range 4).foldl (fun s n => if k.lanes.getD n true then s else s.raiseAt (80 + 8 * n) (.lane n) 0 0) s).power = s.power :=
    foldl_keeps (view := State.power) (fun s n => by split <;> rfl) _
  have hpkes : ∀ s : State, ((List.range 2).foldl (fun s n => if k.pkes.getD n true then s else s.raiseAt 114 (.pke n) 0 0) s).power = s.power :=
    foldl_keeps (view := State.power) (fun s n => by split <;> rfl) _
  unfold katFaults
  cases k.drbg <;> cases k.vault <;> exact (hpkes _).trans (hlanes _)

/-- The tests that fail, by the free value drawn for them. -/
def testsFailed (v : Hash) (s : State) : Nat :=
  (bitN 0 (!v.getLsbD 8) + bitN 1 (!(katsFound v s).lanes.all id) + bitN 2 (!(katsFound v s).pkes.all id) + bitN 3 (!(katsFound v s).vault) +
    bitN 4 (!(katsFound v s).drbg) + bitN 5 (!(v.getLsbD 9 && v.getLsbD 10))) ||| fencedChecks s
/-- Each failed test raised as in operation, but for a split of the image's two checks. -/
def testsRaised (v : Hash) (s : State) : State :=
  if v.getLsbD 8 then katFaults (katsFound v s) s.drew else (katFaults (katsFound v s) s.drew).raise 38
/-- The split besides. -/
def testsDone (v : Hash) (s : State) : State := if v.getLsbD 9 != v.getLsbD 10 then decisionSplit 2 (testsRaised v s) else testsRaised v s

theorem testsDone_power (v : Hash) (s : State) : (testsDone v s).power = s.power := by
  have hraised : (testsRaised v s).power = s.power := by
    unfold testsRaised
    split <;> exact katFaults_power _ _
  unfold testsDone
  split
  · exact hraised
  · exact hraised

theorem selftest_eq (key : Nat) (s : State) :
    selftest key s =
      if (s.power.safe && bitAt s.power.rstCause 2 && testsFailed s.fresh s == 0) = true then
        warmReset 1 false (postAll (complete key (okay [(12, testsFailed s.fresh s)]) (testsDone s.fresh s)))
      else complete key (okay [(12, testsFailed s.fresh s)]) (testsDone s.fresh s) := by
  rw [← testsDone_power s.fresh s]
  rfl

theorem selftest_stays {key : Nat} {s : State} (h : ¬ (s.power.safe = true ∧ bitAt s.power.rstCause 2 = true ∧ testsFailed s.fresh s = 0)) :
    selftest key s = complete key (okay [(12, testsFailed s.fresh s)]) (testsDone s.fresh s) :=
  (selftest_eq key s).trans (if_neg (by simpa [and_assoc] using h))

theorem bitN_eq_zero {k : Nat} {b : Bool} : bitN k b = 0 ↔ b = false := by
  cases b <;> simp [bitN]
/-- Where no test fails nothing is raised. -/
theorem testsDone_passed {v : Hash} {s : State} (h : testsFailed v s = 0) : testsDone v s = s.drew := by
  obtain ⟨hsum, -⟩ := Nat.or_eq_zero_iff.mp h
  simp only [Nat.add_eq_zero_iff, bitN_eq_zero, Bool.not_eq_false'] at hsum
  obtain ⟨⟨⟨⟨⟨hchecker, hlanes⟩, hpkes⟩, hvault⟩, hdrbg⟩, himage⟩ := hsum
  obtain ⟨h9, h10⟩ := Bool.and_eq_true_iff.mp himage
  simp only [testsDone, testsRaised, hchecker, h9, h10, bne_self_eq_false, Bool.false_eq_true, if_false, if_true]
  exact katFaults_passed hlanes hpkes hvault hdrbg _
theorem selftest_restarts {key : Nat} {s : State} (hsafe : s.power.safe = true) (hmate : bitAt s.power.rstCause 2 = true) (hpass : testsFailed s.fresh s = 0) :
    selftest key s = warmReset 1 false (postAll (complete key (okay [(12, 0)]) s.drew)) := by
  rw [selftest_eq, if_pos (by simp [hsafe, hmate, hpass]), hpass, testsDone_passed hpass]

/-! ### Firmware (R609, R610) -/

theorem fwActivate_solo {key : Nat} {e : Entry} {s : State} (hfree : firmwareBusy s key = false) (himage : Config.imageOk (bankImage s (targetBank s)) = true)
    (hdigest : e.param 8 16 = (Config.imageDigest (bankImage s (targetBank s))).toNat % 2 ^ 128) (hsolo : s.pair.role = .solo) :
    fwActivate key e s = warmReset 1 false (postAll
      (complete key (okayWith [(12, e.param 8 16)] (grantDelta s key 0 0)) { s with nvm := { s.nvm with selector := targetBank s } })) := by
  have hpairing : (s.pair.role == .active && s.pairMode) = false := by rw [hsolo]; rfl
  have hsound : ¬ ((Config.imageDigest (bankImage s (targetBank s))).toNat % 2 ^ 128 ≠ e.param 8 16 ∨ Config.imageOk (bankImage s (targetBank s)) = false) := by
    simp [hdigest, himage]
  unfold fwActivate
  dsimp only
  rw [hpairing, if_neg (ne_true_of_eq_false hfree), if_neg hsound, if_neg (by simp), if_neg (by simp), hdigest]

/-- A look-up is not changed by leaving other keys out. -/
theorem assocGet_filter {α : Type} {k : Nat} {p : Nat × α → Bool} (hp : ∀ v, p (k, v) = true) (l : List (Nat × α)) :
    assocGet k (l.filter p) = assocGet k l := by
  induction l with
  | nil => rfl
  | cons x t ih =>
    obtain ⟨a, v⟩ := x
    by_cases ha : a = k
    · subst ha; simp [assocGet, hp]
    · by_cases hpx : p (a, v) = true
      · simp [assocGet, hpx, ha, ih]
      · simp [assocGet, hpx, ha, ih]
/-- Clearing the password registers leaves FLASHC_CTL as it is. -/
theorem flashWrites_pwClear (s : State) : flashWrites (pwClear s) = flashWrites s := by
  have hkept : ∀ v : Word, (!(decide (flashBase + 0x200 ≤ flashBase + 8) && decide (flashBase + 8 ≤ flashBase + 0x20C))) = true := fun _ => by simp
  have hreg := assocGet_filter (p := fun r : Nat × Word => !(decide (flashBase + 0x200 ≤ r.1) && decide (r.1 ≤ flashBase + 0x20C))) hkept s.regs
  simp only [flashWrites, State.reg, pwClear, hreg]
/-- The state with the flash unlocked (R464). -/
def unlocked (s : State) : State := pwEnd 0 { pwClear s with flash := { s.flash with unlocked := true, tries := 0 } }
theorem flashUnlock_right {s : State} (hidle : s.flash.pwRun = none) (hopen : s.flash.lockout = false) : flashUnlock s.flash.password s = unlocked s := by
  have hrun : ¬ s.flash.pwRun.isSome = true := by simp [hidle]
  exact (if_neg hrun).trans ((if_neg (ne_true_of_eq_false hopen)).trans (if_pos rfl))

/-- A bank after its change. -/
theorem bank_setBank {s : State} {b : Nat} (h : b < s.flash.banks.length) (f : FlashBank → FlashBank) : (s.setBank b f).bank b = f (s.bank b) := by
  simp [State.bank, State.setBank, List.getD_eq_getElem?_getD, h]
@[simp] theorem setBank_banks_length (s : State) (b : Nat) (f : FlashBank → FlashBank) : (s.setBank b f).flash.banks.length = s.flash.banks.length :=
  List.length_modify ..

/-- An erase of an idle, unprotected bank is not refused. -/
theorem flashRefusal_erase {s : State} {b word : Nat} (hrun : (s.bank b).run = none) (hwrites : flashWrites s = true)
    (hsuspended : (s.bank b).suspended = none) (hprot : (s.bank b).prot = 0) : flashRefusal s b 2 word = none := by
  simp [flashRefusal, sectorProtected, hrun, hwrites, hsuspended, hprot]
/-- An erase that is not refused runs. -/
theorem flashCommand_erase_run {s : State} {b word : Nat} {data : DWord} (hb : b < s.flash.banks.length) (h : flashRefusal s b 2 word = none) :
    ((flashCommand b 2 word data s).bank b).run = some (.erase (word / 512)) := by
  simp only [flashCommand, h]
  rw [apply_ite (fun u : State => (u.bank b).run)]
  refine (ite_congr rfl (fun _ => ?_) (fun _ => ?_)).trans (ite_self _)
  · exact congrArg FlashBank.run (bank_setBank (by simpa using hb) _)
  · exact congrArg FlashBank.run (bank_setBank (by simpa using hb) _)

/-- The bank of a staging is freed of protection and suspension (R609). -/
def stageFreed (s : State) : State := s.setBank (targetBank s) (fun k => { k with prot := 0, suspended := none })

/-- On an idle bank with writes enabled the erase of a staging starts. -/
theorem stageErase_starts {key : Nat} {s : State} (hb : targetBank s < s.flash.banks.length) (hrun : (s.bank (targetBank s)).run = none)
    (hwrites : flashWrites s = true) : stageErase key s = (flashCommand (targetBank s) 2 0 0 (stageFreed s)).passPoint key := by
  have hbank : (stageFreed s).bank (targetBank s) = { s.bank (targetBank s) with prot := 0, suspended := none } := bank_setBank hb _
  have hgo : flashRefusal (stageFreed s) (targetBank s) 2 0 = none := flashRefusal_erase (by rw [hbank]; exact hrun) hwrites (by rw [hbank]) (by rw [hbank])
  have hstarted := flashCommand_erase_run (data := 0) (by simpa [stageFreed] using hb) hgo
  have hidle : ¬ (s.bank (targetBank s)).run.isSome = true := by simp [hrun]
  exact (if_neg hidle).trans (if_pos (congrArg Option.isSome hstarted))

theorem fwStage_starts {key : Nat} {src : Source} {e : Entry} {s : State} {img : List Byte} (hleast : 4096 ≤ e.param 8 4) (hmost : e.param 8 4 ≤ 16773120)
    (hwords : e.param 8 4 % 8 = 0) (hfree : firmwareBusy s key = false) (hopen : s.flash.lockout = false) (hwrites : flashWrites s = true)
    (hb : targetBank s < s.flash.banks.length) (hidle : s.flash.pwRun = none) (hpassword : BitVec.ofNat 128 (e.param 0x10 16) = s.flash.password)
    (hrun : (s.bank (targetBank s)).run = none) (himage : readInput s src (e.param 8 4) e.addr0 = .ok img) :
    fwStage key src e s = (flashCommand (targetBank s) 2 0 0 (((flashUnlock s.flash.password s).waitOn key .flash).setBank (targetBank s)
      (fun k => { k with prot := 0, suspended := none }))).passPoint key := by
  have hlen : ¬ (e.param 8 4 < 4096 ∨ 16773120 < e.param 8 4 ∨ e.param 8 4 % 8 ≠ 0) := by omega
  have hunlock := flashUnlock_right hidle hopen
  have hstart : stageErase key ((unlocked s).waitOn key .flash) = (flashCommand (targetBank s) 2 0 0 (stageFreed ((unlocked s).waitOn key .flash))).passPoint key :=
    stageErase_starts hb hrun ((flashWrites_pwClear s).trans hwrites)
  rw [hunlock]
  refine Eq.trans ?_ hstart
  simp only [fwStage, if_neg hlen, hfree, hopen, himage, hpassword, hunlock, Bool.false_eq_true, if_false]
  rfl

/-! ### The statement -/

/-- Settles O56: each command from its accepted entry to its body, and the body by the case its operands select. -/
theorem yomirAdmin : Obligations.YomirAdmin := by
  unfold Obligations.YomirAdmin
  intro src e s t c done
  refine ⟨?identify, ?queueCreate, ?queueDelete, ?setTime, ?getLog, ?abort, ?fwStage, ?fwActivate, ?selftest, ?faultForce, ?tamperTest, ?latchField,
    ?undefined, ?wakePolicy, ?powerState, ?rngRead, ?rngStatus⟩
  case identify => exact fun h => next_finish (submit_low h (by decide) fun _ => Nat.zero_le _)
  case queueCreate =>
    rintro q rfl h qid
    have hbody := submit_low h (by decide) fun _ => Nat.zero_le _
    refine ⟨fun hport hadmin hfree hsq0 hsq1 hcq0 hcq1 hvector hprio haddr0 haddr1 => ?_, fun hport => next_finish (hbody.trans (queueCreate_otherPort hport)),
      fun hport htaken => next_finish (hbody.trans (queueCreate_taken hport htaken))⟩
    have hopens := queueCreate_opens (key := c.key) hport hadmin hfree ⟨hsq0, hsq1⟩ ⟨hcq0, hcq1⟩ hvector hprio haddr0 haddr1
    have hkept := openKept_openQueue (askedQueue e) t
    simp only [openKept, Prod.mk.injEq] at hkept
    obtain ⟨hmem, hjournal, hinflight⟩ := hkept
    exact ⟨opened (askedQueue e) t, openQueue (askedQueue e) t, next_finish (hbody.trans hopens), openQueue_queue_same (q := askedQueue e) hfree, rfl, rfl, rfl, rfl,
      rfl, rfl, rfl, rfl, rfl, rfl, rfl, rfl, fun r hr => openQueue_queue_ne (q := askedQueue e) hr t, hmem, hjournal, hinflight⟩
  case queueDelete =>
    rintro q x rfl h hx hport hadmin hdel hquiet
    have hbody := submit_low h (by decide) fun _ => Nat.zero_le _
    exact ⟨queueRemoved c.key (e.param 8 2) t, next_finish (hbody.trans (queueDelete_removes hx hport hadmin hdel hquiet)), queueRemoved_queue_same ..,
      fun r hr => queueRemoved_queue_ne hr c.key t, rfl⟩
  case setTime =>
    exact fun h => ⟨next_finish (submit_low h (by decide) fun _ => Nat.zero_le _), fun n now u => applyDelta_setTime ..⟩
  case getLog =>
    intro h hmost htag
    have hbody := submit_low h (by decide) htag
    exact ⟨fun out u hmode hleast hhead hout hwritten => next_finish (hbody.trans (getLog_records hmode hleast hmost hhead hout hwritten)),
      fun u hmode hleast hwritten => next_finish (hbody.trans (getLog_summary hmode hleast hmost hwritten))⟩
  case abort =>
    rintro q rfl h hport mine
    have hbody := submit_low h (by decide) fun _ => Nat.zero_le _
    exact ⟨fun hnone => next_finish (hbody.trans (abort_none hport hnone)), fun d hd hop hable => next_finish (hbody.trans (abort_withdraws hport hd hop hable)),
      fun d hd hop hable => next_finish (hbody.trans (abort_begun hport hd hop hable))⟩
  case fwStage =>
    intro h hleast hmost hwords hfree hopen hwrites hb hidle hpassword hrun img himage
    exact next_finish ((submit_low h (by decide) fun _ => Nat.zero_le _).trans
      (fwStage_starts hleast hmost hwords hfree hopen hwrites hb hidle hpassword hrun himage))
  case fwActivate =>
    exact fun h hfree himage hdigest hsolo => next_finish ((submit_low h (by decide) fun _ => Nat.zero_le _).trans (fwActivate_solo hfree himage hdigest hsolo))
  case selftest =>
    intro h v kats checker image found raised
    have hbody := submit_high h (by decide) fun _ => Nat.zero_le _
    exact ⟨fun hstays => next_finish (hbody.trans (selftest_stays hstays)),
      fun hsafe hmate hpass => next_finish (hbody.trans (selftest_restarts hsafe hmate hpass))⟩
  case faultForce =>
    exact fun i r u h hforced hrecord hmate hkiln =>
      next_finish ((submit_high h (by decide) fun _ => Nat.zero_le _).trans (faultForce_acts hforced hrecord hmate hkiln))
  case tamperTest =>
    exact fun k h hk hsource hquiet => next_finish ((submit_high h (by decide) fun _ => Nat.zero_le _).trans (tamperTest_begins hk hsource hquiet))
  case latchField =>
    intro h hroom g cell out u hwritten
    exact next_finish ((submit_high h (by decide) fun _ => Nat.zero_le _).trans (latchFieldRead_written hroom hwritten))
  case undefined => exact fun op s0 auth hd hop harrives hsound => next_finish (submit_undefined hop harrives hsound)
  case wakePolicy =>
    exact fun h hunlocked htimer => next_finish ((submit_high h (by decide) fun _ => Nat.zero_le _).trans (wakePolicy_written hunlocked htimer))
  case powerState =>
    intro h
    have hbody := submit_high h (by decide) fun _ => Nat.zero_le _
    exact ⟨fun hrun => next_finish (hbody.trans (powerState_stays hrun)), fun hmode hgo => next_finish (hbody.trans (powerState_enters hmode hgo))⟩
  case rngRead =>
    intro h hleast hmost htime hraw
    have hbody := submit_high h (by decide) fun _ => Nat.zero_le _
    exact ⟨(rngAsk (.command c.key) (e.param 0xC 1) (e.param 8 4) (e.param 0xE 2) t).2, next_finish (hbody.trans (rngRead_asks hleast hmost htime hraw)), rfl, rfl⟩
  case rngStatus => exact fun h => next_finish (submit_high h (by decide) fun _ => Nat.zero_le _)

end Sys2Proof.AdminCommands
end

section
/-! SUPPORT. Replacing a host port's record: what reads after it, and a second replacement. Then PORT_CTL by its value, the queue pair it makes, and the report of a late mirror (04_yomir_command_protocol.md, R105, R124; 05_host_and_management_ports.md, R157, R158). -/

namespace Sys2Proof.HostPorts

open Sys2Proof.Machine Sys2Proof.Frame

/-! ### A host port's record -/

@[simp] theorem port_setPort (s : State) (p : Nat) (h : HostPort) : (s.setPort p h).port p = h := by
  by_cases hp : p = 0 <;> simp [State.port, State.setPort, hp]
@[simp] theorem setPort_setPort (s : State) (p : Nat) (h k : HostPort) : (s.setPort p h).setPort p k = s.setPort p k := by
  by_cases hp : p = 0 <;> simp [State.setPort, hp]
@[simp] theorem ideRequired_setPort (s : State) (p : Nat) (h : HostPort) : ideRequired (s.setPort p h) p = ideRequired s p := by
  simp only [ideRequired, State.reg, Laws.setPort_regs]

/-! ### PORT_CTL (R158) -/

/-- The reserved bits 31:1 of a word are clear exactly where its value is 0 or 1. -/
theorem fieldAt_reserved_eq_zero (v : Word) : fieldAt v 31 1 = 0 ↔ v.toNat < 2 := by
  have hv := v.isLt
  simp only [fieldAt, Nat.shiftRight_eq_div_pow]
  omega

/-- The state on which PORT_CTL acts: a value with a reserved bit set has marked the block's status (R9). -/
def reservedMarked (p : Nat) (v : Word) (s : State) : State := if v.toNat < 2 then s else setStatusBits (barBase p) 1 s

/-- May a port be enabled: ready, both admin sizes nonzero, both base addresses on 4,096 bytes (R105)? -/
def AdminSound (p : Nat) (s : State) : Prop :=
  portReady s = true ∧ fieldAt (s.port p).admSize 27 16 ≠ 0 ∧ fieldAt (s.port p).admSize 11 0 ≠ 0 ∧
  (s.port p).admSq.toNat % 4096 = 0 ∧ (s.port p).admCq.toNat % 4096 = 0

theorem reservedMarked_eq (p : Nat) (v : Word) (s : State) :
    (if fieldAt v 31 1 ≠ 0 then setStatusBits (barBase p) 1 s else s) = reservedMarked p v s := by
  simp only [reservedMarked, ne_eq, fieldAt_reserved_eq_zero, ite_not]

section PortControl
variable {p : Nat} {v : Word} {s : State}

theorem portControl_disable (hv : bitAt v 0 = false) : portControl p v s = flrPort p (reservedMarked p v s) := by
  rw [portControl, reservedMarked_eq]; exact if_pos hv
theorem portControl_again (hv : bitAt v 0 = true) (hen : ((reservedMarked p v s).port p).enabled = true) :
    portControl p v s = reservedMarked p v s := by
  rw [portControl, reservedMarked_eq]; exact (if_neg (by simp [hv])).trans (if_pos hen)
theorem portControl_refused (hv : bitAt v 0 = true) (hen : ((reservedMarked p v s).port p).enabled = false)
    (hbad : ¬ AdminSound p (reservedMarked p v s)) :
    portControl p v s = (reservedMarked p v s).setPort p { (reservedMarked p v s).port p with cfgError := true } := by
  rw [portControl, reservedMarked_eq]
  refine (if_neg (by simp [hv])).trans ((if_neg (by simp [hen])).trans (if_pos ?_))
  simpa only [AdminSound, Decidable.not_and_iff_not_or_not, Bool.not_eq_true, ne_eq, Decidable.not_not] using hbad
theorem portControl_enables (hv : bitAt v 0 = true) (hen : ((reservedMarked p v s).port p).enabled = false)
    (hsound : AdminSound p (reservedMarked p v s)) :
    portControl p v s =
      let u := reservedMarked p v s
      let h := u.port p
      openQueue (freshQueue (64 * p) h.admSq h.admCq (fieldAt h.admSize 11 0 + 1) (fieldAt h.admSize 27 16 + 1) 0 0 false true 0)
        (u.setPort p { h with enabled := true }) := by
  obtain ⟨hready, hcq, hsq, hsqBase, hcqBase⟩ := hsound
  rw [portControl, reservedMarked_eq]
  exact (if_neg (by simp [hv])).trans ((if_neg (by simp [hen])).trans (if_neg (by simp [hready, hcq, hsq, hsqBase, hcqBase])))

end PortControl

/-! ### The queue pair made (R105, R107) -/

theorem mem_insertQueue {q x : Queue} {l : List Queue} : x ∈ insertQueue q l ↔ x = q ∨ x ∈ l := by
  induction l with
  | nil => simp [insertQueue]
  | cons y t ih =>
    unfold insertQueue
    split
    · simp
    · simp only [List.mem_cons, ih, or_left_comm]

/-- A queue as it is entered: it remembers the journal's next record, and whether the module was KEYLESS. -/
def entered (q : Queue) (s : State) : Queue := { q with since := s.journal.next, keyless := s.vault.keyless }

/-- A queue that takes no events is entered among the others, and the boundaries held for it take its sequence. -/
theorem openQueue_noEvents {q : Queue} {s : State} (h : q.events = false) :
    openQueue q s = { s with cqe := { s.cqe with
      queues := insertQueue (entered q s) s.cqe.queues, held := s.cqe.held.map (boundarySeq (entered q s)) } } :=
  if_neg (by simp [h])

/-! ### A late mirror (R124) -/

theorem acceptLate_first {n : Nat} {s : State} (hpair : s.pairMode = true) (hacked : s.journal.acked ≤ n) (hnext : n < s.journal.next)
    (hnew : n ∉ s.cqe.lateAcks) :
    acceptLate n s = ({ s with cqe := { s.cqe with lateAcks := s.cqe.lateAcks ++ [n] } } : State).raise 182 :=
  if_pos ⟨hpair, hacked, hnext, by simpa using hnew⟩

/-- Settles O27: PORT_CTL by its four cases behind the TLP that carries it, the queue pair entered, the late mirror reported. -/
theorem portBringUp : Obligations.PortBringUp := by
  unfold Obligations.PortBringUp
  refine ⟨?control, ?queue, ?late⟩
  case control =>
    intro p v u halive w s h cq sq good
    have htlp : hostTlp p.val (portControl p.val v) u = portControl p.val v w := Doorbells.hostTlp_alive halive
    exact ⟨fun hv hen hgood => next_finish (htlp.trans (portControl_enables hv hen hgood)),
      fun hv hen hbad => next_finish (htlp.trans (portControl_refused hv hen hbad)),
      fun hv hen => next_finish (htlp.trans (portControl_again hv hen)),
      fun hv => next_finish (htlp.trans (portControl_disable hv))⟩
  case queue =>
    intro q s hevents t made
    have ht : t = { s with cqe := { s.cqe with queues := insertQueue made s.cqe.queues, held := s.cqe.held.map (boundarySeq made) } } :=
      openQueue_noEvents hevents
    rw [ht]
    exact ⟨mem_insertQueue.mpr (.inl rfl), fun x hx => mem_insertQueue.mp hx, rfl, rfl⟩
  case late => exact fun n s hpair hacked hnext hnew => next_finish (acceptLate_first hpair hacked hnext hnew)

end Sys2Proof.HostPorts
end

section
/-! SUPPORT. Bus events of a host port: what an event handled as a function-level reset leaves, the events by the port they find, the link's training and its L1, and a failed DMA read (05_host_and_management_ports.md, R160 to R165, R169, R612). -/

namespace Sys2Proof.BusEvents

open Sys2Proof.Machine Sys2Proof.Frame Sys2Proof.HostPorts

/-! ### Events handled as a function-level reset (R160, R612) -/

/-- The last things a function-level reset does: no queue of the port is left, BAR0 takes its reset values and the cause is kept. -/
theorem flrPort_ends (p : Nat) (s : State) :
    ∃ u : State, (∀ q ∈ u.cqe.queues, q.qid / 64 ≠ p) ∧ flrPort p s = rstCause (bit32 (5 + p) true) (u.setPort p (barReset (u.port p))) := by
  unfold flrPort
  refine ⟨_, ?_, rfl⟩
  exact fun q hq => by simpa using (List.mem_filter.mp hq).2

@[simp] theorem port_rstCause (bits : Word) (s : State) (p : Nat) : (rstCause bits s).port p = s.port p := rfl
/-- Bits 5 and 6 of the reset cause name the port (R88). -/
theorem bitAt_rstCause (p : Fin 2) (s : State) : bitAt (rstCause (bit32 (5 + p.val) true) s).power.rstCause (5 + p.val) = true := by
  have hbit : bitAt (bit32 (5 + p.val) true) (5 + p.val) = true := by revert p; decide
  simp only [bitAt] at hbit
  simp only [bitAt, rstCause, BitVec.getLsbD_or, hbit, Bool.or_true]

/-- A port's record as its data link goes down (R160, R164). -/
def unlinked (h : HostPort) : HostPort :=
  { cfgAfterHot h with linkUp := false, speed := 0, width := 0, lstate := .l0, ide := [], spdm := .none, transcript := [] }
theorem linkGone_eq (p : Nat) (s : State) : linkGone p s = s.setPort p (unlinked (s.port p)) := rfl
@[simp] theorem linkGone_setPort (p : Nat) (h : HostPort) (s : State) : linkGone p (s.setPort p h) = s.setPort p (unlinked h) := by
  rw [linkGone_eq, setPort_setPort, port_setPort]

section Events
variable {p : Nat} {s : State}

theorem hostFlr_hotReset : hostFlr p .hotReset s = flrPort p (s.setPort p (unlinked { s.port p with d3hot := false })) :=
  congrArg (flrPort p) (linkGone_setPort p _ s)
theorem hostFlr_perst :
    hostFlr p .perst s =
      let u := flrPort p (s.setPort p (unlinked { s.port p with d3hot := false }))
      u.setPort p { u.port p with cfg := [] } :=
  congrArg (fun u => (flrPort p u).setPort p { (flrPort p u).port p with cfg := [] }) (linkGone_setPort p _ s)

theorem busMasterOff_enabled (h : (s.port p).enabled = true) :
    busMasterOff p s = flrPort p (s.setPort p ((s.port p).setCfg 0x04 ((s.port p).cfgWord 0x04 &&& ~~~ 4))) := if_pos h
theorem busMasterOff_disabled (h : (s.port p).enabled = false) :
    busMasterOff p s = s.setPort p ((s.port p).setCfg 0x04 ((s.port p).cfgWord 0x04 &&& ~~~ 4)) := if_neg (by simp [h])

theorem surpriseDown_linked (h : (s.port p).linkUp = true) :
    surpriseDown p s = (flrPort p (s.setPort p (unlinked (s.port p)))).raiseAt (176 + p) (.port p) 0 0 := if_neg (by simp [h])

/-- A port's record as a check fails on an IDE stream: counted in AER, none of the stream's keys active (R169). -/
def insecure (k : Nat) (h : HostPort) : HostPort :=
  { h.aerError 0x10000000 with ide := h.ide.map (fun (e : IdeKey) => if e.stream = k then { e with active := false } else e) }
theorem ideFail_required {k : Nat} (h : ideRequired s p = true) :
    ideFail p k s = (flrPort p (s.setPort p (insecure k (s.port p)))).raiseAt 179 (.port p) 0 0 :=
  if_pos ((ideRequired_setPort s p _).trans h)
theorem ideFail_optional {k : Nat} (h : ideRequired s p = false) : ideFail p k s = s.setPort p (insecure k (s.port p)) :=
  if_neg (Bool.eq_false_iff.mp ((ideRequired_setPort s p _).trans h))

/-! ### The link (R153, R164, R165) -/

theorem enterL1_idle {sub : Bool} (hup : (s.port p).linkUp = true) (hhost : (s.port p).aspmL1 = true)
    (hctl : bitAt (s.reg (hostpBase p + 8) 2) 1 = true) (hidle : portIdle s p = true) :
    enterL1 p sub s = s.setPort p { s.port p with
      lstate := if sub = true ∧ (s.port p).substates.1 = true then .l12 else if sub = true ∧ (s.port p).substates.2 = true then .l11 else .l1 } :=
  if_pos ⟨hup, hhost, hctl, hidle⟩

/-- A trained port is below full rate where its speed or its width is. -/
theorem linkDegraded_trained {h : HostPort} {speed width : Nat} :
    linkDegraded { h with linkUp := true, speed := speed, width := min width 8, lstate := .l0 } = true ↔ speed < 5 ∨ width < 8 := by
  simp only [linkDegraded, Bool.true_and, Bool.or_eq_true, decide_eq_true_eq]
  omega

/-- A link that may train comes up at the lower of its own speed and HOSTP_CTL's, at most eight lanes wide. -/
theorem linkUp_trains {speed width : Nat} (hfence : s.isFenced 3 p = false) (hdown : (s.port p).linkUp = false)
    (hsupply : s.power.supply = .running) (hrun : s.power.mode = .run) (hclock : portClock s p = true) :
    linkUp p speed width s =
      let sp := max 1 (min speed (5 - fieldAt (s.reg (hostpBase p + 8) 2) 3 2))
      let up := s.setPort p { s.port p with linkUp := true, speed := sp, width := min width 8, lstate := .l0 }
      if sp < 5 ∨ width < 8 then up.raiseAt 184 (.port p) 0 0 else up := by
  unfold linkUp
  rw [if_neg (by simp [hfence, hdown, hsupply, hrun, hclock])]
  simp only [port_setPort, linkDegraded_trained]

end Events

/-! ### A failed DMA read (R162) -/

/-- Every unit lets go of a command whose DMA failed. -/
def released (c : Inflight) (s : State) : State :=
  dropLaneKeys [c.key] (dropCardJob c.key (dropWired c.key (dropLabelJob c.key (dropEntropy c s))))

theorem dmaError_command {q : Nat} {tag : BitVec 16} {element : Word} {list : Bool} {how : DmaFail} {s : State} {c : Inflight}
    (h : s.cqe.inflight.find? (fun c => c.src == .queue q && c.entry.tag == tag) = some c) :
    dmaError (.queue q) tag element list how s =
      let a := complete c.key (answer 0x2007 [(12, element.toNat)]) (released c s)
      let b := match c.wait with | .lane m => dmaStream list m c a | _ => a
      (b.setPort (q / 64) (dmaFailure how (b.port (q / 64)))).raiseAt 178 (.port (q / 64)) 0 0 := by
  simp only [dmaError, Source.port, h]
  rfl

/-- Settles O28: what every event handled as a function-level reset leaves, each event by the port it finds, the failed read by its command. -/
theorem portBusEvents : Obligations.PortBusEvents := by
  unfold Obligations.PortBusEvents
  refine ⟨?reset, ?events, ?dma⟩
  case reset =>
    intro p s t
    obtain ⟨u, hqueues, ht⟩ : ∃ u : State, (∀ q ∈ u.cqe.queues, q.qid / 64 ≠ p.val) ∧ t = _ := flrPort_ends p.val s
    rw [ht, port_rstCause, port_setPort]
    exact ⟨by simpa [rstCause] using hqueues, rfl, rfl, rfl, rfl, bitAt_rstCause p _⟩
  case events =>
    intro p stream sub speed width s h off awaken noMaster
    refine ⟨rfl, next_finish hostFlr_hotReset, next_finish hostFlr_perst, fun hen => next_finish (busMasterOff_enabled hen),
      fun hen => next_finish (busMasterOff_disabled hen), rfl, rfl, fun hup => next_finish (surpriseDown_linked hup), ?ide,
      fun hup hhost hctl hidle => next_finish (enterL1_idle hup hhost hctl hidle), ?exit,
      fun hfence hdown hsupply hrun hclock _ => next_finish (linkUp_trains hfence hdown hsupply hrun hclock)⟩
    case ide => exact ⟨fun hreq => next_finish (ideFail_required hreq), fun hreq => next_finish (ideFail_optional hreq)⟩
    case exit => exact fun hopen => ⟨next_finish (if_pos hopen), fun hrun => Doorbells.tlpArrives_run hrun p.val⟩
  case dma => exact fun q tag el c s _ hc => next_finish (dmaError_command hc)

end Sys2Proof.BusEvents
end

section
/-! SUPPORT. The DOE mailbox of a host port: SPDM requests by the stage of the connection, IDE keys by the session (05_host_and_management_ports.md, R164, R167, R168). -/

namespace Sys2Proof.SpdmPort

open Sys2Proof.Machine Sys2Proof.Frame Sys2Proof.HostPorts

section Mailbox
variable {p : Nat} {s : State}

/-- With the link open and the start-up over, a request is served behind the TLP that carries it. -/
theorem doe_open {body : State → State} (hlink : linkOpen s p = true) (hbooted : s.power.booted = true) : doe p body s = body (tlpArrives p s) :=
  if_pos (by simp [hlink, hbooted])
theorem doe_closed {body : State → State} (h : (linkOpen s p && s.power.booted) = false) : doe p body s = s :=
  if_neg (by simp [h])

/-! ### Requests by the stage of the connection (R167) -/

variable {code : Nat} {req : List Byte} {ok : Spdm → Bool} {next : Spdm → Spdm}

/-- A stage that allows a request: answered, and the connection moves on from there. -/
theorem spdmStep_allowed {stage : Spdm} (hstage : (s.port p).spdm = stage) (hok : ok stage = true) :
    spdmStep p code req ok next s = doeRespond p req (spdmAnswer code req (s.port p) (streamSecure (s.port p)) s) (next stage) s := by
  subst hstage
  exact if_pos hok
/-- Any other stage: the error response, and no more. -/
theorem spdmStep_refused (hok : ok (s.port p).spdm = false) :
    spdmStep p code req ok next s = s.setPort p { s.port p with response := spdmError } :=
  if_neg (by simp [hok])

theorem spdmReady_of_negotiated {stage : Spdm} (h : stage = .negotiated ∨ stage = .exchanged ∨ stage = .secured) : spdmReady stage = true := by
  rcases h with rfl | rfl | rfl <;> rfl

/-- GET_VERSION starts the transcript anew. -/
theorem doeRespond_anew {resp : List Byte} {stage : Spdm} :
    doeRespond p req resp stage (s.setPort p { s.port p with transcript := [] }) =
      s.setPort p { s.port p with spdm := stage, transcript := req ++ resp, response := resp } := by
  simp [doeRespond]
/-- END_SESSION answers, then both IDE streams stop. -/
theorem ideStop_doeRespond {resp : List Byte} {stage : Spdm} :
    ideStop p (doeRespond p req resp stage s) =
      s.setPort p { s.port p with spdm := stage, transcript := (s.port p).transcript ++ req ++ resp, response := resp, ide := [] } := by
  simp [ideStop, doeRespond]

end Mailbox

section Keys
variable {p st sub : Nat} {ks tx : Bool} {s : State}

/-! ### IDE keys (R168) -/

/-- An update of the keys of a selection goes place by place. -/
theorem getElem?_map_ite {c : IdeKey → Prop} [DecidablePred c] {f : IdeKey → IdeKey} {l : List IdeKey} {n : Nat} {e : IdeKey} (h : l[n]? = some e) :
    (c e → (l.map fun e => if c e then f e else e)[n]? = some (f e)) ∧ (¬ c e → (l.map fun e => if c e then f e else e)[n]? = some e) := by
  constructor <;> intro hc <;> simp [h, hc]

theorem keyProg_outside {k : IdeKey} : keyProg p false k s = s.setPort p { s.port p with ide := [], response := spdmError } := by
  simp [keyProg, ideStop]
theorem keyProg_unsupported {k : IdeKey} (hsec : (s.port p).spdm = .secured) (hk : 2 ≤ k.stream ∨ 3 ≤ k.sub) :
    keyProg p true k s = s.setPort p { s.port p with response := ideKeyAck ((s.port p).streamId k.stream) 3 k.keySet k.sub k.tx } :=
  (if_neg (by simp [hsec])).trans (if_pos hk)
theorem keyProg_stored {k : IdeKey} (hsec : (s.port p).spdm = .secured) (hstream : k.stream < 2) (hsub : k.sub < 3) :
    keyProg p true k s = s.setPort p { s.port p with
      response := ideKeyAck ((s.port p).streamId k.stream) 0 k.keySet k.sub k.tx
      ide := (s.port p).ide.filter (fun e => !(e.stream == k.stream && e.keySet == k.keySet && e.sub == k.sub && e.tx == k.tx)) ++ [{ k with active := false }] } :=
  (if_neg (by simp [hsec])).trans (if_neg (by omega))

/-- K_SET_GO of a stored key: of its stream, sub-stream and direction the named key set is active and the other is not. -/
theorem keyGo_stored (hsec : (s.port p).spdm = .secured) (hkey : ∃ e ∈ (s.port p).ide, (e.stream = st ∧ e.sub = sub ∧ e.tx = tx) ∧ e.keySet = ks) :
    keyGo p st ks sub tx s = s.setPort p { s.port p with
      response := ideGoStopAck ((s.port p).streamId st) ks sub tx
      ide := (s.port p).ide.map fun e => if e.stream = st ∧ e.sub = sub ∧ e.tx = tx then { e with active := e.keySet == ks } else e } := by
  have hany : (s.port p).ide.any (fun e => e.stream == st && e.sub == sub && e.tx == tx && e.keySet == ks) = true := by
    simpa [and_assoc] using hkey
  unfold keyGo
  simp only [hsec, hany, ne_eq, not_true_eq_false, if_false, if_true, Bool.and_eq_true, beq_iff_eq, and_assoc]
/-- K_SET_GO of a key not stored is acknowledged and activates nothing. -/
theorem keyGo_absent (hsec : (s.port p).spdm = .secured) (hkey : ¬ ∃ e ∈ (s.port p).ide, (e.stream = st ∧ e.sub = sub ∧ e.tx = tx) ∧ e.keySet = ks) :
    keyGo p st ks sub tx s = s.setPort p { s.port p with response := ideGoStopAck ((s.port p).streamId st) ks sub tx } := by
  have hany : (s.port p).ide.any (fun e => e.stream == st && e.sub == sub && e.tx == tx && e.keySet == ks) = false := by
    simpa [and_assoc] using hkey
  unfold keyGo
  simp only [hsec, hany, ne_eq, not_true_eq_false, if_false, Bool.false_eq_true]
theorem keyStop_secured (hsec : (s.port p).spdm = .secured) :
    keyStop p st ks sub tx s = s.setPort p { s.port p with
      response := ideGoStopAck ((s.port p).streamId st) ks sub tx
      ide := (s.port p).ide.map fun e => if (e.stream = st ∧ e.sub = sub ∧ e.tx = tx) ∧ e.keySet = ks then { e with active := false } else e } := by
  simp only [keyStop, hsec, if_true, and_assoc]

end Keys

/-- Settles O30: nothing before the link is open and the start-up over; then each request by the stage, each key by the session. -/
theorem spdmSession : Obligations.SpdmSession := by
  unfold Obligations.SpdmSession
  intro p req s
  refine ⟨fun hclosed => ⟨next_finish (doe_closed hclosed), next_finish (doe_closed hclosed)⟩, ?_⟩
  intro hlink hbooted w h put replies errs
  have hdoe (body : State → State) : doe p.val body s = body w := doe_open hlink hbooted
  have answered {code : Nat} {r : List Byte} {ok : Spdm → Bool} {next : Spdm → Spdm} {stage : Spdm} (hstage : h.spdm = stage) (hok : ok stage = true) :
      (Host.Outcome.next (finish (doe p.val (spdmStep p.val code r ok next) s)) : Out) = replies code r (next stage) :=
    next_finish ((hdoe _).trans (spdmStep_allowed hstage hok))
  refine ⟨next_finish ((hdoe _).trans doeRespond_anew), fun hst => answered hst rfl, ?capabilities, fun hst => answered hst rfl, ?ready,
    fun hst => answered hst rfl, ?finish, ?finishBad, ?secured, ?keys, ?discovery, ?noProtocol⟩
  case capabilities => exact fun hst => next_finish ((hdoe _).trans (spdmStep_refused (beq_false_of_ne hst)))
  case ready =>
    intro hst
    have hready := spdmReady_of_negotiated hst
    exact ⟨answered rfl hready, answered rfl hready, answered rfl hready, fun slot off len => next_finish ((hdoe _).trans (if_pos hready))⟩
  case finish =>
    exact fun hst hauth => next_finish ((hdoe _).trans (spdmStep_allowed hst (Bool.and_eq_true_iff.mpr ⟨rfl, hauth⟩)))
  case finishBad =>
    exact fun hst hauth => next_finish ((hdoe _).trans (spdmStep_refused (Bool.and_eq_false_iff.mpr (.inr hauth))))
  case secured =>
    exact fun hst => ⟨answered hst rfl, answered hst rfl, answered hst rfl,
      next_finish ((hdoe _).trans ((congrArg (ideStop p.val) (spdmStep_allowed hst rfl)).trans ideStop_doeRespond))⟩
  case keys =>
    intro st sub ks tx key iv mine ack
    exact ⟨fun hsec hst hsub => next_finish ((hdoe _).trans (keyProg_stored hsec hst hsub)),
      fun hsec hk => next_finish ((hdoe _).trans (keyProg_unsupported hsec hk)), next_finish ((hdoe _).trans keyProg_outside),
      fun hsec hkey => ⟨_, next_finish ((hdoe _).trans (keyGo_stored hsec hkey)), List.length_map .., fun n e he => getElem?_map_ite he⟩,
      fun hsec hkey => next_finish ((hdoe _).trans (keyGo_absent hsec hkey)),
      fun hsec => ⟨_, next_finish ((hdoe _).trans (keyStop_secured hsec)), List.length_map ..,
        fun n e he => getElem?_map_ite (c := fun e => (e.stream = st ∧ e.sub = sub ∧ e.tx = tx) ∧ e.keySet = ks) he⟩⟩
  case discovery => exact fun i hi => next_finish ((hdoe _).trans (by rw [if_pos hi]))
  case noProtocol => exact fun i hi => next_finish ((hdoe _).trans (by rw [if_neg (Nat.not_lt.mpr hi)]))

end Sys2Proof.SpdmPort
end

section
/-! SUPPORT. Lanes and streams: what a lane and a stream are after a change to either, what ends with a stream, what a fetch through the key cache and a key slot's load leave alone (06_object_key_table.md, R194; 07_sealing_lanes.md, R220 to R223, R234, R240). -/

namespace Sys2Proof.LaneState

open Sys2Proof.Machine

/-! ### Lanes and their slots -/

section Lanes
variable (s : State) (n m h : Nat) (f : Lane → Lane)

@[simp] theorem setLane_streams : (s.setLane n f).lanes.streams = s.lanes.streams := rfl
@[simp] theorem setLane_length : (s.setLane n f).lanes.lanes.length = s.lanes.lanes.length := List.length_modify ..
@[simp] theorem stream_setLane : (s.setLane n f).stream h = s.stream h := rfl

/-- A change to a lane reaches that lane alone, and only where the module has it. -/
theorem lane_setLane : (s.setLane n f).lane m = if n = m ∧ m < s.lanes.lanes.length then f (s.lane m) else s.lane m := by
  simp only [State.lane, State.setLane, List.getD_eq_getElem?_getD, List.getElem?_modify]
  by_cases hm : m < s.lanes.lanes.length
  · by_cases hnm : n = m <;> simp [hm, hnm]
  · simp [hm]
theorem lane_setLane_same (hn : n < s.lanes.lanes.length) : (s.setLane n f).lane n = f (s.lane n) :=
  (lane_setLane ..).trans (if_pos ⟨rfl, hn⟩)
theorem lane_setLane_ne (hm : m ≠ n) : (s.setLane n f).lane m = s.lane m :=
  (lane_setLane ..).trans (if_neg fun h => hm h.1.symm)

end Lanes

@[simp] theorem slot_setSlot_same (l : Lane) (i : Nat) (k : Option SlotKey) : (l.setSlot i k).slot i = k := by
  unfold Lane.setSlot Lane.slot; split <;> rfl
theorem slot_setSlot_other {i : Nat} (hi : i < 2) (l : Lane) (k : Option SlotKey) : (l.setSlot i k).slot (1 - i) = l.slot (1 - i) := by
  obtain rfl | rfl : i = 0 ∨ i = 1 := by omega
  · rfl
  · rfl
/-- Clearing a stream's slots fills none. -/
theorem slot_clearSlotsOf_none {l : Lane} {i : Nat} (hl : l.slot i = none) (h : Nat) : (clearSlotsOf h l).slot i = none := by
  unfold Lane.slot at hl ⊢
  split at hl <;> simp_all [clearSlotsOf]
/-- A slot emptied on a lane is empty, even on a lane that the module has not. -/
theorem slot_emptied (s : State) (n i : Nat) : ((s.setLane n (fun l => l.setSlot i none)).lane n).slot i = none := by
  rw [lane_setLane]
  split
  case isTrue => exact slot_setSlot_same ..
  case isFalse hn =>
    have hlen : s.lanes.lanes.length ≤ n := Nat.not_lt.mp fun h => hn ⟨rfl, h⟩
    have hreset : s.lane n = Lane.reset := by
      rw [State.lane, List.getD_eq_getElem?_getD, List.getElem?_eq_none hlen, Option.getD_none]
    rw [hreset]
    exact ite_self _
/-- A slot stays empty over a change that fills none. -/
theorem slot_setLane_none {s : State} {m i : Nat} {f : Lane → Lane} (hs : (s.lane m).slot i = none)
    (hf : ∀ l : Lane, l.slot i = none → (f l).slot i = none) (n : Nat) : ((s.setLane n f).lane m).slot i = none := by
  rw [lane_setLane]
  split
  · exact hf _ hs
  · exact hs

/-! ### Streams -/

theorem stream_handle {s : State} {h : Nat} {x : Stream} (hx : s.stream h = some x) : x.handle = h := by
  simpa using List.find?_some hx
theorem stream_eq_none_iff {s : State} {h : Nat} : s.stream h = none ↔ h ∉ s.lanes.streams.map (·.handle) := by
  simp [State.stream]

section SetStream
variable {f : Stream → Stream} (hf : ∀ x, (f x).handle = x.handle)
include hf

theorem setStream_handles (h : Nat) (s : State) : (s.setStream h f).lanes.streams.map (·.handle) = s.lanes.streams.map (·.handle) := by
  simp only [State.setStream, List.map_map]
  refine List.map_congr_left fun x _ => ?_
  simp only [Function.comp_apply]
  split
  · exact hf x
  · rfl
theorem stream_setStream_same {s : State} {h : Nat} {x : Stream} (hx : s.stream h = some x) : (s.setStream h f).stream h = some (f x) := by
  have hsame : ((fun y : Stream => y.handle == h) ∘ fun y => if y.handle = h then f y else y) = fun y => y.handle == h := by
    funext y
    by_cases hy : y.handle = h <;> simp [hy, hf y]
  calc (s.setStream h f).stream h
    _ = (s.lanes.streams.find? ((fun y : Stream => y.handle == h) ∘ fun y => if y.handle = h then f y else y)).map _ := List.find?_map ..
    _ = (s.stream h).map _ := by rw [hsame]; rfl
    _ = some (f x) := by rw [hx, Option.map_some, if_pos (stream_handle hx)]

end SetStream

/-! ### The end of a stream (R223, R240, R264) -/

/-- A stream's slot, context and staging reservation gone. -/
def dropStream (h : Nat) (x : Stream) (s : State) : State :=
  let u := s.setLane x.lane (clearSlotsOf h)
  { u with
    lanes := { u.lanes with streams := u.lanes.streams.filter (fun y => y.handle != h) }
    journal := { u.journal with reserved := if x.isSeal then u.journal.reserved - 1 else u.journal.reserved } }

/-- A lane as a context leaves it for DDR5. -/
def leftLane (h : Nat) (l : Lane) : Lane := { clearSlotsOf h l with parkCnt := l.parkCnt + 1 }
/-- A stream with its context in DDR5. -/
def inDdr5 (x : Stream) : Stream := { x with state := .park2, entry := none }

/-- Parking in DDR5 changes a lane and a stream. -/
theorem park2_cases (h : Nat) (s : State) : park2 h s = s ∨ ∃ n, park2 h s = (s.setLane n (leftLane h)).setStream h inDdr5 := by
  unfold park2
  cases s.stream h with
  | none => exact .inl rfl
  | some x => exact .inr ⟨x.lane, rfl⟩
theorem park2_open {s : State} {h : Nat} {x : Stream} (hx : s.stream h = some x) :
    park2 h s = (s.setLane x.lane (leftLane h)).setStream h inDdr5 := by
  simp only [park2, hx]
  rfl
theorem park1_open {s : State} {h : Nat} {x : Stream} (hx : s.stream h = some x) :
    park1 h s = (s.setLane x.lane (clearSlotsOf h)).setStream h (fun y => { y with state := .park1 }) := by
  simp only [park1, hx]
theorem parkWaiting_cases (s : State) : parkWaiting s = s ∨ ∃ h, parkWaiting s = park2 h s := by
  simp only [parkWaiting]
  split
  next x _ =>
    split
    · exact .inr ⟨x.handle, rfl⟩
    · exact .inl rfl
  next => exact .inl rfl

theorem endStream_absent {s : State} {h : Nat} (hx : s.stream h = none) : endStream h s = s := by
  simp only [endStream, hx]
/-- While DDR5 has room for a context no other stream moves as one ends. -/
theorem endStream_room {s : State} {h : Nat} {x : Stream} (hx : s.stream h = some x) (hroom : parkedCount s < 4096) :
    endStream h s = dropStream h x s := by
  simp only [endStream, hx, decide_eq_false (Nat.not_le.mpr hroom), Bool.false_and, Bool.false_eq_true, if_false]
  rfl
/-- Otherwise the parked slot that it frees may go to a stream that waits for one. -/
theorem endStream_cases {s : State} {h : Nat} {x : Stream} (hx : s.stream h = some x) :
    endStream h s = dropStream h x s ∨ ∃ k, endStream h s = park2 k (dropStream h x s) := by
  simp only [endStream, hx]
  split
  · exact parkWaiting_cases (dropStream h x s)
  · exact .inl rfl

section EndKeeps
variable {β : Type} {view : State → β}

/-- What no change to lanes, streams and staging reservations touches, the end of a stream leaves. -/
theorem endStream_keeps (hlanes : ∀ s l j, view { s with lanes := l, journal := j } = view s) (h : Nat) (s : State) :
    view (endStream h s) = view s := by
  have hpark (k : Nat) (u : State) : view (park2 k u) = view u := by
    rcases park2_cases k u with hp | ⟨n, hp⟩
    · rw [hp]
    · rw [hp]; exact hlanes u _ u.journal
  cases hx : s.stream h with
  | none => rw [endStream_absent hx]
  | some x =>
    have hdrop : view (dropStream h x s) = view s := hlanes s _ _
    rcases endStream_cases hx with he | ⟨k, he⟩
    · rw [he, hdrop]
    · rw [he, hpark, hdrop]

end EndKeeps

@[simp] theorem endStream_mem (h : Nat) (s : State) : (endStream h s).mem = s.mem := endStream_keeps (view := State.mem) (fun _ _ _ => rfl) h s
@[simp] theorem endStream_ktab (h : Nat) (s : State) : (endStream h s).ktab = s.ktab := endStream_keeps (view := State.ktab) (fun _ _ _ => rfl) h s
@[simp] theorem endStream_fault (h : Nat) (s : State) : (endStream h s).fault = s.fault := endStream_keeps (view := State.fault) (fun _ _ _ => rfl) h s

theorem park2_handles (h : Nat) (s : State) : (park2 h s).lanes.streams.map (·.handle) = s.lanes.streams.map (·.handle) := by
  rcases park2_cases h s with hp | ⟨n, hp⟩
  · rw [hp]
  · rw [hp]; exact setStream_handles (f := inDdr5) (fun _ => rfl) h (s.setLane n (leftLane h))
theorem dropStream_handles (h : Nat) (x : Stream) (s : State) : h ∉ (dropStream h x s).lanes.streams.map (·.handle) := by
  simp [dropStream]
/-- An ended stream is open no longer. -/
theorem stream_endStream_same (h : Nat) (s : State) : (endStream h s).stream h = none := by
  cases hx : s.stream h with
  | none => rw [endStream_absent hx, hx]
  | some x =>
    rw [stream_eq_none_iff]
    rcases endStream_cases hx with he | ⟨k, he⟩
    · rw [he]; exact dropStream_handles h x s
    · rw [he, park2_handles]; exact dropStream_handles h x s
theorem slot_park2_none {s : State} {m i : Nat} (hs : (s.lane m).slot i = none) (h : Nat) : ((park2 h s).lane m).slot i = none := by
  rcases park2_cases h s with hp | ⟨n, hp⟩
  · rw [hp]; exact hs
  · rw [hp]; exact slot_setLane_none (f := leftLane h) hs (fun l hl => slot_clearSlotsOf_none hl h) n
theorem slot_endStream_none {s : State} {m i : Nat} (hs : (s.lane m).slot i = none) (h : Nat) : ((endStream h s).lane m).slot i = none := by
  cases hx : s.stream h with
  | none => rw [endStream_absent hx]; exact hs
  | some x =>
    have hdrop : ((dropStream h x s).lane m).slot i = none := slot_setLane_none hs (fun l hl => slot_clearSlotsOf_none hl h) x.lane
    rcases endStream_cases hx with he | ⟨k, he⟩
    · rw [he]; exact hdrop
    · rw [he]; exact slot_park2_none hdrop k

/-! ### Keys from the cache (R21, R194, R196) -/

/-- A fill of the key cache leaves the records as they are. -/
@[simp] theorem fill_records (k : Ktab) (i : Nat) : (k.fill i).records = k.records := by
  simp only [Ktab.fill]
  split
  · rfl
  split
  · rfl
  split <;> rfl
@[simp] theorem record_fill (k : Ktab) (i j : Nat) : (k.fill i).record j = k.record j := by
  simp only [Ktab.record, fill_records]

/-- A fetch that yields a usable key touches the key table unit alone. -/
theorem cacheFill_usable {kh : Word} {v : Verify} {s t : State} (h : cacheFill kh v s = (0, t)) : ∃ k, t = { s with ktab := k } := by
  simp only [cacheFill] at h
  split at h
  · cases h
  · split at h
    next c unc _ => cases unc <;> cases h
    next => exact ⟨_, (congrArg Prod.snd h).symm⟩

section LoadSlot
variable (n slot h : Nat) (kh : Word) (s : State)

/-- A load of a slot changes the key table unit and the lane. -/
theorem loadSlot_eq : loadSlot n slot h kh s =
    ({ s with ktab := s.ktab.fill (khIndex kh) } : State).setLane n (fun l => l.setSlot slot (some ⟨kh, (s.ktab.record (khIndex kh)).dek, h⟩)) := by
  simp only [loadSlot, record_fill]
@[simp] theorem loadSlot_mem : (loadSlot n slot h kh s).mem = s.mem := rfl
@[simp] theorem loadSlot_journal : (loadSlot n slot h kh s).journal = s.journal := rfl
@[simp] theorem loadSlot_fault : (loadSlot n slot h kh s).fault = s.fault := rfl
@[simp] theorem loadSlot_streams : (loadSlot n slot h kh s).lanes.streams = s.lanes.streams := rfl

end LoadSlot

end Sys2Proof.LaneState
end

section
/-! SUPPORT. The lane units: parking and expiry of a stream, and each answer of the key handoff mailbox by what it finds (01_system_view.md, R21 to R23; 07_sealing_lanes.md, R235, R240, R245, R246, R251, R252). -/

namespace Sys2Proof.LaneUnits

open Sys2Proof.Machine Sys2Proof.Frame Sys2Proof.LaneState

/-! ### Expiry (R245, R246) -/

/-- The report of an end without a fence is posted on the stream's queue. -/
theorem reportStream_expired {x : Stream} (hx : x.handle ≠ 0) (s : State) :
    reportStream x 0x7001 s = unsolicited (.queue x.queue) x.openTag 0x7001 x.openSeq [(12, x.openSeq.toNat)] s := by
  unfold reportStream
  rw [if_neg hx, if_neg (by decide)]

/-! ### LOAD, by what it finds (R21 to R23, R235) -/

/-- The invocation value in the registers of a lane's mailbox. -/
def unsealValue (n : Nat) (s : State) : Nat := (s.reg (laneBase n + 0x18) 0).toNat + (s.reg (laneBase n + 0x1C) 0).toNat * 2 ^ 32
/-- A context more on the lanes. -/
def withContext (x : Stream) (s : State) : State := { s with lanes := { s.lanes with streams := s.lanes.streams ++ [x] } }

section Load
variable {n slot entry : Nat} {mode : LoadMode} {kh : Word} {s : State} {e : CacheEntry} {x : Stream}

theorem exec_load (hn : n < 4) (hentry : entry < 64) :
    exec (.load n slot mode entry kh) s = .next (finish (mailboxLoad n slot mode entry kh (s.setReg (laneBase n + 0x14) kh))) := by
  change Host.Outcome.next (finish (mailboxLoad n slot mode (entry % 64) kh (if n < 4 then _ else _))) = _
  rw [Nat.mod_eq_of_lt hentry, if_pos hn]

theorem mailboxLoad_noLane (hn : 4 ≤ n) : mailboxLoad n slot mode entry kh s = s.raise 64 := if_pos (.inl hn)

variable (hplace : ¬ (4 ≤ n ∨ 2 ≤ slot))
include hplace

/-- Only the place of the park key is not looked up in the key cache (R241). -/
theorem mailboxLoad_missing (hkey : ¬ (entry = 63 ∧ kh = 0)) (hmiss : s.ktab.cache.find? (fun e => e.index == khIndex kh) = none) :
    mailboxLoad n slot mode entry kh s = mbResult n 2 s := by
  simp only [mailboxLoad, hplace, ← and_assoc, hkey, false_and, if_false, hmiss]

variable (hhit : s.ktab.cache.find? (fun e => e.index == khIndex kh) = some e)
include hhit

theorem mailboxLoad_wrongGeneration (hkey : ¬ (entry = 63 ∧ kh = 0)) (hgen : e.gen ≠ khGen kh) :
    mailboxLoad n slot mode entry kh s = mbResult n 3 (s.raise 64) := by
  simp only [mailboxLoad, hplace, ← and_assoc, hkey, false_and, if_false, hhit, if_pos hgen]

variable (hgen : e.gen = khGen kh)
include hgen

theorem mailboxLoad_busySlot (hkey : ¬ (entry = 63 ∧ kh = 0)) (hbusy : slotIdle s n ((s.lane n).slot slot) = false) :
    mailboxLoad n slot mode entry kh s = mbResult n 1 s := by
  simp only [mailboxLoad, hplace, ← and_assoc, hkey, false_and, if_false, hhit, hgen, ne_eq, not_true_eq_false, hbusy, if_true]

variable (hidle : slotIdle s n ((s.lane n).slot slot) = true)
include hidle

/-! The modes, with the key usable and the slot idle. -/

theorem reload_context (hkey : ¬ (entry = 63 ∧ kh = 0)) (hctx : contextAt s n entry = some x) (hkh : x.kh = kh) :
    mailboxLoad n slot .reload entry kh s = mbLoad n kh (loadSlot n slot x.handle kh s) := by
  simp only [mailboxLoad, hplace, and_true, hkey, hhit, hgen, ne_eq, not_true_eq_false, hidle, hctx, hkh, ne_eq, not_true_eq_false, Bool.true_eq_false, if_false]
theorem reload_noContext (hkey : ¬ (entry = 63 ∧ kh = 0)) (hctx : contextAt s n entry = none) :
    mailboxLoad n slot .reload entry kh s = mbResult n 4 s := by
  simp only [mailboxLoad, hplace, and_true, hkey, hhit, hgen, ne_eq, not_true_eq_false, hidle, hctx, Bool.true_eq_false, if_false]
theorem openSeal_inUse (hctx : contextAt s n entry = some x) : mailboxLoad n slot .openSeal entry kh s = mbResult n 4 s := by
  simp [mailboxLoad, hplace, hhit, hgen, hidle, hctx]
theorem openUnseal_inUse (hctx : contextAt s n entry = some x) : mailboxLoad n slot .openUnseal entry kh s = mbResult n 4 s := by
  simp [mailboxLoad, hplace, hhit, hgen, hidle, hctx]

variable (hctx : contextAt s n entry = none)
include hctx

theorem openUnseal_free : mailboxLoad n slot .openUnseal entry kh s =
    if 2 ^ 48 - 1 ≤ unsealValue n s then mbResult n 6 (s.raiseAt (83 + 8 * n) (.lane n) 0 0)
    else mbLoad n kh (loadSlot n slot 0 kh
      (withContext (rawContext n entry false kh (BitVec.ofNat 64 (unsealValue n s)) (s.reg (laneBase n + 0x20) 0)) s)) := by
  simp only [mailboxLoad, hplace, reduceCtorEq, and_false, hhit, hgen, ne_eq, not_true_eq_false, hidle, hctx, Option.isSome_none, Bool.true_eq_false,
    Bool.false_eq_true, if_false]
  rfl
theorem openSeal_undrawn (hdrawn : takeUnbound kh s = (none, s)) : mailboxLoad n slot .openSeal entry kh s = mbResult n 5 s := by
  simp [mailboxLoad, hplace, hhit, hgen, hidle, hctx, hdrawn]
theorem openSeal_value {v : Nat} {t : State} (hdrawn : takeUnbound kh s = (some v, t)) (hlt : v < 2 ^ 48 - 1) :
    mailboxLoad n slot .openSeal entry kh s = mbLoad n kh (loadSlot n slot 0 kh
      (withContext (rawContext n entry true kh (BitVec.ofNat 64 v) (t.ktab.record (khIndex kh)).fixed) t)) := by
  simp only [mailboxLoad, hplace, reduceCtorEq, and_false, hhit, hgen, ne_eq, not_true_eq_false, hidle, hctx, Option.isSome_none, Bool.true_eq_false,
    Bool.false_eq_true, if_false, hdrawn]
  exact if_neg (Nat.not_le.mpr hlt)

end Load

/-! ### A load in progress, and the end of a message (R196, R252) -/

theorem mbLoad_eq (n : Nat) (kh : Word) (s : State) : mbLoad n kh s =
    holdLoads (s.setLane n (fun l => { l with mbRun := true, mbDone := false, mbResult := 0, mbIndex := some (khIndex kh) })) := by
  simp [mbLoad, mbResult, State.setLane, List.modify_modify_eq, Function.comp_def]
theorem lane_mbLoad {n : Nat} {s : State} (hn : n < s.lanes.lanes.length) (kh : Word) :
    (mbLoad n kh s).lane n = { s.lane n with mbRun := true, mbDone := false, mbResult := 0, mbIndex := some (khIndex kh) } := by
  rw [mbLoad_eq]
  exact lane_setLane_same s n _ hn

/-- The lanes' loads in progress name what the lanes hold. -/
theorem mem_named {n i : Nat} {s : State} (hn : n < s.lanes.lanes.length) (hi : (s.lane n).mbIndex = some i) :
    i ∈ s.lanes.lanes.filterMap (fun (l : Lane) => l.mbIndex) := by
  have hlane : s.lane n = s.lanes.lanes[n] := by simp [State.lane, hn]
  exact List.mem_filterMap.mpr ⟨s.lanes.lanes[n], List.getElem_mem hn, hlane ▸ hi⟩
theorem holdEntries_held {k : Ktab} {named : List Nat} {e : CacheEntry} (he : e ∈ (k.holdEntries named).cache) : e.held = named.contains e.index := by
  obtain ⟨d, -, rfl⟩ := List.mem_map.mp he
  rfl
theorem mbLoad_held {n : Nat} {kh : Word} {s : State} {e : CacheEntry} (hn : n < s.lanes.lanes.length) (he : e ∈ (mbLoad n kh s).ktab.cache)
    (hindex : e.index = khIndex kh) : e.held = true := by
  rw [mbLoad_eq] at he
  rw [holdEntries_held he, hindex]
  exact List.contains_iff_mem.mpr (mem_named (by simpa using hn) (by rw [lane_setLane_same s n _ hn]))

/-! ### CLEAR (R23, R251) -/

/-- A stream without the GHASH state of a key in use for it. -/
def forgotten (n : Nat) (k : SlotKey) (x : Stream) : Stream :=
  if x.lane = n ∧ x.handle = k.handle ∧ x.state = .run then { x with ghash := 0, part := [] } else x
/-- The GHASH state of a key gone from the stream that it is in use for. -/
def forgetGhash (n : Nat) (k : SlotKey) (s : State) : State :=
  { s with lanes := { s.lanes with streams := s.lanes.streams.map (forgotten n k) } }
/-- A slot emptied, and with it the GHASH state of its key. -/
def emptySlot (n slot : Nat) (s : State) : State :=
  (match (s.lane n).slot slot with | some k => forgetGhash n k s | none => s).setLane n (fun l => l.setSlot slot none)
/-- The context in an entry given up: its stream ends. -/
def releaseEntry (n entry : Nat) (s : State) : State :=
  match contextAt s n entry with
  | some x => if x.handle = 0 then { s with lanes := { s.lanes with streams := s.lanes.streams.erase x } } else endStream x.handle s
  | none => s

section Clear
variable {n slot entry : Nat} {release : Bool} {kh : Word} {s : State}

theorem exec_clear (hn : n < 4) (hentry : entry < 64) :
    exec (.clear n slot release entry kh) s = .next (finish (mailboxClear n slot release entry kh (s.setReg (laneBase n + 0x14) kh))) := by
  change Host.Outcome.next (finish (mailboxClear n slot release (entry % 64) kh (if n < 4 then _ else _))) = _
  rw [Nat.mod_eq_of_lt hentry, if_pos hn]

theorem mailboxClear_noLane (hn : 4 ≤ n) : mailboxClear n slot release entry kh s = s.raise 64 := if_pos (.inl hn)

variable (hplace : ¬ (4 ≤ n ∨ 2 ≤ slot))
include hplace

theorem mailboxClear_wrongGeneration (hgen : wrongGeneration s kh = true) : mailboxClear n slot release entry kh s = mbResult n 3 (s.raise 64) := by
  simp only [mailboxClear, hplace, hgen, if_false, if_true]
theorem mailboxClear_keep (hgen : wrongGeneration s kh = false) :
    mailboxClear n slot false entry kh s = mbResult n 0 (emptySlot n slot s) := by
  simp only [mailboxClear, hplace, hgen, if_false, Bool.false_eq_true]
  rfl
theorem mailboxClear_release (hgen : wrongGeneration s kh = false) :
    mailboxClear n slot true entry kh s = mbResult n 0 (releaseEntry n entry (emptySlot n slot s)) := by
  simp only [mailboxClear, hplace, hgen, if_false, if_true, Bool.false_eq_true]
  rfl

end Clear

/-- Emptying a slot changes the lane, and forgets GHASH state at most. -/
theorem emptySlot_cases (n slot : Nat) (s : State) : emptySlot n slot s = s.setLane n (fun l => l.setSlot slot none) ∨
    ∃ k, emptySlot n slot s = (forgetGhash n k s).setLane n (fun l => l.setSlot slot none) := by
  unfold emptySlot
  cases (s.lane n).slot slot with
  | none => exact .inl rfl
  | some k => exact .inr ⟨k, rfl⟩
@[simp] theorem emptySlot_mem (n slot : Nat) (s : State) : (emptySlot n slot s).mem = s.mem := by
  rcases emptySlot_cases n slot s with h | ⟨k, h⟩ <;> rw [h] <;> rfl
@[simp] theorem emptySlot_ktab (n slot : Nat) (s : State) : (emptySlot n slot s).ktab = s.ktab := by
  rcases emptySlot_cases n slot s with h | ⟨k, h⟩ <;> rw [h] <;> rfl
theorem slot_emptySlot (n slot : Nat) (s : State) : ((emptySlot n slot s).lane n).slot slot = none := slot_emptied ..

section Forgotten
variable (n : Nat) (k : SlotKey) (x : Stream)

@[simp] theorem forgotten_handle : (forgotten n k x).handle = x.handle := by unfold forgotten; split <;> rfl
@[simp] theorem forgotten_lane : (forgotten n k x).lane = x.lane := by unfold forgotten; split <;> rfl
@[simp] theorem forgotten_entry : (forgotten n k x).entry = x.entry := by unfold forgotten; split <;> rfl

end Forgotten

theorem emptySlot_handles (n slot : Nat) (s : State) : (emptySlot n slot s).lanes.streams.map (·.handle) = s.lanes.streams.map (·.handle) := by
  rcases emptySlot_cases n slot s with h | ⟨k, h⟩
  · rw [h]; rfl
  · rw [h]; simp [forgetGhash]
/-- The contexts stay where they are. -/
theorem contextAt_emptySlot {n slot entry : Nat} {s : State} {x : Stream} (hctx : contextAt s n entry = some x) :
    ∃ y, contextAt (emptySlot n slot s) n entry = some y ∧ y.handle = x.handle := by
  rcases emptySlot_cases n slot s with h | ⟨k, h⟩
  · rw [h]; exact ⟨x, hctx, rfl⟩
  · have hfind : s.lanes.streams.find? (fun x => x.lane == n && x.entry == some entry) = some x := hctx
    have hsame : ((fun x : Stream => x.lane == n && x.entry == some entry) ∘ forgotten n k) = fun x => x.lane == n && x.entry == some entry := by
      funext y
      simp only [Function.comp_apply, forgotten_lane, forgotten_entry]
    refine ⟨forgotten n k x, ?_, forgotten_handle n k x⟩
    calc contextAt (emptySlot n slot s) n entry
      _ = contextAt (forgetGhash n k s) n entry := by rw [h]; rfl
      _ = (s.lanes.streams.find? ((fun x : Stream => x.lane == n && x.entry == some entry) ∘ forgotten n k)).map (forgotten n k) := List.find?_map ..
      _ = some (forgotten n k x) := by rw [hsame, hfind, Option.map_some]

@[simp] theorem releaseEntry_mem (n entry : Nat) (s : State) : (releaseEntry n entry s).mem = s.mem := by
  unfold releaseEntry
  split
  · split
    · rfl
    · exact endStream_mem ..
  · rfl
@[simp] theorem releaseEntry_ktab (n entry : Nat) (s : State) : (releaseEntry n entry s).ktab = s.ktab := by
  unfold releaseEntry
  split
  · split
    · rfl
    · exact endStream_ktab ..
  · rfl
theorem slot_releaseEntry_none {n m i entry : Nat} {s : State} (hs : (s.lane m).slot i = none) : ((releaseEntry n entry s).lane m).slot i = none := by
  unfold releaseEntry
  split
  · split
    · exact hs
    · exact slot_endStream_none hs _
  · exact hs
theorem stream_releaseEntry {n entry : Nat} {s : State} {x : Stream} (hctx : contextAt s n entry = some x) (hx : x.handle ≠ 0) :
    (releaseEntry n entry s).stream x.handle = none := by
  simp only [releaseEntry, hctx, if_neg hx]
  exact stream_endStream_same ..

/-- Settles O31: the timers by what they find of a lane or stream; each answer of the mailbox by its case, and the message's end. -/
theorem laneUnits : Obligations.LaneUnits := by
  unfold Obligations.LaneUnits
  refine ⟨fun n h x s hx => ?timers, fun n slot entry kh e s hn hslot hentry hkey => ?load, fun n kh s hn hlanes => ?loading,
    fun n slot m entry kh s hn => ?noLane, fun n slot h kh s hn hlanes hslot => ?slot,
    fun n slot entry release kh s hn hslot hgen => ?wrongGeneration,
    fun n slot entry release kh s hn hslot hentry hgen => ?clear, fun n s hrun => ?done⟩
  case timers =>
    intro cleared
    have hh : x.handle = h.toNat := stream_handle hx
    refine ⟨fun hrun hbusy => next_finish (if_pos ⟨hrun, hbusy⟩), fun hrun hidle => ?park1, fun hrun hparked hroom => ?park2,
      fun hawake hrest hne hold hroom => ?expiry⟩
    case park1 => exact next_finish (by simp only [hx, hrun, hidle, and_self, if_true]; exact park1_open hx)
    case park2 => exact next_finish (by simp only [hx, hrun, hparked, hroom, and_self, if_true]; exact park2_open hx)
    case expiry =>
      have hhandle : x.handle ≠ 0 := fun h0 => hne (BitVec.eq_of_toNat_eq (hh.symm.trans h0))
      have hexpired : awake s = true ∧ x.state ≠ .run ∧ x.handle ≠ 0 ∧ 32768 * x.lifetime < idleTime s x := ⟨hawake, hrest, hhandle, hold⟩
      have hend : endStream x.handle s = dropStream x.handle x s := endStream_room (hh ▸ hx) hroom
      refine ⟨recordEnded x 0x7001 (endStream x.handle s), next_finish ?_, ?_, ?_, ?_, ?_, ?_, ?_⟩
      · simp only [hx, if_pos hexpired]
        exact reportStream_expired hhandle _
      · exact hh ▸ stream_endStream_same x.handle s
      all_goals rw [hend]; rfl
  case load =>
    intro u done opens load key iv open_
    have hplace : ¬ (4 ≤ n ∨ 2 ≤ slot) := by omega
    have hload {m : LoadMode} {t : State} (h : mailboxLoad n slot m entry kh u = t) : load m = .next (finish t) :=
      (exec_load hn hentry).trans (next_finish h)
    refine ⟨fun hmiss m => hload (mailboxLoad_missing hplace hkey hmiss), fun hhit =>
      ⟨fun hgen m => hload (mailboxLoad_wrongGeneration hplace hhit hkey hgen), fun hgen => ?_⟩⟩
    refine ⟨fun hbusy m => hload (mailboxLoad_busySlot hplace hhit hgen hkey hbusy), fun hidle =>
      ⟨fun x hctx hkh => ?_, fun x hctx => ⟨?_, ?_⟩, fun hctx => ?_⟩⟩
    · exact hload (reload_context hplace hhit hgen hidle hkey hctx hkh)
    · exact hload (openSeal_inUse hplace hhit hgen hidle hctx)
    · exact hload (openUnseal_inUse hplace hhit hgen hidle hctx)
    · have hunseal := openUnseal_free (s := u) hplace hhit hgen hidle hctx
      exact ⟨hload (reload_noContext hplace hhit hgen hidle hkey hctx), fun hv => hload (hunseal.trans (if_neg (Nat.not_le.mpr hv))),
        fun hv => hload (hunseal.trans (if_pos hv)), fun hdrawn => hload (openSeal_undrawn hplace hhit hgen hidle hctx hdrawn),
        fun v t hdrawn hv => hload (openSeal_value (s := u) hplace hhit hgen hidle hctx hdrawn hv)⟩
  case loading =>
    intro t
    have hlen : n < s.lanes.lanes.length := hlanes ▸ hn
    have hlane := lane_mbLoad hlen kh
    exact ⟨congrArg Lane.mbRun hlane, congrArg Lane.mbDone hlane, congrArg Lane.mbResult hlane, congrArg Lane.mbIndex hlane,
      fun e he hindex => mbLoad_held hlen he hindex, rfl, rfl, rfl⟩
  case noLane =>
    have hout : ¬ n < 4 := Nat.not_lt.mpr hn
    exact ⟨next_finish ((congrArg (mailboxLoad n slot m (entry % 64) kh) (if_neg hout)).trans (mailboxLoad_noLane hn)),
      next_finish ((congrArg (mailboxClear n slot true (entry % 64) kh) (if_neg hout)).trans (mailboxClear_noLane hn))⟩
  case slot =>
    intro t
    have hlen : n < s.lanes.lanes.length := hlanes ▸ hn
    have hlane : t.lane n = (s.lane n).setSlot slot (some ⟨kh, (s.ktab.record (khIndex kh)).dek, h⟩) := by
      change (loadSlot n slot h kh s).lane n = _
      rw [loadSlot_eq]
      exact lane_setLane_same _ n _ hlen
    refine ⟨?_, ?_, fun m hm => lane_setLane_ne _ _ _ _ hm, rfl, rfl⟩
    · rw [hlane]; exact slot_setSlot_same ..
    · rw [hlane]; exact slot_setSlot_other hslot ..
  case wrongGeneration =>
    exact next_finish ((congrArg (mailboxClear n slot release (entry % 64) kh) (if_pos hn)).trans (mailboxClear_wrongGeneration (by omega) hgen))
  case clear =>
    have hplace : ¬ (4 ≤ n ∨ 2 ≤ slot) := by omega
    have hempty (u : State) : ((emptySlot n slot u).lane n).slot slot = none := slot_emptySlot n slot u
    cases release with
    | false =>
      exact ⟨_, (exec_clear hn hentry).trans (next_finish (mailboxClear_keep hplace hgen)), hempty _,
        fun _ => emptySlot_handles .., nofun, emptySlot_mem .., emptySlot_ktab ..⟩
    | true =>
      refine ⟨_, (exec_clear hn hentry).trans (next_finish (mailboxClear_release hplace hgen)), slot_releaseEntry_none (hempty _), nofun, fun x _ hctx hx => ?_,
        by simp, by simp⟩
      obtain ⟨y, hy, hhandle⟩ := contextAt_emptySlot (slot := slot) (s := s.setReg (laneBase n + 0x14) kh) hctx
      exact hhandle ▸ stream_releaseEntry hy (hhandle ▸ hx)
  case done => exact next_finish (if_pos hrun)

end Sys2Proof.LaneUnits
end

section
/-! SUPPORT. Stream commands: an open by the key, the lane and the slot it finds; a command on its way to the lane; the command at the head of a lane, by what the key cache and the stream hold (07_sealing_lanes.md, R218 to R239, R246; 08_manifests_and_custody_journal.md, R264). -/

namespace Sys2Proof.StreamCommands

open Sys2Proof.Machine Sys2Proof.Safety Sys2Proof.Frame Sys2Proof.Acceptance Sys2Proof.AdminCommands Sys2Proof.LaneState

/-! ### From the accepted entry to the stream's command -/

section Accepted
variable {src : Source} {e : Entry} {s t : State} {c : Inflight}

theorem submit_sealOpen (h : Accepted 0x0201 src e s c t) : submit 0x0201 src e s = sealOpen c.key e t := submit_low h (by decide) fun _ => Nat.zero_le _
theorem submit_unsealOpen (h : Accepted 0x0204 src e s c t) : submit 0x0204 src e s = unsealOpen c.key e t := submit_low h (by decide) fun _ => Nat.zero_le _
theorem submit_streamAbort (h : Accepted 0x0207 src e s c t) : submit 0x0207 src e s = streamAbort c.key e t := submit_low h (by decide) fun _ => Nat.zero_le _
theorem submit_streamQuery (h : Accepted 0x0208 src e s c t) : submit 0x0208 src e s = streamQuery c.key src e t := submit_low h (by decide) fun _ => Nat.zero_le _
/-- The commands that a lane carries out. -/
theorem submit_streamCommand {op : BitVec 16} (h : Accepted op src e s c t) (hop : op = 0x0202 ∨ op = 0x0203 ∨ op = 0x0205 ∨ op = 0x0206) :
    submit op src e s = streamCommand c.key e t := by
  rcases hop with rfl | rfl | rfl | rfl <;> exact submit_low h (by decide) fun _ => Nat.zero_le _

end Accepted

/-! ### Opens (R185, R224, R225, R234, R237, R244) -/

theorem withKey_usable {key off : Nat} {kh : Word} {body : State → State} {s t : State} (h : cacheFill kh .ok s = (0, t)) :
    withKey key kh off body s = body t := by
  simp only [withKey, h, if_true]

section Open
variable {key : Nat} {e : Entry} {s t : State} (hlanes : openLanes s ≠ []) (hfence : s.isFenced 5 0 = false) (hlen : e.param 0x10 8 ≤ 67108864)
  (hfill : cacheFill (BitVec.ofNat 32 (e.param 8 4)) .ok s = (0, t))
include hlanes hfence hlen hfill

theorem sealOpen_usable (hlife : e.param 0x18 4 ≤ 2592000) : sealOpen key e s = sealDraw key e t := by
  simp only [sealOpen, List.isEmpty_eq_false_iff.mpr hlanes, hfence, Nat.not_lt.mpr hlen, Nat.not_lt.mpr hlife, Bool.false_eq_true, if_false]
  exact withKey_usable hfill
theorem unsealOpen_usable (hlife : e.param 0x24 4 ≤ 2592000) (hvalue : e.param 0x18 8 < 2 ^ 48 - 1)
    (hfixed : fieldAt (BitVec.ofNat 32 (e.param 0x20 4)) 10 0 = khGen (BitVec.ofNat 32 (e.param 8 4))) : unsealOpen key e s = unsealBind key e t := by
  simp only [unsealOpen, List.isEmpty_eq_false_iff.mpr hlanes, hfence, Nat.not_lt.mpr hlen, Nat.not_lt.mpr hlife, Nat.not_le.mpr hvalue, hfixed, ne_eq, not_true_eq_false,
    Bool.false_eq_true, if_false]
  exact withKey_usable hfill

end Open

section Bind
variable {key lane : Nat} {e : Entry} {s sb : State} {kh : Word} {r : KeyRecord} (hkh : kh = BitVec.ofNat 32 (e.param 8 4))
  (hrecord : r = s.ktab.record (khIndex kh)) (hbind : bindLane s = some (lane, sb))
include hkh hrecord hbind

section Seal
variable (hactive : r.state = .active) (hheld : s.ktab.held r = false) (hroom : s.journal.reserved + s.journal.staged.length < 1048576)
include hactive hheld hroom

theorem sealDraw_busy (hslot : slotFor sb lane 0 = none) : sealDraw key e s = (loadBusy lane s).waitOn key (.slot lane) := by
  subst hkh hrecord
  simp [sealDraw, hactive, hheld, Nat.not_le.mpr hroom, hbind, hslot]
/-- With values enough left in its block the key gives one at once. -/
theorem sealDraw_drawn {k : Ktab} {v : Nat} {u : State} (hslot : (slotFor sb lane 0).isSome = true)
    (hdraw : s.ktab.drawNext (drawEnabled s) s.clock.time kh = (0, k))
    (hleft : reserveAhead { sb with ktab := k } ≤ (k.record (khIndex kh)).invHwm - ((k.entry (khIndex kh)).map (·.next)).getD 0)
    (htake : takeUnbound kh { sb with ktab := k } = (some v, u)) :
    sealDraw key e s = bindStream key lane true kh (BitVec.ofNat 32 (e.param 0xC 4)) (e.param 0x10 8) (e.param 0x18 4) v r.fixed u := by
  subst hkh hrecord
  simp [sealDraw, hactive, hheld, Nat.not_le.mpr hroom, hbind, Option.isSome_iff_ne_none.mp hslot, hdraw, Nat.not_lt.mpr hleft, htake]

end Seal

section Unseal
variable (hshred : r.state ≠ .shredded)
include hshred

theorem unsealBind_busy (hslot : slotFor sb lane 0 = none) : unsealBind key e s = (loadBusy lane s).waitOn key (.slot lane) := by
  subst hkh hrecord
  simp [unsealBind, hshred, hbind, hslot]
theorem unsealBind_bound (hslot : (slotFor sb lane 0).isSome = true) : unsealBind key e s =
    bindStream key lane false kh (BitVec.ofNat 32 (e.param 0xC 4)) (e.param 0x10 8) (e.param 0x24 4) (e.param 0x18 8) (BitVec.ofNat 32 (e.param 0x20 4)) sb := by
  subst hkh hrecord
  simp [unsealBind, hshred, hbind, Option.isSome_iff_ne_none.mp hslot]

end Unseal

end Bind

/-- The stream that an open makes, and the state that holds it. -/
def newStream (c : Inflight) (lane entry : Nat) (isSeal : Bool) (kh seg : Word) (len life iv : Nat) (fixed : Word) (s : State) : Stream where
  handle := nextHandle s 0xFFFE s.lanes.lastHandle
  isSeal := isSeal
  lane := lane
  entry := some entry
  kh := kh
  queue := match c.src with | .queue q => q | _ => 0
  openTag := c.entry.tag
  openSeq := c.entry.seq
  oid := (s.ktab.record (khIndex kh)).oid
  segIdx := seg
  segLen := len
  done := 0
  chunks := []
  tail := []
  ghash := ghashStart (s.ktab.record (khIndex kh)).dek (s.ktab.record (khIndex kh)).oid seg len
  part := []
  iv := BitVec.ofNat 64 iv
  fixed := fixed
  lifetime := if life = 0 then 86400 else life
  idleFrom := s.clock.time
  state := .idle
  restoring := false
/-- A stream more, with its staging reservation. -/
def withStream (x : Stream) (s : State) : State :=
  { s with
    lanes := { s.lanes with streams := s.lanes.streams ++ [x], lastHandle := x.handle }
    journal := { s.journal with reserved := if x.isSeal then s.journal.reserved + 1 else s.journal.reserved } }
/-- A stream's key loaded into the slot it takes, if there is one. -/
def keyLoaded (n h : Nat) (kh : Word) (s : State) : State := match slotFor s n h with | some i => loadSlot n i h kh s | none => s

/-- A load changes the key table unit and a lane at most. -/
theorem keyLoaded_keeps {β : Type} {view : State → β} (hview : ∀ n i h kh s, view (loadSlot n i h kh s) = view s) (n h : Nat) (kh : Word) (s : State) :
    view (keyLoaded n h kh s) = view s := by
  unfold keyLoaded
  split
  · exact hview ..
  · rfl
@[simp] theorem keyLoaded_streams (n h : Nat) (kh : Word) (s : State) : (keyLoaded n h kh s).lanes.streams = s.lanes.streams :=
  keyLoaded_keeps (view := fun s => s.lanes.streams) loadSlot_streams n h kh s
@[simp] theorem keyLoaded_journal (n h : Nat) (kh : Word) (s : State) : (keyLoaded n h kh s).journal = s.journal := keyLoaded_keeps loadSlot_journal n h kh s
@[simp] theorem keyLoaded_mem (n h : Nat) (kh : Word) (s : State) : (keyLoaded n h kh s).mem = s.mem := keyLoaded_keeps loadSlot_mem n h kh s

/-- An open with an entry free makes its stream, loads the key and answers the handle; only the last value of a key has a delta besides (R203). -/
theorem bindStream_free {key lane i len life v : Nat} {isSeal : Bool} {kh seg fx : Word} {s : State} {c : Inflight}
    (hc : s.command key = some c) (hi : freeEntry s lane = some i) (hv : v ≠ 2 ^ 48 - 2) :
    let x := newStream c lane i isSeal kh seg len life v fx s
    let w := keyLoaded lane x.handle kh (withStream x s)
    bindStream key lane isSeal kh seg len life v fx s =
      complete key (degradeStream w (okay ([(12, x.handle), (14, lane)] ++ if isSeal then [(16, v), (24, fx.toNat)] else []))) w := by
  simp only [bindStream, hc, hi, decide_eq_false hv, Bool.and_false, Bool.false_eq_true, if_false]
  rfl

/-! ### Commands of an open stream (R226, R231, R246) -/

section Command
variable {key : Nat} {e : Entry} {s : State} {x : Stream}

theorem streamCommand_absent (hx : s.stream e.handle.toNat = none) : streamCommand key e s = complete key (endedAnswer s e.handle.toNat) s := by
  simp only [streamCommand, hx]
theorem streamAbort_absent (hx : s.stream e.handle.toNat = none) : streamAbort key e s = complete key (endedAnswer s e.handle.toNat) s := by
  simp only [streamAbort, hx]
theorem endedAnswer_unknown {h : Nat} (hx : s.lanes.ended.find? (fun z => z.handle == h) = none) : endedAnswer s h = invalidHandle 6 := by
  simp only [endedAnswer, hx]

variable (hx : s.stream e.handle.toNat = some x)
include hx

/-- A command of the stream's own kind is steered, one of the other kind refused. -/
theorem streamCommand_open {d : Inflight} (hd : s.command key = some d) : streamCommand key e s =
    if decide (d.op = 0x0202 ∨ d.op = 0x0203) = x.isSeal then steer key x.lane s else complete key (conflict 0) s := by
  simp only [streamCommand, hx, hd, bne_iff_ne, ne_eq, ite_not]
theorem streamAbort_first (hqueue : (s.lane x.lane).queue = []) :
    streamAbort key e s = complete key (degradeStream s (okay [])) (endStream e.handle.toNat s) := by
  simp only [streamAbort, hx, hqueue, List.any_nil, Bool.false_eq_true, if_false, stream_handle hx]
theorem streamQuery_queue (q : Nat) : streamQuery key (.queue q) e s = complete key (degradeStream s (okay [(12, StreamState.code x.state), (13, x.lane),
    (14, if x.isSeal then 0 else 1), (16, x.done), (24, x.lifetime - (if x.state = .run then 0 else (s.clock.time - x.idleFrom).toNat / 32768))])) s := by
  unfold streamQuery
  simp only [Bool.false_eq_true, if_false, hx, false_and]

end Command

/-! ### The command at the head of a lane (R218, R219, R226 to R239, R242) -/

/-- What a store by DMA leaves alone, the stores over a list leave alone. -/
theorem scatter_keeps {β : Type} {view : State → β} (hview : ∀ space a bs s, view (State.dmaBytes s space a bs) = view s) (space : Nat) (l : List (Nat × Nat))
    (bs : List Byte) (s : State) : view (scatter space l bs s) = view s := by
  induction l generalizing bs s with
  | nil => rfl
  | cons p l ih => exact (ih ..).trans (hview ..)

theorem exec_laneCommandComplete {turn : LaneTurn} {s : State} (hrun : lanesRun s = true) (henabled : laneEnabled s turn.lane.val = true) :
    exec (.laneCommandComplete turn) s = .next (finish (laneRun turn.lane.val turn.fill turn.context s)) :=
  next_finish (if_pos (Bool.and_eq_true_iff.mpr ⟨hrun, henabled⟩))

section Head
variable {n key h : Nat} {fill : Verify} {context : Bool} {s : State} {d : Inflight} {x : Stream} (hhead : (s.lane n).queue.head? = some key)
  (hcmd : s.command key = some d) (hh : d.entry.handle.toNat = h) (hx : s.stream h = some x)
include hhead hcmd hh hx

theorem laneRun_abort (hop : d.op = 0x0207) :
    laneRun n fill context s = popLane n (complete key (degradeStream s (okay [])) (endStream h s)) := by
  simp only [laneRun, hhead, hcmd, hh, hx, if_pos hop]

variable (hop : d.op ≠ 0x0207)
include hop

theorem laneRun_contextLost (hlost : x.restoring = true ∧ context = false) : laneRun n fill context s =
    popLane n ((complete key (answer 0x6001 []) (endStream h s)).raiseAt (86 + 8 * n) (.lane n) 0 0) := by
  simp only [laneRun, hhead, hcmd, hh, hx, if_neg hop, if_pos hlost, contextLost, stream_handle hx]

variable (hfound : ¬ (x.restoring = true ∧ context = false))
include hfound

theorem laneRun_unusable {r : Nat} {t : State} (hr : r ≠ 0) (hfill : cacheFill x.kh fill s = (r, t)) : laneRun n fill context s =
    (if d.op = 0x0202 ∨ d.op = 0x0205 then restStream n h else resumeIdle n h)
      (popLane n (complete key (ktabAnswer x.kh 6 r) t)) := by
  simp only [laneRun, hhead, hcmd, hh, hx, if_neg hop, if_neg hfound, hfill, if_pos hr]

variable {i : Nat} {t : State} (hfill : cacheFill x.kh fill s = (0, t)) (hslot : slotFor t n h = some i)
include hfill hslot

theorem laneRun_data (hdata : d.op = 0x0202 ∨ d.op = 0x0205) :
    let u := loadSlot n i h x.kh t
    laneRun n fill context s = restStream n h (popLane n (laneData key d.entry x (u.ktab.record (khIndex x.kh)).dek u)) := by
  simp only [laneRun, hhead, hcmd, hh, hx, if_neg hop, if_neg hfound, hfill, hslot, ne_eq, not_true_eq_false, if_false, if_pos hdata]
theorem laneRun_close (hclose : ¬ (d.op = 0x0202 ∨ d.op = 0x0205)) :
    let u := loadSlot n i h x.kh t
    laneRun n fill context s = resumeIdle n h (popLane n (laneClose key d.entry x (u.ktab.record (khIndex x.kh)).dek u)) := by
  simp only [laneRun, hhead, hcmd, hh, hx, if_neg hop, if_neg hfound, hfill, hslot, ne_eq, not_true_eq_false, if_false, if_neg hclose]

end Head

/-- What a DATA command makes of its input (R232). -/
def dataOut (dek : Hash) (x : Stream) (ins : List (Nat × Nat)) (s : State) : List Byte :=
  gcmCrypt dek (ivOf x.fixed x.iv) x.done (gather s (4 + x.queue / 64) ins)
/-- The ciphertext of a DATA command: what it writes when it seals, what it reads when it unseals. -/
def dataCipher (dek : Hash) (x : Stream) (ins : List (Nat × Nat)) (s : State) : List Byte :=
  if x.isSeal then dataOut dek x ins s else gather s (4 + x.queue / 64) ins
/-- A stream's context `y` where that of `x` has taken in `len` bytes of ciphertext (R232, R238). -/
def advanced (dek : Hash) (x : Stream) (len : Nat) (ct : List Byte) (y : Stream) : Stream :=
  { y with
    done := x.done + len, ghash := (ct.foldl (ghashByte dek) (x.ghash, x.part)).1, part := (ct.foldl (ghashByte dek) (x.ghash, x.part)).2
    chunks := (ct.foldl chunkByte (x.chunks, x.tail)).1, tail := (ct.foldl chunkByte (x.chunks, x.tail)).2 }
/-- The state after a DATA command: its output stored, its stream advanced, its bytes counted. -/
def dataDone (dek : Hash) (x : Stream) (len : Nat) (ins outs : List (Nat × Nat)) (s : State) : State :=
  ((scatter (4 + x.queue / 64) outs (dataOut dek x ins s) s).setStream x.handle (advanced dek x len (dataCipher dek x ins s))).setLane x.lane
    (fun l => { l with bytes := (l.bytes + len) % 2 ^ 64 })

/-- A DATA command with sound lists does its work and answers the bytes and chunks done. -/
theorem laneData_sound {key : Nat} {e : Entry} {x : Stream} {dek : Hash} {s : State} {ins outs : List (Nat × Nat)} (hpos : 0 < e.param 8 4)
    (hmax : e.param 8 4 ≤ 16777216) (hleft : e.param 8 4 ≤ x.segLen - x.done) (hins : scatterList s (4 + x.queue / 64) (e.param 8 4) e.addr0 = .ok ins)
    (houts : scatterList s (4 + x.queue / 64) (e.param 8 4) e.addr1 = .ok outs) :
    let w := dataDone dek x (e.param 8 4) ins outs s
    let y := advanced dek x (e.param 8 4) (dataCipher dek x ins s) x
    laneData key e x dek s = complete key (degradeStream w (okay [(12, y.done), (20, y.chunks.length)])) w := by
  simp only [laneData, if_neg (Nat.ne_of_gt hpos), Nat.not_lt.mpr hmax, Nat.not_lt.mpr hleft, hins, houts, if_false]
  rfl

section DataDone
variable (dek : Hash) (x : Stream) (len : Nat) (ins outs : List (Nat × Nat)) (s : State)

theorem dataDone_journal : (dataDone dek x len ins outs s).journal = s.journal := scatter_keeps (view := State.journal) (fun _ _ _ _ => rfl) ..
theorem dataDone_cqe : (dataDone dek x len ins outs s).cqe = s.cqe := scatter_keeps (view := State.cqe) (fun _ _ _ _ => rfl) ..
theorem dataDone_stream {y : Stream} (hy : s.stream x.handle = some y) :
    (dataDone dek x len ins outs s).stream x.handle = some (advanced dek x len (dataCipher dek x ins s) y) :=
  stream_setStream_same (f := advanced dek x len (dataCipher dek x ins s)) (fun _ => rfl)
    ((scatter_keeps (view := fun u => u.stream x.handle) (fun _ _ _ _ => rfl) ..).trans hy)

end DataDone

/-- The chunk hashes of a stream at its close, the chunk in progress with them (R238, R239). -/
def allChunks (x : Stream) : List Hash := if x.tail.isEmpty then x.chunks else x.chunks ++ [Config.sha3 x.tail]

section Close
variable {key : Nat} {e : Entry} {x : Stream} {dek : Hash} {s : State} (hdone : x.done = x.segLen) (haddr : e.addr1 = 0)
include hdone haddr

theorem laneClose_seal (hseal : x.isSeal = true) :
    let w := endStream x.handle (passClose x (allChunks x) (gcmTagOf dek x) s)
    laneClose key e x dek s = complete key (degradeStream w ⟨0, gcmTagOf dek x, false, false,
      [.stage x.oid ⟨x.segIdx, x.kh, BitVec.ofNat 64 x.segLen, x.iv, x.fixed, gcmTagOf dek x, s.clock.time, allChunks x⟩]⟩) w := by
  simp only [laneClose, hdone, haddr, hseal, ne_eq, not_true_eq_false, if_false, if_true]
  rfl
theorem laneClose_verified (hseal : x.isSeal = false) (htag : (gcmTagOf dek x).toNat = e.param 8 16) :
    let w := endStream x.handle (passClose x (allChunks x) (gcmTagOf dek x) s)
    laneClose key e x dek s = complete key (degradeStream w (okay [(12, (allChunks x).length)])) w := by
  simp only [laneClose, hdone, haddr, hseal, ne_eq, not_true_eq_false, if_false, if_true, Bool.false_eq_true, if_pos htag]
  rfl
theorem laneClose_mismatch (hseal : x.isSeal = false) (htag : (gcmTagOf dek x).toNat ≠ e.param 8 16) :
    let w := endStream x.handle (passClose x (allChunks x) (gcmTagOf dek x) s)
    laneClose key e x dek s = complete key { answer 0x5001 [] with untrusted := true }
      ((w.setLane x.lane (fun l => { l with authFail := satInc 16 l.authFail })).raiseAt (85 + 8 * x.lane) (.lane x.lane) 0 0) := by
  simp only [laneClose, hdone, haddr, hseal, ne_eq, not_true_eq_false, if_false, if_true, Bool.false_eq_true, if_neg htag]
  rfl

end Close

/-- Settles O58: an open by key, lane and slot; a stream's command by its kind; the lane's work by what it finds. -/
theorem yomirStreams : Obligations.YomirStreams := by
  unfold Obligations.YomirStreams
  refine ⟨fun src e s t c => ?commands, fun key lane isSeal kh seg len life v fx u c i hc hi hv => ?bind,
    fun turn key h s d x => ?lane⟩
  case commands =>
    intro done kh seg h
    refine ⟨fun hlanes hfence hlen t' lane sb hfill hbind => ?opens,
      fun x hx => ⟨fun d hd hop => ?steered, fun hacc hqueue => ?abort, ?query⟩,
      fun hx => ⟨fun hacc => ?_, fun hacc => ?_, fun hacc => ?_, endedAnswer_unknown⟩⟩
    case opens =>
      intro r openable sound
      have hseal {u : State} (hacc : Accepted 0x0201 src e s c t) (hlife : e.param 0x18 4 ≤ 2592000) (h : sealDraw c.key e t' = u) :
          exec (.sealOpen src e) s = .next (finish u) :=
        next_finish ((submit_sealOpen hacc).trans ((sealOpen_usable hlanes hfence hlen hfill hlife).trans h))
      have hunseal {u : State} (hacc : Accepted 0x0204 src e s c t) (hsound : sound)
          (h : (t'.ktab.record (khIndex kh)).state ≠ .shredded → unsealBind c.key e t' = u) : exec (.unsealOpen src e) s = .next (finish u) := by
        obtain ⟨hlife, hvalue, hfixed, hshred⟩ := hsound
        exact next_finish ((submit_unsealOpen hacc).trans ((unsealOpen_usable hlanes hfence hlen hfill hlife hvalue hfixed).trans (h hshred)))
      refine ⟨?drawn, ?drawBusy, ?bound, ?bindBusy⟩
      case drawn =>
        rintro k v u hacc ⟨hlife, hactive, hheld, hroom⟩ hslot hdraw hleft htake
        exact hseal hacc hlife (sealDraw_drawn rfl rfl hbind hactive hheld hroom hslot hdraw hleft htake)
      case drawBusy =>
        rintro hacc ⟨hlife, hactive, hheld, hroom⟩ hslot
        exact hseal hacc hlife (sealDraw_busy rfl rfl hbind hactive hheld hroom hslot)
      case bound => exact fun hacc hsound hslot => hunseal hacc hsound fun hshred => unsealBind_bound rfl rfl hbind hshred hslot
      case bindBusy => exact fun hacc hsound hslot => hunseal hacc hsound fun hshred => unsealBind_busy rfl rfl hbind hshred hslot
    case steered =>
      have hcommand {op : BitVec 16} (hacc : Accepted op src e s c t) (hlane : op = 0x0202 ∨ op = 0x0203 ∨ op = 0x0205 ∨ op = 0x0206) :
          submit op src e s = if decide (op = 0x0202 ∨ op = 0x0203) = x.isSeal then steer c.key x.lane t else complete c.key (conflict 0) t := by
        obtain ⟨hcop, -, -⟩ := accepted_command hacc
        rw [submit_streamCommand hacc hlane, streamCommand_open hx hd, hop, hcop]
      exact ⟨fun hacc hkind => next_finish ((hcommand hacc (by decide)).trans (if_pos hkind.symm)),
        fun hacc hkind => next_finish ((hcommand hacc (by decide)).trans (if_pos hkind.symm)),
        fun hacc hkind => next_finish ((hcommand hacc (by decide)).trans (if_pos hkind.symm)),
        fun hacc hkind => next_finish ((hcommand hacc (by decide)).trans (if_pos hkind.symm)),
        fun hacc hkind => next_finish ((hcommand hacc (by decide)).trans (if_neg (by simp [hkind])))⟩
    case abort => exact next_finish ((submit_streamAbort hacc).trans (streamAbort_first hx hqueue))
    case query =>
      rintro q rfl hacc
      exact next_finish ((submit_streamQuery hacc).trans (streamQuery_queue hx q))
    · exact next_finish ((submit_streamCommand hacc (by decide)).trans (streamCommand_absent hx))
    · exact next_finish ((submit_streamCommand hacc (by decide)).trans (streamCommand_absent hx))
    · exact next_finish ((submit_streamAbort hacc).trans (streamAbort_absent hx))
  case bind =>
    exact ⟨keyLoaded lane _ kh (withStream (newStream c lane i isSeal kh seg len life v fx u) u), newStream c lane i isSeal kh seg len life v fx u,
      bindStream_free hc hi hv, by simp [withStream], rfl, rfl, rfl, rfl, rfl, rfl, rfl, rfl, rfl, rfl, rfl, rfl, rfl, by simp [withStream],
      by cases isSeal <;> simp [withStream, newStream], by simp [withStream]⟩
  case lane =>
    intro n hrun henabled hhead hcmd hh hx hlane e
    obtain rfl : x.handle = h := stream_handle hx
    have hexec {t : State} (h : laneRun n turn.fill turn.context s = t) : exec (.laneCommandComplete turn) s = .next (finish t) :=
      (exec_laneCommandComplete hrun henabled).trans (next_finish h)
    refine ⟨fun hop => hexec (laneRun_abort hhead hcmd hh hx hop), fun hop hrest hctx => hexec (laneRun_contextLost hhead hcmd hh hx hop ⟨hrest, hctx⟩),
      fun hop hfound => ⟨fun r s1 hr hfill => ⟨_, hexec (laneRun_unusable hhead hcmd hh hx hop hfound hr hfill), rfl⟩, fun i s1 hfill hslot => ?_⟩⟩
    intro u dek port len closes chunks
    have hdata (h : d.op = 0x0202 ∨ d.op = 0x0205) {t : State} (ht : laneData key e x dek u = t) :
        exec (.laneCommandComplete turn) s = .next (finish (restStream n x.handle (popLane n t))) :=
      hexec (ht ▸ laneRun_data hhead hcmd hh hx hop hfound hfill hslot h)
    have hclose (h : ¬ (d.op = 0x0202 ∨ d.op = 0x0205)) {t : State} (ht : laneClose key e x dek u = t) : exec (.laneCommandComplete turn) s = closes t :=
      hexec (ht ▸ laneRun_close hhead hcmd hh hx hop hfound hfill hslot h)
    obtain ⟨k, rfl⟩ := cacheFill_usable hfill
    refine ⟨fun ins outs hop hpos hmax hleft hins houts => ?data, fun g hop hkind hdone haddr hg => ?sealed,
      fun hop hkind hdone haddr => ⟨fun htag => ?verified, fun htag => ?mismatch⟩⟩
    case data =>
      have hkind : d.op = 0x0202 ∨ d.op = 0x0205 := by
        rw [hop]
        cases x.isSeal
        · exact .inr rfl
        · exact .inl rfl
      exact ⟨_, _, hdata hkind (laneData_sound hpos hmax hleft hins houts), rfl,
        ⟨_, dataDone_stream dek x len ins outs u hx, rfl, rfl, rfl, rfl, rfl⟩,
        dataDone_journal .., dataDone_cqe ..⟩
    case sealed =>
      subst hg
      exact hclose (by rw [hop]; decide) (laneClose_seal hdone haddr hkind)
    case verified => exact hclose (by rw [hop]; decide) (laneClose_verified hdone haddr hkind htag)
    case mismatch =>
      exact ⟨_, hclose (by rw [hop]; decide) (laneClose_mismatch hdone haddr hkind htag), by simp [passClose, u],
        by simp [State.raiseAt, State.report, passClose, u]⟩

end Sys2Proof.StreamCommands
end

section
/-! SUPPORT. The vault engine: its operand registers, each operation by its operands, the start and the end of an operation (09_vault_kiln_lifecycle.md, R291 to R293, R320, R321). -/

namespace Sys2Proof.EngineOps

open Sys2Proof.Machine Sys2Proof.Frame

/-! ### The operand registers (R320) -/

/-- VAULT_ENG_SRC, _DST and _LEN written for a command. -/
def operandsSet (c : EngCmd) (s : State) : State :=
  ((s.setReg (vaultBase + 0x14) (c.src &&& 0xFFFFFFF8)).setReg (vaultBase + 0x18) (c.dst &&& 0xFFFFFFF8)).setReg (vaultBase + 0x1C)
    (BitVec.ofNat 32 (c.inLen + c.outLen * 65536))

/-- The source operand: the address is a multiple of 8 (R320). -/
def srcOf (c : EngCmd) : Nat := (c.src &&& 0xFFFFFFF8).toNat
/-- The destination operand, a multiple of 8 as well. -/
def dstOf (c : EngCmd) : Nat := (c.dst &&& 0xFFFFFFF8).toNat

/-- Two lengths of 11 bits do not meet in VAULT_ENG_LEN. -/
theorem put32_lengths {m n : Nat} (hm : m < 2048) (hn : n < 2048) :
    put32 0 (m % 2048) ||| put32 16 (n % 2048) = BitVec.ofNat 32 (m + n * 65536) := by
  have hor : m ||| n <<< 16 = m + n * 65536 := by
    rw [Nat.or_comm, ← Nat.shiftLeft_add_eq_or_of_lt (show m < 2 ^ 16 by omega), Nat.shiftLeft_eq, Nat.add_comm]
  rw [Nat.mod_eq_of_lt hm, Nat.mod_eq_of_lt hn, put32, put32, Nat.shiftLeft_zero, ← BitVec.ofNat_or, hor]
/-- The input length reads back from VAULT_ENG_LEN. -/
theorem fieldAt_inLen {m : Nat} (hm : m < 2048) (n : Nat) : fieldAt (BitVec.ofNat 32 (m + n * 65536)) 10 0 = m := by
  simp only [fieldAt, BitVec.toNat_ofNat, Nat.shiftRight_eq_div_pow]
  omega
/-- So does the output length. -/
theorem fieldAt_outLen {m n : Nat} (hm : m < 2048) (hn : n < 2048) : fieldAt (BitVec.ofNat 32 (m + n * 65536)) 26 16 = n := by
  simp only [fieldAt, BitVec.toNat_ofNat, Nat.shiftRight_eq_div_pow]
  omega

section Operands
variable (c : EngCmd) (s : State)

@[simp] theorem operandsSet_src (r : Word) : ((operandsSet c s).reg (vaultBase + 0x14) r).toNat = srcOf c := by simp [operandsSet, srcOf]
@[simp] theorem operandsSet_dst (r : Word) : ((operandsSet c s).reg (vaultBase + 0x18) r).toNat = dstOf c := by simp [operandsSet, dstOf]
@[simp] theorem operandsSet_len (r : Word) : (operandsSet c s).reg (vaultBase + 0x1C) r = BitVec.ofNat 32 (c.inLen + c.outLen * 65536) := by
  simp [operandsSet]
@[simp] theorem operandsSet_ctl (r : Word) : (operandsSet c s).reg (vaultBase + 8) r = s.reg (vaultBase + 8) r := by simp [operandsSet]
@[simp] theorem operandsSet_vault : (operandsSet c s).vault = s.vault := rfl
@[simp] theorem operandsSet_vslot (n : Nat) : (operandsSet c s).vslot n = s.vslot n := rfl
@[simp] theorem operandsSet_readBytes (space a n : Nat) : (operandsSet c s).readBytes space a n = s.readBytes space a n := rfl
/-- No operand register is a word of VAULT_STAG. -/
@[simp] theorem operandsSet_pageTagged (p : Nat) : pageTagged (operandsSet c s) p = pageTagged s p := by
  have hother (k : Nat) (hk : k < 0x100) : vaultBase + 0x100 + 4 * (p / 32) ≠ vaultBase + k := by omega
  simp [pageTagged, operandsSet, hother]
@[simp] theorem operandsSet_secretRange (a n : Nat) : secretRange (operandsSet c s) a n = secretRange s a n := by
  simp only [secretRange, operandsSet_pageTagged]

end Operands

/-! ### An operation by its operands (R291 to R293) -/

/-- The source operand's bytes. -/
def inputOf (c : EngCmd) (s : State) : List Byte := s.readBytes 0 (srcOf c) c.inLen
/-- The key operand names a key. -/
def KeyIs (c : EngCmd) (s : State) (key : Hash) : Prop := (if c.kek then s.vault.kek else s.vslot c.kslot) = some key
/-- The slot lock holds the destination slot (R293). -/
def SlotLocked (c : EngCmd) (s : State) : Prop := bitAt (s.reg (vaultBase + 8) 0) 1 = true ∧ c.dslot < 8
/-- The operation of a command on its operands, and whether source 123 is raised. -/
def ran (op : Nat) (c : EngCmd) (s : State) : EngRun × Bool := engRun op c.kslot c.kek c.dslot c.dsel (operandsSet c s)

section Operations
variable {c : EngCmd} {s : State} {key : Hash}

theorem ran_wrap_badLength (hin : c.inLen < 2048) (hsel : c.dsel = false) (hlen : engLengthOk 1 c.inLen 0 = false) :
    ran 1 c s = (⟨1, none, none⟩, false) := by
  have hbad (n : Nat) : engLengthOk 1 c.inLen n = false := hlen
  simp [ran, engRun, fieldAt_inLen hin, hsel, hbad]

theorem ran_wrap_sram (hin : c.inLen < 2048) (hkey : KeyIs c s key) (hsel : c.dsel = false) (hlen : engLengthOk 1 c.inLen 0 = true) :
    ran 1 c s = (⟨0, some (dstOf c, Config.kwWrap key (inputOf c s)), none⟩, false) := by
  have hok (n : Nat) : engLengthOk 1 c.inLen n = true := hlen
  unfold KeyIs at hkey
  simp [ran, engRun, fieldAt_inLen hin, hsel, hok, hkey, inputOf]

/-- A slot as the wrapped key is 32 bytes, whatever the length operand says. -/
theorem ran_wrap_slot (hkey : KeyIs c s key) (hsel : c.dsel = true) :
    ran 1 c s = (⟨0, some (dstOf c, Config.kwWrap key (slotBytes (s.vslot c.dslot))), none⟩, false) := by
  have hok (n : Nat) : engLengthOk 1 32 n = true := rfl
  unfold KeyIs at hkey
  simp [ran, engRun, hsel, hok, hkey]

theorem ran_cmac (hin : c.inLen < 2048) (hkey : KeyIs c s key) (hlen : engLengthOk 4 c.inLen 0 = true) :
    ran 4 c s = (⟨0, some (dstOf c, leBytes 16 (Config.cmac key (inputOf c s)).toNat), none⟩, false) := by
  have hok (n : Nat) : engLengthOk 4 c.inLen n = true := hlen
  unfold KeyIs at hkey
  simp [ran, engRun, fieldAt_inLen hin, hok, hkey, inputOf]

section Unwrap
variable (hin : c.inLen < 2048) (hlen : engLengthOk 2 c.inLen 0 = true)
include hin hlen

theorem ran_unwrap_untagged (hsel : c.dsel = false) (htag : secretRange s (dstOf c) (c.inLen - 8) = false) :
    ran 2 c s = (⟨6, none, none⟩, false) := by
  have hok (n : Nat) : engLengthOk 2 c.inLen n = true := hlen
  simp [ran, engRun, fieldAt_inLen hin, hok, hsel, htag]

theorem ran_unwrap_sram {o : List Byte} (hkey : KeyIs c s key) (hsel : c.dsel = false) (htag : secretRange s (dstOf c) (c.inLen - 8) = true)
    (ho : Config.kwUnwrap key (inputOf c s) = some o) : ran 2 c s = (⟨0, some (dstOf c, o), none⟩, false) := by
  have hok (n : Nat) : engLengthOk 2 c.inLen n = true := hlen
  unfold KeyIs at hkey
  unfold inputOf at ho
  simp [ran, engRun, fieldAt_inLen hin, hok, hsel, htag, hkey, ho]

theorem ran_unwrap_failed (hkey : KeyIs c s key) (hsel : c.dsel = false) (htag : secretRange s (dstOf c) (c.inLen - 8) = true)
    (ho : Config.kwUnwrap key (inputOf c s) = none) : ran 2 c s = (⟨2, none, none⟩, false) := by
  have hok (n : Nat) : engLengthOk 2 c.inLen n = true := hlen
  unfold KeyIs at hkey
  unfold inputOf at ho
  simp [ran, engRun, fieldAt_inLen hin, hok, hsel, htag, hkey, ho]

theorem ran_unwrap_slot {o : List Byte} (hkey : KeyIs c s key) (hsel : c.dsel = true) (hfree : ¬ SlotLocked c s)
    (ho : Config.kwUnwrap key (inputOf c s) = some o) :
    ran 2 c s = (⟨0, none, some (c.dslot, some (BitVec.ofNat 256 (leNat o)))⟩, false) := by
  have hok (n : Nat) : engLengthOk 2 c.inLen n = true := hlen
  unfold KeyIs at hkey
  unfold inputOf at ho
  simpa [ran, engRun, fieldAt_inLen hin, hok, hsel, hkey, ho, SlotLocked] using hfree

end Unwrap

section Kdf
variable (hin : c.inLen < 2048) (hout : c.outLen < 2048) (hkey : KeyIs c s key) (hlen : engLengthOk 3 c.inLen c.outLen = true)
include hin hout hkey hlen

theorem ran_kdf_sram (hsel : c.dsel = false) (htag : secretRange s (dstOf c) c.outLen = true) :
    ran 3 c s = (⟨0, some (dstOf c, kdf key (inputOf c s) c.outLen), none⟩, false) := by
  unfold KeyIs at hkey
  simp [ran, engRun, fieldAt_inLen hin, fieldAt_outLen hin hout, hlen, hsel, htag, hkey, inputOf]

theorem ran_kdf_slot (hsel : c.dsel = true) (hfree : ¬ SlotLocked c s) :
    ran 3 c s = (⟨0, none, some (c.dslot, some (BitVec.ofNat 256 (leNat (kdf key (inputOf c s) c.outLen))))⟩, false) := by
  unfold KeyIs at hkey
  simpa [ran, engRun, fieldAt_inLen hin, fieldAt_outLen hin hout, hlen, hsel, hkey, inputOf, SlotLocked] using hfree

end Kdf

theorem engRun_clear {n : Nat} (hfree : bitAt (s.reg (vaultBase + 8) 0) 1 = false ∨ 8 ≤ n) :
    engRun 5 0 false n true s = (⟨0, none, some (n, none)⟩, false) := by
  have hgo : ¬ (bitAt (s.reg (vaultBase + 8) 0) 1 = true ∧ n < 8) := fun ⟨hlock, hn⟩ =>
    hfree.elim (fun h => Bool.false_ne_true (h.symm.trans hlock)) (fun h => Nat.not_lt.mpr h hn)
  simpa [engRun] using hgo

theorem engRun_clear_locked {n : Nat} (hlock : bitAt (s.reg (vaultBase + 8) 0) 1 = true) (hn : n < 8) :
    engRun 5 0 false n true s = (⟨4, none, none⟩, true) := by
  simpa [engRun, Nat.not_le.mpr hn] using hlock

end Operations

/-! ### The start and the end of an operation (R320, R321) -/

/-- The engine runs. -/
def running (r : EngRun) (s : State) : State := { s with vault := { s.vault with run := some r, engDone := false } }

/-- An enabled, idle engine starts; a locked slot raises source 123 (R293). -/
theorem engStart_idle {op kslot dslot : Nat} {kek dsel raises : Bool} {r : EngRun} {s : State} (hon : bitAt (s.reg (vaultBase + 8) 0) 0 = true)
    (hidle : s.vault.run = none) (h : engRun op kslot kek dslot dsel s = (r, raises)) :
    engStart op kslot kek dslot dsel s = if raises then (running r s).raise 123 else running r s := by
  have hgo : ¬ (bitAt (s.reg (vaultBase + 8) 0) 0 = false ∨ s.vault.run.isSome = true) := by
    rintro (hoff | hbusy)
    · exact Bool.false_ne_true (hoff.symm.trans hon)
    · simp [hidle] at hbusy
  unfold engStart
  rw [if_neg hgo, h]
  rfl

/-- A command whose operands fit their fields. -/
structure Fits (c : EngCmd) : Prop where
  kslot  : c.kslot < 32
  dslot  : c.dslot < 32
  inLen  : c.inLen < 2048
  outLen : c.outLen < 2048

/-- Such a command writes its registers and starts. -/
theorem engCommand_fits {op : Nat} {c : EngCmd} {r : EngRun} {s : State} (hc : Fits c) (hon : bitAt (s.reg (vaultBase + 8) 0) 0 = true)
    (hidle : s.vault.run = none) (h : ran op c s = (r, false)) : engCommand op c s = running r (operandsSet c s) := by
  have hset : engCommand op c s = engStart op c.kslot c.kek c.dslot c.dsel (operandsSet c s) := by
    unfold engCommand
    rw [Nat.mod_eq_of_lt hc.kslot, Nat.mod_eq_of_lt hc.dslot, put32_lengths hc.inLen hc.outLen]
    rfl
  have henabled : bitAt ((operandsSet c s).reg (vaultBase + 8) 0) 0 = true := by rwa [operandsSet_ctl]
  exact hset.trans (engStart_idle henabled hidle h)

section Ends
variable {r : EngRun} {s : State} (hrun : s.vault.run = some r)

/-- The vault as an operation's end leaves it, but for its slots. -/
def engEnded (r : EngRun) (v : Vault) : Vault := { v with run := none, engDone := true, engRes := r.result }

include hrun

theorem engDone_silent (hm : r.toMem = none) (hs : r.toSlot = none) :
    engDone s = { s with vault := engEnded r s.vault, lines := s.lines ||| bit32 12 true } := by
  simp only [engDone, hrun, hm, hs]
  rfl
theorem engDone_toMem {a : Nat} {bs : List Byte} (hm : r.toMem = some (a, bs)) (hs : r.toSlot = none) :
    engDone s = { s.dmaBytes 0 a bs with vault := engEnded r s.vault, lines := s.lines ||| bit32 12 true } := by
  simp only [engDone, hrun, hm, hs]
  rfl
theorem engDone_toSlot {n : Nat} {k : Option Hash} (hm : r.toMem = none) (hs : r.toSlot = some (n, k)) :
    engDone s = { s with vault := { engEnded r s.vault with slots := s.vault.slots.set n k }, lines := s.lines ||| bit32 12 true } := by
  simp only [engDone, hrun, hm, hs]
  rfl

end Ends

/-- Settles O33: the operations by their operands, CLEAR_SLOT by the lock, the end by where the output goes. -/
theorem vaultEngine : Obligations.VaultEngine := by
  unfold Obligations.VaultEngine
  refine ⟨?operations, ?clear, ?ends⟩
  case operations =>
    intro c key s hon hidle hk hd hin hout hkey u dst input starts locked
    have hstart {op : Nat} {r : EngRun} (h : ran op c s = (r, false)) : .next (finish (engCommand op c s)) = starts r :=
      next_finish (engCommand_fits ⟨hk, hd, hin, hout⟩ hon hidle h)
    refine ⟨fun hsel hlen => hstart (ran_wrap_sram hin hkey hsel hlen), fun hsel => hstart (ran_wrap_slot hkey hsel),
      fun hsel hlen => hstart (ran_wrap_badLength hin hsel hlen), fun hlen => hstart (ran_cmac hin hkey hlen), fun hlen => ?unwrap, fun hlen => ?kdf⟩
    case unwrap =>
      exact ⟨fun hsel htag => ⟨fun _ ho => hstart (ran_unwrap_sram hin hlen hkey hsel htag ho), fun ho => hstart (ran_unwrap_failed hin hlen hkey hsel htag ho)⟩,
        fun hsel htag => hstart (ran_unwrap_untagged hin hlen hsel htag),
        fun hsel hfree _ ho => hstart (ran_unwrap_slot hin hlen hkey hsel hfree ho)⟩
    case kdf =>
      exact ⟨fun hsel htag => hstart (ran_kdf_sram hin hout hkey hlen hsel htag), fun hsel hfree => hstart (ran_kdf_slot hin hout hkey hlen hsel hfree)⟩
  case clear =>
    exact fun n s hon hidle => ⟨fun hfree => next_finish (engStart_idle hon hidle (engRun_clear hfree)),
      fun hlock hn => next_finish (engStart_idle hon hidle (engRun_clear_locked hlock hn))⟩
  case ends =>
    exact fun r s hrun => ⟨fun hm hs => next_finish (engDone_silent hrun hm hs), fun _ _ hm hs => next_finish (engDone_toMem hrun hm hs),
      fun _ _ hm hs => next_finish (engDone_toSlot hrun hm hs)⟩

end Sys2Proof.EngineOps
end

section
/-! SUPPORT. The kiln from its trigger to the end of tier 3: what tier 1 clears and keeps, control SRAM after the page clears of tier 2, the kiln-induced reset; and a quorum session's expiry (09_vault_kiln_lifecycle.md, R301, R305, R310 to R315; 03_power_clocks_reset.md, R85, R88). -/

namespace Sys2Proof.KilnStages

open Sys2Proof.Machine Sys2Proof.Safety Sys2Proof.Frame

/-! ### The trigger and tier 1 (R310, R311, R313) -/

/-- Tier 1 leaves no key in clear. -/
theorem keysCleared_tier1 (s : State) : KeysCleared (tier1 s) := by
  have hlanes : ∀ l ∈ (tier1 s).lanes.lanes, l.slot0 = none ∧ l.slot1 = none ∧ l.parkKey = none := by
    intro l hl
    obtain ⟨_, -, rfl⟩ := List.mem_map.mp hl
    exact ⟨rfl, rfl, rfl⟩
  exact ⟨rfl, fun _ => List.eq_of_mem_replicate, rfl, rfl, hlanes⟩

/-- A kiln of trigger `n` begins in `s`: `t` has tier 1 behind it, its registers say so, and memory, journal, commands, flash and cores are those of `s`. -/
def KilnFired (s : State) (n : Nat) (t : State) : Prop :=
  KeysCleared t ∧ t.vault.keyless = true ∧ t.ktab.present = false ∧ t.kiln.latch = true ∧ t.kiln.stage = .tier1 ∧ t.kiln.tiers = 1 ∧
  t.kiln.trigger = n ∧ t.kiln.count = satInc 16 s.kiln.count ∧ t.kiln.time = s.clock.time ∧ t.kiln.incomplete = true ∧
  t.mem = s.mem ∧ t.journal = s.journal ∧ t.cqe = s.cqe ∧ t.nvm = s.nvm ∧ t.regs = s.regs ∧ t.cores = s.cores

theorem kilnFired_fireKiln {s : State} (h : s.kiln.latch = false) (n : Nat) : KilnFired s n (fireKiln n s) := by
  have hgo : ¬ s.kiln.latch = true := by simp [h]
  unfold fireKiln
  rw [if_neg hgo]
  exact ⟨keysCleared_tier1 s, rfl, rfl, rfl, rfl, rfl, rfl, rfl, rfl, rfl, rfl, rfl, rfl, rfl, rfl, rfl⟩

/-- A write of VAULT_KILN with no reserved bit set triggers, or is a reserved encoding. -/
theorem kilnWrite_trigger {v : Word} (hv : fieldAt v 15 0 = 0x4B4E) (hhigh : fieldAt v 31 16 = 0) (s : State) : kilnWrite v s = fireKiln 0xFF s := by
  simp only [kilnWrite, hhigh, ne_eq, not_true_eq_false, if_false, if_pos hv]
theorem kilnWrite_other {v : Word} (hv : fieldAt v 15 0 ≠ 0x4B4E) (hhigh : fieldAt v 31 16 = 0) (s : State) :
    kilnWrite v s = setStatusBits vaultBase 2 s := by
  simp only [kilnWrite, hhigh, ne_eq, not_true_eq_false, if_false, if_neg hv]

/-- The reservoir stands at a voltage. -/
def reservoirSet (mv : Nat) (s : State) : State := { s with kiln := { s.kiln with reservoir := mv } }
/-- A castling of this module is given up. -/
def castlingEnded (s : State) : State := { s with pair := { s.pair with castling := .none } }

section Reservoir
variable {mv : Nat} {s : State} (hsupply : s.power.supply ≠ .dark)
include hsupply

theorem reservoirFell_fires (hmv : mv < 2600) : reservoirFell mv s = fireKiln 120 (castlingEnded (reservoirSet mv s)) :=
  (if_pos hmv).trans (if_neg hsupply)
theorem reservoirAt_low (hmv : mv < 2900) : reservoirAt mv s = (reservoirSet mv s).raise 120 := if_pos ⟨hmv, hsupply⟩

end Reservoir

/-! ### Tier 2 (R311) -/

/-- Memory after pages of control SRAM are cleared. -/
def pagesCleared (pages : List Nat) (m : List Host.Cell) : List Host.Cell :=
  pages.foldl (fun m p => memClear m (memKey 0 (sramBase + 4096 * p)) (memKey 0 (sramBase + 4096 * (p + 1)))) m

theorem foldl_clearMem (pages : List Nat) (s : State) :
    pages.foldl (fun s p => s.clearMem 0 (sramBase + 4096 * p) (sramBase + 4096 * (p + 1))) s = { s with mem := pagesCleared pages s.mem } := by
  induction pages generalizing s with
  | nil => rfl
  | cons p pages ih => exact ih _

/-- A byte of one of the pages reads as an unlisted one, every other byte as before. -/
theorem memGet_pagesCleared (pages : List Nat) (m : List Host.Cell) (k : Nat) :
    memGet (pagesCleared pages m) k = if (k - sramBase) / 4096 ∈ pages ∧ sramBase ≤ k then memDefault k else memGet m k := by
  induction pages generalizing m with
  | nil => simp [pagesCleared]
  | cons p pages ih =>
    have hpage : (memKey 0 (sramBase + 4096 * p) ≤ k ∧ k < memKey 0 (sramBase + 4096 * (p + 1))) ↔ (k - sramBase) / 4096 = p ∧ sramBase ≤ k := by
      unfold memKey
      omega
    refine (ih _).trans ?_
    simp only [memGet_memClear, hpage, List.mem_cons]
    by_cases habove : sramBase ≤ k
    · by_cases hlater : (k - sramBase) / 4096 ∈ pages
      · simp [habove, hlater]
      · simp [habove, hlater]
    · simp [habove]

/-- The secret-tagged pages of control SRAM cleared. -/
def taggedCleared (s : State) : List Host.Cell := pagesCleared ((List.range 2048).filter (pageTagged s)) s.mem

theorem memGet_taggedCleared (s : State) (k : Nat) :
    memGet (taggedCleared s) k =
      if ((k - sramBase) / 4096 < 2048 ∧ pageTagged s ((k - sramBase) / 4096) = true) ∧ sramBase ≤ k then memDefault k else memGet s.mem k := by
  simp only [taggedCleared, memGet_pagesCleared, List.mem_filter, List.mem_range]

theorem memGet_taggedCleared_page (s : State) {p o : Nat} (hp : p < 2048) (ho : o < 4096) :
    memGet (taggedCleared s) (memKey 0 (sramBase + 4096 * p + o)) = if pageTagged s p then 0 else s.readByte 0 (sramBase + 4096 * p + o) := by
  have haddr : sramBase + 4096 * p + o < 2 ^ 64 := by unfold sramBase; omega
  have hpage : (memKey 0 (sramBase + 4096 * p + o) - sramBase) / 4096 = p := by unfold memKey; omega
  have hbase : sramBase ≤ memKey 0 (sramBase + 4096 * p + o) := by unfold memKey; omega
  have hzero : memDefault (memKey 0 (sramBase + 4096 * p + o)) = 0 := memDefault_memKey haddr (by decide) (by decide)
  simp only [memGet_taggedCleared, hpage, hp, hbase, true_and, and_true, hzero, State.readByte]

theorem memGet_taggedCleared_outside (s : State) {k : Nat} (hk : k < memKey 0 sramBase ∨ memKey 0 (sramBase + sramSize) ≤ k) :
    memGet (taggedCleared s) k = memGet s.mem k := by
  have hout : ¬ (((k - sramBase) / 4096 < 2048 ∧ pageTagged s ((k - sramBase) / 4096) = true) ∧ sramBase ≤ k) := by
    unfold memKey sramSize at hk
    omega
  exact (memGet_taggedCleared s k).trans (if_neg hout)

/-- Sessions, label keys, the DRBG's state and operand memory gone. -/
def unitsCleared (s : State) : State :=
  { s with
    vault := { s.vault with sessions := [] }
    reader := { s.reader with keys := List.replicate 16 none }
    rng := { s.rng with state := .starting, drbg := 0 }
    pke := { s.pke with wiped := true } }

theorem tier2_eq (s : State) : tier2 s = unitsCleared { s with mem := taggedCleared s } :=
  congrArg unitsCleared (foldl_clearMem _ s)

theorem kilnTier2_tier1 {s : State} (h : s.kiln.stage = .tier1) :
    kilnTier2 s = { unitsCleared { s with mem := taggedCleared s } with kiln := { s.kiln with stage := .tier2, tiers := s.kiln.tiers ||| 2 } } := by
  unfold kilnTier2
  rw [if_pos h, tier2_eq]
  rfl

/-! ### The kiln-induced reset and tier 3 (R85, R88, R311) -/

/-- What the reset that a kiln induces leaves of the module. -/
def AfterKilnReset (t : State) : Prop :=
  t.kiln.stage = .reset ∧ t.ktab = Ktab.reset ∧ bitAt t.power.rstCause 3 = true ∧
  t.power.booted = false ∧ t.power.safe = false ∧ t.cqe.queues = [] ∧ t.cqe.inflight = [] ∧ t.lanes.streams = [] ∧
  t.cores.ccA = Core.reset .ccA ∧ t.cores.ccB = Core.reset .ccB ∧ ∀ a, a < 2 ^ 64 → t.readByte 2 a = 0

/-- A cause set reads as set. -/
theorem bitAt_or_bit32 (w : Word) {k : Nat} (hk : k < 32) : bitAt (w ||| bit32 k true) k = true := by
  have hbit : (BitVec.ofNat 32 (2 ^ k)).getLsbD k = true := by
    simp only [BitVec.getLsbD_ofNat, hk, decide_true, Nat.testBit_two_pow_self, Bool.and_self]
  simp only [bitAt, bit32, if_true, BitVec.getLsbD_or, hbit, Bool.or_true]

/-- The module after what the reset reports, `held`, and what it wipes, up to the cause (R88). -/
def kilnDown (held : List Held) (s : State) : State :=
  { s with
    port0 := { HostPort.reset with common := s.port0.common, aerCorr := s.port0.aerCorr, aerUncorr := s.port0.aerUncorr }
    port1 := { HostPort.reset with common := s.port1.common, aerCorr := s.port1.aerCorr, aerUncorr := s.port1.aerUncorr }
    regs := s.regs.filter (fun r => decide (r.1 < 0x40120000))
    cqe := { s.cqe with held := held }
    ktab := Ktab.reset
    kiln := { s.kiln with stage := .reset }
    power := { s.power with safe := false, safeNext := false, mode := .run } }

/-- Whatever is reported before, the custody planes are cleared, DDR5 is wiped, and the cause is set. -/
theorem kilnReset_tier2_eq {s : State} (h : s.kiln.stage = .tier2) :
    ∃ held u, kilnReset s = rstCause (bit32 3 true) (kilnDown held (wipeSpace 2 (clearCustody u))) :=
  ⟨_, _, if_neg (not_not_intro h)⟩

theorem readByte_kilnDown (held : List Held) (w : Word) (s : State) (n a : Nat) :
    (rstCause w (kilnDown held s)).readByte n a = s.readByte n a := rfl

theorem afterKilnReset_kilnDown (held : List Held) (s : State) :
    AfterKilnReset (rstCause (bit32 3 true) (kilnDown held (wipeSpace 2 (clearCustody s)))) := by
  have hddr (a : Nat) (ha : a < 2 ^ 64) : (rstCause (bit32 3 true) (kilnDown held (wipeSpace 2 (clearCustody s)))).readByte 2 a = 0 :=
    calc
      _ = (wipeSpace 2 (clearCustody s)).readByte 2 a := readByte_kilnDown ..
      _ = memDefault (memKey 2 a) := readByte_wipeSpace_same ha _
      _ = 0 := memDefault_memKey ha (by decide) (by decide)
  exact ⟨rfl, rfl, bitAt_or_bit32 _ (by decide), rfl, rfl, rfl, rfl, rfl, rfl, rfl, hddr⟩

theorem afterKilnReset_tier2 {s : State} (h : s.kiln.stage = .tier2) : AfterKilnReset (kilnReset s) := by
  obtain ⟨held, u, heq⟩ := kilnReset_tier2_eq h
  rw [heq]
  exact afterKilnReset_kilnDown held u

theorem kilnTier3_reset {s : State} (h : s.kiln.stage = .reset) : kilnTier3 s = { s with
    ktab := { s.ktab with records := [], buckets := [], stash := [], present := false }
    kiln := { s.kiln with stage := .idle, latch := false, tiers := s.kiln.tiers ||| 4, incomplete := false } } := if_pos h

/-! ### A session's expiry (R301, R305) -/

/-- A session of no lifetime has passed once it has begun. -/
theorem expired_of_lifetime_zero {s : State} {x : Session} (hlife : x.lifetime = 0) (hbegin : x.begin ≤ s.clock.lfclk) : expired s x = true := by
  simp [expired, hlife, hbegin]
theorem grantUsable_expired {s : State} {g : BitVec 16} (h : ∀ x, s.session g = some x → expired s x = true) (cls : Nat) (target : DWord) :
    grantUsable s g cls target = false := by
  unfold grantUsable
  split
  next x hx => simp [h x hx]
  next => rfl

theorem grantUsable_sessionExpiry {s : State} (hbegun : ∀ x ∈ s.vault.sessions, x.begin ≤ s.clock.lfclk) (g : BitVec 16) (cls : Nat) (target : DWord) :
    grantUsable (sessionExpiry g s) g cls target = false := by
  refine grantUsable_expired (fun x hx => ?_) cls target
  have hgrant : x.grant = g := by simpa using List.find?_some hx
  obtain ⟨y, hy, rfl⟩ := List.mem_map.mp (List.mem_of_find?_eq_some hx)
  by_cases hyg : y.grant = g
  · simp only [if_pos hyg]
    exact expired_of_lifetime_zero rfl (hbegun y hy)
  · simp only [if_neg hyg] at hgrant
    exact absurd hgrant hyg

/-- Settles O34: the triggers, the end of each tier and the reset between them, and a session's expiry. -/
theorem kilnTiers : Obligations.KilnTiers := by
  unfold Obligations.KilnTiers
  refine ⟨?triggers, ?tier2, ?reset, ?tier3, ?expiry⟩
  case triggers =>
    intro v mv s fired
    refine ⟨fun hlatch => ?write, fun hv hhigh => next_finish (kilnWrite_other hv hhigh s), fun hsupply hlatch hmv => ?reservoir,
      fun hsupply hmv => next_finish (reservoirAt_low hsupply hmv)⟩
    case write => exact ⟨_, next_finish (kilnWrite_trigger rfl rfl s), kilnFired_fireKiln hlatch 0xFF⟩
    case reservoir =>
      exact ⟨_, next_finish (reservoirFell_fires hsupply hmv), kilnFired_fireKiln (s := castlingEnded (reservoirSet mv s)) hlatch 120⟩
  case tier2 =>
    intro s h
    have hend := kilnTier2_tier1 h
    have hpage := fun p o (hp : p < 2048) (ho : o < 4096) => memGet_taggedCleared_page s hp ho
    have houtside := fun a => memGet_taggedCleared_outside s (k := a)
    -- The cleared memory stays a variable: unification must not run the fold over the pages.
    generalize taggedCleared s = m at hend hpage houtside
    exact ⟨_, next_finish hend, rfl, rfl, rfl, rfl, rfl, hpage, houtside, rfl, rfl⟩
  case reset => exact fun s h => ⟨kilnReset s, rfl, afterKilnReset_tier2 h⟩
  case tier3 => exact fun s h => next_finish (kilnTier3_reset h)
  case expiry => exact fun g s => ⟨rfl, fun hbegun cls target => grantUsable_sessionExpiry hbegun g cls target⟩

end Sys2Proof.KilnStages
end

section
/-! SUPPORT. The public-key engine: what a store leaves unchanged, the ring's tail, dispatch, the end of a job by what the hardware finds, and what reports it (10_public_key_engine.md, R324, R328, R330 to R340, R346). -/

namespace Sys2Proof.PublicKeyUnits

open Sys2Proof.Machine Sys2Proof.Safety Sys2Proof.Frame

/-! ### What a store leaves unchanged -/

theorem memGet_memDrop_ne {a k : Nat} (h : a ≠ k) (m : List Host.Cell) : memGet (memDrop a m) k = memGet m k := by
  induction m with
  | nil => rfl
  | cons c t ih =>
    obtain ⟨x, b⟩ := c
    unfold memDrop
    split
    next hx => simp [memGet, hx, h]
    next =>
      split
      · rfl
      · simp only [memGet, ih]
theorem memGet_memPut_ne {a k : Nat} (h : a ≠ k) (v : Byte) (m : List Host.Cell) : memGet (memPut a v m) k = memGet m k := by
  induction m with
  | nil => simp [memPut, memGet, h]
  | cons c t ih =>
    obtain ⟨x, b⟩ := c
    unfold memPut
    split
    next hx => simp [memGet, hx, h]
    next =>
      split
      · simp [memGet, h]
      · simp only [memGet, ih]
theorem memGet_memSet_ne {a k : Nat} (h : a ≠ k) (v : Byte) (m : List Host.Cell) : memGet (memSet m a v) k = memGet m k := by
  unfold memSet
  split
  · exact memGet_memDrop_ne h m
  · exact memGet_memPut_ne h v m
/-- Bytes outside the range that a store covers read as before. -/
theorem memGet_memSetBytes_outside {a k : Nat} {bs : List Byte} (h : k < a ∨ a + bs.length ≤ k) (m : List Host.Cell) :
    memGet (memSetBytes m a bs) k = memGet m k := by
  induction bs generalizing m a with
  | nil => rfl
  | cons b bs ih =>
    rw [List.length_cons] at h
    calc memGet (memSetBytes (memSet m a b) (a + 1) bs) k
      _ = memGet (memSet m a b) k := ih (by omega) _
      _ = memGet m k := memGet_memSet_ne (by omega) b m

theorem leBytes_length (n v : Nat) : (leBytes n v).length = n := by
  induction n generalizing v with
  | zero => rfl
  | succ n ih => simp [leBytes, ih]

/-! ### The ring (R330, R346) -/

/-- A tail with no reserved bit set is taken as it is; another is noted in the status register first. -/
theorem fieldAt_tail_reserved (v : Word) : fieldAt v 31 10 = 0 ↔ v.toNat < 1024 := by
  simp only [fieldAt, Nat.shiftRight_eq_div_pow]
  omega

@[simp] theorem ringSize_setStatusBits (bits : Word) (s : State) : ringSize (setStatusBits pkeBase bits s) = ringSize s := by
  simp [ringSize, setStatusBits]

/-- A write of the tail once its reserved bits are noted: the remainder in the ring, and the descriptors up to it where the engine is enabled. -/
def tailMoved (t : Nat) (u : State) : State :=
  if bitAt (u.reg (pkeBase + 8) 0) 0 = false then { u with pke := { u.pke with tail := t } }
  else takeDescriptors ((t + ringSize u - u.pke.tail % ringSize u) % ringSize u) u.pke.tail { u with pke := { u.pke with tail := t } }
/-- The state with a tail's reserved bits noted. -/
def tailNoted (v : Word) (s : State) : State := if v.toNat < 1024 then s else setStatusBits pkeBase 1 s

@[simp] theorem tailNoted_pke (v : Word) (s : State) : (tailNoted v s).pke = s.pke := by
  unfold tailNoted; split <;> rfl
@[simp] theorem ringSize_tailNoted (v : Word) (s : State) : ringSize (tailNoted v s) = ringSize s := by
  unfold tailNoted; split <;> simp

theorem ringTailWrite_eq (v : Word) (s : State) : ringTailWrite v s = tailMoved (v.toNat % 1024 % ringSize (tailNoted v s)) (tailNoted v s) := by
  have htail : fieldAt v 9 0 = v.toNat % 1024 := rfl
  have hnoted : (if fieldAt v 31 10 ≠ 0 then setStatusBits pkeBase 1 s else s) = tailNoted v s := by
    simp only [tailNoted, ne_eq, fieldAt_tail_reserved, ite_not]
  simp only [ringTailWrite, tailMoved, htail, hnoted, ringSize_tailNoted]

/-- The job of a well-formed descriptor in slot `i`. -/
def descriptorJob (i : Nat) (s : State) : PkeJob :=
  let addr := (s.reg (pkeBase + 0x10) 0).toNat + 64 * i
  let f := fieldOf (s.readBytes 0 addr 64)
  ⟨f 0xC 4, i, ⟨f 0 1, f 1 1, f 2 1, f 3 1, f 4 1, f 5 1, f 6 2, f 8 2, f 0xA 1⟩, s.readBytes 0 (f 0x10 4) (f 0x14 4), f 0x1C 4, f 0x18 4, some addr, none, none, false, false⟩

section Descriptor
variable {i : Nat} {s : State}

theorem takeDescriptor_wellFormed (h : descOk (s.readBytes 0 ((s.reg (pkeBase + 0x10) 0).toNat + 64 * i) 64) = true) :
    takeDescriptor i s = { s with pke := { s.pke with jobs := s.pke.jobs ++ [descriptorJob i s] } } :=
  if_neg (ne_false_of_eq_true h)
theorem takeDescriptor_malformed (h : descOk (s.readBytes 0 ((s.reg (pkeBase + 0x10) 0).toNat + 64 * i) 64) = false) :
    takeDescriptor i s = writeBack ((s.reg (pkeBase + 0x10) 0).toNat + 64 * i) 9 0 0 0 0 0 { s with pke := { s.pke with doneHead := (i + 1) % ringSize s } } :=
  if_pos h

end Descriptor

/-! ### Dispatch (R330, R332, R338) -/

/-- The unit chosen is one of the two, unfenced and idle. -/
theorem idleUnit_some {n : Nat} {s : State} (h : idleUnit s = some n) : n < 2 ∧ s.isFenced 2 n = false ∧ s.pkeUnit n = none := by
  unfold idleUnit at h
  split at h
  case isTrue h0 =>
    obtain rfl := Option.some.inj h
    exact ⟨by decide, h0.2, Option.isNone_iff_eq_none.mp h0.1⟩
  case isFalse =>
    split at h
    case isTrue h1 =>
      obtain rfl := Option.some.inj h
      exact ⟨by decide, h1.2, Option.isNone_iff_eq_none.mp h1.1⟩
    case isFalse => cases h

/-- Where a ready job has priority 1, the job chosen has it. -/
theorem nextJob_priority {l : List PkeJob} {j x : PkeJob} (h : nextJob l = some j) (hx : x ∈ l) (hready : jobReady x = true) (hprio : x.p.prio = 1) :
    j.p.prio = 1 := by
  unfold nextJob at h
  split at h
  case h_1 k hk =>
    obtain rfl := Option.some.inj h
    simpa using List.find?_some hk
  case h_2 hnone =>
    have hlow := List.find?_eq_none.mp hnone x (List.mem_filter.mpr ⟨hx, hready⟩)
    simp [hprio] at hlow

/-- The state with job `j` out of the ring, and what the kernel held back let in. -/
def jobTaken (j : PkeJob) (a : State) : State := releaseHeld { a with pke := { a.pke with jobs := a.pke.jobs.filter (fun x => x.id != j.id) } }

section Dispatch
variable {n : Nat} {j : PkeJob} {s : State} (hon : bitAt (s.reg (pkeBase + 8) 0) 0 = true) (hgo : bitAt (s.reg (pkeBase + 8) 0) 1 = false)
  (hunit : idleUnit (askRandom s) = some n) (hjob : nextJob (askRandom s).pke.jobs = some j)
include hon hgo hunit hjob

theorem dispatch_command {k : Nat} (hkey : j.key = some k) : dispatch s = ((jobTaken j (askRandom s)).passPoint k).setPkeUnit n (some j) := by
  simp only [dispatch, hon, hgo, Bool.true_eq_false, Bool.false_eq_true, or_self, if_false, hunit, hjob, hkey, jobTaken]
theorem dispatch_plain (hkey : j.key = none) : dispatch s = (jobTaken j (askRandom s)).setPkeUnit n (some j) := by
  simp only [dispatch, hon, hgo, Bool.true_eq_false, Bool.false_eq_true, or_self, if_false, hunit, hjob, hkey, jobTaken]

end Dispatch

/-! ### The end of a job (R334, R337, R339, R340) -/

/-- What a unit reports of a job whose hardware is sound; a key generation has no operands to judge. -/
def judged (j : PkeJob) : Nat := if j.p.op = 6 then 0 else pkeJudgement j.p j.input

section JobEnd
variable {n : Nat} {j : PkeJob} {s : State} (hunit : s.pkeUnit n = some j)
include hunit

theorem jobDone_sound : jobDone n .sound s = releaseHeld (reportJob j n (judged j) (s.setPkeUnit n none)) := by
  simp only [jobDone, hunit, judged]
theorem jobDone_releaseFail (hsound : judged j = 0) (hchecked : releaseChecked j.p = true) :
    jobDone n .releaseFail s = releaseHeld (reportJob j n (if j.p.op = 1 then 3 else 4)
      (({ s.setPkeUnit n none with pke := { (s.setPkeUnit n none).pke with checkFail := satInc 16 (s.setPkeUnit n none).pke.checkFail } } : State).raiseAt 112 (.pke n) 0 0)) := by
  unfold judged at hsound
  simp [jobDone, hunit, hsound, hchecked]
theorem jobDone_opmUe : jobDone n .opmUe s = releaseHeld (rerunOrFence n ((s.addFence (.pke n)).raiseAt 113 (.pke n) 0 0)) := by
  simp only [jobDone, hunit]
theorem jobDone_unitFault : jobDone n .unitFault s = releaseHeld (rerunOrFence n ((s.addFence (.pke n)).raiseAt 114 (.pke n) 0 0)) := by
  simp only [jobDone, hunit]
theorem jobDone_wipeFail : jobDone n .wipeFail s = releaseHeld (reportJob j n (judged j)
    (({ ((s.setPkeUnit n none).addFence (.pke n)) with pke := { (s.setPkeUnit n none).pke with wiped := false } } : State).raiseAt 115 (.pke n) 0 0)) := by
  simp only [jobDone, hunit, judged]
theorem jobDone_roundCap (hsign : j.p.op = 1) (hdsa : 10 ≤ j.p.alg) : jobDone n .roundCap s = releaseHeld (reportJob j n 11 (s.setPkeUnit n none)) := by
  simp [jobDone, hunit, hsign, hdsa]
theorem rerunOrFence_again (hfirst : j.rerun = false) (hother : s.isFenced 2 (1 - n) = false) :
    rerunOrFence n s = { s.setPkeUnit n none with pke := { (s.setPkeUnit n none).pke with jobs := { j with rerun := true } :: (s.setPkeUnit n none).pke.jobs } } := by
  have hfree : (s.setPkeUnit n none).isFenced 2 (1 - n) = false := hother
  simp [rerunOrFence, hunit, hfirst, hfree]
theorem keygenTimeout_rsa (hrsa : j.rsaKeygen = true) : keygenTimeout n s = releaseHeld (reportJob j n 10 (s.setPkeUnit n none)) := by
  simp only [keygenTimeout, hunit, hrsa, if_true]

end JobEnd

/-! ### What reports a job (R346) -/

/-- The state that reports a job of a known time: the counter, the time and the head of the finished. -/
def jobCounted (j : PkeJob) (time : Nat) (s : State) : State :=
  { s with pke := { s.pke with jobCnt := satInc 32 s.pke.jobCnt, lastTime := BitVec.ofNat 32 time, doneHead := (j.slot + 1) % ringSize s } }
/-- Verdict and reason that a sound job reports: those of a verification. -/
def soundVerdict (j : PkeJob) : Nat × Nat := if j.p.op = 2 then pkeVerdictOf j.p j.input else (0, 0)
/-- The output of a sound job. -/
def soundOutput (j : PkeJob) : List Byte := pkeResult j.p j.input (j.rnd.getD 0)

section Report
variable {j : PkeJob} {n time : Nat} {s : State} (htime : jobTime j.p j.input = some time)
include htime

theorem reportJob_desc_sound {a : Nat} (hdesc : j.desc = some a) : reportJob j n 0 s =
    writeBack a 0 n (soundVerdict j).1 (soundVerdict j).2 (soundOutput j).length time ((jobCounted j time s).dmaBytes 0 j.outAddr (soundOutput j)) := by
  simp [reportJob, htime, hdesc, soundVerdict, soundOutput, jobCounted]
theorem reportJob_desc_failed {a status : Nat} (hdesc : j.desc = some a) (hfail : 3 ≤ status) :
    reportJob j n status s = writeBack a status n 0 0 0 time ((jobCounted j time s).dmaBytes 0 j.outAddr []) := by
  obtain ⟨k, rfl⟩ := Nat.exists_eq_add_of_le' hfail
  simp [reportJob, htime, hdesc, jobCounted]
theorem reportJob_own {status : Nat} (hdesc : j.desc = none) (hkey : j.key = none) : reportJob j n status s = ownEnd j status (jobCounted j time s) := by
  simp [reportJob, htime, hdesc, hkey, jobCounted]

section Command
variable {key : Nat} {c : Inflight} (hdesc : j.desc = none) (hkey : j.key = some key) (hcommand : s.command key = some c) (hplain : signsFor c.op = false)
include hdesc hkey hcommand hplain

theorem reportJob_command_sound : reportJob j n 0 s =
    (if (soundOutput j).isEmpty then complete key (degradePke (jobCounted j time s) (okay [(12, (soundOutput j).length), (16, (soundVerdict j).1), (17, (soundVerdict j).2)])) (jobCounted j time s)
      else completeOutput key c.src j.outLen c.entry.addr1 (soundOutput j)
        (degradePke (jobCounted j time s) (okay [(12, (soundOutput j).length), (16, (soundVerdict j).1), (17, (soundVerdict j).2)])) (jobCounted j time s)) := by
  have hfound : (jobCounted j time s).command key = some c := hcommand
  simp only [jobCounted] at hfound
  simp [reportJob, htime, hdesc, hkey, hfound, hplain, soundVerdict, soundOutput, jobCounted]
/-- The answer that a command gets for a job that ended with one of the statuses without an output. -/
def failAnswer : Nat → Result
  | 3 => answer 0x5003 []
  | 5 => answer 0x3005 []
  | 10 => answer 0x7005 []
  | _ => answer 0x6001 []
theorem reportJob_command_failed {status : Nat} (hstatus : status ∈ [3, 4, 5, 10]) :
    reportJob j n status s = complete key (failAnswer status) (jobCounted j time s) := by
  have hfound : (jobCounted j time s).command key = some c := hcommand
  simp only [jobCounted] at hfound
  simp only [List.mem_cons, List.not_mem_nil, or_false] at hstatus
  rcases hstatus with rfl | rfl | rfl | rfl <;> simp [reportJob, htime, hdesc, hkey, hfound, hplain, jobCounted, failAnswer]

end Command

end Report

/-- A descriptor's report stays inside its bytes 0x20 to 0x2F. -/
theorem memGet_writeBack (addr status unit verdict reason done time : Nat) (s : State) {k : Nat} (h : k < memKey 0 (addr + 0x20) ∨ memKey 0 (addr + 0x30) ≤ k) :
    memGet (writeBack addr status unit verdict reason done time s).mem k = memGet s.mem k := by
  refine memGet_memSetBytes_outside ?_ s.mem
  simp only [List.length_append, leBytes_length, List.length_cons, List.length_nil]
  unfold memKey at h ⊢
  omega

/-- Settles O35: the tail by what enables the engine, dispatch by what is idle and ready, the end of a job by its hardware, its report by who gave it. -/
theorem publicKeyEngine : Obligations.PublicKeyEngine := by
  unfold Obligations.PublicKeyEngine
  refine ⟨⟨?tail, ?take, ?dispatch, ?done⟩, ?keygen, ?report⟩
  case tail =>
    intro v s u n t
    have hwrite : ringTailWrite v s = tailMoved t u := ringTailWrite_eq v s
    have hold : u.pke = s.pke := tailNoted_pke v s
    refine ⟨fun hoff => next_finish (hwrite.trans (if_pos hoff)), fun hon => next_finish (hwrite.trans ?_)⟩
    rw [← hold]
    exact if_neg (ne_false_of_eq_true hon)
  case take =>
    intro i k s addr b
    exact ⟨rfl, rfl, fun hok => ⟨descriptorJob i s, takeDescriptor_wellFormed hok, rfl, rfl, rfl, rfl, rfl, rfl, rfl, rfl, rfl, rfl, rfl, rfl⟩, takeDescriptor_malformed⟩
  case dispatch =>
    intro n j s hon hgo a hunit hjob b
    obtain ⟨hlt, hfence, hidle⟩ := idleUnit_some hunit
    exact ⟨fun k hk => next_finish (dispatch_command hon hgo hunit hjob hk), fun hk => next_finish (dispatch_plain hon hgo hunit hjob hk), hlt, hfence, hidle,
      fun x hx hready hprio => nextJob_priority hjob hx hready hprio⟩
  case done =>
    intro n j s hunit idle ends judged
    exact ⟨next_finish (jobDone_sound hunit), fun hsound hchecked => next_finish (jobDone_releaseFail hunit hsound hchecked), next_finish (jobDone_opmUe hunit),
      next_finish (jobDone_unitFault hunit), next_finish (jobDone_wipeFail hunit), fun hsign hdsa => next_finish (jobDone_roundCap hunit hsign hdsa),
      fun hfirst hother => rerunOrFence_again hunit hfirst hother⟩
  case keygen => exact fun n j s hunit hrsa => next_finish (keygenTimeout_rsa hunit hrsa)
  case report =>
    intro j n status time s htime u out v
    refine ⟨?sound, fun a hdesc hfail => reportJob_desc_failed htime hdesc hfail, fun hdesc hkey => reportJob_own htime hdesc hkey, ?command,
      fun a => ⟨rfl, fun b hb => memGet_writeBack a status n 0 0 0 time s hb⟩⟩
    case sound =>
      rintro a hdesc rfl
      exact reportJob_desc_sound htime hdesc
    case command =>
      intro key c hdesc hkey hcommand hplain
      have hsound := reportJob_command_sound (n := n) htime hdesc hkey hcommand hplain
      have hfailed := fun k => reportJob_command_failed (n := n) (status := k) htime hdesc hkey hcommand hplain
      refine ⟨fun hout => ?_, fun hout => ?_, hfailed 3 (by simp), hfailed 4 (by simp), hfailed 5 (by simp), hfailed 10 (by simp)⟩
      · have hempty : soundOutput j = [] := hout
        rw [hsound, hempty]
        rfl
      · exact hsound.trans (if_neg (mt List.isEmpty_iff.mp hout))

end Sys2Proof.PublicKeyUnits
end

section
/-! SUPPORT. The lost clocks and the next fault record's number, which no operation below the recording of a fault changes: one lemma per function of the model that a pass of `settleOnce` can reach (03_power_clocks_reset.md, R83; 17_fault_collector.md, R498). -/

namespace Sys2Proof.SettledMarks

open Sys2Proof.Machine Sys2Proof.Frame Sys2Proof.Acceptance

/-- The clocks that are lost and the sequence number of the next fault record. -/
def marks (s : State) : Byte × Nat := (s.power.pllLost, s.fault.next)

/-! ### Updates of the state's record -/

/-- Of a state's record the power and fault blocks count. -/
@[simp] theorem marks_mk (power : Power) (fault : FaultBlk)
    {clock cores lines mlines tamper cqe port0 port1 mgmtp pair journal ktab lanes vault kiln pke rng dramc flash reader tag cards nvm regs mem
    freeCtr pending} :
    marks ⟨power, clock, cores, lines, mlines, fault, tamper, cqe, port0, port1, mgmtp, pair, journal, ktab, lanes, vault, kiln, pke, rng, dramc,
    flash, reader, tag, cards, nvm, regs, mem, freeCtr, pending⟩ = (power.pllLost, fault.next) := (rfl)
@[simp] theorem marks_eta (s : State) : (s.power.pllLost, s.fault.next) = marks s := (rfl)

@[simp] theorem marks_ite (c : Prop) [Decidable c] (a b : State) : marks (if c then a else b) = if c then marks a else marks b := apply_ite ..
theorem marks_branch {c : Prop} [Decidable c] {a b s : State} (ha : marks a = marks s) (hb : marks b = marks s) : marks (if c then a else b) = marks s := by
  split
  · exact ha
  · exact hb
@[simp] theorem marks_foldl {α : Type} {f : State → α → State} (hf : ∀ s x, marks (f s x) = marks s) (xs : List α) (s : State) :
    marks (xs.foldl f s) = marks s := foldl_keeps hf xs s

/-! ### Registers, memory and interrupt lines -/

@[simp] theorem marks_writeBytes (s : State) (space addr : Nat) (bs : List Byte) : marks (s.writeBytes space addr bs) = marks s := (rfl)
@[simp] theorem marks_writeNat (s : State) (space addr n v : Nat) : marks (s.writeNat space addr n v) = marks s := (rfl)
@[simp] theorem marks_clearMem (s : State) (space lo : Nat) (hi : Nat) : marks (s.clearMem space lo hi) = marks s := (rfl)
@[simp] theorem marks_drew (s : State) : marks s.drew = marks s := (rfl)
@[simp] theorem marks_setReg (s : State) (addr : Nat) (v : Word) : marks (s.setReg addr v) = marks s := (rfl)
@[simp] theorem marks_dropResv (s : State) (writer : Option CoreId) (space addr n : Nat) : marks (s.dropResv writer space addr n) = marks s := (rfl)
@[simp] theorem marks_dmaBytes (s : State) (space addr : Nat) (bs : List Byte) : marks (s.dmaBytes space addr bs) = marks s := (rfl)
@[simp] theorem marks_line (s : State) (l : Nat) : marks (s.line l) = marks s := (rfl)
@[simp] theorem marks_report (s : State) (rs : List FaultIn) : marks (s.report rs) = marks s := (rfl)
@[simp] theorem marks_raiseAt (s : State) (source : Nat) (unit : FUnit) (syndrome : Word) (address : DWord) : marks (s.raiseAt source unit syndrome address) = marks s := (rfl)
@[simp] theorem marks_raise (s : State) (source : Nat) : marks (s.raise source) = marks s := (rfl)
@[simp] theorem marks_addFence (s : State) (u : FUnit) : marks (s.addFence u) = marks s := by simp [State.addFence]

/-! ### The DDR5 controller -/

@[simp] theorem marks_noteRate (die : Nat) (s : State) : marks (noteRate die s) = marks s := by simp [noteRate]
@[simp] theorem marks_logEcc (sram : Bool) (unit addr syn : Nat) (unc : Bool) (hard : Bool) (found : Nat) (s : State) :
    marks (logEcc sram unit addr syn unc hard found s) = marks s := by simp [logEcc]
@[simp] theorem marks_mendWords (a n : Nat) (s : State) : marks (mendWords a n s) = marks s := (rfl)
@[simp] theorem marks_abandonLaps (s : State) : marks (abandonLaps s) = marks s := (rfl)
@[simp] theorem marks_dramcReset (s : State) : marks (dramcReset s) = marks s := (rfl)

/-! ### The key table -/

@[simp] theorem marks_quarantine (is : List Nat) (s : State) : marks (quarantine is s) = marks s := by simp [quarantine]
@[simp] theorem marks_integrityFailure (c : Nat) (unc : Bool) (s : State) : marks (integrityFailure c unc s) = marks s := by simp [integrityFailure]
@[simp] theorem marks_cacheFill (kh : Word) (v : Verify) (s : State) : marks (cacheFill kh v s).2 = marks s := by
  unfold cacheFill; dsimp only; (repeat' split) <;> simp
@[simp] theorem marks_findAmong (oid : Oid) (l : List Nat) (s : State) : marks (findAmong oid l s).2 = marks s := by
  induction l generalizing s with
  | nil => rfl
  | cons j l ih =>
    unfold findAmong
    dsimp only
    (repeat' split) <;> simp [ih]
@[simp] theorem marks_findOid (oid : Oid) (v : Verify) (s : State) : marks (findOid oid v s).2 = marks s := by
  unfold findOid; dsimp only; (repeat' split) <;> simp

/-! ### The journal, and completions held and made -/

@[simp] theorem marks_postEventOn (port code : Nat) (data : BitVec 56) (s : State) : marks (postEventOn port code data s) = marks s := by
  unfold postEventOn; split <;> simp
@[simp] theorem marks_postEvent (code : Nat) (data : BitVec 56) (s : State) : marks (postEvent code data s) = marks s := by simp [postEvent]
@[simp] theorem marks_appendAs (handle source : BitVec 16) (body : JBody) (s : State) : marks (appendAs handle source body s) = marks s := by simp [appendAs]
@[simp] theorem marks_append (source : BitVec 16) (body : JBody) (s : State) : marks (append source body s) = marks s := by simp [append]
@[simp] theorem marks_forwardAs (handle source : BitVec 16) (body : JBody) (s : State) : marks (forwardAs handle source body s) = marks s := by simp [forwardAs]
@[simp] theorem marks_commit (s : State) : marks (commit s) = marks s := (rfl)
@[simp] theorem marks_journalEvents (s : State) : marks (journalEvents s) = marks s := by simp [journalEvents]
@[simp] theorem marks_flush (s : State) : marks (flush s) = marks s := by simp [flush]
@[simp] theorem marks_applyDelta (recNo : Nat) (now : DWord) (s : State) (d : Delta) : marks (applyDelta recNo now s d) = marks s := by
  unfold applyDelta; split <;> simp
@[simp] theorem marks_applyDeltas (recNo : Nat) (now : DWord) (s : State) (ds : List Delta) : marks (applyDeltas recNo now s ds) = marks s := by simp [applyDeltas]
@[simp] theorem marks_setCommand (s : State) (key : Nat) (f : Inflight → Inflight) : marks (s.setCommand key f) = marks s := (rfl)
@[simp] theorem marks_waitOn (s : State) (key : Nat) (w : Wait) : marks (s.waitOn key w) = marks s := (rfl)
@[simp] theorem marks_passPoint (s : State) (key : Nat) : marks (s.passPoint key) = marks s := (rfl)
@[simp] theorem marks_hold (h : Held) (s : State) : marks (hold h s) = marks s := (rfl)
@[simp] theorem marks_settleGrant (key : Nat) (ok : Bool) (s : State) : marks (settleGrant key ok s) = marks s := (rfl)
@[simp] theorem marks_complete (key : Nat) (r : Result) (s : State) : marks (complete key r s) = marks s := by
  unfold complete; split <;> simp
@[simp] theorem marks_unsolicited (src : Source) (tag status : BitVec 16) (seq : Word) (fields : List (Nat × Nat)) (s : State) :
    marks (unsolicited src tag status seq fields s) = marks s := (rfl)
@[simp] theorem marks_setPort (s : State) (p : Nat) (h : HostPort) : marks (s.setPort p h) = marks s := by simp [State.setPort]
@[simp] theorem marks_signal (port v : Nat) (s : State) : marks (signal port v s) = marks s := by
  unfold signal; dsimp only; split <;> simp
@[simp] theorem marks_setQueue (s : State) (q : Nat) (f : Queue → Queue) : marks (s.setQueue q f) = marks s := (rfl)
@[simp] theorem marks_postToQueue (q : Nat) (c : Completion) (s : State) : marks (postToQueue q c s) = marks s := by
  unfold postToQueue; split <;> simp
@[simp] theorem marks_postMark (h : Held) (s : State) : marks (postMark h s) = marks s := by
  unfold postMark; split <;> simp
@[simp] theorem marks_intoBuffer (a : Nat) (bs : List Byte) (s : State) : marks (intoBuffer a bs s) = marks s := by simp [intoBuffer]
@[simp] theorem marks_beginIdle (h : Nat) (s : State) : marks (beginIdle h s) = marks s := by simp [beginIdle]
@[simp] theorem marks_post (h : Held) (s : State) : marks (post h s) = marks s := by
  unfold post; (repeat' split) <;> simp
@[simp] theorem marks_postHeld (l : List Held) (s : State) : marks (postHeld l s) = marks s := by
  induction l generalizing s with
  | nil => rfl
  | cons x l ih =>
    unfold postHeld
    split
    · rw [ih, marks_post]; rfl
    · exact ih s
@[simp] theorem marks_postAll (s : State) : marks (postAll s) = marks s := by simp [postAll]
@[simp] theorem marks_reportLost (status : BitVec 16) (c : Inflight) (s : State) : marks (reportLost status c s) = marks s := by simp [reportLost]
@[simp] theorem marks_abortCommands (status : BitVec 16) (sel : Inflight → Bool) (s : State) : marks (abortCommands status sel s) = marks s := by simp [abortCommands]

/-! ### Checkpoints and secured records -/

@[simp] theorem marks_breakFound (s : State) : marks (breakFound s) = marks s := (rfl)
@[simp] theorem marks_ringBreak (n : Nat) (s : State) : marks (ringBreak n s) = marks s := by simp [ringBreak]

/-! ### Lanes and streams -/

@[simp] theorem marks_scatter (space : Nat) (l : List (Nat × Nat)) (bs : List Byte) (s : State) : marks (scatter space l bs s) = marks s := by
  induction l generalizing bs s with
  | nil => rfl
  | cons p l ih => exact ih ..
theorem marks_writeOutput (src : Source) (total : Nat) (addr : DWord) (bs : List Byte) (s : State) {t : State} (h : writeOutput src total addr bs s = .ok t) :
    marks t = marks s := by
  unfold writeOutput at h
  split at h
  · cases h; rfl
  · split at h
    · cases h
    · cases h; exact marks_scatter ..
@[simp] theorem marks_withKey (key : Nat) (kh : Word) (off : Nat) (body : State → State) (s : State) (hbody : ∀ t, marks (body t) = marks t) :
    marks (withKey key kh off body s) = marks s := by
  unfold withKey
  dsimp only
  split <;> simp [hbody]
@[simp] theorem marks_withOid (key : Nat) (oid : Oid) (body : Option Nat → State → State) (s : State) (hbody : ∀ x t, marks (body x t) = marks t) :
    marks (withOid key oid body s) = marks s := by
  unfold withOid
  dsimp only
  split <;> simp [hbody]
@[simp] theorem marks_completeOutput (key : Nat) (src : Source) (total : Nat) (addr : DWord) (bs : List Byte) (r : Result) (s : State) :
    marks (completeOutput key src total addr bs r s) = marks s := by
  unfold completeOutput
  split
  · simp
  next u hu => simp [marks_writeOutput _ _ _ _ _ hu]
@[simp] theorem marks_setLane (s : State) (n : Nat) (f : Lane → Lane) : marks (s.setLane n f) = marks s := (rfl)
@[simp] theorem marks_setStream (s : State) (h : Nat) (f : Stream → Stream) : marks (s.setStream h f) = marks s := (rfl)
@[simp] theorem marks_park2 (h : Nat) (s : State) : marks (park2 h s) = marks s := by
  unfold park2; split <;> simp
@[simp] theorem marks_parkWaiting (s : State) : marks (parkWaiting s) = marks s := by
  unfold parkWaiting; dsimp only; split <;> simp
@[simp] theorem marks_endStream (h : Nat) (s : State) : marks (endStream h s) = marks s := by
  unfold endStream; dsimp only; (repeat' split) <;> simp
@[simp] theorem marks_recordEnded (x : Stream) (status : BitVec 16) (s : State) : marks (recordEnded x status s) = marks s := (rfl)
@[simp] theorem marks_reportStream (x : Stream) (status : BitVec 16) (s : State) : marks (reportStream x status s) = marks s := by simp [reportStream]
@[simp] theorem marks_endStreams (status : BitVec 16) (sel : Stream → Bool) (s : State) : marks (endStreams status sel s) = marks s := by simp [endStreams]
@[simp] theorem marks_loadBusy (lane : Nat) (s : State) : marks (loadBusy lane s) = marks s := (rfl)
@[simp] theorem marks_loadSlot (n slot : Nat) (h : Nat) (kh : Word) (s : State) : marks (loadSlot n slot h kh s) = marks s := (rfl)
@[simp] theorem marks_takeUnbound (kh : Word) (s : State) : marks (takeUnbound kh s).2 = marks s := by
  unfold takeUnbound; split <;> simp
@[simp] theorem marks_park1 (h : Nat) (s : State) : marks (park1 h s) = marks s := by
  unfold park1; split <;> simp
theorem marks_bindLane (s : State) {p : Nat × State} (h : bindLane s = some p) : marks p.2 = marks s := by
  unfold bindLane at h
  (repeat' split at h) <;> cases h
  · rfl
  · exact marks_park2 ..
@[simp] theorem marks_reserveBlock (kh : Word) (s : State) : marks (reserveBlock kh s) = marks s := by simp [reserveBlock]
@[simp] theorem marks_settleReserves (s : State) : marks (settleReserves s) = marks s := (rfl)
@[simp] theorem marks_bindStream (key lane : Nat) (isSeal : Bool) (kh seg : Word) (len life iv : Nat) (fixed : Word) (s : State) :
    marks (bindStream key lane isSeal kh seg len life iv fixed s) = marks s := by
  unfold bindStream; dsimp only; (repeat' split) <;> simp
@[simp] theorem marks_sealDraw (key : Nat) (e : Entry) (s : State) : marks (sealDraw key e s) = marks s := by
  unfold sealDraw
  dsimp only
  refine marks_branch (by simp) (marks_branch (by simp) (marks_branch (by simp) (marks_branch (by simp) ?_)))
  split
  · simp
  next lane u hbind =>
    have hbound := marks_bindLane _ hbind
    refine marks_branch (by simp) ?_
    split
    next =>
      split
      all_goals
        next w htake =>
          have htaken := congrArg (fun p : Option Nat × State => marks p.2) htake
          simp at htaken hbound
          simp [← htaken, hbound]
    next => (repeat' split) <;> simp
    next => simp
@[simp] theorem marks_sealOpen (key : Nat) (e : Entry) (s : State) : marks (sealOpen key e s) = marks s := by simp [sealOpen]
@[simp] theorem marks_unsealBind (key : Nat) (e : Entry) (s : State) : marks (unsealBind key e s) = marks s := by
  unfold unsealBind
  dsimp only
  refine marks_branch (by simp) ?_
  split
  · simp
  next lane u hbind =>
    have hbound := marks_bindLane _ hbind
    simp [hbound]
@[simp] theorem marks_unsealOpen (key : Nat) (e : Entry) (s : State) : marks (unsealOpen key e s) = marks s := by simp [unsealOpen]
@[simp] theorem marks_resume (h : Nat) (s : State) : marks (resume h s) = marks s := by
  unfold resume; dsimp only; (repeat' split) <;> simp
@[simp] theorem marks_enterFifo (n : Nat) (s : State) : marks (enterFifo n s) = marks s := by simp [enterFifo]
@[simp] theorem marks_steer (key n : Nat) (s : State) : marks (steer key n s) = marks s := by simp [steer]
@[simp] theorem marks_streamCommand (key : Nat) (e : Entry) (s : State) : marks (streamCommand key e s) = marks s := by
  unfold streamCommand; split <;> simp
@[simp] theorem marks_streamAbort (key : Nat) (e : Entry) (s : State) : marks (streamAbort key e s) = marks s := by
  unfold streamAbort; split <;> simp
@[simp] theorem marks_streamQuery (key : Nat) (src : Source) (e : Entry) (s : State) : marks (streamQuery key src e s) = marks s := by
  unfold streamQuery; dsimp only; split <;> simp
@[simp] theorem marks_resumeIdle (n : Nat) (h : Nat) (s : State) : marks (resumeIdle n h s) = marks s := by
  unfold resumeIdle; split <;> simp

/-! ### The vault -/

@[simp] theorem marks_setVslot (s : State) (n : Nat) (k : Option Hash) : marks (s.setVslot n k) = marks s := (rfl)
@[simp] theorem marks_deriveKeys (cr : Hash) (s : State) : marks (deriveKeys cr s) = marks s := (rfl)
@[simp] theorem marks_storeLifecycle (s : State) (l : Lifecycle) : marks (s.storeLifecycle l) = marks s := (rfl)
@[simp] theorem marks_adoptCr (kek cr : Hash) (s : State) : marks (adoptCr kek cr s) = marks s := (rfl)
@[simp] theorem marks_tier1 (s : State) : marks (tier1 s) = marks s := (rfl)
@[simp] theorem marks_fireKiln (trigger : Nat) (s : State) : marks (fireKiln trigger s) = marks s := by simp [fireKiln]
@[simp] theorem marks_setSession (s : State) (g : BitVec 16) (f : Session → Session) : marks (s.setSession g f) = marks s := (rfl)
@[simp] theorem marks_endSession (s : State) (g : BitVec 16) : marks (s.endSession g) = marks s := (rfl)
@[simp] theorem marks_reserveGrant (g : BitVec 16) (key : Nat) (s : State) : marks (reserveGrant g key s) = marks s := (rfl)

/-! ### The entropy source -/

@[simp] theorem marks_rngAsk (user : RngUser) (mode len timeout : Nat) (s : State) : marks (rngAsk user mode len timeout s).2 = marks s := (rfl)
@[simp] theorem marks_rngWithdraw (id : Nat) (s : State) : marks (rngWithdraw id s).2 = marks s := by
  unfold rngWithdraw; split <;> simp
@[simp] theorem marks_latchRestart (s : State) : marks (latchRestart s) = marks s := (rfl)
@[simp] theorem marks_rngEndAll (s : State) : marks (rngEndAll s) = marks s := by simp [rngEndAll]
@[simp] theorem marks_rngRestart (s : State) : marks (rngRestart s) = marks s := by simp [rngRestart]
@[simp] theorem marks_drbgFault (s : State) : marks (drbgFault s) = marks s := (rfl)

/-! ### The public-key engine -/

@[simp] theorem marks_setPkeUnit (s : State) (u : Nat) (j : Option PkeJob) : marks (s.setPkeUnit u j) = marks s := (rfl)
@[simp] theorem marks_enterRing (s : State) (j : PkeJob) : marks (enterRing s j) = marks s := (rfl)
@[simp] theorem marks_pushJob (p : PkeParams) (input : List Byte) (outLen : Nat) (key : Option Nat) (s : State) : marks (pushJob p input outLen key s).2 = marks s := by
  simp [pushJob]
@[simp] theorem marks_releaseOne (s : State) (j : PkeJob) : marks (releaseOne s j) = marks s := by simp [releaseOne]
@[simp] theorem marks_releaseHeld (s : State) : marks (releaseHeld s) = marks s := by simp [releaseHeld]
@[simp] theorem marks_pushSign (alg key : Nat) (message : List Byte) (s : State) : marks (pushSign alg key message s) = marks s := by simp [pushSign]
@[simp] theorem marks_pushOwn (alg : Nat) (message : List Byte) (stage : OwnSign) (s : State) : marks (pushOwn alg message stage s) = marks s := by simp [pushOwn]
@[simp] theorem marks_ownEnd (j : PkeJob) (status : Nat) (s : State) : marks (ownEnd j status s) = marks s := by simp [ownEnd]
@[simp] theorem marks_writeBack (addr status unit verdict reason done time : Nat) (s : State) : marks (writeBack addr status unit verdict reason done time s) = marks s := (rfl)
@[simp] theorem marks_reportJob (j : PkeJob) (unit status : Nat) (s : State) : marks (reportJob j unit status s) = marks s := by
  unfold reportJob; dsimp only; (repeat' split) <;> simp
@[simp] theorem marks_rerunOrFence (u : Nat) (s : State) : marks (rerunOrFence u s) = marks s := by
  unfold rerunOrFence; split <;> simp
@[simp] theorem marks_stopJobs (sel : PkeJob → Bool) (status : Nat) (s : State) : marks (stopJobs sel status s) = marks s := by
  unfold stopJobs
  dsimp only
  rw [marks_releaseHeld, marks_foldl]
  · rfl
  · intro t j
    split <;> simp

/-! ### The embedded flash -/

@[simp] theorem marks_setBank (s : State) (b : Nat) (f : FlashBank → FlashBank) : marks (s.setBank b f) = marks s := (rfl)
@[simp] theorem marks_flashEndOp (b result : Nat) (s : State) : marks (flashEndOp b result s) = marks s := (rfl)
@[simp] theorem marks_flashCommand (b op word : Nat) (data : DWord) (s : State) : marks (flashCommand b op word data s) = marks s := by
  unfold flashCommand; dsimp only; (repeat' split) <;> simp
@[simp] theorem marks_eraseSector (b sec : Nat) (s : State) : marks (eraseSector b sec s) = marks s := by
  unfold eraseSector; split <;> simp
@[simp] theorem marks_flashDone (b : Nat) (res : FlashEnd) (s : State) : marks (flashDone b res s) = marks s := by
  unfold flashDone; (repeat' split) <;> simp
@[simp] theorem marks_pwEnd (result : Nat) (s : State) : marks (pwEnd result s) = marks s := (rfl)
@[simp] theorem marks_pwClear (s : State) : marks (pwClear s) = marks s := (rfl)
@[simp] theorem marks_flashUnlock (pw : QWord) (s : State) : marks (flashUnlock pw s) = marks s := by simp [flashUnlock]
@[simp] theorem marks_flashLock (s : State) : marks (flashLock s) = marks s := by simp [flashLock]
@[simp] theorem marks_passwordDone (s : State) : marks (passwordDone s) = marks s := by
  unfold passwordDone; split <;> simp
@[simp] theorem marks_bankInterrupt (b : Nat) (s : State) : marks (bankInterrupt b s) = marks s := by
  unfold bankInterrupt; split <;> simp
@[simp] theorem marks_flashInterrupt (s : State) : marks (flashInterrupt s) = marks s := by simp [flashInterrupt]
@[simp] theorem marks_flashReset (powerOn : Bool) (s : State) : marks (flashReset powerOn s) = marks s := (rfl)

/-! ### The tamper monitors -/

@[simp] theorem marks_armTamper (m : BitVec 17) (s : State) : marks (armTamper m s) = marks s := by simp [armTamper]
@[simp] theorem marks_armField (s : State) : marks (armField s) = marks s := by simp [armField]
@[simp] theorem marks_bistBegin (k : Nat) (s : State) : marks (bistBegin k s) = marks s := (rfl)
@[simp] theorem marks_countSplit (d : Nat) (s : State) : marks (countSplit d s) = marks s := by simp [countSplit]
@[simp] theorem marks_decisionSplit (d : Nat) (s : State) : marks (decisionSplit d s) = marks s := by simp [decisionSplit]

/-! ### What a reset withdraws -/

@[simp] theorem marks_keepHeld (s : State) (h : Held) : marks (keepHeld s h) = marks s := by
  unfold keepHeld; split <;> simp
@[simp] theorem marks_resetHeld (sel : Source → Bool) (s : State) : marks (resetHeld sel s) = marks s := by simp [resetHeld]

/-! ### The reader -/

@[simp] theorem marks_ringEvent (e : RingEvent) (s : State) : marks (ringEvent e s) = marks s := by simp [ringEvent]
@[simp] theorem marks_shelfIbi (s : State) : marks (shelfIbi s) = marks s := by simp [shelfIbi]
@[simp] theorem marks_slotEventAt (code obj count : Nat) (time : DWord) (s : State) : marks (slotEventAt code obj count time s) = marks s := by simp [slotEventAt]
@[simp] theorem marks_takeEvents (s : State) : marks (takeEvents s) = marks s := (rfl)
@[simp] theorem marks_setFe (s : State) (n : Nat) (f : FrontEnd → FrontEnd) : marks (s.setFe n f) = marks s := (rfl)
@[simp] theorem marks_sendFrame (n : Nat) (s : State) : marks (sendFrame n s) = marks s := (rfl)
@[simp] theorem marks_drivePort (n : Nat) (s : State) : marks (drivePort n s) = marks s := by
  unfold drivePort; split <;> simp
@[simp] theorem marks_startLabel (n : Nat) (s : State) : marks (startLabel n s) = marks s := by simp [startLabel]
@[simp] theorem marks_pushLabel (j : LabelJob) (s : State) : marks (pushLabel j s) = marks s := by simp [pushLabel]
@[simp] theorem marks_scanFinish (key : Nat) (s : State) : marks (scanFinish key s) = marks s := by
  unfold scanFinish; split <;> simp
@[simp] theorem marks_scanPut (key port : Nat) (bytes : List Byte) (s : State) : marks (scanPut key port bytes s) = marks s := by simp [scanPut]
@[simp] theorem marks_scanNone (key port : Nat) (skipped : Bool) (s : State) : marks (scanNone key port skipped s) = marks s := by simp [scanNone]
@[simp] theorem marks_endJob (early : Result) (skipped : Bool) (s : State) (j : LabelJob) : marks (endJob early skipped s j) = marks s := by
  unfold endJob; split <;> simp
@[simp] theorem marks_takeJobs (sel : LabelJob → Bool) (s : State) : marks (takeJobs sel s).2 = marks s := by simp [takeJobs]
@[simp] theorem marks_endJobs (early : Result) (skipped : Bool) (sel : LabelJob → Bool) (s : State) : marks (endJobs early skipped sel s) = marks s := by simp [endJobs]
@[simp] theorem marks_frontEndFenced (n : Nat) (s : State) : marks (frontEndFenced n s) = marks s := by simp [frontEndFenced]
@[simp] theorem marks_dropLabelJob (key : Nat) (s : State) : marks (dropLabelJob key s) = marks s := by simp [dropLabelJob]
@[simp] theorem marks_dropLabelJobs (s : State) : marks (dropLabelJobs s) = marks s := by simp [dropLabelJobs]
@[simp] theorem marks_slotScan (key : Nat) (src : Source) (e : Entry) (s : State) : marks (slotScan key src e s) = marks s := by simp [slotScan]
@[simp] theorem marks_labelCommand (write : Bool) (key : Nat) (src : Source) (e : Entry) (s : State) : marks (labelCommand write key src e s) = marks s := by
  unfold labelCommand; dsimp only; (repeat' split) <;> simp
@[simp] theorem marks_slotEvents (key : Nat) (src : Source) (e : Entry) (s : State) : marks (slotEvents key src e s) = marks s := by
  unfold slotEvents
  dsimp only
  refine marks_branch (by simp) ?_
  split
  · simp
  next u hu => simp [marks_writeOutput _ _ _ _ _ hu]
@[simp] theorem marks_postRequest (key : Nat) (s : State) : marks (postRequest key s) = marks s := by simp [postRequest]
@[simp] theorem marks_dropRequest (key : Nat) (s : State) : marks (dropRequest key s) = marks s := (rfl)

/-! ### The wired tag -/

@[simp] theorem marks_setTag (s : State) (f : Tag → Tag) : marks (s.setTag f) = marks s := (rfl)
@[simp] theorem marks_wiredStart (w : WiredOp) (s : State) : marks (wiredStart w s) = marks s := by simp [wiredStart]
@[simp] theorem marks_placardWrite (key : Nat) (src : Source) (e : Entry) (s : State) : marks (placardWrite key src e s) = marks s := by
  unfold placardWrite; dsimp only; (repeat' split) <;> simp
@[simp] theorem marks_dropWired (key : Nat) (s : State) : marks (dropWired key s) = marks s := (rfl)

/-! ### The card slots -/

@[simp] theorem marks_setSlot (s : State) (n : Nat) (f : CardSlot → CardSlot) : marks (s.setSlot n f) = marks s := (rfl)
@[simp] theorem marks_sendBlock (n pcb : Nat) (inf : List Byte) (s : State) : marks (sendBlock n pcb inf s) = marks s := (rfl)
@[simp] theorem marks_setEtu (n etu cwt : Nat) (s : State) : marks (setEtu n etu cwt s) = marks s := (rfl)
@[simp] theorem marks_atrTiming (n : Nat) (s : State) : marks (atrTiming n s) = marks s := (rfl)
@[simp] theorem marks_activate (n cls : Nat) (s : State) : marks (activate n cls s) = marks s := by simp [activate]
@[simp] theorem marks_deactivate (n : Nat) (s : State) : marks (deactivate n s) = marks s := (rfl)
@[simp] theorem marks_setCardJob (n : Nat) (f : CardJob → CardJob) (s : State) : marks (setCardJob n f s) = marks s := (rfl)
@[simp] theorem marks_cardCommitted (n : Nat) (j : CardJob) (s : State) : marks (cardCommitted n j s) = marks s := by
  unfold cardCommitted; split <;> simp
@[simp] theorem marks_removeJob (n mode : Nat) (early : Result) (s : State) (j : CardJob) : marks (removeJob n mode early s j) = marks s := by simp [removeJob]
@[simp] theorem marks_endCardJobs (n : Nat) (early : Result) (s : State) : marks (endCardJobs n early s) = marks s := by simp [endCardJobs]
@[simp] theorem marks_sendChain (n : Nat) (s : State) : marks (sendChain n s) = marks s := by
  unfold sendChain; split <;> simp
@[simp] theorem marks_startCardJob (n k : Nat) (s : State) : marks (startCardJob n k s) = marks s := by
  induction k generalizing s with
  | zero => rfl
  | succ k ih =>
    unfold startCardJob
    dsimp only
    (repeat' split) <;> simp [ih]
@[simp] theorem marks_goCard (n : Nat) (s : State) : marks (goCard n s) = marks s := by simp [goCard]
@[simp] theorem marks_slotFenced (n : Nat) (s : State) : marks (slotFenced n s) = marks s := by simp [slotFenced]
@[simp] theorem marks_dropCardJobs (s : State) : marks (dropCardJobs s) = marks s := by simp [dropCardJobs]
@[simp] theorem marks_dropCardJob (key : Nat) (s : State) : marks (dropCardJob key s) = marks s := (rfl)
@[simp] theorem marks_pushCard (n key : Nat) (w : CardWork) (s : State) : marks (pushCard n key w s) = marks s := by simp [pushCard]
@[simp] theorem marks_cardStatus (key : Nat) (src : Source) (e : Entry) (s : State) : marks (cardStatus key src e s) = marks s := by simp [cardStatus]
@[simp] theorem marks_cardApdu (key : Nat) (src : Source) (e : Entry) (s : State) : marks (cardApdu key src e s) = marks s := by
  unfold cardApdu; dsimp only; (repeat' split) <;> simp
@[simp] theorem marks_tokenOp (key : Nat) (src : Source) (e : Entry) (s : State) : marks (tokenOp key src e s) = marks s := by
  unfold tokenOp; dsimp only; (repeat' split) <;> simp

/-! ### Host ports and postings -/

@[simp] theorem marks_openQueue (q : Queue) (s : State) : marks (openQueue q s) = marks s := by simp [openQueue]
@[simp] theorem marks_closeQueue (qid : Nat) (s : State) : marks (closeQueue qid s) = marks s := (rfl)
@[simp] theorem marks_dropLaneKeys (keys : List Nat) (s : State) : marks (dropLaneKeys keys s) = marks s := (rfl)
@[simp] theorem marks_abandon (status : BitVec 16) (sel : Inflight → Bool) (s : State) : marks (abandon status sel s) = marks s := by
  unfold abandon; dsimp only; split <;> simp
@[simp] theorem marks_rstCause (bits : Word) (s : State) : marks (rstCause bits s) = marks s := (rfl)
@[simp] theorem marks_flrPort (p : Nat) (s : State) : marks (flrPort p s) = marks s := by simp [flrPort]
@[simp] theorem marks_linkGone (p : Nat) (s : State) : marks (linkGone p s) = marks s := by simp [linkGone]
@[simp] theorem marks_surpriseDown (p : Nat) (s : State) : marks (surpriseDown p s) = marks s := by simp [surpriseDown]
@[simp] theorem marks_setMgmt (s : State) (f : MgmtPort → MgmtPort) : marks (s.setMgmt f) = marks s := (rfl)

/-! ### Resets and wakes -/

@[simp] theorem marks_resetCores (s : State) : marks (resetCores s) = marks s := (rfl)
@[simp] theorem marks_wipeSpace (space : Nat) (s : State) : marks (wipeSpace space s) = marks s := (rfl)
@[simp] theorem marks_clearCustody (s : State) : marks (clearCustody s) = marks s := by simp [clearCustody, faultReset]
@[simp] theorem marks_tagDetach (s : State) : marks (tagDetach s) = marks s := (rfl)
@[simp] theorem marks_warmReset (cause : Nat) (safe : Bool) (s : State) : marks (warmReset cause safe s) = marks s := by simp [warmReset]
@[simp] theorem marks_postWake (s : State) (w : WakeRec) : marks (postWake s w) = marks s := by
  unfold postWake; split <;> simp
@[simp] theorem marks_drainWakes (s : State) : marks (drainWakes s) = marks s := by simp [drainWakes]
@[simp] theorem marks_writeRegs (l : List (Nat × Word)) (s : State) : marks (writeRegs l s) = marks s := by simp [writeRegs]
@[simp] theorem marks_wakeSteep (bit : Nat) (s : State) : marks (wakeSteep bit s) = marks s := by simp [wakeSteep]
@[simp] theorem marks_wakeUp (bit : Nat) (s : State) : marks (wakeUp bit s) = marks s := by
  unfold wakeUp; split <;> simp
@[simp] theorem marks_katFaults (k : KatResults) (s : State) : marks (katFaults k s) = marks s := by simp [katFaults]

/-! ### Fences and the actions of levels -/

@[simp] theorem marks_fenceLane (n : Nat) (s : State) : marks (fenceLane n s) = marks s := by simp [fenceLane]
@[simp] theorem marks_linkFalls (s : State) : marks (linkFalls s) = marks s := by
  unfold linkFalls; dsimp only; split <;> simp
@[simp] theorem marks_fenceLink (s : State) : marks (fenceLink s) = marks s := by simp [fenceLink]
@[simp] theorem marks_fenceUnit (u : FUnit) (s : State) : marks (fenceUnit u s) = marks s := by
  unfold fenceUnit; (repeat' split) <;> simp
@[simp] theorem marks_wakeByFault (s : State) : marks (wakeByFault s) = marks s := by simp [wakeByFault]
@[simp] theorem marks_mateAction (s : State) : marks (mateAction s) = marks s := by
  unfold mateAction; (repeat' split) <;> simp
@[simp] theorem marks_kilnAction (source : Nat) (s : State) : marks (kilnAction source s) = marks s := by simp [kilnAction]
@[simp] theorem marks_stopTimers (rs : List FRecord) (s : State) : marks (stopTimers rs s) = marks s := (rfl)
@[simp] theorem marks_actOn (rs : List FRecord) (s : State) : marks (actOn rs s) = marks s := by
  unfold actOn; dsimp only; (repeat' split) <;> simp

/-! ### The pair and its castling -/

@[simp] theorem marks_setPair (s : State) (f : Pair → Pair) : marks (s.setPair f) = marks s := (rfl)
@[simp] theorem marks_sendPair (m : PairOut) (s : State) : marks (sendPair m s) = marks s := (rfl)
@[simp] theorem marks_dropEntropy (c : Inflight) (s : State) : marks (dropEntropy c s) = marks s := by
  unfold dropEntropy; split <;> simp
@[simp] theorem marks_dropJobRandom (job : Nat) (s : State) : marks (dropJobRandom job s) = marks s := by
  unfold dropJobRandom; split <;> simp
@[simp] theorem marks_withdraw (c : Inflight) (s : State) : marks (withdraw c s) = marks s := by
  unfold withdraw; split <;> simp
@[simp] theorem marks_beginPlanned (key : Option Nat) (leaving : Bool) (s : State) : marks (beginPlanned key leaving s) = marks s := by simp [beginPlanned]
@[simp] theorem marks_tryPlanned (key : Option Nat) (leaving : Bool) (s : State) : marks (tryPlanned key leaving s) = marks s := by
  unfold tryPlanned; (repeat' split) <;> simp
@[simp] theorem marks_secureUpTo (n : Nat) (s : State) : marks (secureUpTo n s) = marks s := (rfl)
@[simp] theorem marks_liftFreeze (s : State) : marks (liftFreeze s) = marks s := by simp [liftFreeze]
@[simp] theorem marks_settleHold (s : State) : marks (settleHold s) = marks s := (rfl)
@[simp] theorem marks_leverAct (s : State) : marks (leverAct s) = marks s := by
  unfold leverAct; dsimp only; split <;> simp
@[simp] theorem marks_settleShelf (s : State) : marks (settleShelf s) = marks s := by
  unfold settleShelf; dsimp only; (repeat' split) <;> simp

/-! ### Key commands -/

@[simp] theorem marks_withRandom (again : Bool) (key len : Nat) (body : State → State) (s : State) (hbody : ∀ t, marks (body t) = marks t) :
    marks (withRandom again key len body s) = marks s := by
  unfold withRandom
  split
  · exact hbody s
  · simp
@[simp] theorem marks_keyCreate (again : Bool) (key : Nat) (e : Entry) (s : State) : marks (keyCreate again key e s) = marks s := by
  unfold keyCreate
  refine marks_branch (by simp) (marks_withOid _ _ _ _ fun found t => marks_branch (by simp) ?_)
  (repeat' split) <;> simp
@[simp] theorem marks_keyLookup (key : Nat) (e : Entry) (s : State) : marks (keyLookup key e s) = marks s := by
  unfold keyLookup
  refine marks_branch (by simp) (marks_withOid _ _ _ _ fun found t => ?_)
  split <;> simp
@[simp] theorem marks_keyRotate (again : Bool) (key : Nat) (e : Entry) (s : State) : marks (keyRotate again key e s) = marks s := by
  unfold keyRotate
  refine marks_branch (by simp) (marks_withKey _ _ _ _ _ fun t => marks_withOid _ _ _ _ fun found u => marks_branch (by simp) ?_)
  split <;> simp
@[simp] theorem marks_keySetState (key : Nat) (e : Entry) (s : State) : marks (keySetState key e s) = marks s := by
  unfold keySetState
  refine marks_branch (by simp) (marks_withKey _ _ _ _ _ fun t => ?_)
  dsimp only
  split <;> simp
@[simp] theorem marks_clearKeySlots (kh : Word) (s : State) : marks (clearKeySlots kh s) = marks s := (rfl)
@[simp] theorem marks_keyShred (key : Nat) (e : Entry) (s : State) : marks (keyShred key e s) = marks s := by simp [keyShred]
@[simp] theorem marks_keyPin (key : Nat) (e : Entry) (s : State) : marks (keyPin key e s) = marks s := by simp [keyPin]
@[simp] theorem marks_keyExport (again : Bool) (key : Nat) (src : Source) (e : Entry) (s : State) : marks (keyExport again key src e s) = marks s := by simp [keyExport]
@[simp] theorem marks_keyImport (key : Nat) (src : Source) (e : Entry) (s : State) : marks (keyImport key src e s) = marks s := by
  unfold keyImport
  dsimp only
  (repeat' split) <;> try simp
  all_goals
    refine marks_withOid _ _ _ _ fun found t => ?_
    (repeat' split) <;> simp

/-! ### Quorum and custodian commands -/

@[simp] theorem marks_quorumBegin (again : Bool) (key : Nat) (src : Source) (e : Entry) (s : State) : marks (quorumBegin again key src e s) = marks s := by
  unfold quorumBegin
  dsimp only
  refine marks_branch (by simp) (marks_branch (by simp) (marks_branch (by simp) (marks_branch (by simp) ?_)))
  refine marks_withRandom _ _ _ _ _ fun t => ?_
  split
  · simp
  next u hu => simp [marks_writeOutput _ _ _ _ _ hu]
@[simp] theorem marks_grantSession (key : Nat) (x : Session) (s : State) : marks (grantSession key x s) = marks s := by simp [grantSession]
@[simp] theorem marks_countApproval (key id : Nat) (x : Session) (blob : List Byte) (s : State) : marks (countApproval key id x blob s) = marks s := by
  unfold countApproval; dsimp only; (repeat' split) <;> simp
@[simp] theorem marks_dropBlob (key : Nat) (s : State) : marks (dropBlob key s) = marks s := (rfl)
@[simp] theorem marks_quorumApprove (again : Bool) (key : Nat) (src : Source) (e : Entry) (s : State) : marks (quorumApprove again key src e s) = marks s := by
  unfold quorumApprove; dsimp only; (repeat' split) <;> simp
@[simp] theorem marks_quorumEnd (key : Nat) (e : Entry) (s : State) : marks (quorumEnd key e s) = marks s := by
  unfold quorumEnd; split <;> simp
@[simp] theorem marks_writeCustodians (cr : Hash) (m n : Nat) (cs : List Custodian) (s : State) : marks (writeCustodians cr m n cs s) = marks s := (rfl)
@[simp] theorem marks_commission (key m n : Nat) (cs : List Custodian) (ref : Hash) (s : State) : marks (commission key m n cs ref s) = marks s := by simp [commission]
@[simp] theorem marks_enrolCommission (again : Bool) (key : Nat) (src : Source) (e : Entry) (s : State) : marks (enrolCommission again key src e s) = marks s := by
  unfold enrolCommission; (repeat' split) <;> simp
@[simp] theorem marks_enrolRetire (key : Nat) (s : State) : marks (enrolRetire key s) = marks s := by simp [enrolRetire]
@[simp] theorem marks_custodianEnroll (again : Bool) (key : Nat) (src : Source) (e : Entry) (s : State) : marks (custodianEnroll again key src e s) = marks s := by
  unfold custodianEnroll; (repeat' split) <;> simp

/-! ### Images of the vault -/

@[simp] theorem marks_manifestCommit (key : Nat) (e : Entry) (s : State) : marks (manifestCommit key e s) = marks s := by simp [manifestCommit]
@[simp] theorem marks_manifestRead (key : Nat) (src : Source) (e : Entry) (s : State) : marks (manifestRead key src e s) = marks s := by simp [manifestRead]
@[simp] theorem marks_journalRead (key : Nat) (src : Source) (e : Entry) (s : State) : marks (journalRead key src e s) = marks s := by
  unfold journalRead; dsimp only; (repeat' split) <;> simp
@[simp] theorem marks_writeCheckpoint (s : State) : marks (writeCheckpoint s) = marks s := by simp [writeCheckpoint]
@[simp] theorem marks_journalCheckpoint (again : Bool) (key : Nat) (s : State) : marks (journalCheckpoint again key s) = marks s := by simp [journalCheckpoint]
@[simp] theorem marks_checkpointFault (key : Nat) (s : State) : marks (checkpointFault key s) = marks s := by
  unfold checkpointFault; split <;> simp
@[simp] theorem marks_withImageKey (n : Nat) (s : State) : marks (withImageKey n s) = marks s := (rfl)
@[simp] theorem marks_exportImage (again full : Bool) (key : Nat) (src : Source) (e : Entry) (s : State) : marks (exportImage again full key src e s) = marks s := by
  unfold exportImage
  dsimp only
  split
  · split
    · simp
    · split
      · simp
      next u hu => simp [marks_writeOutput _ _ _ _ _ hu]
  · (repeat' split) <;> simp
@[simp] theorem marks_ackImage (key : Nat) (e : Entry) (s : State) : marks (ackImage key e s) = marks s := by
  unfold ackImage; dsimp only; split <;> simp
@[simp] theorem marks_vaultExport (again : Bool) (key : Nat) (src : Source) (e : Entry) (s : State) : marks (vaultExport again key src e s) = marks s := by
  unfold vaultExport; split <;> simp
@[simp] theorem marks_applyImage (mode : Nat) (b : List Byte) (s : State) : marks (applyImage mode b s) = marks s := (rfl)
@[simp] theorem marks_replayRecord (s : State) (r : JRecord) : marks (replayRecord s r) = marks s := by
  unfold replayRecord; split <;> simp
@[simp] theorem marks_skipAll (s : State) : marks (skipAll s) = marks s := (rfl)
@[simp] theorem marks_tryJoin (chainL : Hash) (s : State) : marks (tryJoin chainL s).2 = marks s := by
  unfold tryJoin; dsimp only; (repeat' split) <;> simp
@[simp] theorem marks_vaultImport (again : Bool) (key : Nat) (src : Source) (e : Entry) (s : State) : marks (vaultImport again key src e s) = marks s := by
  unfold vaultImport; dsimp only; (repeat' split) <;> simp

/-! ### Administrative commands -/

@[simp] theorem marks_identify (key : Nat) (src : Source) (s : State) : marks (identify key src s) = marks s := by simp [identify]
@[simp] theorem marks_selftest (key : Nat) (s : State) : marks (selftest key s) = marks s := by simp [selftest]
@[simp] theorem marks_queueCreate (key : Nat) (src : Source) (e : Entry) (s : State) : marks (queueCreate key src e s) = marks s := by simp [queueCreate]
@[simp] theorem marks_queueDrained (key qid : Nat) (s : State) : marks (queueDrained key qid s) = marks s := by simp [queueDrained]
@[simp] theorem marks_queueDelete (key : Nat) (src : Source) (e : Entry) (s : State) : marks (queueDelete key src e s) = marks s := by
  unfold queueDelete; dsimp only; split <;> simp
@[simp] theorem marks_abort (key : Nat) (src : Source) (e : Entry) (s : State) : marks (abort key src e s) = marks s := by
  unfold abort; dsimp only; (repeat' split) <;> simp
@[simp] theorem marks_setTime (key : Nat) (e : Entry) (s : State) : marks (setTime key e s) = marks s := by simp [setTime]
@[simp] theorem marks_getLog (key : Nat) (src : Source) (e : Entry) (s : State) : marks (getLog key src e s) = marks s := by simp [getLog]
@[simp] theorem marks_powerState (key : Nat) (e : Entry) (s : State) : marks (powerState key e s) = marks s := by
  unfold powerState; dsimp only; (repeat' split) <;> simp
@[simp] theorem marks_wakePolicy (key : Nat) (e : Entry) (s : State) : marks (wakePolicy key e s) = marks s := by simp [wakePolicy]
@[simp] theorem marks_tamperTest (key : Nat) (e : Entry) (s : State) : marks (tamperTest key e s) = marks s := by
  unfold tamperTest; dsimp only; (repeat' split) <;> simp
@[simp] theorem marks_rngRead (again : Bool) (key : Nat) (src : Source) (e : Entry) (s : State) : marks (rngRead again key src e s) = marks s := by simp [rngRead]
@[simp] theorem marks_rngStatus (key : Nat) (s : State) : marks (rngStatus key s) = marks s := by simp [rngStatus]
@[simp] theorem marks_latchFieldRead (key : Nat) (src : Source) (e : Entry) (s : State) : marks (latchFieldRead key src e s) = marks s := by simp [latchFieldRead]
@[simp] theorem marks_pairStatus (key : Nat) (s : State) : marks (pairStatus key s) = marks s := by simp [pairStatus]
@[simp] theorem marks_castleNow (key : Nat) (s : State) : marks (castleNow key s) = marks s := by
  unfold castleNow; split <;> simp
@[simp] theorem marks_castle (key : Nat) (e : Entry) (s : State) : marks (castle key e s) = marks s := by simp [castle]
@[simp] theorem marks_drainEnd (s : State) : marks (drainEnd s) = marks s := by
  unfold drainEnd; split <;> simp
@[simp] theorem marks_pairSetPreferred (key : Nat) (e : Entry) (s : State) : marks (pairSetPreferred key e s) = marks s := by
  unfold pairSetPreferred; split <;> simp
@[simp] theorem marks_stageErase (key : Nat) (s : State) : marks (stageErase key s) = marks s := by simp [stageErase]
@[simp] theorem marks_fwStage (key : Nat) (src : Source) (e : Entry) (s : State) : marks (fwStage key src e s) = marks s := by
  unfold fwStage; dsimp only; (repeat' split) <;> simp
@[simp] theorem marks_fwActivate (key : Nat) (e : Entry) (s : State) : marks (fwActivate key e s) = marks s := by simp [fwActivate]

/-! ### Public-key commands -/

@[simp] theorem marks_pkCommand (op key : Nat) (src : Source) (e : Entry) (s : State) : marks (pkCommand op key src e s) = marks s := by
  unfold pkCommand; dsimp only; (repeat' split) <;> simp
@[simp] theorem marks_attest (again : Bool) (key : Nat) (src : Source) (e : Entry) (s : State) : marks (attest again key src e s) = marks s := by simp [attest]

/-! ### Bodies and acceptance -/

theorem marks_stateChecks (op : Nat) (src : Source) (e : Entry) (key : Nat) (s : State) {t : State} (h : stateChecks op src e key s = .ok t) : marks t = marks s := by
  rcases stateChecks_ok h with rfl | rfl <;> rfl
@[simp] theorem marks_bodyLow (again : Bool) (op key : Nat) (src : Source) (e : Entry) (s : State) : marks (bodyLow again op key src e s) = marks s := by
  unfold bodyLow; split <;> simp
@[simp] theorem marks_setExpected (v : Word) (s : State) (src : Source) : marks (setExpected v s src) = marks s := by
  unfold setExpected; split <;> simp
@[simp] theorem marks_countIntegrity (reason : Nat) (src : Source) (s : State) : marks (countIntegrity reason src s) = marks s := by simp [countIntegrity]
@[simp] theorem marks_holdInterim (c : Inflight) (s : State) : marks (holdInterim c s) = marks s := by simp [holdInterim]
@[simp] theorem marks_plainly (key : Nat) (s : State) : marks (plainly key s) = marks s := (rfl)

/-! ### Events that are taken -/

@[simp] theorem marks_ownFinish (s : State) : marks (ownFinish s) = marks s := by simp [ownFinish]

end Sys2Proof.SettledMarks
end

section
/-! SUPPORT. What the recording of faults changes, which clocks a pass runs with, and a castling module whose clocks are stopped: until a fault is recorded its memory stays (03_power_clocks_reset.md, R83; 17_fault_collector.md, R498, R505; 18_castling_pair_operation.md, R546). -/

namespace Sys2Proof.Settling

open Sys2Proof.Machine Sys2Proof.Frame Sys2Proof.SettledMarks

/-! ### A recorded fault takes a sequence number -/

theorem storeRecord_next (r : FRecord) (f : FaultBlk) : (storeRecord r f).next = f.next := by
  unfold storeRecord
  split
  · rfl
  · split
    · split <;> rfl
    · rfl

theorem marks_recordFault (combined : Bool) (i : FaultIn) (s : State) :
    marks (recordFault combined i s).2 = ((marks s).1, (marks s).2 + 1) := by
  simp only [recordFault, marks_ite, marks_postEvent, marks_line, ite_self, marks_mk, storeRecord_next]
  rfl

theorem marks_recordAll (combined : Bool) (ins : List FaultIn) (s : State) :
    marks (recordAll combined ins s).2 = ((marks s).1, (marks s).2 + ins.length) := by
  induction ins generalizing s with
  | nil => rfl
  | cons i t ih => simp [recordAll, ih, marks_recordFault, Nat.add_assoc, Nat.add_comm 1]

theorem insertInput_length_pos (i : FaultIn) (l : List FaultIn) : 0 < (insertInput i l).length := by
  cases l with
  | nil => simp [insertInput]
  | cons x t => unfold insertInput; split <;> simp

theorem sorted_length_pos {ins : List FaultIn} (h : ins.isEmpty ≠ true) : 0 < (ins.foldl (fun l i => insertInput i l) []).length := by
  obtain ⟨t, i, rfl⟩ := List.eq_nil_or_concat ins |>.resolve_left (by simpa using h)
  simpa using insertInput_length_pos i _

/-- An evaluation does nothing, or it writes records, each with a sequence number. -/
theorem evaluate_or (ins : List FaultIn) (s : State) :
    evaluate ins s = s ∨ ∃ n, 0 < n ∧ marks (evaluate ins s) = ((marks s).1, (marks s).2 + n) := by
  by_cases h : s.power.supply = .dark ∨ (ins.filter (fun i => (sourceInfo i.report.source).isSome)).isEmpty = true
  · exact .inl (by simp only [evaluate, if_pos h])
  · refine .inr ⟨_, sorted_length_pos fun he => h (.inr he), ?_⟩
    simp only [evaluate, if_neg h, marks_actOn, marks_recordAll]

/-! ### A pass loses and finds no clock -/

@[simp] theorem pll_recordFault (combined : Bool) (i : FaultIn) (s : State) : (marks (recordFault combined i s).2).1 = (marks s).1 := by
  rw [marks_recordFault]
@[simp] theorem pll_recordAll (combined : Bool) (ins : List FaultIn) (s : State) : (marks (recordAll combined ins s).2).1 = (marks s).1 := by
  rw [marks_recordAll]
@[simp] theorem pll_evaluate (ins : List FaultIn) (s : State) : (marks (evaluate ins s)).1 = (marks s).1 := by
  obtain h | ⟨n, -, h⟩ := evaluate_or ins s <;> rw [h]
@[simp] theorem pll_settleFaults (n : Nat) (s : State) : (marks (settleFaults n s)).1 = (marks s).1 := by
  induction n generalizing s with
  | zero => rfl
  | succ n ih =>
    unfold settleFaults
    split
    · rfl
    · simp [ih]
@[simp] theorem pll_ite (c : Prop) [Decidable c] (a b : Byte × Nat) : (if c then a else b).1 = if c then a.1 else b.1 := apply_ite ..
@[simp] theorem pll_faultForce (key : Nat) (e : Entry) (s : State) : (marks (faultForce key e s)).1 = (marks s).1 := by
  unfold faultForce
  split
  · simp
  · simp
  · simp only [marks_actOn, marks_ite, marks_postAll, ite_self]
    split <;> simp
@[simp] theorem pll_bodyHigh (again : Bool) (op key : Nat) (src : Source) (e : Entry) (s : State) : (marks (bodyHigh again op key src e s)).1 = (marks s).1 := by
  unfold bodyHigh
  split <;> simp
@[simp] theorem pll_runBody (again : Bool) (c : Inflight) (s : State) : (marks (runBody again c s)).1 = (marks s).1 := by
  simp [runBody]
@[simp] theorem pll_startCommand (c : Inflight) (s : State) : (marks (startCommand c s)).1 = (marks s).1 := by
  simp only [startCommand, marks_ite, pll_ite, marks_postRequest, pll_runBody, marks_waitOn, marks_line, ite_self]
@[simp] theorem pll_runDue (s : State) (key : Nat) : (marks (runDue s key)).1 = (marks s).1 := by
  unfold runDue
  split
  · rfl
  · split
    · rfl
    · split
      · simp
      · simp
      · simp
      · simp
      · simp
@[simp] theorem pll_judge (c : Inflight) (auth : Bool) (s : State) : (marks (judge c auth s)).1 = (marks s).1 := by
  unfold judge
  split
  · simp
  · split
    · simp
    · next h => simp [marks_stateChecks _ _ _ _ _ h]
@[simp] theorem pll_takeEntry (fetched : Bool) (op : BitVec 16) (src : Source) (e : Entry) (auth : Bool) (sqhead : BitVec 16) (s : State) :
    (marks (takeEntry fetched op src e auth sqhead s)).1 = (marks s).1 := by
  simp [takeEntry]
@[simp] theorem pll_takeMgmt (op : BitVec 16) (e : Entry) (s : State) : (marks (takeMgmt op e s)).1 = (marks s).1 := by
  simp [takeMgmt]
@[simp] theorem pll_takeFrames (n : Nat) (s : State) : (marks (takeFrames n s)).1 = (marks s).1 := by
  induction n generalizing s with
  | zero => rfl
  | succ n ih =>
    unfold takeFrames
    split
    · split
      · rfl
      · simp [ih]
    · rfl
@[simp] theorem pll_fetchOne (q : Nat) (s : State) : (marks (fetchOne q s)).1 = (marks s).1 := by
  unfold fetchOne
  split
  · rfl
  · split
    · simp
    · rfl
@[simp] theorem pll_fetchSome (q n : Nat) (s : State) : (marks (fetchSome q n s)).1 = (marks s).1 := by
  induction n generalizing s with
  | zero => rfl
  | succ n ih => simp [fetchSome, ih]
theorem pll_foldl {α : Type} {f : State → α → State} (hf : ∀ s x, (marks (f s x)).1 = (marks s).1) (xs : List α) (s : State) :
    (marks (xs.foldl f s)).1 = (marks s).1 := foldl_keeps (view := fun s => (marks s).1) hf xs s
@[simp] theorem pll_fetchRound (s : State) : (marks (fetchRound s)).1 = (marks s).1 := by
  unfold fetchRound
  rw [pll_foldl (fun s x => pll_fetchSome _ _ s)]
  simp
@[simp] theorem pll_fetchRounds (n : Nat) (s : State) : (marks (fetchRounds n s)).1 = (marks s).1 := by
  induction n generalizing s with
  | zero => rfl
  | succ n ih =>
    unfold fetchRounds
    split
    · simp [ih]
    · rfl
@[simp] theorem pll_fetchAll (s : State) : (marks (fetchAll s)).1 = (marks s).1 := pll_fetchRounds _ s
@[simp] theorem pll_settleOnce (s : State) : (marks (settleOnce s)).1 = (marks s).1 := by
  simp [settleOnce, pll_foldl pll_runDue]

/-! ### A castling module with stopped clocks -/

/-- Until a fault is recorded, memory is `m` and the module castles. -/
def Unmoved (m : List Host.Cell) (s : State) : Prop := s.fault.next = 0 → s.mem = m ∧ castlingRuns s = true

theorem unmoved_of_next_pos {m : List Host.Cell} {s : State} (h : 0 < (marks s).2) : Unmoved m s := fun h0 => absurd h0 (Nat.ne_of_gt h)

theorem unmoved_evaluate {m : List Host.Cell} {s : State} (ins : List FaultIn) (h : Unmoved m s) : Unmoved m (evaluate ins s) := by
  obtain he | ⟨n, hn, he⟩ := evaluate_or ins s
  · rwa [he]
  · exact unmoved_of_next_pos (by rw [he]; exact Nat.add_pos_right _ hn)

theorem unmoved_settleFaults {m : List Host.Cell} {s : State} (n : Nat) (h : Unmoved m s) : Unmoved m (settleFaults n s) := by
  induction n generalizing s with
  | zero => exact h
  | succ n ih =>
    unfold settleFaults
    split
    · exact h
    · exact ih (unmoved_evaluate _ h)

/-- A waiting MATE is taken only by a module that does not castle, so only after a record. -/
theorem unmoved_mate {m : List Host.Cell} {s : State} (h : Unmoved m s) :
    Unmoved m (if mateDue s then mateAction { s with fault := { s.fault with mateAfterCastling := false } } else s) := by
  split
  · next hdue =>
    refine unmoved_of_next_pos ?_
    rw [marks_mateAction]
    refine Nat.pos_of_ne_zero fun h0 => ?_
    have hc : castlingRuns s = true := (h h0).2
    simp [mateDue, hc] at hdue
  · exact h

theorem settleOnce_asleep {s : State} (h : s.power.pllLost &&& 0x85 ≠ 0) :
    settleOnce s = (let s := settleFaults s.fault.inputs.length (settleHold s)
      if mateDue s then mateAction { s with fault := { s.fault with mateAfterCastling := false } } else s) := by
  have hpll : ∀ t : State, (marks t).1 = (marks s).1 → awake t = false := fun t ht => by
    simp only [marks] at ht
    have h' : ¬ (t.power.pllLost &&& 0x85#8 = 0#8) := by rwa [ht]
    simp [awake, h']
  unfold settleOnce
  exact if_neg (by rw [hpll _ (by simp)]; simp)

theorem unmoved_settleOnce {m : List Host.Cell} {s : State} (hpll : s.power.pllLost &&& 0x85 ≠ 0) (h : Unmoved m s) : Unmoved m (settleOnce s) := by
  rw [settleOnce_asleep hpll]
  exact unmoved_mate (unmoved_settleFaults _ h)

theorem settle_keeps {P : State → Prop} (hP : ∀ s, P s → P (settleOnce s)) (n : Nat) (s : State) (h : P s) : P (settle n s) := by
  induction n generalizing s with
  | zero => exact h
  | succ n ih =>
    unfold settle
    split
    · exact ih _ (hP s h)
    · exact h

theorem finish_keeps {P : State → Prop} (hP : ∀ s, P s → P (settleOnce s)) (s : State) (h : P s) : P (finish s) := by
  unfold finish
  split
  · exact settle_keeps hP _ s h
  · exact h

@[simp] theorem finish_pllLost (s : State) : (finish s).power.pllLost = s.power.pllLost :=
  finish_keeps (P := fun t => (marks t).1 = (marks s).1) (fun t ht => (pll_settleOnce t).trans ht) s rfl

/-- What follows from a command with the clocks stopped and no fault recorded writes no memory. -/
theorem finish_mem_of_castlingRuns {u : State} (hpll : (finish u).power.pllLost &&& 0x85 ≠ 0) (hnext : (finish u).fault.next = 0)
    (hc : castlingRuns u = true) : (finish u).mem = u.mem := by
  rw [finish_pllLost] at hpll
  have hkept := finish_keeps (P := fun t => t.power.pllLost &&& 0x85 ≠ 0 ∧ Unmoved u.mem t)
    (fun t ⟨ht, hm⟩ => ⟨by rwa [show (settleOnce t).power.pllLost = _ from pll_settleOnce t], unmoved_settleOnce ht hm⟩)
    u ⟨hpll, fun _ => ⟨rfl, hc⟩⟩
  exact (hkept.2 hnext).1

end Sys2Proof.Settling
end

section
/-! SUPPORT. A module in which a planned castling withdraws a public-key job that holds a command and a descriptor, and the refutation it gives (10_public_key_engine.md, R332; 18_castling_pair_operation.md, R546). -/

namespace Sys2Proof.CastlingWriteBack

open Sys2Proof.Machine Sys2Proof.Safety Sys2Proof.Settling

/-! ### The module and the entry -/

/-- A job of command 1 that also names descriptor 0: its end writes that descriptor back. -/
def doubleJob : PkeJob where
  id := 1
  slot := 0
  p := { alg := 2, op := 2, scheme := 0, hash := 0, keysrc := 0, prio := 0, bits := 0, expBits := 0, ctxLen := 0 }
  input := []
  outLen := 0
  outAddr := 0
  desc := some 0
  key := some 1
  rnd := some 0
  asked := true
  rerun := false

/-- A command of a host queue that the partner takes over as the module castles. -/
def handedCommand : Inflight where
  key := 1
  accRec := none
  src := .queue 0
  op := 0x0A02
  entry := { flags := 0, byte3 := 0, tag := 7, handle := 0, params := 0, addr0 := 0, addr1 := 0, seq := 0, crc := 0 }
  sqhead := 1
  wait := .card 0
  past := false
  after := none
  began := 0
  faults := 0

/-- An ACTIVE module whose partner is healthy, its core clock stopped, with that job and that command, and a byte where the descriptor's write-back goes. -/
def castlingModule : State := { State.reset with
  power := { State.reset.power with supply := .running, booted := true, classFixed := true, holdupOk := true, leverOpen := false, pllLock := 0xFF, pllLost := 1 }
  pair := { Pair.reset with role := .active, session := .keyed, link := .up, pathA := true, pathB := true, word := some 0x21000001 }
  nvm := { Nvm.shipment with lifecycle := .commissioned, partner := some 9 }
  ktab := { Ktab.reset with present := true }
  port0 := { HostPort.reset with linkUp := true, speed := 5, width := 8, enabled := true, cfg := [(4, 6), (0xB0, 0x80000000)] }
  cqe := { Cqe.reset with queues := [freshQueue 0 0x10000 0x20000 16 16 0 0 false true 0], inflight := [handedCommand], nextKey := 2 }
  pke := { State.reset.pke with jobs := [doubleJob] }
  mem := [⟨0x20, 5⟩]
  regs := firmwareRegs State.reset }

/-- CASTLE of mode 1. -/
def castleEntry : Entry where
  flags := 0
  byte3 := 0
  tag := 3
  handle := 0
  params := 1
  addr0 := 0
  addr1 := 0
  seq := 0
  crc := 1071974872

/-- The module with the entry fetched. -/
def castleFetched : State := castlingModule.setQueue 0 (fun y => { y with sqHead := 1, sqTail := if y.sqHead = y.sqTail then 1 else y.sqTail })

/-- The command the entry becomes. -/
def castleCommand : Inflight := inflightOf 0x0702 (.queue 0) castleEntry 1 castleFetched

/-- The module as the command's body begins. -/
def castleBegun : State :=
  (signalled 0x0702 (holdInterim castleCommand (takenIn castleCommand castleFetched))).waitOn castleCommand.key .running

/-- The module as that body ends. -/
def castled : State := castle castleCommand.key castleEntry castleBegun

/-! ### What the model makes of them -/

theorem castleEntry_checked : stateChecks 0x0702 (.queue 0) castleEntry castleCommand.key (takenIn castleCommand castleFetched) =
    .ok (takenIn castleCommand castleFetched) := by
  rfl

theorem castleEntry_accepted : Accepted 0x0702 (.queue 0) castleEntry castlingModule castleCommand castleBegun := by
  refine ⟨castleFetched, false, 1, takenIn castleCommand castleFetched, ⟨by decide +kernel, rfl, freshQueue 0 0x10000 0x20000 16 16 0 0 false true 0, ?_⟩,
    ⟨by decide +kernel, by decide +kernel⟩, rfl, by decide +kernel, castleEntry_checked, by decide +kernel, by decide +kernel, rfl⟩
  exact ⟨rfl, by decide +kernel, rfl, rfl⟩

theorem castled_quiet : restless castled = false := by decide +kernel
theorem castled_mem : castled.mem = [] := by decide +kernel
theorem castled_pllLost : castled.power.pllLost = 1 := by decide +kernel
theorem castled_next : castled.fault.next = 0 := by decide +kernel
theorem castleBegun_mem : castleBegun.mem ≠ [] := by decide +kernel

/-- Refutes O59 by its clause on a planned castling. Of the commands it hands over, the castling withdraws the jobs; a job that names a descriptor besides its command
is written back there, so memory changes. No step puts such a job in the ring, but the clause is stated of every state. -/
theorem not_yomirPublicKeysAndCustody : ¬ Obligations.YomirPublicKeysAndCustody := by
  unfold Obligations.YomirPublicKeysAndCustody
  intro h
  obtain ⟨-, -, -, -, -, -, -, -, -, -, -, hcastle, -⟩ := h (.queue 0) castleEntry castlingModule castleBegun castleCommand
  obtain ⟨-, -, hplanned⟩ := hcastle castleEntry_accepted
  obtain ⟨u, hu, hcastling, hmem⟩ := hplanned (by decide +kernel) (by decide +kernel) (by decide +kernel) (by decide +kernel) (by decide +kernel) (by decide +kernel)
  have hexec : exec (.castle (.queue 0) castleEntry) castlingModule = .next (finish castled) :=
    congrArg (fun t => Host.Outcome.next (finish t)) (AdminCommands.submit_high castleEntry_accepted (by decide) fun _ => Nat.zero_le _)
  have hfinish : finish u = castled := by
    have hsame : finish castled = finish u := Host.Outcome.next.inj (hexec.symm.trans hu)
    rw [← hsame, finish, castled_quiet]
    rfl
  have hkept : (finish u).mem = u.mem := by
    refine finish_mem_of_castlingRuns ?_ ?_ ?_
    · rw [hfinish, castled_pllLost]; decide
    · rw [hfinish, castled_next]
    · rw [castlingRuns, hcastling]
  rw [hfinish, castled_mem, hmem] at hkept
  exact castleBegun_mem hkept.symm

end Sys2Proof.CastlingWriteBack
end

section
/-! SUPPORT. What the word operations of the Mbovor-32 compute, in the terms of the spec's table: comparisons, products, leading zeros, bit fields, byte permutation, faults of arithmetic (12_mbovor_core_isa.md, R388 to R396). -/

namespace Sys2Proof.WordArithmetic

open Sys2Proof.Machine

/-! ### Comparisons, products, immediates -/

theorem boolWord_slt (a b : Word) : boolWord (a.slt b) = if a.toInt < b.toInt then 1 else 0 := by
  simp only [boolWord, BitVec.slt, decide_eq_true_eq]
theorem boolWord_ult (a b : Word) : boolWord (a.ult b) = if a.toNat < b.toNat then 1 else 0 := by
  simp only [boolWord, BitVec.ult, decide_eq_true_eq]

theorem mulHighU_eq (a b : Word) : mulHighU a b = (a.setWidth 64 * b.setWidth 64).extractLsb' 32 32 := by
  have hprod : a.toNat * b.toNat < 2 ^ 64 := Nat.lt_of_lt_of_eq (Nat.mul_lt_mul'' a.isLt b.isLt) rfl
  have hwide : (a.setWidth 64 * b.setWidth 64).toNat = a.toNat * b.toNat := by
    simp only [BitVec.toNat_mul, BitVec.toNat_setWidth_of_le (show 32 ≤ 64 by decide), Nat.mod_eq_of_lt hprod]
  apply BitVec.eq_of_toNat_eq
  rw [BitVec.extractLsb'_toNat, hwide, Nat.shiftRight_eq_div_pow, mulHighU, BitVec.toNat_ofNat]
theorem mulHighS_eq (a b : Word) : mulHighS a b = (a.signExtend 64 * b.signExtend 64).extractLsb' 32 32 := by
  have hwide : a.signExtend 64 * b.signExtend 64 = BitVec.ofInt 64 (a.toInt * b.toInt) := by rw [BitVec.ofInt_mul]; rfl
  rw [hwide]
  apply BitVec.eq_of_toNat_eq
  simp only [mulHighS, BitVec.toNat_ofInt, BitVec.extractLsb'_toNat, Nat.shiftRight_eq_div_pow]
  omega

theorem toInt_sext16 (imm : BitVec 16) : (sext16 imm).toInt = imm.toInt := BitVec.toInt_signExtend_of_le (by decide)
/-- LUI's shift of the zero-extended immediate puts zeros below it. -/
theorem zext16_shiftLeft (imm : BitVec 16) : zext16 imm <<< 16 = imm ++ (0 : BitVec 16) := by
  refine BitVec.eq_of_toNat_eq (Eq.trans ?_ (BitVec.toNat_append imm 0).symm)
  have hlt := imm.isLt
  simp only [zext16, BitVec.toNat_shiftLeft, BitVec.zeroExtend, BitVec.toNat_setWidth, Nat.shiftLeft_eq, BitVec.ofNat_eq_ofNat, BitVec.toNat_zero, Nat.or_zero]
  omega
/-- A displacement counts words. -/
theorem shiftLeft_two (w : Word) : w <<< 2 = 4 * w := by bv_omega

/-! ### Leading zeros -/

theorem leadingZeros_le (w : Word) (n : Nat) : leadingZeros w n ≤ n := by
  induction n with
  | zero => exact Nat.le_refl 0
  | succ n ih => unfold leadingZeros; split <;> omega
/-- The bit below the leading zeros is set. -/
theorem leadingZeros_bit (w : Word) (n : Nat) (h : leadingZeros w n < n) : w.getLsbD (n - 1 - leadingZeros w n) = true := by
  induction n with
  | zero => exact absurd h (Nat.lt_irrefl 0)
  | succ n ih =>
    unfold leadingZeros at h ⊢
    split at h
    next htop => rwa [if_pos htop]
    next htop =>
      rw [if_neg htop, show n + 1 - 1 - (leadingZeros w n + 1) = n - 1 - leadingZeros w n by omega]
      exact ih (by omega)
theorem leadingZeros_above (w : Word) (n j : Nat) (hj : n - leadingZeros w n ≤ j) (hn : j < n) : w.getLsbD j = false := by
  induction n with
  | zero => exact absurd hn (Nat.not_lt_zero j)
  | succ n ih =>
    unfold leadingZeros at hj
    split at hj
    next => omega
    next htop =>
      rcases Nat.lt_succ_iff_lt_or_eq.mp hn with hlt | rfl
      · exact ih (by omega) hlt
      · simpa only [Bool.not_eq_true] using htop
theorem clz_toNat (w : Word) : (clz w).toNat = leadingZeros w 32 :=
  Nat.mod_eq_of_lt (Nat.lt_of_le_of_lt (leadingZeros_le w 32) (by decide))

/-! ### Bit fields (R394) -/

theorem getLsbD_maskOf (width j : Nat) : (maskOf width).getLsbD j = (decide (j < 32) && decide (j < width)) := by
  rw [maskOf, BitVec.getLsbD_ofNat, Nat.testBit_two_pow_sub_one]

theorem bitInsert_bit (rd rs : Word) (lsb w j : Nat) (hj : j < 32) :
    (bitInsert rd rs lsb (w + 1)).getLsbD j = if lsb ≤ j ∧ j ≤ lsb + w then rs.getLsbD (j - lsb) else rd.getLsbD j := by
  simp only [bitInsert, BitVec.getLsbD_or, BitVec.getLsbD_and, BitVec.getLsbD_not, BitVec.getLsbD_shiftLeft, getLsbD_maskOf]
  by_cases hin : lsb ≤ j ∧ j ≤ lsb + w
  · simp [hin, hj, show j - lsb < 32 by omega, show j - lsb < w + 1 by omega, Nat.not_lt.mpr hin.1]
  · rcases Nat.lt_or_ge j lsb with hlow | hhigh
    · simp [hj, hlow, hin]
    · simp [hj, hin, show ¬ j - lsb < w + 1 by omega]
theorem bitExtractU_bit (rs : Word) (lsb w j : Nat) (hj : j < 32) :
    (bitExtractU rs lsb (w + 1)).getLsbD j = if j ≤ w then rs.getLsbD (lsb + j) else false := by
  simp only [bitExtractU, BitVec.getLsbD_and, BitVec.getLsbD_ushiftRight, getLsbD_maskOf, hj, decide_true, Bool.true_and, Nat.lt_succ_iff]
  by_cases h : j ≤ w <;> simp [h]
theorem bitExtractS_bit (rs : Word) (lsb w j : Nat) (hj : j < 32) :
    (bitExtractS rs lsb (w + 1)).getLsbD j = rs.getLsbD (lsb + min j w) := by
  unfold bitExtractS
  rw [apply_ite (BitVec.getLsbD · j)]
  simp only [BitVec.getLsbD_or, BitVec.getLsbD_not, bitExtractU_bit _ _ _ _ hj, getLsbD_maskOf, BitVec.getLsbD_ushiftRight, hj, Nat.lt_succ_iff]
  rcases Nat.lt_or_ge w j with hout | hin
  · rw [Nat.min_eq_right (Nat.le_of_lt hout)]
    simp [Nat.not_le.mpr hout]
  · rw [Nat.min_eq_left hin]
    simp [hin]

/-! ### Byte permutation (R395) -/

theorem ofNat_fieldAt_byte {n : Nat} (w : BitVec n) (i : Nat) : BitVec.ofNat 8 (fieldAt w (8 * i + 7) (8 * i)) = w.extractLsb' (8 * i) 8 := by
  apply BitVec.eq_of_toNat_eq
  rw [fieldAt, BitVec.extractLsb'_toNat, show 8 * i + 7 + 1 - 8 * i = 8 by omega, BitVec.toNat_ofNat, Nat.mod_mod]
theorem fieldAt_byte_lt {n : Nat} (w : BitVec n) (i : Nat) : fieldAt w (8 * i + 7) (8 * i) < 2 ^ 8 := by
  rw [fieldAt, show 8 * i + 7 + 1 - 8 * i = 8 by omega]
  exact Nat.mod_lt _ (by decide)

theorem permCode_eq (sel : BitVec 16) (k : Nat) : permCode sel k = (sel.extractLsb' (4 * k) 4).toNat := by
  rw [permCode, fieldAt, BitVec.extractLsb'_toNat, show 4 * k + 3 + 1 - 4 * k = 4 by omega]
theorem permByte_lt (rd rs : Word) (code : Nat) : permByte rd rs code < 2 ^ 8 := by
  unfold permByte
  split
  · exact fieldAt_byte_lt ..
  split
  · exact fieldAt_byte_lt ..
  · decide
theorem ofNat_permByte (rd rs : Word) (code : Nat) : BitVec.ofNat 8 (permByte rd rs code) =
    if code < 4 then rd.extractLsb' (8 * code) 8 else if code < 8 then rs.extractLsb' (8 * (code - 4)) 8 else 0 := by
  simp only [permByte, apply_ite (BitVec.ofNat 8), ofNat_fieldAt_byte]
  rfl
/-- A byte placed at byte `i` of a word is byte `i` of it; the others are zero. -/
theorem put32_byte {v i k : Nat} (hv : v < 2 ^ 8) (hk : k < 4) :
    (put32 (8 * i) v).extractLsb' (8 * k) 8 = if i = k then BitVec.ofNat 8 v else 0 := by
  apply BitVec.eq_of_getLsbD_eq
  intro j hj
  rw [apply_ite (BitVec.getLsbD · j)]
  simp only [put32, BitVec.getLsbD_extractLsb', BitVec.getLsbD_ofNat, Nat.testBit_shiftLeft, hj]
  rcases Nat.lt_trichotomy i k with h | h | h
  · have hbeyond : v.testBit (8 * k + j - 8 * i) = false :=
      Nat.testBit_lt_two_pow (Nat.lt_of_lt_of_le hv (Nat.pow_le_pow_right (by decide) (by omega)))
    simp [hbeyond, Nat.ne_of_lt h]
  · have hin : 8 * i + j < 32 := by omega
    simp [← h, hin]
  · simp [Nat.ne_of_gt h, show ¬ 8 * i ≤ 8 * k + j by omega]
theorem bytePerm_byte (rd rs : Word) (sel : BitVec 16) {k : Nat} (hk : k < 4) :
    (bytePerm rd rs sel).extractLsb' (8 * k) 8 = BitVec.ofNat 8 (permByte rd rs (permCode sel k)) := by
  have hplace (i : Nat) := put32_byte (i := i) (permByte_lt rd rs (permCode sel i)) hk
  simp only [bytePerm, BitVec.extractLsb'_or]
  rw [hplace 0, hplace 1, hplace 2, hplace 3]
  obtain rfl | rfl | rfl | rfl : k = 0 ∨ k = 1 ∨ k = 2 ∨ k = 3 := by omega
  all_goals simp

/-! ### Arithmetic that can fault (R396) -/

/-- A signed result falls outside the word exactly when the word does not hold it. -/
theorem signedOut_eq (x : Int) : signedOut x = decide ((BitVec.ofInt 32 x).toInt ≠ x) := by
  rw [signedOut, ← Bool.decide_or, decide_eq_decide]
  constructor
  · have hlow := BitVec.le_toInt (BitVec.ofInt 32 x)
    have hhigh := BitVec.toInt_lt (x := BitVec.ofInt 32 x)
    omega
  · refine fun hne => Decidable.byContradiction fun hfits => hne ?_
    rw [BitVec.toInt_ofInt]
    exact Int.bmod_eq_of_le (by omega) (by omega)
theorem ofInt_toInt_sub (a b : Word) : BitVec.ofInt 32 (a.toInt - b.toInt) = a - b := by
  apply BitVec.eq_of_toInt_eq
  rw [BitVec.toInt_ofInt, BitVec.toInt_sub]

theorem arithAddv_eq (a b : Word) : arithAddv a b = ⟨a + b, false, decide ((a + b).toInt ≠ a.toInt + b.toInt)⟩ := by
  rw [arithAddv, signedOut_eq, BitVec.ofInt_add, BitVec.ofInt_toInt, BitVec.ofInt_toInt]
theorem arithSubv_eq (a b : Word) : arithSubv a b = ⟨a - b, false, decide ((a - b).toInt ≠ a.toInt - b.toInt)⟩ := by
  rw [arithSubv, signedOut_eq, ofInt_toInt_sub]

theorem arithDivu_value {a b : Word} (h : b ≠ 0) : (arithDivu a b).value.toNat = a.toNat / b.toNat := by
  rw [arithDivu, if_neg h]
  exact BitVec.toNat_udiv
theorem arithRemu_value {a b : Word} (h : b ≠ 0) : (arithRemu a b).value.toNat = a.toNat % b.toNat := by
  rw [arithRemu, if_neg h]
  exact BitVec.toNat_umod
theorem arithDivs_value {a b : Word} (h : b ≠ 0) (hfit : ¬ (a = 0x80000000 ∧ b = 0xFFFFFFFF)) :
    (arithDivs a b).value.toInt = a.toInt.tdiv b.toInt := by
  rw [arithDivs, if_neg h, if_neg hfit]
  exact BitVec.toInt_sdiv_of_ne_or_ne a b (Decidable.not_and_iff_not_or_not.mp hfit)
theorem arithRems_value {a b : Word} (h : b ≠ 0) (hfit : ¬ (a = 0x80000000 ∧ b = 0xFFFFFFFF)) :
    (arithRems a b).value.toInt = a.toInt.tmod b.toInt := by
  rw [arithRems, if_neg h, if_neg hfit]
  exact BitVec.toInt_srem a b

end Sys2Proof.WordArithmetic
end

section
/-! SUPPORT. The register file of a core: what a register field reads after a write, what a write leaves of the core, and what an instruction that writes one register leaves of the module (12_mbovor_core_isa.md, R375, R376). -/

namespace Sys2Proof.RegisterFile

open Sys2Proof.Machine Sys2Proof.Safety Sys2Proof.Laws

/-! ### Register fields -/

section
variable {c : CoreId} {k : Core} {f f' : RegF} {v : Word}

theorem phys_lt (c : CoreId) (k : Core) (n : Nat) : Core.phys c k n < 16 * c.frames := Nat.mod_lt _ (by cases c <;> decide)
/-- A window's 24 registers are 24 entries of the file. -/
theorem phys_ne {m n : Nat} (hm : m < 24) (hn : n < 24) (hne : m ≠ n) : Core.phys c k m ≠ Core.phys c k n := by
  cases c <;> simp only [Core.phys, CoreId.frames] <;> omega

theorem read_window (hf : f.toNat < 24) : k.read c f = k.rf.getD (Core.phys c k f.toNat) 0 := if_pos hf
theorem read_zero (hf : f.toNat = 24) : k.read c f = 0 := by simp [Core.read, hf]
theorem read_global (hf : 24 < f.toNat) : k.read c f = k.g.getD (f.toNat - 25) 0 := by
  rw [Core.read, if_neg (Nat.lt_asymm hf), if_neg (Nat.ne_of_gt hf)]
theorem write_window (hf : f.toNat < 24) : k.write c f v = { k with rf := k.rf.set (Core.phys c k f.toNat) v } := if_pos hf
theorem write_zero (hf : f.toNat = 24) : k.write c f v = k := by simp [Core.write, hf]
theorem write_global (hf : 24 < f.toNat) : k.write c f v = { k with g := k.g.set (f.toNat - 25) v } := by
  rw [Core.write, if_neg (Nat.lt_asymm hf), if_neg (Nat.ne_of_gt hf)]

theorem getD_set_same {l : List Word} {i : Nat} (hi : i < l.length) : (l.set i v).getD i 0 = v := by
  rw [List.getD_eq_getElem?_getD, List.getElem?_set_self hi, Option.getD_some]
theorem getD_set_ne (l : List Word) {i j : Nat} (hne : i ≠ j) : (l.set i v).getD j 0 = l.getD j 0 := by
  rw [List.getD_eq_getElem?_getD, List.getD_eq_getElem?_getD, List.getElem?_set_ne hne]

/-- A register just written reads as written, where the file has its entries. -/
theorem read_write_same (hrf : k.rf.length = 16 * c.frames) (hg : k.g.length = 7) (hf : f.toNat ≠ 24) : (k.write c f v).read c f = v := by
  rcases Nat.lt_or_gt_of_ne hf with hwindow | hglobal
  · have hlt : Core.phys c k f.toNat < k.rf.length := hrf ▸ phys_lt c k f.toNat
    rw [write_window hwindow, read_window hwindow]
    exact getD_set_same hlt
  · have hlt : f.toNat - 25 < k.g.length := by have := f.isLt; omega
    rw [write_global hglobal, read_global hglobal]
    exact getD_set_same hlt

/-- Any other register reads as before. -/
theorem read_write_ne (hne : f' ≠ f) : (k.write c f v).read c f' = k.read c f' := by
  have hnum : f.toNat ≠ f'.toNat := fun heq => hne (BitVec.eq_of_toNat_eq heq.symm)
  rcases Nat.lt_trichotomy f.toNat 24 with hwindow | hzero | hglobal
  · rw [write_window hwindow]
    rcases Nat.lt_trichotomy f'.toNat 24 with hh | hh | hh
    · rw [read_window hh, read_window hh]
      exact getD_set_ne _ (phys_ne hwindow hh hnum)
    · rw [read_zero hh, read_zero hh]
    · rw [read_global hh, read_global hh]
  · rw [write_zero hzero]
  · rw [write_global hglobal]
    rcases Nat.lt_trichotomy f'.toNat 24 with hh | hh | hh
    · rw [read_window hh, read_window hh]; rfl
    · rw [read_zero hh, read_zero hh]
    · rw [read_global hh, read_global hh]
      exact getD_set_ne _ (by omega)

end

/-- Settles O6: the three kinds of register field, each with what its read and its write are. -/
theorem coreRegisterWriteReads : Obligations.CoreRegisterWriteReads := by
  unfold Obligations.CoreRegisterWriteReads
  intro c k f v
  exact ⟨fun hwindow => read_window hwindow,
    fun hglobal => ⟨read_global hglobal, fun w r => by rw [read_global hglobal, read_global hglobal]⟩,
    fun hzero => ⟨read_zero hzero, write_zero hzero⟩,
    fun hrf hg => ⟨read_write_same hrf hg, fun h hne => read_write_ne hne⟩⟩

/-! ### What an instruction that writes one register leaves -/

/-- A register write changes the register file and the globals alone. -/
theorem write_eq (k : Core) (c : CoreId) (f : RegF) (v : Word) :
    k.write c f v = { k with rf := (k.write c f v).rf, g := (k.write c f v).g } := by
  rcases Nat.lt_trichotomy f.toNat 24 with hwindow | hzero | hglobal
  · rw [write_window hwindow]
  · rw [write_zero hzero]
  · rw [write_global hglobal]
@[simp] theorem write_pc (k : Core) (c : CoreId) (f : RegF) (v : Word) : (k.write c f v).pc = k.pc := by rw [write_eq]
@[simp] theorem write_status (k : Core) (c : CoreId) (f : RegF) (v : Word) : (k.write c f v).status = k.status := by rw [write_eq]
@[simp] theorem write_afAddr (k : Core) (c : CoreId) (f : RegF) (v : Word) : (k.write c f v).afAddr = k.afAddr := by rw [write_eq]
@[simp] theorem write_arithFlags (k : Core) (c : CoreId) (f : RegF) (v : Word) : (k.write c f v).arithFlags = k.arithFlags := by
  rw [Core.arithFlags, write_status, Core.arithFlags]

@[simp] theorem drew_core (s : State) (d : CoreId) : s.drew.core d = s.core d := by cases d <;> rfl
@[simp] theorem addCycles_core (c : CoreId) (n : Nat) (s : State) :
    (addCycles c n s).core c = { s.core c with cycle := (s.core c).cycle + BitVec.ofNat 64 (n + Config.stallCycles s.freeCtr) } := by
  rw [addCycles, drew_core, setCore_core]

section
variable (c : CoreId) (n : Nat) (rd : RegF) (v : Word) (s : State)

theorem wrote_core : (wrote c n rd v s).core c = { (s.core c).write c rd v with pc := (s.core c).pc + 4, cycle := ((wrote c n rd v s).core c).cycle } := by
  simp only [wrote, addCycles_core, advance_core, wr_core, write_pc]
theorem wrote_core_ne {d : CoreId} (h : d ≠ c) : (wrote c n rd v s).core d = s.core d := by
  rw [wrote, addCycles, drew_core, setCore_core_ne h, State.advance, setCore_core_ne h, State.wr, setCore_core_ne h]
/-- A read of a register looks at the file, the globals and the window's place, none of which the pc and the cycle count move. -/
theorem wrote_rd (f : RegF) : (wrote c n rd v s).rd c f = ((s.core c).write c rd v).read c f := by
  rw [State.rd, wrote_core]; rfl
/-- Outside the cores one free value is drawn, and nothing else happens. -/
theorem wrote_outside : ({ wrote c n rd v s with cores := s.cores, freeCtr := s.freeCtr } : State) = s := by cases c <;> rfl
theorem wrote_mem : (wrote c n rd v s).mem = s.mem := by cases c <;> rfl
/-- The management core takes requests as before: a register write neither halts nor stops it. -/
theorem wrote_mgmtTakes : mgmtTakes (wrote c n rd v s) = mgmtTakes s := by
  have hcore : ∀ t : State, mgmtTakes t = (!(t.core .mgt).halted && !(t.core .mgt).stopped && t.power.pllLost &&& 0x40 == 0) := fun _ => rfl
  have hpower : (wrote c n rd v s).power = s.power := by cases c <;> rfl
  rw [hcore, hcore, hpower]
  by_cases hc : .mgt = c
  · subst hc; rw [wrote_core, write_eq]
  · rw [wrote_core_ne c n rd v s hc]

end

/-- Of the cores and the free values, what falls due of itself depends on the management core's taking of requests alone. -/
theorem commandDue_of_outside {s t : State} (houtside : ({ t with cores := s.cores, freeCtr := s.freeCtr } : State) = s)
    (htakes : mgmtTakes t = mgmtTakes s) : commandDue t = commandDue s := by
  funext x
  unfold commandDue
  rw [htakes, ← houtside]
  rfl
theorem restless_of_outside {s t : State} (houtside : ({ t with cores := s.cores, freeCtr := s.freeCtr } : State) = s)
    (htakes : mgmtTakes t = mgmtTakes s) : restless t = restless s := by
  unfold restless
  rw [commandDue_of_outside houtside htakes]
  generalize commandDue s = due
  rw [← houtside]
  rfl

/-- Settles O5: the register file by the rules above, everything else by what `wrote` leaves alone. -/
theorem coreRegisterFrame : Obligations.CoreRegisterFrame := by
  unfold Obligations.CoreRegisterFrame
  intro c n rd v s hquiet t
  have hrestless : restless t = restless s := restless_of_outside (wrote_outside c n rd v s) (wrote_mgmtTakes c n rd v s)
  refine ⟨finish_of_quiet (hrestless.trans hquiet), fun f hne => ?register, fun hzero => ?discarded, fun d hne => wrote_core_ne c n rd v s hne,
    fun space addr => ?memory, wrote_core c n rd v s, wrote_outside c n rd v s⟩
  case register => exact (wrote_rd c n rd v s f).trans (read_write_ne hne)
  case discarded =>
    change ((wrote c n rd v s).core c).rf = _ ∧ ((wrote c n rd v s).core c).g = _
    rw [wrote_core, write_zero hzero]
    exact ⟨rfl, rfl⟩
  case memory => exact congrArg (memGet · (memKey space addr)) (wrote_mem c n rd v s)

end Sys2Proof.RegisterFile
end

section
/-! SUPPORT. How an issued instruction answers: its own work done, or the exception it meets; and the instructions that compute a register from registers (12_mbovor_core_isa.md, R389 to R398). -/

namespace Sys2Proof.Arithmetic

open Sys2Proof.Machine Sys2Proof.Safety Sys2Proof.Laws Sys2Proof.Frame Sys2Proof.WordArithmetic Sys2Proof.RegisterFile

variable {c : CoreId} {n : Nat} {rd : RegF} {s t : State}

/-! ### Issue -/

section
variable {trapPoint priv : Bool} {illegal : Option Nat} {body : State → Issue}
  (hissue : issue c n trapPoint illegal priv body s = deliver c n (body s))
include hissue

/-- Work that comes to its end leaves its state, with the cycles counted. -/
theorem next_fin (hbody : body s = .fin t) :
    (Host.Outcome.next (finish (issue c n trapPoint illegal priv body s)) : Out) = .next (finish (addCycles c n t)) := by
  rw [hissue, hbody]; rfl
/-- Work that meets a trap enters its exception, 10 cycles longer. -/
theorem next_trap {vector detail : Nat} {eaddr : Word} (hbody : body s = .trap vector detail eaddr t) :
    (Host.Outcome.next (finish (issue c n trapPoint illegal priv body s)) : Out)
      = .next (finish (addCycles c (n + 10) (raiseException c vector detail eaddr t))) := by
  rw [hissue, hbody]; rfl

end

/-- An instruction that writes a register from the present state. -/
theorem next_writeRd (h : Issues c s) {f : State → Word} {v : Word} (hv : f s = v) :
    (Host.Outcome.next (finish (issue c n false none false (writeRd c rd f) s)) : Out) = .next (finish (wrote c n rd v s)) := by
  subst hv
  exact next_fin (issue_of_issues h) rfl

/-- An instruction whose word can be illegal (R391): the exception where it is. -/
theorem next_illegal {p : Prop} [Decidable p] {d : Nat} {trapPoint priv : Bool} {body : State → Issue} (h : Issues c s) (hp : p) :
    (Host.Outcome.next (finish (issue c n trapPoint (if p then some d else none) priv body s)) : Out)
      = .next (finish (addCycles c (n + 10) (raiseException c 1 d 0 s))) := by
  rw [if_pos hp, issue_of_illegal h]
/-- The register written where it is not. -/
theorem next_writeRd_legal {p : Prop} [Decidable p] {d : Nat} (h : Issues c s) (hp : ¬ p) {f : State → Word} {v : Word} (hv : f s = v) :
    (Host.Outcome.next (finish (issue c n false (if p then some d else none) false (writeRd c rd f) s)) : Out) = .next (finish (wrote c n rd v s)) := by
  rw [if_neg hp, next_writeRd h hv]

/-! ### Arithmetic that can fault (R397, R398) -/

section
variable {f : State → Arith}

theorem writeArith_sound (hdiv : (f s).div = false) (hovf : (f s).ovf = false) :
    writeArith c rd f s = .fin ((s.wr c rd (f s).value).advance c) := by
  simp [writeArith, hdiv, hovf]

variable (hfault : (f s).div = true ∨ (f s).ovf = true)
include hfault

/-- ECAUSE's detail holds the flags in bits 0 and 1 (R386). -/
theorem writeArith_precise (hctrl : bitAt (s.core c).ctrl 0 = true) :
    writeArith c rd f s = .trap 11 (0x80 + (if (f s).div then 1 else 0) + (if (f s).ovf then 2 else 0)) (s.core c).pc s := by
  have hdetail (d o : Bool) : 0x80 + ((bit32 8 d ||| bit32 9 o : Word).toNat >>> 8) = 0x80 + (if d then 1 else 0) + (if o then 2 else 0) := by
    cases d <;> cases o <;> rfl
  have hor : ((f s).div || (f s).ovf) = true := Bool.or_eq_true_iff.mpr hfault
  simp only [writeArith, hor, hctrl, if_true, hdetail]
theorem writeArith_deferred (hctrl : bitAt (s.core c).ctrl 0 = false) :
    ∃ t, writeArith c rd f s = .fin t ∧ (t.core c).rf = ((s.core c).write c rd (f s).value).rf ∧ (t.core c).g = ((s.core c).write c rd (f s).value).g ∧
      (t.core c).pc = (s.core c).pc + 4 ∧ (t.core c).status = (s.core c).status ||| bit32 8 (f s).div ||| bit32 9 (f s).ovf ∧
      (t.core c).afAddr = (if (s.core c).arithFlags = 0 then (s.core c).pc else (s.core c).afAddr) := by
  have hor : ((f s).div || (f s).ovf) = true := Bool.or_eq_true_iff.mpr hfault
  simp only [writeArith, hor, hctrl, if_true, Bool.false_eq_true, if_false]
  refine ⟨_, rfl, ?_⟩
  simp only [advance_core, setCore_core, wr_core, write_pc, write_status, write_afAddr, write_arithFlags, BitVec.or_assoc, and_self]

end

/-- The three ways in which an instruction with the arithmetic result `r` ends: without a fault, deferred, precise. -/
def ArithEnds (c : CoreId) (n : Nat) (rd : RegF) (s : State) (r : Arith) (o : Out) : Prop :=
  (r.div = false → r.ovf = false → o = .next (finish (wrote c n rd r.value s))) ∧
  ((r.div = true ∨ r.ovf = true) → bitAt (s.core c).ctrl 0 = false →
    ∃ t, o = .next (finish (addCycles c n t)) ∧ (t.core c).rf = ((s.core c).write c rd r.value).rf ∧ (t.core c).g = ((s.core c).write c rd r.value).g ∧
      (t.core c).pc = (s.core c).pc + 4 ∧ (t.core c).status = (s.core c).status ||| bit32 8 r.div ||| bit32 9 r.ovf ∧
      (t.core c).afAddr = (if (s.core c).arithFlags = 0 then (s.core c).pc else (s.core c).afAddr)) ∧
  ((r.div = true ∨ r.ovf = true) → bitAt (s.core c).ctrl 0 = true →
    o = .next (finish (addCycles c (n + 10) (raiseException c 11 (0x80 + (if r.div then 1 else 0) + (if r.ovf then 2 else 0)) (s.core c).pc s))))
theorem writeArith_ends (h : Issues c s) (f : State → Arith) :
    ArithEnds c n rd s (f s) (.next (finish (issue c n false none false (writeArith c rd f) s))) := by
  refine ⟨fun hdiv hovf => next_fin (issue_of_issues h) (writeArith_sound hdiv hovf), fun hfault hctrl => ?deferred,
    fun hfault hctrl => next_trap (issue_of_issues h) (writeArith_precise hfault hctrl)⟩
  case deferred =>
    obtain ⟨t, hbody, hkept⟩ := writeArith_deferred (c := c) (rd := rd) hfault hctrl
    exact ⟨t, next_fin (issue_of_issues h) hbody, hkept⟩

/-- Settles O1: each instruction writes the value the table gives it. -/
theorem corePlainResults : Obligations.CorePlainResults := by
  unfold Obligations.CorePlainResults
  intro c rd rs rt s h a b
  exact ⟨next_writeRd h rfl, next_writeRd h rfl, next_writeRd h rfl, next_writeRd h rfl, next_writeRd h rfl, next_writeRd h rfl,
    next_writeRd h rfl, next_writeRd h rfl, next_writeRd h rfl, next_writeRd h rfl, next_writeRd h (boolWord_slt a b), next_writeRd h (boolWord_ult a b),
    next_writeRd h rfl, next_writeRd h (mulHighU_eq a b), next_writeRd h (mulHighS_eq a b)⟩

/-- Settles O2: likewise, with the immediate extended as its form says. -/
theorem coreImmediateResults : Obligations.CoreImmediateResults := by
  unfold Obligations.CoreImmediateResults
  intro c rd rs sh imm s h a
  have hslti : boolWord (a.slt (sext16 imm)) = if a.toInt < imm.toInt then 1 else 0 := by rw [boolWord_slt, toInt_sext16]
  exact ⟨next_writeRd h rfl, next_writeRd h rfl, next_writeRd h rfl, next_writeRd h rfl, next_writeRd h rfl, next_writeRd h rfl,
    next_writeRd h rfl, next_writeRd h rfl, next_writeRd h hslti, next_writeRd h (boolWord_ult a (sext16 imm)), next_writeRd h (zext16_shiftLeft imm)⟩

/-- Settles O3: the value of each instruction, bit by bit, and the refusal of a reserved field or selector before any value. -/
theorem coreBitFields : Obligations.CoreBitFields := by
  unfold Obligations.CoreBitFields
  intro c rd rs s h
  refine ⟨⟨clz (s.rd c rs), next_writeRd h rfl, ?clz⟩, fun lsb wm1 hfits => ?fields, fun lsb wm1 hpast => ?past, fun sel hbad => next_illegal h hbad,
    fun sel hgood => ⟨bytePerm (s.rd c rd) (s.rd c rs) sel, next_writeRd_legal h (by simp [hgood]) rfl, fun k hk => ?bytes⟩⟩
  case clz =>
    rw [clz_toNat]
    refine ⟨leadingZeros_le _ 32, leadingZeros_bit _ 32, fun j hj => ?_⟩
    rcases Nat.lt_or_ge j 32 with hin | hout
    · exact leadingZeros_above _ 32 j hj hin
    · exact BitVec.getLsbD_of_ge _ j hout
  case fields =>
    have hlegal : ¬ 32 < lsb.toNat + wm1.toNat + 1 := by omega
    exact ⟨⟨_, next_writeRd_legal h hlegal rfl, fun j => bitInsert_bit _ _ _ _ j⟩, ⟨_, next_writeRd_legal h hlegal rfl, fun j => bitExtractU_bit _ _ _ j⟩,
      ⟨_, next_writeRd_legal h hlegal rfl, fun j => bitExtractS_bit _ _ _ j⟩⟩
  case past =>
    have hillegal : 32 < lsb.toNat + wm1.toNat + 1 := by omega
    exact ⟨next_illegal h hillegal, next_illegal h hillegal, next_illegal h hillegal⟩
  case bytes => rw [bytePerm_byte _ _ _ hk, ofNat_permByte, permCode_eq]

/-- Settles O4: the values of R396, then the three ends of R397 for each instruction. -/
theorem coreArithmeticFaults : Obligations.CoreArithmeticFaults := by
  unfold Obligations.CoreArithmeticFaults
  refine ⟨fun a b => ⟨arithAddv_eq a b, arithSubv_eq a b, if_pos rfl, if_pos rfl, if_pos rfl, if_pos rfl, rfl, rfl,
    fun hb => ⟨arithDivu_value hb, arithRemu_value hb⟩, fun hb hfit => ⟨arithDivs_value hb hfit, arithRems_value hb hfit⟩⟩, ?ends⟩
  case ends =>
    intro c rd rs rt imm s h a b i k ends
    exact ⟨writeArith_ends h fun s => arithAddv (s.rd c rs) (s.rd c rt), writeArith_ends h fun s => arithSubv (s.rd c rs) (s.rd c rt),
      writeArith_ends h fun s => arithAddv (s.rd c rs) (sext16 imm), writeArith_ends h fun s => arithDivu (s.rd c rs) (s.rd c rt),
      writeArith_ends h fun s => arithDivs (s.rd c rs) (s.rd c rt), writeArith_ends h fun s => arithRemu (s.rd c rs) (s.rd c rt),
      writeArith_ends h fun s => arithRems (s.rd c rs) (s.rd c rt)⟩

end Sys2Proof.Arithmetic
end

section
/-! SUPPORT. Loads and stores: what a data access answers at each of the conditions of its order, and the instructions that make it (12_mbovor_core_isa.md, R393, R399). -/

namespace Sys2Proof.DataAccesses

open Sys2Proof.Machine Sys2Proof.Safety Sys2Proof.Laws Sys2Proof.Arithmetic

variable {c : CoreId} {rd rs : RegF} {imm : BitVec 16} {s t : State} {ring addr size d v : Nat}

/-! ### One access: alignment, then the MPU, then the bus -/

section
variable {k : Nat → State → Issue}

theorem dataLoad_misaligned (halign : addr % size ≠ 0) : dataLoad c ring addr size s k = .trap 4 0 (BitVec.ofNat 32 addr) s := by
  rw [dataLoad, if_pos halign]
theorem dataLoad_protected (halign : addr % size = 0) (hmpu : mpuCheck s c ring 0 addr = some d) :
    dataLoad c ring addr size s k = .trap 8 d (BitVec.ofNat 32 addr) s := by
  simp only [dataLoad, halign, hmpu, ne_eq, not_true_eq_false, if_false]
theorem dataLoad_busError (halign : addr % size = 0) (hmpu : mpuCheck s c ring 0 addr = none) (hbus : busLoad c addr size s = .err d t) :
    dataLoad c ring addr size s k = .trap 6 d (BitVec.ofNat 32 addr) t := by
  simp only [dataLoad, halign, hmpu, hbus, ne_eq, not_true_eq_false, if_false]
theorem dataLoad_completes (halign : addr % size = 0) (hmpu : mpuCheck s c ring 0 addr = none) (hbus : busLoad c addr size s = .ok v t) :
    dataLoad c ring addr size s k = k v t := by
  simp only [dataLoad, halign, hmpu, hbus, ne_eq, not_true_eq_false, if_false]

end

section
variable {k : State → Issue}

theorem dataStore_misaligned (halign : addr % size ≠ 0) : dataStore c ring addr size v s k = .trap 4 0 (BitVec.ofNat 32 addr) s := by
  rw [dataStore, if_pos halign]
theorem dataStore_protected (halign : addr % size = 0) (hmpu : mpuCheck s c ring 1 addr = some d) :
    dataStore c ring addr size v s k = .trap 8 d (BitVec.ofNat 32 addr) s := by
  simp only [dataStore, halign, hmpu, ne_eq, not_true_eq_false, if_false]
theorem dataStore_busError (halign : addr % size = 0) (hmpu : mpuCheck s c ring 1 addr = none) (hring : ring = 0 ∨ ringZeroOnly c addr = false)
    (hbus : busStore c addr size v s = .err d t) : dataStore c ring addr size v s k = .trap 6 d (BitVec.ofNat 32 addr) t := by
  have hreaches : ¬ (ring ≠ 0 ∧ ringZeroOnly c addr = true) := by
    rintro ⟨hne, honly⟩
    rcases hring with h0 | hfree
    · exact hne h0
    · rw [hfree] at honly; cases honly
  simp only [dataStore, halign, hmpu, hbus, hreaches, ne_eq, not_true_eq_false, if_false]

end

/-! ### The instructions -/

theorem loadRd_completes {ext : Nat → Word} (halign : (s.rd c rs + imm.signExtend 32).toNat % size = 0)
    (hmpu : mpuCheck s c (s.core c).ring 0 (s.rd c rs + imm.signExtend 32).toNat = none)
    (hbus : busLoad c (s.rd c rs + imm.signExtend 32).toNat size s = .ok v t) :
    loadRd c rd rs imm size ext s = .fin ((t.wr c rd (ext v)).advance c) := dataLoad_completes halign hmpu hbus

/-- Settles O7: the access completes, and the instruction goes on with the value extended. -/
theorem coreLoadsComplete : Obligations.CoreLoadsComplete := by
  unfold Obligations.CoreLoadsComplete
  intro c rd rs imm v s t h a hmpu
  refine ⟨fun halign hbus => ⟨?ldw, ?ldx⟩, fun halign hbus => ⟨?ldh, ?ldhu⟩, fun hbus => ⟨?ldb, ?ldbu⟩⟩
  case ldw => exact next_fin (issue_of_issues h) (loadRd_completes halign hmpu hbus)
  case ldx => exact next_fin (issue_of_issues h) (dataLoad_completes halign hmpu hbus)
  case ldh => exact next_fin (issue_of_issues h) (loadRd_completes halign hmpu hbus)
  case ldhu => exact next_fin (issue_of_issues h) (loadRd_completes halign hmpu hbus)
  case ldb => exact next_fin (issue_of_issues h) (loadRd_completes (Nat.mod_one a) hmpu hbus)
  case ldbu => exact next_fin (issue_of_issues h) (loadRd_completes (Nat.mod_one a) hmpu hbus)

/-- Settles O9: each condition of the access, where those before it pass, with the address as EADDR. -/
theorem coreAccessTraps : Obligations.CoreAccessTraps := by
  unfold Obligations.CoreAccessTraps
  intro c rd rs imm d s t h w a traps
  have haddr : BitVec.ofNat 32 a = w := (BitVec.ofNat_toNat 32 w).trans (BitVec.setWidth_eq w)
  have htraps (n v d : Nat) (u : State) : traps n v d u = .next (finish (addCycles c (n + 10) (raiseException c v d (BitVec.ofNat 32 a) u))) := by
    rw [haddr]
  simp only [htraps]
  refine ⟨fun halign => ⟨?ldw, ?stw, ?ldx⟩, fun halign => ⟨?ldh, ?sth⟩, fun halign hmpu => ?loadProtected, fun halign hmpu => ?storeProtected,
    fun halign hmpu hbus => ?loadBusError, fun halign hmpu hring hbus => ?storeBusError⟩
  case ldw => exact next_trap (issue_of_issues h) (dataLoad_misaligned halign)
  case stw => exact next_trap (issue_of_issues h) (dataStore_misaligned halign)
  case ldx => exact next_trap (issue_of_issues h) (dataLoad_misaligned halign)
  case ldh => exact next_trap (issue_of_issues h) (dataLoad_misaligned halign)
  case sth => exact next_trap (issue_of_issues h) (dataStore_misaligned halign)
  case loadProtected => exact next_trap (issue_of_issues h) (dataLoad_protected halign hmpu)
  case storeProtected => exact next_trap (issue_of_issues h) (dataStore_protected halign hmpu)
  case loadBusError => exact next_trap (issue_of_issues h) (dataLoad_busError halign hmpu hbus)
  case storeBusError =>
    have hword : (s.rd c rd).toNat % 2 ^ (8 * 4) = (s.rd c rd).toNat := Nat.mod_eq_of_lt (s.rd c rd).isLt
    rw [← hword] at hbus
    exact next_trap (issue_of_issues h) (dataStore_busError halign hmpu hring hbus)

end Sys2Proof.DataAccesses
end

section
/-! SUPPORT. Branches, jumps, calls and returns at a clean trap point (12_mbovor_core_isa.md, R377, R378, R388, R393, R400). -/

namespace Sys2Proof.ControlFlow

open Sys2Proof.Machine Sys2Proof.Safety Sys2Proof.Laws Sys2Proof.Frame Sys2Proof.WordArithmetic Sys2Proof.RegisterFile Sys2Proof.Arithmetic

variable {c : CoreId} {s : State} {t : Word}

/-! ### Branches and jumps -/

theorem target16_eq (pc : Word) (d : BitVec 16) : target16 pc d = pc + 4 * d.signExtend 32 := by rw [target16, shiftLeft_two]
theorem target26_eq (pc : Word) (d : BitVec 26) : target26 pc d = pc + 4 * d.signExtend 32 := by rw [target26, shiftLeft_two]

/-- A conditional branch, by what its condition says. -/
theorem next_branch (h : IssuesClean c s) {d : BitVec 16} {cond : State → Bool} {p : Prop} [Decidable p] (hcond : cond s = true ↔ p) :
    (Host.Outcome.next (finish (branch c d cond s)) : Out) = .next (finish
      (if p then addCycles c 2 (s.jump c ((s.core c).pc + 4 * d.signExtend 32)) else addCycles c 1 (s.jump c ((s.core c).pc + 4)))) := by
  rw [branch, issue_of_clean h]
  by_cases hp : p
  · rw [branchIf, if_pos (hcond.mpr hp), if_pos (hcond.mpr hp), if_pos hp, target16_eq]; rfl
  · rw [branchIf, if_neg (mt hcond.mp hp), if_neg (mt hcond.mp hp), if_neg hp]; rfl

theorem jumpTo_aligned (h : t.toNat % 4 = 0) : jumpTo c t s = .fin (s.jump c t) := by simp only [jumpTo, h, ne_eq, not_true_eq_false, if_false]
theorem jumpTo_misaligned (h : t.toNat % 4 ≠ 0) : jumpTo c t s = .trap 4 1 t s := if_pos h

/-- Settles O10: the condition of each branch as the table states it. -/
theorem coreBranches : Obligations.CoreBranches := by
  unfold Obligations.CoreBranches
  intro c ra rb d e s h a b pc taken passed
  refine ⟨next_branch h beq_iff_eq, next_branch h bne_iff_ne, next_branch h (by simp [BitVec.slt, a, b]), next_branch h (by simp [BitVec.slt, a, b]),
    next_branch h (by simp [BitVec.ult, a, b]), next_branch h (by simp [BitVec.ult, a, b]), ?jmp,
    fun halign => next_fin (issue_of_clean h) (jumpTo_aligned halign), fun halign => next_trap (issue_of_clean h) (jumpTo_misaligned halign)⟩
  case jmp =>
    rw [← target26_eq]
    exact next_fin (issue_of_clean h) rfl

/-! ### Calls and returns -/

section
variable (hfree : (s.core c).res < c.frames - 2)
include hfree

/-- With two frames free the return address goes into w23 of the caller, and the window slides. -/
theorem callTo_aligned (h : t.toNat % 4 = 0) :
    callTo c t s = .fin ((s.setCore c (((s.core c).write c 23 ((s.core c).pc + 4)).slideForward c)).jump c t) := by
  simp only [callTo, Nat.not_le.mpr hfree, h, ne_eq, not_true_eq_false, if_false, wr_core]
  rw [State.wr, setCore_setCore]
theorem callTo_misaligned (h : t.toNat % 4 ≠ 0) : callTo c t s = .trap 4 1 t s := by
  simp only [callTo, Nat.not_le.mpr hfree, h, ne_eq, not_false_eq_true, if_false, if_true]

end

theorem callTo_overflow (hfull : c.frames - 2 ≤ (s.core c).res) : callTo c t s = .trap 9 0 0 s := if_pos hfull
theorem returnBack_underflow (hlast : (s.core c).res ≤ 1) : returnBack c s = .trap 10 0 0 s := if_pos hlast
theorem returnBack_aligned (hres : 2 ≤ (s.core c).res) (h : (s.rd c 7).toNat % 4 = 0) :
    returnBack c s = .fin ((s.setCore c ((s.core c).slideBack c)).jump c (s.rd c 7)) := by
  simp only [returnBack, show ¬ (s.core c).res ≤ 1 by omega, h, ne_eq, not_true_eq_false, if_false]

/-- WSTATE holds its two fields apart (R384). -/
theorem wstate_fields {res cwp : Nat} (hres : res < 16) (hcwp : cwp < 16) :
    fieldAt (put32 16 res ||| put32 0 cwp) 19 16 = res ∧ fieldAt (put32 16 res ||| put32 0 cwp) 3 0 = cwp := by
  have hor : (put32 16 res ||| put32 0 cwp).toNat = res * 2 ^ 16 + cwp := by
    rw [BitVec.toNat_or, put32, put32, BitVec.toNat_ofNat, BitVec.toNat_ofNat, Nat.shiftLeft_eq, Nat.shiftLeft_zero,
      Nat.mod_eq_of_lt (by omega), Nat.mod_eq_of_lt (by omega), ← Nat.shiftLeft_eq, ← Nat.shiftLeft_add_eq_or_of_lt (by omega)]
  simp only [fieldAt, hor, Nat.shiftRight_eq_div_pow]
  omega
theorem slideForward_window {k : Core} (h : k.res + 1 < 16) : (k.slideForward c).res = k.res + 1 ∧ (k.slideForward c).cwp = (k.cwp + 1) % c.frames := by
  have hcwp : (k.cwp + 1) % c.frames < 16 := by
    have hframes : 0 < c.frames ∧ c.frames ≤ 16 := by cases c <;> decide
    exact Nat.lt_of_lt_of_le (Nat.mod_lt _ hframes.1) hframes.2
  exact wstate_fields h hcwp

/-- Settles O11: a call and a return by the frames that are free and the alignment of the target. -/
theorem coreWindows : Obligations.CoreWindows := by
  unfold Obligations.CoreWindows
  intro c rs e s h k called
  refine ⟨fun hfree => ⟨?call, fun halign => next_fin (issue_of_clean h) (callTo_aligned hfree halign)⟩,
    fun hfull => ⟨next_trap (issue_of_clean h) (callTo_overflow hfull), next_trap (issue_of_clean h) (callTo_overflow hfull)⟩,
    fun hres halign => next_fin (issue_of_clean h) (returnBack_aligned hres halign),
    fun hlast => next_trap (issue_of_clean h) (returnBack_underflow hlast), slideForward_window⟩
  case call =>
    rw [← target26_eq]
    split
    next halign => exact next_fin (issue_of_clean h) (callTo_aligned hfree halign)
    next halign => exact next_trap (issue_of_clean h) (callTo_misaligned hfree halign)

end Sys2Proof.ControlFlow
end

section
/-! SUPPORT. Special registers, and the instructions of the system group that complete (12_mbovor_core_isa.md, R379, R382 to R389). -/

namespace Sys2Proof.SystemGroup

open Sys2Proof.Machine Sys2Proof.Safety Sys2Proof.Laws Sys2Proof.Frame Sys2Proof.Arithmetic

variable {c : CoreId} {k : Core} {rd rs : RegF} {sel : Nat} {v : Word} {s t : State}

/-! ### Special registers -/

/-- The listed selectors are 1 to 15. -/
theorem specialRead_listed (hlow : 1 ≤ sel) (hhigh : sel ≤ 15) : ∃ v, specialRead c k sel = some v := by
  unfold specialRead
  split
  case h_16 => grind
  all_goals exact ⟨_, rfl⟩
theorem specialRead_unlisted (h : sel = 0 ∨ 16 ≤ sel) : specialRead c k sel = none := by
  rcases h with rfl | hhigh
  · rfl
  · obtain ⟨m, rfl⟩ := Nat.exists_eq_add_of_le' hhigh
    rfl
theorem specialReadable_ring0 (hring : k.ring = 0) : specialReadable k sel = true := by simp [specialReadable, hring]

/-- MTS writes selectors 1 to 12 alone. -/
theorem writable_of_not_specialBad (h : specialBad c k sel v = false) : 1 ≤ sel ∧ sel ≤ 12 := by
  simp only [specialBad, Bool.or_eq_false_iff, beq_eq_false_iff_ne, decide_eq_false_iff_not] at h
  omega
theorem specialRead_specialWrite_same (hlow : 1 ≤ sel) (hhigh : sel ≤ 12) : specialRead c (specialWrite k sel v) sel = some v := by
  unfold specialWrite
  split
  case h_13 => grind
  all_goals rfl
theorem specialRead_specialWrite_ne {n : Nat} (hne : n ≠ sel) :
    specialRead c (specialWrite k sel v) n = specialRead c k n := by
  unfold specialWrite
  split
  case h_13 => rfl
  all_goals
    unfold specialRead
    split <;> first | rfl | exact absurd rfl hne

theorem readSpecial_unlisted (h : specialRead c (s.core c) sel = none) : readSpecial c rd sel s = .trap 1 3 0 s := by
  simp only [readSpecial, h]
/-- A read of CYCLE_LO latches the upper half; no other read moves a special register. -/
theorem readSpecial_ring0 (hring : (s.core c).ring = 0) (h : specialRead c (s.core c) sel = some v) :
    readSpecial c rd sel s =
      .fin (((if sel = 14 then s.setCore c { s.core c with cycleHi := ((s.core c).cycle >>> 32).setWidth 32 } else s).wr c rd v).advance c) := by
  simp only [readSpecial, h, specialReadable_ring0 hring, Bool.true_eq_false, if_false]

theorem writeSpecial_bad (h : specialBad c (s.core c) sel (s.rd c rs) = true) : writeSpecial c rs sel s = .trap 1 3 0 s := if_pos h

section
variable (hgood : specialBad c (s.core c) sel (s.rd c rs) = false)
include hgood

theorem writeSpecial_user (hring : (s.core c).ring ≠ 0) : writeSpecial c rs sel s = .trap 2 1 0 s := by
  simp only [writeSpecial, hgood, hring, Bool.false_eq_true, ne_eq, not_false_eq_true, if_false, if_true]
theorem writeSpecial_ring0 (hring : (s.core c).ring = 0) :
    writeSpecial c rs sel s = .fin ((s.setCore c (specialWrite (s.core c) sel (s.rd c rs))).advance c) := by
  simp only [writeSpecial, hgood, hring, Bool.false_eq_true, ne_eq, not_true_eq_false, if_false]

end

/-- Settles O12: MFS and MTS by the selector and the ring, and what each special register reads after a write. -/
theorem coreSpecials : Obligations.CoreSpecials := by
  unfold Obligations.CoreSpecials
  intro c rd rs sel s h k
  have hissue {n : Nat} {body : State → Issue} := issue_of_issues (cy := n) (body := body) h
  refine ⟨fun hring hlow hhigh hcycle => ?read, fun hring hcycle => ?cycle,
    fun hunlisted => next_trap hissue (readSpecial_unlisted (specialRead_unlisted hunlisted)),
    fun hring hgood => ?write, fun hbad => next_trap hissue (writeSpecial_bad hbad), fun hring hgood => next_trap hissue (writeSpecial_user hgood hring)⟩
  case read =>
    obtain ⟨v, hv⟩ := specialRead_listed (c := c) (k := k) hlow hhigh
    have hbody := readSpecial_ring0 (rd := rd) hring hv
    rw [if_neg hcycle] at hbody
    exact ⟨v, hv, next_fin hissue hbody⟩
  case cycle =>
    have hv : specialRead c k sel.toNat = some (k.cycle.setWidth 32) := by rw [hcycle]; rfl
    have hbody := readSpecial_ring0 (rd := rd) hring hv
    rw [if_pos hcycle] at hbody
    exact next_fin hissue hbody
  case write =>
    obtain ⟨hlow, hhigh⟩ := writable_of_not_specialBad hgood
    exact ⟨next_fin hissue (writeSpecial_ring0 hgood hring), specialRead_specialWrite_same hlow hhigh,
      fun n hne => specialRead_specialWrite_ne hne⟩

/-! ### Spill and fill (R379) -/

section
variable (hk : s.core c = k)
include hk

theorem spillFrame_completes (hres : 3 ≤ k.res) (hroom : k.spilllim.toNat ≤ (k.spillp - 64).toNat)
    (hstore : storeWords c (k.spillp - 64).toNat (k.frame (Core.oldest c k)) s = (none, t)) :
    spillFrame c s = .fin ((t.setCore c { k.setWindow k.cwp (k.res - 1) with spillp := k.spillp - 64 }).advance c) := by
  simp only [spillFrame, hk, Nat.not_lt.mpr hres, Nat.not_lt.mpr hroom, hstore, if_false]
theorem fillFrame_completes {ws : List Word} (hres : k.res ≤ c.frames - 2) (hload : loadWords c k.spillp.toNat 16 s = (.ok ws, t)) :
    fillFrame c s = .fin ((t.setCore c { (k.setFrame ((k.cwp + c.frames - k.res) % c.frames) ws).setWindow k.cwp (k.res + 1) with
      spillp := k.spillp + 64 }).advance c) := by
  simp only [fillFrame, hk, Nat.not_lt.mpr hres, hload, if_false]

end

/-- Settles O13: the fences and a clean TRAPCHK only advance; WFI, SPILLF and FILLF in ring 0 do their own work. -/
theorem coreSystem : Obligations.CoreSystem := by
  unfold Obligations.CoreSystem
  intro c ws s t h k
  refine ⟨fun hclean => next_fin (issue_of_clean ⟨h, hclean⟩) rfl, next_fin (issue_of_issues h) rfl, next_fin (issue_of_issues h) rfl,
    fun hring => ?wfi, fun hring => ?wfiUser, fun hring hres hroom hstore => ?spillf, fun hring hres hload => ?fillf⟩
  case wfi =>
    refine next_fin (issue_of_ring0 ⟨h, hring⟩) (congrArg Issue.fin ?_)
    rw [State.advance, setCore_core, setCore_setCore]
  case wfiUser => exact next_finish (issue_of_user h hring)
  case spillf =>
    have hlegal : (if (s.core c).res < 3 then some 4 else none) = none := if_neg (Nat.not_lt.mpr hres)
    exact next_fin (by rw [hlegal]; exact issue_of_ring0 ⟨h, hring⟩) (spillFrame_completes rfl hres hroom hstore)
  case fillf =>
    have hlegal : (if c.frames - 2 < (s.core c).res then some 4 else none) = none := if_neg (Nat.not_lt.mpr hres)
    exact next_fin (by rw [hlegal]; exact issue_of_ring0 ⟨h, hring⟩) (fillFrame_completes rfl hres hload)

end Sys2Proof.SystemGroup
end

section
/-! SUPPORT. Exception entry where it goes through: STATUS after an entry, the core after the commit, and the causes that enter (13_rings_exceptions.md, R412 to R416, R427). -/

namespace Sys2Proof.ExceptionEntry

open Sys2Proof.Machine Sys2Proof.Safety Sys2Proof.Laws Sys2Proof.Frame Sys2Proof.Arithmetic

/-! ### STATUS after an entry (R414 step 5) -/

theorem fieldAt_eq_extract {n : Nat} (w : BitVec n) (hi lo : Nat) : fieldAt w hi lo = (w.extractLsb' lo (hi + 1 - lo)).toNat := by
  rw [fieldAt, BitVec.extractLsb'_toNat]
theorem linePriority_lt (s : State) (c : CoreId) (l : Nat) : linePriority s c l < 8 := by
  rw [linePriority, fieldAt, show 4 * (l % 8) + 2 + 1 - 4 * (l % 8) = 3 by omega]
  exact Nat.mod_lt _ (by decide)

/-- A priority in STATUS.ipl stands in bits 6:4, outside the ring and the arithmetic flags. -/
theorem put32_ipl : ∀ p < 8,
    (put32 4 p).extractLsb' 0 2 = 0#2 ∧ (put32 4 p).extractLsb' 8 2 = 0#2 ∧ (put32 4 p).extractLsb' 4 3 = BitVec.ofNat 3 p := by
  decide

section
variable (st : Word) (ie : IeMode) {ipl : Option Nat}

theorem entryStatus_ie : bitAt (entryStatus st ie ipl) 2 = (decide (ie = .keep) && bitAt st 2) := by
  cases ipl with
  | none => cases ie <;> simp [entryStatus, bitAt]
  | some p =>
    have hput : (put32 4 p).getLsbD 2 = false := by simp [put32, BitVec.getLsbD_ofNat, -BitVec.getLsbD_eq_getElem]
    cases ie <;> simp [entryStatus, bitAt, hput, -BitVec.getLsbD_eq_getElem]
theorem entryStatus_ipl {p : Nat} (hp : p < 8) : fieldAt (entryStatus st ie (some p)) 6 4 = p := by
  obtain ⟨-, -, hput⟩ := put32_ipl p hp
  have hmask : (~~~ (0x70 : Word)).extractLsb' 4 3 = 0#3 := rfl
  simp only [entryStatus, fieldAt_eq_extract, BitVec.extractLsb'_or, BitVec.extractLsb'_and, hput, hmask, BitVec.and_zero, BitVec.zero_or,
    BitVec.toNat_ofNat, Nat.mod_eq_of_lt hp]

variable (hipl : ∀ p ∈ ipl, p < 8)
include hipl

/-- A field that an entry clears and that lies outside STATUS.ipl. -/
theorem entryStatus_cleared {lo width : Nat} (hmask : (~~~ (0x303 : Word)).extractLsb' lo width = 0#width)
    (hput : ∀ p < 8, (put32 4 p).extractLsb' lo width = 0#width) : (entryStatus st ie ipl).extractLsb' lo width = 0#width := by
  cases ipl with
  | none => cases ie <;> simp only [entryStatus, BitVec.extractLsb'_and, hmask, BitVec.and_zero, BitVec.zero_and]
  | some p =>
    cases ie <;> simp only [entryStatus, BitVec.extractLsb'_or, BitVec.extractLsb'_and, hmask, hput p (hipl p rfl),
      BitVec.and_zero, BitVec.zero_and, BitVec.or_zero]
theorem entryStatus_ring : fieldAt (entryStatus st ie ipl) 1 0 = 0 := by
  rw [fieldAt_eq_extract, entryStatus_cleared st ie hipl rfl fun p hp => (put32_ipl p hp).1]; rfl
theorem entryStatus_arithFlags : fieldAt (entryStatus st ie ipl) 9 8 = 0 := by
  rw [fieldAt_eq_extract, entryStatus_cleared st ie hipl rfl fun p hp => (put32_ipl p hp).2.1]; rfl

end

/-! ### The entry (R414) -/

section
variable {c : CoreId} {q : Entering} {h : Nat} {s t : State}

/-- The core as an entry without a hardware spill commits it. -/
def enteredCore (c : CoreId) (q : Entering) (h : Nat) (k : Core) : Core :=
  { k.slideForward c with
    spillp := k.spillp - 64, epc := q.epc, ecause := put32 8 q.detail ||| put32 0 q.vector, eaddr := q.eaddr, estatus := k.status,
    shadow := q.shadow :: k.shadow, status := entryStatus k.status q.ie q.ipl, resv := none, pc := BitVec.ofNat 32 h, waiting := false }

theorem entered_enteredCore (k : Core) (hipl : ∀ p ∈ q.ipl, p < 8) : Entered c q h k (enteredCore c q h k) :=
  ⟨rfl, rfl, rfl, rfl, rfl, entryStatus_ring k.status q.ie hipl, entryStatus_arithFlags k.status q.ie hipl, rfl, rfl, rfl, rfl, rfl, rfl, rfl, rfl⟩

/-- Steps 3 to 5 where the window has room and the frame is stored. -/
theorem entryFrom_open (hroom : (s.core c).res ≠ c.frames - 1)
    (hpush : pushFrame c (s.core c).spillp (entryFrame (s.core c) q.shadow) s = (none, t)) (hkept : t.core c = s.core c) :
    entryFrom c q (BitVec.ofNat 32 h) s = t.setCore c (enteredCore c q h (s.core c)) := by
  simp only [entryFrom, hroom, hpush, if_false, commitEntry, hkept]
  rfl

theorem takeException_open (hopen : EntryOpen c q h s t) : takeException c q s = t.setCore c (enteredCore c q h (s.core c)) := by
  obtain ⟨hlock, hshadow, hroom, hhandler, hpush, hkept⟩ := hopen
  have hfrom := entryFrom_open (h := h) hroom hpush hkept
  simp only [takeException, hlock, Nat.not_le.mpr hshadow, Bool.false_eq_true, if_false]
  cases htarget : q.target with
  | some a =>
    rw [htarget] at hhandler
    subst hhandler
    rwa [BitVec.ofNat_toNat, BitVec.setWidth_eq] at hfrom
  | none =>
    rw [htarget] at hhandler
    obtain ⟨hmpu, hbus, halign, -, hfetch⟩ := hhandler
    simpa only [hmpu, hbus, halign, hfetch, ne_eq, not_true_eq_false, Bool.true_eq_false, or_self, if_false] using hfrom

/-- An entry that goes through, with what it makes of the core. -/
theorem takeException_enters (hopen : EntryOpen c q h s t) (hipl : ∀ p ∈ q.ipl, p < 8) :
    ∃ k', Entered c q h (s.core c) k' ∧ k'.status = entryStatus (s.core c).status q.ie q.ipl ∧ takeException c q s = t.setCore c k' :=
  ⟨enteredCore c q h (s.core c), entered_enteredCore (s.core c) hipl, rfl, takeException_open hopen⟩

end

/-! ### The causes -/

section
variable {c : CoreId} {h : Nat} {s t : State}

/-- An exception of the instruction at the pc clears STATUS.ie. -/
theorem raiseException_enters {v d : Nat} (hopen : EntryOpen c ⟨v, d, 0, (s.core c).pc, none, BitVec.ofNat 2 (s.core c).ring, .clear, none⟩ h s t) :
    ∃ k', Entered c ⟨v, d, 0, (s.core c).pc, none, BitVec.ofNat 2 (s.core c).ring, .clear, none⟩ h (s.core c) k' ∧
      bitAt k'.status 2 = false ∧ raiseException c v d 0 s = t.setCore c k' := by
  obtain ⟨k', hentered, hstatus, htake⟩ := takeException_enters hopen nofun
  exact ⟨k', hentered, by rw [hstatus]; exact entryStatus_ie .., htake⟩

theorem exec_brk (hissues : Issues c s) : exec (.brk c) s = .next (finish (addCycles c 11 (raiseException c 12 0 0 s))) :=
  next_trap (issue_of_issues hissues) rfl
theorem exec_undefinedInstruction {w : Word} {d : Nat} (hissues : Issues c s) (hw : illegalWord w = some d) :
    exec (.undefinedInstruction c w) s = .next (finish (addCycles c 11 (raiseException c 1 d 0 s))) := by
  change execUndefinedInstruction c w s = _
  rw [execUndefinedInstruction, hw]
  exact next_finish (issue_of_illegal hissues)
/-- A line that no register quietens is deasserted as it is taken (log 34). -/
def quietened (c : CoreId) (l : Nat) (s : State) : State := if (l ≤ 2 ∨ l = 14 ∨ l = 15 ∨ l = 21) ∧ c ≠ .mgt then s.unline l else s
theorem quietened_core (c : CoreId) (l : Nat) (s : State) : (quietened c l s).core c = s.core c := by
  unfold quietened
  split
  · cases c <;> rfl
  · rfl
/-- An interrupt keeps STATUS.ie and sets STATUS.ipl. -/
theorem exec_interrupt {l : Nat} (hon : coreOn s c = true) (hline : interruptNow s c = some l) :
    exec (.interrupt c) s = .next (finish (addCycles c 10 (takeException c ⟨16 + l, l, 0, (s.core c).pc, none, BitVec.ofNat 2 (s.core c).ring, .keep,
      some (linePriority (quietened c l s) c l)⟩ (quietened c l s)))) := by
  change execInterrupt c s = _
  rw [execInterrupt, if_pos hon, hline]
  rfl

end

/-- Settles O14: each cause reaches the shared entry, which commits step 5 of R414. -/
theorem coreExceptionEntry : Obligations.CoreExceptionEntry := by
  unfold Obligations.CoreExceptionEntry
  intro c h s t k q
  refine ⟨fun hissues hopen => ?brk, fun w d hw hissues hopen => ?undefined, fun l hon hline => ?interrupt⟩
  case brk =>
    obtain ⟨k', hentered, hie, hraise⟩ := raiseException_enters hopen
    exact ⟨k', hentered, hie, by rw [exec_brk hissues, hraise]⟩
  case undefined =>
    obtain ⟨k', hentered, hie, hraise⟩ := raiseException_enters hopen
    exact ⟨k', hentered, hie, by rw [exec_undefinedInstruction hissues hw, hraise]⟩
  case interrupt =>
    intro u qi hopen
    have hcore : u.core c = k := quietened_core c l s
    have hprio : linePriority u c l < 8 := linePriority_lt u c l
    have hipl : ∀ p ∈ qi.ipl, p < 8 := fun p hp => Option.some.inj hp ▸ hprio
    obtain ⟨k', hentered, hstatus, htake⟩ := takeException_enters hopen hipl
    rw [hcore] at hentered hstatus
    refine ⟨k', hentered, ?_, ?_, (exec_interrupt hon hline).trans (next_finish (congrArg (addCycles c 10) htake))⟩
    · rw [hstatus]; exact entryStatus_ie ..
    · rw [hstatus]; exact entryStatus_ipl _ _ hprio

end Sys2Proof.ExceptionEntry
end

section
/-! SUPPORT. GATE and ERET: the checks before the entry, the return to the interrupted program, the underflow (13_rings_exceptions.md, R406 to R408, R417, R418). -/

namespace Sys2Proof.GateAndReturn

open Sys2Proof.Machine Sys2Proof.Safety Sys2Proof.Laws Sys2Proof.Frame Sys2Proof.Arithmetic Sys2Proof.ExceptionEntry

variable {c : CoreId} {s t : State}

/-! ### GATE (R406 to R408) -/

/-- GATE's checks passed, it enters at the descriptor's target. -/
theorem enterGate_permitted {n : Nat} {target ctl : Word} (hread : loadWords c ((s.core c).gtbase.toNat + 8 * n) 2 s = (.ok [target, ctl], t))
    (hvalid : bitAt ctl 31 = true) (halign : fieldAt target 1 0 = 0) (hzero : fieldAt ctl 30 9 = 0) (hzero' : fieldAt ctl 4 2 = 0)
    (hring : (s.core c).ring ≠ 0) (hcaller : bitAt ctl (4 + (s.core c).ring) = true) (hfetch : fetchable c target.toNat = true)
    (hroom : (s.core c).res < c.frames - 2) :
    enterGate c n s = .fin (takeException c ⟨0, n, 0, (s.core c).pc + 4, some target, BitVec.ofNat 2 (min (s.core c).ring (fieldAt ctl 1 0)),
      if bitAt ctl 8 then .keep else .clear, none⟩ t) := by
  simp only [enterGate, hread, List.getD_cons_zero, List.getD_cons_succ, hvalid, halign, hzero, hzero', hring, hcaller, hfetch,
    Nat.not_le.mpr hroom, ne_eq, not_true_eq_false, Bool.true_eq_false, or_self, if_false]

/-! ### ERET (R417, R418) -/

/-- With one frame resident the window underflows, in lockdown and outside it. -/
theorem returnFromException_underflow (hlast : (s.core c).res ≤ 1) : returnFromException c s = .trap 10 0 0 s := by
  unfold returnFromException
  split
  · exact if_pos hlast
  · exact if_pos hlast

/-- Outside lockdown, to a ring that the shadow permits, with the frame read at or above SPILLLIM. -/
theorem returnFromException_returns {ws : List Word} (hlock : (s.core c).lockdown = false) (hres : 2 ≤ (s.core c).res)
    (hshadow : (s.core c).shadowTop ≤ fieldAt (s.core c).estatus 1 0) (hlimit : (s.core c).spilllim.toNat ≤ (s.core c).spillp.toNat)
    (hread : loadWords c (s.core c).spillp.toNat 16 s = (.ok ws, t)) :
    returnFromException c s = .fin (t.setCore c { (s.core c).slideBack c with
      spillp := (s.core c).spillp + 64, pc := (s.core c).epc, status := (s.core c).estatus &&& ~~~ (0x1000 : Word), resv := none,
      shadow := (s.core c).shadow.tail, epc := ws.getD 0 0, estatus := ws.getD 1 0, ecause := ws.getD 2 0, eaddr := ws.getD 3 0 }) := by
  have hframes : ¬ (s.core c).res ≤ 1 := Nat.not_le.mpr hres
  simp only [returnFromException, eretPlain, hlock, hframes, Nat.not_lt.mpr hshadow, Nat.not_lt.mpr hlimit, hread, Bool.false_eq_true, if_false]

/-- Settles O15: GATE past its checks makes the shared entry; ERET by the frames resident and the ring. -/
theorem coreGateAndReturn : Obligations.CoreGateAndReturn := by
  unfold Obligations.CoreGateAndReturn
  intro c n h target ctl ws s t u k q
  refine ⟨fun hissues hread hvalid halign hzero hzero' hring hcaller hfetch hroom hopen => ?gate,
    fun hissues hlock hres hshadow hlimit hread =>
      next_fin (issue_of_ring0 hissues) (returnFromException_returns hlock hres hshadow hlimit hread),
    fun hissues hlast => next_trap (issue_of_ring0 hissues) (returnFromException_underflow hlast),
    fun hissues hring => next_finish (issue_of_user hissues hring)⟩
  case gate =>
    have hipl : ∀ p ∈ (none : Option Nat), p < 8 := nofun
    obtain ⟨k', hentered, hstatus, htake⟩ := takeException_enters hopen hipl
    have hbody := enterGate_permitted hread hvalid halign hzero hzero' hring hcaller hfetch hroom
    refine ⟨k', hentered, ?_, next_fin (issue_of_clean hissues) (hbody.trans (congrArg Issue.fin htake))⟩
    have hkeep : decide (q.ie = .keep) = bitAt ctl 8 := by
      change decide ((if bitAt ctl 8 then IeMode.keep else .clear) = .keep) = _
      cases bitAt ctl 8 <;> rfl
    rw [hstatus, entryStatus_ie, hkeep]

end Sys2Proof.GateAndReturn
end

section
/-! SUPPORT. The embedded flash controller as a command is written: the registers its row loads, what refuses it, what starts, and a bank that holds it off (15_embedded_flash.md, R454 to R459, R463). -/

namespace Sys2Proof.FlashController

open Sys2Proof.Machine Sys2Proof.Frame

variable {b op word addr : Nat} {data : DWord} {s : State}

/-! ### A bank and its registers -/

theorem setBank_setBank (s : State) (b : Nat) (f g : FlashBank → FlashBank) : (s.setBank b f).setBank b g = s.setBank b (g ∘ f) := by
  simp only [State.setBank, List.modify_modify_eq]
/-- FLASHC_CTL keeps its value under a write of another register. -/
theorem flashWrites_setReg {a : Nat} (ha : flashBase + 8 ≠ a) (v : Word) : flashWrites (s.setReg a v) = flashWrites s := by
  simp only [flashWrites, Laws.reg_setReg, if_neg ha]

/-- FLASHC_ADDRb. -/
def addrReg (b : Nat) : Nat := flashBase + 0x100 + 0x40 * b
/-- The state with FLASHC_ADDRb written. -/
def addressed (b addr : Nat) (s : State) : State := s.setReg (addrReg b) (BitVec.ofNat 32 addr)
/-- The state with FLASHC_DATAb written after the address. -/
def loaded (b addr : Nat) (data : DWord) (s : State) : State :=
  ((addressed b addr s).setReg (addrReg b + 4) (data.setWidth 32)).setReg (addrReg b + 8) ((data >>> 32).setWidth 32)

theorem flashWrites_addressed : flashWrites (addressed b addr s) = flashWrites s :=
  flashWrites_setReg (by simp only [addrReg]; omega) _
theorem flashWrites_loaded : flashWrites (loaded b addr data s) = flashWrites s := by
  rw [loaded, flashWrites_setReg (by simp only [addrReg]; omega), flashWrites_setReg (by simp only [addrReg]; omega), flashWrites_addressed]

/-- The address register holds the byte address of the word. -/
theorem put32_word (haddr : addr < 2 ^ 24) (hword : 8 * word = addr) : put32 3 (word % 2097152) = BitVec.ofNat 32 addr := by
  have hfits : word % 2097152 = word := Nat.mod_eq_of_lt (by omega)
  rw [put32, hfits, Nat.shiftLeft_eq, ← hword, Nat.mul_comm]

/-! ### From the row to the command -/

/-- A bank that runs an operation holds off every command but SUSPEND, and RESUME where it cancels a pending suspend. -/
theorem flashRow_busy (hrun : (s.bank b).run.isSome = true) (hsuspend : op ≠ 3) (hresume : op = 4 → (s.bank b).pendingSuspend = false) :
    flashRow b op word data s = s.setBank b (fun k => { k with overrun := true }) := by
  refine if_pos ?_
  by_cases h : op = 4
  · simp [flashHeld, hrun, h, hresume h]
  · simp [flashHeld, hrun, hsuspend, h]
theorem flashRow_suspend : flashRow b 3 word data s = flashCommand b 3 word data s :=
  if_neg (by simp [flashHeld])
theorem flashRow_resume (hopen : (s.bank b).run = none ∨ (s.bank b).pendingSuspend = true) :
    flashRow b 4 word data s = flashCommand b 4 word data s := by
  refine if_neg ?_
  rcases hopen with h | h <;> simp [flashHeld, h]
/-- On an idle bank PROGRAM loads the address and both halves of the data. -/
theorem flashRow_program (hrun : (s.bank b).run = none) (haddr : addr < 2 ^ 24) (hword : 8 * word = addr) :
    flashRow b 1 word data s = flashCommand b 1 word data (loaded b addr data s) := by
  rw [flashRow, if_neg (by simp [flashHeld, hrun]), put32_word haddr hword]
  rfl
/-- On an idle bank the commands from ERASE on load the address alone. -/
theorem flashRow_addressed (hrun : (s.bank b).run = none) (hop : op = 2 ∨ 5 ≤ op) (haddr : addr < 2 ^ 24) (hword : 8 * word = addr) :
    flashRow b op word data s = flashCommand b op word data (addressed b addr s) := by
  rw [flashRow, if_neg (by simp [flashHeld, hrun])]
  simp only [put32_word haddr hword, if_neg (show ¬ (op = 3 ∨ op = 4) by omega), if_neg (show op ≠ 1 by omega)]
  rfl

/-! ### What refuses a command on an idle bank (R454, R458, R463) -/

section
variable (hrun : (s.bank b).run = none)
include hrun

theorem flashRefusal_program {sec : Nat} (hsec : word / 512 = sec) : flashRefusal s b 1 word =
    if flashWrites s = false then some 12
    else if sec ∈ (s.bank b).torn ∨ (sec ∈ (s.bank b).started ∧ (s.bank b).suspended ≠ some sec) then some 4
    else if (s.bank b).suspended = some sec then some 8
    else if sectorProtected (s.bank b) sec = true then some 3
    else if wordErased s b word = false then some 2 else none := by
  simp [flashRefusal, hrun, hsec]
theorem flashRefusal_erase {sec : Nat} (hsec : word / 512 = sec) : flashRefusal s b 2 word =
    if flashWrites s = false then some 12
    else if (s.bank b).suspended.isSome = true then some 8
    else if sectorProtected (s.bank b) sec = true then some 3 else none := by
  simp [flashRefusal, hrun, hsec]
theorem flashRefusal_query : flashRefusal s b 5 word = none := by
  simp [flashRefusal, hrun]
theorem flashRefusal_protect : flashRefusal s b 6 word =
    if flashWrites s = false then some 12 else if (s.bank b).suspended.isSome = true then some 8 else none := by
  simp [flashRefusal, hrun]
theorem flashRefusal_unprotect : flashRefusal s b 7 word =
    if flashWrites s = false then some 12 else if (s.bank b).suspended.isSome = true then some 8
    else if s.flash.unlocked = false then some 10 else none := by
  simp [flashRefusal, hrun]

end

/-- What refuses a command does not depend on the registers that its row loads. -/
theorem flashRefusal_addressed : flashRefusal (addressed b addr s) b op word = flashRefusal s b op word := by
  simp only [flashRefusal, flashWrites_addressed]; rfl
theorem flashRefusal_loaded : flashRefusal (loaded b addr data s) b op word = flashRefusal s b op word := by
  simp only [flashRefusal, flashWrites_loaded]; rfl

/-! ### What a command does -/

/-- A refused command: done at once with its code, on line 17. -/
def refusedWith (b op r : Nat) (s : State) : State :=
  { (s.setBank b (fun k => { k with op := op, done := true, result := r })) with lines := s.lines ||| bit32 17 true }
/-- A started command: not done, and the bank as `f` has it. -/
def startedBy (b op : Nat) (f : FlashBank → FlashBank) (s : State) : State := s.setBank b (fun k => f { k with op := op, done := false })

theorem flashCommand_refused {r : Nat} (hsuspend : op ≠ 3) (hresume : op ≠ 4) (h : flashRefusal s b op word = some r) :
    flashCommand b op word data s = refusedWith b op r s := by
  unfold flashCommand
  split
  · contradiction
  · contradiction
  · rw [h]; rfl

/-- PROGRAM of a word that nothing refuses. -/
theorem flashCommand_program (hgo : flashRefusal s b 1 word = none) :
    flashCommand b 1 word data s = startedBy b 1 (fun k => { k with run := some (.program word data) }) s := by
  simp only [flashCommand, hgo, setBank_setBank]; rfl
/-- The bank as an ERASE of a sector leaves it: the erase counted, the sector started (R456, R457). -/
def erasing (sec n : Nat) (k : FlashBank) : FlashBank :=
  { k with
    run := some (.erase sec), sector := sec, counts := assocSet sec (satInc 24 n) k.counts
    started := if k.started.contains sec then k.started else k.started ++ [sec] }
theorem flashCommand_erase {sec : Nat} (hgo : flashRefusal s b 2 word = none) (hsec : word / 512 = sec)
    (hwear : (assocGet sec (s.bank b).counts).getD 0 + 1 ≠ 100000) :
    flashCommand b 2 word data s = startedBy b 2 (erasing sec ((assocGet sec (s.bank b).counts).getD 0)) s := by
  simp only [flashCommand, hgo, hsec, if_neg hwear, setBank_setBank]; rfl
theorem flashCommand_query {sec : Nat} (hgo : flashRefusal s b 5 word = none) (hsec : word / 512 = sec) :
    flashCommand b 5 word data s = startedBy b 5 (fun k => { k with run := some (.query sec) }) s := by
  simp only [flashCommand, hgo, hsec, setBank_setBank]; rfl
theorem flashCommand_protect {g : Nat} (hgo : flashRefusal s b 6 word = none) (hgroup : word / 131072 = g) :
    flashCommand b 6 word data s = startedBy b 6 (fun k => { k with run := some (.protect g true) }) s := by
  simp only [flashCommand, hgo, hgroup, setBank_setBank]; rfl
theorem flashCommand_unprotect {g : Nat} (hgo : flashRefusal s b 7 word = none) (hgroup : word / 131072 = g) :
    flashCommand b 7 word data s = startedBy b 7 (fun k => { k with run := some (.protect g false) }) s := by
  simp only [flashCommand, hgo, hgroup, setBank_setBank]; rfl

/-! ### SUSPEND and RESUME (R458, R459) -/

/-- On an idle bank SUSPEND ends with result 7, and RESUME does where no erase is suspended. -/
theorem flashCommand_suspend_idle (hrun : (s.bank b).run = none) : flashCommand b 3 word data s = refusedWith b 3 7 s := by
  simp only [flashCommand, hrun, Bool.false_eq_true, false_and, if_false, setBank_setBank]; rfl
theorem flashCommand_resume_none (hrun : (s.bank b).run = none) (hnone : (s.bank b).suspended = none) :
    flashCommand b 4 word data s = refusedWith b 4 7 s := by
  simp only [flashCommand, hrun, hnone, Bool.false_eq_true, false_and, if_false, setBank_setBank]; rfl
theorem flashCommand_resume_restarts {x : Nat} (hrun : (s.bank b).run = none) (hx : (s.bank b).suspended = some x) :
    flashCommand b 4 word data s = startedBy b 4 (fun k => { k with suspended := none, run := some (.erase x), sector := x, result := 0 }) s := by
  simp only [flashCommand, hrun, hx, Bool.false_eq_true, false_and, if_false, setBank_setBank]; rfl

section
variable {sec : Nat} (hrun : (s.bank b).run = some (.erase sec))
include hrun

theorem flashCommand_suspend_defers (hpending : (s.bank b).pendingSuspend = false) : flashCommand b 3 word data s =
    s.setBank b (fun k => { k with op := 3, pendingSuspend := true, result := 0, done := false }) := by
  simp only [flashCommand, hrun, hpending, Bool.false_eq_true, and_false, if_false, if_true, setBank_setBank]; rfl
theorem flashCommand_suspend_again (hpending : (s.bank b).pendingSuspend = true) : flashCommand b 3 word data s = s := by
  simp only [flashCommand, hrun, hpending, and_self, if_true]
theorem flashCommand_resume_cancels (hpending : (s.bank b).pendingSuspend = true) : flashCommand b 4 word data s =
    { (s.setBank b (fun k => { k with op := 4, pendingSuspend := false, result := 0, done := true })) with lines := s.lines ||| bit32 17 true } := by
  simp only [flashCommand, hrun, hpending, and_self, if_true, setBank_setBank]; rfl
theorem suspendHonoured_pending (hpending : (s.bank b).pendingSuspend = true) : suspendHonoured b s =
    { (s.setBank b (fun k => { k with run := none, suspended := some sec, pendingSuspend := false, done := true })) with
      lines := s.lines ||| bit32 17 true } := by
  simp only [suspendHonoured, hrun, hpending, if_true]; rfl
theorem suspendHonoured_none (hpending : (s.bank b).pendingSuspend = false) : suspendHonoured b s = s := by
  simp only [suspendHonoured, hrun, hpending, Bool.false_eq_true, if_false]

end

/-! ### PROGRAM and the commands on a sector or a group, on an idle bank -/

section
variable {bank : Fin 4} {sec r : Nat} (hrun : (s.bank bank.val).run = none)
include hrun

section
variable (haddr : addr < 2 ^ 24) (halign : addr % 8 = 0)
include haddr halign

theorem exec_program : exec (.program bank addr data) s = .next (finish (flashCommand bank.val 1 (addr / 8) data (loaded bank.val addr data s))) := by
  have hword : addr / 8 % 2097152 = addr / 8 := Nat.mod_eq_of_lt (by omega)
  have hrow : exec (.program bank addr data) s = .next (finish (flashRow bank.val 1 (addr / 8 % 2097152) data s)) := rfl
  rw [hrow, hword, flashRow_program hrun haddr (by omega)]
theorem exec_program_refused (h : flashRefusal s bank.val 1 (addr / 8) = some r) :
    exec (.program bank addr data) s = .next (finish (refusedWith bank.val 1 r (loaded bank.val addr data s))) :=
  (exec_program hrun haddr halign).trans (next_finish (flashCommand_refused (by decide) (by decide) (flashRefusal_loaded.trans h)))
theorem exec_program_starts (h : flashRefusal s bank.val 1 (addr / 8) = none) : exec (.program bank addr data) s =
    .next (finish (startedBy bank.val 1 (fun k => { k with run := some (.program (addr / 8) data) }) (loaded bank.val addr data s))) :=
  (exec_program hrun haddr halign).trans (next_finish (flashCommand_program (flashRefusal_loaded.trans h)))

end

section
variable (hsec : sec < 4096)
include hsec

/-- ERASE and QUERY address the first byte of their sector. -/
theorem flashRow_sector (hop : op = 2 ∨ 5 ≤ op) : flashRow bank.val op (512 * (sec % 4096)) 0 s =
    flashCommand bank.val op (512 * sec) 0 (addressed bank.val (4096 * sec) s) := by
  rw [Nat.mod_eq_of_lt hsec, flashRow_addressed (addr := 4096 * sec) hrun hop (by omega) (by omega)]
theorem exec_erase_refused (h : flashRefusal s bank.val 2 (512 * sec) = some r) :
    exec (.erase bank sec) s = .next (finish (refusedWith bank.val 2 r (addressed bank.val (4096 * sec) s))) :=
  next_finish ((flashRow_sector hrun hsec (.inl rfl)).trans (flashCommand_refused (by decide) (by decide) (flashRefusal_addressed.trans h)))
theorem exec_erase_starts (h : flashRefusal s bank.val 2 (512 * sec) = none) (hwear : (assocGet sec (s.bank bank.val).counts).getD 0 + 1 ≠ 100000) :
    exec (.erase bank sec) s =
      .next (finish (startedBy bank.val 2 (erasing sec ((assocGet sec (s.bank bank.val).counts).getD 0)) (addressed bank.val (4096 * sec) s))) :=
  next_finish ((flashRow_sector hrun hsec (.inl rfl)).trans (flashCommand_erase (flashRefusal_addressed.trans h) (by omega) hwear))
theorem exec_flashQuery : exec (.flashQuery bank sec) s =
    .next (finish (startedBy bank.val 5 (fun k => { k with run := some (.query sec) }) (addressed bank.val (4096 * sec) s))) :=
  next_finish ((flashRow_sector hrun hsec (.inr (by omega))).trans
    (flashCommand_query (flashRefusal_addressed.trans (flashRefusal_query hrun)) (by omega)))

end
end

section
variable {g : Nat} (hg : g < 64) (hrun : (s.bank (g / 16)).run = none)
include hg hrun

/-- PROTECT and UNPROTECT address the first byte of their group. -/
theorem flashRow_group (hop : 5 ≤ op) : flashRow (g / 16 % 4) op (131072 * (g % 16)) 0 s =
    flashCommand (g / 16) op (131072 * (g % 16)) 0 (addressed (g / 16) (1048576 * (g % 16)) s) := by
  rw [Nat.mod_eq_of_lt (show g / 16 < 4 by omega), flashRow_addressed (addr := 1048576 * (g % 16)) hrun (.inr hop) (by omega) (by omega)]

end

/-! ### The statement -/

/-- Settles O38: each command by what its row writes first, then by what refuses it or what the bank becomes. -/
theorem flashCommands : Obligations.FlashCommands := by
  unfold Obligations.FlashCommands
  refine ⟨fun b addr sec d s haddr halign hsec hrun => ?idle, fun g s hg hwrites hrun hsuspended => ?protection, fun b sec x s hrun => ?running⟩
  case idle =>
    have hprogram := flashRefusal_program hrun (Nat.div_div_eq_div_mul addr 8 512)
    have herase := flashRefusal_erase hrun (show 512 * sec / 512 = sec by omega)
    refine ⟨fun hwrites => ⟨fun htorn hstarted hsuspended hprot herased => exec_program_starts hrun haddr halign ?_,
        fun htorn => exec_program_refused hrun haddr halign ?_,
        fun htorn hstarted hsuspended hprot => exec_program_refused hrun haddr halign ?_,
        fun hsuspended hprot hwear => exec_erase_starts hrun hsec ?_ hwear,
        fun hsuspended hprot => exec_erase_refused hrun hsec ?_⟩,
      fun hwrites => ⟨exec_program_refused hrun haddr halign (hprogram.trans (if_pos hwrites)), exec_erase_refused hrun hsec (herase.trans (if_pos hwrites))⟩,
      exec_flashQuery hrun hsec, fun x hx => next_finish ((flashRow_resume (.inl hrun)).trans (flashCommand_resume_restarts hrun hx)),
      fun hnone => next_finish ((flashRow_resume (.inl hrun)).trans (flashCommand_resume_none hrun hnone)),
      next_finish (flashRow_suspend.trans (flashCommand_suspend_idle hrun))⟩
    · simp [hprogram, hwrites, htorn, hstarted, hsuspended, hprot, herased]
    · rw [hprogram, if_neg (ne_false_of_eq_true hwrites), if_pos htorn]
    · simp [hprogram, hwrites, htorn, hstarted, hsuspended, hprot]
    · simp [herase, hwrites, hsuspended, hprot]
    · simp [herase, hwrites, hsuspended, hprot]
  case protection =>
    have hgroup : 131072 * (g % 16) / 131072 = g % 16 := by omega
    have hprotect : flashRefusal s (g / 16) 6 (131072 * (g % 16)) = none := by simp [flashRefusal_protect hrun, hwrites, hsuspended]
    have hunprotect := flashRefusal_unprotect (word := 131072 * (g % 16)) hrun
    simp only [hwrites, hsuspended, Bool.true_eq_false, Option.isSome_none, Bool.false_eq_true, if_false] at hunprotect
    exact ⟨next_finish ((flashRow_group hg hrun (by omega)).trans (flashCommand_protect (flashRefusal_addressed.trans hprotect) hgroup)),
      fun hopen => next_finish ((flashRow_group hg hrun (by omega)).trans
        (flashCommand_unprotect (flashRefusal_addressed.trans (hunprotect.trans (if_neg (ne_false_of_eq_true hopen)))) hgroup)),
      fun hlocked => next_finish ((flashRow_group hg hrun (by omega)).trans
        (flashCommand_refused (by decide) (by decide) (flashRefusal_addressed.trans (hunprotect.trans (if_pos hlocked)))))⟩
  case running =>
    have hbusy : (s.bank b.val).run.isSome = true := by rw [hrun]; rfl
    exact ⟨fun h => next_finish (flashRow_suspend.trans (flashCommand_suspend_defers hrun h)),
      next_finish (flashRow_busy hbusy (by decide) nofun), next_finish (flashRow_busy hbusy (by decide) nofun),
      fun h => next_finish (flashRow_busy hbusy (by decide) fun _ => h),
      fun h => ⟨next_finish (flashRow_suspend.trans (flashCommand_suspend_again hrun h)),
        next_finish ((flashRow_resume (.inr h)).trans (flashCommand_resume_cancels hrun h))⟩,
      fun h => next_finish (suspendHonoured_pending hrun h), fun h => next_finish (suspendHonoured_none hrun h)⟩

end Sys2Proof.FlashController
end
